-- ==== Sys2Proof/Word.lean ====
section
/-!
DEFINITION. The word types of the PBM6128 and the index types of its repeated blocks.
A register is an aligned 32-bit word (R7); a control-store word and a store word are 128 bits (R188, R207).
-/
namespace Sys2Proof

/-- A register word (R7). -/
abbrev W := BitVec 32
/-- One byte. -/
abbrev Byte := BitVec 8
/-- A 48-bit counter or compare value (R44, R51). -/
abbrev C48 := BitVec 48
/-- Channel CH0 to CH127 (R43). -/
abbrev Ch := Fin 128
/-- Pod, and I/O bank, 0 to 7 (R187). -/
abbrev Pod := Fin 8
/-- Axis AX0 to AX7 (R119). -/
abbrev Ax := Fin 8
/-- Compare unit A to D of a channel (R43). -/
abbrev Unit4 := Fin 4
/-- Mailbox 0 to 31 (R257). -/
abbrev Mbx := Fin 32
/-- A mailbox that carries commands to the service firmware (R259). -/
abbrev CmdMbx := Fin 24
/-- EIC source 0 to 1023 (R227). -/
abbrev Src := Fin 1024
/-- EIC target 0 to 6 (R232). -/
abbrev Tgt := Fin 7
/-- EIC group 0 to 31 (R227). -/
abbrev Grp := Fin 32
/-- Store segment S0 to S5 (R206). -/
abbrev Seg := Fin 6
/-- Logical converter slice (R307). -/
abbrev Slice := Fin 4

end Sys2Proof
end

