-- ==== Sys2Proof/Syntax.lean ====
section
/-!
DEFINITION. The commands and events of the table, one constructor per row, with the operands the row's rules need:
what the sender chooses (a register value, an address) and what the physical world decides (a level, a measured value).
-/
namespace Sys2Proof

/-- The register-bus masters, numbered 1 to 8 in this order (R14). -/
inductive Master where
  | keeper | watch1 | watch2 | watch3 | watch4 | pcie | qspi | debug
  deriving DecidableEq, Repr

/-- An input comparator of a bank: a channel's own ball or the bank's spare pin (R95, R385). -/
inductive InPin where
  | ch (n : Ch)
  | spb (p : Pod)
  deriving DecidableEq, Repr

/-- An axis pin (R121). -/
inductive AxPin where
  | a | b | z
  deriving DecidableEq, Repr

/-- A supply rail with a supervisor (R323). -/
inductive Rail where
  | vdd | vddaux | avdd | peVdd | peVddh
  | vio (p : Pod)
  deriving DecidableEq, Repr

/-- What the error check of a store word finds when the word is read (R217). -/
inductive Ecc where
  | clean | single | double
  deriving DecidableEq, Repr

/-- What a store master asks of a bank in one cycle (R207). -/
inductive StoreOp where
  | read
  | write (data : List Byte)
  | partialWrite (bytes : List (Option Byte))
  deriving DecidableEq, Repr

/-- One request for a bank in one cycle: the store master 0 to 24 (R213), the offset of the 16-byte word, the access and
what its error check finds. -/
structure StoreReq where
  master : Fin 25
  offset : Nat
  op     : StoreOp
  ecc    : Ecc
  deriving DecidableEq, Repr

/-- A PCI Express memory request to BAR2 (R223). -/
inductive WinAccess where
  | read (offset : Nat) (len : Nat)
  | write (offset : Nat) (bytes : List (Option Byte))
  deriving DecidableEq, Repr

/-- The link rate (R247). -/
inductive LinkSpeed where
  | gt25 | gt50 | gt80
  deriving DecidableEq, Repr

/-- A configuration request: a read, or a write of one of the function controls that R240, R241, R250 to R252 use. -/
inductive CfgReq where
  | readId
  | busMaster (on : Bool)
  | d3hot (on : Bool)
  | pmeEnable (on : Bool)
  | msixEnable (on : Bool)
  | msiEnable (on : Bool) (log2 : Fin 6)
  | maxPayload (log2 : Fin 2)
  | maxReadReq (log2 : Fin 3)
  | complTimeout (enc : BitVec 4)
  deriving DecidableEq, Repr

/-- What a serial sensor sent in one frame (R130 to R132): the position bits as received, the check bits as received, the
BiSS-C error and warning bits (active low), and the delay from clock edge to data in ticks. -/
structure SerFrame where
  pos   : BitVec 32
  crc   : BitVec 8
  nE    : Bool
  nW    : Bool
  delay : Nat
  deriving DecidableEq, Repr

/-- The frame faults of R130 and R131 that end in SER_TMO are one event; a low pulse of SAFE_n by its width (R379). -/
inductive SafePulse where
  | below2ns | between | atLeast5ns
  deriving DecidableEq, Repr

/-- What wakes the device (R356). -/
inductive WakeSrc where
  | axis (k : Ax)
  | channel (n : Ch)
  | pcie | qspi | supply | safeN | clock
  deriving DecidableEq, Repr

/-- The physical response a measurement times (R330, R331). Cable: the echo delay of each of the 16 shots in frac, where one
was found. Load: whether the high and low drive crossed the threshold, the two static samples, and the rise time in frac
where the threshold was crossed. -/
inductive MeasRaw where
  | cable (shots : List (Option Nat))
  | load (hi : Bool) (lo : Bool) (pullUp : Bool) (pullDown : Bool) (rise : Option Nat)
  | failed (detail : Fin 8)
  deriving DecidableEq, Repr

/-- One record of a decrypted patch payload (R203). -/
structure PatchRec where
  podMask : BitVec 8
  start   : Nat
  words   : List (BitVec 128)
  deriving DecidableEq, Repr

/-- What the control-store fetches of one dispatch find (R199, R200): the words with a single-bit error, and whether a 17th word
came without a yield point. [DESIGN CHOICE, log entry 44] -/
structure Fetch where
  corr : List (Fin 4096) := []
  over_ : Bool := false
  deriving DecidableEq, Repr

/-- A patch container as the loader's checks see it (R202, R204). The results of the cryptographic primitives are operands. -/
structure PatchIn where
  formatOk   : Bool
  targetStep : Byte
  level      : Nat
  keyHashOk  : Bool
  sigOk      : Bool
  tagOk      : Bool
  recs       : List PatchRec
  deriving DecidableEq, Repr

/-- A boot image as the ROM's checks see it (R347, R349). -/
structure ImageIn where
  present    : Bool
  formatOk   : Bool
  targetStep : Byte
  level      : Nat
  keyHashOk  : Bool
  hdrSigOk   : Bool
  keeperOk   : Bool
  serviceOk  : Bool
  subsystem  : W
  patch      : Option PatchIn
  deriving DecidableEq, Repr

/-- The commands and events of spec/opcode_table.json, in its order. -/
inductive Instr where
  /-- REGISTER_WRITE (R4). -/
  | registerWrite (m : Master) (addr : Nat) (w : W) (be : BitVec 4)
  /-- RC_READ (R5). -/
  | rcRead (m : Master) (addr : Nat)
  /-- LOW_WORD_READ (R14). -/
  | lowWordRead (m : Master) (addr : Nat)
  /-- HIGH_WORD_READ (R15). -/
  | highWordRead (m : Master) (addr : Nat)
  /-- WIDE_READ_8_BYTE (R16). -/
  | wideRead8Byte (addr : Nat)
  /-- HOLDING_REG_WRITE (R18). -/
  | holdingRegWrite (m : Master) (addr : Nat) (w : W)
  /-- WIDE_HIGH_WRITE (R18). -/
  | wideHighWrite (m : Master) (addr : Nat) (w : W)
  /-- AON_POR (R12). -/
  | aonPor (cold : Bool)
  /-- GUAR_STAT_CLEAR (R41). -/
  | guarStatClear (m : Master) (w : W)
  /-- CNT_START (R45). -/
  | cntStart (n : Ch)
  /-- CNT_STOP (R45). -/
  | cntStop (n : Ch)
  /-- CNT_CLEAR (R49). -/
  | cntClear (n : Ch)
  /-- CNT_LOAD (R49). -/
  | cntLoad (n : Ch)
  /-- CMP_DISARM (R57). -/
  | cmpDisarm (n : Ch) (mask : BitVec 4)
  /-- CMP_REARM (R56). -/
  | cmpRearm (n : Ch) (u : Unit4)
  /-- RFX_ARM (R85). -/
  | rfxArm (n : Ch)
  /-- RFX_DISARM (R85). -/
  | rfxDisarm (n : Ch)
  /-- COUNTER_STEP (R45). -/
  | counterStep (n : Ch)
  /-- TOP_COMMIT (R48). -/
  | topCommit (m : Master) (n : Ch) (w : W)
  /-- CMP_COMMIT (R51). -/
  | cmpCommit (m : Master) (n : Ch) (u : Unit4) (w : W)
  /-- CMP_MATCH (R53). -/
  | cmpMatch (n : Ch)
  /-- PULSE_END (R59). -/
  | pulseEnd (n : Ch)
  /-- BURST_EDGE (R60). -/
  | burstEdge (n : Ch)
  /-- OUT_FORCE_SET (R71). -/
  | outForceSet (n : Ch)
  /-- OUT_FORCE_CLR (R71). -/
  | outForceClr (n : Ch)
  /-- OUT_FORCE_TOG (R71). -/
  | outForceTog (n : Ch)
  /-- ADV_COMMIT (R66). -/
  | advCommit (m : Master) (n : Ch) (w : W)
  /-- ADV_EPOCH_REACHED (R66). -/
  | advEpochReached (n : Ch)
  /-- DRIVE_CHANGE_APPLY (R70). -/
  | driveChangeApply (n : Ch)
  /-- FREEZE_REQUEST (R86). -/
  | freezeRequest (m : Master) (n : Ch)
  /-- FREEZE_ENTRY (R86). -/
  | freezeEntry (n : Ch)
  /-- THAW_REQUEST (R87). -/
  | thawRequest (m : Master) (n : Ch)
  /-- THAW (R87). -/
  | thaw (n : Ch)
  /-- INPUT_CROSSING (R73). -/
  | inputCrossing (p : InPin) (level : Bool) (frac : Fin 32)
  /-- FILTER_ACCEPT (R73). -/
  | filterAccept (p : InPin)
  /-- CAP_POP (R76). -/
  | capPop (m : Master) (n : Ch)
  /-- READBACK_MISMATCH_TICK (R81). -/
  | readbackMismatchTick (n : Ch)
  /-- READBACK_INTERVAL (R82). -/
  | readbackInterval (n : Ch)
  /-- REFLEX_INPUT_CHANGE (R85). -/
  | reflexInputChange (n : Ch)
  /-- PIP_START (R110). -/
  | pipStart (n : Ch) (entry : Fin 32)
  /-- PIP_STOP (R91). -/
  | pipStop (n : Ch)
  /-- PIP_RESUME (R92). -/
  | pipResume (n : Ch)
  /-- PIP_CMD_SWAP (R113). -/
  | pipCmdSwap (n : Ch)
  /-- PIP_CMD_FORCE (R113). -/
  | pipCmdForce (n : Ch)
  /-- PIP_RELEASE (R97). -/
  | pipRelease (n : Ch)
  /-- PIP_KICK (R106). -/
  | pipKick (n : Ch)
  /-- PIP_RESET (R106). -/
  | pipReset (n : Ch)
  /-- PIP_VALIDATE (R112). -/
  | pipValidate (n : Ch) (mask : BitVec 2)
  /-- TXF_FLUSH (R109). -/
  | txfFlush (n : Ch)
  /-- RXF_FLUSH (R109). -/
  | rxfFlush (n : Ch)
  /-- PIP_WAITCYC (R100). -/
  | pipWaitcyc (n : Ch)
  /-- PIP_WAITPIN (R100). -/
  | pipWaitpin (n : Ch)
  /-- PIP_WAITFLAG (R100). -/
  | pipWaitflag (n : Ch)
  /-- PIP_WAITIRQ (R100). -/
  | pipWaitirq (n : Ch)
  /-- PIP_OUT (R103). -/
  | pipOut (n : Ch)
  /-- PIP_IN (R103). -/
  | pipIn (n : Ch)
  /-- PIP_SET (R100). -/
  | pipSet (n : Ch)
  /-- PIP_JMP (R100). -/
  | pipJmp (n : Ch)
  /-- PIP_LOOP (R100). -/
  | pipLoop (n : Ch)
  /-- PIP_CMP (R100). -/
  | pipCmp (n : Ch)
  /-- PIP_PUSH (R100). -/
  | pipPush (n : Ch)
  /-- PIP_PULL (R100). -/
  | pipPull (n : Ch)
  /-- PIP_IRQ (R115). -/
  | pipIrq (n : Ch)
  /-- PIP_MOV (R100). -/
  | pipMov (n : Ch)
  /-- PIP_SWAP_INSTR (R114). -/
  | pipSwapInstr (n : Ch)
  /-- PIP_STOP_INSTR (R91). -/
  | pipStopInstr (n : Ch)
  /-- PIP_RESERVED_OP (R101). -/
  | pipReservedOp (n : Ch)
  /-- PIP_WAIT_COMPLETE (R105). -/
  | pipWaitComplete (n : Ch)
  /-- PIP_WAIT_TIMEOUT (R105). -/
  | pipWaitTimeout (n : Ch)
  /-- PIP_PRG_WRITE (R112). -/
  | pipPrgWrite (n : Ch) (bank : Bool) (i : Fin 32) (w : W)
  /-- PIP_CTRL_WRITE (R117). -/
  | pipCtrlWrite (n : Ch) (w : W)
  /-- PIP_PINS_WRITE (R388). -/
  | pipPinsWrite (n : Ch) (w : W)
  /-- PIP_SR_WRITE (R118). -/
  | pipSrWrite (n : Ch) (w : W)
  /-- PIP_LC_WRITE (R118). -/
  | pipLcWrite (n : Ch) (w : W)
  /-- TXF_WRITE (R109). -/
  | txfWrite (n : Ch) (w : W)
  /-- RXF_READ (R109). -/
  | rxfRead (m : Master) (n : Ch)
  /-- AXIS_CFG_WRITE (R120). -/
  | axisCfgWrite (k : Ax) (off : Nat) (w : W)
  /-- AXIS_FILTER_ACCEPT (R121). -/
  | axisFilterAccept (k : Ax) (p : AxPin) (level : Bool) (lt : Nat)
  /-- AXIS_EDGE (R122). -/
  | axisEdge (k : Ax)
  /-- COUNT_WINDOW_END (R136). -/
  | countWindowEnd (k : Ax)
  /-- AXIS_STOP_DETECT (R139). -/
  | axisStopDetect (k : Ax)
  /-- LAG_DETECT (R139). -/
  | lagDetect (k : Ax)
  /-- Z_ARM (R126). -/
  | zArm (k : Ax)
  /-- POS_LOAD (R127). -/
  | posLoad (k : Ax)
  /-- SER_TRIG (R129). -/
  | serTrig (k : Ax)
  /-- EMUL_RESTART (R143). -/
  | emulRestart (k : Ax)
  /-- SER_FRAME_START (R129). -/
  | serFrameStart (k : Ax)
  /-- SER_SAMPLE (R133). -/
  | serSample (k : Ax) (f : SerFrame)
  /-- SER_TMO (R130). -/
  | serTmo (k : Ax)
  /-- SPEED_READ (R138). -/
  | speedRead (m : Master) (k : Ax)
  /-- EMUL_ENABLE (R144). -/
  | emulEnable (k : Ax) (w : W)
  /-- EMUL_OUTPUT_EDGE (R143). -/
  | emulOutputEdge (k : Ax)
  /-- POS_COMMIT (R149). -/
  | posCommit (k : Ax) (n : Ch)
  /-- CAL_WRITE (R271). -/
  | calWrite (b : CmdMbx)
  /-- CAL_WRITE_DMA (R271). -/
  | calWriteDma (b : CmdMbx)
  /-- CAL_RECORD_ACCEPT (R158). -/
  | calRecordAccept (b : CmdMbx)
  /-- BUCKET_BOUNDARY (R166). -/
  | bucketBoundary
  /-- HORIZON_TAKE_EFFECT (R167). -/
  | horizonTakeEffect
  /-- ARM_FAST (R194). -/
  | armFast (p : Pod) (f : Fetch)
  /-- ARM_STAGE (R194). -/
  | armStage (p : Pod) (f : Fetch)
  /-- RETIRE (R194). -/
  | retire (p : Pod) (f : Fetch)
  /-- SUBST_STEP (R194). -/
  | substStep (p : Pod)
  /-- CAP_SPILL (R194). -/
  | capSpill (p : Pod)
  /-- PIP_XFER (R197). -/
  | pipXfer (n : Ch) (drain : Bool)
  /-- PLINE (R194). -/
  | pline (p : Pod)
  /-- CFG (R194). -/
  | cfg (p : Pod) (f : Fetch)
  /-- CS_REPAIR (R199). -/
  | csRepair (p : Pod) (a : Fin 4096)
  /-- CS_BACKGROUND_PASS (R199). -/
  | csBackgroundPass (p : Pod)
  /-- MISSED_AT_DUE (R181). -/
  | missedAtDue (p : Pod)
  /-- BACKLOG_DRAIN (R183). -/
  | backlogDrain (p : Pod)
  /-- RES_RD_WRITE (R182). -/
  | resRdWrite (p : Pod) (w : W)
  /-- CAL_CANCEL (R176). -/
  | calCancel (b : CmdMbx)
  /-- CAL_CONFIG (R162). -/
  | calConfig (b : CmdMbx)
  /-- HORIZON_SET (R167). -/
  | horizonSet (b : CmdMbx)
  /-- RESULT_RING_SET (R275). -/
  | resultRingSet (b : CmdMbx)
  /-- FEED_WR_WRITE (R198). -/
  | feedWrWrite (n : Ch) (w : W)
  /-- DRN_RD_WRITE (R198). -/
  | drnRdWrite (n : Ch) (w : W)
  /-- STORE_ACCESS (R214). -/
  | storeAccess (bank : Fin 96) (reqs : List StoreReq)
  /-- CE_WRITEBACK (R217). -/
  | ceWriteback (a : Nat)
  /-- SCRUB_PASS_START (R219). -/
  | scrubPassStart (found : List (Nat × Ecc))
  /-- SCRUB_PASS_DONE (R219). -/
  | scrubPassDone
  /-- STORE_RETAIN (R220). -/
  | storeRetain (b : CmdMbx)
  /-- RETENTION_DONE (R220). -/
  | retentionDone (g : Seg)
  /-- SEGMENT_WAKE_DONE (R220). -/
  | segmentWakeDone (g : Seg)
  /-- SEGMENT_AUTO_WAKE (R222). -/
  | segmentAutoWake (m : Fin 25) (g : Seg)
  /-- CAP_RING_RD_WRITE (R211). -/
  | capRingRdWrite (p : Pod) (w : W)
  /-- CAP_RING_CONFIG_WRITE (R212). -/
  | capRingConfigWrite (p : Pod) (size : Bool) (w : W)
  /-- BAR2_ACCESS (R223). -/
  | bar2Access (a : WinAccess)
  /-- EIC_LINE_EDGE (R229). -/
  | eicLineEdge (s : Src)
  /-- EIC_PSET_WRITE (R229). -/
  | eicPsetWrite (m : Master) (g : Grp) (w : W)
  /-- EIC_PEND_CLEAR (R229). -/
  | eicPendClear (m : Master) (g : Grp) (w : W)
  /-- CLAIM (R233). -/
  | claim (reads : List (Master × Tgt))
  /-- EOI (R235). -/
  | eoi (m : Master) (t : Tgt)
  /-- HOLDOFF_EXPIRE (R238). -/
  | holdoffExpire (g : Grp)
  /-- SRC_CFG_WRITE (R245). -/
  | srcCfgWrite (m : Master) (s : Src) (w : W)
  /-- GROUP_LOCK (R245). -/
  | groupLock (m : Master) (g : Grp)
  /-- MSIX_UNMASK (R241). -/
  | msixUnmask (v : Fin 32)
  /-- LINK_UP (R248). -/
  | linkUp (width2 : Bool) (speed : LinkSpeed)
  /-- CONFIG_REQUEST (R248). -/
  | configRequest (r : CfgReq)
  /-- PERST_N (R249). -/
  | perstN (low : Bool)
  /-- HOT_RESET (R249). -/
  | hotReset
  /-- FUNCTION_LEVEL_RESET (R249). -/
  | functionLevelReset
  /-- DMA_COMPLETION (R251). -/
  | dmaCompletion (c : Fin 4) (data : List Byte)
  /-- DMA_COMPLETION_TIMEOUT (R252). -/
  | dmaCompletionTimeout (c : Fin 4)
  /-- QSPI_READ (R253); `late` are the words of a window read, by index, that arbitration delayed (R255). -/
  | qspiRead (addr : Nat) (len : Nat) (late : List Nat)
  /-- QSPI_WRITE (R253). -/
  | qspiWrite (addr : Nat) (data : List Byte)
  /-- QSPI_QREAD (R253). -/
  | qspiQread (addr : Nat) (len : Nat) (late : List Nat)
  /-- QSPI_QWRITE (R253). -/
  | qspiQwrite (addr : Nat) (data : List Byte)
  /-- QSPI_STATUS (R256). -/
  | qspiStatus
  /-- QSPI_BAD_OP (R253). -/
  | qspiBadOp (op : Byte)
  /-- MB_LOCK_READ (R258). -/
  | mbLockRead (b : Mbx) (readers : List Master)
  /-- MB_LOCK_RELEASE (R258). -/
  | mbLockRelease (m : Master) (b : Mbx)
  /-- MB_POST_WRITE (R259). -/
  | mbPostWrite (m : Master) (b : Mbx) (hi : Bool) (w : W)
  /-- MB_DOORBELL (R259). -/
  | mbDoorbell (m : Master) (b : CmdMbx) (w : W)
  /-- MB_NOTICE_ACK (R266). -/
  | mbNoticeAck (m : Master) (b : Fin 8) (w : W)
  /-- COMMAND_START (R264). -/
  | commandStart (b : CmdMbx)
  /-- COMMAND_COMPLETE (R263). -/
  | commandComplete (b : CmdMbx)
  /-- NOTICE_POST (R266). -/
  | noticePost (b : Fin 8)
  /-- NOP (R268). -/
  | nop (b : CmdMbx)
  /-- FW_INFO (R272). -/
  | fwInfo (b : CmdMbx)
  /-- HEALTH_QUERY (R272). -/
  | healthQuery (b : CmdMbx)
  /-- WATCH_RESTART (R276). -/
  | watchRestart (b : CmdMbx)
  /-- CH_CONFIG (R270). -/
  | chConfig (b : CmdMbx)
  /-- CH_QUERY (R268). -/
  | chQuery (b : CmdMbx)
  /-- PIP_LOAD (R274). -/
  | pipLoad (b : CmdMbx)
  /-- PIP_SWAP (R274). -/
  | pipSwap (b : CmdMbx)
  /-- AXIS_CONFIG (R270). -/
  | axisConfig (b : CmdMbx)
  /-- EMUL_CONFIG (R270). -/
  | emulConfig (b : CmdMbx)
  /-- ADC_CONFIG (R270). -/
  | adcConfig (b : CmdMbx)
  /-- ADC_STREAM (R319). -/
  | adcStream (b : CmdMbx)
  /-- SUBST_POLICY (R268). -/
  | substPolicy (b : CmdMbx)
  /-- ADAPT_SET (R337). -/
  | adaptSet (b : CmdMbx)
  /-- ADAPT_LOCK (R337). -/
  | adaptLock (b : CmdMbx)
  /-- MEASURE_CABLE (R331). -/
  | measureCable (b : CmdMbx)
  /-- MEASURE_LOAD (R330). -/
  | measureLoad (b : CmdMbx)
  /-- PARTNER_READ (R332). -/
  | partnerRead (b : CmdMbx) (bytes : List Byte)
  /-- SLEEP (R353). -/
  | sleep (b : CmdMbx)
  /-- WAKE (R268). -/
  | wake (b : CmdMbx)
  /-- ABORT_GO (R277). -/
  | abortGo (m : Master) (w : W)
  /-- ABORT_RELEASE (R281). -/
  | abortRelease (m : Master) (w : W)
  /-- ABORT_DONE (R279). -/
  | abortDone
  /-- SAFE_N_FALL (R278). -/
  | safeNFall (width : SafePulse)
  /-- SAFE_N_RISE (R278). -/
  | safeNRise
  /-- WATCH_VIOLATION (R284). -/
  | watchViolation (core : Fin 4) (store : Bool) (addr : Nat)
  /-- HEARTBEAT_WRITE (R285). -/
  | heartbeatWrite (core : Fin 4)
  /-- HEARTBEAT_TIMEOUT (R285). -/
  | heartbeatTimeout (core : Fin 4)
  /-- WATCH_CORE_FAULT (R285). -/
  | watchCoreFault (core : Fin 4)
  /-- CODE_DIGEST_CHECK (R286). -/
  | codeDigestCheck (ok : Bool) (flashOk : Bool)
  /-- RESTART_DELAY_END (R289). -/
  | restartDelayEnd
  /-- RESTART_COMPLETE (R286). -/
  | restartComplete
  /-- KEEPER_WATCHDOG (R291). -/
  | keeperWatchdog
  /-- KEEPER_REBOOT_DONE (R291). -/
  | keeperRebootDone
  /-- BUOY_SELF_TEST_DONE (R292). -/
  | buoySelfTestDone (p : Pod) (pass : Bool)
  /-- SHADOW_MISMATCH (R293). -/
  | shadowMismatch (p : Pod) (output : Bool) (forced : Bool) (ts : Nat)
  /-- SHADOW_PERIOD_END (R292). -/
  | shadowPeriodEnd (p : Pod)
  /-- QUARANTINE_TEST_DONE (R296). -/
  | quarantineTestDone (p : Pod) (pass : Bool)
  /-- TAKEOVER_SPACING_END (R297). -/
  | takeoverSpacingEnd (p : Pod)
  /-- SPARE_MOVE (R299). -/
  | spareMove (n : Ch)
  /-- SPARE_MOVE_BACK (R300). -/
  | spareMoveBack (n : Ch)
  /-- LT_XCHK_CORRECT (R301). -/
  | ltXchkCorrect (a : Nat) (b : Nat)
  /-- XIN_FAIL (R302). -/
  | xinFail
  /-- XIN_RESTORE (R302). -/
  | xinRestore
  /-- ADC_CONVERSION_END (R308). -/
  | adcConversionEnd (s : Slice) (raw : Int) (spareRaw : Int)
  /-- ADC_SEL_WRITE (R310). -/
  | adcSelWrite (s : Slice) (w : W)
  /-- ADC_DATA_READ (R312). -/
  | adcDataRead (m : Master) (s : Slice)
  /-- REF_READY (R313). -/
  | refReady
  /-- CAL_ROTATION_START (R315). -/
  | calRotationStart
  /-- CAL_DONE (R316). -/
  | calDone (z : Int) (f : Int)
  /-- ADC_STR_RD_WRITE (R319). -/
  | adcStrRdWrite (w : W)
  /-- SUPPLY_FAULT (R325). -/
  | supplyFault (r : Rail)
  /-- SUPPLY_FAULT_CLEAR (R323). -/
  | supplyFaultClear (r : Rail)
  /-- VIO_TRACK (R324). -/
  | vioTrack (p : Pod) (mv : Nat)
  /-- TEMP_MEASURE (R325). -/
  | tempMeasure (t : Int)
  /-- MEASURE_START (R326). -/
  | measureStart
  /-- MEASURE_DONE (R328). -/
  | measureDone (r : MeasRaw)
  /-- MEASURE_GAP_TIMEOUT (R326). -/
  | measureGapTimeout
  /-- ADAPT_DECLARE (R335). -/
  | adaptDeclare (pol : Fin 5) (idx : Ch) (meas : Nat)
  /-- ADAPT_DEFER_RETRY (R335). -/
  | adaptDeferRetry (pol : Fin 5) (idx : Ch)
  /-- ADAPT_EPOCH (R335). -/
  | adaptEpoch (pol : Fin 5) (idx : Ch)
  /-- CORE_RESET (R340). -/
  | coreReset (avdd : Bool)
  /-- VIO_BROWNOUT (R340). -/
  | vioBrownout (p : Pod)
  /-- VIO_RETURN (R342). -/
  | vioReturn (p : Pod)
  /-- PE_RAIL_DROP (R340). -/
  | peRailDrop (vddh : Bool)
  /-- RESET_N (R343). -/
  | resetN (acts : Bool)
  /-- CORE_RESET_RELEASE (R341). -/
  | coreResetRelease (straps : BitVec 2) (primary : ImageIn) (alternate : ImageIn) (selfTest : List (BitVec 17))
  /-- FW_READY (R349). -/
  | fwReady
  /-- BOOT_CMD_LOAD (R346). -/
  | bootCmdLoad (m : Master) (image : ImageIn) (selfTest : List (BitVec 17))
  /-- BOOT_CMD_FLASH (R346). -/
  | bootCmdFlash (m : Master) (image : ImageIn)
  /-- PLL_LOCK (R345). -/
  | pllLock
  /-- SLEEP_ENTRY_DONE (R355). -/
  | sleepEntryDone
  /-- AUTO_WAKE (R354). -/
  | autoWake
  /-- WAKE_SOURCE (R356). -/
  | wakeSource (w : WakeSrc)
  /-- RUN_REACHED (R355). -/
  | runReached
  /-- TESTMODE (R364). -/
  | testmode (high : Bool)
  /-- ATB_SEL_WRITE (R365). -/
  | atbSelWrite (w : W)
  /-- JTAG_RESET (R366). -/
  | jtagReset
  /-- EXTEST (R367). -/
  | extest
  /-- SAMPLE_PRELOAD (R367). -/
  | samplePreload (drive : BitVec 128) (level : BitVec 128)
  /-- IDCODE (R366). -/
  | idcode
  /-- CLAMP (R367). -/
  | clamp
  /-- HIGHZ (R367). -/
  | highz
  /-- DEBUG (R366). -/
  | debug
  /-- BYPASS (R366). -/
  | bypass
  /-- DEBUG_UNLOCK (R366). -/
  | debugUnlock (tokenOk : Bool)
  /-- XIN_OSC_STABLE (R20). -/
  | xinOscStable
  /-- LINK_DOWN (R240). -/
  | linkDown
  deriving DecidableEq, Repr

end Sys2Proof
end

