-- ==== Sys2Proof/Decode.lean ====
section
/-!
DEFINITION. The command a table word spells. No row of spec/opcode_table.json gives bits: commands come to the block as register accesses, bus and pin events
and command blocks in memory, not as words, so no word spells one.
-/
namespace Sys2Proof

/-- The command spelled by a word of the table: none, whatever the word. [DESIGN CHOICE, log entry 80] -/
def decodeTableWord (_nbits _w : Nat) : Option Instr := none

end Sys2Proof
end

