-- ==== Sys2Proof/Config.lean ====
section
/-!
DEFINITION. What the spec leaves to the part or leaves open.
The free values have no body: nothing can be proved about which value they take. A step that uses one applies it to the
counter `State.free`, which it advances, so each use is a fresh value.
-/
namespace Sys2Proof

/-- A free number: a value the spec bounds or leaves open, taken modulo its bound where it has one. [DESIGN CHOICE, log entry 79] -/
opaque Config.freeNat : Nat → Nat
/-- A free bit: either level or either outcome is allowed. [DESIGN CHOICE, log entry 79] -/
opaque Config.freeBit : Nat → Bool

end Sys2Proof
end

