-- ==== Sys2Proof/Machine/State.lean ====
section
/-!
DEFINITION. The state of the PBM6128, as plain data, and its value after reset.
Registers that software reads and writes whole are words; what lives only inside the device has the type that says what it is.
A value in frac or ticks (R8) is a Nat: full LT values never wrap (R9).
-/
namespace Sys2Proof.Machine

/-- Why a step stops with a fault. No meaning of this model raises one: the constructor names the case the spec would have
to call unpredictable without an effect, and no row has such a case (NOTES.md, Stops). Safe. -/
inductive Fault where
  | unreached
  deriving DecidableEq, Repr

/-- Why a step is refused. Raised by nothing but an arm of exec that has no meaning yet. Safe. -/
inductive Refusal where
  | notModelled (mnemonic : String)
  deriving DecidableEq, Repr

/-- A vector given entry by entry. -/
def tabulate {α : Type} (n : Nat) (f : Fin n → α) : Vector α n :=
  ⟨⟨(List.finRange n).map f⟩, by simp⟩

/-! ### Flags and counters that a bus access can meet in the same tick (R5) -/

/-- Flags the device sets and a write of 1 clears (R4): the flags, and those of them set in tick `stamp`, which a clearing
write of that tick leaves set (R5). -/
structure Sticky where
  bits  : W := 0
  stamp : Nat := 0
  fresh : W := 0
  deriving DecidableEq, Repr

/-- A read-and-clear count (R4): the count, and the part of it that occurred in tick `stamp`, which a read of that tick
keeps for the next read (R5). -/
structure RcCnt where
  val   : Nat := 0
  stamp : Nat := 0
  fresh : Nat := 0
  deriving DecidableEq, Repr

/-- The signed read-and-clear count WRAP_NET (R134). -/
structure RcInt where
  val   : Int := 0
  stamp : Nat := 0
  fresh : Int := 0
  deriving DecidableEq, Repr

/-! ### Calendar events and result records -/

/-- The fields of an event record (R155). -/
structure Rec where
  due    : Nat
  param  : W
  ch     : Ch
  dom    : BitVec 4
  act    : BitVec 5
  behind : Bool
  res    : Bool
  rsv    : BitVec 2
  seq    : BitVec 12
  deriving DecidableEq, Repr

/-- An accepted event: its record, its place in acceptance order, its acceptance LT, its ball time and the advance used,
whether it was late written or short-lead, its REASON so far (R180), and its result flags (R179). -/
structure Ev where
  rec_    : Rec
  ord     : Nat
  tAcc    : Nat
  ball    : Nat
  adv     : Nat
  late    : Bool := false
  reason  : Nat := 0
  advHeld : Bool := false
  ambig   : Bool := false
  committed : Bool := false
  deriving DecidableEq, Repr

/-- A position event in its axis list (R145, R146): whether it has been judged ahead, and the prediction it carries as a head:
the arrival A_arr in force (R147), and the re-predictions not yet in use, each with the boundary it was made at (R149). -/
structure PosEv where
  ev    : Ev
  axis  : Ax
  ahead : Bool
  pred  : Option Nat := none
  soon  : List (Nat × Nat) := []
  deriving DecidableEq, Repr

/-- A result record less its RSEQ (R179, R336): ACT_LT, the word at bytes 8 to 11 and the half word at bytes 12 to 13. -/
structure ResRec where
  actLt : Nat
  word  : W
  half  : BitVec 16
  deriving DecidableEq, Repr

/-! ### Channel -/

/-- A change of the position an AXIS-mode counter follows (R47): the boundary at which CNT shows it, the signed step, the new
POS, and whether it was a load, which steps through nothing. -/
structure AxMove where
  at_   : Nat
  delta : Int
  pos   : W
  load  : Bool
  deriving DecidableEq, Repr

/-- The counter of a channel (R44 to R50). `next` is the tick boundary of the next step of a tick mode, `phase` the edges or
gated ticks left to it; `topPend` is a committed TOP that waits (R48). `srcQ` holds gate levels and counted edges with the
boundary at which they take effect (R46), `axQ` the moves of the axis followed, both oldest first. -/
structure Counter where
  presc   : W := 0
  cfg     : W := 0x800
  top     : C48 := 0
  topPend : Option C48 := none
  cnt     : C48 := 0
  ld      : C48 := 0
  run     : Bool := false
  down    : Bool := false
  gateAct : Bool := false
  wrap    : Sticky := {}
  next    : Nat := 0
  phase   : Nat := 0
  srcQ    : List (Nat × Bool) := []
  axQ     : List AxMove := []
  deriving DecidableEq, Repr

/-- Value, action and parameter of a compare unit (R51). -/
structure CmpSet where
  val   : C48 := 0
  act   : W := 0
  param : W := 0
  deriving DecidableEq, Repr

/-- A compare unit (R51 to R57). `cur` reads back; `active` is compared; `live`: `active` is armed; `shadow`: `cur` waits for a
turning count; `hit`: a match whose action is still to be applied, with its action tick and what matched. -/
structure CmpUnit where
  cur     : CmpSet := {}
  active  : CmpSet := {}
  live    : Bool := false
  shadow  : Bool := false
  owner   : Bool := false
  ev      : Option Ev := none
  hit     : Option (Nat × CmpSet) := none
  flags   : Sticky := {}
  matchLt : Nat := 0
  deriving DecidableEq, Repr

/-- A capture entry (R74, R80): LT, CNT[31:0] and CAP_FLAGS[7:0]. -/
structure CapE where
  lt    : Nat
  cnt   : W
  flags : Byte
  deriving DecidableEq, Repr

/-- What a master's last pop latched (R76). -/
structure CapLatch where
  ts    : Nat := 0
  cnt   : W := 0
  flags : Byte := 0
  deriving DecidableEq, Repr

/-- The capture logic (R74 to R79). `waiting` holds entries with the boundary at which they enter; `lastSpill` is the ring
count just after the channel's last spilled entry; `accTick` is the tick of the last acceptance and `accMade` whether an entry was made in it
(R74). -/
structure Capture where
  cfg        : W := 4
  queue      : List CapE := []
  waiting    : List (Nat × CapE) := []
  spilling   : Bool := false
  spillOut   : Nat := 0
  lastSpill  : Option W := none
  flags      : Sticky := {}
  drops      : RcCnt := {}
  dropBefore : Bool := false
  accTick    : Option Nat := none
  accMade    : Bool := false
  latch      : Vector CapLatch 8 := Vector.replicate 8 {}
  deriving DecidableEq, Repr

/-- A running pulse or burst (R59, R60): the ball time of its next edge and, for a burst, the level that edge gives, the
edges left after it, and W and G in ticks. -/
inductive Train where
  | none
  | pulse (endX : Nat)
  | burst (nextX : Nat) (level : Bool) (left : Nat) (w : Nat) (g : Nat)
  deriving DecidableEq, Repr

/-- An edge on its way to the ball: ball time X and level (R62). -/
structure Edge where
  x     : Nat
  level : Bool
  deriving DecidableEq, Repr

/-- The output stage. `level` is the compare-and-calendar tier, `pip` the Pip tier while held; `pipe` holds the edges still to
reach the ball and `base` the level before them; the `merge` fields follow the actions of one ball tick (R64): that tick, the latest ball time in it, the level before it, whether an
action alone would have moved the ball, and whether the net level cancels it. [DESIGN CHOICE, log entry 81] -/
structure OutStage where
  cfg        : W := 0x22
  configured : Bool := false
  drivePend  : Option W := none
  skew       : W := 0
  level      : Bool := false
  pip        : Option Bool := none
  pipe       : List Edge := []
  base       : Bool := false
  train      : Train := .none
  mergeTick  : Nat := 0
  mergeX     : Nat := 0
  mergeFrom  : Bool := false
  mergeMoved : Bool := false
  mergeNow   : Bool := false
  lastBall   : Nat := 0
  deriving DecidableEq, Repr

/-- An advance pair waiting for its epoch (R66); `comp` is set when policy 0 declared it (R335), `whole` when the host commits it while policy 0 is not
enabled for the channel, so that it is the advance itself and not a base (R334). `start` is the boundary after its commit. -/
structure AdvPair where
  adv   : Nat
  comp  : Option Nat
  epoch : Nat
  whole : Bool := false
  start : Nat := 0
  deriving DecidableEq, Repr

/-- The advance of a channel (R65, R66): the base in force, the advance before the last epoch, that epoch, ADV_NEXT and the
pending pair. -/
structure Advance where
  base  : Nat := 0
  comp  : Nat := 0
  prev  : Nat := 0
  since : Nat := 0
  next  : W := 0
  pend  : Option AdvPair := none
  deriving DecidableEq, Repr

/-- An input comparator with its filter (R73): the raw level, the accepted level, the first crossing of a level not yet
accepted with the count in force then (R74), and the accepted edges with their tick of acceptance, newest first (R99). -/
structure InFilt where
  raw  : Bool := false
  acc  : Bool := false
  cand : Option (Nat × W) := none
  hist : List (Nat × Bool) := []
  deriving DecidableEq, Repr

/-- The reflex term (R83 to R85). `pend` holds armings (true) and disarmings with the boundary at which they take effect. -/
structure Reflex where
  cfg   : W := 0xFFC
  armed : Bool := false
  latch : Bool := false
  out   : Bool := false
  flags : Sticky := {}
  pend  : List (Nat × Bool) := []
  deriving DecidableEq, Repr

/-- Readback checking (R81, R82): `bad` says the present interval holds a mismatch tick, `since` is the LT at which it began. -/
structure Readback where
  ticks  : RcCnt := {}
  consec : Nat := 0
  bad    : Bool := false
  since  : Nat := 0
  deriving DecidableEq, Repr

/-- The registers a Pip program works on (R90). `pendQ` holds latches set, with the boundary from which they are seen (R106). -/
structure PipRegs where
  sr     : W := 0
  cv     : W := 0
  lc     : BitVec 16 := 0
  lcInit : BitVec 16 := 0
  bc     : Nat := 0
  pc     : Fin 32 := 0
  loaded : Bool := false
  flags  : Sticky := {}
  pend   : W := 0
  pendQ  : List (Nat × W) := []
  txf    : List W := []
  rxf    : List W := []
  deriving DecidableEq, Repr

/-- A Pip engine (R91 to R118). `t0` and `cyc` time its cycles (R93); `waitLeft` counts the further cycles of a WAITCYC; `stalled` is
the cycle in which a stalled instruction issued and `waited` the cycles of this stall that `waits` holds; `efrac` is the starting action's FRAC (R97); `swap` is a pending swap and `stopAt` a host stop,
each with the boundary from which it is seen; `prevCyc` is the tick of the last cycle executed. -/
structure Pip where
  prg0   : Vector (BitVec 16) 32 := Vector.replicate 32 0
  prg1   : Vector (BitVec 16) 32 := Vector.replicate 32 0
  ctrl   : W := 0x7C0
  div    : W := 0x100
  pins   : W := 0
  tmo    : W := 0
  r      : PipRegs := {}
  run    : Bool := false
  halt   : BitVec 3 := 0
  resum  : Bool := false
  bank   : Bool := false
  valid0 : Bool := false
  valid1 : Bool := false
  swap   : Option Nat := none
  stopAt : Option Nat := none
  err    : Sticky := {}
  irq    : Sticky := {}
  ie     : W := 0
  code   : Byte := 0
  waits  : RcCnt := {}
  waited : Nat := 0
  t0     : Nat := 0
  cyc    : Nat := 0
  waitLeft : Nat := 0
  stalled : Option Nat := none
  efrac  : Option Nat := none
  prevCyc : Option Nat := none
  deriving DecidableEq, Repr

/-- What the registers say of the state of a pin: EN, OE, CONFIGURED, SAFE and INV as they stand in CHn_OUT_CFG, and PULL in CHn_IN_CFG (R68). -/
structure PinView where
  en   : Bool
  oe   : Bool
  cfgd : Bool
  cfg  : W
  pull : Nat
  deriving DecidableEq, Repr

/-- A channel (R43). `safeFrom` is the LT from which the ball shows SAFE while aborted (R69, R279); `safeHold` is SAFE_ACT after
a release, until the ball tick `safeEnd` of the first action; `hold` is the level a frozen ball keeps (R86); `cmpLine` is the tick in which the compare line was
last high (R88). A register write that changes the pin's state reaches the ball four ticks later; until the boundary named with it, oldest first, the ball follows
a view of `pinWas` (R68). `filter` is the FILTER in force, and `filtNext` one that is written and waits, with the first boundary at which it may take effect
(R75). `ownPin` is the level at the channel's own ball, which it does not sense while moved to the spare pin (R299). -/
structure Channel where
  en      : Bool := false
  oe      : Bool := false
  rbEn    : Bool := true
  frzReq  : Bool := false
  frz     : Bool := false
  hold    : Bool := false
  aborted : Bool := false
  safeFrom : Nat := 0
  safeHold : Bool := false
  safeEnd : Option Nat := none
  ctr     : Counter := {}
  unit    : Vector CmpUnit 4 := Vector.replicate 4 {}
  cap     : Capture := {}
  out     : OutStage := {}
  adv     : Advance := {}
  inCfg   : W := 0x14
  filter  : Nat := 0
  filtNext : Option (Nat × Nat) := none
  filt    : InFilt := {}
  rfx     : Reflex := {}
  rb      : Readback := {}
  stat    : Sticky := {}
  fault   : Sticky := {}
  spare   : Bool := false
  ownPin  : Bool := false
  subst   : Bool := false
  vioFault : Bool := false
  irqEn   : W := 0
  cmpLine : Option Nat := none
  pinWas  : List (Nat × PinView) := []
  pip     : Pip := {}
  deriving DecidableEq, Repr

/-! ### Axis -/

/-- What a master's reads latched from an axis (R138). -/
structure AxLatch where
  accel : Int := 0
  dp    : Int := 0
  dt    : Nat := 0
  edgePos : W := 0
  zPos  : W := 0
  deriving DecidableEq, Repr

/-- A rate pair (R136): ΔP, ΔT and the sum of its two edge timestamps, which is twice its midpoint (R138). -/
structure RatePair where
  dp  : Int
  dt  : Nat
  sum : Nat
  deriving DecidableEq, Repr

/-- The speed measurement of an axis (R136 to R139). `dp` and `dt` are the pair in force, 0 where there is none; `pairs` the last two
pairs, newest first; `edges` the last counting edges or samples with their count, newest first; `winNet` and `winLast` the net count and last
edge of the present window, `before` the last edge before it, `winAt` the last window boundary worked off; `formed` says that a pair
has been formed since enable; `gate` and `avg` are the values in force (AXk_SPD_CFG). -/
structure Speed where
  speed   : Int := 0
  accel   : Int := 0
  dp      : Int := 0
  dt      : Nat := 0
  valid   : Bool := false
  cntMode : Bool := false
  formed  : Bool := false
  pairs   : List RatePair := []
  edges   : List (Nat × Int) := []
  winNet  : Int := 0
  winLast : Option Nat := none
  before  : Option Nat := none
  winAt   : Nat := 0
  gate    : Nat := 4096
  avg     : Nat := 2
  deriving DecidableEq, Repr

/-- The serial sensor interface of an axis (R129 to R133). `busy` is the start T_f of the frame that runs, `prev` the last good sample; the
last five fields are what R333 builds the identity block from. -/
structure Serial where
  cfg    : W := 0x18
  clk    : W := 0xC8
  period : W := 0xFA0
  crc    : W := 0
  tmo    : W := 0x0FA00010
  raw    : W := 0
  lat    : W := 0
  busy   : Option Nat := none
  prev   : Option Nat := none
  bits   : Nat := 0
  delay  : Nat := 0
  good   : Nat := 0
  bad    : Nat := 0
  errs   : Nat := 0
  deriving DecidableEq, Repr

/-- An output count of an emulator on its way (R143): the ball time it is placed at, the time it would have without the spacing
of 8 ticks, and its direction. -/
structure EmulEdge where
  x   : Nat
  nat : Nat
  up  : Bool
  deriving DecidableEq, Repr

/-- The encoder emulator of an axis (R142 to R144). `acc` is the accumulator, `out` the output position; `wait` holds the output
counts still to be applied, oldest first; `lastX` the ball time of the last one placed. -/
structure Emul where
  cfg     : W := 0
  ratio   : W := 0x10001
  zper    : W := 4
  run     : Bool := false
  flags   : Sticky := {}
  acc     : Int := 0
  out     : Int := 0
  wait    : List EmulEdge := []
  lastX   : Option Nat := none
  deriving DecidableEq, Repr

/-- An axis (R119 to R154). `pins` are the filtered levels of A, B and Z; `accQ` holds edges the filter accepted and the decoder has not
taken, oldest first; `ref` is the decoder's reference state and `sect` its sector reference (R128); `lastTick` the tick of the last accepted
edge of the axis (R125); `moved` says that a pin changed while the axis did not decode (R141). -/
structure Axis where
  cfg      : W := 0x180
  qchk     : W := 0x20004
  spdCfg   : W := 0x10000002
  upThr    : W := 0xC800
  dnThr    : W := 0x9600
  stopSpd  : W := 0x100
  pos      : W := 0
  posLd    : W := 0
  edgeLt   : Nat := 0
  edgePos  : W := 0
  rev      : Bool := false
  revRun   : Nat := 0
  stopped  : Bool := true
  lagging  : Bool := false
  zArmed   : Bool := false
  coarse   : Bool := false
  hall     : BitVec 3 := 0
  pins     : BitVec 3 := 0
  ref      : BitVec 3 := 0
  sect     : Option Nat := none
  accQ     : List (AxPin × Bool × Nat) := []
  lastTick : Option Nat := none
  moved    : Bool := false
  spd      : Speed := {}
  err      : Sticky := {}
  illegal  : RcCnt := {}
  fast     : RcCnt := {}
  serErr   : RcCnt := {}
  wrapNet  : RcInt := {}
  irqEn    : W := 0
  zLt      : Nat := 0
  zPos     : W := 0
  evt      : Sticky := {}
  predCfg  : W := 0x320
  vmin     : W := 0xA00
  vmax     : W := 0x7FFFFFFF
  amax     : W := 0
  missedBehind : RcCnt := {}
  lateShort    : RcCnt := {}
  lateReached  : RcCnt := {}
  outBound     : RcCnt := {}
  ser      : Serial := {}
  emul     : Emul := {}
  latch    : Vector AxLatch 8 := Vector.replicate 8 {}
  deriving DecidableEq, Repr

/-! ### Calendar -/

/-- The calendar engine (R155 to R178). `missed` holds events kept from firing, with their REASON, until LT reaches their
DUE; `pendHW` holds the pairs HORIZON_SET has scheduled, each with its boundary; `freed` counts the slots freed in the present tick (R165). -/
structure Calendar where
  horizon  : Nat := 8000
  win      : Nat := 8
  pendHW   : List (Nat × Nat × Nat) := []
  mirror   : Bool := true
  wheel    : List Ev := []
  ovfl     : List Ev := []
  pos      : List PosEv := []
  missed   : List (Ev × Nat) := []
  bucket   : Nat := 0
  freed    : RcCnt := {}
  lastAcc  : Option Nat := none
  ord      : Nat := 0
  flags    : Sticky := {}
  accCnt   : RcCnt := {}
  lateCnt  : RcCnt := {}
  refCnt   : RcCnt := {}
  fixCnt   : RcCnt := {}
  errCnt   : RcCnt := {}
  deriving DecidableEq, Repr

/-! ### Pod -/

/-- A Pip feeder (R197). -/
structure Feeder where
  feedBase : W := 0
  drnBase  : W := 0
  size     : W := 0
  feedWr   : W := 0
  feedRd   : W := 0
  drnWr    : W := 0
  drnRd    : W := 0
  deriving DecidableEq, Repr

/-- A match, or a non-match, of a calendar event on its way to its result record: the event; the ball time at which it fired, or
for one that did not its MISSED reason and, in `x`, its ACT_LT (R180). -/
structure Outcome where
  ev     : Ev
  x      : Nat
  missed : Option Nat
  deriving DecidableEq, Repr

/-- The result ring of a pod and its backlog (R182, R183). `gapNow` counts the records not written since space was lost;
`reserved` the backlog entries adaptation has reserved (R335). -/
structure Results where
  base     : BitVec 64 := 0
  log2     : Nat := 0
  wr       : W := 0
  rd       : W := 0
  rseq     : BitVec 16 := 0
  backlog  : List ResRec := []
  gap      : RcCnt := {}
  gapNow   : Nat := 0
  reserved : Nat := 0
  flags    : Sticky := {}
  thr      : W := 1
  deriving DecidableEq, Repr

/-- A configuration request to the sequencer (R189): a ring switch asked for by a mailbox. -/
inductive CfgJob where
  | ring (b : CmdMbx) (log2 : Nat) (base : BitVec 64)
  deriving DecidableEq, Repr

/-- A substitution step (R194). -/
inductive SubstKind where
  | shadowStart | takeover | quarantineTest | buoyReturn
  deriving DecidableEq, Repr

/-- Microcode and its control store (R188, R199 to R205): the words patches put there, and the words found with a
single-bit error and not yet rewritten. `ran` says that a routine has been dispatched since reset. -/
structure Micro where
  ran      : Bool := false
  level    : Nat := 0
  records  : Nat := 0
  patched  : Bool := false
  locked   : Bool := false
  code     : BitVec 4 := 0
  patchErr : Bool := false
  words    : List (Nat × BitVec 128) := []
  corr     : List Nat := []
  flags    : Sticky := {}
  corrCnt  : RcCnt := {}
  repCnt   : RcCnt := {}
  deriving DecidableEq, Repr

/-- A pod (R187 to R205). `past` holds fired events that the density limits, the drain bound and R67 still look back at; `armedAt` is the
boundary of its last arm (R169). -/
structure PodSt where
  past     : List Ev := []
  armedAt  : Nat := 0
  staging  : List Ev := []
  spill    : List Ev := []
  fast     : List Ev := []
  commits  : List Ev := []
  matched  : List Outcome := []
  capQ     : List (Ch × CapE) := []
  plines   : List Nat := []
  job      : Option CfgJob := none
  substReq : Option SubstKind := none
  lvlMax   : RcCnt := {}
  winMax   : RcCnt := {}
  displaced : RcCnt := {}
  armLate  : RcCnt := {}
  staged   : Nat := 0
  res      : Results := {}
  latTop   : RcCnt := {}
  latAny   : RcCnt := {}
  busy     : RcCnt := {}
  preempt  : RcCnt := {}
  uc       : Micro := {}
  irqEn    : W := 0
  plineSeen : Sticky := {}
  pfErr    : Sticky := {}
  feeder   : Vector Feeder 16 := Vector.replicate 16 {}
  deriving DecidableEq, Repr

/-- The health of a pod: shadowing, substitution and the spare pin (R292 to R300). `unitOf` says which unit serves each bank
channel; `suspect` the quarantined unit; `takeover` the named boundary T_s of a takeover that waits, whether its first mismatch was of output, and
`mismLt` the LT of that mismatch; `rot` the bank index at which the rotation goes on; `spareOn` the bank index of the channel on SPBp. -/
structure PodHealth where
  shadowCh  : Nat := 0
  shadowing : Bool := false
  shadowEn  : Bool := false
  autoSubst : Bool := false
  substPin  : Bool := false
  buoy      : Nat := 16
  testing   : Bool := false
  spacing   : Bool := false
  retired   : BitVec 17 := 0
  unitOf    : Vector Nat 16 := tabulate 16 (fun i => i.val)
  suspect   : Option Nat := none
  takeover  : Option (Nat × Bool) := none
  mismLt    : Nat := 0
  rot       : Nat := 0
  evt       : Sticky := {}
  mism      : RcCnt := {}
  takes     : RcCnt := {}
  shadows   : RcCnt := {}
  spareCh   : Nat := 0
  named     : Bool := false
  spareOn   : Option Nat := none
  lastTs    : Nat := 0
  spb       : InFilt := {}
  deriving DecidableEq, Repr

/-! ### Central store -/

/-- The arbitration state of a store master (R214, R216): its lost cycles, its run of losses, the cycles of a read-modify-write met in
that run, the cycle in which it became guarded, what its last granted read returned and whether that read was reported as uncorrectable (R217). -/
structure ArbM where
  conf    : RcCnt := {}
  run     : Nat := 0
  rmw     : Nat := 0
  guarded : Option Nat := none
  runMax  : RcCnt := {}
  guard   : RcCnt := {}
  rdata   : List Byte := []
  rerr    : Bool := false
  deriving DecidableEq, Repr

/-- A STORE_RETAIN command whose changes are not complete (R220): its mailbox, the segments it waits for, those refused. -/
structure RetJob where
  b       : CmdMbx
  wait    : BitVec 6
  refused : BitVec 6
  deriving DecidableEq, Repr

/-- A capture ring (R211). -/
structure CapRing where
  base : W := 0
  size : W := 0x10C
  wr   : W := 0
  rd   : W := 0
  deriving DecidableEq, Repr

/-- The central store (R206 to R226). `mem` is the store's bytes in canonical form, an unlisted byte reading 0 (R350); `corr`
the words with a corrected error to be written back, `bad` those found with an uncorrectable error (R217, R218); `busy` the banks held by the
second cycle of a read-modify-write, with the tick of its first; `ues` the LTs of the uncorrectable errors of each segment in the last second (R303).
A segment is retained, entering (`transit` alone), or waking (`transit` and `waking`); `waking` while it enters is a wake request that waits (R220).
`held` are accesses of the PCI Express host, and `heldQ` of the QSPI host, that wait for a segment to wake, and the register writes behind them
(R222, R224). -/
structure Store where
  mem      : List Host.Cell := []
  calHalf  : Bool := false
  retained : BitVec 6 := 0
  transit  : BitVec 6 := 0
  waking   : BitVec 6 := 0
  retFlags : Sticky := {}
  errFlags : Sticky := {}
  errMaster : BitVec 5 := 0
  errAddr  : W := 0
  ceCnt    : RcCnt := {}
  ueCnt    : RcCnt := {}
  winAddr  : W := 0
  passCnt  : BitVec 16 := 0
  scrub    : Sticky := {}
  scrubbing : Bool := false
  scrubLate : Bool := false
  irqEn    : W := 0
  page     : BitVec 3 := 5
  cycle    : Nat := 0
  busy     : List (Nat × Nat) := []
  corr     : List Nat := []
  bad      : List Nat := []
  ues      : Vector (List Nat) 6 := Vector.replicate 6 []
  arb      : Vector ArbM 25 := Vector.replicate 25 {}
  ring     : Vector CapRing 8 := tabulate 8 (fun p => { base := BitVec.ofNat 32 (0x2000000 + p.val * 0x10000) })
  jobs     : List RetJob := []
  held     : List Instr := []
  heldQ    : List Instr := []
  deriving DecidableEq, Repr

/-! ### Event interrupt controller -/

/-- An EIC target (R231 to R244): threshold, claimed levels with the newest first, the source offered at the last decision; `core` is the deep
sleep of T0 and W1 to W4, `wake` a wake request that is held (R240). [DESIGN CHOICE, log entry 83] -/
structure Target where
  thr     : BitVec 4 := 0
  stack   : List Nat := []
  offered : Option Nat := none
  sleep   : Bool := false
  core    : Bool := false
  wake    : Bool := false
  flags   : Sticky := {}
  spur    : RcCnt := {}
  deriving DecidableEq, Repr

/-- An interrupt group (R230, R238, R245): CFG, the coalesced edges, and the tick at which a running hold-off ends. -/
structure Group where
  cfg      : W := 0
  coalesce : RcCnt := {}
  hold     : Option Nat := none
  deriving DecidableEq, Repr

/-- One MSI-X vector: address low and high, data, and vector control (R241). -/
structure MsixVec where
  addrLo : W := 0
  addrHi : W := 0
  data   : W := 0
  ctrl   : W := 1
  deriving DecidableEq, Repr

/-- The event interrupt controller (R227 to R246). `prev` is the lines as last sampled; `fresh` and `again` the bits that an edge
of tick `stamp` set or found set; `choice` the standing BALANCE choices; `sent` the interrupt messages sent to the host, newest first. -/
structure Eic where
  pend   : BitVec 1024 := 0
  prev   : BitVec 1024 := 0
  fresh  : BitVec 1024 := 0
  again  : BitVec 1024 := 0
  stamp  : Nat := 0
  src    : Vector W 1024 :=
    tabulate 1024 (fun i => if 768 ≤ i.val ∧ i.val ≤ 782 then 0x10F else 0)
  grp    : Vector Group 32 := Vector.replicate 32 {}
  tgt    : Vector Target 7 := Vector.replicate 7 {}
  choice : List (Nat × Nat) := []
  flags  : Sticky := {}
  qCfg   : W := 0xC
  msix   : Vector MsixVec 32 := Vector.replicate 32 {}
  pba    : W := 0
  sent   : List Nat := []
  pme    : Bool := false
  deriving DecidableEq, Repr

/-! ### Mailboxes -/

/-- How far a posted command has come (R259 to R264): waiting, being fetched from host memory with the bytes that have come, in execution with
its header and body as read at pickup, or answered and not yet completed. An answer without SEQ changes no LAST_SEQ, and one
without block writes no reply. -/
inductive Phase where
  | idle
  | posted
  | fetching (got : List Byte)
  | running (op : Nat) (seq : W) (cap : Nat) (body : List Byte)
  | answered (seq : Option W) (block : Bool) (status : Nat) (detail : Nat) (reply : List Byte)
  | repeated (seq : W)
  deriving DecidableEq, Repr

/-- The records of a CAL_WRITE or CAL_WRITE_DMA in progress (R159, R271). -/
structure CalJob where
  recs   : List (BitVec 128) := []
  total  : Nat := 0
  done   : Nat := 0
  first  : Nat := 0
  last   : Nat := 0
  dma    : Bool := false
  addr   : Nat := 0
  active : Bool := false
  deriving DecidableEq, Repr

/-- A notice (R266). -/
structure Notice where
  code : Nat
  lt   : Nat
  data : List Byte
  deriving DecidableEq, Repr

/-- A mailbox (R257 to R266). `bell` is its place in doorbell order; `recStatus`, `recDetail`, `replyLen` and `doneLt` are of the recorded
completion of LAST_SEQ (R263, R264); `poster` is the master that rang the doorbell; `replyLost` says that a reset has cut a block in host memory off (R265); `shown` is the notice
posted and `queue` those behind it. -/
structure Mailbox where
  owner   : Nat := 0
  postLo  : W := 0
  postHi  : W := 0
  flags   : Sticky := {}
  busy    : Bool := false
  result  : Nat := 0
  lastSeq : W := 0xFFFFFFFF
  detail  : Nat := 0
  irqEn   : W := 0
  phase   : Phase := .idle
  poster  : Nat := 0
  replyLost : Bool := false
  bell    : Nat := 0
  recStatus : Nat := 0
  recDetail : Nat := 0
  replyLen : Nat := 0
  doneLt  : Nat := 0
  cal     : CalJob := {}
  queue   : List Notice := []
  shown   : Option Notice := none
  lost    : Nat := 0
  deriving DecidableEq, Repr

/-- Abort (R277 to R282). `purge` is the set of channels marked for purge; `going` counts the aborts that have not yet set ABORT_DONE; `relPend` holds the
scope of each release that waits and how many of them it waits for, `lt` the last T_a. Which channels are aborted is a field of each channel. -/
structure Abort where
  podMask : W := 0
  chMask  : Vector W 4 := Vector.replicate 4 0
  flags   : Sticky := {}
  purge   : BitVec 128 := 0
  safeLow : Bool := false
  going   : Nat := 0
  relPend : List (BitVec 128 × Nat) := []
  lt      : Nat := 0
  purged  : RcCnt := {}
  deriving DecidableEq, Repr

/-! ### Firmware, health, host link -/

/-- The Watch cores and the Keeper (R283 to R291). `beat` is the cores that wrote a heartbeat in millisecond `beatMs`;
`viols` the LTs of the refused accesses of the last second; `deferred` the ABORT_CTRL releases the Keeper takes after its reboot (R291). -/
structure Firmware where
  ready     : Bool := false
  state     : BitVec 3 := 0
  restarting : Bool := false
  alive     : W := 0
  restarts  : Nat := 0
  beat      : BitVec 4 := 0
  beatMs    : Nat := 0
  lastBeat  : Vector Nat 4 := Vector.replicate 4 0
  cause     : BitVec 4 := 0
  slow      : Bool := false
  core      : BitVec 3 := 0
  dur       : Nat := 0
  rstLt     : Nat := 0
  lastDone  : Option Nat := none
  delay     : Nat := 0
  delayed   : Bool := false
  digestOk  : Bool := false
  viols     : List Nat := []
  keeperUp  : Bool := true
  deferred  : List (BitVec 128) := []
  keeperVer : W := 0
  serviceVer : W := 0
  build     : BitVec 64 := 0
  subsystem : W := 0
  bells     : Nat := 0
  deriving DecidableEq, Repr

/-- The health block (R301 to R306). -/
structure Health where
  sum     : Sticky := {}
  alertEn : W := 0xF84
  viol    : W := 0
  xchk    : RcCnt := {}
  backup  : RcCnt := {}
  mirror  : W := 0
  pod     : Vector PodHealth 8 := Vector.replicate 8 {}
  deriving DecidableEq, Repr

/-- The PCI Express function and the DMA engine (R247 to R252). `since` is the tick at which PERST_n last rose; `maxPay` and `maxReq` are the
logarithms of the sizes in units of 128 B; `out` holds the bytes the device has written to host memory; `unsupported` says that the last memory
request was answered with Unsupported Request, `retried` that the last configuration request was answered with retry status; `qsData` the bytes the last QSPI transaction returned. -/
structure Pcie where
  up      : Bool := false
  width2  : Bool := false
  speed   : BitVec 2 := 0
  perst   : Bool := true
  d3hot   : Bool := false
  bme     : Bool := false
  pmeEn   : Bool := false
  msix    : Bool := false
  msi     : Option Nat := none
  maxPay  : Nat := 0
  maxReq  : Nat := 2
  tmoEnc  : BitVec 4 := 0
  since   : Nat := 0
  dmaErr  : Sticky := {}
  out     : List Host.Cell := []
  unsupported : Bool := false
  retried : Bool := false
  qs      : Sticky := {}
  qsData  : List Byte := []
  deriving DecidableEq, Repr

/-! ### Converter -/

/-- A logical converter slice (R308 to R314). `pendSel` is a SEL written and not yet in effect, with the tick of the write; `skip` the results still to
be suppressed; `last` the boundary at which the present conversion began; `val`, `flags` and `ts` the result in DATA, `new` its NEW with the tick of
its arrival, `oldVal` and `oldTs` the DATA word and timestamp it replaced; `latch` the timestamp of each master's last DATA read; `swNext` says that
the next result is the first of a new unit. -/
structure AdcSlice where
  cfg    : W := 2
  sel    : W := 0
  pendSel : Option (Nat × BitVec 6) := none
  selAct : BitVec 6 := 0
  skip   : Nat := 0
  last   : Nat := 0
  val    : Int := 0
  oldVal : W := 0
  new    : RcCnt := {}
  flags  : BitVec 3 := 0
  ovr    : Bool := false
  ts     : Nat := 0
  oldTs  : Nat := 0
  latch  : Vector Nat 8 := Vector.replicate 8 0
  low    : Int := -8388608
  high   : Int := 8388607
  armed  : Bool := false
  inBand : Bool := false
  stat   : Sticky := {}
  unit   : Nat := 0
  swNext : Bool := false
  irqEn  : W := 0
  deriving DecidableEq, Repr

/-- A physical converter unit (R307, R316). -/
structure AdcUnit where
  ofs  : Int := 0
  gain : Nat := 0x400000
  role : BitVec 3 := 0
  deriving DecidableEq, Repr

/-- The converter (R307 to R321). `overlap` is B0 of an overlap of slice `calSlice`; `calUnit` the unit that calibrates, from boundary `calAt` on; `due`
the tick at which the next rotation, of slice `nextSlice`, is due; `lostNote` counts the records lost since the last notice of them. -/
structure Adc where
  ctrl    : W := 2
  refReady : Bool := false
  refAt   : Nat := 0
  calSlice : Nat := 0
  nextSlice : Nat := 0
  spare   : Nat := 4
  flags   : Sticky := {}
  degraded : Bool := false
  period  : W := 0x3E8
  tol     : W := 0x100
  rotations : RcCnt := {}
  mism    : RcCnt := {}
  fails   : RcCnt := {}
  dac     : W := 0
  temp25  : W := 0
  overlap : Option Nat := none
  calUnit : Option Nat := none
  calAt   : Nat := 0
  due     : Nat := 0
  slice   : Vector AdcSlice 4 := tabulate 4 (fun s => { unit := s.val })
  unit    : Vector AdcUnit 5 := tabulate 5 (fun u => { role := BitVec.ofNat 3 u.val })
  strMask : BitVec 4 := 0
  strLog2 : Nat := 0
  strBase : BitVec 64 := 0
  strWr   : W := 0
  strRd   : W := 0
  strLost : RcCnt := {}
  strSeq  : BitVec 16 := 0
  strGap  : Bool := false
  lostNote : Nat := 0
  deriving DecidableEq, Repr

/-! ### Surroundings -/

/-- A declaration waiting for its epoch (R335). -/
structure Decl where
  idx     : Nat
  value   : Nat
  epoch   : Nat
  clamped : Bool
  deriving DecidableEq, Repr

/-- The last measurement policy 0 or 1 made of a channel (R334): its tick, and its value where the class is one the policy uses. -/
structure Measured where
  idx   : Nat
  at_   : Nat
  value : Option Nat
  deriving DecidableEq, Repr

/-- An adaptation policy (R334 to R338). `deferred` holds the index and the measured value of declarations deferred, with the tick of the retry. -/
structure Policy where
  enable  : Bool := false
  lock    : Bool := false
  min     : W := 0
  max     : W := 0xFFFFFFFF
  tgt     : Vector W 4 := Vector.replicate 4 0
  decls   : List Decl := []
  deferred : List (Nat × Nat × Nat) := []
  last    : List Measured := []
  deriving DecidableEq, Repr

/-- A measurement asked for, in doorbell order (R326): the mailbox, none for one that policy 0 or 1 makes (R334); the channel; load probe or cable echo;
idle gap only; VF; and the tick from which it is first in line. -/
structure MeasJob where
  b     : Option CmdMbx
  ch    : Ch
  load  : Bool
  gap   : Bool
  vf    : Nat
  since : Nat
  deriving DecidableEq, Repr

/-- The measuring of the surroundings (R323 to R339). `jobs` are the measurements asked for, the first of which runs while `running`; `edgeLt` is the LT of
the first ball edge it drove, 0 where it drove none; `wakes` the durations of the last wakes from HIBERNATE, newest first. -/
structure Sur where
  sup     : W := 0
  seen    : Sticky := {}
  tj      : Byte := 0
  alarm   : Byte := 105
  temp    : Bool := false
  vio     : Vector Nat 8 := Vector.replicate 8 0
  pol     : Vector Policy 5 := Vector.replicate 5 {}
  declared : RcCnt := {}
  deferred : RcCnt := {}
  cancelled : RcCnt := {}
  clamped : RcCnt := {}
  jobs    : List MeasJob := []
  running : Bool := false
  edgeLt  : Nat := 0
  abandons : Nat := 0
  kind    : Bool := false
  ch      : Nat := 0
  atb     : W := 0
  atbErr  : Sticky := {}
  wakes   : List Nat := []
  deriving DecidableEq, Repr

/-! ### Power, clocks, boot, fuses, test port -/

/-- Line Time and its status (R10 to R21, R301, R302). `ofsPrev` is the offset in force before tick `ofsTick`; `seen` the largest
LT any master has read. -/
structure Time where
  lt       : Nat := 0
  ctrA     : Nat := 0
  ctrB     : Nat := 0
  seen     : Nat := 0
  res      : BitVec 2 := 0
  ofs      : BitVec 64 := 0
  ofsPrev  : BitVec 64 := 0
  ofsTick  : Nat := 0
  flags    : Sticky := { bits := 0x10 }
  degraded : Bool := false
  pllLock  : Bool := false
  xinOk    : Bool := false
  rtcOk    : Bool := false
  backup   : Bool := false
  deriving DecidableEq, Repr

/-- The guarantee registers (R38 to R42). -/
structure Guar where
  flags   : Sticky := {}
  cleared : Bool := false
  first   : Nat := 0
  clrLt   : Nat := 0
  firstLt : Nat := 0
  deriving DecidableEq, Repr

/-- Power modes (R351 to R358). `target` is the mode an entry in progress goes to; `waking` says that a wake has begun, or waits for the entry to
complete; `nextWake` is T_wk and `stageAt` the tick S (R354); `keep` the segments retained before the sleep; `held` the accesses of the PCI Express host
that wait for RUN (R357). -/
structure Power where
  mode     : BitVec 2 := 0
  target   : BitVec 2 := 0
  entering : Bool := false
  waking   : Bool := false
  autoWake : Bool := false
  keep     : BitVec 6 := 0
  held     : List Instr := []
  flags    : Sticky := {}
  wakeSrc  : Sticky := {}
  wakeCh   : Option Nat := none
  wakeAx   : Option Nat := none
  wakeLt   : Nat := 0
  runLt    : Nat := 0
  nextWake : Nat := 0
  stageAt  : Nat := 0
  lead     : W := 0xF4240
  stby     : W := 0x9C40
  cfg      : W := 0x1F
  chans    : Vector W 4 := Vector.replicate 4 0
  deriving DecidableEq, Repr

/-- Reset and boot (R340 to R350, R364). `held` is the core reset; `verified` says that an image has passed every check and its firmware starts; `flashed` is
the image last written to the primary flash copy; `alert` holds ALERT_n low until the fuses are read. -/
structure Boot where
  held     : Bool := true
  testmode : Bool := false
  cause    : BitVec 4 := 3
  src      : BitVec 2 := 0
  alt      : Bool := false
  priFail  : Bool := false
  failStep : BitVec 4 := 0
  level    : Nat := 0
  load     : W := 0
  verified : Bool := false
  alert    : Bool := true
  vioDown  : BitVec 8 := 0
  flashed  : Option ImageIn := none
  deriving DecidableEq, Repr

/-- The fuses (R202, R283, R348): the two floors, the lifecycle, the grade, and the trims. The key material is not readable by
any rule but a comparison whose outcome is an operand, so it has no field. [DESIGN CHOICE, log entry 77] [DESIGN CHOICE, log entry 81] -/
structure Fuses where
  patchFloor : Nat := 0
  imageFloor : Nat := 0
  lifecycle  : Nat := 0
  gradeX   : Bool := false
  skew     : Vector (BitVec 6) 128 := Vector.replicate 128 0
  pad      : Vector Nat 128 := Vector.replicate 128 0
  cable    : Vector Nat 128 := Vector.replicate 128 0
  ofs      : Vector Int 5 := Vector.replicate 5 0
  gain     : Vector Nat 5 := Vector.replicate 5 0x400000
  temp25   : W := 0
  deriving DecidableEq, Repr

/-- The instruction a test access port has selected (R366). -/
inductive JtagInstr where
  | extest | samplePreload | idcode | clamp | highz | debug | bypass
  deriving DecidableEq, Repr

/-- The test access port (R366, R367). `sampled` holds the levels last sampled at the channel balls; `drive` and `level` are the boundary register's cells
of the channel balls. -/
structure Jtag where
  ir       : JtagInstr := .idcode
  unlocked : Bool := false
  sampled  : BitVec 128 := 0
  drive    : BitVec 128 := 0
  level    : BitVec 128 := 0
  deriving DecidableEq, Repr

/-- What a register-bus master holds (R14 to R18): its shadow with LATCH_ADDR and VALID, its MISMATCH flag, its holding registers
by low-word address, and the data its last read returned, low word and high word. -/
structure MasterSt where
  shadow : W := 0
  addr   : BitVec 24 := 0
  valid  : Bool := false
  mism   : Sticky := {}
  hold   : List (Nat × W) := []
  rdata  : W := 0
  rdataHi : W := 0
  deriving DecidableEq, Repr

/-- The machine: every block, the queue of waiting commands, and `free`, the model's own count of free values used. [DESIGN CHOICE, log entry 79] -/
structure State where
  time    : Time := {}
  master  : Vector MasterSt 8 := Vector.replicate 8 {}
  guar    : Guar := {}
  ch      : Vector Channel 128
  axis    : Vector Axis 8 := Vector.replicate 8 {}
  cal     : Calendar := {}
  pod     : Vector PodSt 8 := Vector.replicate 8 {}
  store   : Store := {}
  eic     : Eic := {}
  mbx     : Vector Mailbox 32 := Vector.replicate 32 {}
  abort   : Abort := {}
  fw      : Firmware := {}
  health  : Health := {}
  pcie    : Pcie := {}
  adc     : Adc := {}
  sur     : Sur := {}
  pwr     : Power := {}
  boot    : Boot := {}
  fuse    : Fuses := {}
  jtag    : Jtag := {}
  free    : Nat := 0
  pending : List Instr := []
  deriving DecidableEq, Repr

/-- The reset value of CHn_PIP_PINS (R388): i = n mod 16 in OUT_BASE, SIDE_PIN, IN_BASE and TIER_SEL. [DESIGN CHOICE, log entry 77] -/
def pinsReset (n : Ch) : W :=
  BitVec.ofNat 32 (let i := n.val % 16; i + i * 0x100 + i * 0x1000 + i * 0x100000)

/-- A channel after reset, with its factory trim (R63). [DESIGN CHOICE, log entry 77] -/
def Channel.reset (trim : BitVec 6) (n : Ch) : Channel :=
  { pip := { pins := pinsReset n }, out := { skew := trim.setWidth 32 } }

/-- The machine right after an always-on power-on reset, the core reset still held (R12, R340). [DESIGN CHOICE, log entry 77] -/
def State.reset : State :=
  { ch := tabulate 128 (Channel.reset 0) }

end Sys2Proof.Machine
end

