-- ==== Sys2Proof/Machine/Bits.lean ====
section
/-!
DEFINITION. Bit fields of register words (R4, R7): reading a field, building a word, joining the two halves of a wide value (R14).
-/
namespace Sys2Proof.Machine

/-- Bit i of a word. -/
def bit (w : W) (i : Nat) : Bool := w.getLsbD i

/-- The field of n bits at bit lo. -/
def fld (w : W) (lo n : Nat) : Nat := w.toNat / 2 ^ lo % 2 ^ n

/-- A word with bit i set where b holds. -/
def flag (i : Nat) (b : Bool) : W := if b then BitVec.ofNat 32 (2 ^ i) else 0

/-- A word with the number v at bit lo. -/
def put (lo v : Nat) : W := BitVec.ofNat 32 (v * 2 ^ lo)

/-- The mask of n bits at bit lo. -/
def mask (lo n : Nat) : W := BitVec.ofNat 32 ((2 ^ n - 1) * 2 ^ lo)

/-- The word w with the field of n bits at bit lo taken from v. -/
def ins (w : W) (lo n : Nat) (v : W) : W := (w &&& ~~~(mask lo n)) ||| (v &&& mask lo n)

/-- A number's low word. -/
def lo32 (n : Nat) : W := BitVec.ofNat 32 n
/-- A number's second word. -/
def hi32 (n : Nat) : W := BitVec.ofNat 32 (n / 2 ^ 32)
/-- The number with high word h and low word l. -/
def join (h l : W) : Nat := h.toNat * 2 ^ 32 + l.toNat

/-- A whole number as a two's complement word. -/
def ofInt (i : Int) : W := BitVec.ofInt 32 i

/-- Set bit i of a word to b. -/
def setBit (w : W) (i : Nat) (b : Bool) : W := if b then w ||| flag i true else w &&& ~~~(flag i true)

/-- Bit i of a 128-bit set of channels. -/
def has (m : BitVec 128) (n : Ch) : Bool := m.getLsbD n.val

/-- The bytes of a number, least significant first, n of them (R3). -/
def leBytes : Nat → Nat → List Byte
  | 0, _ => []
  | n + 1, v => BitVec.ofNat 8 v :: leBytes n (v / 256)

/-- The number a list of bytes holds, least significant first. -/
def leNat : List Byte → Nat
  | [] => 0
  | b :: bs => b.toNat + 256 * leNat bs

/-- The field of k bytes at offset o of a list of bytes; bytes not there read 0. -/
def leAt (o k : Nat) (bs : List Byte) : Nat := leNat ((bs.drop o).take k)

/-- A division rounded to the nearest whole number, halves up. -/
def roundDiv (a b : Nat) : Nat := (2 * a + b) / (2 * b)

/-- Insert into a list kept in order: after every element that is not after x. -/
def insertBy {α : Type} (before : α → α → Bool) (x : α) : List α → List α
  | [] => [x]
  | y :: ys => if before x y then x :: y :: ys else y :: insertBy before x ys

/-- A list put in order, elements neither of which is before the other staying as they stand. -/
def sortBy {α : Type} (before : α → α → Bool) : List α → List α
  | [] => []
  | xs => xs.foldl (fun acc x => insertBy before x acc) []

end Sys2Proof.Machine
end

