-- ==== Sys2Proof/Machine/PipInstr.lean ====
section
/-!
DEFINITION. The Pip instructions and their 16-bit encoding (R100, R101): the operation with its operand fields, and the side-set.
-/
namespace Sys2Proof.Machine

/-- The operations of R100 with every operand field the table names. -/
inductive PipOp where
  /-- Waits N, or LC at issue, further cycles. -/
  | waitcyc (lc : Bool) (n : Fin 512)
  | waitpin (cond : Fin 4) (pin : Fin 32) (to_ : Bool)
  | waitflag (f : Fin 4) (val ack to_ : Bool)
  | waitirq (cls : Fin 4) (idx : Fin 8) (to_ : Bool)
  /-- The count field is N − 1. -/
  | out (dest : Fin 4) (n : Fin 32)
  | inp (src : Fin 4) (n : Fin 32)
  /-- Pins (DEST 0) or flags (DEST 1): a mask and a value. -/
  | setMask (flags : Bool) (msk val : Fin 16)
  /-- LC (DEST 2) or CV (DEST 3): a value. -/
  | setVal (cv : Bool) (val : Fin 256)
  | jmp (cond : Fin 8) (x : Fin 4) (addr : Fin 32)
  | loop (reload : Bool) (addr : Fin 32)
  | cmp (oper f : Fin 4) (inv : Bool)
  | push (clr to_ : Bool)
  | pull (to_ : Bool)
  | irq (cls : Fin 4) (code : Fin 256)
  | mov (dest src : Fin 8) (op : Fin 4)
  | swap (force : Bool)
  | stop (release irq : Bool)
  deriving DecidableEq, Repr

/-- An instruction: its operation and its side-set, if enabled. -/
structure PipInstr where
  op   : PipOp
  side : Option Bool
  deriving DecidableEq, Repr

/-- A number below k. -/
def fin (k : Nat) (h : 0 < k := by decide) (v : Nat) : Fin k := ⟨v % k, Nat.mod_lt _ h⟩

/-- Bits [hi..lo] of a number, n of them. -/
def bitsAt (w lo n : Nat) : Nat := w / 2 ^ lo % 2 ^ n
/-- One bit of a number. -/
def bitAt (w lo : Nat) : Bool := decide (w / 2 ^ lo % 2 = 1)

/-- The operation a word encodes (R100); operand bits the table does not name are ignored. -/
def pipOp (w : Nat) : PipOp :=
  let b := bitsAt w
  let f := bitAt w
  match b 12 4 with
  | 0 => .waitcyc (f 9) (fin 512 (v := b 0 9))
  | 1 => .waitpin (fin 4 (v := b 8 2)) (fin 32 (v := b 3 5)) (f 2)
  | 2 => .waitflag (fin 4 (v := b 8 2)) (f 7) (f 6) (f 2)
  | 3 => .waitirq (fin 4 (v := b 8 2)) (fin 8 (v := b 3 3)) (f 2)
  | 4 => .out (fin 4 (v := b 8 2)) (fin 32 (v := b 0 5))
  | 5 => .inp (fin 4 (v := b 8 2)) (fin 32 (v := b 0 5))
  | 6 => if f 9 then .setVal (f 8) (fin 256 (v := b 0 8))
         else .setMask (f 8) (fin 16 (v := b 4 4)) (fin 16 (v := b 0 4))
  | 7 => .jmp (fin 8 (v := b 7 3)) (fin 4 (v := b 5 2)) (fin 32 (v := b 0 5))
  | 8 => .loop (f 9) (fin 32 (v := b 0 5))
  | 9 => .cmp (fin 4 (v := b 8 2)) (fin 4 (v := b 6 2)) (f 5)
  | 10 => .push (f 9) (f 2)
  | 11 => .pull (f 2)
  | 12 => .irq (fin 4 (v := b 8 2)) (fin 256 (v := b 0 8))
  | 13 => .mov (fin 8 (v := b 7 3)) (fin 8 (v := b 4 3)) (fin 4 (v := b 2 2))
  | 14 => .swap (f 0)
  | _ => .stop (f 0) (f 1)

/-- The instruction a 16-bit word encodes (R100, R102). -/
def pipDecode (w : BitVec 16) : PipInstr :=
  { op := pipOp w.toNat, side := if w.getLsbD 11 then some (w.getLsbD 10) else none }

/-- A bit of a word as a number. -/
def bn (lo : Nat) (b : Bool) : Nat := if b then 2 ^ lo else 0

/-- The opcode and operand bits of an operation. -/
def pipOpBits : PipOp → Nat
  | .waitcyc lc n => bn 9 lc + n.val
  | .waitpin c p t => 0x1000 + c.val * 256 + p.val * 8 + bn 2 t
  | .waitflag g v a t => 0x2000 + g.val * 256 + bn 7 v + bn 6 a + bn 2 t
  | .waitirq c i t => 0x3000 + c.val * 256 + i.val * 8 + bn 2 t
  | .out d n => 0x4000 + d.val * 256 + n.val
  | .inp r n => 0x5000 + r.val * 256 + n.val
  | .setMask g m v => 0x6000 + bn 8 g + m.val * 16 + v.val
  | .setVal c v => 0x6200 + bn 8 c + v.val
  | .jmp c x a => 0x7000 + c.val * 128 + x.val * 32 + a.val
  | .loop r a => 0x8000 + bn 9 r + a.val
  | .cmp o g i => 0x9000 + o.val * 256 + g.val * 64 + bn 5 i
  | .push c t => 0xA000 + bn 9 c + bn 2 t
  | .pull t => 0xB000 + bn 2 t
  | .irq c v => 0xC000 + c.val * 256 + v.val
  | .mov d r o => 0xD000 + d.val * 128 + r.val * 16 + o.val * 4
  | .swap g => 0xE000 + bn 0 g
  | .stop r i => 0xF000 + bn 0 r + bn 1 i

/-- The word of an instruction, with every bit the table does not name 0. -/
def pipEncode (i : PipInstr) : BitVec 16 :=
  BitVec.ofNat 16 (pipOpBits i.op + (match i.side with
    | none => 0
    | some v => 0x800 + bn 10 v))

/-- The operation selects a value R101 reserves. -/
def PipOp.reserved : PipOp → Bool
  | .mov d r _ => decide (6 ≤ d.val) || r == 7
  | .irq c _ => decide (2 ≤ c.val)
  | .waitpin _ p _ => decide (17 ≤ p.val)
  | .waitirq c i _ => (c == 1 && decide (4 ≤ i.val)) || (decide (2 ≤ c.val) && i != 0)
  | _ => false

end Sys2Proof.Machine
end

