-- ==== Sys2Proof/Machine/Ops.lean ====
section
/-!
DEFINITION. The named operations over the state that every family uses: time, flags and counts that meet an access in one tick
(R5), the store's bytes, the repeated blocks, the guarantee flags (R41, R42) and the free values.
-/
namespace Sys2Proof

/-- A master's place among the masters, 0 to 7 (its number of R14 less one). -/
def Master.idx : Master → Fin 8
  | .keeper => 0 | .watch1 => 1 | .watch2 => 2 | .watch3 => 3 | .watch4 => 4
  | .pcie => 5 | .qspi => 6 | .debug => 7

/-- The Watch core a master is, if it is one. -/
def Master.watch : Master → Option (Fin 4)
  | .watch1 => some 0 | .watch2 => some 1 | .watch3 => some 2 | .watch4 => some 3
  | _ => none

end Sys2Proof

namespace Sys2Proof.Machine

/-- What exec answers. -/
abbrev Out := Host.Outcome State Fault Refusal

/-- The present tick (R10). -/
def State.tick (s : State) : Nat := s.time.lt / 32

/-- The next tick boundary, at which the effect of an access of this tick appears. -/
def State.tw (s : State) : Nat := s.tick + 1

/-! ### Flags and counts (R4, R5) -/

/-- The device sets the flags m in tick t. What `fresh` holds is of the latest tick in which it set any. -/
def Sticky.raise (t : Nat) (m : W) (f : Sticky) : Sticky :=
  if t < f.stamp then { f with bits := f.bits ||| m }
  else { bits := f.bits ||| m, stamp := t, fresh := if f.stamp = t then f.fresh ||| m else m }

/-- The device sets the flags m in tick t where b holds. -/
def Sticky.raiseIf (b : Bool) (t : Nat) (m : W) (f : Sticky) : Sticky := if b then f.raise t m else f

/-- A write of w in tick t clears the flags written as 1, but those the device sets in that tick, or at the boundary behind it (R5). -/
def Sticky.w1c (t : Nat) (w : W) (f : Sticky) : Sticky :=
  { f with bits := f.bits &&& ~~~(w &&& ~~~(if t ≤ f.stamp then f.fresh else 0)) }

/-- The device clears the flags m. -/
def Sticky.drop (m : W) (f : Sticky) : Sticky := { f with bits := f.bits &&& ~~~m, fresh := f.fresh &&& ~~~m }

/-- Flag i. -/
def Sticky.get (f : Sticky) (i : Nat) : Bool := bit f.bits i

/-- n occurrences in tick t; the count saturates at max. -/
def RcCnt.bump (t n max : Nat) (c : RcCnt) : RcCnt :=
  if t < c.stamp then { c with val := min max (c.val + n) }
  else
    { val := min max (c.val + n), stamp := t,
      fresh := min (min max (c.val + n)) (if c.stamp = t then c.fresh + n else n) }

/-- The occurrences of tick t itself, and of the boundary behind it. -/
def RcCnt.now (t : Nat) (c : RcCnt) : Nat := if t ≤ c.stamp then c.fresh else 0

/-- The value a read in tick t returns: the count without the occurrences of that tick (R5). -/
def RcCnt.view (t : Nat) (c : RcCnt) : Nat := c.val - c.now t

/-- A read in tick t leaves the occurrences of that tick (R5). -/
def RcCnt.read (t : Nat) (c : RcCnt) : RcCnt := { val := c.now t, stamp := max t c.stamp, fresh := c.now t }

/-- An occurrence of signed size n in tick t, the count saturating at the 16-bit limits (R134). -/
def RcInt.bump (t : Nat) (n : Int) (c : RcInt) : RcInt :=
  { val := max (-32767) (min 32767 (c.val + n)), stamp := t,
    fresh := if c.stamp = t then c.fresh + n else n }

/-- The signed occurrences of tick t itself. -/
def RcInt.now (t : Nat) (c : RcInt) : Int := if t ≤ c.stamp then c.fresh else 0

/-- A read in tick t of a signed count leaves the occurrences of that tick (R5). -/
def RcInt.read (t : Nat) (c : RcInt) : RcInt := { val := c.now t, stamp := max t c.stamp, fresh := c.now t }

/-- A highest value: `val` is the highest before tick `stamp`, `fresh` the highest in it. -/
def RcCnt.peak (t v : Nat) (c : RcCnt) : RcCnt :=
  if c.stamp = t then { c with fresh := max c.fresh v } else { val := max c.val c.fresh, stamp := t, fresh := v }

/-- What a read in tick t returns of a highest value (R5). -/
def RcCnt.peakView (t : Nat) (c : RcCnt) : Nat := if c.stamp = t then c.val else max c.val c.fresh

/-- A read of a highest value in tick t starts it again from the present level. -/
def RcCnt.peakRead (t level : Nat) (c : RcCnt) : RcCnt :=
  { val := level, stamp := t, fresh := if c.stamp = t then c.fresh else 0 }

/-! ### Lists in one canonical form -/

/-- The store's bytes: a byte that no entry lists reads 0 (R350). -/
abbrev Memory := List Host.Cell

/-- The byte at an address. [DEDUCED, log entry 78] -/
def memRead (a : Nat) : Memory → Byte
  | [] => 0
  | (x, v) :: r => if x = a then v else memRead a r

/-- Write a byte, keeping the entries rising and none of them 0. -/
def memWrite (a : Nat) (b : Byte) : Memory → Memory
  | [] => if b = 0 then [] else [(a, b)]
  | (x, v) :: r =>
    if x < a then (x, v) :: memWrite a b r
    else if x = a then (if b = 0 then r else (a, b) :: r)
    else if b = 0 then (x, v) :: r else (a, b) :: (x, v) :: r

/-- Every address of the list lies above a. -/
def memAbove (a : Nat) : Memory → Bool
  | [] => true
  | (x, _) :: r => decide (a < x) && memAbove a r

/-- The canonical form: addresses rising, no entry 0. [DEDUCED, log entry 78] -/
def Memory.wf : Memory → Bool
  | [] => true
  | (x, v) :: r => decide (v ≠ 0) && memAbove x r && Memory.wf r

/-- Write bytes one after another from an address. -/
def memWrites (a : Nat) : List Byte → Memory → Memory
  | [], m => m
  | b :: bs, m => memWrites (a + 1) bs (memWrite a b m)

/-- Write those bytes that are given. -/
def memWriteSome (a : Nat) : List (Option Byte) → Memory → Memory
  | [], m => m
  | some b :: bs, m => memWriteSome (a + 1) bs (memWrite a b m)
  | none :: bs, m => memWriteSome (a + 1) bs m

/-- Read n bytes from an address. -/
def memReads (a n : Nat) (m : Memory) : List Byte := (List.range n).map (fun i => memRead (a + i) m)

/-- A whole 16-byte word written at an aligned offset; its check bits are correct again (R218). [DESIGN CHOICE, log entry 84] -/
def Store.putWord (a : Nat) (bs : List Byte) (x : Store) : Store :=
  { x with
    mem := memWrites a bs x.mem
    bad := x.bad.filter (fun w => w != a / 16 * 16), corr := x.corr.filter (fun w => w != a / 16 * 16) }

/-- Put a value under a key of a list whose keys rise. -/
def upsert {α : Type} (k : Nat) (v : α) : List (Nat × α) → List (Nat × α)
  | [] => [(k, v)]
  | (x, y) :: r =>
    if x < k then (x, y) :: upsert k v r
    else if x = k then (k, v) :: r
    else (k, v) :: (x, y) :: r

/-- The value under a key, or a default. -/
def lookupD {α : Type} (k : Nat) (d : α) : List (Nat × α) → α
  | [] => d
  | (x, y) :: r => if x = k then y else lookupD k d r

/-- Take a key away. -/
def dropKey {α : Type} (k : Nat) (l : List (Nat × α)) : List (Nat × α) := l.filter (fun p => p.1 != k)

/-- The bytes the device writes to host memory from an address on. [DESIGN CHOICE, log entry 61] -/
def outWrite (a : Nat) : List Byte → List Host.Cell → List Host.Cell
  | [], m => m
  | b :: bs, m => outWrite (a + 1) bs (upsert a b m)

/-! ### The repeated blocks -/

/-- The pod, and bank, of a channel (R43). -/
def podOf (n : Ch) : Pod := ⟨n.val / 16, by omega⟩

/-- Channel i of bank p. -/
def chOf (p : Pod) (i : Nat) : Ch := ⟨16 * p.val + i % 16, by omega⟩

/-- The channels of bank p. -/
def bankChs (p : Pod) : List Ch := (List.range 16).map (chOf p)

/-- All channels, pods, axes. -/
def allChs : List Ch := List.finRange 128
def allPods : List Pod := List.finRange 8
def allAxes : List Ax := List.finRange 8

def State.modCh (n : Ch) (f : Channel → Channel) (s : State) : State :=
  { s with ch := s.ch.set n.val (f s.ch[n]) }
def State.modPip (n : Ch) (f : Pip → Pip) (s : State) : State :=
  s.modCh n (fun c => { c with pip := f c.pip })
def State.modAxis (k : Ax) (f : Axis → Axis) (s : State) : State :=
  { s with axis := s.axis.set k.val (f s.axis[k]) }
def State.modPod (p : Pod) (f : PodSt → PodSt) (s : State) : State :=
  { s with pod := s.pod.set p.val (f s.pod[p]) }
def State.modMbx (b : Mbx) (f : Mailbox → Mailbox) (s : State) : State :=
  { s with mbx := s.mbx.set b.val (f s.mbx[b]) }
def State.modMaster (m : Master) (f : MasterSt → MasterSt) (s : State) : State :=
  { s with master := s.master.set m.idx.val (f s.master[m.idx]) }
def State.modHealth (p : Pod) (f : PodHealth → PodHealth) (s : State) : State :=
  { s with health := { s.health with pod := s.health.pod.set p.val (f s.health.pod[p]) } }
def State.modSlice (i : Slice) (f : AdcSlice → AdcSlice) (s : State) : State :=
  { s with adc := { s.adc with slice := s.adc.slice.set i.val (f s.adc.slice[i]) } }
def State.modTgt (t : Tgt) (f : Target → Target) (s : State) : State :=
  { s with eic := { s.eic with tgt := s.eic.tgt.set t.val (f s.eic.tgt[t]) } }
def State.modGrp (g : Grp) (f : Group → Group) (s : State) : State :=
  { s with eic := { s.eic with grp := s.eic.grp.set g.val (f s.eic.grp[g]) } }

/-- Apply f for every element of a list. -/
def forAll {α : Type} (l : List α) (f : α → State → State) (s : State) : State :=
  l.foldl (fun s a => f a s) s

/-- Apply f where b holds. -/
def State.when (b : Bool) (f : State → State) (s : State) : State := if b then f s else s

/-- The device sets flags of CHn_STAT. -/
def State.chStat (n : Ch) (m : W) (s : State) : State :=
  s.modCh n (fun c => { c with stat := c.stat.raise s.tick m })

/-- A configuration write of channel n was refused (CHn_STAT.CFG_ERR). -/
def State.chCfgErr (n : Ch) (s : State) : State := s.chStat n 1

/-! ### Free values -/

/-- A free number below n (n > 0): nothing constrains it but the bound. [DESIGN CHOICE, log entry 79] -/
def State.freeBelow (n : Nat) (s : State) : Nat := Config.freeNat s.free % n

/-- A free bit. [DESIGN CHOICE, log entry 79] -/
def State.freeBit (s : State) : Bool := Config.freeBit s.free

/-- One more free value used. -/
def State.used (s : State) : State := { s with free := s.free + 1 }

/-! ### The guarantee (R41, R42) -/

/-- The guarantee's breach bits. -/
def breachMask : W := 0xFE

/-- A breach of bit i is detected in this tick: its flag, and FIRST with its LT where no breach was held; of several in one
tick FIRST takes the lowest (R41). [DEDUCED, log entry 86] -/
def State.breach (i : Nat) (s : State) : State :=
  let g := s.guar
  let none := g.flags.bits &&& breachMask == 0
  let lower := g.first != 0 && g.firstLt / 32 == s.tick && decide (i < g.first)
  { s with guar := { g with
      flags := g.flags.raise s.tick (flag i true)
      first := if none || lower then i else g.first
      firstLt := if none then s.time.lt else g.firstLt } }

def brLate : Nat := 1
def brPos : Nat := 2
def brDrain : Nat := 3
def brAbort : Nat := 4
def brDirect : Nat := 5
def brBackup : Nat := 6
def brFreeze : Nat := 7

/-! ### Wide registers (R14 to R18) -/

/-- Set the data a master's access returns. -/
def State.ret (m : Master) (w : W) (s : State) : State := s.modMaster m (fun x => { x with rdata := w })

/-- A low-word read of a wide register at address a with value v: the low word is returned and the rest shadowed (R14). -/
def State.lowRead (m : Master) (a v : Nat) (s : State) : State :=
  s.modMaster m (fun x => { x with
    rdata := lo32 v, shadow := hi32 v, addr := BitVec.ofNat 24 a, valid := true })

/-- A high-word read of a wide register whose low word is at address a: the shadow where it is of that register, else the live
word and MISMATCH (R15). -/
def State.highRead (m : Master) (a : Nat) (live : W) (s : State) : State :=
  let x := s.master[m.idx]
  if x.valid && x.addr == BitVec.ofNat 24 a then s.ret m x.shadow
  else s.modMaster m (fun x => { x with rdata := live, mism := x.mism.raise s.tick 1 })

/-- The holding register of a master for the address a, 0 where never written (R18). [DEDUCED, log entry 3] -/
def State.holding (m : Master) (a : Nat) (s : State) : W := lookupD a 0 s.master[m.idx].hold

/-- A write to a holding register (R18). [DEDUCED, log entry 3] -/
def State.setHolding (m : Master) (a : Nat) (w : W) (s : State) : State :=
  s.modMaster m (fun x => { x with hold := upsert a w x.hold })

/-! ### Boundary scan, sleep and the PCI Express host's accesses (R248, R250, R356, R357, R366, R367) -/

/-- The covered balls follow the boundary register: EXTEST, CLAMP or HIGHZ is selected (R367). -/
def scanning (s : State) : Bool := s.jtag.ir == .extest || s.jtag.ir == .clamp || s.jtag.ir == .highz

/-- The device sleeps, or is on its way to. -/
def sleeping (s : State) : Bool := s.pwr.mode != 0 || s.pwr.entering

/-- A wake begins at this edge of LT, which is recorded with its source; sources of one edge are all recorded (R356, R358). One that comes
during the entry waits for its end. An awake device has nothing to do. -/
def State.wakeBy (i : Nat) (s : State) : State :=
  if sleeping s && (!s.pwr.waking || s.pwr.wakeLt == s.time.lt) then
    { s with pwr := { s.pwr with
      waking := true, wakeSrc := s.pwr.wakeSrc.raise s.tick (flag i true)
      wakeLt := if s.pwr.waking then s.pwr.wakeLt else s.time.lt } }
  else s

/-- A wake from a source, where it is enabled. -/
def State.wakeIf (on : Bool) (i : Nat) (s : State) : State := if on then s.wakeBy i else s

def wkCal : Nat := 0
def wkAxis : Nat := 1
def wkChannel : Nat := 2
def wkPcie : Nat := 3
def wkQspi : Nat := 4
def wkSafe : Nat := 5
def wkSupply : Nat := 6
def wkClock : Nat := 7

/-- Configuration is still retried: from link-up until FW_READY, a failed boot, or 900 ms after PERST_n rose (R248). -/
def cfgRetried (s : State) : Bool := !s.fw.ready && s.fw.state != 4 && decide (s.tick < s.pcie.since + 360000000)

/-- The rows that are register writes or window writes of a host. -/
def isWriteRow : Instr → Bool
  | .registerWrite .. => true
  | .holdingRegWrite .. => true
  | .wideHighWrite .. => true
  | .guarStatClear .. => true
  | .topCommit .. => true
  | .cmpCommit .. => true
  | .advCommit .. => true
  | .eicPsetWrite .. => true
  | .eicPendClear .. => true
  | .eoi .. => true
  | .srcCfgWrite .. => true
  | .groupLock .. => true
  | .abortGo .. => true
  | .abortRelease .. => true
  | .mbLockRelease .. => true
  | .mbPostWrite .. => true
  | .mbDoorbell .. => true
  | .mbNoticeAck .. => true
  | .bootCmdLoad .. => true
  | .bootCmdFlash .. => true
  | .bar2Access (.write ..) => true
  | .qspiWrite .. => true
  | .qspiQwrite .. => true
  | _ => false

/-- A register access of the PCI Express host: a write waits for the window writes before it (R224). [DEDUCED, log entry 62] -/
def State.behindBar2 (row : Instr) (f : State → State) (s : State) : State :=
  if isWriteRow row && s.store.held.any isWriteRow then { s with store := { s.store with held := s.store.held ++ [row] } }
  else f s

/-- An access of the QSPI host: a write waits for the window writes before it (R224). -/
def State.behindPage (row : Instr) (f : State → State) (s : State) : State :=
  if isWriteRow row && s.store.heldQ.any isWriteRow then { s with store := { s.store with heldQ := s.store.heldQ ++ [row] } }
  else f s

/-- A memory request of the PCI Express host: none can come without a link; one that comes while configuration is retried or in D3hot is answered
with Unsupported Request (R248, R250); one that comes while the device sleeps wakes it and waits for RUN (R357). -/
def State.pcieReq (row : Instr) (f : State → State) (s : State) : State :=
  if !s.pcie.up then s
  else if cfgRetried s || s.pcie.d3hot then { s with pcie := { s.pcie with unsupported := true } }
  else
    let s := { s with pcie := { s.pcie with unsupported := false } }
    if s.pwr.mode != 0 then ({ s with pwr := { s.pwr with held := s.pwr.held ++ [row] } }).wakeIf (bit s.pwr.cfg 0) wkPcie
    else f s

/-- An access of a register-bus master. A sleeping device ignores the QSPI host, and wakes (R357); the debug master has its port only after the Keeper
has accepted the token (R366). `row` is the access itself, kept where it must wait. [DEDUCED, log entry 73] -/
def State.access (m : Master) (row : Instr) (f : State → State) (s : State) : State :=
  match m with
  | .pcie => s.pcieReq row (State.behindBar2 row f)
  | .qspi => if s.pwr.mode != 0 then s.wakeIf (bit s.pwr.cfg 1) wkQspi else s.behindPage row f
  | .debug => if s.jtag.unlocked && s.jtag.ir == .debug then f s else s
  | _ => f s

/-- An access of a master would be made now. -/
def reaches (m : Master) (s : State) : Bool :=
  match m with
  | .pcie => s.pcie.up && !cfgRetried s && !s.pcie.d3hot && s.pwr.mode == 0
  | .qspi => s.pwr.mode == 0
  | .debug => s.jtag.unlocked && s.jtag.ir == .debug
  | _ => true

/-- The address of channel n's block (R43). -/
def chBase (n : Ch) : Nat := 0x40000 + n.val * 0x800

end Sys2Proof.Machine
end

