-- ==== Sys2Proof/Machine/Operands.lean ====
section
/-!
DEFINITION. The operand words of the block: the action word of a compare unit (R51, R59), the event record (R155, R156) with its
order (R169, R175, R389), the result record (R179), the capture entry (R80).
-/
namespace Sys2Proof.Machine

/-! ### Compare action word (CHn_CMPx_ACT) -/

def actCode (w : W) : Nat := fld w 0 4
def actFrac (w : W) : Nat := fld w 4 5
def actLt (w : W) : Bool := bit w 9
/-- SLOPE selects up counting (R55). -/
def slopeUp (w : W) : Bool := fld w 10 2 != 2
/-- SLOPE selects down counting (R55). -/
def slopeDown (w : W) : Bool := fld w 10 2 != 1
def actImmediate (w : W) : Bool := bit w 12
def actIrq (w : W) : Bool := bit w 13
def actRepeat (w : W) : Bool := bit w 14
/-- ACTION codes 0xB to 0xF are reserved (R59). -/
def actReserved (code : Nat) : Bool := decide (11 ≤ code)

/-! ### Event record (R155) -/

/-- The record a 16-byte value holds: DUE, PARAM and the word at bytes 12 to 15. -/
def recOf (b : BitVec 128) : Rec :=
  { due := b.toNat % 2 ^ 64
    param := BitVec.ofNat 32 (b.toNat / 2 ^ 64)
    ch := ⟨b.toNat / 2 ^ 96 % 128, by omega⟩
    dom := BitVec.ofNat 4 (b.toNat / 2 ^ 103)
    act := BitVec.ofNat 5 (b.toNat / 2 ^ 107)
    behind := b.getLsbD 112
    res := b.getLsbD 113
    rsv := BitVec.ofNat 2 (b.toNat / 2 ^ 114)
    seq := BitVec.ofNat 12 (b.toNat / 2 ^ 116) }

/-- The 16 bytes of a record. -/
def recBits (r : Rec) : BitVec 128 :=
  BitVec.ofNat 128 (r.due % 2 ^ 64 + r.param.toNat * 2 ^ 64 + r.ch.val * 2 ^ 96 + r.dom.toNat * 2 ^ 103
    + r.act.toNat * 2 ^ 107 + (if r.behind then 2 ^ 112 else 0) + (if r.res then 2 ^ 113 else 0)
    + r.rsv.toNat * 2 ^ 114 + r.seq.toNat * 2 ^ 116)

/-- Records follow one another, 16 bytes each. -/
def recsOf (bs : List Byte) (n : Nat) : List (BitVec 128) :=
  (List.range n).map (fun i => BitVec.ofNat 128 (leNat ((bs.drop (16 * i)).take 16)))

/-- The compare-unit action of an event: ACT[3:0] (R156). -/
def Rec.code (r : Rec) : Nat := r.act.toNat % 16
/-- ACT[4]: raise the compare interrupt at the match (R156). -/
def Rec.irq (r : Rec) : Bool := r.act.getLsbD 4

/-- PARAM sets a bit that its action reserves (R59, R157). -/
def badParam (code : Nat) (p : W) : Bool :=
  (code == 4 && fld p 24 8 != 0) || (code == 6 && fld p 5 27 != 0)

/-- The axis of a position-domain record (R23). -/
def Rec.axis (r : Rec) : Ax := ⟨(r.dom.toNat + 7) % 8, by omega⟩
/-- DOM 0 is the time domain. -/
def Rec.timed (r : Rec) : Bool := r.dom == 0

/-- The LT an event is due at: its DUE, or for a committed position event its ball time plus its advance (R23, R65). -/
def Ev.dueLt (e : Ev) : Nat := if e.rec_.timed then e.rec_.due else e.ball + e.adv

/-- The tick in which the event's action is applied: 4 ticks before its ball time (R62). -/
def Ev.actionTick (e : Ev) : Nat := e.ball / 32 - 4

/-- What the pod commits into a unit for an event (R65, R156). -/
def Ev.set (e : Ev) : CmpSet :=
  { val := BitVec.ofNat 48 e.actionTick
    act := put 0 e.rec_.code ||| put 4 (e.ball % 32) ||| flag 9 true ||| flag 13 e.rec_.irq
    param := e.rec_.param }

/-- Of events of equal ball time and DUE, the earliest accepted one's SEQ: S_ref (R389). -/
def seqRef (l : List Ev) (a : Ev) : Nat :=
  ((l.filter (fun e => e.ball == a.ball && e.dueLt == a.dueLt && e.rec_.ch == a.rec_.ch)).foldl
    (fun (m : Ev) e => if e.ord < m.ord then e else m) a).rec_.seq.toNat

/-- K of R389. -/
def seqKey (ref : Nat) (a : Ev) : Nat := (a.rec_.seq.toNat + 4096 - ref % 4096 + 2047) % 4096

/-- Event a is taken before event b, both of l: by ball time, then DUE, then the order of R389. -/
def evBefore (l : List Ev) (a b : Ev) : Bool :=
  if a.ball != b.ball then decide (a.ball < b.ball)
  else if a.dueLt != b.dueLt then decide (a.dueLt < b.dueLt)
  else if seqKey (seqRef l a) a != seqKey (seqRef l b) b then decide (seqKey (seqRef l a) a < seqKey (seqRef l b) b)
  else decide (a.ord < b.ord)

/-- Events in the order in which a channel takes them (R169, R389). -/
def evSort (l : List Ev) : List Ev := sortBy (evBefore l) l

/-- Two events of one channel whose order SEQ does not decide: equal, or 2048 apart (R175). -/
def seqAmbig (a b : Ev) : Bool :=
  a.ord != b.ord && a.rec_.ch == b.rec_.ch && a.ball == b.ball &&
    (let d := (a.rec_.seq.toNat + 4096 - b.rec_.seq.toNat) % 4096; d == 0 || d == 2048)

/-! ### Result record (R179) -/

/-- The word at bytes 8 to 11 of an event's result. -/
def Rec.resWord (r : Rec) : W :=
  put 0 r.ch.val ||| put 8 r.seq.toNat ||| put 20 r.dom.toNat ||| put 24 r.act.toNat

/-- The flags at bytes 12 to 13 of an event's result, TYPE 0. -/
def resHalf (late missed ambig held : Bool) (reason : Nat) : BitVec 16 :=
  BitVec.ofNat 16 ((if late then 16 else 0) + (if missed then 32 else 0) + (if ambig then 64 else 0)
    + (if held then 128 else 0) + reason % 16 * 256)

/-- The 16 bytes of a record in the ring. -/
def ResRec.bytes (r : ResRec) (rseq : BitVec 16) : List Byte :=
  leBytes 8 r.actLt ++ leBytes 4 r.word.toNat ++ leBytes 2 r.half.toNat ++ leBytes 2 rseq.toNat

/-- REASON values (R180). -/
def rsAbort : Nat := 1
def rsFreeze : Nat := 2
def rsChOff : Nat := 3
def rsStoreErr : Nat := 4
def rsBehind : Nat := 5
def rsLateWrite : Nat := 6
def rsShortLead : Nat := 7
def rsReached : Nat := 8
def rsDense : Nat := 9
def rsArmLate : Nat := 10
def rsRange : Nat := 11

/-- Of two reasons the one reported: the first in the table, 0 only where there is no other (R180). -/
def firstReason (a b : Nat) : Nat := if a = 0 then b else if b = 0 then a else min a b

/-! ### Capture entry (R80) -/

/-- The 16 bytes of a capture ring entry. -/
def CapE.bytes (e : CapE) (n : Ch) (seq : Nat) : List Byte :=
  leBytes 8 e.lt ++ leBytes 4 e.cnt.toNat ++ [BitVec.ofNat 8 n.val, e.flags ||| 0x80] ++ leBytes 2 seq

end Sys2Proof.Machine
end

