-- ==== Sys2Proof/Machine/ChanOps.lean ====
section
/-!
DEFINITION. The shared operations of a channel (chapter Channels): edges and the merge of one ball tick (R62, R64), actions (R59 to
R61), capture entries (R74, R75), the Pip's start and halt (R91, R110, R111), matches (R53, R54, R58) and the counter's steps
(R44 to R49, R56).
-/
namespace Sys2Proof.Machine

/-! ### The output stage -/

/-- The level of the highest tier below the reflex term: the Pip tier while held, else the compare-and-calendar tier (R31). -/
def OutStage.shown (o : OutStage) : Bool := o.pip.getD o.level

/-- Edges whose ball time has come leave the pipeline; `base` is the level the ball then shows. -/
def OutStage.drain (t : Nat) (o : OutStage) : OutStage :=
  match (o.pipe.filter (fun e => decide (e.x / 32 ≤ t))).getLast? with
  | none => o
  | some e => { o with
      base := e.level, lastBall := e.x / 32, pipe := o.pipe.filter (fun e => decide (t < e.x / 32)) }

/-- A change of the stage placed at ball time x. All changes of one ball tick make at most one edge, at the latest of their ball
times and to the net level; `mergeNow` says that the net level cancels a change that alone would have moved the ball (R64). [DEDUCED, log entry 18] [DESIGN CHOICE, log entry 37] -/
def OutStage.change (x : Nat) (upd : OutStage → OutStage) (o : OutStage) : OutStage :=
  let o1 := if o.mergeTick = x / 32 then o
    else { o with mergeTick := x / 32, mergeX := x, mergeFrom := o.shown, mergeMoved := false, mergeNow := false }
  let o2 := upd o1
  let moved := o1.mergeMoved || (o2.shown != o1.shown)
  let top := max o1.mergeX x
  let rest := o1.pipe.filter (fun e => decide (e.x / 32 ≠ x / 32))
  { o2 with
    mergeMoved := moved
    mergeX := top
    mergeNow := moved && (o2.shown == o1.mergeFrom)
    pipe := if o2.shown != o1.mergeFrom
      then insertBy (fun a b => decide (a.x < b.x)) ⟨top, o2.shown⟩ rest else rest }

/-- The cancelled tick behind a change at ball time x is over: EDGE_MERGED is set for it (R64). -/
def Channel.settleMerge (x : Nat) (c : Channel) : Channel :=
  if c.out.mergeNow && c.out.mergeTick != x / 32 then
    { c with stat := c.stat.raise (c.out.mergeTick - 4) 4, out := { c.out with mergeNow := false } }
  else c

/-- A change of the output placed at ball time x; the first one after a release ends the SAFE level at that time (R69). [DEDUCED, log entry 13] [DEDUCED, log entry 36] -/
def Channel.change (x : Nat) (upd : OutStage → OutStage) (c : Channel) : Channel :=
  let c := c.settleMerge x
  { c with out := c.out.change x upd, safeEnd := if c.safeHold then some (min (x / 32) (c.safeEnd.getD (x / 32))) else none }

/-- A change of the compare-and-calendar tier by an action (R62). -/
def Channel.drive (x : Nat) (f : Bool → Bool) (c : Channel) : Channel :=
  c.change x (fun o => { o with level := f o.level })

/-- Drop the train that runs; BURST_CUT is set when `cut` and one ran (R61, R69). -/
def Channel.endTrain (t : Nat) (cut : Bool) (c : Channel) : Channel :=
  { c with
    stat := c.stat.raiseIf (cut && c.out.train != .none) t (flag 4 true)
    out := { c.out with train := .none } }

/-- The edges not yet at the ball are lost and the tiers start from the level l at the ball. -/
def Channel.cutPipe (l : Bool) (c : Channel) : Channel :=
  { c with out := { c.out with pipe := [], base := l, mergeNow := false, mergeTick := 0 } }

/-! ### Captures -/

/-- A written FILTER takes effect at the first boundary at which nothing of the channel waits to enter: no entry, and no crossing in the filter (R75).
Applied at boundary b, before anything new is put to wait there. [DEDUCED, log entry 87] -/
def Channel.takeFilter (b : Nat) (c : Channel) : Channel :=
  match c.filtNext with
  | none => c
  | some (from_, v) =>
    if from_ ≤ b && c.filt.cand.isNone && c.cap.waiting.all (fun e => decide (e.1 ≤ b)) then { c with filter := v, filtNext := none }
    else c

/-- A write w of CHn_IN_CFG that may take effect from boundary tw on, all but FILTER at once (R73, R75). [DEDUCED, log entry 87] -/
def Channel.setInCfg (tw : Nat) (w : W) (c : Channel) : Channel :=
  let c := c.takeFilter (tw - 1)
  { c with inCfg := w &&& 0x3FF, filtNext := some (tw, fld w 6 4) }

/-- An entry waits to enter at a boundary; entries of one boundary enter in timestamp order, a soft one before a pin one of equal
timestamp (R75). -/
def Capture.wait (b : Nat) (e : CapE) (k : Capture) : Capture :=
  let before (x y : Nat × CapE) : Bool :=
    decide (x.1 < y.1) || (x.1 == y.1 && (decide (x.2.lt < y.2.lt) ||
      (x.2.lt == y.2.lt && x.2.flags.getLsbD 5 && !y.2.flags.getLsbD 5)))
  { k with waiting := insertBy before (b, e) k.waiting }

/-! ### Pip: clock, pins and halting -/

def Pip.divider (p : Pip) : Nat := fld p.div 0 24
/-- The tick at which cycle k begins (R93). -/
def Pip.cycleTick (p : Pip) (k : Nat) : Nat := p.t0 + k * p.divider / 256
/-- The first cycle that begins at or after boundary b. -/
def Pip.firstCycle (p : Pip) (b : Nat) : Nat :=
  if b ≤ p.t0 then 0 else ((b - p.t0) * 256 + p.divider - 1) / max 1 p.divider
/-- The bank not in use. -/
def Pip.otherValid (p : Pip) : Bool := if p.bank then p.valid0 else p.valid1
def Pip.activeValid (p : Pip) : Bool := if p.bank then p.valid1 else p.valid0
/-- Set error flags of the Pip (CHn_PIP_ERR). -/
def Pip.error (t : Nat) (m : W) (p : Pip) : Pip := { p with err := p.err.raise t m }

/-- A swap: the other bank from address 0; a forced one discards a partial word (R113). -/
def Pip.takeSwap (t : Nat) (force : Bool) (p : Pip) : Pip :=
  let q := { p with bank := !p.bank, swap := none, stalled := none, waitLeft := 0, r := { p.r with pc := 0 } }
  if force && p.r.bc != 0 then
    { q with r := { q.r with sr := 0, bc := 0, loaded := false }, err := q.err.raise t 1 }
  else q

/-- A running engine stops with a reason; a swap that waits is taken (R91, R114). [DEDUCED, log entry 16] -/
def Pip.halted (t : Nat) (why : BitVec 3) (resumable : Bool) (p : Pip) : Pip :=
  if p.run then
    let q := { p with run := false, halt := why, resum := resumable, stalled := none, stopAt := none }
    match p.swap with
    | none => q
    | some _ => { q.takeSwap t false with resum := false }
  else p

/-- The further cycles of a WAITCYC that have begun by tick t pass, and a host stop or swap that was waiting for the end of a cycle
in which no instruction executes takes place (R91, R92, R113, R114). [DEDUCED, log entry 17] -/
def Pip.settle (t : Nat) (p : Pip) : Pip :=
  if !p.run then p
  else
    let begun := if t < p.t0 then 0 else p.firstCycle (t + 1)
    let kStop := p.stopAt.map p.firstCycle
    let kSwap := if p.r.bc = 0 then p.swap.map p.firstCycle else none
    let lim := min begun (min (kStop.elim begun (· + 1)) (kSwap.elim begun (· + 1)))
    let adv := min p.waitLeft (lim - p.cyc)
    let q := { p with waitLeft := p.waitLeft - adv, cyc := p.cyc + adv }
    let ended (k : Nat) : Bool := decide (q.cycleTick (k + 1) ≤ t) && (q.stalled.isSome || decide (k < q.cyc))
    let stalls (k : Nat) : Nat := match q.stalled with
      | some c => k + 1 - c - q.waited
      | none => 0
    let swapFirst := match kSwap, kStop with
      | some a, some b => decide (a < b)
      | some _, none => true
      | none, _ => false
    let q := match kSwap with
      | some k =>
        if swapFirst && ended k then
          { (q.takeSwap t false) with cyc := max q.cyc (k + 1), waits := q.waits.bump t (stalls k) 0xFFFFFFFF }
        else q
      | none => q
    match kStop with
    | some k =>
      if ended k then { q with waits := q.waits.bump t (stalls k) 0xFFFFFFFF }.halted t 2 true else q
    | none => q

/-- The stall cycles of the present stall that are over at tick t are counted (R94). -/
def Pip.noteStalls (t : Nat) (p : Pip) : Pip :=
  match p.stalled with
  | none => p
  | some k0 =>
    let n := p.firstCycle (t + 1) - 1 - k0
    { p with waits := p.waits.bump t (n - p.waited) 0xFFFFFFFF, waited := max n p.waited }

/-- A latch is set, seen from boundary b on (R106). -/
def Pip.latch (b : Nat) (m : W) (p : Pip) : Pip := { p with r := { p.r with pendQ := p.r.pendQ ++ [(b, m)] } }

/-- The channels of the bank whose Pip tier Pip n feeds and holds (R96, R97). -/
def tierOf (n : Ch) (s : State) : List Ch :=
  (bankChs (podOf n)).filter (fun m => fld s.ch[m].pip.pins 20 4 == n.val % 16 && s.ch[m].out.pip.isSome)

/-- Pip n gives up every Pip tier it holds: the ball returns to the tier below at tick t + 4 ticks + 0 frac (R97). -/
def State.releaseTier (t : Nat) (n : Ch) (s : State) : State :=
  forAll (tierOf n s) (fun m => State.modCh m (Channel.change ((t + 4) * 32) (fun o => { o with pip := none }))) s

/-- Stop the Pip of channel n with a reason, giving up its pins where `release` (R91). -/
def State.pipHalt (t : Nat) (why : BitVec 3) (resumable release : Bool) (n : Ch) (s : State) : State :=
  let ran := s.ch[n].pip.run
  (s.modPip n (fun p => ((p.settle t).noteStalls t).halted t why resumable)).when (release && (ran || why == 5 || why == 3)) (State.releaseTier t n)

/-- Start the Pip of channel n at tick t from an address of its active bank; `frac` is the FRAC of the starting action (R97,
R110, R111). -/
def State.pipStartAt (t : Nat) (entry : Fin 32) (frac : Option Nat) (n : Ch) (s : State) : State :=
  let c := s.ch[n]
  let p := c.pip.settle t
  let p := if p.swap == some t then p.takeSwap t false else p
  if !p.activeValid || (p.run && !bit p.ctrl 1) || c.frz || !(c.en && bit p.ctrl 0) then
    s.modPip n (fun _ => p.error t 8)
  else
    s.modPip n (fun _ => { p with
      err := p.err.raiseIf (p.r.bc != 0) t 1
      r := { p.r with pc := entry, bc := 0, loaded := false }
      waits := (p.noteStalls t).waits, waited := 0
      run := true, resum := false, t0 := t, cyc := 0, waitLeft := 0, stalled := none, stopAt := none
      efrac := frac, prevCyc := none })

/-! ### Actions (R59 to R61) -/

/-- While LT runs coarse no frac placement is performed (R21). [DEDUCED, log entry 35] -/
def State.placed (s : State) (frac : Nat) : Nat := if s.time.res != 0 then 0 else frac

/-- The count CNT will show in tick t if the counter of a tick mode runs on undisturbed; otherwise the present count. [DEDUCED, log entry 5] -/
def Counter.ahead (t : Nat) (k : Counter) (en : Bool) : W :=
  let d := fld k.presc 0 16 + 1
  let n := if en && k.run && decide (k.next ≤ t) then (t - k.next) / d + 1 else 0
  if fld k.cfg 0 3 == 0 || (fld k.cfg 0 3 == 3 && k.gateAct) then lo32 (k.cnt.toNat + n)
  else if fld k.cfg 0 3 == 1 then lo32 (k.cnt.toNat + 2 ^ 48 - n % 2 ^ 48)
  else lo32 k.cnt.toNat

/-- Apply an action in action tick t (R59). [DEDUCED, log entry 5] -/
def State.act (t frac code : Nat) (param : W) (n : Ch) (s : State) : State :=
  let x := (t + 4) * 32 + s.placed frac
  match code with
  | 1 => s.modCh n (Channel.drive x (fun _ => true))
  | 2 => s.modCh n (Channel.drive x (fun _ => false))
  | 3 => s.modCh n (Channel.drive x (fun l => !l))
  | 4 =>
    let w := fld param 0 24
    s.modCh n (fun c =>
      let c := (c.endTrain t true).drive x (fun _ => true)
      { c with
        stat := c.stat.raiseIf (decide (w < 32)) t (flag 3 true)
        out := { c.out with train := .pulse (x + max 32 w) } })
  | 5 =>
    let w := fld param 10 11 + 1
    let g := fld param 21 11 + 1
    s.modCh n (fun c =>
      let c := (c.endTrain t true).drive x (fun _ => true)
      { c with out := { c.out with train := .burst (x + 32 * w) false (2 * (fld param 0 10 + 1) - 1) w g } })
  | 6 => s.pipStartAt t ⟨fld param 0 5 % 32, by omega⟩ (some (s.placed frac)) n
  | 8 => s.modCh n (fun c => { c with rfx := { c.rfx with pend := c.rfx.pend ++ [(t + 4, true)] } })
  | 9 => s.modCh n (fun c => { c with rfx := { c.rfx with pend := c.rfx.pend ++ [(t + 4, false)] } })
  | 10 =>
    s.modCh n (fun c =>
      let c := c.takeFilter t
      let e : CapE := { lt := x, cnt := c.ctr.ahead (t + 4) c.en, flags := if s.time.res != 0 then 0xA2 else 0xA0 }
      { c with cap := c.cap.wait (t + 4 + c.filter + 3) e })
  | _ => s

/-! ### Matches (R53, R54, R58) -/

/-- CHn_CTRL.EN and the rest of what a match needs: the compare line it raises (R88). -/
def Channel.matchLine (t : Nat) (set : CmpSet) (c : Channel) : Channel :=
  if bit c.irqEn 0 && (actIrq set.act || actCode set.act == 7) then { c with cmpLine := some t } else c

/-- A unit stays armed after a match: REPEAT, CNT base, not AXIS mode (R54). -/
def keepsArmed (set : CmpSet) (k : Counter) : Bool := actRepeat set.act && !actLt set.act && fld k.cfg 0 3 != 5

/-- The flags and the state of unit u after its match in tick t, and the latch of R106. Who calls it has settled whether the unit
stays armed. -/
def Channel.matched (t : Nat) (u : Unit4) (set : CmpSet) (late : Bool) (c : Channel) : Channel :=
  let x := (t + 4) * 32 + actFrac set.act
  let c := c.matchLine t set
  { c with
    stat := c.stat.raiseIf late t (flag 5 true)
    pip := c.pip.latch (t + 1) (flag (8 + u.val) true)
    unit := c.unit.set u.val { c.unit[u] with
      flags := (c.unit[u].flags.raise t 2).raiseIf late t 4
      matchLt := x, hit := none, owner := false, ev := none } }

/-- An outcome of a calendar event waits for its result record (R179). -/
def State.outcome (p : Pod) (o : Outcome) (s : State) : State :=
  s.modPod p (fun q => { q with matched := q.matched ++ [o] })

/-- How far back the drain bound looks: the largest staging window (R167, R170). -/
def lookBack : Nat := 17 * 512

/-- An event has left its unit: the density limits, the drain bound and R67 look back at it, and at the last of its channel. -/
def PodSt.pass (e : Ev) (q : PodSt) : PodSt :=
  { q with past := e :: q.past.filter (fun x => x.rec_.ch != e.rec_.ch || decide (e.ball / 32 ≤ x.ball / 32 + lookBack)) }

/-! ### Trains (R59 to R61) -/

/-- The ball time of the next edge of the train that runs. -/
def Train.nextX : Train → Option Nat
  | .none => .none
  | .pulse x => some x
  | .burst x .. => some x

/-- The edges a train has left. -/
def Train.left : Train → Nat
  | .none => 0
  | .pulse _ => 1
  | .burst _ _ k _ _ => k

/-- The next edge of the train: the end of a pulse, or an edge of a burst, whose last leaves level 0. -/
def Channel.trainEdge (c : Channel) : Channel :=
  match c.out.train with
  | .none => c
  | .pulse x =>
    let c := c.drive x (fun _ => false)
    { c with out := { c.out with train := .none } }
  | .burst x l k w g =>
    let c := c.drive x (fun _ => l)
    { c with out := { c.out with train := if k ≤ 1 then .none else .burst (x + 32 * (if l then w else g)) (!l) (k - 1) w g } }

/-- At most k edges of the train, those placed at or before x. -/
def Channel.trainTo (x : Nat) : Nat → Channel → Channel
  | 0, c => c
  | k + 1, c => if c.out.train.nextX.any (fun e => decide (e ≤ x)) then (c.trainEdge).trainTo x k else c

/-- The train up to x: its edges come before an action placed at x (R58, R61). -/
def Channel.trainBefore (x : Nat) (c : Channel) : Channel := c.trainTo x (max 1 c.out.train.left)

/-- Unit u of channel n matched in tick t with what it compared: the match is recorded and its action applied. A channel not
enabled has no match, a frozen one applies no action; a calendar event then goes unfired with its reason (R36, R86). [DEDUCED, log entry 6] [DEDUCED, log entry 35] -/
def State.fire (t : Nat) (u : Unit4) (set : CmpSet) (late : Bool) (n : Ch) (s : State) : State :=
  let c := s.ch[n]
  let x := (t + 4) * 32 + s.placed (actFrac set.act)
  let ev := c.unit[u].ev
  if !c.en then
    match ev with
    | none => s.modCh n (fun c => { c with unit := c.unit.set u.val { c.unit[u] with hit := none } })
    | some e =>
      let off : CmpUnit := { c.unit[u] with hit := none, live := false, owner := false, ev := none }
      (s.modCh n (fun c => { c with unit := c.unit.set u.val off })).outcome (podOf n)
        { ev := e, x := x + e.adv, missed := some rsChOff }
  else
    let s := s.modCh n (fun c => (c.trainBefore x).matched t u set late)
    let s := s.when (!c.frz) (State.act t (actFrac set.act) (actCode set.act) set.param n)
    match ev with
    | none => s
    | some e =>
      (s.modPod (podOf n) (PodSt.pass { e with ball := x })).outcome (podOf n) (if c.frz then { ev := e, x := x + e.adv, missed := some rsFreeze } else { ev := e, x := x, missed := none })

/-! ### The counter -/

def Counter.mode (k : Counter) : Nat := fld k.cfg 0 3
def Counter.div1 (k : Counter) : Nat := fld k.presc 0 16 + 1
def Counter.srcSel (k : Counter) : Nat := fld k.cfg 4 6
/-- SRC_SEL names a source (CHn_CNT_CFG). -/
def srcSelOk (v : Nat) : Bool := decide (v ≤ 16) || (decide (32 ≤ v) && decide (v ≤ 55))
/-- The mode is reserved, or names a reserved source: the counter does not count (R44). -/
def ctrReserved (cfg : W) : Bool :=
  decide (6 ≤ fld cfg 0 3) || ((fld cfg 0 3 == 3 || fld cfg 0 3 == 4) && !srcSelOk (fld cfg 4 6))

/-- The armed CNT-base units that `sel` names match at boundary b (R53). -/
def Channel.hitUnits (b : Nat) (sel : CmpUnit → Bool) (c : Channel) : Channel :=
  { c with unit := c.unit.map (fun u =>
      if u.live && !actLt u.active.act && sel u
      then { u with hit := some (b, u.active), live := keepsArmed u.active c.ctr } else u) }

/-- At a turning count every shadowed value becomes active (R56). -/
def Channel.loadShadow (c : Channel) : Channel :=
  { c with unit := c.unit.map (fun u =>
      if u.shadow then { u with active := u.cur, live := true, shadow := false } else u) }

/-- One step of an UPDOWN counter at boundary b: the turns at TOP and at 0, a pending TOP taken at 0, the shadow load, and the
matches of the new count (R48, R55). A count above TOP has no step in the spec: the new count is the free value `fv`. [DESIGN CHOICE, log entry 8] -/
def Channel.stepUpDown (b fv : Nat) (c : Channel) : Channel :=
  let k := c.ctr
  if k.top == 0 && k.cnt == 0 then
    match k.topPend with
    | none => c
    | some t' =>
      let c := { c with ctr := { k with top := t', topPend := none, down := false } }
      if t' == 0 then c
      else c.loadShadow.hitUnits b (fun u => u.active.val == 0)
  else
    let cnt := if k.top < k.cnt then BitVec.ofNat 48 fv else if k.down then k.cnt - 1 else k.cnt + 1
    let turn := cnt == k.top || cnt == 0
    let c1 := { c with ctr := { k with
        cnt := cnt
        down := if cnt == 0 then false else if cnt == k.top then true else k.down
        top := if cnt == 0 then k.topPend.getD k.top else k.top
        topPend := if cnt == 0 then none else k.topPend } }
    let c2 := if turn then c1.loadShadow else c1
    c2.hitUnits b (fun u => u.active.val == cnt &&
      (turn || (if k.down then slopeDown u.active.act else slopeUp u.active.act)))

/-- One step of the counter at boundary b (R44). -/
def Channel.countStep (b fv : Nat) (c : Channel) : Channel :=
  let k := c.ctr
  if k.mode = 1 then
    ({ c with ctr := { k with cnt := k.cnt - 1, wrap := k.wrap.raiseIf (k.cnt == 0) b 8 } } : Channel).hitUnits b
      (fun u => u.active.val == k.cnt - 1)
  else if k.mode = 2 then c.stepUpDown b fv
  else
    ({ c with ctr := { k with cnt := k.cnt + 1, wrap := k.wrap.raiseIf (k.cnt + 1 == 0) b 8 } } : Channel).hitUnits b
      (fun u => u.active.val == k.cnt + 1)

/-- The steps of a tick mode that are due up to boundary lim, each DIV + 1 ticks after the last (R45). -/
def Channel.runTicks (lim fv : Nat) : Nat → Channel → Channel
  | 0, c => c
  | n + 1, c =>
    if c.ctr.next ≤ lim then
      let c1 := c.countStep c.ctr.next fv
      Channel.runTicks lim fv n { c1 with ctr := { c1.ctr with next := c.ctr.next + c.ctr.div1 } }
    else c

/-- All tick steps due up to lim. -/
def Channel.ticksTo (lim fv : Nat) (c : Channel) : Channel := c.runTicks lim fv (lim + 1 - c.ctr.next)

/-- The gate takes a level at boundary b; the prescaler phase holds while it is inactive (R44, R46). -/
def Channel.setGate (b : Nat) (on level : Bool) (c : Channel) : Channel :=
  let a := level == bit c.ctr.cfg 10
  { c with ctr := { c.ctr with
      gateAct := a
      phase := if on && c.ctr.gateAct && !a then c.ctr.next - b else c.ctr.phase
      next := if on && !c.ctr.gateAct && a then b + c.ctr.phase else c.ctr.next } }

/-- The gate levels of the queue up to lim, the counter running between them while the gate is active. -/
def Channel.runGate (lim fv : Nat) (on : Bool) : List (Nat × Bool) → Channel → Channel
  | [], c => if on && c.ctr.gateAct then c.ticksTo lim fv else c
  | (b, l) :: r, c =>
    if b ≤ lim then
      let c := if on && c.ctr.gateAct then c.ticksTo b fv else c
      let c := c.setGate b on l
      Channel.runGate lim fv on r { c with ctr := { c.ctr with srcQ := r } }
    else if on && c.ctr.gateAct then c.ticksTo lim fv else c

/-- EXT_EDGE selects an edge to the given level. -/
def extSelects (cfg : W) (level : Bool) : Bool := if level then bit cfg 11 else bit cfg 12

/-- The edges of the queue up to lim: every (DIV + 1)-th steps the counter; edges of one tick count as one (R46). -/
def Channel.runEdges (lim fv : Nat) (on : Bool) : Option Nat → List (Nat × Bool) → Channel → Channel
  | _, [], c => c
  | last, (b, l) :: r, c =>
    if b ≤ lim then
      let c := { c with ctr := { c.ctr with srcQ := r } }
      if on && extSelects c.ctr.cfg l && last != some b then
        let c := if c.ctr.phase ≤ 1 then
            let c1 := c.countStep b fv
            { c1 with ctr := { c1.ctr with phase := c1.ctr.div1 } }
          else { c with ctr := { c.ctr with phase := c.ctr.phase - 1 } }
        Channel.runEdges lim fv on (some b) r c
      else Channel.runEdges lim fv on last r c
    else c

/-- One move of the axis followed (R47, R53): a step matches every value it reaches or passes, a load matches none. -/
def Channel.axisMove (m : AxMove) (c : Channel) : Channel :=
  let old := c.ctr.cnt
  let new : C48 := if m.load then BitVec.ofNat 48 (old.toNat / 2 ^ 32 * 2 ^ 32 + m.pos.toNat)
    else
      let v := old + BitVec.ofInt 48 m.delta
      BitVec.ofNat 48 (v.toNat / 2 ^ 32 * 2 ^ 32 + m.pos.toNat)
  let wrapped := !m.load && ((decide (0 < m.delta) && new.ult old) || (decide (m.delta < 0) && old.ult new))
  let c1 := { c with ctr := { c.ctr with cnt := new, wrap := c.ctr.wrap.raiseIf wrapped m.at_ 8 } }
  if m.load then c1
  else c1.hitUnits m.at_ (fun u =>
    let d := if 0 < m.delta then (u.active.val - old).toNat else (old - u.active.val).toNat
    decide (1 ≤ d) && decide (d ≤ m.delta.natAbs))

/-- The moves of the queue up to lim; CNT follows while the counter runs. -/
def Channel.runAxis (lim : Nat) (on : Bool) : List AxMove → Channel → Channel
  | [], c => c
  | m :: r, c =>
    if m.at_ ≤ lim then
      let c := { c with ctr := { c.ctr with axQ := r } }
      Channel.runAxis lim on r (if on then c.axisMove m else c)
    else c

/-- Everything the counter of a channel does up to boundary lim (R45 to R48). [DESIGN CHOICE, log entry 34] -/
def Channel.count (lim fv : Nat) (c : Channel) : Channel :=
  let on := c.en && c.ctr.run
  if ctrReserved c.ctr.cfg then c
  else match c.ctr.mode with
    | 3 => c.runGate lim fv on c.ctr.srcQ
    | 4 => c.runEdges lim fv on none c.ctr.srcQ
    | 5 => c.runAxis lim on c.ctr.axQ
    | _ => if on then c.ticksTo lim fv else c

/-- The direction by which a commit is judged (R56): the axis's in AXIS mode, else the counter's. -/
def countsDown (s : State) (c : Channel) : Bool :=
  match c.ctr.mode with
  | 5 => s.axis[(⟨fld c.ctr.cfg 16 3 % 8, by omega⟩ : Ax)].rev
  | 1 => true
  | 2 => c.ctr.down
  | _ => false

/-! ### The calendar's hold on a channel -/

/-- The calendar holds pending, staged or armed events for channel n (CHn_STAT.SCHED). -/
def sched (n : Ch) (s : State) : Bool :=
  let on (l : List Ev) : Bool := l.any (fun e => e.rec_.ch == n)
  let p := s.pod[podOf n]
  on s.cal.wheel || on s.cal.ovfl || s.cal.pos.any (fun e => e.ev.rec_.ch == n)
    || on p.staging || on p.spill || on p.fast || on p.commits || s.ch[n].unit.any (fun u => u.owner)

/-- The pins of a running emulator: its channels A, B and Z (R142). -/
def emulChs (a : Axis) : List Ch :=
  let p : Pod := ⟨fld a.emul.cfg 14 3 % 8, by omega⟩
  [chOf p (fld a.emul.cfg 1 4), chOf p (fld a.emul.cfg 5 4)] ++
    (if bit a.emul.cfg 13 then [chOf p (fld a.emul.cfg 9 4)] else [])

/-- Channel n is one of the channels of an emulation that runs (R144). -/
def emulBusy (n : Ch) (s : State) : Bool :=
  allAxes.any (fun k => s.axis[k].emul.run && (emulChs s.axis[k]).contains n)

/-- A direct write reached a scheduled channel (R57). -/
def State.directIf (b : Bool) (s : State) : State := s.when b (State.breach brDirect)

end Sys2Proof.Machine
end

