-- ==== Sys2Proof/Machine/Counter.lean ====
section
/-!
DEFINITION. The counter's commands and its step (R44 to R50): CNT_START, CNT_STOP, CNT_CLEAR, CNT_LOAD, COUNTER_STEP, TOP_COMMIT,
and the writes of its configuration.
-/
namespace Sys2Proof.Machine

/-- The filtered level of the source a SRC_SEL names for a channel of bank p (R46, R384). -/
def srcLevel (p : Pod) (sel : Nat) (s : State) : Bool :=
  if sel < 16 then s.ch[chOf p sel].filt.acc
  else if sel = 16 then s.health.pod[p].spb.acc
  else
    let a := s.axis[(⟨(sel - 32) / 3 % 8, by omega⟩ : Ax)]
    a.pins.getLsbD ((sel - 32) % 3)

/-- The axis an AXIS-mode counter follows. -/
def axSel (cfg : W) : Ax := ⟨fld cfg 16 3 % 8, by omega⟩

/-- The channel's counter is brought up to the next boundary T_w, at which a command takes effect. -/
def State.countTo (n : Ch) (s : State) : State :=
  (s.modCh n (Channel.count s.tw (s.freeBelow (2 ^ 48)))).used

/-- The channel's counter is brought up to the present boundary. -/
def State.countNow (n : Ch) (s : State) : State :=
  (s.modCh n (Channel.count s.tick (s.freeBelow (2 ^ 48)))).used

/-- START: the counter runs from the next boundary, with a fresh prescaler phase; in AXIS mode CNT takes POS (R45, R47). A counter
that runs is left as it is. -/
def Channel.start (tw : Nat) (gate : Bool) (pos : W) (c : Channel) : Channel :=
  if c.ctr.run then c
  else { c with ctr := { c.ctr with
      run := true
      next := tw + c.ctr.div1
      phase := c.ctr.div1
      gateAct := c.ctr.mode == 3 && (gate == bit c.ctr.cfg 10)
      srcQ := []
      axQ := []
      cnt := if c.ctr.mode = 5 then BitVec.ofNat 48 pos.toNat else c.ctr.cnt } }

def State.cntStart (n : Ch) (s : State) : State :=
  let k := s.ch[n].ctr
  s.modCh n (Channel.start s.tw (srcLevel (podOf n) k.srcSel s) s.axis[axSel k.cfg].pos)

def execCntStart (n : Ch) (s : State) : Out := .next (s.cntStart n)

/-- STOP: the counter holds from the next boundary; a TOP that waits is taken while it is stopped (R45, R48). -/
def Channel.stop (c : Channel) : Channel :=
  { c with ctr := { c.ctr with run := false, top := c.ctr.topPend.getD c.ctr.top, topPend := none } }

def State.cntStop (n : Ch) (s : State) : State := (s.countTo n).modCh n Channel.stop

/-- [DEDUCED, log entry 9] -/
def execCntStop (n : Ch) (s : State) : Out := .next (s.cntStop n)

/-- Set CNT without counting: a step that falls on the same boundary is not made (R49). [DEDUCED, log entry 9] -/
def Channel.setCnt (tw : Nat) (v : C48) (down : Bool) (c : Channel) : Channel :=
  { c with ctr := { c.ctr with
      cnt := v, down := down
      next := if c.ctr.run && c.ctr.next ≤ tw then tw + c.ctr.div1 else c.ctr.next } }

/-- CLEAR: CNT is 0 from the next boundary, in UPDOWN mode with the direction up; refused in AXIS mode (R47, R48). -/
def State.cntClear (n : Ch) (s : State) : State :=
  if s.ch[n].ctr.mode = 5 then s.chCfgErr n
  else s.modCh n (Channel.setCnt s.tw 0 false)

def execCntClear (n : Ch) (s : State) : Out := .next ((s.countNow n).cntClear n)

/-- LOAD: CNT is CNT_LD from the next boundary; in UPDOWN mode a value above TOP loads TOP, and the direction follows (R48); refused
in AXIS mode (R47). -/
def State.cntLoad (n : Ch) (s : State) : State :=
  let k := s.ch[n].ctr
  if k.mode = 5 then s.chCfgErr n
  else if k.mode = 2 then
    if k.top < k.ld then (s.modCh n (Channel.setCnt s.tw k.top true)).chCfgErr n
    else s.modCh n (Channel.setCnt s.tw k.ld (if k.ld == 0 then false else if k.ld == k.top then true else k.down))
  else s.modCh n (Channel.setCnt s.tw k.ld k.down)

def execCntLoad (n : Ch) (s : State) : Out := .next ((s.countNow n).cntLoad n)

/-- The counter makes every step due by now (R45 to R48); matches wait in their units for CMP_MATCH. [DESIGN CHOICE, log entry 2] -/
def execCounterStep (n : Ch) (s : State) : Out := .next (s.countNow n)

/-- A commit of TOP: at once while the counter is stopped or not in UPDOWN mode, else when CNT next reaches 0 (R48). -/
def Channel.commitTop (v : C48) (c : Channel) : Channel :=
  if c.ctr.run && c.ctr.mode == 2 then { c with ctr := { c.ctr with topPend := some v } }
  else { c with ctr := { c.ctr with top := v, topPend := none } }

def State.commitTop (m : Master) (n : Ch) (w : W) (s : State) : State :=
  (s.countNow n).modCh n (Channel.commitTop (BitVec.ofNat 48 (fld w 0 16 * 2 ^ 32 + (s.holding m (chBase n + 0x10)).toNat)))

def execTopCommit (m : Master) (n : Ch) (w : W) (s : State) : Out := .next (s.access m (.topCommit m n w) (State.commitTop m n w))

/-- A write of CHn_CNT_CFG: only while the counter is stopped (R50); a reserved mode or source is stored and sets CFG_ERR (R44). -/
def State.writeCntCfg (n : Ch) (w : W) (s : State) : State :=
  let w := w &&& 0x71FF7
  if s.ch[n].ctr.run then s.chCfgErr n
  else
    let s := s.when (ctrReserved w) (State.chCfgErr n)
    let lvl := srcLevel (podOf n) (fld w 4 6) s
    s.modCh n (fun c => { c with ctr := { c.ctr with
      cfg := w, srcQ := [], axQ := [], gateAct := fld w 0 3 == 3 && (lvl == bit w 10) } })

/-- CHn_CTRL.EN goes from one value to another at boundary tw: a disabled counter holds with its prescaler phase (CHn_CTRL). [DEDUCED, log entry 9] -/
def Channel.setEn (tw : Nat) (on : Bool) (c : Channel) : Channel :=
  if c.en == on then c
  else
    let ticking := c.ctr.run && (decide (c.ctr.mode ≤ 2) || (c.ctr.mode == 3 && c.ctr.gateAct))
    { c with
      en := on
      ctr := { c.ctr with
        phase := if ticking && !on then c.ctr.next - tw else c.ctr.phase
        next := if ticking && on then tw + c.ctr.phase else c.ctr.next } }

end Sys2Proof.Machine
end

