-- ==== Sys2Proof/Machine/Compare.lean ====
section
/-!
DEFINITION. The compare units (R51 to R61): commit and judgement, re-arming and disarming, matches and the trains they start.
-/
namespace Sys2Proof.Machine

/-- The LT value a unit in LT base compares: 48 bits of the tick count (R9). -/
def lt48 (t : Nat) : C48 := BitVec.ofNat 48 t

/-- A unit in LT base whose value is the present tick has matched: its action is owed although a write of this tick replaces it
(R52: the write takes effect at the next boundary). -/
def CmpUnit.latch (t : Nat) (u : CmpUnit) : CmpUnit :=
  if u.live && actLt u.active.act && u.active.val == lt48 t && u.hit.isNone && !u.owner
  then { u with hit := some (t, u.active), live := false } else u

/-- The rule by which a committed value is judged at T_w against the count in force (R56). -/
inductive Judgement where
  | passed | ahead | shadow | shadowNow
  deriving DecidableEq, Repr

/-- The judgement of R56. `c` is the channel counted up to T_w, `stepped` says that its count stepped at T_w. [DEDUCED, log entry 7] -/
def judge (tw : Nat) (set : CmpSet) (c : Channel) (stepped down : Bool) : Judgement :=
  if actLt set.act then
    let d := (set.val - lt48 tw).toNat
    if 1 ≤ d ∧ d < 2 ^ 47 then .ahead else .passed
  else if c.ctr.mode = 2 then
    if !actImmediate set.act then
      if (c.ctr.cnt == 0 || c.ctr.cnt == c.ctr.top) && c.ctr.top != 0 && !stepped then .shadowNow else .shadow
    else if c.ctr.top < set.val then .ahead
    else if down then (if slopeDown set.act && c.ctr.cnt.ule set.val then .passed else .ahead)
    else (if slopeUp set.act && set.val.ule c.ctr.cnt then .passed else .ahead)
  else if down then (if c.ctr.cnt.ule set.val then .passed else .ahead)
  else (if set.val.ule c.ctr.cnt then .passed else .ahead)

/-- Put a committed set in force in a unit, to be compared from T_w on; `sh` sends it to the UPDOWN shadow (R52, R56). -/
def CmpUnit.arm (t : Nat) (set : CmpSet) (owner : Bool) (ev : Option Ev) (sh : Bool) (u : CmpUnit) : CmpUnit :=
  let u := u.latch t
  if sh then { u with cur := set, shadow := true, owner := owner, ev := ev }
  else { u with cur := set, active := set, live := true, shadow := false, owner := owner, ev := ev }

/-- Write one unit. -/
def Channel.modUnit (u : Unit4) (f : CmpUnit → CmpUnit) (c : Channel) : Channel :=
  { c with unit := c.unit.set u.val (f c.unit[u]) }

/-- Commit a set into unit u at T_w and judge it (R51, R56). A passed value is applied in tick T_w + 1 with LATE; what the unit held is compared up to
the present boundary. [DEDUCED, log entry 6] [DEDUCED, log entry 7] [DESIGN CHOICE, log entry 34] -/
def State.commitUnit (u : Unit4) (set : CmpSet) (owner : Bool) (ev : Option Ev) (n : Ch) (s : State) : State :=
  let s := s.countNow n
  let tw := s.tw
  let c := (s.ch[n].modUnit u (fun x => { x.latch s.tick with live := false, shadow := false })).count tw (s.freeBelow (2 ^ 48))
  let stepped := s.ch[n].ctr.run && s.ch[n].en && decide (s.ch[n].ctr.next ≤ tw)
  let j := judge tw set c stepped (countsDown s c)
  let s := s.used
  let s := s.when (c.ctr.mode == 2 && !actLt set.act && decide (c.ctr.top < set.val)) (State.chCfgErr n)
  match j with
  | .shadow => s.modCh n (Channel.modUnit u (CmpUnit.arm s.tick set owner ev true))
  | .shadowNow =>
    let s := s.modCh n (Channel.modUnit u (CmpUnit.arm s.tick set owner ev false))
    s.modCh n (Channel.modUnit u (fun x =>
      if set.val == c.ctr.cnt then { x with hit := some (tw, set), live := keepsArmed set c.ctr } else x))
  | .ahead => s.modCh n (Channel.modUnit u (CmpUnit.arm s.tick set owner ev false))
  | .passed =>
    let c' := c.modUnit u (fun x => { (x.arm s.tick set owner ev false) with live := keepsArmed set c.ctr || !c.en })
    (s.modCh n (fun x => { x with ctr := c'.ctr, unit := c'.unit })).fire (tw + 1) u set true n

/-- A host write aimed at a pod-owned unit, or at a channel of a running emulation, is discarded (R57, R144). -/
def State.collide (n : Ch) (owned : Bool) (s : State) : State :=
  (s.chStat n 2).directIf owned

/-- The host may write unit u of channel n. -/
def hostMay (u : Unit4) (n : Ch) (s : State) : Bool := !s.ch[n].unit[u].owner && !emulBusy n s

/-- The address of unit u's registers. -/
def unitBase (n : Ch) (u : Unit4) : Nat := chBase n + 0x40 + 0x20 * u.val

/-- What a write w of CMPx_VAL_HI commits: the value with the master's holding registers for VAL_LO, ACT and PARAM (R51). -/
def commitSet (m : Master) (n : Ch) (u : Unit4) (w : W) (s : State) : CmpSet :=
  { val := BitVec.ofNat 48 (fld w 0 16 * 2 ^ 32 + (s.holding m (unitBase n u)).toNat)
    act := s.holding m (unitBase n u + 8) &&& 0x7FFF
    param := s.holding m (unitBase n u + 0xC) }

/-- Disarm a unit at the next boundary; a match of this tick still counts. -/
def CmpUnit.disarm (t : Nat) (u : CmpUnit) : CmpUnit :=
  { u.latch t with live := false, shadow := false, owner := false, ev := none }

/-- DISARM of one unit by the host (R57). -/
def State.hostDisarm (u : Unit4) (n : Ch) (s : State) : State :=
  if s.ch[n].unit[u].owner then s.collide n true
  else s.modCh n (Channel.modUnit u (CmpUnit.disarm s.tick))

/-- DISARM of the units of a mask. -/
def State.hostDisarms (mask : BitVec 4) (n : Ch) (s : State) : State :=
  forAll ((List.finRange 4).filter (fun u => mask.getLsbD u.val)) (fun u => State.hostDisarm u n) (s.countNow n)

def execCmpDisarm (n : Ch) (mask : BitVec 4) (s : State) : Out := .next (s.hostDisarms mask n)

/-! ### CMP_MATCH -/

/-- A match to apply: its action tick, its unit, what matched, and whether the unit itself is still to be settled. -/
structure Match where
  t     : Nat
  u     : Unit4
  set   : CmpSet
  ev    : Option Ev
  own   : Bool
  deriving DecidableEq, Repr

/-- The ticks an LT value may lie behind the present one and still match in it: while LT steps by XIN cycles a step passes 16
tick values (R19). [DEDUCED, log entry 10] -/
def ltStep (s : State) : Nat := if s.time.res == 1 then 16 else 1

/-- The matches of channel n that are due: those latched, and units in LT base whose value is the present tick (R53). A channel not
enabled has none but the pod's events, which then go unfired (R36). [DEDUCED, log entry 10] -/
def dueMatches (n : Ch) (s : State) : List Match :=
  let c := s.ch[n]
  (List.finRange 4).flatMap (fun u =>
    let x := c.unit[u]
    (match x.hit with
      | some (t, set) => if t ≤ s.tick then [{ t := t, u := u, set := set, ev := none, own := false }] else []
      | none => []) ++
    (if x.live && actLt x.active.act && decide ((lt48 s.tick - x.active.val).toNat < ltStep s) && (c.en || x.owner)
      then [{ t := s.tick, u := u, set := x.active, ev := x.ev, own := true }] else []))

/-- The order in which matches are applied: placement, then calendar events in their order, then units A to D (R58). -/
def matchBefore (evs : List Ev) (a b : Match) : Bool :=
  if a.t != b.t then decide (a.t < b.t)
  else if actFrac a.set.act != actFrac b.set.act then decide (actFrac a.set.act < actFrac b.set.act)
  else match a.ev, b.ev with
    | some e, some f => evBefore evs e f
    | some _, none => true
    | none, some _ => false
    | none, none => decide (a.u < b.u)

/-- Apply one match. [DEDUCED, log entry 35] -/
def State.applyMatch (n : Ch) (x : Match) (s : State) : State :=
  (s.modCh n (Channel.modUnit x.u (fun u => { u with live := if x.own then !s.ch[n].en && !u.owner else u.live }))).fire
    x.t x.u x.set false n

/-- All matches due on a channel, its counter brought up to the present boundary, in the order of R58. -/
def State.applyMatches (n : Ch) (s : State) : State :=
  let s := s.countNow n
  let ms := dueMatches n s
  forAll (sortBy (matchBefore (ms.filterMap (fun x => x.ev))) ms) (State.applyMatch n) s

/-- A host commit or REARM of a unit (R57, R59). Matches of the present tick are applied first. -/
def State.hostCommit (u : Unit4) (set : CmpSet) (n : Ch) (s : State) : State :=
  if !hostMay u n s then s.collide n s.ch[n].unit[u].owner
  else if actReserved (actCode set.act) then s.chCfgErr n
  else ((s.directIf (sched n s)).applyMatches n).commitUnit u set false none n

def execCmpCommit (m : Master) (n : Ch) (u : Unit4) (w : W) (s : State) : Out :=
  .next (s.access m (.cmpCommit m n u w) (fun s => s.hostCommit u (commitSet m n u w s) n))

/-- REARM: the committed value, judged as a commit at the boundary after the command (R56). -/
def State.rearm (u : Unit4) (n : Ch) (s : State) : State := s.hostCommit u s.ch[n].unit[u].cur n

def execCmpRearm (n : Ch) (u : Unit4) (s : State) : Out := .next (s.rearm u n)

/-- Matches happen in the power mode RUN (R351). [DESIGN CHOICE, log entry 2] -/
def execCmpMatch (n : Ch) (s : State) : Out :=
  .next (if s.pwr.mode = 0 then s.applyMatches n else s)

/-! ### Trains (R59 to R61) -/

/-- The next edge of a train is due, 4 ticks before its ball time (R62). -/
def trainDue (n : Ch) (s : State) : Bool := s.ch[n].out.train.nextX.any (fun x => decide (x / 32 - 4 ≤ s.tick))

/-- A due edge of the train, after the matches placed before it (R58). [DESIGN CHOICE, log entry 34] -/
def State.trainEdge (n : Ch) (s : State) : State :=
  let s := s.when (s.pwr.mode == 0) (State.applyMatches n)
  s.when (trainDue n s) (State.modCh n Channel.trainEdge)

/-- PULSE_END: the end of a running pulse. [DESIGN CHOICE, log entry 2] -/
def execPulseEnd (n : Ch) (s : State) : Out :=
  match s.ch[n].out.train with
  | .pulse _ => .next (s.when (trainDue n s) (State.trainEdge n))
  | _ => .next s

/-- BURST_EDGE: the next edge of a running burst. -/
def execBurstEdge (n : Ch) (s : State) : Out :=
  match s.ch[n].out.train with
  | .burst .. => .next (s.when (trainDue n s) (State.trainEdge n))
  | _ => .next s

end Sys2Proof.Machine
end

