-- ==== Sys2Proof/Machine/Output.lean ====
section
/-!
DEFINITION. The output stage (R62 to R71): forced levels, the advance and its epoch, drive changes, and the level the ball is meant
to show (R68).
-/
namespace Sys2Proof.Machine

/-! ### OUT_FORCE (R71) -/

/-- A forced level acts in the tick after the write as an action with FRAC 0; a frozen channel takes none (R71, R86). [DEDUCED, log entry 13] -/
def State.force (f : Bool → Bool) (n : Ch) (s : State) : State :=
  let s := s.directIf (sched n s)
  let x := (s.tw + 4) * 32
  if s.ch[n].frz then s else s.modCh n (fun c => (c.trainBefore x).drive x f)

def execOutForceSet (n : Ch) (s : State) : Out := .next (s.force (fun _ => true) n)
def execOutForceClr (n : Ch) (s : State) : Out := .next (s.force (fun _ => false) n)
def execOutForceTog (n : Ch) (s : State) : Out := .next (s.force (fun l => !l) n)

/-! ### Advance (R65, R66, R334) -/

/-- The largest advance, in frac. -/
def advMax : Nat := 0xFFFFFF

/-- The advance in force, which CHn_ADV shows: the base and the compensation of policy 0, saturating (R334). [DEDUCED, log entry 32] -/
def Advance.value (a : Advance) : Nat := min advMax (a.base + a.comp)

/-- The advance a pending pair will put in force. [DEDUCED, log entry 32] -/
def Advance.pendValue (a : Advance) (p : AdvPair) : Nat :=
  match p.comp with
  | some c => min advMax (a.base + c)
  | none => if p.whole then p.adv else min advMax (p.adv + a.comp)

/-- The advance R66 assigns to a DUE. -/
def Advance.for_ (a : Advance) (due : Nat) : Nat :=
  match a.pend with
  | some p => if p.epoch ≤ due then a.pendValue p else if a.since ≤ due then a.value else a.prev
  | none => if a.since ≤ due then a.value else a.prev

/-- The pending pair comes into force. [DEDUCED, log entry 32] -/
def Advance.take (a : Advance) : Advance :=
  match a.pend with
  | none => a
  | some p =>
    { a with
      prev := a.value, since := p.epoch, pend := none
      base := if p.comp.isSome then a.base else p.adv
      comp := p.comp.getD (if p.whole then 0 else a.comp) }

/-- The pair comes into force at boundary b if LT has reached its epoch there, at the earliest at the boundary after its commit (R66). -/
def Advance.takeAt (b : Nat) (a : Advance) : Advance :=
  match a.pend with
  | some p => if p.epoch ≤ b * 32 ∧ p.start ≤ b then a.take else a
  | none => a

/-- The channel's advance as of the present tick. -/
def State.advNow (n : Ch) (s : State) : State := s.modCh n (fun c => { c with adv := c.adv.takeAt s.tick })

/-- A pair of policy 0 that another replaces: its declaration is cancelled and its reservation freed (R338). [DEDUCED, log entry 55] -/
def State.cancelComp (n : Ch) (s : State) : State :=
  match s.ch[n].adv.pend with
  | some { comp := some _, .. } =>
    let s := s.modPod (podOf n) (fun p => { p with res := { p.res with reserved := p.res.reserved - 1 } })
    { s with sur := { s.sur with
        cancelled := s.sur.cancelled.bump s.tick 1 255
        pol := s.sur.pol.set 0 { s.sur.pol[0] with decls := s.sur.pol[0].decls.filter (fun d => d.idx != n.val) } } }
  | _ => s

/-- Policy 0 is enabled for channel n, so that the host's advance is its base (R334). [DEDUCED, log entry 55] -/
def adapts (n : Ch) (s : State) : Bool :=
  s.sur.pol[0].enable && bit s.sur.pol[0].tgt[(⟨n.val / 32 % 4, by omega⟩ : Fin 4)] (n.val % 32)

/-- ADV_COMMIT: the host's pair of ADV_NEXT and the epoch replaces any that waits; one whose epoch is past comes into force at the
next boundary (R66). [DEDUCED, log entry 55] -/
def State.advCommit (n : Ch) (epoch : Nat) (s : State) : State :=
  let s := s.advNow n
  (s.cancelComp n).modCh n (fun c =>
    { c with adv := { c.adv with
      pend := some { adv := fld c.adv.next 0 24, comp := none, epoch := epoch, whole := !adapts n s, start := s.tw } } })

def execAdvCommit (m : Master) (n : Ch) (w : W) (s : State) : Out :=
  .next (s.access m (.advCommit m n w) (fun s => s.advCommit n (join w (s.holding m (chBase n + 0x190)))))

/-- ADV_EPOCH_REACHED: LT has reached the epoch of the pending pair (R66). -/
def execAdvEpochReached (n : Ch) (s : State) : Out :=
  .next (s.advNow n)

/-! ### What the ball is meant to show (R68) -/

/-- What the device does at a ball: releases it with a pull code, or drives a level. -/
inductive Ball where
  | z (pull : Nat)
  | drive (level : Bool)
  deriving DecidableEq, Repr

def Channel.pull (c : Channel) : Nat := fld c.inCfg 4 2
def Channel.od (c : Channel) : Bool := bit c.out.cfg 0
def Channel.inv (c : Channel) : Bool := bit c.out.cfg 6

/-- The state of the pin as the registers have it now. -/
def Channel.pinLive (c : Channel) : PinView :=
  { en := c.en, oe := c.oe, cfgd := c.out.configured, cfg := c.out.cfg &&& 0x70, pull := c.pull }

/-- The state of the pin as the ball follows it at tick t (R68). -/
def Channel.view (t : Nat) (c : Channel) : PinView :=
  match c.pinWas.find? (fun x => decide (t < x.1)) with
  | some x => x.2
  | none => c.pinLive

/-- A write whose effect is at boundary tw turns c into `new`: the ball follows from tw + 4 ticks (R68). [DEDUCED, log entry 15] [DEDUCED, log entry 30] -/
def Channel.pinChange (tw : Nat) (c : Channel) (new : Channel) : Channel :=
  if new.pinLive = c.pinLive then new
  else { new with pinWas := c.pinWas.filter (fun x => decide (tw ≤ x.1)) ++ [(tw + 4, c.pinLive)] }

/-- The SAFE level at the ball that a value of CHn_OUT_CFG gives, none where it is high-Z; SAFE high releases an open-drain pin (R68). -/
def safeLevel (od : Bool) (cfg : W) : Option Bool :=
  match fld cfg 4 2 with
  | 0 => some false
  | 1 => if od then none else some true
  | _ => none

/-- The SAFE level the ball follows at tick t. [DEDUCED, log entry 36] -/
def Channel.safe (t : Nat) (c : Channel) : Option Bool := safeLevel c.od (c.view t).cfg

/-- A level at the ball after INV; an open-drain high releases the pin. [DESIGN CHOICE, log entry 37] -/
def Channel.atBall (t : Nat) (c : Channel) (l : Bool) : Ball :=
  let b := l != bit (c.view t).cfg 6
  if c.od && b then .z (c.view t).pull else .drive b

/-- The intended level that gives the SAFE level at the ball; a released pin counts as 0 there (R69). -/
def Channel.safeIntended (c : Channel) : Bool :=
  (safeLevel c.od c.out.cfg).getD (fld c.out.cfg 4 2 == 1) != c.inv

/-- The channel shows its SAFE level at tick t: aborted, not enabled, or released and not yet driven by an action (R68, R69). -/
def Channel.showsSafe (t : Nat) (c : Channel) : Bool :=
  (c.aborted && decide (c.safeFrom ≤ t)) || !(c.view t).en || (c.safeHold && c.safeEnd.all (fun e => decide (t < e)))

/-- The level of the tiers of R31 at the ball, before INV. -/
def Channel.tierLevel (t : Nat) (c : Channel) : Bool :=
  if c.frz then c.hold else if c.rfx.armed then c.rfx.out else (c.out.drain t).base

/-- The ball of a channel by R68, at tick t, as far as the channel alone decides it. -/
def Channel.ball (t : Nat) (c : Channel) : Ball :=
  let v := c.view t
  if !v.cfgd || !v.oe then .z v.pull
  else if c.showsSafe t then
    match c.safe t with
    | none => .z v.pull
    | some l => .drive l
  else c.atBall t (c.tierLevel t)

/-! ### Drive changes (R70) -/

/-- Tick t lies in the readback mask of an edge: the 8 ticks from the tick of its ball time (R81). -/
def Channel.masked (t : Nat) (c : Channel) : Bool :=
  let o := c.out.drain t
  o.lastBall != 0 && decide (o.lastBall ≤ t) && decide (t < o.lastBall + 8)

/-- OD, DRIVE and SLEW. -/
def driveMask : W := 0xF

/-- A change of OD, DRIVE or SLEW takes effect at a boundary outside the readback mask of every edge (R70). [DEDUCED, log entry 30] -/
def execDriveChangeApply (n : Ch) (s : State) : Out :=
  .next (s.modCh n (fun c =>
    match c.out.drivePend with
    | none => c
    | some w =>
      if c.masked s.tick then c
      else { c with out := { c.out with cfg := (c.out.cfg &&& ~~~driveMask) ||| (w &&& driveMask), drivePend := none } }))

/-- A write of CHn_OUT_CFG: OD, DRIVE and SLEW wait for R70, the rest applies; the first write configures the pin. [DEDUCED, log entry 15] [DEDUCED, log entry 30] -/
def State.writeOutCfg (n : Ch) (w : W) (s : State) : State :=
  s.modCh n (fun c =>
    let out := { c.out with cfg := (c.out.cfg &&& driveMask) ||| (w &&& 0xF0), drivePend := some (w &&& driveMask), configured := true }
    c.pinChange s.tw { c with out := out })

end Sys2Proof.Machine
end

