-- ==== Sys2Proof/Machine/Capture.lean ====
section
/-!
DEFINITION. The input comparators with their filters, and the capture queue (R72 to R80).
-/
namespace Sys2Proof.Machine

/-! ### Entering the queue (R75 to R79) -/

/-- SPILL_EN. -/
def Capture.spillEn (k : Capture) : Bool := bit k.cfg 2

/-- A capture is dropped: OVF, DROP_CNT, and DROP_BEFORE for the next entry (R79). -/
def Capture.drop (t : Nat) (ring : Bool) (k : Capture) : Capture :=
  { k with
    flags := (k.flags.raise t (flag 4 true)).raiseIf ring t (flag 6 true)
    drops := k.drops.bump t 1 255
    dropBefore := true }

/-- Flag SPILL_AFTER on the newest entry of the queue. -/
def markLast : List CapE → List CapE
  | [] => []
  | [e] => [{ e with flags := e.flags ||| 0x40 }]
  | e :: r => e :: markLast r

/-- An entry with DROP_BEFORE where captures were dropped just before it. -/
def Capture.stamped (k : Capture) (e : CapE) : CapE := if k.dropBefore then { e with flags := e.flags ||| 8 } else e

/-- One entry enters at boundary b: the queue, the pod's ring, or nowhere (R78, R79). What goes to the ring is returned. While the pods do not run
nothing spills (R352). -/
def Capture.enter (b : Nat) (pods : Bool) (e : CapE) (k : Capture) : Capture × Option CapE :=
  if k.spilling then ({ k with spillOut := k.spillOut + 1, dropBefore := false }, some (k.stamped e))
  else if k.queue.length < 8 then ({ k with queue := k.queue ++ [k.stamped e], dropBefore := false }, none)
  else if k.spillEn && pods then
    ({ k with spilling := true, queue := markLast k.queue, spillOut := k.spillOut + 1, dropBefore := false }, some (k.stamped e))
  else (k.drop b false, none)

/-- Entries whose boundary is at most lim enter, in order; each that is kept sets the Pip's capture latch (R106). -/
def enterAll (n : Ch) (lim : Nat) : List (Nat × CapE) → State → State
  | [], s => s
  | (b, e) :: r, s =>
    if b ≤ lim then
      let k := s.ch[n].cap
      let (k', out) := k.enter b (s.pwr.mode == 0) e
      let kept := out.isSome || decide (k.queue.length < k'.queue.length)
      let s := s.modCh n (fun c => { c with
        cap := { k' with waiting := r }
        pip := if kept then c.pip.latch (b + 1) (flag 12 true) else c.pip })
      let s := match out with
        | none => s
        | some e' => s.modPod (podOf n) (fun p => { p with capQ := p.capQ ++ [(n, e')] })
      enterAll n lim r s
    else s

/-- The channel's captures as of boundary lim. -/
def State.settleCaps (lim : Nat) (n : Ch) (s : State) : State := enterAll n lim s.ch[n].cap.waiting s

/-- The read count rd has passed, or reached, the count v (R78). -/
def passed (rd v : W) : Bool := decide ((rd - v).toNat < 2 ^ 31)

/-- SPILLING clears when the queue is empty and the ring read pointer has passed the last spilled entry (R78). -/
def State.settleSpill (n : Ch) (s : State) : State :=
  let k := s.ch[n].cap
  let rd := s.store.ring[podOf n].rd
  let past := match k.lastSpill with
    | none => true
    | some v => passed rd v
  if k.spilling && k.queue.isEmpty && k.spillOut == 0 && past then
    s.modCh n (fun c => { c with cap := { k with spilling := false, lastSpill := none } })
  else s

/-- CAP_POP: the head entry leaves the queue, its LT[31:0] is returned and the rest latched for the master; an empty queue returns
0 and latches VALID 0. The pop comes before an entry of its tick (R76, R77). -/
def State.capPop (m : Master) (n : Ch) (s : State) : State :=
  let s := (s.settleCaps (s.tick - 1) n).settleSpill n
  let a := chBase n + 0x108
  let s := match s.ch[n].cap.queue with
    | [] => (s.modCh n (fun c => { c with cap := { c.cap with latch := c.cap.latch.set m.idx.val {} } })).lowRead m a 0
    | e :: r =>
      (s.modCh n (fun c => { c with cap := { c.cap with
        queue := r
        latch := c.cap.latch.set m.idx.val { ts := e.lt, cnt := e.cnt, flags := e.flags ||| 0x80 } } })).lowRead m a e.lt
  (s.settleCaps s.tick n).settleSpill n

def execCapPop (m : Master) (n : Ch) (s : State) : Out := .next (s.access m (.capPop m n) (State.capPop m n))

/-! ### The comparator and its filter (R73, R74) -/

/-- An edge of the raw level at LT x, with the count in force then. A level that comes back before it is accepted is no edge. -/
def InFilt.cross (x : Nat) (cnt : W) (level : Bool) (f : InFilt) : InFilt :=
  if f.raw == level then f
  else { f with raw := level, cand := if level == f.acc then none else some (x, cnt) }

/-- A level taken without an edge: during the core reset, at whose end the level is taken as accepted (R384), and in HIBERNATE (R356). -/
def InFilt.take (t : Nat) (level : Bool) (f : InFilt) : InFilt :=
  { raw := level, acc := level, cand := none, hist := (t, level) :: f.hist }

/-- No edge is accepted: the core reset is held, or the device is in HIBERNATE. -/
def blind (s : State) : Bool := s.boot.held || s.pwr.mode == 2

/-- The filter accepts the level waiting since its first crossing, in tick ta. -/
def InFilt.accept (ta : Nat) (f : InFilt) : InFilt :=
  { f with acc := f.raw, cand := none, hist := (ta, f.raw) :: f.hist }

/-- The level the engine blocks see at boundary b: what the filter accepted by b − 3 (R46, R99). -/
def seenAt (b : Nat) : List (Nat × Bool) → Bool
  | [] => false
  | (t, l) :: r => if t + 3 ≤ b then l else seenAt b r

/-- The counters of bank p that count from source sel take the level (R46). -/
def feedSource (p : Pod) (sel ta : Nat) (level : Bool) (s : State) : State :=
  forAll ((bankChs p).filter (fun n =>
      let k := s.ch[n].ctr
      (k.mode == 3 || k.mode == 4) && k.srcSel == sel))
    (fun n => State.modCh n (fun c => { c with ctr := { c.ctr with srcQ := c.ctr.srcQ ++ [(ta + 3, level)] } })) s

/-- EDGE selects an edge to the given level (CHn_CAP_CFG). -/
def capSelects (cfg : W) (level : Bool) : Bool := if level then bit cfg 0 else bit cfg 1

/-- The newest waiting entry carries GLITCH (R74). -/
def markGlitch (l : List (Nat × CapE)) : List (Nat × CapE) :=
  match l.reverse with
  | [] => []
  | (b, e) :: r => ((b, { e with flags := e.flags ||| 0x10 }) :: r).reverse

/-- The capture of an edge accepted in tick ta: at most one entry in a tick, the first of a selected polarity; any other crossing
accepted in that tick marks it (R74, R75). -/
def Channel.capture (ta : Nat) (x : Nat) (cnt : W) (level coarse : Bool) (lt : Nat) (c : Channel) : Channel :=
  let k := c.cap
  let same := k.accTick == some ta
  let sel := c.en && capSelects k.cfg level
  if same && k.accMade then { c with cap := { k with waiting := markGlitch k.waiting } }
  else if sel then
    let fl : Byte := (if level then 1 else 0) ||| (if coarse then 2 else 0) ||| (if c.frz then 4 else 0) ||| (if same then 0x10 else 0)
    { c with cap := { (k.wait (x / 32 + c.filter + 3) { lt := lt, cnt := cnt, flags := fl }) with accTick := some ta, accMade := true } }
  else { c with cap := { k with accTick := some ta, accMade := false } }

/-- A channel's own pin: the filter accepts, the captures, the counters and the Pips of the bank see it (R73). A pin taken while
LT is coarse or the channel frozen has the LT of its XIN cycle and no frac (R80). [DESIGN CHOICE, log entry 4] -/
def State.acceptPin (n : Ch) (s : State) : State :=
  let c := s.ch[n]
  match c.filt.cand with
  | none => s
  | some (x, cnt) =>
    let ta := x / 32 + c.filter
    let coarse := s.time.res != 0
    let lt := if coarse then x / 32 * 32 else if c.frz then (x / 32 - s.freeBelow 16) * 32 else x
    let s := (s.settleCaps (s.tick - 1) n).used
    let s := s.modCh n (fun c => { (c.capture ta x cnt c.filt.raw coarse lt) with filt := c.filt.accept ta })
    feedSource (podOf n) (n.val % 16) ta c.filt.raw s

/-- The spare pin of a bank (R385). -/
def State.acceptSpb (p : Pod) (s : State) : State :=
  let h := s.health.pod[p]
  match h.spb.cand with
  | none => s
  | some (x, _) =>
    let s := s.modHealth p (fun h => { h with spb := h.spb.accept (x / 32) })
    feedSource p 16 (x / 32) h.spb.raw s

/-- The channel moved to the spare pin of a bank, if one is (R299). -/
def movedCh (p : Pod) (s : State) : Option Ch :=
  s.health.pod[p].spareOn.map (chOf p)

/-- The comparator of a channel sees a crossing. One that returns a level a filter of 0 ticks has already passed is accepted first. -/
def State.crossPin (x : Nat) (level : Bool) (n : Ch) (s : State) : State :=
  if blind s then s.modCh n (fun c => { c with filt := c.filt.take s.tick level }) else
  let s := (s.when (s.ch[n].filter == 0 && s.ch[n].filt.cand.isSome && s.ch[n].filt.raw != level) (State.acceptPin n)).countNow n
  s.modCh n (fun c =>
    let c := c.takeFilter s.tick
    { c with filt := c.filt.cross x (lo32 c.ctr.cnt.toNat) level })

/-- INPUT_CROSSING: an input comparator changes in the present tick at a frac (R72, R73). A channel on the spare pin senses SPBp
and not its own ball (R299). -/
def execInputCrossing (p : InPin) (level : Bool) (frac : Fin 32) (s : State) : Out :=
  let x := s.tick * 32 + s.placed frac.val
  match p with
  | .ch n =>
    let s := s.modCh n (fun c => { c with ownPin := level })
    .next (if s.ch[n].spare then s else s.crossPin x level n)
  | .spb p =>
    let s1 := s.when (s.health.pod[p].spb.cand.isSome && s.health.pod[p].spb.raw != level) (State.acceptSpb p)
    let s2 := s1.modHealth p (fun h => { h with spb := if blind s then h.spb.take s.tick level else h.spb.cross x 0 level })
    match movedCh p s2 with
    | none => .next s2
    | some n => .next (s2.crossPin x level n)

/-- FILTER_ACCEPT: a level held for FILTER ticks is accepted with the time of its first crossing (R73). -/
def execFilterAccept (p : InPin) (s : State) : Out :=
  match p with
  | .ch n =>
    match s.ch[n].filt.cand with
    | some (x, _) => .next (if x / 32 + s.ch[n].filter ≤ s.tick then s.acceptPin n else s)
    | none => .next s
  | .spb p => .next (s.acceptSpb p)

end Sys2Proof.Machine
end

