-- ==== Sys2Proof/Machine/Reflex.lean ====
section
/-!
DEFINITION. The reflex term (R83 to R85) and readback checking (R81, R82).
-/
namespace Sys2Proof.Machine

/-- The level of a reflex input: a pin of the bank, SPBp, or an unused input, which reads 1 for AND and 0 otherwise (R83, R84). [DEDUCED, log entry 12] -/
def rfxInput (p : Pod) (func sel : Nat) (s : State) : Bool :=
  if sel < 16 then s.ch[chOf p sel].filt.raw
  else if sel = 16 then s.health.pod[p].spb.raw
  else func == 0

/-- Inputs A and B with their inversions. [DEDUCED, log entry 11] -/
def rfxA (n : Ch) (s : State) : Bool :=
  let w := s.ch[n].rfx.cfg
  rfxInput (podOf n) (fld w 0 2) (fld w 2 5) s != bit w 12
/-- [DEDUCED, log entry 11] -/
def rfxB (n : Ch) (s : State) : Bool :=
  let w := s.ch[n].rfx.cfg
  rfxInput (podOf n) (fld w 0 2) (fld w 7 5) s != bit w 13

/-- The function of R83 on its inputs; for the latch, its next value. -/
def rfxFunc (func : Nat) (a b latch : Bool) : Bool :=
  match func with
  | 0 => a && b
  | 1 => a || b
  | 2 => a != b
  | _ => if b then false else a || latch

/-- The term takes its inputs: latch and output. -/
def Reflex.eval (a b : Bool) (r : Reflex) : Reflex :=
  let v := rfxFunc (fld r.cfg 0 2) a b r.latch
  { r with latch := if fld r.cfg 0 2 == 3 then v else r.latch, out := v != bit r.cfg 14 }

/-- The term is armed in tick t: its latch takes the level of the compare-and-calendar tier (R83). [DEDUCED, log entry 11] [DEDUCED, log entry 29] -/
def State.rfxArm (t : Nat) (n : Ch) (s : State) : State :=
  let a := rfxA n s
  let b := rfxB n s
  s.modCh n (fun c =>
    let r := { c.rfx with armed := true, latch := c.out.level, flags := c.rfx.flags.raise t 4 }
    { c with rfx := r.eval a b })

/-- The term is disarmed; the ball goes to the tier below at once (R85). -/
def State.rfxDisarm (t : Nat) (n : Ch) (s : State) : State :=
  s.modCh n (fun c => { c with
    rfx := { c.rfx with armed := false }
    out := if c.rfx.armed then { (c.out.drain t) with lastBall := t } else c.out })

/-- Armings and disarmings by action that have come into effect by tick t (R85). -/
def settleRfxList (n : Ch) (t : Nat) : List (Nat × Bool) → State → State
  | [], s => s
  | (b, on) :: r, s =>
    if b ≤ t then
      let s := s.modCh n (fun c => { c with rfx := { c.rfx with pend := r } })
      settleRfxList n t r (if on then s.rfxArm b n else s.rfxDisarm b n)
    else s

def State.settleRfx (t : Nat) (n : Ch) (s : State) : State := settleRfxList n t s.ch[n].rfx.pend s

/-- RFX_ARM takes effect at the boundary after the write (R85). -/
def execRfxArm (n : Ch) (s : State) : Out := .next ((s.settleRfx s.tw n).rfxArm s.tw n)
def execRfxDisarm (n : Ch) (s : State) : Out := .next ((s.settleRfx s.tw n).rfxDisarm s.tw n)

/-- REFLEX_INPUT_CHANGE: an armed term follows its inputs; a change of the ball sets FIRED and opens a readback mask; a frozen ball
holds and sets nothing (R85). [DEDUCED, log entry 11] [DEDUCED, log entry 29] -/
def State.reflexInput (n : Ch) (s : State) : State :=
  let s := s.settleRfx s.tick n
  let a := rfxA n s
  let b := rfxB n s
  s.modCh n (fun c =>
    let r := c.rfx.eval a b
    if !c.rfx.armed then { c with rfx := { c.rfx with out := r.out } }
    else
      let moved := r.out != c.rfx.out && !c.frz
      { c with
        rfx := { r with flags := r.flags.raiseIf moved s.tick 8 }
        out := if moved then { (c.out.drain s.tick) with lastBall := s.tick } else c.out })

def execReflexInputChange (n : Ch) (s : State) : Out := .next (s.reflexInput n)

/-- A write of CHn_RFX_CFG: only while disarmed, and with no selector that is reserved or names the channel's own pin while OE = 1;
otherwise it is ignored and sets CFG_ERR (R84). OUT takes the value of the term as now configured. [DEDUCED, log entry 29] -/
def State.writeRfxCfg (n : Ch) (w : W) (s : State) : State :=
  let bad (v : Nat) : Bool := (v == n.val % 16 && s.ch[n].oe) || (decide (17 ≤ v) && decide (v ≤ 30))
  if s.ch[n].rfx.armed || bad (fld w 2 5) || bad (fld w 7 5) then s.chCfgErr n
  else
    let s := s.modCh n (fun c => { c with rfx := { c.rfx with cfg := w &&& 0x7FFF } })
    let a := rfxA n s
    let b := rfxB n s
    s.modCh n (fun c => { c with rfx := c.rfx.eval a b })

/-! ### Readback (R81, R82) -/

/-- The ball level the readback check expects at tick t, none where it does not check (R81). [DESIGN CHOICE, log entry 37] -/
def Channel.expected (t : Nat) (c : Channel) : Option Bool :=
  let high (l : Bool) : Option Bool := if c.od && l && !bit c.out.cfg 7 then none else some l
  if !(c.rbEn && c.en && c.oe) || c.frz || c.masked t then none
  else if c.showsSafe t then ((c.safe t).bind high)
  else high (c.tierLevel t != bit (c.view t).cfg 6)

/-- A measurement drives the ball of channel n (R327). -/
def measuring (n : Ch) (s : State) : Bool := s.sur.running && s.sur.ch == n.val

/-- READBACK_MISMATCH_TICK: a boundary at which the sampled ball is not the intended level (R81); suspended under boundary scan (R367). -/
def execReadbackMismatchTick (n : Ch) (s : State) : Out :=
  let c := s.ch[n]
  match c.expected s.tick with
  | none => .next s
  | some l =>
    .next (if c.filt.raw == l || measuring n s || scanning s then s
      else s.modCh n (fun c => { c with
        rb := { c.rb with ticks := c.rb.ticks.bump s.tick 1 65535, bad := true }
        fault := c.fault.raise s.tick 1 }))

/-- READBACK_INTERVAL: an intended change, or 4096 ticks without one, closes an interval; the third in a row with a mismatch sets
PIN_FAULT (R82). -/
def execReadbackInterval (n : Ch) (s : State) : Out :=
  .next (s.modCh n (fun c =>
    let o := c.out.drain s.tick
    let changed := decide (c.rb.since < o.lastBall)
    if changed || decide (c.rb.since + 4096 ≤ s.tick) then
      let k := if c.rb.bad then min 3 (c.rb.consec + 1) else 0
      { c with
        out := o
        rb := { c.rb with consec := k, bad := false, since := if changed then o.lastBall else s.tick }
        fault := c.fault.raiseIf (k == 3) s.tick 2 }
    else c))

end Sys2Proof.Machine
end

