-- ==== Sys2Proof/Machine/Pip.lean ====
section
/-!
DEFINITION. The Pip engine (R91 to R118): its cycles, one effect per operation, waits and timeouts, and the host's commands.
-/
namespace Sys2Proof.Machine

/-! ### Registers a program works on -/

def Pip.word (p : Pip) : BitVec 16 := if p.bank then p.prg1[p.r.pc] else p.prg0[p.r.pc]
def Pip.instr (p : Pip) : PipInstr := pipDecode p.word
def Pip.chainTx (p : Pip) : Bool := bit p.ctrl 2
def Pip.chainRx (p : Pip) : Bool := bit p.ctrl 3
def Pip.txMsb (p : Pip) : Bool := bit p.ctrl 4
def Pip.rxMsb (p : Pip) : Bool := bit p.ctrl 5
/-- The word length in bits (R103). -/
def Pip.wlen (p : Pip) : Nat := fld p.ctrl 6 5 + 1
def Pip.txPod (p : Pip) : Bool := bit p.ctrl 17
def Pip.rxPod (p : Pip) : Bool := bit p.ctrl 18
/-- E of R97: the starting action's FRAC with EFRAC_START, else EFRAC. -/
def Pip.edgeFrac (p : Pip) : Nat := if bit p.ctrl 16 then p.efrac.getD (fld p.ctrl 11 5) else fld p.ctrl 11 5

/-- The cycle an instruction works in: its channel, the cycle, the cycle it was issued in, the tick of the cycle, and the tick of
the cycle before it. -/
structure PipCx where
  n  : Ch
  k  : Nat
  k0 : Nat
  tk : Nat
  tp : Option Nat
  deriving DecidableEq, Repr

/-- What an instruction that completes does: the engine, the pins it writes in order, a branch, and a forced swap. -/
structure PipRes where
  p      : Pip
  pins   : List (Nat × Bool) := []
  branch : Option (Fin 32) := none
  forced : Bool := false
  plines : Option Nat := none
  deriving DecidableEq, Repr

/-- Change the program's registers. -/
def Pip.modR (p : Pip) (f : PipRegs → PipRegs) : Pip := { p with r := f p.r }

/-- A Pip write of a flag; a host write that sets it in this cycle wins over a clear (R107). -/
def Pip.setFlag (cx : PipCx) (i : Nat) (v : Bool) (p : Pip) : Pip :=
  let f := p.r.flags
  let held := f.fresh.getLsbD i && decide (f.stamp ≤ cx.tk) && decide (cx.tp.getD 0 < f.stamp)
  p.modR (fun r => { r with flags := { f with bits := if v then f.bits ||| flag i true else if held then f.bits else setBit f.bits i false } })

/-! ### Samples and latches -/

/-- The level of a bank pin as the Pip sees it at boundary b: 0 to 15 a channel, 16 SPBp, above 16 nothing (R95, R99). -/
def pipSample (p : Pod) (i b : Nat) (s : State) : Bool :=
  if i < 16 then seenAt b s.ch[chOf p i].filt.hist
  else if i = 16 then
    match movedCh p s with
    | some m => seenAt b s.ch[m].filt.hist
    | none => seenAt b s.health.pod[p].spb.hist
  else false

/-- The latches seen from boundaries up to b, of those queued. -/
def latchedBy (b : Nat) (l : List (Nat × W)) : W := l.foldl (fun m x => if x.1 ≤ b then m ||| x.2 else m) 0

/-- Latches seen by boundary b move into PEND (R106). -/
def Pip.settlePend (b : Nat) (p : Pip) : Pip :=
  p.modR (fun r => { r with pend := r.pend ||| latchedBy b r.pendQ, pendQ := r.pendQ.filter (fun x => decide (b < x.1)) })

/-- Latches already there before this cycle. -/
def Pip.oldPend (cx : PipCx) (p : Pip) : W :=
  match cx.tp with
  | none => p.r.pend
  | some t => p.r.pend ||| latchedBy t p.r.pendQ

/-- Latches first seen in this cycle. -/
def Pip.newPend (cx : PipCx) (p : Pip) : W :=
  let l := match cx.tp with
    | none => p.r.pendQ
    | some t => p.r.pendQ.filter (fun x => decide (t < x.1))
  latchedBy cx.tk l

/-! ### Waits and timeouts (R105) -/

inductive WaitRes where
  | arrival | expired | stall
  deriving DecidableEq, Repr

/-- The timeout in cycles; 0 where the instruction has none. -/
def Pip.timeout (p : Pip) (to_ : Bool) : Nat := if to_ then fld p.tmo 0 16 else 0

/-- The wait's outcome in this cycle: the arrival wins in the cycle the wait expires. -/
def Pip.wait (cx : PipCx) (hold to_ : Bool) (p : Pip) : WaitRes :=
  if hold then .arrival
  else if 0 < p.timeout to_ ∧ cx.k0 + p.timeout to_ ≤ cx.k then .expired else .stall

/-- F3 after an arrival. -/
def Pip.arrive (cx : PipCx) (to_ : Bool) (p : Pip) : Pip := if 0 < p.timeout to_ then p.setFlag cx 3 false else p
/-- F3 and ERR.TMO after an expiry. -/
def Pip.expire (cx : PipCx) (p : Pip) : Pip := (p.setFlag cx 3 true).error cx.tk (flag 9 true)

/-- A wait with what it does on arrival. -/
def waiting (cx : PipCx) (p : Pip) (hold to_ : Bool) (onArrival : Pip → Pip) : Option PipRes :=
  match p.wait cx hold to_ with
  | .stall => none
  | .expired => some { p := p.expire cx }
  | .arrival => some { p := onArrival (p.arrive cx to_) }

/-! ### The operations (R100) -/

/-- WAITCYC: N, or LC at issue, further cycles. -/
def opWaitcyc (lc : Bool) (n : Fin 512) (p : Pip) : Option PipRes :=
  some { p := { p with waitLeft := if lc then p.r.lc.toNat else n.val } }

/-- WAITPIN: a level, or an edge between this cycle's sample and the last one's. -/
def opWaitpin (cx : PipCx) (cond : Fin 4) (pin : Fin 32) (to_ : Bool) (s : State) (p : Pip) : Option PipRes :=
  let now := pipSample (podOf cx.n) pin.val cx.tk s
  let was := pipSample (podOf cx.n) pin.val (p.cycleTick (cx.k - 1)) s
  let hold :=
    if cond = 0 then !now
    else if cond = 1 then now
    else if cond = 2 then decide (cx.k0 < cx.k) && now && !was
    else decide (cx.k0 < cx.k) && !now && was
  waiting cx p hold to_ id

/-- WAITFLAG, with its acknowledgement on arrival, which F3 does not get when the wait has a timeout (R107). -/
def opWaitflag (cx : PipCx) (f : Fin 4) (val ack to_ : Bool) (p : Pip) : Option PipRes :=
  waiting cx p (bit p.r.flags.bits f.val == val) to_
    (fun q => if ack && !(f == 3 && decide (0 < p.timeout to_)) then q.setFlag cx f.val (!val) else q)

/-- The latch a WAITIRQ names (R106). -/
def pendBit (cls : Fin 4) (idx : Fin 8) : Nat :=
  if cls = 0 then idx.val else if cls = 1 then 8 + idx.val else if cls = 2 then 12 else 13

/-- WAITIRQ clears its latch in the completing cycle, but not an occurrence of that cycle beside an older one (R107). -/
def opWaitirq (cx : PipCx) (cls : Fin 4) (idx : Fin 8) (to_ : Bool) (p : Pip) : Option PipRes :=
  let b := pendBit cls idx
  let old := bit (p.oldPend cx) b
  let new := bit (p.newPend cx) b
  waiting cx p (old || new) to_ (fun q =>
    let q := q.settlePend cx.tk
    if old && new then q else q.modR (fun r => { r with pend := setBit r.pend b false }))

/-- The output group: bit i of a value to pin OUT_BASE + i, for the bits a mask names, up to OUT_CNT (R95). -/
def Pip.group (p : Pip) (v n msk : Nat) : List (Nat × Bool) :=
  ((List.range (min n (fld p.pins 4 2 + 1))).filter (fun i => bitAt msk i)).map (fun i => (fld p.pins 0 4 + i, bitAt v i))

/-- The low 32 bits of a number, in reverse order. -/
def rev32 (v : Nat) : Nat := (List.range 32).foldl (fun a i => 2 * a + v / 2 ^ i % 2) 0

/-- A word boundary by OUT or IN: BC reaches WLEN + 1 (R103). -/
def Pip.bound (p : Pip) (n : Nat) : Bool := decide (p.wlen ≤ p.r.bc + n)

/-- OUT: N bits out of SR to DEST, a chained load first where SR is not loaded (R103, R104). -/
def opOut (dest : Fin 4) (n : Nat) (p : Pip) : Option PipRes :=
  let load := p.chainTx && !p.r.loaded
  match load, p.r.txf with
  | true, [] => none
  | _, _ =>
    let p := if load then p.modR (fun r => { r with sr := r.txf.headD 0, txf := r.txf.tail, loaded := true }) else p
    let v := p.r.sr.toNat
    let bits := (if p.txMsb then rev32 v else v) % 2 ^ n
    let sr := if p.txMsb then v * 2 ^ n else v / 2 ^ n
    let e := p.bound n
    let q := p.modR (fun r => { r with
      sr := BitVec.ofNat 32 sr
      bc := if e then 0 else r.bc + n
      loaded := r.loaded && !e
      cv := if dest = 2 then BitVec.ofNat 32 bits else r.cv
      lc := if dest = 3 then BitVec.ofNat 16 bits else r.lc })
    some { p := q, pins := if dest = 0 then p.group bits n (2 ^ 32 - 1) else [] }

/-- IN: N bits into SR, a chained delivery where a word completes (R103, R104). -/
def opIn (cx : PipCx) (src : Fin 4) (n : Nat) (s : State) (p : Pip) : Option PipRes :=
  let e := p.bound n
  if p.chainRx && e && decide (4 ≤ p.r.rxf.length) then none
  else
    let v :=
      if src = 0 then
        (List.range n).foldl (fun a i =>
          a + (if pipSample (podOf cx.n) (fld p.pins 12 5 + i) cx.tk s then 2 ^ i else 0)) 0
      else if src = 2 then p.r.cv.toNat % 2 ^ n
      else if src = 3 then p.r.lc.toNat % 2 ^ n
      else 0
    let sr := if p.rxMsb then p.r.sr.toNat * 2 ^ n + rev32 v / 2 ^ (32 - n) else p.r.sr.toNat / 2 ^ n + v * 2 ^ (32 - n)
    let w := BitVec.ofNat 32 sr
    let deliver := p.chainRx && e
    some { p := p.modR (fun r => { r with
      sr := if deliver then 0 else w
      rxf := if deliver then r.rxf ++ [w] else r.rxf
      bc := if e then 0 else r.bc + n }) }

/-- SET of pins or flags under a mask. -/
def opSetMask (cx : PipCx) (flags : Bool) (msk val : Fin 16) (p : Pip) : Option PipRes :=
  if flags then
    some { p := (List.range 4).foldl (fun q i => if bitAt msk.val i then q.setFlag cx i (bitAt val.val i) else q) p }
  else some { p := p, pins := p.group val.val 4 msk.val }

/-- SET of LC or CV. -/
def opSetVal (cv : Bool) (val : Fin 256) (p : Pip) : Option PipRes :=
  some { p := p.modR (fun r => if cv then { r with cv := BitVec.ofNat 32 val.val } else { r with lc := BitVec.ofNat 16 val.val }) }

/-- JMP. -/
def opJmp (cx : PipCx) (cond : Fin 8) (x : Fin 4) (addr : Fin 32) (s : State) (p : Pip) : Option PipRes :=
  let take :=
    match cond.val with
    | 0 => true
    | 1 => bit p.r.flags.bits x.val
    | 2 => !bit p.r.flags.bits x.val
    | 3 => p.r.lc != 0
    | 4 => pipSample (podOf cx.n) (fld p.pins 12 5) cx.tk s
    | 5 => !p.r.txf.isEmpty
    | 6 => decide (p.r.rxf.length < 4)
    | _ => p.r.bc == 0
  some { p := p, branch := if take then some addr else none }

/-- LOOP. -/
def opLoop (reload : Bool) (addr : Fin 32) (p : Pip) : Option PipRes :=
  if p.r.lc != 0 then some { p := p.modR (fun r => { r with lc := r.lc - 1 }), branch := some addr }
  else some { p := if reload then p.modR (fun r => { r with lc := r.lcInit }) else p }

/-- CMP. -/
def opCmp (cx : PipCx) (oper f : Fin 4) (inv : Bool) (p : Pip) : Option PipRes :=
  let r :=
    match oper.val with
    | 0 => p.r.sr == p.r.cv
    | 1 => p.r.sr.ult p.r.cv
    | 2 => p.r.sr &&& p.r.cv != 0
    | _ => p.r.lc == BitVec.ofNat 16 p.r.cv.toNat
  some { p := p.setFlag cx f.val (r != inv) }

/-- PUSH: SR into RXF; an expiry changes nothing (R105). -/
def opPush (cx : PipCx) (clr to_ : Bool) (p : Pip) : Option PipRes :=
  waiting cx p (decide (p.r.rxf.length < 4)) to_
    (fun q => q.modR (fun r => { r with rxf := r.rxf ++ [r.sr], bc := 0, sr := if clr then 0 else r.sr }))

/-- PULL: the head of TXF into SR. -/
def opPull (cx : PipCx) (to_ : Bool) (p : Pip) : Option PipRes :=
  waiting cx p (!p.r.txf.isEmpty) to_
    (fun q => q.modR (fun r => { r with sr := r.txf.headD 0, txf := r.txf.tail, bc := 0, loaded := true }))

/-- IRQ: a pod line, or the host interrupt with its code, which waits while one is pending (R115). -/
def opIrq (cx : PipCx) (cls : Fin 4) (code : Fin 256) (p : Pip) : Option PipRes :=
  if cls = 0 then some { p := p, plines := some (code.val % 8) }
  else if p.irq.get 0 then none
  else some { p := { p with irq := p.irq.raise cx.tk 1, code := BitVec.ofNat 8 code.val } }

/-- OP of a MOV on the 32-bit source. -/
def movOp (op : Fin 4) (v : W) : W :=
  match op.val with
  | 0 => v
  | 1 => ~~~v
  | 2 => BitVec.ofNat 32 (rev32 v.toNat)
  | _ => put 24 (fld v 0 8) ||| put 16 (fld v 8 8) ||| put 8 (fld v 16 8) ||| put 0 (fld v 24 8)

/-- The source of a MOV. -/
def movSrc (cx : PipCx) (src : Fin 8) (s : State) (p : Pip) : W :=
  match src.val with
  | 0 => p.r.sr
  | 1 => p.r.cv
  | 2 => BitVec.ofNat 32 p.r.lc.toNat
  | 3 => BitVec.ofNat 32 ((List.range 17).foldl (fun a i => a + (if pipSample (podOf cx.n) i cx.tk s then 2 ^ i else 0)) 0)
  | 4 => lo32 (s.ch[cx.n].count cx.tk (s.freeBelow (2 ^ 48))).ctr.cnt.toNat
  | 5 => lo32 cx.tk
  | _ => 0

/-- MOV. -/
def opMov (cx : PipCx) (dest src : Fin 8) (op : Fin 4) (s : State) (p : Pip) : Option PipRes :=
  let v := movOp op (movSrc cx src s p)
  match dest.val with
  | 0 => some { p := p.modR (fun r => { r with sr := v, loaded := true }) }
  | 1 => some { p := p.modR (fun r => { r with cv := v }) }
  | 2 => some { p := p.modR (fun r => { r with lc := BitVec.ofNat 16 v.toNat }) }
  | 3 => some { p := p, pins := p.group v.toNat 4 15 }
  | 4 => some { p := (List.range 4).foldl (fun q i => q.setFlag cx i (bit v i)) p }
  | _ => some { p := p, branch := some ⟨v.toNat % 32, by omega⟩ }

/-- SWAP: refused with the other bank not valid; forced at once; else pending (R113, R114). -/
def opSwap (cx : PipCx) (force : Bool) (p : Pip) : Option PipRes :=
  if !p.otherValid then some { p := p.error cx.tk 4 }
  else if force then some { p := p, forced := true }
  else some { p := { p with swap := some (min cx.tk (p.swap.getD cx.tk)) } }

/-- What an operation does in a cycle; none where it stalls. -/
def pipEffect (cx : PipCx) (op : PipOp) (s : State) (p : Pip) : Option PipRes :=
  match op with
  | .waitcyc lc n => opWaitcyc lc n p
  | .waitpin c i t => opWaitpin cx c i t s p
  | .waitflag f v a t => opWaitflag cx f v a t p
  | .waitirq c i t => opWaitirq cx c i t p
  | .out d n => opOut d (n.val + 1) p
  | .inp r n => opIn cx r (n.val + 1) s p
  | .setMask f m v => opSetMask cx f m v p
  | .setVal c v => opSetVal c v p
  | .jmp c x a => opJmp cx c x a s p
  | .loop r a => opLoop r a p
  | .cmp o f i => opCmp cx o f i p
  | .push c t => opPush cx c t p
  | .pull t => opPull cx t p
  | .irq c v => opIrq cx c v p
  | .mov d r o => opMov cx d r o s p
  | .swap f => opSwap cx f p
  | .stop _ _ => some { p := p }

/-! ### Cycles -/

/-- Pip n writes pins of its bank in the cycle at tick tk: a pin of another Pip's tier is denied (R96, R97). Of several writes of
one pin the last decides (R98). [DEDUCED, log entry 18] -/
def State.pipPins (n : Ch) (tk : Nat) (ws : List (Nat × Bool)) (s : State) : State :=
  let frac := s.placed s.ch[n].pip.edgeFrac
  let last := ws.foldl (fun acc w => (acc.filter (fun v => v.1 != w.1)) ++ [w]) []
  forAll last (fun w s =>
    let m := chOf (podOf n) w.1
    if fld s.ch[m].pip.pins 20 4 == n.val % 16 then
      s.modCh m (Channel.change ((tk + 4) * 32 + frac) (fun o => { o with pip := some w.2 }))
    else s.modPip n (Pip.error tk 0x40)) s

/-- A pod line raised by a Pip of pod p in the cycle at tick tk (R106, R205). -/
def State.raisePline (p : Pod) (tk i : Nat) (s : State) : State :=
  let s := s.modPod p (fun q => { q with plines := q.plines ++ [i] })
  forAll (bankChs p) (fun m => State.modPip m (Pip.latch (tk + 2) (flag i true))) s

/-- The side-set pin write of an issue cycle (R98, R102). -/
def sideWrite (p : Pip) (i : PipInstr) : List (Nat × Bool) :=
  match i.side with
  | none => []
  | some v => [(fld p.pins 8 4, v)]

/-- The end of the cycle in which an instruction completed: latches, a swap, a stop (R91, R113). -/
def Pip.endCycle (cx : PipCx) (forced : Bool) (p : Pip) : Pip :=
  let p := { (p.settlePend cx.tk) with prevCyc := some cx.tk, cyc := cx.k + 1, stalled := none }
  let p := if forced then p.takeSwap cx.tk true
    else match p.swap with
      | some b => if b ≤ cx.tk && p.r.bc == 0 then p.takeSwap cx.tk false else p
      | none => p
  match p.stopAt with
  | some b => if b ≤ cx.tk && p.waitLeft == 0 then p.halted cx.tk 2 true else p
  | none => p

/-- An instruction completes in a cycle with a result: pins, PC, pod lines, and the end of the cycle; STOP stops the engine (R94). -/
def State.pipComplete (cx : PipCx) (i : PipInstr) (issue : Bool) (r : PipRes) (s : State) : State :=
  let stalls := cx.k - cx.k0 - r.p.waited
  let next : Fin 32 := r.branch.getD (r.p.r.pc + 1)
  let p := { r.p with r := { r.p.r with pc := next }, waits := r.p.waits.bump cx.tk stalls 0xFFFFFFFF, waited := 0 }
  let s := s.modPip cx.n (fun _ => p)
  let s := s.pipPins cx.n cx.tk (r.pins ++ (if issue then sideWrite p i else []))
  let s := match r.plines with
    | some l => s.raisePline (podOf cx.n) cx.tk l
    | none => s
  match i.op with
  | .stop rel irq =>
    let s := s.modPip cx.n (fun p => { p with irq := p.irq.raiseIf irq cx.tk 2, prevCyc := some cx.tk, cyc := cx.k + 1 })
    s.pipHalt cx.tk 1 false rel cx.n
  | _ => s.modPip cx.n (Pip.endCycle cx r.forced)

/-- The captures and the Pip of channel n as of now: a capture's latch is set as its entry is made (R75, R106). -/
def State.pipNow (n : Ch) (s : State) : State := (s.settleCaps s.tick n).modPip n (Pip.settle s.tick)

/-- The engine of channel n executes the instruction at its PC, if it is one that `want` names and its cycle has begun (R93, R94).
One that cannot complete stalls from this cycle on. [DEDUCED, log entry 17] -/
def State.pipRun (want : PipOp → Bool) (n : Ch) (s : State) : State :=
  let s := s.pipNow n
  let p := s.ch[n].pip
  let i := p.instr
  if !p.run || p.stalled.isSome || p.waitLeft != 0 || !want i.op || i.op.reserved || decide (s.tick < p.cycleTick p.cyc) then s
  else
    let cx : PipCx := { n := n, k := p.cyc, k0 := p.cyc, tk := p.cycleTick p.cyc, tp := p.prevCyc }
    match pipEffect cx i.op s p with
    | some r => s.pipComplete cx i true r
    | none =>
      let s := s.pipPins n cx.tk (sideWrite p i)
      s.modPip n (fun p => { (p.settlePend cx.tk) with stalled := some p.cyc, waited := 0, cyc := p.cyc + 1, prevCyc := some cx.tk })

def execPipWaitcyc (n : Ch) (s : State) : Out := .next (s.pipRun (fun | .waitcyc .. => true | _ => false) n)
def execPipWaitpin (n : Ch) (s : State) : Out := .next (s.pipRun (fun | .waitpin .. => true | _ => false) n)
def execPipWaitflag (n : Ch) (s : State) : Out := .next (s.pipRun (fun | .waitflag .. => true | _ => false) n)
def execPipWaitirq (n : Ch) (s : State) : Out := .next (s.pipRun (fun | .waitirq .. => true | _ => false) n)
/-- [DESIGN CHOICE, log entry 2] -/
def execPipOut (n : Ch) (s : State) : Out := .next (s.pipRun (fun | .out .. => true | _ => false) n)
def execPipIn (n : Ch) (s : State) : Out := .next (s.pipRun (fun | .inp .. => true | _ => false) n)
def execPipSet (n : Ch) (s : State) : Out := .next (s.pipRun (fun | .setMask .. => true | .setVal .. => true | _ => false) n)
def execPipJmp (n : Ch) (s : State) : Out := .next (s.pipRun (fun | .jmp .. => true | _ => false) n)
def execPipLoop (n : Ch) (s : State) : Out := .next (s.pipRun (fun | .loop .. => true | _ => false) n)
def execPipCmp (n : Ch) (s : State) : Out := .next (s.pipRun (fun | .cmp .. => true | _ => false) n)
def execPipPush (n : Ch) (s : State) : Out := .next (s.pipRun (fun | .push .. => true | _ => false) n)
def execPipPull (n : Ch) (s : State) : Out := .next (s.pipRun (fun | .pull .. => true | _ => false) n)
def execPipIrq (n : Ch) (s : State) : Out := .next (s.pipRun (fun | .irq .. => true | _ => false) n)
def execPipMov (n : Ch) (s : State) : Out := .next (s.pipRun (fun | .mov .. => true | _ => false) n)
def execPipSwapInstr (n : Ch) (s : State) : Out := .next (s.pipRun (fun | .swap .. => true | _ => false) n)
def execPipStopInstr (n : Ch) (s : State) : Out := .next (s.pipRun (fun | .stop .. => true | _ => false) n)

/-- A reserved encoding stops the engine in its cycle and sets BAD_OP, without any other effect (R101). -/
def execPipReservedOp (n : Ch) (s : State) : Out :=
  let s := s.pipNow n
  let p := s.ch[n].pip
  .next (if !p.run || p.stalled.isSome || p.waitLeft != 0 || !p.instr.op.reserved || decide (s.tick < p.cycleTick p.cyc) then s
    else s.modPip n (fun p => (p.error (p.cycleTick p.cyc) 0x100).halted (p.cycleTick p.cyc) 6 false))

/-- The timeout an instruction waits with. -/
def PipOp.hasTimeout : PipOp → Bool
  | .waitpin _ _ t => t
  | .waitflag _ _ _ t => t
  | .waitirq _ _ t => t
  | .push _ t => t
  | .pull t => t
  | _ => false

/-- A stalled instruction is tried in cycle k. -/
def State.pipRetry (k : Nat) (n : Ch) (s : State) : Option State :=
  let p := s.ch[n].pip
  match p.stalled with
  | none => none
  | some k0 =>
    let cx : PipCx := { n := n, k := k, k0 := k0, tk := p.cycleTick k, tp := some (p.cycleTick (k - 1)) }
    (pipEffect cx p.instr.op s p).map (fun r => s.pipComplete cx p.instr false r)

/-- The last cycle begun by tick t. -/
def Pip.lastCycle (t : Nat) (p : Pip) : Nat := p.firstCycle (t + 1) - 1

/-- PIP_WAIT_COMPLETE: a stalled instruction completes in the present cycle, its condition holding there (R105); not after the cycle
in which its timeout expires. [DEDUCED, log entry 17] -/
def State.pipWaitComplete (n : Ch) (s : State) : State :=
  let s := s.pipNow n
  let p := s.ch[n].pip
  match p.stalled with
  | none => s
  | some k0 =>
    let k := p.lastCycle s.tick
    let m := p.timeout p.instr.op.hasTimeout
    if k ≤ k0 || (0 < m && decide (k0 + m < k)) then s
    else
      let expires := 0 < m && k == k0 + m
      match s.pipRetry k n with
      | some s' => if expires && s'.ch[n].pip.err.get 9 && !p.err.get 9 then s else s'
      | none => s

def execPipWaitComplete (n : Ch) (s : State) : Out := .next (s.pipWaitComplete n)

/-- PIP_WAIT_TIMEOUT: the wait expires in cycle c + m, where its condition does not hold; where it holds the arrival wins (R30,
R105). [DEDUCED, log entry 17] -/
def State.pipWaitTimeout (n : Ch) (s : State) : State :=
  let s := s.pipNow n
  let p := s.ch[n].pip
  match p.stalled with
  | none => s
  | some k0 =>
    let m := p.timeout p.instr.op.hasTimeout
    if m == 0 || decide (s.tick < p.cycleTick (k0 + m)) then s
    else (s.pipRetry (k0 + m) n).getD s

def execPipWaitTimeout (n : Ch) (s : State) : Out := .next (s.pipWaitTimeout n)

/-! ### The host's commands -/


/-- CMD.START at the boundary after the write (R110). -/
def execPipStart (n : Ch) (entry : Fin 32) (s : State) : Out := .next ((s.pipNow n).pipStartAt s.tw entry none n)

/-- CMD.STOP: at the end of the first cycle that begins at or after the boundary following the write (R91). -/
def Pip.reqStop (tw : Nat) (p : Pip) : Pip := if p.run && p.stopAt.isNone then { p with stopAt := some tw } else p
def execPipStop (n : Ch) (s : State) : Out := .next ((s.pipNow n).modPip n (Pip.reqStop s.tw))

/-- CMD.RESUME: accepted while RESUMABLE; a new T_0 at the boundary after the write (R92, R93). [DEDUCED, log entry 16] -/
def State.pipResume (n : Ch) (s : State) : State :=
  let c := s.ch[n]
  if c.pip.resum && !c.pip.run && c.en && bit c.pip.ctrl 0 && !c.frz then
    s.modPip n (fun p => { p with run := true, resum := false, t0 := s.tw, cyc := 0, stalled := none, stopAt := none, prevCyc := none })
  else s.modPip n (Pip.error s.tick 8)
def execPipResume (n : Ch) (s : State) : Out := .next ((s.pipNow n).pipResume n)

/-- A swap request by the host (R113, R114). -/
def Pip.reqSwap (t : Nat) (force : Bool) (p : Pip) : Pip :=
  if !p.otherValid then p.error t 4
  else if !p.run then { p.takeSwap t force with resum := false }
  else if force then
    let held := p.stalled.isSome || p.waitLeft != 0
    { (p.noteStalls t).takeSwap t true with cyc := if held then max p.cyc (p.firstCycle (t + 1)) else p.cyc }
  else { p with swap := some (p.swap.getD (t + 1)) }
def execPipCmdSwap (n : Ch) (s : State) : Out := .next ((s.pipNow n).modPip n (Pip.reqSwap s.tick false))
def execPipCmdForce (n : Ch) (s : State) : Out := .next ((s.pipNow n).modPip n (Pip.reqSwap s.tick true))

/-- CMD.RELEASE (R97). -/
def execPipRelease (n : Ch) (s : State) : Out := .next ((s.pipNow n).releaseTier s.tw n)

/-- CMD.KICK (R106). -/
def execPipKick (n : Ch) (s : State) : Out := .next (s.modPip n (Pip.latch s.tw (flag 13 true)))

/-- CMD.RESET: only while the engine is not running (CHn_PIP_CMD). -/
def Pip.reset (t : Nat) (p : Pip) : Pip :=
  if p.run then p.error t 0x80
  else p.modR (fun r => { r with sr := 0, bc := 0, lc := 0, flags := {}, pend := 0, pendQ := [], pc := 0, loaded := false })
def execPipReset (n : Ch) (s : State) : Out := .next ((s.pipNow n).modPip n (Pip.reset s.tick))

/-- CMD.VALIDATE, ignored for the active bank while CTRL.EN = 1 (R112). -/
def Pip.validate (b0 b1 : Bool) (p : Pip) : Pip :=
  { p with
    valid0 := p.valid0 || (b0 && !(bit p.ctrl 0 && !p.bank))
    valid1 := p.valid1 || (b1 && !(bit p.ctrl 0 && p.bank)) }
def execPipValidate (n : Ch) (mask : BitVec 2) (s : State) : Out :=
  .next (s.modPip n (Pip.validate (mask.getLsbD 0) (mask.getLsbD 1)))

/-- FIFO flushes, accepted only while the engine is not running (R109). -/
def Pip.flushTx (t : Nat) (p : Pip) : Pip := if p.run then p.error t 0x80 else p.modR (fun r => { r with txf := [] })
def Pip.flushRx (t : Nat) (p : Pip) : Pip := if p.run then p.error t 0x80 else p.modR (fun r => { r with rxf := [] })
def execTxfFlush (n : Ch) (s : State) : Out := .next ((s.pipNow n).modPip n (Pip.flushTx s.tick))
def execRxfFlush (n : Ch) (s : State) : Out := .next ((s.pipNow n).modPip n (Pip.flushRx s.tick))

/-- A write of an instruction: refused in the active bank while CTRL.EN = 1; it clears the bank's VALID, and cancels a pending swap
to that bank (R112, R114). -/
def Pip.writePrg (t : Nat) (b : Bool) (i : Fin 32) (w : W) (p : Pip) : Pip :=
  if bit p.ctrl 0 && b == p.bank then p.error t 2
  else
    let v : BitVec 16 := BitVec.ofNat 16 w.toNat
    let q := if b then { p with prg1 := p.prg1.set i.val v, valid1 := false } else { p with prg0 := p.prg0.set i.val v, valid0 := false }
    if b != p.bank && p.swap.isSome then { q with swap := none, err := q.err.raise t 4 } else q
def execPipPrgWrite (n : Ch) (bank : Bool) (i : Fin 32) (w : W) (s : State) : Out :=
  .next ((s.pipNow n).modPip n (Pip.writePrg s.tick bank i w))

/-- A write of CHn_PIP_CTRL: while the engine runs only EN changes, and a difference in bits [18:1] sets CFG_ERR (R117); EN written 0
stops the engine at the next boundary and gives up its pins (R91, R97). -/
def State.writePipCtrl (n : Ch) (w : W) (s : State) : State :=
  let s := s.pipNow n
  let p := s.ch[n].pip
  let w := w &&& 0x7FFFF
  let differ := p.run && decide ((w ^^^ p.ctrl) &&& 0x7FFFE ≠ 0)
  let s := s.modPip n (fun p => { p with
    ctrl := if p.run then setBit p.ctrl 0 (bit w 0) else w
    err := p.err.raiseIf differ s.tick 0x80 })
  if bit p.ctrl 0 && !bit w 0 then s.pipHalt s.tw 5 false true n else s
def execPipCtrlWrite (n : Ch) (w : W) (s : State) : Out := .next (s.writePipCtrl n w)

/-- A write of CHn_PIP_PINS, judged field by field (R95, R96, R388). -/
def writePins (t : Nat) (held : Bool) (w : W) (p : Pip) : Pip :=
  let w := w &&& 0xF1FF3F
  let bad1 := p.run && decide ((w ^^^ p.pins) &&& 0x1FFFF ≠ 0)
  let bad2 := !p.run && decide (15 < fld w 0 4 + fld w 4 2)
  let bad3 := held && decide (fld w 20 4 ≠ fld p.pins 20 4)
  let v := if p.run then p.pins
    else
      let a := ins (ins p.pins 8 4 w) 12 5 w
      if bad2 then a else ins a 0 6 w
  let v := if held then v else ins v 20 4 w
  { p with pins := v, err := p.err.raiseIf (bad1 || bad2 || bad3) t 0x80 }
def State.writePipPins (n : Ch) (w : W) (s : State) : State :=
  let s := s.pipNow n
  s.modPip n (writePins s.tick s.ch[n].out.pip.isSome w)
def execPipPinsWrite (n : Ch) (w : W) (s : State) : Out := .next (s.writePipPins n w)

/-- A write of SR: only while not running; it loads SR (R104, R118). -/
def Pip.writeSr (t : Nat) (w : W) (p : Pip) : Pip :=
  if p.run then p.error t 0x80 else p.modR (fun r => { r with sr := w, loaded := true })
def execPipSrWrite (n : Ch) (w : W) (s : State) : Out := .next ((s.pipNow n).modPip n (Pip.writeSr s.tick w))

/-- A write of LC: LC_INIT always, LC only while not running (R118). -/
def Pip.writeLc (w : W) (p : Pip) : Pip :=
  p.modR (fun r => { r with
    lcInit := BitVec.ofNat 16 (fld w 16 16), lc := if p.run then r.lc else BitVec.ofNat 16 (fld w 0 16) })
def execPipLcWrite (n : Ch) (w : W) (s : State) : Out := .next ((s.pipNow n).modPip n (Pip.writeLc w))

/-- A host word for TXF (R109). -/
def Pip.txfIn (t : Nat) (w : W) (p : Pip) : Pip :=
  if p.txPod then p.error t 0x400
  else if 4 ≤ p.r.txf.length then p.error t 0x10
  else p.modR (fun r => { r with txf := r.txf ++ [w] })
def execTxfWrite (n : Ch) (w : W) (s : State) : Out := .next ((s.pipNow n).modPip n (Pip.txfIn s.tick w))

/-- A host pop of RXF (R109). -/
def State.rxfPop (m : Master) (n : Ch) (s : State) : State :=
  let s := s.pipNow n
  let p := s.ch[n].pip
  if p.rxPod then (s.modPip n (Pip.error s.tick 0x400)).ret m 0
  else match p.r.rxf with
    | [] => (s.modPip n (Pip.error s.tick 0x20)).ret m 0
    | w :: r => (s.modPip n (fun p => p.modR (fun x => { x with rxf := r }))).ret m w
def execRxfRead (m : Master) (n : Ch) (s : State) : Out := .next (s.access m (.rxfRead m n) (State.rxfPop m n))

end Sys2Proof.Machine
end

