-- ==== Sys2Proof/Machine/Results.lean ====
section
/-!
DEFINITION. Result records, their rings and backlogs (R179 to R185), notices (R266), the answers of commands (R263) and the end of a
measurement (R327 to R329).
-/
namespace Sys2Proof.Machine

/-! ### Result rings (R179 to R183) -/

/-- BASE bit 63 places a ring in host memory (R182). -/
def Results.inHost (r : Results) : Bool := r.base.getLsbD 63

/-- The ring takes records now: it is set, and one in host memory can be written (R185, R250). -/
def resOpen (r : Results) (s : State) : Bool := r.log2 != 0 && !(r.inHost && (!s.pcie.bme || s.pcie.d3hot || !s.pcie.up))

/-- WR − RD equals the ring's size (R182). -/
def Results.full (r : Results) : Bool := decide (2 ^ r.log2 ≤ (r.wr - r.rd).toNat)

/-- Bytes written where a ring lies: host memory, or the store. [DESIGN CHOICE, log entry 84] -/
def State.ringWrite (base : BitVec 64) (off : Nat) (bs : List Byte) (s : State) : State :=
  if base.getLsbD 63 then
    { s with pcie := { s.pcie with out := outWrite (base.toNat % 2 ^ 63 + off) bs s.pcie.out } }
  else { s with store := s.store.putWord (base.toNat + off) bs }

/-- One record into the ring, which has room: its bytes, then WR and RSEQ (R182). -/
def State.resPut (p : Pod) (r : ResRec) (s : State) : State :=
  let q := s.pod[p].res
  let s := s.ringWrite q.base (16 * (q.wr.toNat % 2 ^ q.log2)) (r.bytes q.rseq)
  s.modPod p (fun x => { x with res := { x.res with wr := x.res.wr + 1, rseq := x.res.rseq + 1 } })

/-- The backlog entries free for a record that has no reservation. -/
def Results.roomFor (r : Results) (reserved : Bool) : Bool :=
  decide (r.backlog.length + (if reserved then 0 else r.reserved) < 4096)

/-- A record for a pod's ring: into the ring, or behind a backlog or a full ring into the backlog, or, the backlog full as well, only
counted (R183). -/
def State.resWrite (p : Pod) (reserved : Bool) (r : ResRec) (s : State) : State :=
  let q := s.pod[p].res
  let s := s.modPod p (fun x => { x with res := { x.res with reserved := x.res.reserved - (if reserved then 1 else 0) } })
  if q.backlog.isEmpty && resOpen q s && !q.full then s.resPut p r
  else if q.roomFor reserved then s.modPod p (fun x => { x with res := { x.res with backlog := x.res.backlog ++ [r] } })
  else s.modPod p (fun x => { x with res := { x.res with
      gap := x.res.gap.bump s.tick 1 0xFFFFFFFF, gapNow := min 0xFFFFFFFF (x.res.gapNow + 1)
      flags := x.res.flags.raise s.tick (flag 17 true) } })

/-- The backlog drains into the ring in order, as far as the ring has room (R183). -/
def drainBacklog (p : Pod) : Nat → State → State
  | 0, s => s
  | k + 1, s =>
    let q := s.pod[p].res
    match q.backlog with
    | [] => s
    | r :: rest =>
      if resOpen q s && !q.full then
        drainBacklog p k ((s.modPod p (fun x => { x with res := { x.res with backlog := rest } })).resPut p r)
      else s

/-- Records not written are told by a gap record as soon as there is space (R183): TYPE 2 with their number. -/
def State.gapRecord (p : Pod) (s : State) : State :=
  let q := s.pod[p].res
  if q.gapNow != 0 && q.roomFor false then
    s.modPod p (fun x => { x with res := { x.res with
      gapNow := 0
      backlog := x.res.backlog ++ [{ actLt := s.time.lt, word := lo32 x.res.gapNow, half := 2 }] } })
  else s

/-- BACKLOG_DRAIN: the backlog, a gap record where records were lost, and what then still fits (R183). -/
def State.backlogDrain (p : Pod) (s : State) : State :=
  let s := drainBacklog p s.pod[p].res.backlog.length s
  let s := s.gapRecord p
  drainBacklog p s.pod[p].res.backlog.length s

def execBacklogDrain (p : Pod) (s : State) : Out := .next (s.backlogDrain p)

/-- The actual LT of an outcome (R179, R180). -/
def Outcome.actLt (o : Outcome) : Nat := if o.missed.isSome then o.x else o.x + o.ev.adv

/-- The outcome carries LATE: fired after its ball time, written late, short of lead, reached, moved or armed late (R179). -/
def Outcome.late (o : Outcome) : Bool := o.missed.isNone && (o.ev.late || o.ev.reason != 0 || decide (o.ev.ball < o.x))

/-- The reason reported; an event that fired after its ball time without another was armed late (R169, R180). -/
def Outcome.reason (o : Outcome) : Nat :=
  match o.missed with
  | some r => r
  | none => if o.ev.reason = 0 && !o.ev.advHeld && decide (o.ev.ball < o.x) then rsArmLate else o.ev.reason

/-- The result record of an outcome (R179). -/
def Outcome.rec_ (o : Outcome) : ResRec :=
  { actLt := o.actLt, word := o.ev.rec_.resWord
    half := resHalf o.late o.missed.isSome o.ev.ambig o.ev.advHeld o.reason }

/-- A record is written when wanted, or when the outcome carries a flag (R179). -/
def Outcome.wanted (o : Outcome) : Bool := o.ev.rec_.res || o.late || o.missed.isSome || o.ev.ambig || o.ev.advHeld

/-- Result records of equal ACT_LT enter in ascending channel, then SEQ order (R181). -/
def outcomeBefore (evs : List Ev) (a b : Outcome) : Bool :=
  if a.actLt != b.actLt then decide (a.actLt < b.actLt)
  else if a.ev.rec_.ch != b.ev.rec_.ch then decide (a.ev.rec_.ch < b.ev.rec_.ch)
  else evBefore evs a.ev b.ev

/-- The record of one outcome, where it has one. -/
def State.report (p : Pod) (o : Outcome) (s : State) : State := if o.wanted then s.resWrite p false o.rec_ else s

/-- RETIRE: the outcomes whose ACT_LT has come leave their result records, in order (R181, R194). -/
def State.retire (p : Pod) (s : State) : State :=
  let l := s.pod[p].matched
  let due := l.filter (fun o => decide (o.actLt / 32 ≤ s.tick))
  let s := s.modPod p (fun x => { x with matched := l.filter (fun o => decide (s.tick < o.actLt / 32)) })
  forAll (sortBy (outcomeBefore (due.map (fun o => o.ev))) due) (State.report p) s

/-- A write of PODp_RES_RD moves RD forward by no more than the records held; any other is ignored and sets RD_ERR (R182). -/
def State.writeResRd (p : Pod) (w : W) (s : State) : State :=
  s.modPod p (fun x =>
    if (w - x.res.rd).toNat ≤ (x.res.wr - x.res.rd).toNat then { x with res := { x.res with rd := w } }
    else { x with res := { x.res with flags := x.res.flags.raise s.tick (flag 18 true) } })

def execResRdWrite (p : Pod) (w : W) (s : State) : Out := .next (s.writeResRd p w)

/-! ### Notices (R266) -/

/-- A notice of a code arises for mailbox 24 + i: one that finds all 31 queue slots in use is only counted. [DESIGN CHOICE, log entry 49] -/
def State.noticeCode (i : Fin 8) (code : Nat) (data : List Byte) (s : State) : State :=
  let b : Mbx := ⟨24 + i.val, by omega⟩
  s.modMbx b (fun m =>
    if m.queue.length < 31 then { m with queue := m.queue ++ [{ code := code, lt := s.time.lt, data := data }] }
    else { m with lost := m.lost + 1 })

/-- A notice whose CODE the spec does not give: it is a free value. [DESIGN CHOICE, log entry 49] -/
def State.notice (i : Fin 8) (data : List Byte) (s : State) : State := (s.noticeCode i (s.freeBelow 65536) data).used

/-! ### Answers (R263, R269) -/

def stOk : Nat := 0
def stBadHdr : Nat := 1
def stBadOpcode : Nat := 2
def stBadLen : Nat := 3
def stBadCh : Nat := 4
def stBadField : Nat := 5
def stBusy : Nat := 6
def stNoRoom : Nat := 7
def stLocked : Nat := 8
def stDmaErr : Nat := 9
def stLinkLost : Nat := 0xA
def stFull : Nat := 0x10
def stBadDom : Nat := 0x11
def stBadDue : Nat := 0x12
def stBadAct : Nat := 0x13
def stBadFlags : Nat := 0x14
def stBadParam : Nat := 0x15
def stChBusy : Nat := 0x16
def stPosRange : Nat := 0x17
def stChDense : Nat := 0x18
def stPodDense : Nat := 0x19
def stTooLate : Nat := 0x1A
def stBadWindow : Nat := 0x1B
def stBadHorizon : Nat := 0x1C
def stBankActive : Nat := 0x20
def stBankInvalid : Nat := 0x21
def stSegBusy : Nat := 0x28
def stSleepRefused : Nat := 0x29
def stMeasFail : Nat := 0x30
def stPartnerNak : Nat := 0x31

/-- A command mailbox among the 32. -/
def cmdMbx (b : CmdMbx) : Mbx := ⟨b.val, by omega⟩

/-- The command of a mailbox has its outcome: status, detail and reply wait for COMMAND_COMPLETE. [DEDUCED, log entry 39] -/
def State.answer (b : CmdMbx) (status detail : Nat) (reply : List Byte) (s : State) : State :=
  s.modMbx (cmdMbx b) (fun m =>
    match m.phase with
    | .running _ seq _ _ => { m with phase := .answered (some seq) true status detail reply }
    | _ => m)

/-- Carry out f on the body of the command that mailbox b runs, if it runs the one with this opcode; during a Watch restart and in a power mode other than RUN it waits (R288, R358). [DEDUCED, log entry 39] -/
def State.command (b : CmdMbx) (op : Nat) (f : List Byte → State → State) (s : State) : State :=
  match s.mbx[cmdMbx b].phase with
  | .running o _ _ body => if o = op && !s.fw.restarting && s.pwr.mode == 0 then f body s else s
  | _ => s

/-- A u32 and a u64 of a body. -/
def u32 (o : Nat) (body : List Byte) : Nat := leAt o 4 body
def u64 (o : Nat) (body : List Byte) : Nat := leAt o 8 body

/-! ### The end of a measurement (R327 to R329) -/

/-- The next measurement in line is first from now on. -/
def nextJob (t : Nat) : List MeasJob → List MeasJob
  | [] => []
  | j :: r => { j with since := t } :: r

/-- The answer a measurement's mailbox gets; one that a policy made has none. -/
def State.measAnswer (j : MeasJob) (status detail : Nat) (reply : List Byte) (s : State) : State :=
  match j.b with
  | some b => s.answer b status detail reply
  | none => s

/-- The policy that made a measurement, 0 for a cable and 1 for a load, keeps its value (R334). -/
def State.measKeep (j : MeasJob) (value : Option Nat) (s : State) : State :=
  if j.b.isSome then s
  else
    let i : Fin 5 := if j.load then 1 else 0
    let p := s.sur.pol[i]
    let l := { idx := j.ch.val, at_ := s.tick, value := value } :: p.last.filter (fun x => x.idx != j.ch.val)
    { s with sur := { s.sur with pol := s.sur.pol.set i.val { p with last := l } } }

/-- The measurement in hand ends: its TYPE 1 record, its notice, its reply, and the pin back to its tiers (R328). A measurement that
drove no edge has a free ACT_LT. `kept` is the value a policy uses. -/
def State.measEnd (status detail : Nat) (reply : List Byte) (value : W) (kept : Option Nat) (s : State) : State :=
  match s.sur.jobs with
  | [] => s
  | j :: rest =>
    let ran := s.sur.edgeLt != 0
    let r : ResRec := { actLt := if ran then s.sur.edgeLt else s.freeBelow (2 ^ 64), word := value
                        half := BitVec.ofNat 16 (1 + (if j.load then 9 else 8) * 16 + j.ch.val * 256) }
    let s := { s.used with sur := { s.sur with jobs := nextJob s.tick rest, running := false, abandons := 0, edgeLt := 0 } }
    let s := s.resWrite (podOf j.ch) false r
    let s := s.notice 3 (leBytes 4 j.ch.val ++ leBytes 4 value.toNat)
    (s.measKeep j kept).measAnswer j status detail reply

/-- MEAS_FAIL with its reason. -/
def State.measFail (reason : Nat) (s : State) : State := s.measEnd stMeasFail reason [] 0xFFFFFFFF none

/-- The measurement on channel n is abandoned: it waits for another gap, and a third abandonment ends it (R327, R329). -/
def State.measAbandon (n : Ch) (s : State) : State :=
  if measuring n s then
    if 2 ≤ s.sur.abandons then s.measFail 2
    else { s with sur := { s.sur with
        running := false, abandons := s.sur.abandons + 1
        jobs := nextJob s.tick s.sur.jobs } }
  else s

/-- An abort or a freeze of channel n ends its measurement at once (R327). -/
def State.measStop (n : Ch) (s : State) : State := if measuring n s then s.measFail 5 else s

end Sys2Proof.Machine
end

