-- ==== Sys2Proof/Machine/Sched.lean ====
section
/-!
DEFINITION. What the calendar, the predictor and the pods share: the events of a pod, the density limits (R160), slots (R164, R165), the
drain bound (R170), SEQ_AMBIG (R175), the judgement of a position event (R145), its head (R146) and its commit (R150, R151, R173, R174).
-/
namespace Sys2Proof.Machine

/-! ### Events of a pod -/

/-- A time event not yet staged has the advance R66 gives its DUE now (R161); a ball time below LT 0 is LT 0 (R386). -/
def Ev.refresh (s : State) (e : Ev) : Ev :=
  let adv := s.ch[e.rec_.ch].adv.for_ e.rec_.due
  { e with adv := adv, ball := e.rec_.due - adv }

/-- The events armed in the units of bank p. -/
def armedEvs (p : Pod) (s : State) : List Ev :=
  (bankChs p).flatMap (fun n => s.ch[n].unit.toList.filterMap (fun u => u.ev))

/-- The events of pod p whose action tick is known and that have not fired: time events from acceptance, position events from commit
(R160). -/
def openEvs (p : Pod) (s : State) : List Ev :=
  let q := s.pod[p]
  ((s.cal.wheel ++ s.cal.ovfl).filter (fun e => podOf e.rec_.ch == p)).map (Ev.refresh s)
    ++ q.staging ++ q.spill ++ q.fast ++ q.commits ++ armedEvs p s

/-- Those and the ones that fired not long ago. -/
def podEvs (p : Pod) (s : State) : List Ev := openEvs p s ++ s.pod[p].past

/-! ### Density (R160) -/

/-- With action tick a added, every run of `span` ticks that holds a keeps to `lim` action ticks. -/
def runFits (l : List Nat) (a span lim : Nat) : Bool :=
  let all := a :: l
  all.all (fun x => !(decide (x ≤ a) && decide (a < x + span))
    || decide ((all.filter (fun y => decide (x ≤ y) && decide (y < x + span))).length ≤ lim))

/-- The action ticks of a channel's events among l, and those of all of l, but the event with order number o. -/
def chTicks (l : List Ev) (n : Ch) (o : Nat) : List Nat :=
  (l.filter (fun e => e.rec_.ch == n && e.ord != o)).map Ev.actionTick
def allTicks (l : List Ev) (o : Nat) : List Nat := (l.filter (fun e => e.ord != o)).map Ev.actionTick

/-- The channel limit and the pod limit (R160). -/
def chFits (l : List Ev) (n : Ch) (o a : Nat) : Bool := runFits (chTicks l n o) a 16 4
def podFits (l : List Ev) (o a : Nat) : Bool := runFits (allTicks l o) a 128 64
def fits (l : List Ev) (n : Ch) (o a : Nat) : Bool := chFits l n o a && podFits l o a

/-- The first action tick from a on at which both limits hold. -/
def firstFit (l : List Ev) (n : Ch) (o : Nat) : Nat → Nat → Nat
  | 0, a => a
  | k + 1, a => if fits l n o a then a else firstFit l n o k (a + 1)

/-- Enough steps to pass every run the events can fill. -/
def fitSteps (l : List Ev) : Nat := 128 * (l.length + 1)

/-- The event moved to action tick a, its frac kept. -/
def Ev.moveTo (a : Nat) (e : Ev) : Ev := { e with ball := (a + 4) * 32 + e.ball % 32 }

/-! ### Slots (R164, R165) -/

/-- Segment g is open: neither retained nor in transit (R220). -/
def segOpen (g : Nat) (s : State) : Bool := !s.store.retained.getLsbD g && !s.store.transit.getLsbD g

/-- The segments the calendar uses (R208). -/
def calSegs (s : State) : List Nat := if s.store.calHalf then [0, 1] else [0, 1, 2, 3]

/-- The record slots of segment g that take records: 524 288 in each, or with mirroring in each pair, counted in its first half, both of
whose halves are open (R162, R208, R221). -/
def segSlots (g : Nat) (s : State) : Nat :=
  if s.cal.mirror then (if g % 2 = 0 && segOpen g s && segOpen (g + 1) s then 524288 else 0)
  else if segOpen g s then 524288 else 0

/-- Records the calendar can hold. -/
def calCap (s : State) : Nat := ((calSegs s).map (fun g => segSlots g s)).sum

/-- Slots in use: wheel, overflow area, fast lanes and uncommitted position events. -/
def slotsUsed (s : State) : Nat :=
  s.cal.wheel.length + s.cal.ovfl.length + s.cal.pos.length + (s.pod.toList.map (fun q => q.fast.length)).sum

/-- CAL_FREE. -/
def calFree (s : State) : Nat := calCap s - slotsUsed s

/-- n slots are freed in this tick. [DEDUCED, log entry 71] -/
def State.freeSlots (n : Nat) (s : State) : State :=
  { s with cal := { s.cal with freed := s.cal.freed.bump s.tick n 0xFFFFFFFF } }

/-- Slots a record judged in this tick may take: not those freed in it (R165). -/
def slotsUsable (s : State) : Nat := calFree s - s.cal.freed.now s.tick

/-! ### The drain bound (R170) -/

/-- The bucket of a ball time. -/
def bucketOf (x : Nat) : Nat := x / 32 / 512

/-- Events of pod p due in the W buckets that end with bucket b; more than the bound sets DRAIN. -/
def State.drainCheck (p : Pod) (b : Nat) (s : State) : State :=
  let n := ((podEvs p s).filter (fun e => decide (bucketOf e.ball ≤ b) && decide (b < bucketOf e.ball + s.cal.win))).length
  let s := s.modPod p (fun q => { q with winMax := q.winMax.peak s.tick (min n 65535) })
  s.when (decide (min 1024 (s.cal.win * 128) < n)) (State.breach brDrain)

/-- An event that comes to its pod besides the staging of a bucket is checked where its bucket's staging has begun (R170). -/
def State.drainIf (p : Pod) (e : Ev) (s : State) : State :=
  s.when (decide (bucketOf e.ball < s.tick / 512 + s.cal.win)) (State.drainCheck p (bucketOf e.ball))

/-- PODp_STG_HWM.LEVEL_MAX follows the staging RAM. -/
def PodSt.noteLevel (t : Nat) (q : PodSt) : PodSt := { q with lvlMax := q.lvlMax.peak t q.staging.length }

/-- An event enters staging: the RAM, or the spill area while the RAM is full (R168). -/
def State.stageEv (e : Ev) (s : State) : State :=
  s.modPod (podOf e.rec_.ch) (fun q =>
    if q.staging.length < 1024 then { q with staging := q.staging ++ [e] }.noteLevel s.tick
    else { q with spill := q.spill ++ [e] })

/-! ### SEQ_AMBIG (R175) -/

/-- Apply f to every open event of pod p that the pod itself holds. -/
def State.mapPodEvs (p : Pod) (f : Ev → Ev) (s : State) : State :=
  let s := s.modPod p (fun q => { q with
    staging := q.staging.map f, spill := q.spill.map f, fast := q.fast.map f, commits := q.commits.map f
    matched := q.matched.map (fun o => { o with ev := f o.ev }) })
  forAll (bankChs p) (fun n => State.modCh n (fun c => { c with
    unit := c.unit.map (fun u => { u with ev := u.ev.map f }) })) s

/-- Event e has come among the events of its channel: every pair that SEQ does not order is marked. The event is returned with its
own mark. -/
def State.markAmbig (e : Ev) (s : State) : State × Ev :=
  let p := podOf e.rec_.ch
  let hit := (openEvs p s).any (seqAmbig e)
  if hit then
    let mark (x : Ev) : Ev := if seqAmbig e x then { x with ambig := true } else x
    let markFar (x : Ev) : Ev := if seqAmbig e (x.refresh s) then { x with ambig := true } else x
    ({ s.mapPodEvs p mark with cal := { s.cal with wheel := s.cal.wheel.map markFar, ovfl := s.cal.ovfl.map markFar } },
      { e with ambig := true })
  else (s, e)

/-! ### Position events (R145 to R152) -/

/-- The distance from a position to a target along a direction (R145). -/
def along (rev : Bool) (pos target : W) : Nat := if rev then (pos - target).toNat else (target - pos).toNat

/-- The classes of R145 for an axis that is not STOPPED. -/
inductive PosClass where
  | ahead | range | behind
  deriving DecidableEq, Repr

def posClass (rev : Bool) (pos target : W) : PosClass :=
  let d := along rev pos target
  if d = 0 ∨ 2 ^ 31 ≤ d then .behind else if 2 ^ 30 ≤ d then .range else .ahead

/-- The target of a position record. -/
def Rec.target (r : Rec) : W := BitVec.ofNat 32 r.due

/-- The events of channel n judged ahead on axis k (R146). -/
def aheadOn (k : Ax) (n : Ch) (s : State) : List PosEv :=
  s.cal.pos.filter (fun x => x.axis == k && x.ahead && x.ev.rec_.ch == n)

/-- The head of channel n on axis k: nearest in the recognised direction, among equal targets the first in SEQ order (R146). -/
def headOf (k : Ax) (n : Ch) (s : State) : Option PosEv :=
  let a := s.axis[k]
  let l := aheadOn k n s
  let d (x : PosEv) : Nat := along a.rev a.pos x.ev.rec_.target
  match l with
  | [] => none
  | x :: r =>
    let near := r.foldl (fun m y => min m (d y)) (d x)
    match evSort ((l.filter (fun y => d y == near)).map (fun y => y.ev)) with
    | [] => none
    | e :: _ => l.find? (fun y => y.ev.ord == e.ord)

/-- Only heads carry a prediction (R146, R147). [DEDUCED, log entry 25] -/
def State.keepHeads (k : Ax) (s : State) : State :=
  { s with cal := { s.cal with pos := s.cal.pos.map (fun x =>
      if x.axis == k && (headOf k x.ev.rec_.ch s).map (fun h => h.ev.ord) != some x.ev.ord
      then { x with pred := none, soon := [] } else x) } }

/-- Every head of axis k loses its prediction (R147). -/
def State.dropPreds (k : Ax) (s : State) : State :=
  { s with cal := { s.cal with pos := s.cal.pos.map (fun x =>
      if x.axis == k then { x with pred := none, soon := [] } else x) } }

/-- A position event leaves its axis list. -/
def State.unlist (o : Nat) (s : State) : State :=
  { s with cal := { s.cal with pos := s.cal.pos.filter (fun x => x.ev.ord != o) } }

/-- A count of AXk_PRED_CNT moves, and PRED is set. -/
def State.predCount (k : Ax) (f : Axis → Axis) (s : State) : State :=
  s.modAxis k (fun a => { f a with evt := a.evt.raise s.tick (flag 6 true) })

/-- A position event commits at the present boundary with a ball time, an advance and a reason (0 on time, SHORT_LEAD or REACHED): the bounds of
R151, the density of R174, the commit path (R173); its slot is freed (R164). -/
def State.commitPos (k : Ax) (e : Ev) (ball adv reason : Nat) (s : State) : State :=
  let a := s.axis[k]
  let p := podOf e.rec_.ch
  let l := podEvs p s
  let e0 : Ev := { e with ball := ball, adv := adv, committed := true }
  let fit := firstFit l e.rec_.ch e.ord (fitSteps l) e0.actionTick
  let moved := fit != e0.actionTick
  let why := if moved then firstReason reason rsDense else reason
  let e1 : Ev := { (if moved then e0.moveTo fit else e0) with late := why != 0, reason := why }
  let spd := a.spd.speed.natAbs
  let out := decide (spd < a.vmin.toNat) || decide (a.vmax.toNat < spd) || (a.amax != 0 && decide (a.amax.toNat < a.spd.accel.natAbs))
  let s := s.when (why != 0 || out) (State.breach brPos)
  let s := s.when (reason == rsShortLead) (State.predCount k (fun a => { a with lateShort := a.lateShort.bump s.tick 1 255 }))
  let s := s.when (reason == rsReached) (State.predCount k (fun a => { a with lateReached := a.lateReached.bump s.tick 1 255 }))
  let s := s.when out (State.predCount k (fun a => { a with outBound := a.outBound.bump s.tick 1 255 }))
  let (s, e2) := (s.unlist e.ord).markAmbig e1
  let s := s.modPod p (fun q => { q with commits := q.commits ++ [e2] })
  (s.freeSlots 1).drainIf p e2

/-- A position event that will not fire leaves the calendar with its reason and the LT it reports; its slot is freed (R164, R180). [DEDUCED, log entry 48] -/
def State.losePos (e : Ev) (reason lt : Nat) (s : State) : State :=
  ((s.unlist e.ord).freeSlots 1).outcome (podOf e.rec_.ch) { ev := e, x := lt, missed := some reason }

/-- A fixed short lead: 128 ticks after the commit boundary (R150, R152). -/
def State.shortBall (s : State) : Nat := (s.tick + 128) * 32

/-- The advance in force for a channel, for events that have no A_arr (R148). -/
def advInForce (n : Ch) (s : State) : Nat := (s.ch[n].adv.takeAt s.tick).value

/-- An event judged behind: SKIP or FIRE (R145). An abort in effect keeps the fired one from firing (R36). [DEDUCED, log entry 26] -/
def State.posBehind (k : Ax) (e : Ev) (s : State) : State :=
  let s := s.breach brPos
  if e.rec_.behind then
    if s.ch[e.rec_.ch].aborted then s.losePos e rsAbort (s.tick * 32)
    else s.commitPos k e s.shortBall (advInForce e.rec_.ch s) rsShortLead
  else
    (s.predCount k (fun a => { a with missedBehind := a.missedBehind.bump s.tick 1 255 })).losePos e rsBehind (s.tick * 32)

/-- An unjudged event found out of range at its later judgement (R145). -/
def State.posRange (k : Ax) (e : Ev) (s : State) : State :=
  ((s.breach brPos).predCount k (fun a => { a with missedBehind := a.missedBehind.bump s.tick 1 255 })).losePos e rsRange (s.tick * 32)

/-- The unjudged events of axis k are judged at the boundary where STOPPED clears (R145). -/
def State.judgeWaiting (k : Ax) (s : State) : State :=
  let a := s.axis[k]
  let l := s.cal.pos.filter (fun x => x.axis == k && !x.ahead)
  let s := forAll l (fun x s =>
    match posClass a.rev a.pos x.ev.rec_.target with
    | .ahead => { s with cal := { s.cal with pos := s.cal.pos.map (fun y => if y.ev.ord == x.ev.ord then { y with ahead := true } else y) } }
    | .range => s.posRange k x.ev
    | .behind => s.posBehind k x.ev) s
  s.keepHeads k

end Sys2Proof.Machine
end

