-- ==== Sys2Proof/Machine/Axis.lean ====
section
/-!
DEFINITION. The axes (R119 to R141) and the predictor (R145 to R152): pins, decoder, position, speed, the re-prediction and the commit of heads,
the encoder emulator (R142 to R144).
-/
namespace Sys2Proof

/-- The place of an axis pin among A, B and Z. -/
def AxPin.idx : AxPin → Nat
  | .a => 0 | .b => 1 | .z => 2

end Sys2Proof

namespace Sys2Proof.Machine

/-! ### Registers by field -/

def Axis.en (a : Axis) : Bool := bit a.cfg 0
/-- 0 quadrature, 1 Hall, 2 SSI, 3 BiSS-C. -/
def Axis.mode (a : Axis) : Nat := fld a.cfg 1 2
/-- A decoder works from edges of A, B (and Z) in the modes 0 and 1 (R123, R128). -/
def Axis.edgeMode (a : Axis) : Bool := decide (a.mode ≤ 1)
/-- Ticks in which the axis counts its filter and checks: XIN cycles while coarse (R141). -/
def Axis.unit (a : Axis) : Nat := if a.coarse then 16 else 1
/-- FILTER in ticks. -/
def Axis.filterTicks (a : Axis) : Nat := fld a.cfg 3 4 * a.unit
def Axis.minEdge (a : Axis) : Nat := fld a.qchk 0 8 * a.unit
def Axis.dirHyst (a : Axis) : Nat := fld a.qchk 8 8
def Axis.lagLim (a : Axis) : Nat := fld a.qchk 16 4
/-- 0 automatic, 1 period only, 2 count only (R137). -/
def Axis.spdMode (a : Axis) : Nat := fld a.spdCfg 3 2
/-- CL in ticks. -/
def Axis.cl (a : Axis) : Nat := fld a.predCfg 0 16

def evWrapF : W := flag 0 true
def evWrapR : W := flag 1 true
def evDir : W := flag 2 true
def evIndex : W := flag 3 true
def evMode : W := flag 4 true
def evMotion : W := flag 5 true
def evSample : W := flag 7 true
def erSuspect : W := flag 9 true

/-- Set flags of AXk_ERR. -/
def Axis.fail (t : Nat) (m : W) (a : Axis) : Axis := { a with err := a.err.raise t m }
/-- Set flags of AXk_EVT. -/
def Axis.happen (t : Nat) (m : W) (a : Axis) : Axis := { a with evt := a.evt.raise t m }
/-- A write or command was refused (R120). -/
def State.axCfgErr (k : Ax) (s : State) : State := s.modAxis k (fun a => a.fail s.tick (flag 12 true))

/-! ### Speed (R136 to R139) -/

/-- Frac in 1 ms times 256: the scale of SPEED (R138). -/
def spdK : Nat := 3276800000

/-- A quotient rounded to the nearest, half away from zero, for d > 0 (R138). -/
def roundAway (n : Int) (d : Nat) : Int :=
  if n < 0 then -((2 * n.natAbs + d) / (2 * d) : Nat) else ((2 * n.natAbs + d) / (2 * d) : Nat)

/-- Saturate at ±(2^31 − 1). -/
def sat31 (v : Int) : Int := max (-2147483647) (min 2147483647 v)

/-- A pair is formed, unless ΔP is 0 or ΔT above 2^32 − 1 (or 0): SPEED and ACCEL follow (R136, R138). An ACCEL outside its format, or between
pairs of one midpoint, has no value in the spec: `fv` stands for it. [DEDUCED, log entry 24] -/
def Axis.form (fv : Nat) (dp : Int) (x0 x1 : Nat) (a : Axis) : Axis :=
  let dt := x1 - x0
  if dp = 0 ∨ dt = 0 ∨ 2 ^ 32 ≤ dt then a
  else
    let speed := sat31 (roundAway (dp * spdK) dt)
    let sum := x0 + x1
    let free : Int := (BitVec.ofNat 32 fv).toInt
    let accel := match a.spd.pairs with
      | [] => a.spd.accel
      | q :: _ =>
        if sum ≤ q.sum then free
        else
          let v := roundAway ((speed - a.spd.speed) * 25600000) (sum - q.sum)
          if -2147483648 ≤ v ∧ v < 2147483648 then v else free
    { a with spd := { a.spd with
        speed := speed, accel := accel, dp := dp, dt := dt, valid := true, formed := true
        pairs := { dp := dp, dt := dt, sum := sum } :: a.spd.pairs.take 1 } }

/-- The edges or samples a pair of the period kind spans: 2^PERIOD_AVG, or the 6 transitions of an electrical cycle (R128, R133,
R136). -/
def Axis.span (a : Axis) : Nat := if a.mode = 1 then 6 else 2 ^ a.spd.avg

/-- A counting edge or sample for the speed measurement. -/
def Axis.rateEdge (fv : Nat) (x : Nat) (d : Int) (a : Axis) : Axis :=
  let es := ((x, d) :: a.spd.edges).take 65
  let a := { a with spd := { a.spd with edges := es, winNet := a.spd.winNet + d, winLast := some x } }
  if a.spd.cntMode then a
  else
    match es[a.span]? with
    | none => a
    | some (x0, _) => a.form fv ((es.take a.span).map (fun e => e.2)).sum x0 x

/-- The method changes: PAIR_VALID clears until the new method has formed a pair (R136, R137). [DEDUCED, log entry 24] -/
def Axis.setMethod (t : Nat) (cnt : Bool) (a : Axis) : Axis :=
  if a.spd.cntMode == cnt then a
  else { a with spd := { a.spd with cntMode := cnt, valid := false, edges := [] } }.happen t evMode

/-- The time since the last edge, in frac, at tick t (R139). -/
def Axis.age (t : Nat) (a : Axis) : Nat := t * 32 - a.edgeLt

/-- STOPPED at tick t (R139). -/
def Axis.isStopped (t : Nat) (a : Axis) : Bool :=
  !a.en || !a.spd.formed || decide (a.spd.speed.natAbs < a.stopSpd.toNat) || decide (spdK < a.stopSpd.toNat * a.age t)

/-- LAGGING at tick t (R139). -/
def Axis.isLagging (t : Nat) (a : Axis) : Bool :=
  a.en && a.spd.formed && a.spd.dp != 0 && decide (a.lagLim * a.spd.dt < a.age t * a.spd.dp.natAbs)

/-- What holds commits and predictions of an axis: STOPPED, LAGGING or REV_PEND (R147, R149). -/
def Axis.held (t : Nat) (a : Axis) : Bool := a.isStopped t || a.isLagging t || decide (0 < a.revRun)

/-- STOPPED and LAGGING are taken anew: MOTION, the loss of predictions, and the judgement that waited for STOPPED to clear (R139, R145,
R147). -/
def State.axReeval (k : Ax) (s : State) : State :=
  let a := s.axis[k]
  let st := a.isStopped s.tick
  let s1 := s.modAxis k (fun a => { a with
    stopped := st, lagging := a.isLagging s.tick, evt := a.evt.raiseIf (st != a.stopped) s.tick evMotion })
  let s2 := s1.when (a.held s.tick) (State.dropPreds k)
  s2.when (a.stopped && !st) (State.judgeWaiting k)

def execAxisStopDetect (k : Ax) (s : State) : Out := .next (s.axReeval k)
def execLagDetect (k : Ax) (s : State) : Out := .next (s.axReeval k)

/-- COUNT_WINDOW_END: FILTER + 2 ticks after the end of a window its pair is formed, SPD_MODE automatic judges the method, and PERIOD_AVG and
GATE come into force (R136, R137, AXk_SPD_CFG). [DEDUCED, log entry 19] [DEDUCED, log entry 20] -/
def State.windowEnd (k : Ax) (s : State) : State :=
  let a := s.axis[k]
  let tb := (s.tick - (a.filterTicks + 2)) / max 1 a.spd.gate * a.spd.gate
  if !a.en || decide (tb ≤ a.spd.winAt) then s
  else
    let s := s.modAxis k (fun a =>
      let cnt := a.spd.cntMode && decide (a.mode = 0)
      let p0 := a.spd.pairs
      let a1 := match cnt, a.spd.winLast, a.spd.before with
        | true, some x1, some x0 => a.form (s.freeBelow (2 ^ 32)) a.spd.winNet x0 x1
        | _, _, _ => a
      let a2 := if a1.spd.pairs != p0 then a1.happen s.tick evSample else a1
      let none_ := a2.spd.winLast.isNone
      let v := a2.spd.speed.natAbs
      let a3 :=
        if a2.mode = 0 ∧ a2.spdMode = 0 then
          if !a2.spd.cntMode && decide (a2.upThr.toNat < v) then a2.setMethod s.tick true
          else if a2.spd.cntMode && (none_ || decide (v < a2.dnThr.toNat)) then a2.setMethod s.tick false
          else a2
        else a2
      { a3 with spd := { a3.spd with
          before := if none_ then a3.spd.before else a3.spd.winLast
          winNet := 0, winLast := none, winAt := tb, avg := fld a3.spdCfg 0 3, gate := fld a3.spdCfg 16 16 } })
    (s.used).axReeval k

def execCountWindowEnd (k : Ax) (s : State) : Out := .next (s.windowEnd k)

/-- SPEED_READ: SPEED is returned, and ACCEL, RATE_DP and RATE_DT are latched for the master (R138). -/
def State.speedRead (m : Master) (k : Ax) (s : State) : State :=
  let s1 := s.modAxis k (fun a => { a with latch := a.latch.set m.idx.val { a.latch[m.idx] with
    accel := a.spd.accel, dp := a.spd.dp, dt := a.spd.dt } })
  s1.ret m (ofInt s.axis[k].spd.speed)

def execSpeedRead (m : Master) (k : Ax) (s : State) : Out := .next (s.access m (.speedRead m k) (State.speedRead m k))

/-! ### Position (R134, R135) -/

/-- A count or a serial step of d at time x in tick t: POS with its wraps, the recognised direction, the edge time. -/
def Axis.step (t : Nat) (d : Int) (x : Nat) (a : Axis) : Axis :=
  let v : Int := a.pos.toNat + d
  let fwd := decide (2 ^ 32 ≤ v)
  let rev := decide (v < 0)
  let pos := BitVec.ofInt 32 v
  let along := (decide (0 < d)) == !a.rev
  let run := if d = 0 then a.revRun else if along then 0 else a.revRun + d.natAbs
  let flip := decide (d ≠ 0) && !along && decide (a.dirHyst + 1 ≤ run)
  { a with
    pos := pos, edgeLt := x, edgePos := pos
    rev := if flip then !a.rev else a.rev
    revRun := if flip then 0 else run
    evt := ((a.evt.raiseIf fwd t evWrapF).raiseIf rev t evWrapR).raiseIf flip t evDir
    wrapNet := if fwd then a.wrapNet.bump t 1 else if rev then a.wrapNet.bump t (-1) else a.wrapNet }

/-- The channels whose counters follow axis k get a move, which they show at the next boundary (R47, R122). -/
def State.tellCounters (k : Ax) (m : AxMove) (s : State) : State :=
  forAll (allChs.filter (fun n => s.ch[n].ctr.mode == 5 && axSel s.ch[n].ctr.cfg == k))
    (fun n => State.modCh n (fun c => { c with ctr := { c.ctr with axQ := c.ctr.axQ ++ [m] } })) s

/-- The axis has a position event that is uncommitted, or committed and not yet fired (R127). -/
def axisHolds (k : Ax) (s : State) : Bool :=
  s.cal.pos.any (fun x => x.axis == k) ||
    allPods.any (fun p =>
      let q := s.pod[p]
      (q.staging ++ q.spill ++ q.commits ++ armedEvs p s).any (fun e => !e.rec_.timed && e.rec_.axis == k))

/-- POS takes POS_LD: no wrap, the rate pair is discarded, counters in AXIS mode take it as one change that matches nothing (R127). [DEDUCED, log entry 24] -/
def State.loadPos (k : Ax) (s : State) : State :=
  let v := s.axis[k].posLd
  let s1 := s.modAxis k (fun a => { a with
    pos := v, spd := { a.spd with valid := false, dp := 0, dt := 0, pairs := [], edges := [] } })
  s1.tellCounters k { at_ := s.tick + 1, delta := 0, pos := v, load := true }

/-- POS_LOAD: refused while the axis holds position events (R127). -/
def State.posLoad (k : Ax) (s : State) : State :=
  if axisHolds k s then s.modAxis k (fun a => a.fail s.tick (flag 11 true)) else (s.loadPos k).axReeval k

def execPosLoad (k : Ax) (s : State) : Out := .next (s.posLoad k)

/-- Z_ARM (R126). -/
def State.zArm (k : Ax) (s : State) : State := s.modAxis k (fun a => { a with zArmed := true })
def execZArm (k : Ax) (s : State) : Out := .next (s.zArm k)

/-! ### The predictor (R147 to R152) -/

/-- The correction of ORDER = 1 on dt, rounded half up: the acceleration along DIR from the last two rate pairs (R147). -/
def secondOrder (rev : Bool) (dt : Nat) : List RatePair → Nat
  | q :: p :: _ =>
    if q.sum ≤ p.sum then dt
    else
      let sgn : Int := if rev then -1 else 1
      let num : Int := sgn * (q.dp * p.dt - p.dp * q.dt) * (dt * dt : Nat)
      let den : Nat := p.dt * (q.sum - p.sum) * q.dp.natAbs
      if den = 0 then dt
      else if (dt * den : Nat) ≤ 8 * num then (14 * dt + 8) / 16
      else if 8 * num ≤ -((dt * den : Nat) : Int) then (18 * dt + 8) / 16
      else ((2 * ((dt * den : Nat) - num) + den) / (2 * den) : Int).toNat
  | _ => dt

/-- A_arr of a target at distance D along DIR from the last edge (R147). -/
def Axis.arrival (d : Nat) (a : Axis) : Nat :=
  let v := a.spd.dp.natAbs
  let dt := (2 * d * a.spd.dt + v) / (2 * v)
  a.edgeLt + (if bit a.cfg 13 then secondOrder a.rev dt a.spd.pairs else dt)

/-- Every head of axis k is re-predicted at boundary b, but for receding ones, which lose what they had (R147). -/
def State.repredict (k : Ax) (b : Nat) (s : State) : State :=
  let a := s.axis[k]
  if a.held s.tick || a.spd.dp == 0 then s
  else
    { s with cal := { s.cal with pos := s.cal.pos.map (fun x =>
        if x.axis == k && (headOf k x.ev.rec_.ch s).map (fun h => h.ev.ord) == some x.ev.ord then
          let d := along a.rev a.pos x.ev.rec_.target
          if d = 0 ∨ 2 ^ 31 ≤ d then { x with pred := none, soon := [] }
          else { x with soon := x.soon ++ [(b, a.arrival d)] }
        else x) } }

/-- The arrival in force for a check at boundary t: a re-prediction made at t counts from t + 1 (R149). [DEDUCED, log entry 20] -/
def PosEv.arr (t : Nat) (x : PosEv) : Option Nat :=
  x.soon.foldl (fun r p => if p.1 < t then some p.2 else r) x.pred

/-- Re-predictions older than tick t come into force. -/
def PosEv.settle (t : Nat) (x : PosEv) : PosEv :=
  { x with pred := x.arr t, soon := x.soon.filter (fun p => decide (t ≤ p.1)) }

/-- A step from POS p by d passes a target, its endpoint included (R152). -/
def passes (p : W) (d : Int) (target : W) : Bool :=
  let k := if 0 < d then (target - p).toNat else (p - target).toNat
  decide (1 ≤ k) && decide (k ≤ d.natAbs)

/-- The uncommitted ahead events that a step from p by d reaches: each commits now and fires 128 ticks later; in an abort it is MISSED
(R36, R152, R153). [DEDUCED, log entry 26] -/
def State.reach (k : Ax) (p : W) (d : Int) (s : State) : State :=
  let hits := (s.cal.pos.filter (fun x => x.axis == k && x.ahead && passes p d x.ev.rec_.target)).map (fun x => x.ev)
  forAll (evSort hits) (fun e s =>
    if s.ch[e.rec_.ch].aborted then s.losePos e rsAbort (s.tick * 32)
    else s.commitPos k e s.shortBall (advInForce e.rec_.ch s) rsReached) s

/-- The events that commit with a head: those of its channel and axis with its target, in SEQ order (R146). [DEDUCED, log entry 25] -/
def withHead (k : Ax) (h : PosEv) (s : State) : List Ev :=
  evSort (((aheadOn k h.ev.rec_.ch s).filter (fun x => x.ev.rec_.target == h.ev.rec_.target)).map (fun x => x.ev))

/-- The ball time of a committing head with ball time B, and its reason (R150). -/
def commitBall (b cl : Nat) (s : State) : Nat × Nat :=
  let t := s.tick * 32
  if t + cl * 16 ≤ b then (b, 0)
  else if t + 128 * 32 ≤ b then (b, rsShortLead)
  else (s.shortBall, rsShortLead)

/-- POS_COMMIT: the head of channel n on axis k commits once the present boundary is within CL of its ball time and nothing holds the axis
(R149). While its channel is aborted it stays pending (R153). Nothing commits outside RUN (R141). [DEDUCED, log entry 26] -/
def State.posCommit (k : Ax) (n : Ch) (s : State) : State :=
  let a := s.axis[k]
  match headOf k n s with
  | none => s
  | some h =>
    match h.arr s.tick with
    | none => s
    | some arr =>
      let adv := s.ch[n].adv.for_ arr
      let b := arr - adv
      if a.held s.tick || s.ch[n].aborted || s.pwr.mode != 0 || decide (s.tick * 32 + a.cl * 32 < b) then s
      else
        let (ball, why) := commitBall b a.cl s
        (forAll (withHead k h s) (fun e => State.commitPos k e ball adv why) s).keepHeads k

def execPosCommit (k : Ax) (n : Ch) (s : State) : Out := .next (s.posCommit k n)

/-! ### The encoder emulator (R142 to R144) -/

def Emul.n (e : Emul) : Nat := fld e.ratio 0 16
def Emul.d (e : Emul) : Nat := fld e.ratio 16 16
/-- BACKLOG: output counts held back by the spacing (R143). -/
def Emul.backlog (e : Emul) : Nat := (e.wait.filter (fun w => decide (w.nat < w.x))).length

/-- n output counts with the natural time x, each at least 8 ticks after the one before. -/
def emulPlace (up : Bool) (x : Nat) : Nat → Option Nat → List EmulEdge
  | 0, _ => []
  | n + 1, last =>
    let at_ := match last with
      | none => x
      | some l => max x (l + 256)
    { x := at_, nat := x, up := up } :: emulPlace up x n (some at_)

/-- The emulator halts and drops what it had still to emit. [DEDUCED, log entry 27] -/
def Emul.stop (e : Emul) : Emul :=
  { e with run := false, wait := [], lastX := (e.wait.head?.map (fun w => some (w.x - 256))).getD e.lastX }

/-- Input counts d with edge time x: the accumulator and the output counts they cause; too large a backlog halts the emulator with OVF
(R142, R143). [DEDUCED, log entry 27] -/
def Emul.count (t : Nat) (d : Int) (x filter : Nat) (e : Emul) : Emul :=
  if !e.run || d == 0 then e
  else
    let acc := e.acc + d * e.n
    let n := acc.natAbs / max 1 e.d
    let up := decide (0 < acc)
    let acc' := if up then acc - (n * e.d : Nat) else acc + (n * e.d : Nat)
    let halted : Emul := { e.stop with acc := 0, flags := e.flags.raise t 4 }
    if 70000 < n then halted
    else
      let es := emulPlace (up != bit e.cfg 17) (x + (filter + 7) * 32) n e.lastX
      let e' : Emul := { e with acc := acc', wait := e.wait ++ es, lastX := (es.getLast?.map (fun w => some w.x)).getD e.lastX }
      if 65535 < e'.backlog then halted else e'

/-- A, B and Z for an output position (R123, R142). -/
def Emul.levels (e : Emul) : List Bool :=
  let i := e.out % 4
  [i == 1 || i == 2, i == 2 || i == 3, e.out % (e.zper.toNat : Int) == 0]

/-- The emulator drives the compare-and-calendar tier of its channels at ball time x; a frozen ball takes no action (R86, R144). -/
def State.emulDrive (k : Ax) (x : Nat) (s : State) : State :=
  let a := s.axis[k]
  forAll ((emulChs a).zip a.emul.levels) (fun (n, l) s =>
    if s.ch[n].frz then s else s.modCh n (Channel.drive x (fun _ => l))) s

/-- EMUL_OUTPUT_EDGE: the next output count, applied 4 ticks before its ball time (R143). -/
def State.emulEdge (k : Ax) (s : State) : State :=
  match s.axis[k].emul.wait with
  | [] => s
  | w :: r =>
    if w.x / 32 - 4 ≤ s.tick then
      (s.modAxis k (fun a => { a with emul := { a.emul with
        wait := r, out := if w.up then a.emul.out + 1 else a.emul.out - 1 } })).emulDrive k w.x
    else s

def execEmulOutputEdge (k : Ax) (s : State) : Out := .next (s.emulEdge k)

/-- The pins a write of EMUL_CFG names are distinct. -/
def emulPinsOk (w : W) : Bool :=
  let a := fld w 1 4
  let b := fld w 5 4
  let z := fld w 9 4
  a != b && (!bit w 13 || (a != z && b != z))

/-- A channel an emulator may take: SCHED = 0 and no armed compare unit (R144). -/
def emulFree (s : State) (n : Ch) : Bool := !sched n s && s.ch[n].unit.all (fun u => !u.live && !u.shadow)

/-- A write of AXk_EMUL_CFG: fields 17 to 1 only while EN = 0; EN := 1 only with free channels; otherwise the write is ignored and sets
CFG_ERR (R142, R144). [DEDUCED, log entry 27] -/
def State.writeEmulCfg (k : Ax) (w : W) (s : State) : State :=
  let w := w &&& 0x3FFFF
  let a := s.axis[k]
  let old := a.emul.cfg
  if bit old 0 then
    let s := s.when (w >>> 1 != old >>> 1) (State.axCfgErr k)
    if bit w 0 then s
    else s.modAxis k (fun a => { a with emul := { a.emul.stop with cfg := old &&& ~~~1 } })
  else if !emulPinsOk w && (bit w 0 || w >>> 1 != old >>> 1) then s.axCfgErr k
  else if bit w 0 then
    let s' := s.modAxis k (fun a => { a with emul := { a.emul with
      cfg := w, run := true, acc := 0, out := 0, wait := [], lastX := none } })
    if (emulChs s'.axis[k]).all (emulFree s) then s'.emulDrive k ((s.tw + 4) * 32) else s.axCfgErr k
  else s.modAxis k (fun a => { a with emul := { a.emul with cfg := w } })

/-- EMUL_ENABLE: the write with EN = 1 (R144). -/
def execEmulEnable (k : Ax) (w : W) (s : State) : Out := .next (s.writeEmulCfg k (w ||| 1))

/-- EMUL_RESTART: a halted emulator resumes from the next input count (R143). -/
def State.emulRestart (k : Ax) (s : State) : State :=
  s.modAxis k (fun a => if bit a.emul.cfg 0 && !a.emul.run then { a with emul := { a.emul with run := true } } else a)

def execEmulRestart (k : Ax) (s : State) : Out := .next (s.emulRestart k)

/-! ### A count's consequences -/

/-- POS has moved by d from p0 at edge time x in the present tick: events reached, STOPPED and LAGGING, predictions, counters, emulator
(R47, R122, R147, R152). [DEDUCED, log entry 25] -/
def State.axMoved (k : Ax) (p0 : W) (rev0 : Bool) (d : Int) (s : State) : State :=
  let s := if d = 0 then s else s.reach k p0 d
  let s := s.when (s.axis[k].rev != rev0) (State.dropPreds k)
  let s := (s.axReeval k).keepHeads k
  let s := { s with cal := { s.cal with pos := s.cal.pos.map (fun (x : PosEv) => if x.axis == k then PosEv.settle s.tick x else x) } }
  let s := s.repredict k (s.tick + 1)
  let s := if d = 0 then s else s.tellCounters k { at_ := s.tick + 1, delta := d, pos := s.axis[k].pos, load := false }
  s.modAxis k (fun a => { a with emul := a.emul.count s.tick d a.edgeLt a.filterTicks })

/-- A counting edge: POS, speed, and what follows from it. -/
def State.axCount (k : Ax) (d : Int) (x : Nat) (s : State) : State :=
  let a := s.axis[k]
  ((s.modAxis k (fun a => (a.step s.tick d x).rateEdge (s.freeBelow (2 ^ 32)) x d)).used).axMoved k a.pos a.rev d

/-! ### Pins and the decoder (R121 to R128) -/

/-- Set bit i of a 3-bit state. -/
def set3 (v : BitVec 3) (i : Nat) (l : Bool) : BitVec 3 :=
  let m := BitVec.ofNat 3 (2 ^ i)
  if l then v ||| m else v &&& ~~~m

/-- The counters of all banks that count from an axis pin take its level (R46, R121). -/
def feedAxis (k : Ax) (i ta : Nat) (level : Bool) (s : State) : State :=
  forAll allPods (fun p => feedSource p (32 + 3 * k.val + i) ta level) s

/-- AXIS_FILTER_ACCEPT: a level of an axis pin that began at LT x has held for FILTER ticks (R121). In HIBERNATE the axes do not decode; the
change is remembered (R141). -/
def State.axAccept (k : Ax) (p : AxPin) (level : Bool) (x : Nat) (s : State) : State :=
  let a := s.axis[k]
  if a.pins.getLsbD p.idx == level || decide (s.tick < x / 32 + a.filterTicks) then s
  else if s.boot.held then s.modAxis k (fun a => { a with pins := set3 a.pins p.idx level })
  else if s.pwr.mode = 2 then s.modAxis k (fun a => { a with pins := set3 a.pins p.idx level, moved := true })
  else
    let x := if a.coarse || s.time.res != 0 then x / 32 * 32 else x
    let s := s.modAxis k (fun a => { a with
      pins := set3 a.pins p.idx level
      accQ := if a.en && a.edgeMode then a.accQ ++ [(p, level, x)] else a.accQ })
    feedAxis k p.idx (x / 32 + a.filterTicks) level s

def execAxisFilterAccept (k : Ax) (p : AxPin) (level : Bool) (lt : Nat) (s : State) : Out := .next (s.axAccept k p level lt)

/-- Place of a state (A, B) in the forward sequence 00, 10, 11, 01 (R123). -/
def quadIdx (v : BitVec 3) : Nat :=
  match v.getLsbD 0, v.getLsbD 1 with
  | false, false => 0
  | true, false => 1
  | true, true => 2
  | false, true => 3

/-- The sector of a Hall state, none where it is invalid (R128). -/
def hallSector (v : BitVec 3) : Option Nat :=
  match v.toNat with
  | 1 => some 0 | 3 => some 1 | 2 => some 2 | 6 => some 3 | 4 => some 4 | 5 => some 5
  | _ => none

/-- The edges of one tick, oldest first, and the rest. -/
def firstSample (l : List (AxPin × Bool × Nat)) : List (AxPin × Bool × Nat) × List (AxPin × Bool × Nat) :=
  match l with
  | [] => ([], [])
  | e :: _ => (l.filter (fun x => x.2.2 / 32 == e.2.2 / 32), l.filter (fun x => x.2.2 / 32 != e.2.2 / 32))

/-- The state after a sample's edges. -/
def applyEdges (v : BitVec 3) (l : List (AxPin × Bool × Nat)) : BitVec 3 := l.foldl (fun v e => set3 v e.1.idx e.2.1) v

/-- The LT of the edge that changed line i in a sample: the first edge to the new level. -/
def edgeTime (i : Nat) (new : BitVec 3) (l : List (AxPin × Bool × Nat)) : Nat :=
  match l.find? (fun e => e.1.idx == i && e.2.1 == new.getLsbD i) with
  | some e => e.2.2
  | none => 0

/-- A fast edge (R125): FAST_EN, MIN_EDGE not 0, and fewer than MIN_EDGE ticks after the previous accepted edge. -/
def Axis.fastEdge (t : Nat) (a : Axis) : Bool :=
  bit a.cfg 8 && (match a.lastTick with
    | none => false
    | some l => decide (t < l + a.minEdge))

/-- FAST_EDGE with its count (R125). -/
def Axis.noteFast (t : Nat) (a : Axis) : Axis :=
  { a with err := a.err.raise t (flag 1 true ||| erSuspect), fast := a.fast.bump t 1 255 }

/-- INV_DIR applied to a count. -/
def Axis.dirOf (d : Int) (a : Axis) : Int := if bit a.cfg 12 then -d else d

/-- A sample of the quadrature decoder (R123 to R125). -/
def State.quadSample (k : Ax) (es : List (AxPin × Bool × Nat)) (s : State) : State :=
  let a := s.axis[k]
  let new := applyEdges a.ref es
  let chA := new.getLsbD 0 != a.ref.getLsbD 0
  let chB := new.getLsbD 1 != a.ref.getLsbD 1
  let t := (match es with
    | [] => 0
    | e :: _ => e.2.2 / 32)
  if !chA && !chB then s.modAxis k (fun a => { a with ref := new })
  else
    let fast := a.fastEdge t
    let ill := chA && chB
    let x := if chA then edgeTime 0 new es else edgeTime 1 new es
    let s := s.modAxis k (fun a =>
      let a := { a with ref := new, lastTick := some t }
      let a := if ill && bit a.cfg 7 then
          { a with err := a.err.raise s.tick (flag 0 true ||| erSuspect), illegal := a.illegal.bump s.tick 1 255 }
        else a
      if fast then a.noteFast s.tick else a)
    if ill || fast then s
    else s.axCount k (a.dirOf (if (quadIdx new + 4 - quadIdx a.ref) % 4 = 1 then 1 else -1)) x

/-- The index input (R126, R127). `p0` is POS before the sample. [DEDUCED, log entry 23] -/
def State.indexSample (k : Ax) (p0 : W) (es : List (AxPin × Bool × Nat)) (s : State) : State :=
  let a := s.axis[k]
  let zm := fld a.cfg 9 2
  match es.find? (fun e => e.1 == .z && e.2.1) with
  | none => s
  | some e =>
    if zm = 0 || (bit a.cfg 11 && !(a.ref.getLsbD 0 && a.ref.getLsbD 1)) then s
    else
      let s := s.modAxis k (fun a => { a with zLt := e.2.2, zPos := p0 }.happen s.tick evIndex)
      if zm = 3 || (zm = 2 && a.zArmed) then
        if axisHolds k s then s.modAxis k (fun a => a.fail s.tick (flag 10 true))
        else (((s.loadPos k).modAxis k (fun a => { a with zArmed := a.zArmed && zm != 2 })).axReeval k)
      else s

/-- A sample of the Hall decoder (R128). [DEDUCED, log entry 22] -/
def State.hallSample (k : Ax) (es : List (AxPin × Bool × Nat)) (s : State) : State :=
  let a := s.axis[k]
  let new := applyEdges a.ref es
  let t := (match es with
    | [] => 0
    | e :: _ => e.2.2 / 32)
  if new == a.ref then s
  else
    let x := (es.find? (fun e => new.getLsbD e.1.idx != a.ref.getLsbD e.1.idx && e.2.1 == new.getLsbD e.1.idx)).elim 0 (fun e => e.2.2)
    let fast := a.fastEdge t
    let hallErr : W := flag 2 true
    let s := s.modAxis k (fun a =>
      let a := { a with ref := new, lastTick := some t, hall := BitVec.ofNat 3 ((hallSector new).getD 7) }
      if fast then a.noteFast s.tick else a)
    match hallSector new with
    | none => s.modAxis k (fun a => a.fail s.tick hallErr)
    | some h =>
      let s := s.modAxis k (fun a => { a with sect := some h })
      match a.sect with
      | none => s
      | some h0 =>
        let d := (h + 6 - h0) % 6
        if fast || d = 0 then s
        else if d = 1 then s.axCount k (a.dirOf 1) x
        else if d = 5 then s.axCount k (a.dirOf (-1)) x
        else s.modAxis k (fun a => a.fail s.tick (hallErr ||| erSuspect))

/-- AXIS_EDGE: FILTER + 2 ticks after its crossing the decoder takes the oldest sample that waits (R122). [DEDUCED, log entry 20] -/
def State.axEdge (k : Ax) (s : State) : State :=
  let a := s.axis[k]
  let (es, rest) := firstSample a.accQ
  match es with
  | [] => s
  | e :: _ =>
    if s.tick < e.2.2 / 32 + a.filterTicks + 2 then s
    else
      let s := s.modAxis k (fun a => { a with accQ := rest })
      if !a.en then s
      else if a.mode = 0 then (s.quadSample k es).indexSample k a.pos es
      else if a.mode = 1 then s.hallSample k es
      else s

def execAxisEdge (k : Ax) (s : State) : Out := .next (s.axEdge k)

end Sys2Proof.Machine
end

