-- ==== Sys2Proof/Machine/Calendar.lean ====
section
/-!
DEFINITION. The calendar engine (R155 to R178): acceptance, the wheel and the overflow area, staging, cancellation, and the commands that carry
records or set it up (R162, R167, R271, R273).
-/
namespace Sys2Proof.Machine

/-! ### Judging a record (R157, R160, R171) -/

/-- What the engine decides about a record. -/
inductive Verdict where
  | refuse (status : Nat)
  | wait
  | take
  deriving DecidableEq, Repr

/-- 800 ticks after a tick, in frac (R26, R160, R171). -/
def nearLimit (t : Nat) : Nat := (t + 800) * 32

/-- The event a time record would become, before the fast lane moves it (R161, R386). -/
def timeEv (r : Rec) (s : State) : Ev :=
  let adv := s.ch[r.ch].adv.for_ r.due
  let ball := r.due - adv
  let late := decide (ball < (s.tick + s.cal.horizon) * 32)
  { rec_ := r, ord := s.cal.ord, tAcc := s.tick, ball := ball, adv := adv, late := late, reason := if late then rsLateWrite else 0 }

/-- A late record whose ball time falls before bucket c + W + 2 takes the fast lane (R166). -/
def toFast (e : Ev) (s : State) : Bool := e.late && decide (bucketOf e.ball < s.tick / 512 + s.cal.win + 2)

/-- The action tick the fast lane finds for a near record (R171). -/
def nearFit (e : Ev) (s : State) : Nat :=
  let l := podEvs (podOf e.rec_.ch) s
  firstFit l e.rec_.ch e.ord (fitSteps l) (max e.actionTick (s.tick + 2))

/-- A time record past the checks of its fields. -/
def judgeTime (e : Ev) (s : State) : Verdict :=
  let l := podEvs (podOf e.rec_.ch) s
  let far := decide (nearLimit s.tick ≤ e.ball)
  if far && !chFits l e.rec_.ch e.ord e.actionTick then .refuse stChDense
  else if far && !podFits l e.ord e.actionTick then .refuse stPodDense
  else if slotsUsable s = 0 then .refuse stFull
  else if toFast e s && (decide (32 ≤ s.pod[podOf e.rec_.ch].fast.length) || (!far && decide (s.tick + 795 < nearFit e s))) then .wait
  else .take

/-- A position record: out of range of an axis that is not STOPPED (R145, R157). -/
def judgePos (r : Rec) (s : State) : Verdict :=
  let a := s.axis[r.axis]
  if !a.isStopped s.tick && posClass a.rev a.pos r.target == .range then .refuse stPosRange
  else if slotsUsable s = 0 then .refuse stFull
  else .take

/-- The checks of R157, in their order. -/
def judgeRec (r : Rec) (s : State) : Verdict :=
  if 9 ≤ r.dom.toNat then .refuse stBadDom
  else if !r.timed && decide (2 ^ 32 ≤ r.due) then .refuse stBadDue
  else if actReserved r.code then .refuse stBadAct
  else if r.rsv != 0 then .refuse stBadFlags
  else if badParam r.code r.param then .refuse stBadParam
  else if emulBusy r.ch s then .refuse stChBusy
  else if r.timed then judgeTime (timeEv r s) s
  else judgePos r s

/-! ### Filing (R158, R164 to R166, R172) -/

/-- A time record is accepted: late ones are counted, and it takes the fast lane, the wheel or the overflow area. -/
def State.acceptTime (r : Rec) (s : State) : State :=
  let e := timeEv r s
  let near := decide (e.ball < nearLimit s.tick)
  let fast := toFast e s
  let e := if fast && near && nearFit e s != e.actionTick then e.moveTo (nearFit e s) else e
  let s := s.when e.late (State.breach brLate)
  let (s, e) := s.markAmbig e
  let s := { s with cal := { s.cal with lateCnt := if e.late then s.cal.lateCnt.bump s.tick 1 0xFFFFFFFF else s.cal.lateCnt } }
  if fast then s.modPod (podOf r.ch) (fun q => { q with fast := q.fast ++ [e] })
  else if bucketOf e.ball ≤ s.tick / 512 + 65535 then { s with cal := { s.cal with wheel := s.cal.wheel ++ [e] } }
  else { s with cal := { s.cal with ovfl := s.cal.ovfl ++ [e] } }

/-- A position record is accepted and judged (R145). -/
def State.acceptPos (r : Rec) (s : State) : State :=
  let a := s.axis[r.axis]
  let e : Ev := { rec_ := r, ord := s.cal.ord, tAcc := s.tick, ball := 0, adv := 0 }
  let cls := posClass a.rev a.pos r.target
  let stopped := a.isStopped s.tick
  let s := { s with cal := { s.cal with pos := s.cal.pos ++ [{ ev := e, axis := r.axis, ahead := !stopped && cls == .ahead }] } }
  if stopped then s
  else match cls with
    | .behind => s.posBehind r.axis e
    | _ => s.keepHeads r.axis

/-- A record is accepted in the present tick (R158). -/
def State.acceptRec (r : Rec) (s : State) : State :=
  let s := if r.timed then s.acceptTime r else s.acceptPos r
  { s with cal := { s.cal with
      ord := s.cal.ord + 1, lastAcc := some s.tick, accCnt := s.cal.accCnt.bump s.tick 1 0xFFFFFFFF } }

/-! ### The commands that carry records (R159, R271) -/

/-- A CAL_WRITE or CAL_WRITE_DMA ends: its reply of R271. -/
def State.calFinish (b : CmdMbx) (status detail : Nat) (s : State) : State :=
  let j := s.mbx[cmdMbx b].cal
  let reply := leBytes 4 j.done ++ leBytes 4 (calFree s) ++ leBytes 8 (if j.done = 0 then 0 else j.first)
    ++ leBytes 8 (if j.done = 0 then 0 else j.last)
  (s.modMbx (cmdMbx b) (fun m => { m with cal := {} })).answer b status detail reply

/-- CAL_WRITE: its records go to the engine's input; a command without records is finished. -/
def State.calWrite (b : CmdMbx) (body : List Byte) (s : State) : State :=
  let n := u32 0 body
  let s := s.modMbx (cmdMbx b) (fun m => { m with cal := { recs := recsOf (body.drop 16) n, total := n, active := true } })
  if n = 0 then s.calFinish b stOk 0 else s

def execCalWrite (b : CmdMbx) (s : State) : Out :=
  .next (s.command b 0x20 (fun body s => if s.mbx[cmdMbx b].cal.active then s else s.calWrite b body))

/-- CAL_WRITE_DMA: DMA channel 0 fetches COUNT records from ADDR (R251, R271). The channel waits while its bus mastering is off or the function
is in D3hot (R250), or while it serves another mailbox. -/
def State.calWriteDma (b : CmdMbx) (body : List Byte) (s : State) : State :=
  let addr := u64 0 body
  let n := u32 8 body
  if addr % 16 != 0 then s.answer b stBadField 0 []
  else if n = 0 ∨ 16777216 < n then s.answer b stBadField 8 []
  else
    (s.modMbx (cmdMbx b) (fun m => { m with cal := { total := n, dma := true, addr := addr, active := true } }))

def execCalWriteDma (b : CmdMbx) (s : State) : Out :=
  .next (s.command b 0x21 (fun body s => if s.mbx[cmdMbx b].cal.active then s else s.calWriteDma b body))

/-- CAL_RECORD_ACCEPT: the engine takes the next record of mailbox b's command, at most one record in 8 ticks (R158); the first that fails ends
the command (R159); one that finds no place in the fast lane waits (R171). During a Watch restart only a record already in the engine input
goes on (R288): whether this one is there is free. [DESIGN CHOICE, log entry 38] -/
def State.calAccept (b : CmdMbx) (s : State) : State :=
  let j := s.mbx[cmdMbx b].cal
  let spaced := match s.cal.lastAcc with
    | none => true
    | some t => decide (t + 8 ≤ s.tick)
  match j.recs with
  | [] => s
  | w :: rest =>
    if !j.active || !spaced || s.pwr.mode != 0 then s
    else if s.fw.restarting && s.freeBit then s.used
    else
      let r := recOf w
      match judgeRec r s with
      | .wait => { s with cal := { s.cal with flags := s.cal.flags.raise s.tick (flag 4 true) } }
      | .refuse st =>
        let s := { s with cal := { s.cal with
          flags := s.cal.flags.raise s.tick (flag 5 true), refCnt := s.cal.refCnt.bump s.tick 1 0xFFFFFFFF } }
        s.calFinish b st (if st = stFull then 0 else j.done % 65536)
      | .take =>
        let lt := s.tick * 32
        let s := (s.acceptRec r).modMbx (cmdMbx b) (fun m => { m with cal := { j with
          recs := rest, done := j.done + 1, first := if j.done = 0 then lt else j.first, last := lt } })
        if j.done + 1 = j.total then s.calFinish b stOk 0 else s

def execCalRecordAccept (b : CmdMbx) (s : State) : Out := .next (s.calAccept b)

/-! ### Staging (R66, R67, R161, R166 to R170) -/

/-- Event a is earlier than event b on their channel: earlier DUE, or equal DUE and earlier SEQ (R32, R67, R175). -/
def dueEarlier (a b : Ev) : Bool :=
  if a.dueLt != b.dueLt then decide (a.dueLt < b.dueLt)
  else
    let d := (b.rec_.seq.toNat + 4096 - a.rec_.seq.toNat) % 4096
    if d = 0 ∨ d = 2048 then decide (a.ord < b.ord) else decide (d < 2048)

/-- The earlier events of its channel with the latest ball time (R67). -/
def prevBall (l : List Ev) (e : Ev) : Option Ev :=
  (l.filter (fun x => x.rec_.ch == e.rec_.ch && x.ord != e.ord && dueEarlier x e)).foldl
    (fun (r : Option Ev) x => match r with
      | none => some x
      | some y => if y.ball < x.ball then some x else some y) none

/-- An event enters its pod with the ball time it now has, `a0` the action tick it was judged with: held behind an earlier event (R67), and
where it has moved to the first action tick the limits allow (R161). -/
def holdEv (a0 : Nat) (e : Ev) (s : State) : Ev :=
  let l := podEvs (podOf e.rec_.ch) s
  let prev := prevBall l e
  let held := prev.any (fun x => decide (e.ball < x.ball))
  let a1 := if held then (prev.elim 0 Ev.actionTick) + 1 else e.actionTick
  let a2 := if a1 = a0 then a1 else firstFit l e.rec_.ch e.ord (fitSteps l) a1
  if held || a2 != a1 then
    { (e.moveTo a2) with late := true, advHeld := true, reason := if a2 != a1 then firstReason e.reason rsDense else e.reason }
  else e

/-- The flags of a held event (CHn_STAT.LATE_ANY and ADV_HELD). -/
def State.noteHeld (e : Ev) (was : Bool) (s : State) : State :=
  s.when (e.advHeld && !was) (State.chStat e.rec_.ch (flag 5 true ||| flag 7 true))

/-- One record of the wheel is staged; its slot is free (R164, R168). -/
def State.stageRec (e : Ev) (s : State) : State :=
  let f := e.refresh s
  let s := { s with cal := { s.cal with wheel := s.cal.wheel.filter (fun x => x.ord != e.ord) } }
  let f := holdEv e.actionTick f s
  let (s, f) := (s.noteHeld f e.advHeld).markAmbig f
  (s.freeSlots 1).stageEv f

/-- Every wheel record whose bucket is at most c + W − 1 is staged, in ball-time order; each pod checks its drain bound (R168, R170). [DEDUCED, log entry 43] -/
def State.stageDue (s : State) : State :=
  let last := s.tick / 512 + s.cal.win - 1
  let l := (s.cal.wheel.filter (fun e => decide (bucketOf (e.refresh s).ball ≤ last)))
  let s := forAll (sortBy (fun a b => decide (a.ball < b.ball)) l) State.stageRec s
  forAll allPods (fun p => State.drainCheck p last) s

/-- BUCKET_BOUNDARY: overflow records of bucket c + 65 535 move into the wheel, and bucket c + W − 1 is staged (R166, R168). Nothing is staged
outside RUN (R351). -/
def State.bucketBoundary (s : State) : State :=
  let c := s.tick / 512
  if s.pwr.mode != 0 || decide (c ≤ s.cal.bucket) then s
  else
    let near := s.cal.ovfl.filter (fun e => decide (bucketOf (e.refresh s).ball ≤ c + 65535))
    let far := s.cal.ovfl.filter (fun e => !decide (bucketOf (e.refresh s).ball ≤ c + 65535))
    ({ s with cal := { s.cal with bucket := c, wheel := s.cal.wheel ++ near, ovfl := far } } : State).stageDue

/-- [DESIGN CHOICE, log entry 2] -/
def execBucketBoundary (s : State) : Out := .next s.bucketBoundary

/-! ### HORIZON_SET (R167) -/

/-- The first bucket boundary at least 1024 ticks after the present tick. -/
def horizonBoundary (s : State) : Nat := (s.tick + 1024 + 511) / 512 * 512

def State.horizonSet (b : CmdMbx) (body : List Byte) (s : State) : State :=
  let h := u32 0 body
  let w := u32 4 body
  if w < 1 ∨ 16 < w ∨ h < (w + 2) * 512 ∨ h < 5120 ∨ 400000 < h then s.answer b stBadHorizon 0 []
  else
    let e := horizonBoundary s
    ({ s with cal := { s.cal with pendHW := s.cal.pendHW ++ [(e, h, w)] } } : State).answer b stOk 0 (leBytes 8 (e * 32))

def execHorizonSet (b : CmdMbx) (s : State) : Out := .next (s.command b 0x24 (State.horizonSet b))

/-- HORIZON_TAKE_EFFECT: the pair comes into force at its boundary; a wider window stages its extra buckets from it (R167). -/
def State.horizonTake (s : State) : State :=
  match (s.cal.pendHW.filter (fun x => decide (x.1 ≤ s.tick))).getLast? with
  | none => s
  | some (_, h, w) =>
    let s := { s with cal := { s.cal with
      horizon := h, win := w, pendHW := s.cal.pendHW.filter (fun x => decide (s.tick < x.1)) } }
    if s.pwr.mode = 0 then s.stageDue else s

def execHorizonTakeEffect (s : State) : Out := .next s.horizonTake

/-! ### CAL_CONFIG (R162, R208) -/

/-- The calendar holds no pending, staged or armed event. -/
def calEmpty (s : State) : Bool := s.cal.pos.isEmpty && allPods.all (fun p => (openEvs p s).isEmpty)

def State.calConfig (b : CmdMbx) (body : List Byte) (s : State) : State :=
  let m := u32 0 body
  let h := u32 4 body
  if 1 < m then s.answer b stBadField 0 []
  else if 1 < h then s.answer b stBadField 4 []
  else if !calEmpty s then s.answer b stBusy 0 []
  else
    let s := { s with cal := { s.cal with mirror := m == 1, freed := {} }, store := { s.store with calHalf := h == 1 } }
    s.answer b stOk 0 (leBytes 4 (calFree s))

def execCalConfig (b : CmdMbx) (s : State) : Out := .next (s.command b 0x23 (State.calConfig b))

/-! ### Cancellation (R176, R177, R273) -/

/-- The events a CAL_CANCEL names. -/
def cancelMatch (mode ch sel lo hi : Nat) (e : Ev) : Bool :=
  let r := e.rec_
  let inTime := r.timed && decide (lo ≤ r.due) && decide (r.due < hi)
  let inPos := !r.timed && r.axis.val == sel % 8 && decide ((r.due + 2 ^ 32 - lo) % 2 ^ 32 < (hi + 2 ^ 32 - lo) % 2 ^ 32)
  match mode with
  | 0 => r.ch.val == ch && r.seq.toNat == sel % 4096
  | 1 => r.ch.val == ch
  | 2 => r.ch.val == ch && inTime
  | 3 => inTime
  | 4 => r.ch.val == ch && inPos
  | _ => inPos

/-- The window of a CAL_CANCEL is refused (R28, R29, R177, R273). [DEDUCED, log entry 42] -/
def badWindow (mode lo hi : Nat) : Bool :=
  if mode = 2 ∨ mode = 3 then decide (hi ≤ lo)
  else if 4 ≤ mode then
    let span := (hi + 2 ^ 32 - lo % 2 ^ 32) % 2 ^ 32
    decide (2 ^ 32 ≤ lo) || decide (2 ^ 32 ≤ hi) || span == 0 || decide (2 ^ 30 ≤ span)
  else false

/-- How many events of l a predicate names. -/
def countIf {α : Type} (f : α → Bool) (l : List α) : Nat := (l.filter f).length

/-- The events that f names and that are not committed leave the calendar and the pods; the number removed and the number committed (R176). -/
def State.removeEvs (f : Ev → Bool) (s : State) : State × Nat × Nat :=
  let free (e : Ev) : Bool := f e && !e.committed
  let slots := countIf f s.cal.wheel + countIf f s.cal.ovfl + countIf (fun (x : PosEv) => f x.ev) s.cal.pos
    + (allPods.map (fun p => countIf free s.pod[p].fast)).sum
  let staged := (allPods.map (fun p => countIf free s.pod[p].staging + countIf free s.pod[p].spill)).sum
  let late := (allPods.map (fun p =>
    countIf (fun e => f e && e.committed) (s.pod[p].staging ++ s.pod[p].spill) + countIf f s.pod[p].commits
      + countIf f (armedEvs p s))).sum
  let s := { s with cal := { s.cal with
    wheel := s.cal.wheel.filter (fun e => !f e), ovfl := s.cal.ovfl.filter (fun e => !f e), pos := s.cal.pos.filter (fun x => !f x.ev) } }
  let s := forAll allPods (fun p => State.modPod p (fun q => { q with
    staging := q.staging.filter (fun e => !free e), spill := q.spill.filter (fun e => !free e), fast := q.fast.filter (fun e => !free e) })) s
  (s.freeSlots slots, slots + staged, late)

/-- CAL_CANCEL applies in the present tick T_c (R176, R273). [DEDUCED, log entry 42] -/
def State.calCancel (b : CmdMbx) (body : List Byte) (s : State) : State :=
  let mode := u32 0 body
  let ch := u32 4 body
  let sel := u32 8 body
  let lo := u64 16 body
  let hi := u64 24 body
  if 5 < mode then s.answer b stBadField 0 []
  else if (mode ≤ 2 ∨ mode = 4) ∧ 127 < ch then s.answer b stBadCh 0 []
  else if 4 ≤ mode ∧ 7 < sel then s.answer b stBadDom 0 []
  else if badWindow mode lo hi then s.answer b stBadWindow 0 []
  else
    let (s, n, late) := s.removeEvs (cancelMatch mode ch sel lo hi)
    let s := forAll allAxes State.keepHeads s
    s.answer b (if late = 0 then stOk else stTooLate) 0 (leBytes 4 n ++ leBytes 4 late ++ leBytes 8 (s.tick * 32))

def execCalCancel (b : CmdMbx) (s : State) : Out := .next (s.command b 0x22 (State.calCancel b))

end Sys2Proof.Machine
end

