-- ==== Sys2Proof/Machine/Pods.lean ====
section
/-!
DEFINITION. The pod sequencers (R168 to R173, R187 to R200, R387): arming, retiring, spilled captures, Pip feeders, pod lines, ring switches,
control-store repair.
-/
namespace Sys2Proof.Machine

/-! ### A dispatch (R190, R195, R199, R200, R387) -/

/-- A routine is dispatched and runs for at most `cclk` cycles. The waits, the cycles and the preemptions it reports are free within the
bounds (R387); single-bit errors its fetches find are corrected and counted (R199). [DESIGN CHOICE, log entry 44] -/
def State.dispatch (p : Pod) (top : Bool) (cclk : Nat) (f : Fetch) (s : State) : State :=
  let w := s.freeBelow (if top then 67 else 1025)
  let b := 1 + s.freeBelow cclk
  let t := s.tick
  (s.modPod p (fun q => { q with
    latTop := if top then q.latTop.peak t w else q.latTop
    latAny := q.latAny.peak t w
    busy := q.busy.bump t b 0xFFFFFFFF
    preempt := q.preempt.bump t (if s.freeBit then 1 else 0) 65535
    uc := { q.uc with
      ran := true
      corr := q.uc.corr ++ f.corr.map (fun a => a.val)
      flags := (q.uc.flags.raiseIf (!f.corr.isEmpty) t 1).raiseIf f.over_ t 4
      corrCnt := q.uc.corrCnt.bump t f.corr.length 65535 } })).used

/-! ### Arming (R169, R171, R173) -/

/-- A unit the pod may arm: not armed, not waiting, and with no match still to be applied (R57, R169). -/
def CmpUnit.free (u : CmpUnit) : Bool := !u.live && !u.shadow && !u.owner && u.hit.isNone

/-- The first free unit of a channel. -/
def freeUnit (n : Ch) (s : State) : Option Unit4 := (List.finRange 4).find? (fun u => s.ch[n].unit[u].free)

/-- The pod arms event e into unit u at the next boundary (R65, R156): from then on it is committed (R169). An arm on a channel being measured
abandons the measurement (R327). -/
def State.arm (u : Unit4) (e : Ev) (s : State) : State :=
  let n := e.rec_.ch
  let p := podOf n
  let e := { e with committed := true }
  let s := (s.measAbandon n).modPod p (fun q => { q with armedAt := s.tw })
  let s := s.when (decide (e.actionTick ≤ s.tw)) (State.modPod p (fun q => { q with armLate := q.armLate.bump s.tick 1 65535 }))
  s.commitUnit u e.set true (some e) n

/-- The order of the AXIS and FAST queue: action tick, then SEQ (R189). -/
def urgentBefore (l : List Ev) (a b : Ev) : Bool :=
  if a.actionTick != b.actionTick then decide (a.actionTick < b.actionTick) else evBefore l a b

/-- All four units of channel n hold events of its pod that come after e (R169). -/
def mayDisplace (e : Ev) (s : State) : Bool :=
  s.ch[e.rec_.ch].unit.all (fun u => u.ev.any (fun f => u.owner && evBefore [e, f] e f))

/-- The unit with the latest of the armed events. -/
def latestUnit (n : Ch) (s : State) : Option Unit4 :=
  (List.finRange 4).foldl (fun (r : Option Unit4) u =>
    match r, s.ch[n].unit[u].ev with
    | none, some _ => some u
    | some v, some e =>
      match s.ch[n].unit[v].ev with
      | some f => if evBefore [e, f] f e then some u else r
      | none => some u
    | r, none => r) none

/-- The latest armed event of a channel goes back to staging; it stays committed (R169). -/
def State.displace (u : Unit4) (n : Ch) (s : State) : State :=
  match s.ch[n].unit[u].ev with
  | none => s
  | some e =>
    let s := s.modCh n (Channel.modUnit u (CmpUnit.disarm s.tick))
    (s.modPod (podOf n) (fun q => { q with displaced := q.displaced.bump s.tick 1 65535 })).stageEv e

/-- An event of the fast lane or the commit path is armed, in place of a later one if need be, or waits in staging (R169). A channel in an abort
takes no arm (R279). -/
def State.armUrgent (e : Ev) (s : State) : State :=
  let n := e.rec_.ch
  if s.ch[n].aborted then s.stageEv e
  else
    match freeUnit n s with
    | some u => s.arm u e
    | none =>
      if mayDisplace e s then
        match latestUnit n s with
        | some u => (s.displace u n).arm u e
        | none => s.stageEv e
      else s.stageEv e

/-- A fast-lane record with a ball time near its acceptance gets its final ball time when it is armed at T_arm: no action tick before T_arm + 1, and
the density limits hold (R171). -/
def fastBall (e : Ev) (s : State) : Ev :=
  let own := e.rec_.due - e.adv
  if nearLimit e.tAcc ≤ own then e
  else
    let f : Ev := { e with ball := max own ((s.tw + 5) * 32 + own % 32) }
    let l := podEvs (podOf e.rec_.ch) s
    let a := firstFit l e.rec_.ch e.ord (fitSteps l) f.actionTick
    if a = f.actionTick then f else f.moveTo a

/-- ARM_FAST: the first of the pod's fast lane and commit path is armed, one event in a tick (R169, R171, R189). [DEDUCED, log entry 43] -/
def State.armFast (p : Pod) (s : State) : State :=
  let q := s.pod[p]
  let l := q.fast ++ q.commits
  if s.tw ≤ q.armedAt then s
  else
    match sortBy (urgentBefore l) l with
    | [] => s
    | e :: _ =>
      let lane := q.fast.any (fun x => x.ord == e.ord)
      let s := s.modPod p (fun q => { q with
        fast := q.fast.filter (fun x => x.ord != e.ord), commits := q.commits.filter (fun x => x.ord != e.ord) })
      let s := s.when lane (State.freeSlots 1)
      let f := if lane then fastBall e s else e
      let f := holdEv f.actionTick f s
      let (s, f) := (s.noteHeld f e.advHeld).markAmbig f
      let s := s.when lane (State.drainIf p f)
      s.armUrgent f

def execArmFast (p : Pod) (f : Fetch) (s : State) : Out := .next ((s.dispatch p true 17 f).armFast p)

/-- The staged event a channel arms next, where it may arm one (R169, R279). -/
def nextStaged (n : Ch) (s : State) : Option Ev :=
  let q := s.pod[podOf n]
  if s.ch[n].aborted || (freeUnit n s).isNone then none
  else (evSort ((q.staging ++ q.spill).filter (fun e => e.rec_.ch == n))).head?

/-- Of the channels that can arm, the one with the earliest action tick, then the lowest number. [DEDUCED, log entry 43] -/
def stagedPick (p : Pod) (s : State) : Option Ev :=
  ((bankChs p).filterMap (fun n => nextStaged n s)).foldl (fun (r : Option Ev) e =>
    match r with
    | none => some e
    | some x => if e.actionTick < x.actionTick then some e else r) none

/-- ARM_STAGE: one staged event of the pod is armed, one in a tick (R169, R194). [DEDUCED, log entry 43] -/
def State.armStage (p : Pod) (s : State) : State :=
  if s.tw ≤ s.pod[p].armedAt then s
  else
    match stagedPick p s with
    | none => s
    | some e =>
      match freeUnit e.rec_.ch s with
      | none => s
      | some u =>
        (s.modPod p (fun q => { q with
          staging := q.staging.filter (fun x => x.ord != e.ord), spill := q.spill.filter (fun x => x.ord != e.ord) })).arm u e

def execArmStage (p : Pod) (f : Fetch) (s : State) : Out := .next ((s.dispatch p false 33 f).armStage p)

def execRetire (p : Pod) (f : Fetch) (s : State) : Out := .next ((s.dispatch p false 17 f).retire p)

/-! ### Events kept from firing (R36, R163, R181, R280) -/

/-- An event whose DUE has come at boundary t. -/
def dueBy (t : Nat) (e : Ev) : Bool := decide (e.dueLt / 32 < t)

/-- The events of pod p in aborted channels whose DUE lies before boundary t are MISSED with ABORT; their slots and entries are freed. -/
def State.missAborted (p : Pod) (t : Nat) (s : State) : State :=
  let gone (e : Ev) : Bool := podOf e.rec_.ch == p && s.ch[e.rec_.ch].aborted && dueBy t (if e.committed then e else e.refresh s)
  let here (e : Ev) : Bool := podOf e.rec_.ch == p && s.ch[e.rec_.ch].aborted && dueBy t e
  let q := s.pod[p]
  let far := (s.cal.wheel ++ s.cal.ovfl).filter gone
  let near := (q.staging ++ q.spill ++ q.fast ++ q.commits).filter here
  let slots := far.length + (q.fast.filter here).length
  let s := { s with cal := { s.cal with
    wheel := s.cal.wheel.filter (fun e => !gone e), ovfl := s.cal.ovfl.filter (fun e => !gone e) } }
  let s := s.modPod p (fun q => { q with
    staging := q.staging.filter (fun e => !here e), spill := q.spill.filter (fun e => !here e)
    fast := q.fast.filter (fun e => !here e), commits := q.commits.filter (fun e => !here e)
    matched := q.matched ++ (far ++ near).map (fun e => { ev := e, x := e.dueLt, missed := some rsAbort }) })
  s.freeSlots slots

/-- Events lost to the store whose DUE has come by the present tick go to their records (R163). A position event has no LT to wait for. -/
def State.missLost (p : Pod) (s : State) : State :=
  let due (x : Ev × Nat) : Bool := podOf x.1.rec_.ch == p && decide (x.1.dueLt / 32 ≤ s.tick)
  let l := s.cal.missed.filter due
  let s := { s with cal := { s.cal with missed := s.cal.missed.filter (fun x => !due x) } }
  s.modPod p (fun q => { q with
    matched := q.matched ++ l.map (fun x => { ev := x.1, x := if x.1.rec_.timed then x.1.dueLt else x.1.rec_.due, missed := some x.2 }) })

/-- MISSED_AT_DUE: as LT reaches the DUE of an aborted or lost event its record is written (R181). -/
def State.missedAtDue (p : Pod) (s : State) : State := ((s.missAborted p (s.tick + 1)).missLost p).retire p

def execMissedAtDue (p : Pod) (s : State) : Out := .next (s.missedAtDue p)

/-! ### Spilled captures (R78 to R80, R211) -/

/-- The capture ring is full. -/
def CapRing.full (r : CapRing) : Bool := decide (2 ^ fld r.size 0 5 ≤ (r.wr - r.rd).toNat)

/-- The oldest spilled entry of a pod: entries go to the ring in the order they occur (R78, R211). [DEDUCED, log entry 45] -/
def oldestCap (l : List (Ch × CapE)) : Option (Ch × CapE) :=
  l.foldl (fun (r : Option (Ch × CapE)) x => match r with
    | none => some x
    | some y => if x.2.lt < y.2.lt then some x else r) none

/-- The first entry equal to x leaves the list. -/
def dropFirst (x : Ch × CapE) : List (Ch × CapE) → List (Ch × CapE)
  | [] => []
  | y :: r => if x = y then r else y :: dropFirst x r

/-- The next entry of channel n carries DROP_BEFORE. -/
def markDrop (n : Ch) : List (Ch × CapE) → List (Ch × CapE) × Bool
  | [] => ([], false)
  | (m, e) :: r =>
    if m = n then ((m, { e with flags := e.flags ||| 8 }) :: r, true)
    else let (l, b) := markDrop n r; ((m, e) :: l, b)

/-- CAP_SPILL: one spilled capture enters the pod's ring, or is dropped with RING_FULL where the ring is full; channels whose last spilled
entry the read pointer has passed leave SPILLING (R78, R79, R211). [DEDUCED, log entry 45] [DESIGN CHOICE, log entry 84] -/
def State.capSpill (p : Pod) (s : State) : State :=
  let s := forAll (bankChs p) (fun n => State.settleCaps s.tick n) s
  let q := s.pod[p]
  let r := s.store.ring[p]
  let s := match oldestCap q.capQ with
    | none => s
    | some (n, e) =>
      let rest := dropFirst (n, e) q.capQ
      if r.full then
        let (rest, marked) := markDrop n rest
        let s := s.modPod p (fun q => { q with capQ := rest })
        s.modCh n (fun c =>
          let k := c.cap.drop s.tick true
          { c with cap := { k with spillOut := k.spillOut - 1, dropBefore := if marked then c.cap.dropBefore else true } })
      else
        let at_ := r.base.toNat + 16 * (r.wr.toNat % 2 ^ fld r.size 0 5)
        let s := s.modPod p (fun q => { q with capQ := rest })
        let s := { s with store := { s.store.putWord at_ (e.bytes n (r.wr.toNat % 65536)) with
          ring := s.store.ring.set p.val { r with wr := r.wr + 1 } } }
        s.modCh n (fun c => { c with cap := { c.cap with spillOut := c.cap.spillOut - 1, lastSpill := some (r.wr + 1) } })
  forAll (bankChs p) State.settleSpill s

def execCapSpill (p : Pod) (s : State) : Out := .next ((s.dispatch p false 12 {}).capSpill p)

/-! ### Pip feeders (R197, R198) -/

/-- The feeder of channel n. -/
def feederOf (n : Ch) (s : State) : Feeder := s.pod[podOf n].feeder[(⟨n.val % 16, by omega⟩ : Fin 16)]

def State.modFeeder (n : Ch) (f : Feeder → Feeder) (s : State) : State :=
  s.modPod (podOf n) (fun q =>
    let i : Fin 16 := ⟨n.val % 16, by omega⟩
    { q with feeder := q.feeder.set i.val (f q.feeder[i]) })

def Feeder.feedLog (f : Feeder) : Nat := fld f.size 0 4
def Feeder.drnLog (f : Feeder) : Nat := fld f.size 8 4

/-- A refused feeder write, or a feeder word lost to the store (PODp_PF_ERR). -/
def State.pfErr (n : Ch) (s : State) : State :=
  s.modPod (podOf n) (fun q => { q with pfErr := q.pfErr.raise s.tick (flag (n.val % 16) true) })

/-- The store word at an offset is known to hold an uncorrectable error. -/
def Store.isBad (a : Nat) (x : Store) : Bool := x.bad.contains (a / 16 * 16)

/-- One word from the feed ring to TXF, while the conditions of R197 hold; a word lost to an uncorrectable error moves as 0 (R217). [DESIGN CHOICE, log entry 84] -/
def State.feedWord (n : Ch) (s : State) : State :=
  let f := feederOf n s
  let p := s.ch[n].pip
  if !p.txPod || decide (4 ≤ p.r.txf.length) || f.feedWr == f.feedRd || f.feedLog = 0 then s
  else
    let at_ := f.feedBase.toNat + 4 * (f.feedRd.toNat % 2 ^ f.feedLog)
    let lost := s.store.isBad at_
    let w : W := if lost then 0 else BitVec.ofNat 32 (leNat (memReads at_ 4 s.store.mem))
    let s := s.when lost (State.pfErr n)
    (s.modFeeder n (fun f => { f with feedRd := f.feedRd + 1 })).modPip n (fun p => p.modR (fun r => { r with txf := r.txf ++ [w] }))

/-- One word from RXF to the drain ring, while the conditions of R197 hold; a partial write of a word that is known to be bad is
discarded (R218). [DESIGN CHOICE, log entry 84] -/
def State.drainWord (n : Ch) (s : State) : State :=
  let f := feederOf n s
  let p := s.ch[n].pip
  if !p.rxPod || f.drnLog = 0 || decide (2 ^ f.drnLog ≤ (f.drnWr - f.drnRd).toNat) then s
  else
    match p.r.rxf with
    | [] => s
    | w :: r =>
      let at_ := f.drnBase.toNat + 4 * (f.drnWr.toNat % 2 ^ f.drnLog)
      let s := { s with store := { s.store with
        mem := if s.store.isBad at_ then s.store.mem else memWrites at_ (leBytes 4 w.toNat) s.store.mem } }
      (s.modFeeder n (fun f => { f with drnWr := f.drnWr + 1 })).modPip n (fun p => p.modR (fun x => { x with rxf := r }))

/-- PIP_XFER: up to four words of one channel in one direction (R194, R197); nothing moves in an abort or a freeze of the channel (R198). -/
def State.pipXfer (n : Ch) (drain : Bool) (s : State) : State :=
  let s := s.pipNow n
  if s.ch[n].aborted || s.ch[n].frz then s
  else forAll (List.range 4) (fun _ s => if drain then s.drainWord n else s.feedWord n) s

def execPipXfer (n : Ch) (drain : Bool) (s : State) : Out := .next ((s.dispatch (podOf n) false 10 {}).pipXfer n drain)

/-- FEED_WR moves forward by no more than the ring has room for (R198). -/
def State.writeFeedWr (n : Ch) (w : W) (s : State) : State :=
  let f := feederOf n s
  if (w - f.feedWr).toNat ≤ 2 ^ f.feedLog - (f.feedWr - f.feedRd).toNat then s.modFeeder n (fun f => { f with feedWr := w })
  else s.pfErr n

def execFeedWrWrite (n : Ch) (w : W) (s : State) : Out := .next (s.writeFeedWr n w)

/-- DRN_RD moves forward by no more than the words held (R198). -/
def State.writeDrnRd (n : Ch) (w : W) (s : State) : State :=
  let f := feederOf n s
  if (w - f.drnRd).toNat ≤ (f.drnWr - f.drnRd).toNat then s.modFeeder n (fun f => { f with drnRd := w }) else s.pfErr n

def execDrnRdWrite (n : Ch) (w : W) (s : State) : Out := .next (s.writeDrnRd n w)

/-- A ring of n bytes lies wholly inside segment S4 or S5. -/
def inS45 (base n : Nat) : Bool :=
  (decide (0x2000000 ≤ base) && decide (base + n ≤ 0x2800000)) || (decide (0x2800000 ≤ base) && decide (base + n ≤ 0x3000000))

/-- A ring of 2^log words at a base is allowed: off, or aligned and inside S4 or S5 (R198). [DEDUCED, log entry 46] -/
def feedRingOk (base : W) (log : Nat) : Bool := fld base 0 4 == 0 && (log == 0 || inS45 base.toNat (4 * 2 ^ log))

/-- FEED_LOG2 and DRN_LOG2 are 0 or 4 to 14. -/
def feedLogOk (v : Nat) : Bool := v == 0 || (decide (4 ≤ v) && decide (v ≤ 14))

/-- A write of a feeder's bases or sizes: only while PIP_CTRL.EN = 0, and only to an allowed ring (R198). [DEDUCED, log entry 46] -/
def State.writeFeeder (n : Ch) (which : Nat) (w : W) (s : State) : State :=
  let f := feederOf n s
  if bit s.ch[n].pip.ctrl 0 then s.pfErr n
  else match which with
    | 0 => if feedRingOk (w &&& 0x3FFFFFF) f.feedLog then s.modFeeder n (fun f => { f with feedBase := w &&& 0x3FFFFFF }) else s.pfErr n
    | 1 => if feedRingOk (w &&& 0x3FFFFFF) f.drnLog then s.modFeeder n (fun f => { f with drnBase := w &&& 0x3FFFFFF }) else s.pfErr n
    | _ =>
      let w := w &&& 0xF0F
      if feedLogOk (fld w 0 4) && feedLogOk (fld w 8 4) && feedRingOk f.feedBase (fld w 0 4) && feedRingOk f.drnBase (fld w 8 4)
      then s.modFeeder n (fun f => { f with size := w }) else s.pfErr n

/-! ### Pod lines (R194, PODp_PLINE_SEEN) -/

/-- PLINE: the oldest pod line raised is noted. -/
def State.pline (p : Pod) (s : State) : State :=
  match s.pod[p].plines with
  | [] => s
  | i :: r => s.modPod p (fun q => { q with plines := r, plineSeen := q.plineSeen.raise s.tick (flag (i % 8) true) })

def execPline (p : Pod) (s : State) : Out := .next ((s.dispatch p false 4 {}).pline p)

/-! ### Result rings set by command (R210, R275) -/

/-- Two byte ranges overlap. -/
def overlaps (a n b m : Nat) : Bool := decide (a < b + m) && decide (b < a + n)

/-- A result ring of pod p may lie at a store offset (R210). -/
def ringPlaceOk (p : Pod) (base n : Nat) (s : State) : Bool :=
  base % 16 == 0 && decide (0x2100000 ≤ base) && decide (base + n ≤ 0x2800000)
    && allPods.all (fun q =>
      let r := s.pod[q].res
      q == p || r.log2 == 0 || r.inHost || !overlaps base n r.base.toNat (16 * 2 ^ r.log2))
    && allPods.all (fun q => let r := s.store.ring[q]; !overlaps base n r.base.toNat (16 * 2 ^ fld r.size 0 5))

/-- RESULT_RING_SET: the placement is judged and handed to the pod's sequencer (R189, R210, R275). [DEDUCED, log entry 46] -/
def State.resultRingSet (b : CmdMbx) (body : List Byte) (s : State) : State :=
  let p := u32 0 body
  let l := u32 4 body
  let base := u64 8 body
  if 7 < p then s.answer b stBadField 0 []
  else if l ≠ 0 ∧ (l < 8 ∨ 20 < l) then s.answer b stBadField 4 []
  else
    let q : Pod := ⟨p % 8, by omega⟩
    if l ≠ 0 ∧ 2 ^ 63 ≤ base ∧ base % 16 ≠ 0 then s.answer b stBadField 8 []
    else if l ≠ 0 ∧ base < 2 ^ 63 ∧ !ringPlaceOk q base (16 * 2 ^ l) s then s.answer b stNoRoom 0 []
    else if s.pod[q].job.isSome then s
    else s.modPod q (fun x => { x with job := some (.ring b l (BitVec.ofNat 64 base)) })

def execResultRingSet (b : CmdMbx) (s : State) : Out := .next (s.command b 0x25 (State.resultRingSet b))

/-- CFG: the ring is switched between two records, its counts start at 0 and the backlog drains into it (R192, R275). -/
def State.cfgJob (p : Pod) (s : State) : State :=
  match s.pod[p].job with
  | none => s
  | some (.ring b l base) =>
    let r := s.pod[p].res
    let s := s.modPod p (fun q => { q with job := none, res := { q.res with base := base, log2 := l, wr := 0, rd := 0 } })
    (s.backlogDrain p).answer b stOk 0 (leBytes 4 r.wr.toNat ++ leBytes 4 r.rd.toNat ++ leBytes 8 (s.tick * 32))

def execCfg (p : Pod) (f : Fetch) (s : State) : Out := .next ((s.dispatch p false 96 f).cfgJob p)

/-! ### Control-store repair (R199) -/

/-- CS_REPAIR: an uncorrectable word is rewritten from its source and counted; what it holds does not change. -/
def execCsRepair (p : Pod) (a : Fin 4096) (s : State) : Out :=
  .next (s.modPod p (fun q => { q with uc := { q.uc with
    corr := q.uc.corr.filter (fun x => x != a.val)
    flags := q.uc.flags.raise s.tick 2, repCnt := q.uc.repCnt.bump s.tick 1 65535 } }))

/-- CS_BACKGROUND_PASS: every corrected word is rewritten. -/
def execCsBackgroundPass (p : Pod) (s : State) : Out :=
  .next (s.modPod p (fun q => { q with uc := { q.uc with corr := [] } }))

end Sys2Proof.Machine
end

