-- ==== Sys2Proof/Machine/Store.lean ====
section
/-!
DEFINITION. The central store (R206 to R226): arbitration, errors and scrubbing, mirror failover (R303), retention, the host windows, and the
capture rings' registers.
-/
namespace Sys2Proof.Machine

/-! ### Errors (R163, R217, R303) -/

/-- The device sets a flag of HLTH_SUM. -/
def State.hsum (i : Nat) (s : State) : State :=
  { s with health := { s.health with sum := s.health.sum.raise s.tick (flag i true) } }

/-- The segment of a store offset (R207). -/
def segOf (a : Nat) : Nat := a / 0x800000

/-- Segment g belongs to the calendar (R208). -/
def isCalSeg (g : Nat) (s : State) : Bool := (calSegs s).contains g

/-- The other copy of a word of a mirrored pair (R162). -/
def mirrorOf (a : Nat) : Nat := if segOf a % 2 = 0 then a + 0x800000 else a - 0x800000

/-- The pair of segment g has failed over (R303). -/
def pairFailed (g : Nat) (s : State) : Bool := bit s.health.mirror (g / 2)

/-- One second, in frac. -/
def oneSecond : Nat := 400000000 * 32

/-- An uncorrectable error in a segment of a mirrored pair is counted; the sixteenth within 1 s fails the pair over to its partner (R303). -/
def State.failOver (g : Nat) (s : State) : State :=
  let old := s.store.ues[(⟨g % 6, by omega⟩ : Fin 6)]
  let l := s.time.lt :: old.filter (fun t => decide (s.time.lt < t + oneSecond))
  let s := { s with store := { s.store with ues := s.store.ues.set (g % 6) l (by omega) } }
  if s.cal.mirror && isCalSeg g s && !pairFailed g s && decide (16 ≤ l.length) then
    ({ s with health := { s.health with
      mirror := s.health.mirror ||| flag (g / 2) true ||| flag (2 + g / 2) (g % 2 == 1) } }).notice 0 (leBytes 4 g)
  else s

/-- An uncorrectable error met by a store master at a word: its flags, address and master, its count, the health flags (R217, R306). -/
def State.ueSeen (master a : Nat) (flags : W) (s : State) : State :=
  let g := segOf a
  let s := { s with store := { s.store with
    errFlags := s.store.errFlags.raise s.tick flags
    errMaster := BitVec.ofNat 5 master, errAddr := BitVec.ofNat 32 (a / 16 * 16)
    ueCnt := s.store.ueCnt.bump s.tick 1 65535
    bad := a / 16 * 16 :: s.store.bad.filter (fun x => x != a / 16 * 16)
    corr := s.store.corr.filter (fun x => x != a / 16 * 16) } }
  ((s.hsum 8).when (isCalSeg g s) (State.hsum 9)).failOver g

/-- STO_ERR_STAT flags of an uncorrectable error: UE_RD, UE_WR, UE_SCRUB. -/
def ueRd : W := 2
def ueWr : W := 4
def ueScrub : W := 8

/-- A corrected error at a word (R217). -/
def State.ceSeen (a : Nat) (s : State) : State :=
  { s with store := { s.store with
    errFlags := s.store.errFlags.raise s.tick 1
    ceCnt := s.store.ceCnt.bump s.tick 1 65535
    corr := a / 16 * 16 :: s.store.corr.filter (fun x => x != a / 16 * 16) } }

/-- The word at an offset holds correct check bits again. -/
def State.wordGood (a : Nat) (s : State) : State :=
  { s with store := { s.store with
    bad := s.store.bad.filter (fun x => x != a / 16 * 16), corr := s.store.corr.filter (fun x => x != a / 16 * 16) } }

/-- The element of a list that a free value names. [DESIGN CHOICE, log entry 47] -/
def pickFree {α : Type} (l : List α) (s : State) : Option α := l[s.freeBelow (max 1 l.length)]?

/-- An event of the calendar is lost with its record: which one lay there is free. It is MISSED with STORE_ERR at its DUE (R163). [DESIGN CHOICE, log entry 47] -/
def State.loseRecord (s : State) : State :=
  let l := s.cal.wheel ++ s.cal.ovfl ++ s.cal.pos.map (fun x => x.ev)
  match pickFree l s with
  | none => s.used
  | some e =>
    let keep (x : Ev) : Bool := x.ord != e.ord
    let e' := if e.rec_.timed then e.refresh s else e
    ({ s.used with cal := { s.cal with
        wheel := s.cal.wheel.filter keep, ovfl := s.cal.ovfl.filter keep, pos := s.cal.pos.filter (fun x => keep x.ev)
        missed := s.cal.missed ++ [(e', rsStoreErr)]
        flags := s.cal.flags.raise s.tick 8, errCnt := s.cal.errCnt.bump s.tick 1 0xFFFFFFFF } }).freeSlots 1

/-- The calendar engine meets an uncorrectable error in one of its words: the mirror's copy repairs it, or the event is lost (R163); a word not in
use is written with zero (R219). `inUse` says that the word holds a record. [DEDUCED, log entry 48] [DEDUCED, log entry 71] -/
def State.calUe (a : Nat) (inUse : Bool) (s : State) : State :=
  let g := segOf a
  let fixable := s.cal.mirror && !pairFailed g s && !s.store.isBad (mirrorOf a)
  if !inUse then
    (({ s with store := { s.store with mem := memWrites (a / 16 * 16) (List.replicate 16 0) s.store.mem } }).wordGood a)
  else if fixable then
    ({ s with
      store := { s.store with mem := memWrites (a / 16 * 16) (memReads (mirrorOf a / 16 * 16) 16 s.store.mem) s.store.mem }
      cal := { s.cal with flags := s.cal.flags.raise s.tick 4, fixCnt := s.cal.fixCnt.bump s.tick 1 0xFFFFFFFF } }).wordGood a
  else s.loseRecord

/-- A staged event in the spill area of pod p is lost with its word: which one is free (R217). [DESIGN CHOICE, log entry 47] -/
def State.loseStaged (p : Pod) (s : State) : State :=
  match pickFree s.pod[p].spill s with
  | none => s.used
  | some e =>
    let s := s.used.modPod p (fun q => { q with spill := q.spill.filter (fun x => x.ord != e.ord) })
    { s with cal := { s.cal with missed := s.cal.missed ++ [(e, rsStoreErr)] } }

/-- The staging spill area (R209). -/
def inSpill (a : Nat) : Bool := decide (0x2080000 ≤ a) && decide (a < 0x2100000)

/-- What a master's read of a word with an uncorrectable error leads to (R217). [DESIGN CHOICE, log entry 47] -/
def State.ueOutcome (master a : Nat) (s : State) : State :=
  if master = 0 && isCalSeg (segOf a) s then s.calUe a true
  else if h : 1 ≤ master ∧ master ≤ 8 then s.when (inSpill a) (State.loseStaged ⟨master - 1, by omega⟩)
  else s

/-! ### One bank cycle (R207, R214 to R218) -/

def State.modArb (m : Fin 25) (f : ArbM → ArbM) (s : State) : State :=
  { s with store := { s.store with arb := s.store.arb.set m.val (f s.store.arb[m]) } }

/-- The bank of a store word (R207). -/
def bankOf (a : Nat) : Nat := 16 * (a / 0x800000) + a / 16 % 16

/-- A request the bank considers: of a word of this bank in an open segment, by a master that may access the segment (R213, R220). -/
def reqOk (bank : Fin 96) (s : State) (r : StoreReq) : Bool :=
  r.offset % 16 == 0 && bankOf r.offset == bank.val && segOpen (segOf r.offset) s
    && !(decide (18 ≤ r.master.val) && decide (r.master.val ≤ 21) && decide (segOf r.offset < 2))

/-- Request a is served before request b: guarded masters in the order in which they became guarded, then the lowest number (R214). -/
def reqBefore (s : State) (a b : StoreReq) : Bool :=
  match s.store.arb[a.master].guarded, s.store.arb[b.master].guarded with
  | some x, some y => if x ≠ y then decide (x < y) else decide (a.master < b.master)
  | some _, none => true
  | none, some _ => false
  | none, none => decide (a.master < b.master)

/-- A master loses an arbitrated cycle: its counts, and its guard after eight (R214, R216). -/
def State.loseTry (m : Fin 25) (s : State) : State :=
  s.modArb m (fun x => { x with
    conf := x.conf.bump s.tick 1 0xFFFFFFFF
    run := x.run + 1
    runMax := x.runMax.peak s.tick (min 63 (x.run + 1 + x.rmw))
    guarded := if x.guarded.isNone && decide (8 ≤ x.run + 1) then some s.store.cycle else x.guarded })

/-- A master waits through the second cycle of another's read-modify-write, which is not arbitrated. -/
def State.waitRmw (m : Fin 25) (s : State) : State :=
  s.modArb m (fun x => { x with rmw := x.rmw + 1, runMax := x.runMax.peak s.tick (min 63 (x.run + x.rmw + 1)) })

/-- The bytes of a word after a partial write. -/
def mergeWord (old : List Byte) (new : List (Option Byte)) : List Byte :=
  (List.range 16).map (fun i => ((new[i]?).getD none).getD (old[i]?.getD 0))

/-- Sixteen free bytes: what a word with an uncorrectable error reads as. [DESIGN CHOICE, log entry 47] -/
def freeWord (s : State) : List Byte := leBytes 16 (s.freeBelow (2 ^ 128))

/-- The granted access is made (R207, R217, R218). -/
def State.grant (r : StoreReq) (s : State) : State :=
  let a := r.offset
  let old := memReads a 16 s.store.mem
  let s := s.modArb r.master (fun x => { x with
    run := 0, rmw := 0, guarded := none
    guard := if x.guarded.isSome then x.guard.bump s.tick 1 255 else x.guard })
  match r.op with
  | .read =>
    match r.ecc with
    | .clean => s.modArb r.master (fun x => { x with rdata := old, rerr := false })
    | .single => (s.modArb r.master (fun x => { x with rdata := old, rerr := false })).ceSeen a
    | .double =>
      let s := s.modArb r.master (fun x => { x with rdata := freeWord s, rerr := true })
      (s.used.ueSeen r.master.val a ueRd).ueOutcome r.master.val a
  | .write d =>
    ({ s with store := { s.store with mem := memWrites a (mergeWord old (d.map some)) s.store.mem } }).wordGood a
  | .partialWrite bs =>
    let s := { s with store := { s.store with busy := (bankOf a, s.tick) :: s.store.busy } }
    match r.ecc with
    | .double => s.ueSeen r.master.val a ueWr
    | .single => (({ s with store := { s.store with mem := memWrites a (mergeWord old bs) s.store.mem } }).ceSeen a).wordGood a
    | .clean => { s with store := { s.store with mem := memWrites a (mergeWord old bs) s.store.mem } }

/-- The bank is held by the second cycle of a read-modify-write. -/
def bankBusy (bank : Nat) (s : State) : Bool := s.store.busy.any (fun x => x.1 == bank && decide (s.tick ≤ x.2 + 1))

/-- STORE_ACCESS: one cycle of one bank. [DESIGN CHOICE, log entry 84] -/
def State.storeAccess (bank : Fin 96) (reqs : List StoreReq) (s : State) : State :=
  let l := reqs.filter (reqOk bank s)
  let held := bankBusy bank.val s
  let s := { s with store := { s.store with cycle := s.store.cycle + 1, busy := s.store.busy.filter (fun x => x.1 != bank.val) } }
  if held then forAll l (fun r => State.waitRmw r.master) s
  else
    match sortBy (reqBefore s) l with
    | [] => s
    | w :: rest => (forAll rest (fun r => State.loseTry r.master) s).grant w

def execStoreAccess (bank : Fin 96) (reqs : List StoreReq) (s : State) : Out := .next (s.storeAccess bank reqs)

/-- CE_WRITEBACK: a corrected word is written back in a free cycle of its bank (R217). -/
def execCeWriteback (a : Nat) (s : State) : Out :=
  .next { s with store := { s.store with corr := s.store.corr.filter (fun x => x != a / 16 * 16) } }

/-! ### Scrubbing (R219) -/

/-- The scrubber reads a word with what its check finds. An uncorrectable error in a calendar segment is passed to the engine and sets no
UE_SCRUB. Whether a calendar word holds a record is free. [DEDUCED, log entry 71] -/
def State.scrubWord (a : Nat) (e : Ecc) (s : State) : State :=
  if !(decide (a < 0x3000000) && segOpen (segOf a) s) then s
  else match e with
    | .clean => s
    | .single => s.ceSeen a
    | .double =>
      if isCalSeg (segOf a) s then
        let use := slotsUsed s != 0 && s.freeBit
        (s.used.ueSeen 31 a 0).calUe a use
      else s.ueSeen 31 a ueScrub

/-- A pass begins: every word known to be in error, and those found in this pass, is read. -/
def State.scrubPass (found : List (Nat × Ecc)) (s : State) : State :=
  let known := (s.store.bad.filter (fun a => !(found.map (fun x => x.1 / 16 * 16)).contains a)).map (fun a => (a, Ecc.double))
  forAll (found ++ known) (fun x => State.scrubWord x.1 x.2) { s with store := { s.store with scrubbing := true } }

/-- SCRUB_PASS_START: a pass is due; one that finds the last still running sets LATE and starts when that one finishes (R219). -/
def execScrubPassStart (found : List (Nat × Ecc)) (s : State) : Out :=
  .next (if s.store.scrubbing then
      { s with store := { s.store with scrubLate := true, scrub := s.store.scrub.raise s.tick (flag 17 true) } }
    else s.scrubPass found)

/-- SCRUB_PASS_DONE. -/
def execScrubPassDone (s : State) : Out :=
  .next (if s.store.scrubbing then
      let late := s.store.scrubLate
      ({ s with store := { s.store with
        scrubbing := false, scrubLate := false, passCnt := s.store.passCnt + 1
        scrub := s.store.scrub.raise s.tick (flag 16 true) } }).when late (State.scrubPass [])
    else s)

/-! ### Retention (R220 to R222) -/

/-- A record slot of calendar segment g is in use: always where the records do not fit into the other segments, else a free value. [DEDUCED, log entry 71] -/
def segInUse (g : Nat) (s : State) : Bool :=
  let others := calCap { s with store := { s.store with transit := s.store.transit ||| BitVec.ofNat 6 (2 ^ g) } }
  slotsUsed s != 0 && (decide (others < slotsUsed s) || Config.freeBit (s.free + (if s.cal.mirror then g / 2 else g)))

/-- A ring of 2^log entries of a size at a base lies in segment g. -/
def ringIn (g : Nat) (base log : Nat) : Bool := log != 0 && segOf base == g

/-- A feeder ring of some channel lies in segment g (R221). -/
def feederIn (g : Nat) (s : State) : Bool :=
  s.pod.toList.any (fun q => q.feeder.toList.any (fun f =>
    ringIn g f.feedBase.toNat f.feedLog || ringIn g f.drnBase.toNat f.drnLog))

/-- A retention request for segment g is refused (R221). -/
def retainRefused (g : Nat) (s : State) : Bool :=
  if isCalSeg g s then segInUse g s
  else if g < 4 then false
  else if g = 4 then
    !calEmpty s || s.store.ring.toList.any (fun r => r.wr != r.rd)
      || s.ch.toList.any (fun c => fld c.cap.cfg 0 2 != 0 && c.cap.spillEn)
      || s.pod.toList.any (fun q => !q.res.inHost && ringIn 4 q.res.base.toNat q.res.log2)
      || feederIn 4 s
  else s.mbx.toList.any (fun m => m.busy && !bit m.postHi 31) || feederIn 5 s

/-- Set or clear bit g of a set of segments. -/
def segSet (g : Seg) (b : Bool) (v : BitVec 6) : BitVec 6 :=
  if b then v ||| BitVec.ofNat 6 (2 ^ g.val) else v &&& ~~~BitVec.ofNat 6 (2 ^ g.val)

/-- An accepted retention request closes the segment (R220); one for a retained segment changes nothing. -/
def Store.retain (g : Seg) (x : Store) : Store :=
  if x.retained.getLsbD g.val && !x.waking.getLsbD g.val then x
  else { x with transit := segSet g true x.transit, waking := segSet g false x.waking, retained := segSet g false x.retained }

/-- A wake request: taken now, or when the entry that runs completes; an awake segment is left as it is (R220). [DEDUCED, log entry 58] -/
def Store.wakeSeg (g : Seg) (x : Store) : Store :=
  if x.retained.getLsbD g.val || x.transit.getLsbD g.val then
    { x with transit := segSet g true x.transit, waking := segSet g true x.waking }
  else x

/-- All segments in a list, those of a mask. -/
def segsOf (v : Nat) : List Seg := (List.finRange 6).filter (fun g => v.testBit g.val)

/-- The answer of a STORE_RETAIN whose changes are complete. -/
def State.retainDone (j : RetJob) (s : State) : State :=
  s.answer j.b (if j.refused == 0 then stOk else stSegBusy) j.refused.toNat (leBytes 4 j.refused.toNat)

/-- Segment g has reached what was asked of it: commands that wait for nothing more are answered (R220). -/
def State.settleJobs (g : Seg) (s : State) : State :=
  let l := s.store.jobs.map (fun j => { j with wait := segSet g false j.wait })
  let s := { s with store := { s.store with jobs := l.filter (fun j => j.wait != 0) } }
  forAll (l.filter (fun j => j.wait == 0)) State.retainDone s

/-- Judge one segment of a retention request. -/
def State.retainOne (g : Seg) (r : State × BitVec 6) : State × BitVec 6 :=
  let (s, refused) := r
  if retainRefused g.val s then
    ({ s with store := { s.store with retFlags := s.store.retFlags.raise s.tick (flag 24 true) } }, segSet g true refused)
  else ({ s with store := s.store.retain g }, refused)

/-- STORE_RETAIN: each segment is judged separately; the reply waits for the changes that run (R220, R221). [DEDUCED, log entry 41] -/
def State.storeRetain (b : CmdMbx) (body : List Byte) (s : State) : State :=
  let r := u32 0 body
  let w := u32 4 body
  if s.store.jobs.any (fun j => j.b == b) then s
  else if 64 ≤ r then s.answer b stBadField 0 []
  else if 64 ≤ w then s.answer b stBadField 4 []
  else
    let (s, refused) := (segsOf r).foldl (fun a g => State.retainOne g a) (s, 0)
    let s := forAll (segsOf w) (fun g s => { s with store := s.store.wakeSeg g }) s.used
    let j : RetJob := { b := b, wait := s.store.transit &&& BitVec.ofNat 6 (r ||| w), refused := refused }
    if j.wait == 0 then s.retainDone j else { s with store := { s.store with jobs := s.store.jobs ++ [j] } }

def execStoreRetain (b : CmdMbx) (s : State) : Out := .next (s.command b 0x58 (State.storeRetain b))

/-- RETENTION_DONE: segment g is retained; a wake request that came meanwhile is taken now (R220). [DESIGN CHOICE, log entry 82] -/
def State.retentionDone (g : Seg) (s : State) : State :=
  let x := s.store
  if x.transit.getLsbD g.val && !x.retained.getLsbD g.val then
    let wake := x.waking.getLsbD g.val
    let s := { s with store := { x with retained := segSet g true x.retained, transit := segSet g wake x.transit } }
    s.when (!wake) (State.settleJobs g)
  else s

def execRetentionDone (g : Seg) (s : State) : Out := .next (s.retentionDone g)

/-! ### The host windows (R223, R225) -/

/-- Through a window an offset may be read. -/
def winReads (a : Nat) (s : State) : Bool := decide (a < 0x3000000) && !isCalSeg (segOf a) s

/-- Through a window an offset may be written. -/
def winWrites (a : Nat) (s : State) : Bool :=
  winReads a s && !inSpill a && !(decide (0x2800000 ≤ a) && decide (a < 0x2810000))

/-- A refused window access (R223). [DEDUCED, log entry 70] -/
def State.winErr (a : Nat) (qspi write : Bool) (s : State) : State :=
  { s with store := { s.store with
    errFlags := s.store.errFlags.raise s.tick (flag 4 true)
    winAddr := BitVec.ofNat 32 (a % 2 ^ 26) ||| flag 26 qspi ||| flag 27 write } }

/-- The words a list of offsets touches. -/
def wordsOf (as : List Nat) : List Nat := (as.map (fun a => a / 16 * 16)).dedup

/-- Bytes read through a window by a store master: refused ones read 0, those of a word with an uncorrectable error are free (R217, R223). -/
def State.winRead (m : Fin 25) (as : List Nat) (s : State) : State :=
  let ok := as.filter (fun a => winReads a s)
  let lost := (wordsOf ok).filter (fun a => s.store.isBad a)
  let fw := freeWord s
  let data := as.map (fun a =>
    if !winReads a s then 0 else if s.store.isBad a then fw.getD (a % 16) 0 else memRead a s.store.mem)
  let s := s.modArb m (fun x => { x with rdata := data, rerr := !lost.isEmpty })
  let s := s.when (!lost.isEmpty) State.used
  let s := forAll lost (fun a => State.ueSeen m.val a ueRd) s
  s.when (decide (ok.length < as.length)) (State.winErr (as.headD 0) (m == 23) false)

/-- Write one word's bytes through a window: a whole word ends an error, a part of a word with an uncorrectable error is discarded (R218). -/
def State.winWord (m : Fin 25) (cells : List (Nat × Byte)) (w : Nat) (s : State) : State :=
  let own := cells.filter (fun c => c.1 / 16 * 16 == w)
  if own.isEmpty then s
  else if own.length < 16 && s.store.isBad w then s.ueSeen m.val w ueWr
  else
    let s := { s with store := { s.store with mem := own.foldl (fun (mem : Memory) (c : Nat × Byte) => memWrite c.1 c.2 mem) s.store.mem } }
    s.when (decide (16 ≤ own.length)) (State.wordGood w)

/-- Bytes written through a window by a store master; refused ones are ignored (R223). -/
def State.winWrite (m : Fin 25) (cells : List (Nat × Byte)) (s : State) : State :=
  let ok := cells.filter (fun c => winWrites c.1 s)
  let bad := decide (ok.length < cells.length)
  let s := forAll (wordsOf (ok.map (fun c => c.1))) (State.winWord m ok) s
  s.when bad (State.winErr ((cells.headD (0, 0)).1) (m == 23) true)

/-- The offsets an access through BAR2 covers. -/
def winOffsets : WinAccess → List Nat
  | .read a n => (List.range n).map (fun i => a + i)
  | .write a bs => (List.range bs.length).map (fun i => a + i)

/-- The access made. -/
def State.winAccess (x : WinAccess) (s : State) : State :=
  match x with
  | .read _ _ => s.winRead 22 (winOffsets x)
  | .write a bs => s.winWrite 22 ((List.range bs.length).filterMap (fun i => ((bs[i]?).getD none).map (fun v => (a + i, v))))

/-- The segments of a list of offsets that are not open. -/
def closedSegs (as : List Nat) (s : State) : List Seg :=
  (List.finRange 6).filter (fun g => !segOpen g.val s && as.any (fun a => segOf a == g.val && winReads a s))

/-- An access wakes a retained segment (R222). -/
def State.autoWake (g : Seg) (s : State) : State :=
  if segOpen g.val s then s
  else { s with store := { s.store.wakeSeg g with retFlags := s.store.retFlags.raise s.tick (flag (16 + g.val) true) } }

/-- SEGMENT_AUTO_WAKE: an access by master m to a retained segment wakes it. Masters 17 to 24 stall so; the Watch cores reach S2 to S5 only
(R213, R222). -/
def execSegmentAutoWake (m : Fin 25) (g : Seg) (s : State) : Out :=
  .next (if 17 ≤ m.val && !(decide (18 ≤ m.val) && decide (m.val ≤ 21) && decide (g.val < 2)) then s.autoWake g else s)

/-- An access of the PCIe host: behind one that stalls it waits, else it is made, or wakes its segment and stalls (R222). -/
def State.hostAccess (x : WinAccess) (s : State) : State :=
  let closed := closedSegs (winOffsets x) s
  if !s.store.held.isEmpty || !closed.isEmpty then
    let s := { s with store := { s.store with held := s.store.held ++ [Instr.bar2Access x] } }
    forAll closed State.autoWake s
  else s.winAccess x

/-- Segment g is accessible again (R220). -/
def State.segmentAwake (g : Seg) (s : State) : State :=
  let x := s.store
  ({ s with store := { x with
    retained := segSet g false x.retained, transit := segSet g false x.transit, waking := segSet g false x.waking } } : State).settleJobs g

/-! ### Capture ring registers (R211, R212) -/

/-- CFG_ERR of the store controller. -/
def State.storeCfgErr (s : State) : State :=
  { s with store := { s.store with errFlags := s.store.errFlags.raise s.tick (flag 5 true) } }

/-- A write of STO_CAPp_RD; channels whose last spilled entry it passes may leave SPILLING (R78, R211). -/
def State.writeCapRd (p : Pod) (w : W) (s : State) : State :=
  let r := s.store.ring[p]
  if (w - r.rd).toNat ≤ (r.wr - r.rd).toNat then
    let s := { s with store := { s.store with ring := s.store.ring.set p.val { r with rd := w } } }
    forAll (bankChs p) State.settleSpill s
  else { s with store := { s.store with errFlags := s.store.errFlags.raise s.tick (flag 6 true) } }

def execCapRingRdWrite (p : Pod) (w : W) (s : State) : Out := .next (s.writeCapRd p w)

/-- A capture ring may lie at a base with 2^log entries (R212). -/
def capPlaceOk (base log : Nat) : Bool :=
  let n := 16 * 2 ^ log
  (decide (0x2000000 ≤ base) && decide (base + n ≤ 0x2080000)) || (decide (0x2100000 ≤ base) && decide (base + n ≤ 0x2800000))

/-- The capture ring of pod p is empty and no channel spills (R212). -/
def capIdle (p : Pod) (s : State) : Bool :=
  let r := s.store.ring[p]
  r.wr == r.rd && (bankChs p).all (fun n => !s.ch[n].cap.spilling)

/-- A write of STO_CAPp_BASE, or of STO_CAPp_SIZE, whose THR may be written at any time (R212). -/
def State.writeCapCfg (p : Pod) (size : Bool) (w : W) (s : State) : State :=
  let r := s.store.ring[p]
  let put_ (x : CapRing) (s : State) : State := { s with store := { s.store with ring := s.store.ring.set p.val x } }
  if size then
    let thr := if fld w 8 16 = 0 then 1 else fld w 8 16
    let r1 : CapRing := { r with size := ins r.size 8 16 (put 8 thr) }
    if fld w 0 5 = fld r.size 0 5 then put_ r1 s
    else if capIdle p s && decide (8 ≤ fld w 0 5) && decide (fld w 0 5 ≤ 16) && capPlaceOk r.base.toNat (fld w 0 5)
    then put_ { r1 with size := ins r1.size 0 5 w } s
    else (put_ r1 s).storeCfgErr
  else
    let b := w &&& 0x3FFFFF0
    if capIdle p s && capPlaceOk b.toNat (fld r.size 0 5) then put_ { r with base := b } s else s.storeCfgErr

def execCapRingConfigWrite (p : Pod) (size : Bool) (w : W) (s : State) : Out := .next (s.writeCapCfg p size w)

end Sys2Proof.Machine
end

