-- ==== Sys2Proof/Machine/Resilience.lean ====
section
/-!
DEFINITION. Recovery (R283 to R304): the Watch restart, refused accesses, the Keeper's watchdog, buoy shadowing and substitution, spare-pin
moves, and the cross-check of the LT counters.
-/
namespace Sys2Proof.Machine

/-! ### Watch restart (R285 to R289) -/

/-- The service firmware runs. -/
def fwRuns (s : State) : Bool := s.fw.ready && !s.fw.restarting && s.fw.state == 1

/-- The EIC targets of the Watch cores are reset at the start of a restart (R246). -/
def resetWatchTgts (t : Vector Target 7) : Vector Target 7 :=
  t.mapFinIdx (fun i x _ => if 1 ≤ i ∧ i ≤ 4 then { x with stack := [], thr := 15, offered := none } else x)

/-- Locks held by the masters 2 to 5 are released (R258, R286). -/
def releaseWatchLocks (v : Vector Mailbox 32) : Vector Mailbox 32 :=
  v.map (fun m => if 2 ≤ m.owner ∧ m.owner ≤ 5 then { m with owner := 0 } else m)

/-- The delay of a restart that begins within 1 s of the completion of the one before, in ms (R289). -/
def nextDelay (f : Firmware) (lt : Nat) : Nat :=
  match f.lastDone with
  | none => 0
  | some d => if d + oneSecond < lt then 0 else if f.delay = 0 then 40 else min 1280 (2 * f.delay)

/-- RESTART_BEGIN: the Watch cores are halted (R285, R286, R288). A trigger during a restart adds nothing; one that comes while the Keeper
reboots waits for it (R291). [DEDUCED, log entry 72] -/
def State.restartBegin (cause : BitVec 4) (core : BitVec 3) (s : State) : State :=
  if s.fw.restarting || !s.fw.keeperUp then s
  else
    let d := nextDelay s.fw s.time.lt
    let s := { s with
      fw := { s.fw with
        restarting := true, state := 2, cause := cause, slow := false, core := core, rstLt := s.time.lt
        beat := 0, viols := [], digestOk := false, delay := d, delayed := d != 0 }
      mbx := releaseWatchLocks s.mbx
      eic := { s.eic with tgt := resetWatchTgts s.eic.tgt }
      sur := { s.sur with running := false, edgeLt := 0 } }
    (s.hsum 3).notice 7 []

/-- WATCH_RESTART: with the right KEY the command is journalled with its reply, and the Keeper restarts the cores (R276). [DEDUCED, log entry 72] -/
def State.watchRestart (b : CmdMbx) (body : List Byte) (s : State) : State :=
  if u32 0 body ≠ 0x57525354 then s.answer b stBadField 0 []
  else if !s.fw.keeperUp then s
  else (s.answer b stOk 0 (leBytes 8 s.time.lt)).restartBegin 3 0

def execWatchRestart (b : CmdMbx) (s : State) : Out := .next (s.command b 0x03 (State.watchRestart b))

/-- A Watch core access to a resource the table denies: it has no effect but its record; more than 16 in one second restart the cores (R284). -/
def State.watchViol (core : Fin 4) (store : Bool) (addr : Nat) (s : State) : State :=
  let l := s.time.lt :: s.fw.viols.filter (fun t => decide (s.time.lt < t + oneSecond))
  let s := { (s.hsum 14) with
    health := { (s.hsum 14).health with viol := BitVec.ofNat 32 (addr % 2 ^ 24) ||| flag 24 store ||| put 25 (core.val + 1) }
    fw := { s.fw with viols := l } }
  s.when (decide (16 < l.length) && s.fw.ready) (State.restartBegin 4 (BitVec.ofNat 3 (core.val + 1)))

def execWatchViolation (core : Fin 4) (store : Bool) (addr : Nat) (s : State) : Out := .next (s.watchViol core store addr)

/-- HEARTBEAT_WRITE: FW_ALIVE advances once in a millisecond in which all four cores write (R285). -/
def State.heartbeat (core : Fin 4) (s : State) : State :=
  if !fwRuns s then s
  else
    let ms := s.tick / 400000
    let old := if s.fw.beatMs = ms then s.fw.beat else 0
    let new := old ||| BitVec.ofNat 4 (2 ^ core.val)
    { s with fw := { s.fw with
      beat := new, beatMs := ms, lastBeat := s.fw.lastBeat.set core.val s.tick
      alive := if new == 0xF && old != 0xF then s.fw.alive + 1 else s.fw.alive } }

def execHeartbeatWrite (core : Fin 4) (s : State) : Out := .next (s.heartbeat core)

/-- HEARTBEAT_TIMEOUT: a core has written none for 5 ms. -/
def execHeartbeatTimeout (core : Fin 4) (s : State) : Out :=
  .next (if fwRuns s && decide (s.fw.lastBeat[core] + 2000000 ≤ s.tick)
    then s.restartBegin 1 (BitVec.ofNat 3 (core.val + 1)) else s)

def execWatchCoreFault (core : Fin 4) (s : State) : Out :=
  .next (if fwRuns s then s.restartBegin 2 (BitVec.ofNat 3 (core.val + 1)) else s)

/-- CODE_DIGEST_CHECK: a code region that does not match is loaded again from the flash, or the restart fails for good (R286, R287). [DEDUCED, log entry 72] -/
def State.digestCheck (ok flashOk : Bool) (s : State) : State :=
  if !(s.fw.restarting && s.fw.state == 2 && s.fw.keeperUp) then s
  else if ok then { s with fw := { s.fw with digestOk := true } }
  else if flashOk then { s with fw := { s.fw with digestOk := true, slow := true } }
  else ({ s with fw := { s.fw with state := 4, slow := true } }).hsum 12

def execCodeDigestCheck (ok flashOk : Bool) (s : State) : Out := .next (s.digestCheck ok flashOk)

/-- RESTART_DELAY_END: the delay of R289 has passed. -/
def execRestartDelayEnd (s : State) : Out :=
  .next (if s.fw.delayed && decide (s.fw.rstLt + s.fw.delay * 400000 * 32 ≤ s.time.lt)
    then { s with fw := { s.fw with delayed := false } } else s)

/-- RESTART_COMPLETE: the first heartbeat after a restart ends it (R286). [DESIGN CHOICE, log entry 82] -/
def State.restartComplete (s : State) : State :=
  if s.fw.restarting && s.fw.state == 2 && s.fw.digestOk && !s.fw.delayed && s.fw.keeperUp then
    let s := { s with fw := { s.fw with
      restarting := false, state := 1, restarts := min 65535 (s.fw.restarts + 1), lastDone := some s.time.lt
      dur := min 65535 ((s.time.lt - s.fw.rstLt) / (40000 * 32))
      lastBeat := Vector.replicate 4 s.tick } }
    (s.hsum 4).notice 7 []
  else s

def execRestartComplete (s : State) : Out := .next s.restartComplete

/-- KEEPER_WATCHDOG: the Keeper alone restarts; what it was carrying out begins again after its reboot (R291). -/
def execKeeperWatchdog (s : State) : Out :=
  .next { s with fw := { s.fw with keeperUp := false, cause := 5, core := 0, rstLt := s.time.lt } }

/-! ### Buoy shadowing (R292, R293, R297) -/

/-- No unit acts as buoy. -/
def noBuoy : Nat := 31

/-- A pod has no buoy (HLTH_PODp_SH.DEGRADED). [DEDUCED, log entry 50] -/
def PodHealth.degraded (h : PodHealth) : Bool := h.buoy == noBuoy

/-- A new shadow period is due: it begins with a self-test of the buoy (R292, R297). -/
def PodHealth.goOn (h : PodHealth) : PodHealth :=
  if h.shadowEn && !h.degraded && !h.spacing && !h.testing && !h.shadowing && h.suspect.isNone && h.takeover.isNone
  then { h with testing := true } else h

/-- The buoy of pod p is free again after what kept it: the next period begins unless a step for the pod still waits. -/
def State.shadowOn (p : Pod) (s : State) : State :=
  if s.pod[p].substReq.isNone then s.modHealth p PodHealth.goOn else s

/-- A channel may be shadowed: enabled, not frozen, not aborted (R292). -/
def mayShadow (n : Ch) (s : State) : Bool := s.ch[n].en && !s.ch[n].frz && !s.ch[n].aborted

/-- The next channel of the rotation that may be shadowed. -/
def nextShadow (p : Pod) (s : State) : Option Ch :=
  ((List.range 16).map (fun i => chOf p (s.health.pod[p].rot + i))).find? (fun n => mayShadow n s)

def State.askSubst (p : Pod) (k : SubstKind) (s : State) : State := s.modPod p (fun q => { q with substReq := some k })

/-- BUOY_SELF_TEST_DONE: a buoy that fails is retired (R292). -/
def State.buoyTest (p : Pod) (pass : Bool) (s : State) : State :=
  let h := s.health.pod[p]
  if !(h.testing && h.suspect.isNone) then s
  else if pass then (s.modHealth p (fun h => { h with testing := false })).askSubst p .shadowStart
  else s.modHealth p (fun h => { h with
    testing := false, retired := h.retired ||| BitVec.ofNat 17 (2 ^ h.buoy), buoy := noBuoy, evt := h.evt.raise s.tick (flag 5 true) })

def execBuoySelfTestDone (p : Pod) (pass : Bool) (s : State) : Out := .next (s.buoyTest p pass)

/-- SHADOW_PERIOD_END: the period has run its 1 ms (R292). -/
def execShadowPeriodEnd (p : Pod) (s : State) : Out :=
  .next (if s.health.pod[p].shadowing && s.health.pod[p].takeover.isNone then
      (s.modHealth p (fun h => { h with shadowing := false, shadows := h.shadows.bump s.tick 1 255 })).shadowOn p
    else s)

/-- A shadow period of channel n ends early: the channel is frozen or aborted (R292). A takeover named for it waits (R298). -/
def State.endShadow (n : Ch) (s : State) : State :=
  let p := podOf n
  let h := s.health.pod[p]
  if h.shadowing && h.shadowCh == n.val % 16 && h.takeover.isNone
  then (s.modHealth p (fun h => { h with shadowing := false })).shadowOn p else s

/-! ### Substitution (R294 to R298) -/

/-- SHADOW_MISMATCH: the unit and the buoy differ. `output` says that the first difference is one of output, `ts` is the boundary at which
the pipelines of both agree and `forced` that there is none within the bound. -/
def State.shadowMismatch (p : Pod) (output forced : Bool) (ts : Nat) (s : State) : State :=
  let h := s.health.pod[p]
  if !h.shadowing || h.takeover.isSome then s
  else
    let n := chOf p h.shadowCh
    let s := s.modHealth p (fun h => { h with evt := h.evt.raise s.tick 1, mism := h.mism.bump s.tick 1 255, mismLt := s.time.lt })
    if h.autoSubst then
      let t := if forced then s.tick + 400000 else max (s.tick + 640) (min ts (s.tick + 400000))
      (s.modHealth p (fun h => { h with takeover := some (t, output), evt := h.evt.raiseIf forced s.tick 4 })).askSubst p .takeover
    else
      ((s.notice 1 (leBytes 4 n.val ++ leBytes 8 s.time.lt)).modHealth p (fun h => { h with shadowing := false })).shadowOn p

def execShadowMismatch (p : Pod) (output forced : Bool) (ts : Nat) (s : State) : Out := .next (s.shadowMismatch p output forced ts)

/-- The switch word moves the channel to the buoy at its boundary T_s, or at the first boundary after an abort, a freeze or a reboot of the Keeper
that kept it waiting (R294, R298). The buoy carries the channel's own state on, so the channel record does not change (R89). [DEDUCED, log entry 50] -/
def State.takeover (p : Pod) (s : State) : State :=
  let h := s.health.pod[p]
  let n := chOf p h.shadowCh
  match h.takeover with
  | none => s.modPod p (fun q => { q with substReq := none })
  | some (ts, output) =>
    if decide (s.tw < ts) || s.ch[n].aborted || s.ch[n].frz || !s.fw.keeperUp then s
    else
      let i : Fin 16 := ⟨h.shadowCh % 16, by omega⟩
      let old := h.unitOf[i]
      let s := s.modHealth p (fun h => { h with
        shadowing := false, takeover := none, unitOf := h.unitOf.set i.val h.buoy, suspect := some old, buoy := noBuoy
        spacing := true, lastTs := s.tw * 32
        evt := h.evt.raise s.tick 2, takes := h.takes.bump s.tick 1 255, rot := (h.shadowCh + 1) % 16 })
      let s := (s.modCh n (fun c => { c with subst := true })).hsum 5
      let s := s.notice 1 (leBytes 4 n.val ++ leBytes 4 old ++ leBytes 4 h.buoy ++ leBytes 8 h.mismLt ++ leBytes 8 (s.tw * 32)
        ++ leBytes 4 (if output then 1 else 0))
      s.askSubst p .quarantineTest

/-- SUBST_STEP: one substitution step (R194). [DEDUCED, log entry 50] -/
def State.substStep (p : Pod) (s : State) : State :=
  match s.pod[p].substReq with
  | none => s
  | some .shadowStart =>
    let h := s.health.pod[p]
    if !h.shadowEn || h.degraded then s.modPod p (fun q => { q with substReq := none })
    else
      match nextShadow p s with
      | none => s
      | some n =>
        (s.modPod p (fun q => { q with substReq := none })).modHealth p (fun h => { h with
          shadowing := true, shadowCh := n.val % 16, rot := (n.val + 1) % 16 })
  | some .takeover => s.takeover p
  | some .quarantineTest =>
    (s.modPod p (fun q => { q with substReq := none })).modHealth p (fun h => { h with testing := true })
  | some .buoyReturn =>
    ((s.modPod p (fun q => { q with substReq := none })).modHealth p (fun h => { h with
      buoy := h.suspect.getD h.buoy, suspect := none, evt := h.evt.raise s.tick 8 })).shadowOn p

def execSubstStep (p : Pod) (s : State) : Out := .next ((s.dispatch p false 112 {}).substStep p)

/-- QUARANTINE_TEST_DONE: the suspect unit becomes the buoy, or is retired (R296). -/
def State.quarantineDone (p : Pod) (pass : Bool) (s : State) : State :=
  let h := s.health.pod[p]
  match h.suspect with
  | none => s
  | some u =>
    if !h.testing then s
    else if pass then (s.modHealth p (fun h => { h with testing := false })).askSubst p .buoyReturn
    else s.modHealth p (fun h => { h with
      testing := false, suspect := none, retired := h.retired ||| BitVec.ofNat 17 (2 ^ u), evt := h.evt.raise s.tick (flag 4 true) })

def execQuarantineTestDone (p : Pod) (pass : Bool) (s : State) : Out := .next (s.quarantineDone p pass)

/-- TAKEOVER_SPACING_END: 10 ms after T_s shadowing may go on (R297). -/
def execTakeoverSpacingEnd (p : Pod) (s : State) : Out :=
  .next (if s.health.pod[p].spacing && decide (s.health.pod[p].lastTs / 32 + 4000000 ≤ s.tick)
    then (s.modHealth p (fun h => { h with spacing := false })).shadowOn p else s)

/-! ### Spare-pin moves (R299, R300, R385) -/

/-- The next boundary lies outside the readback mask of every edge, and no edge of the channel falls in the 8 ticks from it (R299). -/
def quietAt (n : Ch) (s : State) : Bool :=
  let c := s.ch[n]
  !c.masked s.tw && !c.masked s.tick
    && c.out.pipe.all (fun e => !(decide (s.tick ≤ e.x / 32) && decide (e.x / 32 ≤ s.tw + 7)))

/-- The channel senses another comparator from the next boundary on; readback starts afresh there. -/
def State.sense (spare : Bool) (level : Bool) (n : Ch) (s : State) : State :=
  (s.modCh n (fun c => { c with
    spare := spare, rb := { c.rb with consec := 0, bad := false, since := s.tw }, fault := c.fault.drop 1 })).crossPin (s.tw * 32) level n

/-- SPARE_MOVE: the channel moves to SPBp (R299). -/
def State.spareMove (n : Ch) (s : State) : State :=
  let p := podOf n
  let h := s.health.pod[p]
  if h.named && h.spareCh == n.val % 16 && h.substPin && h.spareOn.isNone && s.ch[n].fault.get 1 && s.fw.keeperUp && quietAt n s then
    let s := s.sense true h.spb.raw n
    let s := s.modHealth p (fun h => { h with
      spareOn := some (n.val % 16), lastTs := s.tw * 32, evt := h.evt.raise s.tick (flag 6 true) })
    (s.hsum 6).notice 1 (leBytes 4 n.val ++ leBytes 8 (s.tw * 32))
  else s

def execSpareMove (n : Ch) (s : State) : Out := .next (s.spareMove n)

/-- The policy asks for the channel on the spare pin to go back (R300). -/
def backAsked (h : PodHealth) : Bool :=
  h.spareOn.isSome && (!h.substPin || !h.named || h.spareOn != some h.spareCh)

/-- SPARE_MOVE_BACK. -/
def State.spareBack (n : Ch) (s : State) : State :=
  let p := podOf n
  let h := s.health.pod[p]
  if h.spareOn == some (n.val % 16) && backAsked h && s.fw.keeperUp && quietAt n s then
    let s := s.sense false s.ch[n].ownPin n
    let s := s.modHealth p (fun h => { h with
      spareOn := none, lastTs := s.tw * 32, evt := h.evt.raise s.tick (flag 7 true) })
    (s.hsum 6).notice 1 (leBytes 4 n.val ++ leBytes 8 (s.tw * 32))
  else s

def execSpareMoveBack (n : Ch) (s : State) : Out := .next (s.spareBack n)

/-! ### SUBST_POLICY (R268, R292, R300) -/

/-- Byte p of SPARE_CH names a bank channel, or none. -/
def spareByteOk (v : Nat) : Bool := decide (v < 16) || v == 255

/-- The policy of one pod. -/
def PodHealth.policy (flags spare : Nat) (h : PodHealth) : PodHealth :=
  let en := flags.testBit 0
  { h with
    shadowEn := en, autoSubst := flags.testBit 1, substPin := flags.testBit 2
    shadowing := h.shadowing && (en || h.takeover.isSome)
    named := spare != 255, spareCh := if spare = 255 then 0 else spare % 16 }

/-- [DEDUCED, log entry 41] -/
def State.substPolicy (b : CmdMbx) (body : List Byte) (s : State) : State :=
  let m := u32 0 body
  let f := u32 4 body
  let spare (p : Pod) : Nat := leAt (8 + p.val) 1 body
  if 256 ≤ m then s.answer b stBadField 0 []
  else if 8 ≤ f then s.answer b stBadField 4 []
  else
    match allPods.find? (fun p => m.testBit p.val && !spareByteOk (spare p)) with
    | some p => s.answer b stBadField (8 + p.val) []
    | none =>
      let s := forAll (allPods.filter (fun p => m.testBit p.val))
        (fun p s => (s.modHealth p (PodHealth.policy f (spare p))).shadowOn p) s
      s.answer b stOk 0 []

def execSubstPolicy (b : CmdMbx) (s : State) : Out := .next (s.command b 0x40 (State.substPolicy b))

/-! ### Time base (R301) -/

/-- LT_XCHK_CORRECT: the two counters differ; LT as used is the projection, which both hold again (R301). -/
def execLtXchkCorrect (a b : Nat) (s : State) : Out :=
  .next (if a = s.time.lt ∧ b = s.time.lt then s
    else { s with
      time := { s.time with ctrA := s.time.lt, ctrB := s.time.lt, flags := s.time.flags.raise s.tick (flag 6 true) }
      health := { s.health with xchk := s.health.xchk.bump s.tick 1 65535 } })

end Sys2Proof.Machine
end

