-- ==== Sys2Proof/Machine/Eic.lean ====
section
/-!
DEFINITION. The event interrupt controller (R227 to R246): the lines of the blocks, pending bits, the delivery decision, claims, hold-off, wake
requests and messages to the host.
-/
namespace Sys2Proof.Machine

/-! ### The condition of each line -/

/-- HLTH_SUM as read: the flags, and the bits that follow a condition (R306). -/
def hlthSum (s : State) : W :=
  (s.health.sum.bits &&& 0xD379)
    ||| flag 1 (s.guar.flags.bits &&& breachMask != 0)
    ||| flag 2 (s.time.degraded || s.time.flags.get 6)
    ||| flag 7 (s.health.pod.toList.any PodHealth.degraded || fld s.health.mirror 0 2 != 0)
    ||| flag 10 (s.sur.sup != 0)
    ||| flag 11 s.sur.temp
    ||| flag 13 (s.ch.toList.any (fun c => c.fault.get 1))

/-- ALERT_n is low: while an enabled health bit is set, while FREQ_DEGRADED, and from the start of the core reset until the Keeper has read the
fuses (R305, R344). -/
def alertLow (s : State) : Bool := (hlthSum s &&& s.health.alertEn != 0) || s.time.degraded || s.boot.alert

/-- The Pip line (R115). -/
def pipLine (p : Pip) : Bool :=
  (p.irq.get 0 && bit p.ie 4) || (p.irq.get 1 && bit p.ie 5) || (p.err.bits != 0 && bit p.ie 6)

/-- The compare line: one tick high at a match, its tick the present one (R88). -/
def cmpHigh (t : Nat) (c : Channel) : Bool := c.cmpLine == some t

/-- The capture line (R88). -/
def capHigh (c : Channel) : Bool := bit c.irqEn 1 && decide (max 1 (fld c.cap.cfg 3 4) ≤ c.cap.queue.length)

/-- The fault line (R88). -/
def faultHigh (c : Channel) : Bool :=
  (c.fault.get 1 && bit c.irqEn 2) || ((c.cap.flags.get 4 || c.cap.flags.get 6) && bit c.irqEn 3)
    || (c.stat.get 0 && bit c.irqEn 4) || (c.stat.get 5 && bit c.irqEn 5)

/-- Line k of a channel. -/
def chLine (t k : Nat) (c : Channel) : Bool :=
  match k with
  | 0 => cmpHigh t c
  | 1 => capHigh c
  | 2 => pipLine c.pip
  | _ => faultHigh c

/-- Line j of an axis (R154). -/
def axLine (j : Nat) (a : Axis) : Bool :=
  bit a.irqEn j && match j with
    | 0 => a.evt.get 0 || a.evt.get 1
    | 5 => a.err.bits != 0 || a.emul.flags.get 2 || a.emul.flags.get 3
    | 1 => a.evt.get 2
    | 2 => a.evt.get 3
    | 3 => a.evt.get 4
    | 4 => a.evt.get 5
    | 6 => a.evt.get 6
    | _ => a.evt.get 7

/-- Line j of a converter slice (R321). -/
def adcLine (j : Nat) (x : AdcSlice) : Bool :=
  bit x.irqEn j && match j with
    | 0 => x.new.val != 0
    | 1 => x.stat.get 3 || x.stat.get 4
    | 2 => x.ovr || x.flags.getLsbD 1
    | _ => x.stat.get 5

/-- Line j of the spare group (R321). -/
def adcSpareLine (j : Nat) (a : Adc) : Bool :=
  bit a.ctrl (2 + j) && a.flags.get (match j with | 0 => 8 | 1 => 9 | 2 => 10 | _ => 12)

/-- Line j of a pod (R186, R205). -/
def podLine (j : Nat) (q : PodSt) : Bool :=
  match j with
  | 0 => !q.spill.isEmpty
  | 1 => decide (q.res.thr.toNat ≤ (q.res.wr - q.res.rd).toNat) || !q.res.backlog.isEmpty
  | 2 => (bit q.irqEn 0 && (q.uc.flags.get 0 || q.uc.flags.get 1)) || (bit q.irqEn 1 && q.uc.flags.get 2)
    || (bit q.irqEn 2 && q.pfErr.bits != 0)
  | _ => fld q.plineSeen.bits 0 8 &&& fld q.irqEn 8 8 != 0

/-- STO_CAP_PEND (R226). -/
def capPend (s : State) : W :=
  allPods.foldl (fun w p =>
    let r := s.store.ring[p]
    w ||| flag p.val (decide (fld r.size 8 16 ≤ (r.wr - r.rd).toNat)) ||| flag (8 + p.val) r.full) 0

/-- Line j of the store (R226). -/
def storeLine (j : Nat) (s : State) : Bool :=
  let x := s.store
  bit x.irqEn j && match j with
    | 0 => x.errFlags.get 0
    | 1 => x.errFlags.get 1 || x.errFlags.get 2 || x.errFlags.get 3
    | 2 => x.scrub.get 16 || x.scrub.get 17
    | 3 => x.retFlags.bits != 0
    | 4 => x.errFlags.get 4 || x.errFlags.get 5 || x.errFlags.get 6
    | 5 => fld (capPend s) 0 8 != 0
    | 6 => fld (capPend s) 8 8 != 0
    | _ => false

/-- Line j of the health and abort group (R228, R306). -/
def healthLine (j : Nat) (s : State) : Bool :=
  match j with
  | 0 => s.abort.flags.get 0
  | 1 => s.abort.safeLow
  | 2 => s.fw.restarting
  | 3 => s.health.sum.get 4
  | 4 => s.health.pod.toList.any (fun h => h.evt.get 1)
  | 5 => s.health.pod.toList.any (fun h => h.evt.get 6)
  | 6 => s.time.degraded
  | 7 => s.time.flags.get 6
  | 8 => s.sur.sup != 0
  | 9 => s.sur.temp
  | 10 => s.guar.flags.bits &&& breachMask != 0
  | 11 => alertLow s
  | 12 => s.health.sum.get 12
  | 13 => s.health.sum.get 9
  | 14 => s.health.sum.get 15
  | _ => false

/-- The line of a source (R227). -/
def line (s : State) (i : Src) : Bool :=
  let v := i.val
  if v < 512 then chLine s.tick (v % 4) s.ch[(⟨v / 4 % 128, by omega⟩ : Ch)]
  else if v < 576 then axLine (v % 8) s.axis[(⟨v / 8 % 8, by omega⟩ : Ax)]
  else if v < 592 then adcLine (v % 4) s.adc.slice[(⟨v / 4 % 4, by omega⟩ : Slice)]
  else if v < 596 then adcSpareLine (v % 4) s.adc
  else if 600 ≤ v ∧ v < 632 then podLine (v % 4) s.pod[(⟨(v - 600) / 4 % 8, by omega⟩ : Pod)]
  else if 640 ≤ v ∧ v < 648 then storeLine (v - 640) s
  else if 704 ≤ v ∧ v < 736 then
    let m := s.mbx[(⟨(v - 704) % 32, by omega⟩ : Mbx)]
    m.flags.get 1 && bit m.irqEn 0
  else if 768 ≤ v ∧ v < 783 then healthLine (v - 768) s
  else false

/-! ### The delivery decision (R231, R232, R237, R240, R241) -/

/-- The group of a source. -/
def grpOf (i : Src) : Grp := ⟨i.val / 32, by omega⟩

def srcLevelOf (w : W) : Nat := fld w 0 4
def srcMask (w : W) : Nat := fld w 8 7
def srcVec (w : W) : Nat := fld w 16 5
def balanced (g : Group) : Bool := bit g.cfg 0
def allTgts : List Tgt := List.finRange 7

/-- RUN of a target (R231). -/
def Target.run (t : Target) : Nat := t.stack.headD 0

/-- The pending sources, in ascending number. -/
def pendList (e : Eic) : List Src :=
  (List.finRange 32).flatMap (fun g =>
    if e.pend.extractLsb' (32 * g.val) 32 == 0#32 then []
    else (List.finRange 32).filterMap (fun i =>
      if e.pend.getLsbD (32 * g.val + i.val) then some (⟨32 * g.val + i.val, by omega⟩ : Src) else none))

/-- A target is asleep (R240). [DESIGN CHOICE, log entry 83] -/
def asleep (t : Tgt) (s : State) : Bool :=
  match t.val with
  | 5 => s.eic.tgt[t].sleep || s.pcie.d3hot || !s.pcie.up || s.pcie.perst
  | 6 => s.eic.tgt[t].sleep
  | _ => s.eic.tgt[t].core

/-- The hold-off of a group runs (R238). -/
def holding (g : Grp) (s : State) : Bool := s.eic.grp[g].hold.any (fun e => decide (s.tick < e))

/-- Source i passes the level test of target t (R231). -/
def levelOk (i : Src) (t : Tgt) (s : State) : Bool :=
  let l := srcLevelOf s.eic.src[i]
  let x := s.eic.tgt[t]
  decide (x.thr.toNat < l) && decide (x.run < l)

/-- The mask of source i holds target t. -/
def inMask (i : Src) (t : Tgt) (s : State) : Bool := (srcMask s.eic.src[i]).testBit t.val

/-- The candidates of a BALANCE source (R237). -/
def candidates (i : Src) (s : State) : List Tgt := allTgts.filter (fun t => inMask i t s && !asleep t s && levelOk i t s)

/-- The target a BALANCE source is chosen for: the standing one while it is a candidate, else the candidate of lowest RUN (R237). -/
def chooseFor (i : Src) (s : State) : Option Tgt :=
  let l := candidates i s
  match l.find? (fun t => s.eic.choice.contains (i.val, t.val)) with
  | some t => some t
  | none => l.foldl (fun (r : Option Tgt) t => match r with
      | none => some t
      | some u => if s.eic.tgt[t].run < s.eic.tgt[u].run then some t else some u) none

/-- The choices made at this decision. -/
def choices (s : State) : List (Nat × Nat) :=
  (pendList s.eic).filterMap (fun i =>
    if balanced s.eic.grp[grpOf i] then (chooseFor i s).map (fun t => (i.val, t.val)) else none)

/-- Source i is routed to target t. -/
def routed (i : Src) (t : Tgt) (s : State) : Bool :=
  if balanced s.eic.grp[grpOf i] then s.eic.choice.contains (i.val, t.val) else inMask i t s

/-- Source i is eligible for target t (R231). -/
def eligible (i : Src) (t : Tgt) (s : State) : Bool :=
  levelOk i t s && routed i t s && !asleep t s && !holding (grpOf i) s

/-- The source target t is offered, those of `gone` left out: highest level, then lowest number (R232). -/
def offerTo (t : Tgt) (gone : List Src) (s : State) : Option Src :=
  ((pendList s.eic).filter (fun i => eligible i t s && !gone.contains i)).foldl (fun (r : Option Src) i => match r with
    | none => some i
    | some j => if srcLevelOf s.eic.src[j] < srcLevelOf s.eic.src[i] then some i else some j) none

/-- Source i asks for a wake of target t: every target of its mask is asleep, t is the lowest, and the level test of one of them is passed (R240). -/
def wakes (i : Src) (t : Tgt) (s : State) : Bool :=
  let m := allTgts.filter (fun t => inMask i t s)
  m.head? == some t && m.all (fun u => asleep u s) && m.any (fun u => levelOk i u s)

/-- A message of vector v goes to the host: MSI-X unless masked, or MSI (R241). [DESIGN CHOICE, log entry 61] -/
def State.message (v : Nat) (s : State) : State :=
  let i : Fin 32 := ⟨v % 32, by omega⟩
  if s.pcie.msix then
    if bit s.eic.msix[i].ctrl 0 then { s with eic := { s.eic with pba := s.eic.pba ||| flag i.val true } }
    else { s with eic := { s.eic with sent := i.val :: s.eic.sent } }
  else match s.pcie.msi with
    | some k => { s with eic := { s.eic with sent := i.val % 2 ^ k :: s.eic.sent } }
    | none => s

/-- The wake request of target t after this decision: a new one sets WAKE_REQ, wakes a core, and sends a PME for the host (R240). [DEDUCED, log entry 51] -/
def State.wakeReq (t : Tgt) (s : State) : State :=
  let want := (pendList s.eic).any (fun i => wakes i t s)
  let x := s.eic.tgt[t]
  let new := want && !x.wake
  let s := s.modTgt t (fun x => { x with
    wake := want, flags := x.flags.raiseIf new s.tick 4, core := if new then false else x.core })
  if new && t == 5 && s.pcie.pmeEn then { s with eic := { s.eic with pme := true } } else s

/-- The delivery decision (R232): choices, offers, wake requests, and the message of a change at H. [DESIGN CHOICE, log entry 52] -/
def State.deliver (s : State) : State :=
  let before := s.eic.tgt[(5 : Tgt)].offered
  let s := { s with eic := { s.eic with choice := choices s } }
  let s := forAll allTgts State.wakeReq s
  let s0 := s
  let s := forAll allTgts (fun t => State.modTgt t (fun x => { x with offered := (offerTo t [] s0).map (fun i => i.val) })) s
  let now := offerTo 5 [] s0
  match now with
  | none => s
  | some i => if before == some i.val then s else s.message (srcVec s.eic.src[i])

/-! ### Pending bits (R229, R230) -/

/-- The bit of a source. -/
def srcBit (i : Src) : BitVec 1024 := BitVec.ofNat 1024 (2 ^ i.val)

/-- An edge of a source: its bit is set, or the edge is counted as coalesced. -/
def State.srcEdge (i : Src) (s : State) : State :=
  let e := s.eic
  let old := decide (e.stamp = s.tick)
  let had := e.pend.getLsbD i.val
  let s := { s with eic := { e with
    pend := e.pend ||| srcBit i, stamp := s.tick
    fresh := (if old then e.fresh else 0) ||| (if had then 0 else srcBit i)
    again := (if old then e.again else 0) ||| (if had then srcBit i else 0) } }
  s.when had (State.modGrp (grpOf i) (fun g => { g with coalesce := g.coalesce.bump s.tick 1 255 }))

/-- EIC_LINE_EDGE: the line of source i is looked at; a rise since the last look is an edge (R229). -/
def State.lineEdge (i : Src) (s : State) : State :=
  let l := line s i
  let was := s.eic.prev.getLsbD i.val
  let s := { s with eic := { s.eic with prev := if l then s.eic.prev ||| srcBit i else s.eic.prev &&& ~~~srcBit i } }
  (s.when (l && !was) (State.srcEdge i)).deliver

def execEicLineEdge (i : Src) (s : State) : Out := .next (s.lineEdge i)

/-- CFG_ERR of the EIC. -/
def State.eicCfgErr (s : State) : State := { s with eic := { s.eic with flags := s.eic.flags.raise s.tick 1 } }

/-- A group is locked against a master (R245). -/
def lockedFor (m : Master) (g : Grp) (s : State) : Bool := bit s.eic.grp[g].cfg 1 && m != .keeper

/-- The sources a word of group g names. -/
def srcsOf (g : Grp) (w : W) : List Src :=
  (List.finRange 32).filterMap (fun i => if bit w i.val then some (⟨32 * g.val + i.val, by omega⟩ : Src) else none)

/-- A write of EIC_PSETg: software's own edges (R229, R230). -/
def State.writePset (m : Master) (g : Grp) (w : W) (s : State) : State :=
  if lockedFor m g s then s.eicCfgErr else (forAll (srcsOf g w) State.srcEdge s).deliver

def execEicPsetWrite (m : Master) (g : Grp) (w : W) (s : State) : Out := .next (s.access m (.eicPsetWrite m g w) (State.writePset m g w))

/-- A W1C write of EIC_PENDg; a bit set in the same tick stays (R5, R229). -/
def State.clearPend (m : Master) (g : Grp) (w : W) (s : State) : State :=
  if lockedFor m g s then s.eicCfgErr
  else
    let e := s.eic
    let kept := if e.stamp = s.tick then e.fresh ||| e.again else 0
    let c : BitVec 1024 := (w.setWidth 1024) <<< (32 * g.val)
    ({ s with eic := { e with pend := e.pend &&& ~~~(c &&& ~~~kept) } }).deliver

def execEicPendClear (m : Master) (g : Grp) (w : W) (s : State) : Out := .next (s.access m (.eicPendClear m g w) (State.clearPend m g w))

/-! ### Claim and end of interrupt (R233 to R236, R244) -/

/-- The owner of a target (R232). -/
def owns (m : Master) (t : Tgt) : Bool := m.idx.val == t.val

/-- SPURIOUS alone. [DEDUCED, log entry 51] -/
def claimNone : W := 0x8000

/-- OWN_ERR of a target; the debug master's reads set none (R244). -/
def State.ownErr (m : Master) (t : Tgt) (s : State) : State :=
  s.when (m != .debug) (State.modTgt t (fun x => { x with flags := x.flags.raise s.tick (flag 4 true) }))

/-- The effect of a claim that returns source i. An edge of this tick that found the bit set keeps it set (R229, R233, R238). [DEDUCED, log entry 51] -/
def State.claimed (m : Master) (t : Tgt) (i : Src) (s : State) : State :=
  let e := s.eic
  let keep := decide (e.stamp = s.tick) && e.again.getLsbD i.val
  let s := s.when (!keep) (fun s => { s with eic := { s.eic with pend := s.eic.pend &&& ~~~srcBit i } })
  let s := s.modTgt t (fun x => { x with stack := srcLevelOf e.src[i] :: x.stack })
  let h := fld e.grp[grpOf i].cfg 16 16
  let s := s.when (h != 0) (State.modGrp (grpOf i) (fun g => { g with hold := some (s.tick + h * 512) }))
  s.ret m (BitVec.ofNat 32 i.val)

/-- The claims of one boundary, lowest target first; s0 is the state of the decision (R234). -/
def claimAll (s0 : State) : List (Master × Tgt) → List Src → State → State
  | [], _, s => s
  | (m, t) :: r, gone, s =>
    if !owns m t then claimAll s0 r gone ((s.ret m claimNone).ownErr m t)
    else
      match offerTo t gone s0 with
      | some i => claimAll s0 r (i :: gone) (s.claimed m t i)
      | none => claimAll s0 r gone
          ((s.ret m claimNone).modTgt t (fun x => { x with spur := x.spur.bump s.tick 1 255 }))

/-- CLAIM: every read of TGTt_CLAIM that one boundary executes (R233, R234). [DEDUCED, log entry 51] -/
def State.claim (reads : List (Master × Tgt)) (s : State) : State :=
  let s := s.deliver
  let l := sortBy (fun a b => decide (a.2 < b.2)) reads
  (claimAll s l [] s).deliver

def execClaim (reads : List (Master × Tgt)) (s : State) : Out :=
  let made := reads.filter (fun r => reaches r.1 s)
  let s := forAll reads (fun r => State.access r.1 (.claim [r]) id) s
  .next (s.claim made)

/-- EOI: the running level is popped, and the decision of the same boundary uses what is below (R235). -/
def State.eoi (m : Master) (t : Tgt) (s : State) : State :=
  if !owns m t then s.ownErr m t
  else match s.eic.tgt[t].stack with
    | [] => s.modTgt t (fun x => { x with flags := x.flags.raise s.tick 8 })
    | _ :: r => (s.modTgt t (fun x => { x with stack := r })).deliver

def execEoi (m : Master) (t : Tgt) (s : State) : Out := .next (s.access m (.eoi m t) (State.eoi m t))

/-- HOLDOFF_EXPIRE (R238). -/
def execHoldoffExpire (g : Grp) (s : State) : Out :=
  .next (if holding g s then s else (s.modGrp g (fun x => { x with hold := none })).deliver)

/-! ### Configuration (R239, R241, R244, R245) -/

/-- A write of EIC_SRCs_CFG: TMASK bit 0 is the Keeper's, and in a locked group others change only TMASK and VEC (R245). -/
def State.writeSrc (m : Master) (i : Src) (w : W) (s : State) : State :=
  let old := s.eic.src[i]
  let w := w &&& 0x1F7F0F
  let w := if m == .keeper then w else ins w 8 1 old
  let w := if lockedFor m (grpOf i) s then ins w 0 4 old else w
  ({ s with eic := { s.eic with src := s.eic.src.set i.val w } }).deliver

def execSrcCfgWrite (m : Master) (i : Src) (w : W) (s : State) : Out := .next (s.access m (.srcCfgWrite m i w) (State.writeSrc m i w))

/-- GROUP_LOCK: set by the Keeper only, until reset (R245); a Watch core is refused it (R283, R284). -/
def State.groupLock (m : Master) (g : Grp) (s : State) : State :=
  if m == .keeper then s.modGrp g (fun x => { x with cfg := x.cfg ||| 2 })
  else match m.watch with
    | some c => s.watchViol c false (0x20100 + 4 * g.val)
    | none => s

def execGroupLock (m : Master) (g : Grp) (s : State) : Out := .next (s.access m (.groupLock m g) (State.groupLock m g))

/-- A write of EIC_GRPg_CFG (R237, R238, R245). -/
def State.writeGrp (m : Master) (g : Grp) (w : W) (s : State) : State :=
  if lockedFor m g s then s.eicCfgErr
  else
    let s := s.when (bit w 1) (State.groupLock m g)
    (s.modGrp g (fun x => { x with cfg := (w &&& 0xFFFF0001) ||| (x.cfg &&& 2) })).deliver

/-- A write of a target's THR or CTL by its owner (R240, R244). -/
def State.writeTgt (m : Master) (t : Tgt) (ctl : Bool) (w : W) (s : State) : State :=
  if !owns m t then s.ownErr m t
  else if ctl then
    (if 5 ≤ t.val then (s.modTgt t (fun x => { x with sleep := bit w 0 })).deliver else s)
  else (s.modTgt t (fun x => { x with thr := BitVec.ofNat 4 (fld w 0 4) })).deliver

/-- MSIX_UNMASK: a message that waited is sent if H is still offered a source of its vector (R241). -/
def State.msixUnmask (v : Fin 32) (s : State) : State :=
  let x := s.eic.msix[v]
  let waits := bit s.eic.pba v.val
  let s := { s with eic := { s.eic with
    msix := s.eic.msix.set v.val { x with ctrl := x.ctrl &&& ~~~1#32 }, pba := s.eic.pba &&& ~~~(flag v.val true) } }
  let still := match s.eic.tgt[(5 : Tgt)].offered with
    | some i => if h : i < 1024 then srcVec s.eic.src[(⟨i, h⟩ : Src)] == v.val else false
    | none => false
  s.when (waits && still && s.pcie.msix) (State.message v.val)

def execMsixUnmask (v : Fin 32) (s : State) : Out := .next (s.msixUnmask v)

/-- IRQ0_n and IRQ1_n are low (R242). -/
def irq0Low (s : State) : Bool := s.eic.tgt[(6 : Tgt)].offered.isSome || s.eic.tgt[(6 : Tgt)].wake
def irq1Low (s : State) : Bool :=
  match s.eic.tgt[(6 : Tgt)].offered with
  | some i => fld s.eic.qCfg 0 4 != 0 &&
      (if h : i < 1024 then decide (fld s.eic.qCfg 0 4 ≤ srcLevelOf s.eic.src[(⟨i, h⟩ : Src)]) else false)
  | none => false

end Sys2Proof.Machine
end

