-- ==== Sys2Proof/Machine/Abort.lean ====
section
/-!
DEFINITION. Abort, release and purge (R36, R68, R69, R277 to R282), the Keeper's reboot (R291), and the freeze and thaw of a channel (R86, R87).
-/
namespace Sys2Proof.Machine

/-! ### What an abort does to a channel (R69, R144, R279) -/

/-- The channel's own part: to SAFE from tick `safe`, units and reflex disarmed, trains ended. A SAFE_n fall also cuts the edges on their way. [DEDUCED, log entry 43] [DEDUCED, log entry 85] -/
def Channel.abort (t safe : Nat) (cut : Bool) (c : Channel) : Channel :=
  let c1 := (c.settleMerge 0).endTrain t false
  let c2 : Channel := { c1 with
    aborted := true
    safeFrom := if c.aborted then min c.safeFrom safe else safe
    unit := c1.unit.map (fun u => { u with live := false, shadow := false, owner := false, ev := none, hit := none })
    rfx := { c1.rfx with armed := false, pend := [] } }
  if cut then c2.cutPipe c2.safeIntended else c2

/-- The events the pod has armed on a channel go back to staging (R193, R279). [DEDUCED, log entry 43] -/
def State.unarm (n : Ch) (s : State) : State := forAll (s.ch[n].unit.toList.filterMap (fun u => u.ev)) State.stageEv s

/-- An emulator that drives channel n halts (R144). [DEDUCED, log entry 85] -/
def State.haltEmul (n : Ch) (s : State) : State :=
  forAll (allAxes.filter (fun k => s.axis[k].emul.run && (emulChs s.axis[k]).contains n))
    (fun k => State.modAxis k (fun a => { a with emul := { a.emul.stop with flags := a.emul.flags.raise s.tick 8 } })) s

/-- An abort takes effect on channel n at the next boundary, T_a. [DEDUCED, log entry 85] -/
def State.abortCh (safe : Nat) (cut : Bool) (n : Ch) (s : State) : State :=
  let s := (s.applyMatches n).unarm n
  let s := ((s.pipHalt s.tw 3 false true n).haltEmul n).measStop n
  (s.modCh n (Channel.abort s.tw safe cut)).endShadow n

/-- An abort of a scope takes effect: its channels, the guarantee's breach, the LT of T_a (R69, R277, R279). -/
def State.abortScope (scope : List Ch) (safe : Nat) (cut : Bool) (s : State) : State :=
  let s := forAll scope (State.abortCh safe cut) s
  let s := s.breach brAbort
  { s with abort := { s.abort with lt := s.tw * 32, going := s.abort.going + 1 } }

/-! ### Release and purge (R69, R281, R282) -/

/-- A channel shows SAFE until its first action, which starts from the level that gives SAFE at the ball (R69). [DEDUCED, log entry 36] -/
def Channel.release (c : Channel) : Channel :=
  let l := c.safeIntended
  if c.aborted then
    let c1 := c.cutPipe l
    { c1 with aborted := false, safeHold := true, safeEnd := none, out := { c1.out with level := l, pip := none, train := .none } }
  else c

/-- Every event of channel n still in the calendar or staged is removed; their number, and the slots they held. -/
def State.purgeCh (n : Ch) (s : State) : State × Nat :=
  let f (e : Ev) : Bool := e.rec_.ch == n
  let p := podOf n
  let q := s.pod[p]
  let slots := countIf f s.cal.wheel + countIf f s.cal.ovfl + countIf (fun (x : PosEv) => f x.ev) s.cal.pos + countIf f q.fast
  let near := countIf f q.staging + countIf f q.spill + countIf f q.commits
  let s := { s with cal := { s.cal with
    wheel := s.cal.wheel.filter (fun e => !f e), ovfl := s.cal.ovfl.filter (fun e => !f e), pos := s.cal.pos.filter (fun x => !f x.ev) } }
  let s := s.modPod p (fun q => { q with
    staging := q.staging.filter (fun e => !f e), spill := q.spill.filter (fun e => !f e)
    fast := q.fast.filter (fun e => !f e), commits := q.commits.filter (fun e => !f e) })
  (s.freeSlots slots, slots + near)

/-- The purge of a channel marked for it: counted, and told in mailbox 24 (R282). -/
def State.purge (n : Ch) (s : State) : State :=
  if has s.abort.purge n then
    let (s, k) := s.purgeCh n
    let s := { s with abort := { s.abort with
      purge := s.abort.purge &&& ~~~BitVec.ofNat 128 (2 ^ n.val), purged := s.abort.purged.bump s.tick k 0xFFFFFFFF } }
    s.notice 0 (leBytes 4 n.val ++ leBytes 4 k)
  else s

/-- The aborted channels of a scope. -/
def abortedOf (scope : BitVec 128) (s : State) : List Ch := allChs.filter (fun n => has scope n && s.ch[n].aborted)

/-- CMD_ERR. -/
def State.abortErr (s : State) : State := { s with abort := { s.abort with flags := s.abort.flags.raise s.tick (flag 4 true) } }

/-- The aborted channels inside a scope are released at the next boundary, T_r: events due before it are MISSED, then the purge is made (R281, R282). [DEDUCED, log entry 31] -/
def State.releaseAll (scope : BitVec 128) (s : State) : State :=
  let l := abortedOf scope s
  let s := forAll (allPods.filter (fun p => l.any (fun n => podOf n == p))) (fun p => State.missAborted p s.tw) s
  let s := forAll l (fun n => State.modCh n Channel.release) s
  let s := forAll l State.purge s
  forAll allAxes State.keepHeads s

/-- While SAFE_n is low no channel is released, and the release is an error (R281). [DEDUCED, log entry 31] -/
def State.releaseScope (scope : BitVec 128) (s : State) : State :=
  if s.abort.safeLow then s.abortErr else s.releaseAll scope

/-- A release that nothing holds; one written while the Keeper reboots is applied after it (R291). [DEDUCED, log entry 31] -/
def State.releaseNow (scope : BitVec 128) (s : State) : State :=
  if s.fw.keeperUp then s.releaseScope scope
  else { s with fw := { s.fw with deferred := s.fw.deferred ++ [scope] } }

/-! ### ABORT_CTRL (R277, R281) -/

/-- A set of channels. -/
def setOf (l : List Ch) : BitVec 128 := l.foldl (fun v n => v ||| BitVec.ofNat 128 (2 ^ n.val)) 0

/-- The channels a SCOPE names, with the masks as they stand (R277). -/
def scopeOf (sc : Nat) (s : State) : List Ch :=
  match sc with
  | 0 => allChs
  | 1 => allChs.filter (fun n => bit s.abort.podMask (podOf n).val)
  | 2 => allChs.filter (fun n => bit s.abort.chMask[(⟨n.val / 32 % 4, by omega⟩ : Fin 4)] (n.val % 32))
  | _ => []

/-- A write of ABORT_CTRL. -/
def State.writeAbortCtrl (m : Master) (w : W) (s : State) : State :=
  let scope := scopeOf (fld w 4 2) s
  match m.watch with
  | some c => (s.abortErr).watchViol c false 0x11000
  | none =>
    if bit w 0 == bit w 1 || scope.isEmpty then s.abortErr
    else if bit w 0 then
      let s := s.when (bit w 2) (fun s => { s with abort := { s.abort with purge := s.abort.purge ||| setOf scope } })
      s.abortScope scope (s.tw + 4) false
    else if s.abort.safeLow then s.abortErr
    else if s.abort.going != 0 then
      { s with abort := { s.abort with relPend := s.abort.relPend ++ [(setOf scope, s.abort.going)] } }
    else s.releaseNow (setOf scope)

def execAbortGo (m : Master) (w : W) (s : State) : Out := .next (s.access m (.abortGo m w) (State.writeAbortCtrl m w))
def execAbortRelease (m : Master) (w : W) (s : State) : Out := .next (s.access m (.abortRelease m w) (State.writeAbortCtrl m w))

/-- ABORT_DONE: the oldest abort is complete; a release that waited for it and for no other is applied (R279, R281). [DEDUCED, log entry 31] -/
def State.abortDone (s : State) : State :=
  if s.abort.going = 0 then s
  else
    let wait := s.abort.relPend.map (fun x => (x.1, x.2 - 1))
    let s := { s with abort := { s.abort with
      going := s.abort.going - 1, flags := s.abort.flags.raise s.tick 1, relPend := wait.filter (fun x => x.2 != 0) } }
    forAll (wait.filter (fun x => x.2 == 0)) (fun x => State.releaseNow x.1) s

def execAbortDone (s : State) : Out := .next s.abortDone

/-- SAFE_n is low: every channel is aborted, its ball at once (R278, R279), and a sleeping device wakes (R358). Until the core reset has ended only the
level is noted (R344). [DESIGN CHOICE, log entry 56] -/
def State.safeFall (s : State) : State :=
  let s := { s.wakeBy wkSafe with abort := { s.abort with safeLow := true } }
  if s.boot.held then s else s.abortScope allChs s.tw true

/-- SAFE_N_FALL: a low pulse of SAFE_n by its width; one between 2 ns and 5 ns is ignored or acts in full (R379). -/
def execSafeNFall (width : SafePulse) (s : State) : Out :=
  .next (match width with
    | .below2ns => s
    | .between => if s.freeBit then s.used.safeFall else s.used
    | .atLeast5ns => s.safeFall)

/-- SAFE_N_RISE: releases nothing (R278). -/
def execSafeNRise (s : State) : Out := .next { s with abort := { s.abort with safeLow := false } }

/-! ### The Keeper's reboot (R291) -/

/-- KEEPER_REBOOT_DONE: releases written meanwhile are applied; a Watch restart that runs, and a takeover not yet switched, begin again. [DEDUCED, log entry 50] -/
def State.keeperBack (s : State) : State :=
  if s.fw.keeperUp then s
  else
    let l := s.fw.deferred
    let s := { s with
      fw := { s.fw with
        keeperUp := true, deferred := []
        digestOk := if s.fw.restarting then false else s.fw.digestOk
        delayed := s.fw.delayed || (s.fw.restarting && s.fw.delay != 0) }
      health := { s.health with pod := s.health.pod.map (fun h =>
        { h with takeover := h.takeover.map (fun x => (max x.1 (s.tick + 640), x.2)) }) } }
    forAll l State.releaseScope s

def execKeeperRebootDone (s : State) : Out := .next s.keeperBack

/-! ### Freeze and thaw (R86, R87) -/

/-- FREEZE_REQUEST: CHn_CTRL.FRZ is written 1 by the debug master. -/
def execFreezeRequest (m : Master) (n : Ch) (s : State) : Out :=
  .next (if m = .debug then s.access m (.freezeRequest m n) (State.modCh n (fun c => { c with frzReq := true })) else s)

def execThawRequest (m : Master) (n : Ch) (s : State) : Out :=
  .next (if m = .debug then s.access m (.thawRequest m n) (State.modCh n (fun c => { c with frzReq := false })) else s)

/-- The channel's own part of a freeze: the ball holds its level, which the next action starts from. -/
def Channel.freeze (t : Nat) (c : Channel) : Channel :=
  let l := c.tierLevel t
  let c1 := ((c.settleMerge 0).endTrain t true).cutPipe l
  { c1 with
    frz := true, hold := l
    out := { c1.out with
      pip := c1.out.pip.map (fun _ => l)
      level := if c1.out.pip.isSome then c1.out.level else l } }

/-- An event that has matched but whose ball time falls in the freeze goes unfired (R86). -/
def Outcome.frozen (n : Ch) (x : Nat) (o : Outcome) : Outcome :=
  if o.ev.rec_.ch == n && o.missed.isNone && decide (x ≤ o.x)
  then { o with x := o.ev.ball + o.ev.adv, missed := some rsFreeze } else o

/-- FREEZE_ENTRY: the XIN edge after FRZ was written 1 (R86). -/
def State.freeze (n : Ch) (s : State) : State :=
  if !s.ch[n].frzReq || s.ch[n].frz then s
  else
    let s := ((s.pipNow n).applyMatches n).pipHalt s.tick 4 true false n
    let s := (s.measStop n).modCh n (Channel.freeze s.tick)
    let s := s.modPod (podOf n) (fun q => { q with matched := q.matched.map (Outcome.frozen n (s.tick * 32)) })
    (s.endShadow n).breach brFreeze

/-- [DEDUCED, log entry 14] -/
def execFreezeEntry (n : Ch) (s : State) : Out := .next (s.freeze n)

/-- THAW: the XIN edge after FRZ was written 0 (R87). The counter went on counting, and the ball does not move. [DEDUCED, log entry 14] -/
def execThaw (n : Ch) (s : State) : Out :=
  .next (if s.ch[n].frz && !s.ch[n].frzReq then s.modCh n (fun c => { c with frz := false }) else s)

end Sys2Proof.Machine
end

