-- ==== Sys2Proof/Machine/Converter.lean ====
section
/-!
DEFINITION. The converter (R307 to R321): conversions and results, the window comparators, background calibration, the stream.
-/
namespace Sys2Proof.Machine

/-! ### Results (R311, R312) -/

/-- M of a slice, and its conversion period in ticks (R308). -/
def AdcSlice.m (x : AdcSlice) : Nat := max 1 (fld x.cfg 1 7)
def AdcSlice.period (x : AdcSlice) : Nat := 8192 * x.m
def AdcSlice.en (x : AdcSlice) : Bool := bit x.cfg 0

/-- The rounding of R311: to the nearest, half away from zero. -/
def roundShift22 (v : Int) : Int := if 0 ≤ v then (v + 2097152) / 4194304 else -((-v + 2097152) / 4194304)

/-- 24-bit saturation. -/
def sat24 (v : Int) : Int := max (-8388608) (min 8388607 v)

/-- VALUE and CLIP of a raw value with the coefficients of a unit (R311). -/
def AdcUnit.value (r : Int) (u : AdcUnit) : Int × Bool :=
  let v := roundShift22 ((r - u.ofs) * u.gain)
  (sat24 v, decide (v ≠ sat24 v))

/-- The DATA word (R312). -/
def AdcSlice.word (x : AdcSlice) : W :=
  (ofInt x.val &&& 0xFFFFFF) ||| flag 24 (x.new.val != 0) ||| flag 25 x.ovr ||| put 26 x.flags.toNat

/-- A result is written to DATA in a tick; one that finds NEW set overwrites it with OVR (R312). -/
def AdcSlice.data (t ts : Nat) (v : Int) (flags : BitVec 3) (x : AdcSlice) : AdcSlice :=
  { x with
    oldVal := x.word, oldTs := x.ts, ovr := x.new.val != 0
    new := { val := 1, stamp := t, fresh := 1 }, val := v, flags := flags, ts := ts }

/-- A read of DATA by a master: in the tick of a new result it returns the older one, and the new one stays without OVR (R5, R312). -/
def State.adcRead (m : Master) (i : Slice) (s : State) : State :=
  let x := s.adc.slice[i]
  let race := x.new.now s.tick != 0
  let s := s.ret m (if race then x.oldVal else x.word)
  s.modSlice i (fun x => { x with
    new := x.new.read s.tick, ovr := false, latch := x.latch.set m.idx.val (if race then x.oldTs else x.ts) })

def execAdcDataRead (m : Master) (i : Slice) (s : State) : Out := .next (s.access m (.adcDataRead m i) (State.adcRead m i))

/-- The window comparator takes a result (R314). -/
def AdcSlice.window (t : Nat) (v : Int) (x : AdcSlice) : AdcSlice :=
  if v < x.low then { x with inBand := false, armed := false, stat := x.stat.raiseIf x.armed t 8 }
  else if x.high ≤ v then { x with inBand := false, armed := false, stat := x.stat.raiseIf x.armed t (flag 4 true) }
  else { x with inBand := true, armed := true }

/-! ### The stream (R319) -/

/-- The stream ring can take a record now. -/
def strOpen (s : State) : Bool :=
  decide ((s.adc.strWr - s.adc.strRd).toNat < 2 ^ s.adc.strLog2)
    && !(s.adc.strBase.getLsbD 63 && (!s.pcie.bme || s.pcie.d3hot || !s.pcie.up))

/-- The record of a delivered result. -/
def strRecord (i : Slice) (x : AdcSlice) (gap : Bool) (seq : BitVec 16) : List Byte :=
  leBytes 8 x.ts ++ leBytes 4 (ofInt x.val).toNat ++ leBytes 1 x.selAct.toNat
    ++ leBytes 1 (i.val + 4 * x.flags.toNat + (if gap then 32 else 0)) ++ leBytes 2 seq.toNat

/-- STREAM_RECORD: the result of a streamed slice is written, or dropped and counted; the record after a loss carries GAP and mailbox 28 gives
notice of the loss. [DEDUCED, log entry 53] -/
def State.stream (i : Slice) (s : State) : State :=
  let a := s.adc
  if a.strLog2 = 0 || !a.strMask.getLsbD i.val then s
  else if strOpen s then
    let s := s.ringWrite a.strBase (16 * (a.strWr.toNat % 2 ^ a.strLog2)) (strRecord i a.slice[i] a.strGap a.strSeq)
    let s := { s with adc := { s.adc with strWr := a.strWr + 1, strSeq := a.strSeq + 1, strGap := false, lostNote := 0 } }
    if a.strGap then s.noticeCode 4 1 (leBytes 4 a.lostNote) else s
  else { s with adc := { a with
    strLost := a.strLost.bump s.tick 1 0xFFFFFFFF, strGap := true, lostNote := min 0xFFFFFFFF (a.lostNote + 1) } }

/-! ### Conversions (R308, R310, R313 to R315) -/

/-- A result of slice i is delivered at boundary b: DATA, the window comparator unless the reference is unsettled, the stream. -/
def State.deliverResult (i : Slice) (b : Nat) (raw : Int) (s : State) : State :=
  let x := s.adc.slice[i]
  let (v, clip) := s.adc.unit[(⟨x.unit % 5, by omega⟩ : Fin 5)].value raw
  let unset := !s.adc.refReady
  let fl : BitVec 3 := BitVec.ofBool x.swNext ++ BitVec.ofBool clip ++ BitVec.ofBool unset
  let s := s.modSlice i (fun x =>
    let y := { (x.data s.tick (b * 32) v fl) with swNext := false }
    if unset then y else y.window s.tick v)
  s.stream i

/-- Set the role of a unit. -/
def Adc.role (u : Nat) (r : Nat) (a : Adc) : Adc :=
  if h : u < 5 then { a with unit := a.unit.set u { a.unit[u] with role := BitVec.ofNat 3 r } } else a

/-- The next calibration grid boundary at or after a tick (R316). -/
def calGrid (t : Nat) : Nat := (t + 65535) / 65536 * 65536

/-- The spare takes over slice k at tick b and the released unit calibrates (R315, R316). -/
def Adc.exchange (b t : Nat) (k : Slice) (a : Adc) : Adc :=
  let old := a.slice[k].unit
  let x := a.slice[k]
  let a1 := { a with
    slice := a.slice.set k.val { x with unit := a.spare, swNext := true, stat := x.stat.raise t (flag 5 true) }
    overlap := none, calUnit := some old, calAt := calGrid b, spare := old
    nextSlice := (k.val + 1) % 4 }
  (a1.role a.spare k.val).role old 5

/-- CAL_PERIOD in ticks. -/
def Adc.periodTicks (a : Adc) : Nat := fld a.period 0 16 * 400000

/-- The overlap of slice i at its boundary b: at B3 the spare's result is compared and the spare takes over (R315). [DEDUCED, log entry 53] -/
def State.overlapAt (i : Slice) (b : Nat) (raw spareRaw : Int) (s : State) : State :=
  match s.adc.overlap with
  | none => s
  | some b0 =>
    let x := s.adc.slice[i]
    if s.adc.calSlice == i.val && decide (b0 + 3 * x.period ≤ b) then
      let v := (s.adc.unit[(⟨x.unit % 5, by omega⟩ : Fin 5)].value raw).1
      let w := (s.adc.unit[(⟨s.adc.spare % 5, by omega⟩ : Fin 5)].value spareRaw).1
      let bad := decide (fld s.adc.tol 0 24 < (v - w).natAbs)
      let a := s.adc
      let a := { a with
        flags := a.flags.raiseIf bad s.tick (flag 10 true)
        mism := if bad then a.mism.bump s.tick 1 255 else a.mism }
      { s with adc := a.exchange b s.tick i }
    else s

/-- A SEL written before boundary b takes effect there: settling starts, and an overlap of the slice that has not reached B3 starts again from
it (R310, R317). -/
def State.selAt (i : Slice) (b : Nat) (s : State) : State :=
  let x := s.adc.slice[i]
  match x.pendSel with
  | none => s
  | some (t, v) =>
    if b ≤ t then s
    else if v == x.selAct then s.modSlice i (fun x => { x with pendSel := none })
    else
      let s := s.modSlice i (fun x => { x with pendSel := none, selAct := v, skip := 2 })
      match s.adc.overlap with
      | none => s
      | some b0 =>
        if s.adc.calSlice == i.val && decide (b0 < b)
        then { s with adc := { s.adc with overlap := some b, due := b + s.adc.periodTicks } } else s

/-- ADC_CONVERSION_END: the next conversion boundary of slice i has come. `raw` is the raw value of the serving unit, `spareRaw` that of the spare where it
overlaps. Conversions stop in STANDBY and HIBERNATE (R320). -/
def State.conversionEnd (i : Slice) (raw spareRaw : Int) (s : State) : State :=
  let x := s.adc.slice[i]
  let b := x.last + x.period
  if !x.en || s.pwr.mode != 0 || decide (s.tick < b) then s
  else
    let s := s.modSlice i (fun x => { x with last := b, skip := x.skip - 1 })
    let s := if x.skip = 0 then s.deliverResult i b raw else s
    (s.overlapAt i b raw spareRaw).selAt i b

def execAdcConversionEnd (i : Slice) (raw spareRaw : Int) (s : State) : Out := .next (s.conversionEnd i raw spareRaw)

/-- CFG_ERR of the converter. -/
def State.adcCfgErr (s : State) : State := { s with adc := { s.adc with flags := s.adc.flags.raise s.tick (flag 13 true) } }

/-- A write of ADC_SLs_SEL (R309, R310). [DEDUCED, log entry 53] -/
def State.writeAdcSel (i : Slice) (w : W) (s : State) : State :=
  let v := BitVec.ofNat 6 (fld w 0 6)
  if 32 ≤ v.toNat then s.adcCfgErr
  else s.modSlice i (fun x =>
    let y := { x with sel := v.setWidth 32 }
    if !x.en || decide (s.tw ≤ x.last) then { y with selAct := v, pendSel := none } else { y with pendSel := some (s.tick, v) })

def execAdcSelWrite (i : Slice) (w : W) (s : State) : Out := .next (s.writeAdcSel i w)

/-- A slice begins to convert at the first boundary of its grid from tick t on, where a SEL that waits takes effect (R308, R310). -/
def AdcSlice.begin_ (t : Nat) (x : AdcSlice) : AdcSlice :=
  { x with
    last := (t + x.period - 1) / x.period * x.period, skip := 2
    selAct := (x.pendSel.map (fun p => p.2)).getD x.selAct, pendSel := none }

/-- An overlap of slice i ends without a calibration: the rotation counts as done (R317). -/
def State.dropOverlap (i : Slice) (s : State) : State :=
  if s.adc.overlap.isSome && s.adc.calSlice == i.val then
    let a := s.adc
    { s with adc := { a.role a.spare 4 with
      overlap := none, nextSlice := (i.val + 1) % 4, rotations := a.rotations.bump s.tick 1 65535 } }
  else s

/-- A write of ADC_SLs_CFG: EN, and M while EN is 0 (R308). -/
def State.writeAdcCfg (i : Slice) (w : W) (s : State) : State :=
  let x := s.adc.slice[i]
  let m := fld w 1 7
  let change := m ≠ fld x.cfg 1 7
  let bad := change && (x.en || m == 0 || decide (125 < m))
  let cfg : W := ins x.cfg 0 1 w
  let cfg := if change && !bad then ins cfg 1 7 w else cfg
  let s := s.when bad State.adcCfgErr
  let s := s.modSlice i (fun x => { x with cfg := cfg })
  if !x.en && bit cfg 0 then s.modSlice i (fun x => { x.begin_ s.tw with armed := true })
  else if x.en && !bit cfg 0 then s.dropOverlap i
  else s

/-- A write of LOW or HIGH that would leave no band is refused (R314). -/
def State.writeBand (i : Slice) (high : Bool) (w : W) (s : State) : State :=
  let v := (BitVec.ofNat 24 w.toNat).toInt
  let x := s.adc.slice[i]
  if high then (if v ≤ x.low then s.adcCfgErr else s.modSlice i (fun x => { x with high := v }))
  else (if x.high ≤ v then s.adcCfgErr else s.modSlice i (fun x => { x with low := v }))

/-! ### Reference and calibration (R313, R315 to R317) -/

/-- REF_READY: 2 ms after the buffer was enabled. -/
def execRefReady (s : State) : Out :=
  .next (if bit s.adc.ctrl 0 && !s.adc.refReady && s.pwr.mode == 0 && decide (s.adc.refAt + 800000 ≤ s.tick) then
      { s with adc := { s.adc with refReady := true, flags := s.adc.flags.raise s.tick (flag 12 true) } }
    else s)

/-- The reference goes off: an overlap and a calibration are abandoned, and the rotation is repeated once it is back (R317). -/
def Adc.refOff (t : Nat) (a : Adc) : Adc :=
  let busy := a.overlap.isSome || a.calUnit.isSome
  let a1 := { a with refReady := false, overlap := none, calUnit := none }
  if busy then { (a1.role a.spare 4) with nextSlice := a.calSlice, due := t } else a1

/-- A write of ADC_CTRL (R313, R317). -/
def State.writeAdcCtrl (w : W) (s : State) : State :=
  let was := bit s.adc.ctrl 0
  let a := { s.adc with ctrl := w &&& 0x3F }
  if bit w 0 && !was then { s with adc := { a with refAt := s.tick } }
  else if !bit w 0 && was then { s with adc := a.refOff s.tick }
  else { s with adc := a }

/-- CAL_ROTATION_START: the rotation that is due begins: with an overlap from B0, or at once where the slice does not convert (R315). [DEDUCED, log entry 53] -/
def State.rotationStart (s : State) : State :=
  let a := s.adc
  if !bit a.ctrl 1 || !a.refReady || a.degraded || a.overlap.isSome || a.calUnit.isSome || s.pwr.mode != 0 || decide (s.tick < a.due) then s
  else
    let k : Slice := ⟨a.nextSlice % 4, by omega⟩
    let x := a.slice[k]
    let a := { a with calSlice := k.val }
    if x.en then
      let b0 := (s.tick + x.period - 1) / x.period * x.period
      { s with adc := { a.role a.spare 6 with overlap := some b0, due := b0 + a.periodTicks } }
    else { s with adc := { (a.exchange s.tick s.tick k) with due := s.tick + a.periodTicks } }

def execCalRotationStart (s : State) : Out := .next s.rotationStart

/-- The GAIN of R316, none where the readings give none within 2 % of 1.0. -/
def calGain (z f : Int) : Option Nat :=
  let d := f - z
  if d ≤ 0 then none
  else
    let g := roundDiv (4194304 * 6291456) d.toNat
    if 50 * (if g < 4194304 then 4194304 - g else g - 4194304) ≤ 4194304 then some g else none

/-- CAL_DONE: the 38 conversions of the released unit have ended, with its mean readings Z and F. It becomes the spare, or is retired (R316). [DEDUCED, log entry 53] -/
def State.calDone (z f : Int) (s : State) : State :=
  let a := s.adc
  match a.calUnit with
  | none => s
  | some u =>
    if s.pwr.mode != 0 || decide (s.tick < a.calAt + 38 * 65536) then s
    else
      let i : Fin 5 := ⟨u % 5, by omega⟩
      let a1 := { a with calUnit := none, rotations := a.rotations.bump s.tick 1 65535 }
      match (if 33554 < z.natAbs then none else calGain z f) with
      | some g =>
        { s with adc := { (a1.role u 4) with
          unit := (a1.role u 4).unit.set i.val { (a1.role u 4).unit[i] with ofs := z, gain := g }
          flags := a.flags.raise s.tick (flag 8 true) } }
      | none =>
        { s with adc := { (a1.role u 7) with
          spare := 7, degraded := true, fails := a.fails.bump s.tick 1 255, flags := a.flags.raise s.tick (flag 9 true) } }

def execCalDone (z f : Int) (s : State) : Out := .next (s.calDone z f)

/-- A wake to RUN: enabled slices start at their next boundary and settle; after HIBERNATE the reference starts again; a calibration begins anew on its
grid (R320). -/
def Adc.wake (hib : Bool) (t : Nat) (a : Adc) : Adc :=
  let a := { a with slice := a.slice.map (fun x => if x.en then x.begin_ t else x) }
  if hib then (if bit a.ctrl 0 then { a.refOff t with refAt := t } else a)
  else { a with
    calAt := if a.calUnit.isSome then calGrid t else a.calAt
    overlap := a.overlap.map (fun _ => (a.slice[(⟨a.calSlice % 4, by omega⟩ : Slice)]).last) }

/-! ### ADC_STREAM and its read pointer (R210, R319) -/

/-- A stream ring may lie at a store offset (R210). -/
def strPlaceOk (base n : Nat) (s : State) : Bool :=
  base % 16 == 0 && decide (0x2100000 ≤ base) && decide (base + n ≤ 0x2800000)
    && allPods.all (fun q =>
      let r := s.pod[q].res
      let c := s.store.ring[q]
      (r.log2 == 0 || r.inHost || !overlaps base n r.base.toNat (16 * 2 ^ r.log2))
        && !overlaps base n c.base.toNat (16 * 2 ^ fld c.size 0 5))

def State.adcStream (b : CmdMbx) (body : List Byte) (s : State) : State :=
  let m := u32 0 body
  let l := u32 4 body
  let base := u64 8 body
  if 16 ≤ m then s.answer b stBadField 0 []
  else if l ≠ 0 ∧ (l < 8 ∨ 20 < l) then s.answer b stBadField 4 []
  else if l ≠ 0 ∧ 2 ^ 63 ≤ base ∧ base % 16 ≠ 0 then s.answer b stBadField 8 []
  else if l ≠ 0 ∧ base < 2 ^ 63 ∧ !strPlaceOk base (16 * 2 ^ l) s then s.answer b stNoRoom 0 []
  else
    ({ s with adc := { s.adc with
      strMask := BitVec.ofNat 4 m, strLog2 := l, strBase := BitVec.ofNat 64 base, strWr := 0, strRd := 0 } }).answer b stOk 0 []

def execAdcStream (b : CmdMbx) (s : State) : Out := .next (s.command b 0x39 (State.adcStream b))

/-- A write of ADC_STR_RD moves RD forward by no more than the records held; any other is refused (R182, R319). [DEDUCED, log entry 53] -/
def State.writeStrRd (w : W) (s : State) : State :=
  if (w - s.adc.strRd).toNat ≤ (s.adc.strWr - s.adc.strRd).toNat then { s with adc := { s.adc with strRd := w } } else s.adcCfgErr

def execAdcStrRdWrite (w : W) (s : State) : Out := .next (s.writeStrRd w)

end Sys2Proof.Machine
end

