-- ==== Sys2Proof/Machine/Surroundings.lean ====
section
/-!
DEFINITION. Measuring the surroundings (R323 to R339): supplies and temperature, cable and load measurements, partner data, and the adaptation
policies.
-/
namespace Sys2Proof.Machine

/-! ### Supplies and temperature (R323 to R325) -/

/-- The bit of a rail in SUR_SUP_STAT. -/
def railBit : Rail → Nat
  | .vdd => 0 | .vddaux => 1 | .avdd => 2 | .peVdd => 3 | .peVddh => 4
  | .vio p => 8 + p.val

/-- VIO_FAULT on every channel of a bank. -/
def State.vioFault (p : Pod) (on : Bool) (s : State) : State :=
  forAll (bankChs p) (fun n => State.modCh n (fun c => { c with vioFault := on })) s

/-- A supervisor reports a fault of a rail: its bits, VIO_FAULT of a bank, the notice (R325), and a wake (R356). -/
def State.supplyFault (r : Rail) (s : State) : State :=
  if bit s.sur.sup (railBit r) then s
  else
    let s := { s with sur := { s.sur with
      sup := s.sur.sup ||| flag (railBit r) true, seen := s.sur.seen.raise s.tick (flag (railBit r) true) } }
    let s := match r with
      | .vio p => s.vioFault p true
      | _ => s
    (s.notice 0 (leBytes 4 (railBit r))).wakeIf (bit s.pwr.cfg 2) wkSupply

def execSupplyFault (r : Rail) (s : State) : Out := .next (s.supplyFault r)

/-- SUPPLY_FAULT_CLEAR: the rail is back in its band (R323). -/
def State.supplyClear (r : Rail) (s : State) : State :=
  let s := { s with sur := { s.sur with sup := s.sur.sup &&& ~~~(flag (railBit r) true) } }
  match r with
  | .vio p => if s.boot.vioDown.getLsbD p.val then s else s.vioFault p false
  | _ => s

def execSupplyFaultClear (r : Rail) (s : State) : Out := .next (s.supplyClear r)

/-- VIO_TRACK: while the supervisor reports a fault the last value inside the band stays (R324). -/
def execVioTrack (p : Pod) (mv : Nat) (s : State) : Out :=
  .next (if bit s.sur.sup (8 + p.val) then s else { s with sur := { s.sur with vio := s.sur.vio.set p.val (min 8191 mv) } })

/-- TEMP_MEASURE: TJ, and the alarm with its 5 °C (R325); its rise wakes (R356). -/
def State.tempMeasure (t : Int) (s : State) : State :=
  let temp := if (s.sur.alarm.toNat : Int) ≤ t then true else if t ≤ (s.sur.alarm.toNat : Int) - 5 then false else s.sur.temp
  let rose := temp && !s.sur.temp
  ({ s with sur := { s.sur with tj := BitVec.ofInt 8 (max (-128) (min 127 t)), temp := temp } }).wakeIf (rose && bit s.pwr.cfg 2) wkSupply

def execTempMeasure (t : Int) (s : State) : Out := .next (s.tempMeasure t)

/-! ### Measurements (R326 to R331) -/

/-- A job enters the line, in the order of the doorbells. -/
def State.measAsk (b : CmdMbx) (j : MeasJob) (s : State) : State :=
  if s.sur.jobs.any (fun x => x.b == some b) then s
  else
    let bell (x : MeasJob) : Option Nat := x.b.map (fun c => s.mbx[cmdMbx c].bell)
    let before (x y : MeasJob) : Bool := match bell x, bell y with
      | some u, some v => decide (u < v)
      | _, _ => false
    let l := match s.sur.jobs with
      | [] => [j]
      | x :: r => x :: insertBy before j r
    { s with sur := { s.sur with jobs := l } }

/-- MEASURE_CABLE and MEASURE_LOAD: the body is judged and the measurement waits its turn. [DEDUCED, log entry 41] -/
def State.measureCable (b : CmdMbx) (body : List Byte) (s : State) : State :=
  let n := u32 0 body
  let vf := u32 4 body
  if h : n < 128 then
    if vf < 6554 ∨ 65535 < vf then s.answer b stBadField 4 []
    else s.measAsk b { b := some b, ch := ⟨n, h⟩, load := false, gap := (u32 8 body).testBit 0, vf := vf, since := s.tick }
  else s.answer b stBadCh 0 []

def execMeasureCable (b : CmdMbx) (s : State) : Out := .next (s.command b 0x50 (State.measureCable b))

def State.measureLoad (b : CmdMbx) (body : List Byte) (s : State) : State :=
  let n := u32 0 body
  if h : n < 128 then s.measAsk b { b := some b, ch := ⟨n, h⟩, load := true, gap := (u32 4 body).testBit 0, vf := 65535, since := s.tick }
  else s.answer b stBadCh 0 []

def execMeasureLoad (b : CmdMbx) (s : State) : Out := .next (s.command b 0x51 (State.measureLoad b))

/-- No event of the channel is staged, in the fast lane or armed, and no Pip holds its tier (R326). -/
def idleGap (n : Ch) (s : State) : Bool :=
  let q := s.pod[podOf n]
  !((q.staging ++ q.spill ++ q.fast ++ q.commits).any (fun e => e.rec_.ch == n)) && !s.ch[n].unit.any (fun u => u.owner)
    && s.ch[n].out.pip.isNone

/-- A measurement of the channel is refused when it starts (R326). One that was abandoned starts at a gap whatever FLAGS[0] says (R327). -/
def measRefused (j : MeasJob) (s : State) : Bool :=
  let c := s.ch[j.ch]
  c.frz || c.aborted || emulBusy j.ch s || c.rfx.armed || c.out.pip.isSome
    || (!j.gap && s.sur.abandons == 0 && sched j.ch s)

/-- The channels a policy may measure now: enabled by the policy and itself, not measured for 10 s (R334). -/
def policyDue (i : Fin 5) (s : State) : List Ch :=
  let p := s.sur.pol[i]
  if !p.enable || p.lock then []
  else allChs.filter (fun n =>
    bit p.tgt[(⟨n.val / 32 % 4, by omega⟩ : Fin 4)] (n.val % 32) && s.ch[n].en
      && !p.last.any (fun x => x.idx == n.val && decide (s.tick < x.at_ + 4000000000)))

/-- The measurement a policy makes next. [DESIGN CHOICE, log entry 54] -/
def policyJob (s : State) : Option MeasJob :=
  let mk (load : Bool) (n : Ch) : MeasJob := { b := none, ch := n, load := load, gap := true, vf := 65535, since := s.tick }
  match policyDue 0 s, policyDue 1 s with
  | n :: _, _ => some (mk false n)
  | [], n :: _ => some (mk true n)
  | [], [] => none

/-- The first job starts, is refused, fails, or waits for its gap (R326, R329). The LT of the first edge it drives is free, but after now. -/
def State.measBegin (s : State) : State :=
  match s.sur.jobs with
  | [] => s
  | j :: rest =>
    let c := s.ch[j.ch]
    if measRefused j s then
      (({ s with sur := { s.sur with jobs := nextJob s.tick rest, abandons := 0 } }).measKeep j none).measAnswer j stChBusy 0 []
    else if !c.oe then s.measFail 3
    else if c.vioFault then s.measFail 4
    else if (j.gap || s.sur.abandons != 0) && !idleGap j.ch s then s
    else { s.used with sur := { s.sur with
      running := true, edgeLt := s.time.lt + 1 + Config.freeNat s.free, kind := j.load, ch := j.ch.val } }

/-- MEASURE_START (R326); with no measurement asked for, one that policy 0 or 1 makes (R334). During a Watch restart none starts (R288). [DESIGN CHOICE, log entry 54] -/
def State.measStart (s : State) : State :=
  if s.sur.running || s.fw.restarting then s
  else if s.sur.jobs.isEmpty then
    match policyJob s with
    | none => s
    | some j => ({ s with sur := { s.sur with jobs := [j] } }).measBegin
  else s.measBegin

def execMeasureStart (s : State) : Out := .next s.measStart

/-- The classes, and the reply, of a cable measurement (R331). [DESIGN CHOICE, log entry 54] -/
def State.cableDone (j : MeasJob) (shots : List (Option Nat)) (s : State) : State :=
  let off := s.fuse.cable[j.ch]
  let sum := (shots.map (fun x => x.getD 0)).sum
  let n := max 1 shots.length
  let rt := roundDiv (sum - n * off) n
  let cls := if shots.isEmpty || shots.any (fun x => x.isNone) then 1 else if rt < 128 then 2 else 0
  let rt := if cls = 0 then rt else 0
  let d := roundDiv rt 2
  let len := roundDiv (d * j.vf * 78125 * 299792458) (65536 * 10 ^ 12)
  s.measEnd stOk 0 (leBytes 4 rt ++ leBytes 4 d ++ leBytes 4 len ++ leBytes 4 cls) (lo32 d) (if cls = 0 then some d else none)

/-- A load measurement's end with a class and CAP. -/
def State.loadEnd (cls cap : Nat) (s : State) : State :=
  s.measEnd stOk 0 (leBytes 4 cap ++ leBytes 4 cls) (lo32 cap) (if cls = 0 then some cap else none)

/-- The classes of a load measurement (R330). CAP of a class that measures none is free; its last digit is free within the accuracy. [DESIGN CHOICE, log entry 54] -/
def State.loadDone (j : MeasJob) (hi lo up down : Bool) (rise : Option Nat) (s : State) : State :=
  let fv := s.freeBelow (2 ^ 32)
  let fb := if s.freeBit then 1 else 0
  if !hi || !lo then s.used.loadEnd 4 fv
  else if !up && !down then s.used.loadEnd 2 fv
  else if up && down then s.used.loadEnd 3 fv
  else if !up && down then s.measFail 6
  else match rise with
    | none => s.loadEnd 0 0xFFFFFFFF
    | some t =>
      let mv := s.sur.vio[podOf j.ch]
      if 8192 * 32 < t then s.loadEnd 0 0xFFFFFFFF
      else
        let cap := if mv = 0 then fv else 3125 * t / (2 * mv) - s.fuse.pad[j.ch] + fb
        s.used.loadEnd (if cap < 200 then 1 else 0) cap

/-- MEASURE_DONE: the measurement that runs has its response (R328). -/
def State.measDone (r : MeasRaw) (s : State) : State :=
  if !s.sur.running then s
  else match s.sur.jobs, r with
    | j :: _, .cable shots => if j.load then s else s.cableDone j shots
    | j :: _, .load hi lo up down rise => if j.load then s.loadDone j hi lo up down rise else s
    | _ :: _, .failed d => s.measFail d.val
    | [], _ => s

def execMeasureDone (r : MeasRaw) (s : State) : Out := .next (s.measDone r)

/-- MEASURE_GAP_TIMEOUT: no idle gap within 1 s (R326, R329). -/
def execMeasureGapTimeout (s : State) : Out :=
  .next (match s.sur.jobs with
    | [] => s
    | j :: _ =>
      if !s.sur.running && (j.gap || s.sur.abandons != 0) && decide (j.since + 400000000 ≤ s.tick) then s.measFail 1 else s)

/-! ### Partner data (R332, R333) -/

/-- The identity block of a serial axis (R333). -/
def identity (a : Axis) : List Byte :=
  leBytes 1 a.mode ++ leBytes 1 a.ser.bits ++ leBytes 2 a.ser.delay ++ leBytes 4 a.ser.good ++ leBytes 2 a.ser.bad
    ++ leBytes 2 a.ser.errs ++ leBytes 4 0

/-- PARTNER_READ: `bytes` is what an EEPROM gave before it ended. -/
def State.partnerRead (b : CmdMbx) (bytes : List Byte) (body : List Byte) (s : State) : State :=
  let src := u32 0 body
  let idx := u32 4 body
  let off := u32 8 body
  let len := u32 12 body
  if 1 < src then s.answer b stBadField 0 []
  else if len = 0 ∨ 256 < len then s.answer b stBadField 12 []
  else if src = 1 then
    if bytes.length < len then s.answer b stPartnerNak bytes.length [] else s.answer b stOk 0 (bytes.take len)
  else if 7 < idx then s.answer b stBadField 4 []
  else
    let a := s.axis[(⟨idx % 8, by omega⟩ : Ax)]
    if !(a.en && decide (2 ≤ a.mode)) then s.answer b stBadField 4 []
    else if 16 < off + len then s.answer b stBadField 8 []
    else s.answer b stOk 0 (((identity a).drop off).take len)

def execPartnerRead (b : CmdMbx) (bytes : List Byte) (s : State) : Out := .next (s.command b 0x52 (State.partnerRead b bytes))

/-! ### Adaptation policies (R334 to R338) -/

/-- The range of a policy's bounds (R334). -/
def polRange : Nat → Nat × Nat
  | 0 => (0, 16777215)
  | 1 => (0, 3)
  | 2 => (256, 2 ^ 31 - 1)
  | 3 => (800000, 4000000000)
  | _ => (50, 65535)

/-- The targets a TARGET names for a policy, as the words of SUR_ADi_TGTj; none where it names none. -/
def polTargets (i tgt : Nat) : Option (Vector W 4) :=
  let one (v : Nat) : Vector W 4 := tabulate 4 (fun j => if v / 32 = j.val then flag (v % 32) true else 0)
  if 3 ≤ i then some (one 0)
  else if tgt = 0xFFFFFFFF then
    some (if i = 2 then tabulate 4 (fun j => if j.val = 0 then 0xFF else 0) else Vector.replicate 4 0xFFFFFFFF)
  else if tgt < (if i = 2 then 8 else 128) then some (one tgt)
  else none

/-- ADAPT_SET of one policy: bounds, and its targets enabled or disabled (R337). -/
def Policy.set (on : Bool) (tgt : Vector W 4) (lo hi : Nat) (p : Policy) : Policy :=
  let t := tabulate 4 (fun j => if on then p.tgt[j] ||| tgt[j] else p.tgt[j] &&& ~~~tgt[j])
  { p with min := lo32 lo, max := lo32 hi, tgt := t, enable := t.any (fun w => w != 0) }

/-- [DEDUCED, log entry 40] [DEDUCED, log entry 41] -/
def State.adaptSet (b : CmdMbx) (body : List Byte) (s : State) : State :=
  let i := u32 0 body
  let on := u32 4 body
  let lo := u64 16 body
  let hi := u64 24 body
  if h : i < 5 then
    let r := polRange i
    if s.sur.pol[i].lock then s.answer b stLocked i []
    else if 1 < on then s.answer b stBadField 4 []
    else match polTargets i (u32 8 body) with
      | none => s.answer b stBadField 8 []
      | some t =>
        if lo < r.1 ∨ r.2 < lo ∨ hi < lo then s.answer b stBadField 16 []
        else if r.2 < hi then s.answer b stBadField 24 []
        else
          ({ s with sur := { s.sur with
            pol := s.sur.pol.set i (s.sur.pol[i].set (on == 1) t lo hi) } }).answer b stOk 0 []
  else s.answer b stBadField 0 []

def execAdaptSet (b : CmdMbx) (s : State) : Out := .next (s.command b 0x48 (State.adaptSet b))

/-- ADAPT_LOCK. [DEDUCED, log entry 41] -/
def State.adaptLock (b : CmdMbx) (body : List Byte) (s : State) : State :=
  let m := u32 0 body
  let l := u32 4 body
  if 32 ≤ m then s.answer b stBadField 0 []
  else if 1 < l then s.answer b stBadField 4 []
  else
    ({ s with sur := { s.sur with
      pol := s.sur.pol.mapFinIdx (fun i p _ => if m.testBit i then { p with lock := l == 1 } else p) } }).answer b stOk 0 []

def execAdaptLock (b : CmdMbx) (s : State) : Out := .next (s.command b 0x49 (State.adaptLock b))

/-- The whole part of a square root, by its bits from bit k − 1 down. -/
def isqrt (n : Nat) : Nat → Nat → Nat
  | 0, r => r
  | k + 1, r => isqrt n k (if (r + 2 ^ k) * (r + 2 ^ k) ≤ n then r + 2 ^ k else r)

/-- The square root of num / den rounded to the nearest. -/
def roundSqrt (num den : Nat) : Nat :=
  let r := isqrt (num / den) 40 0
  if (2 * r + 1) * (2 * r + 1) * den ≤ 4 * num then r + 1 else r

/-- DRIVE code for a load in 0.01 pF (R334). -/
def driveFor (cap : Nat) : Nat := if cap ≤ 1000 then 0 else if cap ≤ 2000 then 1 else if cap ≤ 4000 then 2 else 3

/-- What a policy measured of a target: `meas` is J in frac for policy 2, the drift of TJ over 60 s in °C for policy 4; the other policies use the
model's own measurements. None where it has none. -/
def polNew (i idx meas : Nat) (s : State) : Option Nat :=
  match i with
  | 0 => ((s.sur.pol[0].last.find? (fun x => x.idx == idx)).bind (fun x => x.value))
  | 1 => ((s.sur.pol[1].last.find? (fun x => x.idx == idx)).bind (fun x => x.value)).map driveFor
  | 2 =>
    let a := s.axis[(⟨idx % 8, by omega⟩ : Ax)]
    let den := meas * a.spd.gate
    some (if den = 0 then 2 ^ 31 else roundSqrt (2 ^ a.spd.avg * 167772160000000000) den)
  | 3 => match s.sur.wakes with
    | [] => none
    | l => some (l.foldl max 0 * 5 / 4)
  | _ => some (if meas = 0 then s.sur.pol[4].max.toNat else roundDiv 30000 meas)

/-- The value in force of a policy's target. -/
def polOld (i : Nat) (n : Ch) (s : State) : Nat :=
  match i with
  | 0 => s.ch[n].adv.comp
  | 1 => fld (s.ch[n].out.drivePend.getD s.ch[n].out.cfg) 1 2
  | 2 => s.axis[(⟨n.val % 8, by omega⟩ : Ax)].upThr.toNat
  | 3 => s.pwr.lead.toNat
  | _ => fld s.adc.period 0 16

/-- The change reaches the policy's step (R334). -/
def stepOk (i old new : Nat) : Bool :=
  let d := max old new - min old new
  match i with
  | 0 => decide (4 ≤ d)
  | 1 => decide (1 ≤ d)
  | _ => d != 0 && decide (old ≤ 10 * d)

/-- The pod that keeps a declaration's record (R335). -/
def polPod (i : Nat) (n : Ch) : Pod :=
  if i ≤ 1 then podOf n else if i = 2 then ⟨n.val % 8, by omega⟩ else 0

/-- A target of a policy is enabled. -/
def polOn (i : Fin 5) (n : Ch) (s : State) : Bool :=
  let p := s.sur.pol[i]
  p.enable && !p.lock && bit p.tgt[(⟨n.val / 32 % 4, by omega⟩ : Fin 4)] (n.val % 32)

/-- The epoch of a declaration in ticks (R335). -/
def epochOf (i : Nat) (n : Ch) (new : Nat) (s : State) : Nat :=
  let a := s.ch[n].adv
  let top := max a.value (min advMax (a.base + new))
  let t := s.tick + s.cal.horizon + (if i = 0 then (top + 31) / 32 else 0)
  (t + 511) / 512 * 512

/-- A declaration is made: its reservation, its pair for policy 0, its notice (R335, R336). -/
def State.declare (i : Fin 5) (n : Ch) (v : Nat) (clamped : Bool) (s : State) : State :=
  let e := epochOf i.val n v s
  let p := polPod i.val n
  let d : Decl := { idx := n.val, value := v, epoch := e, clamped := clamped }
  let s := s.modPod p (fun q => { q with res := { q.res with reserved := q.res.reserved + 1 } })
  let s := { s with sur := { s.sur with
    pol := s.sur.pol.set i.val { s.sur.pol[i] with decls := s.sur.pol[i].decls ++ [d] }
    declared := s.sur.declared.bump s.tick 1 255
    clamped := if clamped then s.sur.clamped.bump s.tick 1 255 else s.sur.clamped } }
  let s := s.when (i == 0) (State.modCh n (fun c => { c with adv := { c.adv with pend := some { adv := c.adv.base, comp := some v, epoch := e * 32 } } }))
  s.notice 2 (leBytes 4 i.val ++ leBytes 4 n.val ++ leBytes 4 v ++ leBytes 8 (e * 32))

/-- A policy's measured value leads to a declaration, to none, or to a deferred one (R334, R335, R337, R338). -/
def State.adapt (i : Fin 5) (n : Ch) (meas : Nat) (s : State) : State :=
  let s := s.advNow n
  let p := s.sur.pol[i]
  let chan := decide (i.val ≤ 1)
  if !polOn i n s || s.fw.restarting || (chan && s.ch[n].vioFault) || (i == 0 && s.ch[n].adv.pend.isSome) then s
  else match polNew i.val n.val meas s with
    | none => s
    | some raw =>
      let v := max p.min.toNat (min p.max.toNat raw)
      if !stepOk i.val (polOld i.val n s) v then s
      else if s.pod[polPod i.val n].res.roomFor false then s.declare i n v (v != raw)
      else { s with sur := { s.sur with
        deferred := s.sur.deferred.bump s.tick 1 255
        pol := s.sur.pol.set i.val { p with deferred := p.deferred ++ [(n.val, meas, s.tick + 4000000)] } } }

def execAdaptDeclare (i : Fin 5) (n : Ch) (meas : Nat) (s : State) : Out := .next (s.adapt i n meas)

/-- ADAPT_DEFER_RETRY: 10 ms after a declaration was deferred (R335). -/
def State.adaptRetry (i : Fin 5) (n : Ch) (s : State) : State :=
  let p := s.sur.pol[i]
  match p.deferred.find? (fun x => x.1 == n.val && decide (x.2.2 ≤ s.tick)) with
  | none => s
  | some x =>
    ({ s with sur := { s.sur with
      pol := s.sur.pol.set i.val { p with deferred := p.deferred.filter (fun y => y != x) } } }).adapt i n x.2.1

def execAdaptDeferRetry (i : Fin 5) (n : Ch) (s : State) : Out := .next (s.adaptRetry i n)

/-- A declared value applies (R335). -/
def State.adaptApply (i : Nat) (n : Ch) (d : Decl) (s : State) : State :=
  match i with
  | 0 => s.modCh n (fun c => { c with adv := c.adv.takeAt d.epoch })
  | 1 => s.modCh n (fun c => { c with out := { c.out with
      drivePend := some (ins (c.out.drivePend.getD (c.out.cfg &&& driveMask)) 1 2 (put 1 d.value)) } })
  | 2 => s.modAxis ⟨n.val % 8, by omega⟩ (fun a => { a with upThr := lo32 d.value, dnThr := lo32 (roundDiv (3 * d.value) 4) })
  | 3 => { s with pwr := { s.pwr with lead := lo32 d.value } }
  | _ => { s with adc := { s.adc with period := lo32 d.value } }

/-- ADAPT_EPOCH: LT has reached the epoch of the target's first declaration: it applies, and its record uses its reservation (R335, R336). -/
def State.adaptEpoch (i : Fin 5) (n : Ch) (s : State) : State :=
  let p := s.sur.pol[i]
  let due := p.decls.filter (fun d => d.idx == n.val && decide (d.epoch ≤ s.tick))
  match sortBy (fun a b => decide (a.epoch < b.epoch)) due with
  | [] => s
  | d :: _ =>
    let s := { s with sur := { s.sur with pol := s.sur.pol.set i.val { p with decls := p.decls.erase d } } }
    let r : ResRec := { actLt := d.epoch * 32, word := lo32 d.value
                        half := BitVec.ofNat 16 (1 + i.val * 16 + n.val * 256 + (if d.clamped then 2 ^ 15 else 0)) }
    (s.adaptApply i.val n d).resWrite (polPod i.val n) true r

def execAdaptEpoch (i : Fin 5) (n : Ch) (s : State) : Out := .next (s.adaptEpoch i n)

end Sys2Proof.Machine
end

