-- ==== Sys2Proof/Machine/Mailbox.lean ====
section
/-!
DEFINITION. Mailboxes (R257 to R267): the lock, posting, the judgement of a command block, completion in place, repeats, and notices.
-/
namespace Sys2Proof.Machine

/-! ### The lock (R258) -/

/-- The register-bus number of a master, 1 to 8 (R14). -/
def masterNo (m : Master) : Nat := m.idx.val + 1

/-- The reads of MBm_LOCK of one PCLK cycle: the lowest-numbered reader takes a free lock, and every reader but the owner gets the owner's number. -/
def State.lockRead (b : Mbx) (readers : List Master) (s : State) : State :=
  let first := readers.foldl (fun (r : Nat) m => if r = 0 ∨ masterNo m < r then masterNo m else r) 0
  let owner := if s.mbx[b].owner = 0 then first else s.mbx[b].owner
  let s := s.modMbx b (fun x => { x with owner := owner })
  forAll readers (fun m => State.ret m (if masterNo m = owner then 0 else BitVec.ofNat 32 owner)) s

def execMbLockRead (b : Mbx) (readers : List Master) (s : State) : Out :=
  let made := readers.filter (fun m => reaches m s)
  let s := forAll readers (fun m => State.access m (.mbLockRead b [m]) id) s
  .next (s.lockRead b made)

/-- LOCK_VIOL. -/
def Mailbox.viol (t : Nat) (x : Mailbox) : Mailbox := { x with flags := x.flags.raise t 4 }

/-- A write of MBm_LOCK: the owner releases, and so does the Keeper whoever owns. -/
def State.lockWrite (m : Master) (b : Mbx) (s : State) : State :=
  s.modMbx b (fun x => if x.owner = masterNo m ∨ m = .keeper then { x with owner := 0 } else x.viol s.tick)

def execMbLockRelease (m : Master) (b : Mbx) (s : State) : Out := .next (s.access m (.mbLockRelease m b) (State.lockWrite m b))

/-! ### Posting (R259) -/

/-- What a write to POST or DOORBELL by a master that may not post does: LOCK_VIOL, and while BUSY also POST_BUSY. -/
def Mailbox.mayPost (m : Master) (x : Mailbox) : Bool := x.owner == masterNo m && !x.busy

def Mailbox.refusePost (t : Nat) (x : Mailbox) : Mailbox := { x.viol t with flags := (x.viol t).flags.raiseIf x.busy t 8 }

/-- A write of MBm_POST_LO or MBm_POST_HI. -/
def State.postWrite (m : Master) (b : Mbx) (hi : Bool) (w : W) (s : State) : State :=
  s.modMbx b (fun x =>
    if !x.mayPost m then x.refusePost s.tick
    else if hi then { x with postHi := w } else { x with postLo := w })

def execMbPostWrite (m : Master) (b : Mbx) (hi : Bool) (w : W) (s : State) : Out :=
  .next (s.access m (.mbPostWrite m b hi w) (State.postWrite m b hi w))

/-- A write of MBm_DOORBELL, m below 24: BUSY, and the pointer waits for the firmware in doorbell order (R259, R261, R262). -/
def State.doorbell (m : Master) (b : CmdMbx) (w : W) (s : State) : State :=
  let x := s.mbx[cmdMbx b]
  if !x.mayPost m then s.modMbx (cmdMbx b) (Mailbox.refusePost s.tick)
  else if !bit w 0 then s
  else
    let s := s.modMbx (cmdMbx b) (fun x => { x with
      busy := true, phase := .posted, poster := masterNo m, replyLost := false, bell := s.fw.bells + 1 })
    { s with fw := { s.fw with bells := s.fw.bells + 1 } }

def execMbDoorbell (m : Master) (b : CmdMbx) (w : W) (s : State) : Out :=
  .next (s.access m (.mbDoorbell m b w) (State.doorbell m b w))

/-! ### The command block (R260, R264, R267, R268) -/

/-- The area a block in the store may lie in: the host area of S5, or S2 and S3 while CAL_HALF (R208, R209, R260); its end, where an offset is in one. -/
def areaEnd (a : Nat) (s : State) : Option Nat :=
  if 0x2810000 ≤ a ∧ a < 0x3000000 then some 0x3000000
  else if s.store.calHalf ∧ 0x1000000 ≤ a ∧ a < 0x2000000 then some 0x2000000
  else none

/-- The pointer a mailbox holds. -/
def Mailbox.ptr (x : Mailbox) : Nat := join x.postHi x.postLo
/-- The block lies in host memory. -/
def Mailbox.inHost (x : Mailbox) : Bool := bit x.postHi 31
/-- The address of a block in host memory. -/
def Mailbox.hostAddr (x : Mailbox) : Nat := x.ptr % 2 ^ 63

/-- A pointer keeps the rules of R260: 32-byte boundary; in host memory, posted by the PCIe host; or in an area of the store. -/
def ptrOk (x : Mailbox) (s : State) : Bool :=
  x.ptr % 32 == 0 && (if x.inHost then x.poster == 6 else decide (x.ptr < 2 ^ 26) && (areaEnd x.ptr s).isSome)

/-- What R268 states of a command: the length of its body as far as the body gives a count, and the length of its reply; none for an opcode that is not
known. -/
def cmdShape (op : Nat) (body : List Byte) : Option (Nat × Nat) :=
  match op with
  | 0x00 => some (0, 0)
  | 0x01 => some (0, 64)
  | 0x02 => some (0, 64)
  | 0x03 => some (4, 8)
  | 0x10 => some (8 + 8 * u32 4 body, 8)
  | 0x11 => some (4, 600)
  | 0x18 => some (16 + 4 * u32 12 body, 0)
  | 0x19 => some (20, 24)
  | 0x20 => some (16 + 16 * u32 0 body, 24)
  | 0x21 => some (16, 24)
  | 0x22 => some (32, 16)
  | 0x23 => some (8, 4)
  | 0x24 => some (8, 8)
  | 0x25 => some (16, 16)
  | 0x30 => some (8 + 8 * u32 4 body, 8)
  | 0x31 => some (8 + 8 * u32 4 body, 8)
  | 0x38 => some (4 + 8 * u32 0 body, 8)
  | 0x39 => some (16, 0)
  | 0x40 => some (16, 0)
  | 0x48 => some (32, 0)
  | 0x49 => some (8, 0)
  | 0x50 => some (12, 16)
  | 0x51 => some (8, 8)
  | 0x52 => some (16, u32 12 body)
  | 0x58 => some (8, 4)
  | 0x60 => some (8, 16)
  | 0x61 => some (0, 8)
  | _ => none

/-- The judgement of a block whose SEQ is no repeat (R264, R267): the command to execute, or a status with its detail. `room` is how many bytes the area
holds from the block on. [DEDUCED, log entry 40] -/
def judgeBlock (h body : List Byte) (room : Nat) : Sum (Nat × Nat) (Nat × Nat) :=
  let op := leAt 0 2 h
  let len := leAt 8 4 h
  let cap := leAt 12 4 h
  match cmdShape op body with
  | none => .inr (stBadOpcode, 0)
  | some (want, reply) =>
    if leAt 2 2 h % 32768 ≠ 0 then .inr (stBadHdr, 2)
    else if len ≠ want ∨ 1048576 < len ∨ cap < len ∨ cap < reply ∨ room < 32 + cap then .inr (stBadLen, 0)
    else .inl (op, cap)

/-- A block has been read, header and body: its SEQ, the repeat test, and the header checks decide (R264). [DEDUCED, log entry 62] [DEDUCED, log entry 63] -/
def State.judge (b : CmdMbx) (h body : List Byte) (room : Nat) (s : State) : State :=
  let seq : W := BitVec.ofNat 32 (leAt 4 4 h)
  s.modMbx (cmdMbx b) (fun x =>
    if seq == 0xFFFFFFFF then { x with phase := .answered none true stBadHdr 4 [] }
    else if seq == x.lastSeq then { x with phase := .repeated seq }
    else match judgeBlock h body room with
      | .inl (op, cap) => { x with phase := .running op seq cap (body.take (leAt 8 4 h)) }
      | .inr (st, d) => { x with phase := .answered (some seq) true st d [] })

/-- The service firmware can pick up a command. -/
def fwPicks (s : State) : Bool := fwRuns s && !sleeping s

/-- Mailbox b is the first of those posted, in the order of their doorbells (R262). -/
def firstPosted (b : CmdMbx) (s : State) : Bool :=
  (List.finRange 24).all (fun c => c == b || s.mbx[cmdMbx c].phase != .posted || decide (s.mbx[cmdMbx b].bell < s.mbx[cmdMbx c].bell))

/-- The length of the body the firmware reads: BODY_LEN, where it is allowed and known. -/
def bodyLen (h : List Byte) (room : Nat) : Nat := if leAt 8 4 h ≤ 1048576 then min (leAt 8 4 h) (room - 32) else 0

/-- COMMAND_START: a block in the store is read and judged; the fetch of one in host memory begins (R251, R260, R264). A block in a segment that is
not open waits for its wake (R222). [DEDUCED, log entry 63] -/
def State.commandStart (b : CmdMbx) (s : State) : State :=
  let x := s.mbx[cmdMbx b]
  if x.phase != .posted || !fwPicks s || !firstPosted b s then s
  else if !ptrOk x s then s.modMbx (cmdMbx b) (fun x => { x with phase := .answered none false stBadHdr 0 [] })
  else if x.inHost then s.modMbx (cmdMbx b) (fun x => { x with phase := .fetching [] })
  else
    let room := (areaEnd x.ptr s).getD 0 - x.ptr
    let at_ (n : Nat) : List Nat := (List.range n).map (fun i => x.ptr + i)
    if !segOpen (segOf x.ptr) s then forAll (closedSegs (at_ 32) s) State.autoWake s
    else
      let s := s.winRead 18 (at_ 32)
      let h := s.store.arb[(18 : Fin 25)].rdata
      let rest := (at_ (32 + bodyLen h room)).drop 32
      let closed := closedSegs rest s
      if !closed.isEmpty then forAll closed State.autoWake s
      else
        let s := s.winRead 18 rest
        s.judge b h s.store.arb[(18 : Fin 25)].rdata room

def execCommandStart (b : CmdMbx) (s : State) : Out := .next (s.commandStart b)

/-! ### Completion (R263 to R265) -/

/-- The device can write host memory (R250). -/
def dmaReady (s : State) : Bool := s.pcie.up && s.pcie.bme && !s.pcie.d3hot

/-- Bytes of a reply written into the block of mailbox b; a block in host memory that cannot be written sets LINK_LOST instead. [DEDUCED, log entry 62] -/
def State.replyWrite (b : CmdMbx) (cells : List (Nat × Byte)) (s : State) : State :=
  let x := s.mbx[cmdMbx b]
  if !x.inHost then s.winWrite 18 (cells.map (fun c => (x.ptr + c.1, c.2)))
  else if dmaReady s && !x.replyLost then
    { s with pcie := { s.pcie with out := cells.foldl (fun m c => upsert (x.hostAddr + c.1) c.2 m) s.pcie.out } }
  else s.modMbx (cmdMbx b) (fun x => { x with flags := x.flags.raise s.tick (flag 4 true) })

/-- Bytes at consecutive offsets. [DESIGN CHOICE, log entry 61] -/
def cellsAt (o : Nat) (bs : List Byte) : List (Nat × Byte) := bs.zipIdx.map (fun p => (o + p.2, p.1))

/-- STATUS, DETAIL, REPLY_LEN and DONE_LT in a header. -/
def headerCells (status detail len lt : Nat) : List (Nat × Byte) :=
  cellsAt 16 (leBytes 2 status ++ leBytes 2 detail ++ leBytes 4 len ++ leBytes 8 lt)

/-- The mailbox after a completion: BUSY clears and DONE is set in one step. -/
def Mailbox.complete (t status detail : Nat) (x : Mailbox) : Mailbox :=
  { x with
    busy := false, phase := .idle, replyLost := false, result := status, detail := detail, flags := x.flags.raise t 2 }

/-- The segments a completion waits for: those of a block in the store that its reply is written to, n bytes of header and reply in all (R222). -/
def replyClosed (b : CmdMbx) (n : Nat) (s : State) : List Seg :=
  let x := s.mbx[cmdMbx b]
  if x.inHost then [] else closedSegs ((List.range n).map (fun i => x.ptr + i)) s

/-- The length of the block that the completion of a mailbox writes to. -/
def Mailbox.written (x : Mailbox) : Nat :=
  match x.phase with
  | .answered _ true _ _ reply => 32 + reply.length
  | .repeated _ => 32
  | _ => 0

/-- The reply, then the record of the outcome, of a command that has one. [DEDUCED, log entry 63] -/
def State.completeNow (b : CmdMbx) (s : State) : State :=
  match s.mbx[cmdMbx b].phase with
  | .answered seq block status detail reply =>
    let s := s.when block (State.replyWrite b (headerCells status detail reply.length s.time.lt ++ cellsAt 32 reply))
    s.modMbx (cmdMbx b) (fun x =>
      let y := x.complete s.tick status detail
      match seq with
      | none => y
      | some q => { y with
          lastSeq := q, recStatus := status, recDetail := detail, replyLen := reply.length, doneLt := s.time.lt })
  | .repeated _ =>
    let x := s.mbx[cmdMbx b]
    let s := s.replyWrite b (cellsAt 2 [0, 0x80] ++ headerCells x.recStatus x.recDetail x.replyLen x.doneLt)
    s.modMbx (cmdMbx b) (fun x => x.complete s.tick x.recStatus x.recDetail)
  | _ => s

/-- COMMAND_COMPLETE. A block in a segment that is not open waits for its wake (R222). [DEDUCED, log entry 63] [DESIGN CHOICE, log entry 82] -/
def State.commandComplete (b : CmdMbx) (s : State) : State :=
  let closed := replyClosed b s.mbx[cmdMbx b].written s
  if !fwRuns s || s.pwr.mode != 0 then s
  else if closed.isEmpty then s.completeNow b
  else forAll closed State.autoWake s

def execCommandComplete (b : CmdMbx) (s : State) : Out := .next (s.commandComplete b)

/-! ### Notices (R266) -/

/-- Notice mailbox i. -/
def noticeMbx (i : Fin 8) : Mbx := ⟨24 + i.val, by omega⟩

/-- Who posts in notice mailbox i can: the Keeper in 31, the service firmware, which waits during a restart, in the others (R266, R288). -/
def noticeReady (i : Fin 8) (s : State) : Bool := if i.val = 7 then s.fw.keeperUp else fwPicks s

/-- A notice is posted: the lock is taken, the notice written into a slot of the mailbox's own 8 KiB, its offset posted, and DONE set. Which slot,
which Watch core, LEN and the data bytes are free. [DESIGN CHOICE, log entry 49] -/
def State.noticeOut (i : Fin 8) (n : Notice) (rest : List Notice) (s : State) : State :=
  let x := s.mbx[noticeMbx i]
  let a := 0x2800000 + i.val * 8192 + s.freeBelow 32 * 256
  let len := s.used.freeBelow 241
  let data := leBytes 240 (s.used.used.freeBelow (2 ^ 1920))
  let owner := if i.val = 7 then 1 else 2 + s.used.used.used.freeBelow 4
  let bytes := leBytes 2 n.code ++ leBytes 2 len ++ leBytes 4 x.lost ++ leBytes 8 n.lt ++ data
  let s := { s.used.used.used.used with store := { s.store with
    mem := memWrites a bytes s.store.mem, bad := s.store.bad.filter (fun w => decide (w < a) || decide (a + 256 ≤ w)) } }
  s.modMbx (noticeMbx i) (fun x => { x with
    owner := owner, postLo := BitVec.ofNat 32 a, postHi := 0, queue := rest, shown := some n, lost := 0
    flags := x.flags.raise s.tick 2 })

/-- NOTICE_POST: the first queued notice, once the mailbox is free and its poster runs; in a retained segment it waits for the wake (R222, R266). -/
def State.noticePost (i : Fin 8) (s : State) : State :=
  let x := s.mbx[noticeMbx i]
  match x.queue with
  | [] => s
  | n :: rest =>
    if x.shown.isSome || x.owner != 0 || !noticeReady i s then s
    else if segOpen 5 s then s.noticeOut i n rest
    else s.autoWake 5

def execNoticePost (i : Fin 8) (s : State) : Out := .next (s.noticePost i)

/-- MB_NOTICE_ACK: DONE clears, and the lock is free for the next notice. [DESIGN CHOICE, log entry 49] -/
def State.noticeAck (i : Fin 8) (w : W) (s : State) : State :=
  if !bit w 0 || s.mbx[noticeMbx i].shown.isNone then s
  else s.modMbx (noticeMbx i) (fun x => { x with flags := x.flags.drop 2, shown := none, owner := 0 })

def execMbNoticeAck (m : Master) (i : Fin 8) (w : W) (s : State) : Out :=
  .next (s.access m (.mbNoticeAck m i w) (State.noticeAck i w))

end Sys2Proof.Machine
end

