-- ==== Sys2Proof/Machine/Link.lean ====
section
/-!
DEFINITION. The PCI Express function, its resets and its DMA engine (R240, R247 to R252), BAR2 (R223), and the QSPI transactions that reach no register
(R253, R256).
-/
namespace Sys2Proof.Machine

/-! ### The resets of R249 -/

/-- A command whose fetch of its block or of its records is cut off ends with DMA_ERR (R252). [DEDUCED, log entry 59] -/
def State.cutDma (b : CmdMbx) (s : State) : State :=
  match s.mbx[cmdMbx b].phase with
  | .fetching _ => s.modMbx (cmdMbx b) (fun x => { x with phase := .answered none false stDmaErr 1 [] })
  | .running .. => if s.mbx[cmdMbx b].cal.active && s.mbx[cmdMbx b].cal.dma then s.calFinish b stDmaErr 0 else s
  | _ => s

/-- An unanswered command whose block lies in host memory loses its link (R249, R265). [DEDUCED, log entry 59] -/
def Mailbox.loseLink (t : Nat) (x : Mailbox) : Mailbox :=
  if x.busy && x.inHost then { x with flags := x.flags.raise t (flag 4 true), replyLost := true } else x

/-- PERST_n low, a hot reset or a Function Level Reset; `down` says that the link goes down with it. [DEDUCED, log entry 59] -/
def State.pcieReset (down : Bool) (s : State) : State :=
  let p := s.pcie
  let keep : Pcie := { perst := p.perst, since := p.since, out := p.out, qs := p.qs, qsData := p.qsData }
  let s := { s with
    pcie := if down then keep else { keep with up := p.up, width2 := p.width2, speed := p.speed }
    eic := { s.eic with msix := Vector.replicate 32 {}, pba := 0, pme := false }
    store := { s.store with held := [] }
    pwr := { s.pwr with held := [] }
    mbx := s.mbx.map (fun (x : Mailbox) => (if x.owner = 6 then { x with owner := 0 } else x).loseLink s.tick) }
  let s := s.modTgt 5 (fun x => { x with stack := [], thr := 0, sleep := false })
  (forAll (List.finRange 24) State.cutDma s).deliver

/-- PERST_N: its fall resets the function, its rise lets the link train (R248, R249). [DEDUCED, log entry 59] -/
def State.perstPin (low : Bool) (s : State) : State :=
  if low then { (s.pcieReset true) with pcie := { (s.pcieReset true).pcie with perst := true } }
  else if s.pcie.perst then { s with pcie := { s.pcie with perst := false, since := s.tick } }
  else s

def execPerstN (low : Bool) (s : State) : Out := .next (s.perstPin low)
def execHotReset (s : State) : Out := .next (if s.pcie.up then s.pcieReset true else s)
def execFunctionLevelReset (s : State) : Out := .next (if s.pcie.up then s.pcieReset false else s)

/-- PE_RAIL_DROP: whichever rail it is, the scope of R249, and the link goes down (R340). -/
def execPeRailDrop (_vddh : Bool) (s : State) : Out := .next (s.pcieReset true)

/-! ### The link (R247, R248) -/

def speedCode : LinkSpeed → BitVec 2
  | .gt25 => 1
  | .gt50 => 2
  | .gt80 => 3

/-- LINK_UP: the link trains with PERST_n high; not while the core reset holds the function (R248, R343). -/
def execLinkUp (width2 : Bool) (speed : LinkSpeed) (s : State) : Out :=
  .next (if s.pcie.perst || s.boot.held then s
    else ({ s with pcie := { s.pcie with up := true, width2 := width2, speed := speedCode speed } }).deliver)

/-- LINK_DOWN: target H is asleep without a link (R240). -/
def execLinkDown (s : State) : Out :=
  .next ({ s with pcie := { s.pcie with up := false, width2 := false, speed := 0 } } : State).deliver

/-- What a configuration request that is not retried does. A read of the first word gives the identity (R247). -/
def State.config (r : CfgReq) (s : State) : State :=
  let p := s.pcie
  match r with
  | .readId => s.ret .pcie 0x61281BAE
  | .busMaster on => { s with pcie := { p with bme := on } }
  | .d3hot on => ({ s with pcie := { p with d3hot := on } } : State).deliver
  | .pmeEnable on => { s with pcie := { p with pmeEn := on } }
  | .msixEnable on => { s with pcie := { p with msix := on } }
  | .msiEnable on k => { s with pcie := { p with msi := if on then some (min 5 k.val) else none } }
  | .maxPayload k => { s with pcie := { p with maxPay := k.val } }
  | .maxReadReq k => { s with pcie := { p with maxReq := k.val } }
  | .complTimeout e => { s with pcie := { p with tmoEnc := e } }

/-- CONFIG_REQUEST: retried until the boot is done (R248). One that comes while the device sleeps wakes it and waits (R356, R357). -/
def State.configRequest (r : CfgReq) (s : State) : State :=
  if !s.pcie.up then s
  else if cfgRetried s then { s with pcie := { s.pcie with retried := true } }
  else
    let s := { s with pcie := { s.pcie with retried := false } }
    if s.pwr.mode != 0 then
      ({ s with pwr := { s.pwr with held := s.pwr.held ++ [Instr.configRequest r] } }).wakeIf (bit s.pwr.cfg 0) wkPcie
    else s.config r

def execConfigRequest (r : CfgReq) (s : State) : Out := .next (s.configRequest r)

/-- BAR2_ACCESS (R223). -/
def execBar2Access (a : WinAccess) (s : State) : Out := .next (s.pcieReq (.bar2Access a) (State.hostAccess a))

/-! ### The DMA engine (R251, R252) -/

/-- The records of CAL_WRITE_DMA not yet fetched. -/
def CalJob.unfetched (j : CalJob) : Nat := if j.active && j.dma then j.total - j.done - j.recs.length else 0

/-- The command that DMA channel 0 fetches for, and the one that channel 1 fetches: the first by doorbell. -/
def dmaOwner (f : Mailbox → Bool) (s : State) : Option CmdMbx :=
  (List.finRange 24).foldl (fun (r : Option CmdMbx) b =>
    if f s.mbx[cmdMbx b] then
      match r with
      | none => some b
      | some c => if s.mbx[cmdMbx b].bell < s.mbx[cmdMbx c].bell then some b else some c
    else r) none

def fetchesRecs (x : Mailbox) : Bool := decide (0 < x.cal.unfetched)
def fetchesBlock (x : Mailbox) : Bool := match x.phase with
  | .fetching _ => true
  | _ => false

/-- DMA channel c has a transfer in progress. What goes to host memory is written within the step that makes it. -/
def dmaActive (c : Nat) (s : State) : Bool :=
  match c with
  | 0 => (dmaOwner fetchesRecs s).isSome
  | 1 => (dmaOwner fetchesBlock s).isSome
  | _ => false

/-- The engine reads: it has a link and may master the bus, and no Watch restart pauses the channels 0 and 1 (R250, R286). -/
def dmaReads (s : State) : Bool := dmaReady s && !s.fw.restarting && s.pwr.mode == 0

/-- Records that come for CAL_WRITE_DMA follow those fetched before. [DEDUCED, log entry 60] -/
def State.dmaRecs (b : CmdMbx) (data : List Byte) (s : State) : State :=
  s.modMbx (cmdMbx b) (fun x => { x with cal := { x.cal with
    recs := x.cal.recs ++ recsOf data (min x.cal.unfetched (data.length / 16)) } })

/-- Bytes that come for a command block: once the header and its body are there, the block is judged (R264). [DEDUCED, log entry 60] -/
def State.dmaBlock (b : CmdMbx) (data : List Byte) (s : State) : State :=
  match s.mbx[cmdMbx b].phase with
  | .fetching got =>
    let got := got ++ data
    if 32 ≤ got.length ∧ 32 + bodyLen got (2 ^ 63) ≤ got.length then
      s.judge b (got.take 32) ((got.drop 32).take (bodyLen got (2 ^ 63))) (2 ^ 63)
    else s.modMbx (cmdMbx b) (fun x => { x with phase := .fetching got })
  | _ => s

/-- DMA_COMPLETION: data come for the transfer of a channel. [DEDUCED, log entry 60] -/
def State.dmaData (c : Fin 4) (data : List Byte) (s : State) : State :=
  if !dmaReads s then s
  else match c.val with
    | 0 => (dmaOwner fetchesRecs s).elim s (fun b => s.dmaRecs b data)
    | 1 => (dmaOwner fetchesBlock s).elim s (fun b => s.dmaBlock b data)
    | _ => s

def execDmaCompletion (c : Fin 4) (data : List Byte) (s : State) : Out := .next (s.dmaData c data)

/-- DMA_COMPLETION_TIMEOUT: a read that failed ends the transfer in progress, with ERR of its channel. [DEDUCED, log entry 60] -/
def State.dmaFail (c : Fin 4) (s : State) : State :=
  let who := match c.val with
    | 0 => dmaOwner fetchesRecs s
    | 1 => dmaOwner fetchesBlock s
    | _ => none
  match who with
  | none => s
  | some b => ({ s with pcie := { s.pcie with dmaErr := s.pcie.dmaErr.raise s.tick (flag (12 + c.val) true) } } : State).cutDma b

def execDmaCompletionTimeout (c : Fin 4) (s : State) : Out := .next (if dmaReads s then s.dmaFail c else s)

/-! ### QSPI transactions that reach no register (R253, R256, R357) -/

/-- The status byte. -/
def qspiStatus (s : State) : Byte :=
  BitVec.ofNat 8 ((if s.fw.ready && s.pwr.mode == 0 then 1 else 0)
    + (if s.ch.toList.any (fun c => c.aborted) then 2 else 0)
    + (if s.pcie.qs.get 0 then 4 else 0)
    + (if s.health.sum.get 0 then 8 else 0)
    + (if irq0Low s then 16 else 0))

def State.qspiOut (bs : List Byte) (s : State) : State := { s with pcie := { s.pcie with qsData := bs } }

def execQspiStatus (s : State) : Out := .next (s.qspiOut [qspiStatus s])

/-- The opcodes of R253. -/
def qspiOps : List Byte := [0x0B, 0x02, 0xEB, 0x38, 0x05]

/-- QSPI_BAD_OP; a sleeping device ignores it, and wakes (R357). -/
def State.qspiBad (op : Byte) (s : State) : State :=
  if qspiOps.contains op then s
  else if s.pwr.mode != 0 then s.wakeIf (bit s.pwr.cfg 1) wkQspi
  else { s with pcie := { s.pcie with qs := s.pcie.qs.raise s.tick 2 } }

def execQspiBadOp (op : Byte) (s : State) : Out := .next (s.qspiBad op)

end Sys2Proof.Machine
end

