-- ==== Sys2Proof/Machine/Power.lean ====
section
/-!
DEFINITION. Power modes and clocks (R19, R20, R302, R345, R351 to R358): SLEEP and its entry, the wake sources, RUN reached, and the changes of LT's
source.
-/
namespace Sys2Proof.Machine

/-! ### The automatic wake (R354) -/

/-- The bucket of the earliest pending time event's ball time, none with an empty calendar. -/
def firstBucket (s : State) : Option Nat :=
  ((s.cal.wheel ++ s.cal.ovfl).map (fun e => bucketOf (e.refresh s).ball)).foldl
    (fun (r : Option Nat) b => match r with
      | none => some b
      | some c => some (min b c)) none

/-- S, the tick at which staging of a bucket begins. -/
def stagingTick (b : Nat) (s : State) : Int := ((b : Int) - s.cal.win + 1) * 512

/-- LEAD of a mode in ticks. -/
def leadOf (mode : Nat) (s : State) : Nat := if mode = 2 then s.pwr.lead.toNat else fld s.pwr.stby 0 24

/-- T_wk of a mode in ticks, where an automatic wake is asked for and an event is pending. -/
def wakeTick (mode : Nat) (auto : Bool) (s : State) : Option Int :=
  if auto then (firstBucket s).map (fun b => stagingTick b s - leadOf mode s) else none

/-! ### SLEEP (R353) -/

/-- An event is staged, armed or in a fast lane, or a spill or a result backlog is not empty. -/
def podsBusy (s : State) : Bool :=
  allPods.any (fun p =>
    let q := s.pod[p]
    !q.staging.isEmpty || !q.spill.isEmpty || !q.fast.isEmpty || !(armedEvs p s).isEmpty || !q.res.backlog.isEmpty)

/-- A position event is pending, unjudged or committed. -/
def posBusy (s : State) : Bool :=
  !s.cal.pos.isEmpty || allPods.any (fun p => !s.pod[p].commits.isEmpty || (armedEvs p s).any (fun e => !e.rec_.timed))

/-- A channel keeps the device from sleeping: a unit or the reflex term armed, the Pip running, frozen, or spilling. -/
def chBusy (c : Channel) : Bool :=
  c.unit.toList.any (fun u => u.live || u.shadow || u.hit.isSome) || c.rfx.armed || !c.rfx.pend.isEmpty || c.pip.run || c.frz || c.cap.spilling

/-- A command of another mailbox runs, or a DMA transfer is in progress. -/
def othersBusy (b : CmdMbx) (s : State) : Bool :=
  (List.finRange 24).any (fun c => c != b && s.mbx[cmdMbx c].phase != .idle && s.mbx[cmdMbx c].phase != .posted)
    || dmaActive 0 s || dmaActive 1 s

/-- The DETAIL with which SLEEP is refused, the first of the table that holds. -/
def sleepRefusal (b : CmdMbx) (mode : Nat) (auto : Bool) (s : State) : Option Nat :=
  let gap : Int := if mode = 2 then 400000 else 40000
  if !auto && !(s.cal.wheel.isEmpty && s.cal.ovfl.isEmpty) then some 1
  else if podsBusy s then some 2
  else if (wakeTick mode auto s).any (fun t => decide (t * 32 < (s.time.lt : Int) + gap * 32)) then some 3
  else if posBusy s then some 4
  else if s.ch.toList.any chBusy || s.sur.running || s.abort.going != 0 then some 5
  else if othersBusy b s then some 6
  else none

/-- The longest an entry takes, in frac (R355). -/
def entryBound (mode : Nat) : Nat := if mode = 2 then 1280000 else 128000

/-- SLEEP: the conditions, then the reply and the entry. The LT of entry, which lies ahead of the reply, is free within the bound of R355. [DEDUCED, log entry 40] [DEDUCED, log entry 57] -/
def State.sleep (b : CmdMbx) (body : List Byte) (s : State) : State :=
  let mode := u32 0 body
  let auto := (u32 4 body).testBit 0
  if mode ≠ 1 ∧ mode ≠ 2 then s.answer b stBadField 0 []
  else match sleepRefusal b mode auto s with
    | some d => s.answer b stSleepRefused d []
    | none =>
      let wk := (wakeTick mode auto s).map Int.toNat
      let reply := leBytes 8 (s.time.lt + s.freeBelow (entryBound mode + 1)) ++ leBytes 8 (wk.getD 0 * 32)
      let s := { s.used with pwr := { s.pwr with
        target := BitVec.ofNat 2 mode, entering := true, waking := false, autoWake := wk.isSome
        nextWake := wk.getD 0 * 32, stageAt := ((firstBucket s).map (fun x => (stagingTick x s).toNat)).getD 0 } }
      s.answer b stOk 0 reply

def execSleep (b : CmdMbx) (s : State) : Out := .next (s.command b 0x60 (State.sleep b))

/-- WAKE: the LT at which RUN was reached. -/
def execWake (b : CmdMbx) (s : State) : Out :=
  .next (s.command b 0x61 (fun _ s => s.answer b stOk 0 (leBytes 8 s.pwr.runLt)))

/-- A gated counter counts nothing while no level is seen (R352). -/
def Channel.gateOff (tw : Nat) (c : Channel) : Channel :=
  if c.ctr.mode == 3 && c.en && c.ctr.run && c.ctr.gateAct then
    { c with ctr := { c.ctr with gateAct := false, phase := c.ctr.next - tw } }
  else c

/-- The segments that sleep retains: in HIBERNATE all, in STANDBY those R221 permits. -/
def sleepSegs (mode : BitVec 2) (s : State) : BitVec 6 :=
  if mode = 2 then 0x3F else (segsOf 0x3F).foldl (fun v g => if retainRefused g.val s then v else segSet g true v) 0

/-- LT rises no more to full resolution: COARSE, and its flag (R19, LT_STATUS). -/
def State.setRes (r : BitVec 2) (s : State) : State :=
  { s with time := { s.time with res := r, flags := s.time.flags.raiseIf (r != 0 && s.time.res == 0) s.tick 8 } }

/-- SLEEP_ENTRY_DONE: the mode is entered once the reply is written; LT goes on from the sleeping source, the converter's reference is off in HIBERNATE,
and segments are retained (R19, R320, R351, R355). [DEDUCED, log entry 57] -/
def State.sleepEntered (s : State) : State :=
  if !s.pwr.entering || s.mbx.toList.any (fun x => match x.phase with
    | .answered .. => true
    | .repeated _ => true
    | _ => false) then s
  else
    let hib := s.pwr.target == 2
    let s := if hib then forAll allChs (fun n s => (s.countTo n).modCh n (Channel.gateOff s.tw)) s
      else { s with axis := s.axis.map (fun a => { a with coarse := true }) }
    let segs := sleepSegs s.pwr.target s
    let s := s.used.setRes s.pwr.target
    let s := { s with
      time := { s.time with
        pllLock := false, xinOk := !hib && s.time.xinOk, backup := !hib && s.time.backup, rtcOk := hib || s.time.rtcOk }
      pwr := { s.pwr with mode := s.pwr.target, entering := false, keep := s.store.retained }
      store := { s.store with retained := s.store.retained ||| segs, transit := s.store.transit &&& ~~~segs }
      adc := { s.adc with refReady := !hib && s.adc.refReady } }
    s.notice 5 [BitVec.ofNat 8 s.pwr.mode.toNat]

def execSleepEntryDone (s : State) : Out := .next s.sleepEntered

/-! ### Wakes (R302, R354, R356) -/

/-- One step of the source LT counts from, in frac (R19). -/
def ltIncr (s : State) : Nat :=
  match s.time.res with
  | 0 => 32
  | 1 => 512
  | _ => 390625

/-- AUTO_WAKE: the last edge of the sleeping clock at or before T_wk. -/
def execAutoWake (s : State) : Out :=
  .next (if s.pwr.mode != 0 && s.pwr.autoWake && decide (s.pwr.nextWake < s.time.lt + ltIncr s) then s.wakeBy wkCal else s)

/-- The first channel or axis of a wake is named (PWR_WAKE_SRC). -/
def State.wakeName (isFirst : Bool) (f : Power → Power) (s : State) : State :=
  if isFirst then { s with pwr := f s.pwr } else s

/-- WAKE_SOURCE, where the source is enabled. RTC32I failing in HIBERNATE wakes to STANDBY (R302). [DEDUCED, log entry 57] -/
def State.wakeSource (w : WakeSrc) (s : State) : State :=
  let fresh (i : Nat) : Bool := sleeping s && (!s.pwr.waking || (s.pwr.wakeLt == s.time.lt && !s.pwr.wakeSrc.get i))
  match w with
  | .axis k =>
    if bit s.axis[k].cfg 14 && bit s.pwr.cfg 4 then
      (s.wakeBy wkAxis).wakeName (fresh wkAxis) (fun p => { p with wakeAx := some k.val })
    else s
  | .channel n =>
    if bit s.pwr.chans[(⟨n.val / 32 % 4, by omega⟩ : Fin 4)] (n.val % 32) && bit s.pwr.cfg 3 then
      (s.wakeBy wkChannel).wakeName (fresh wkChannel) (fun p => { p with wakeCh := some n.val })
    else s
  | .pcie => s.wakeIf (bit s.pwr.cfg 0) wkPcie
  | .qspi => s.wakeIf (bit s.pwr.cfg 1) wkQspi
  | .supply => s.wakeIf (bit s.pwr.cfg 2) wkSupply
  | .safeN => s.wakeBy wkSafe
  | .clock =>
    if s.pwr.mode == 2 then
      let s := s.wakeBy wkClock
      { s with time := { s.time with rtcOk := false }, pwr := { s.pwr with mode := 1 } }
    else s

def execWakeSource (w : WakeSrc) (s : State) : Out := .next (s.wakeSource w)

/-- The lists of R334: the last eight wakes from HIBERNATE, in ticks. -/
def keepEight (d : Nat) (l : List Nat) : List Nat := (d :: l).take 8

/-- RUN is reached (R351, R352, R355): counters, axes, converter, segments and calendar go on. [DEDUCED, log entry 57] -/
def State.toRun (s : State) : State :=
  let hib := s.pwr.target == 2
  let late := s.pwr.autoWake && decide (s.pwr.stageAt < s.tick)
  let s := { s with
    axis := s.axis.map (fun (a : Axis) =>
      let moved := hib && a.moved
      { a with
        coarse := false, moved := a.moved && !hib
        ref := if hib then a.pins else a.ref
        err := a.err.raiseIf moved s.tick erSuspect })
    adc := s.adc.wake hib s.tick
    boot := if hib then { s.boot with cause := 8 } else s.boot
    pod := if hib then s.pod.map (fun q => { q with uc := { q.uc with corr := [] } }) else s.pod
    store := { s.store with retained := s.pwr.keep }
    sur := if hib then { s.sur with wakes := keepEight ((s.time.lt - s.pwr.wakeLt) / 32) s.sur.wakes } else s.sur
    pwr := { s.pwr with
      mode := 0, waking := false, autoWake := false, nextWake := 0, runLt := s.time.lt
      flags := s.pwr.flags.raiseIf late s.tick (flag 4 true) } }
  let s := if hib then forAll allChs (fun n s => s.modCh n (fun c =>
      if c.ctr.mode == 3 then c.setGate s.tw (c.en && c.ctr.run) (srcLevel (podOf n) c.ctr.srcSel s) else c)) s
    else s
  ((s.bucketBoundary).notice 5 [0]).deliver

/-- RUN can be reached: a wake has begun and the PLL is locked (R351). -/
def runDue (s : State) : Bool := s.pwr.mode != 0 && s.pwr.waking && s.time.pllLock && s.time.res == 0

/-! ### Clocks (R19, R20, R302, R345) -/

/-- LT and its two counters at a new value (R19, R301). -/
def State.ltTo (v : Nat) (s : State) : State := { s with time := { s.time with lt := v, ctrA := v, ctrB := v } }

/-- XIN_OSC_STABLE: XIN runs. LT moves to it at once, or from RTC32I at its next edge (R20). In HIBERNATE the oscillator starts with a wake only. [DEDUCED, log entry 57] [DEDUCED, log entry 58] -/
def State.xinStable (s : State) : State :=
  if s.pwr.mode == 2 && !s.pwr.waking then s
  else
    let s1 := { s with time := { s.time with xinOk := true } }
    if s.time.res == 2 && s.time.rtcOk then s1 else s1.setRes (if s.time.pllLock then 0 else 1)

def execXinOscStable (s : State) : Out := .next s.xinStable

/-- PLL_LOCK: LT returns to full resolution, at a whole tick; on XIN, FREQ_DEGRADED clears (R302, R345). The PLL is off while the device sleeps. [DEDUCED, log entry 57] [DEDUCED, log entry 58] [DESIGN CHOICE, log entry 82] -/
def State.pllLocks (s : State) : State :=
  if !(s.time.xinOk || s.time.backup) || s.time.res == 2 || (s.pwr.mode != 0 && !s.pwr.waking) then s
  else
    let s := s.ltTo ((s.time.lt + 31) / 32 * 32)
    { s with time := { s.time with pllLock := true, res := 0, degraded := s.time.degraded && s.time.backup } }

def execPllLock (s : State) : Out := .next s.pllLocks

/-- XIN_FAIL: the internal oscillator takes over (R302). -/
def State.xinFails (s : State) : State :=
  if !s.time.xinOk || s.time.backup then s
  else
    let s := { s with
      time := { s.time with xinOk := false, backup := true, degraded := true }
      health := { s.health with backup := s.health.backup.bump s.tick 1 65535 } }
    s.breach brBackup

def execXinFail (s : State) : Out := .next s.xinFails

/-- XIN_RESTORE: XIN has run within its tolerance for 10 ms and the PLL goes back to it; FREQ_DEGRADED clears with the lock. -/
def execXinRestore (s : State) : Out :=
  .next (if s.time.backup then { s with time := { s.time with xinOk := true, backup := false } } else s)

/-! ### Time passes (R12, R19, R20) -/

/-- One step of the source LT counts from: a tick from FCLK, an XIN cycle, or an RTC32I cycle, at whose edge LT goes over to XIN where that runs
(R19, R20). Without XIN after a reset the first RTC32I edge makes it the source; without any clock LT stands (R12). [DESIGN CHOICE, log entry 1] -/
def State.idle (s : State) : State :=
  if s.time.res == 2 then
    if !s.time.rtcOk then s
    else (s.ltTo (s.time.lt + ltIncr s)).when s.time.xinOk (State.setRes (if s.time.pllLock then 0 else 1))
  else if !s.time.xinOk && !s.time.backup then ({ s with time := { s.time with rtcOk := true } } : State).setRes 2
  else s.ltTo (s.time.lt / 32 * 32 + ltIncr s)

end Sys2Proof.Machine
end

