-- ==== Sys2Proof/Machine/Boot.lean ====
section
/-!
DEFINITION. Resets, boot and microcode loading (R201 to R204, R340 to R350, R384), TESTMODE and the test buses (R364, R365), the balls under reset, brown-out
and boundary scan, and the test access port (R366, R367).
-/
namespace Sys2Proof.Machine

/-! ### Resets (R340, R343, R344) -/

/-- A filter over a reset keeps the level at its pin (R384). -/
def InFilt.keep (t : Nat) (f : InFilt) : InFilt := ({} : InFilt).take t f.raw

/-- The device out of a reset that leaves the always-on domain alone: everything at its reset value but LT and its clocks, AON_POR, the fuses, the levels at the
pins, and what has left the device. `cause` is added to RST_CAUSE (R340, R344). [DEDUCED, log entry 64] -/
def State.coreReset (cause : BitVec 4) (s : State) : State :=
  let t := s.time
  let r := State.reset
  { r with
    time := { t with
      ofs := 0, ofsPrev := 0, ofsTick := 0
      flags := { bits := (t.flags.bits &&& 0x10) ||| flag 3 (t.res != 0) } }
    ch := tabulate 128 (fun n =>
      let c := Channel.reset (s.fuse.skew[n]) n
      { c with filt := s.ch[n].filt.keep s.tick, ownPin := s.ch[n].ownPin, vioFault := s.boot.vioDown.getLsbD (podOf n).val })
    axis := s.axis.map (fun (a : Axis) => { ({} : Axis) with pins := a.pins })
    health := { r.health with pod := s.health.pod.map (fun h => { ({} : PodHealth) with spb := h.spb.keep s.tick }) }
    abort := { r.abort with safeLow := s.abort.safeLow }
    adc := { r.adc with
      temp25 := s.fuse.temp25
      unit := tabulate 5 (fun u => { ofs := s.fuse.ofs[u], gain := s.fuse.gain[u], role := BitVec.ofNat 3 u.val }) }
    eic := { r.eic with sent := s.eic.sent }
    pcie := { r.pcie with perst := s.pcie.perst, since := s.pcie.since, out := s.pcie.out }
    fuse := s.fuse
    jtag := { s.jtag with unlocked := false }
    boot := { r.boot with
      testmode := s.boot.testmode, vioDown := s.boot.vioDown, flashed := s.boot.flashed
      cause := (if s.boot.held then s.boot.cause else 0) ||| cause }
    free := s.free
    pending := s.pending }

/-- AON_POR: the whole device, LT from 0, AON_POR set; at a cold power-up the other rails hold the core reset as well (R12, R340). [DEDUCED, log entry 64] -/
def State.aonReset (cold : Bool) (s : State) : State :=
  let r := s.coreReset 0
  { r with time := {}, jtag := {}, boot := { r.boot with cause := if cold then 3 else 1 } }

def execAonPor (cold : Bool) (s : State) : Out := .next (s.aonReset cold)

/-- CORE_RESET: VDD or AVDD below its reset level, with one effect. -/
def execCoreReset (_avdd : Bool) (s : State) : Out := .next (s.coreReset 2)

/-- RESET_N: a pulse that acts resets in full; one that is ignored does nothing (R343). -/
def execResetN (acts : Bool) (s : State) : Out := .next (if acts then s.coreReset 4 else s)

/-- TESTMODE high holds the core reset (R364). -/
def execTestmode (high : Bool) (s : State) : Out :=
  .next (if high then { (s.coreReset 0) with boot := { (s.coreReset 0).boot with testmode := true } }
    else { s with boot := { s.boot with testmode := false } })

/-- VIO_BROWNOUT: the bank's balls and VIO_FAULT; before the release it holds the core reset (R340). -/
def State.vioDrops (p : Pod) (s : State) : State :=
  let b := { s.boot with vioDown := s.boot.vioDown ||| BitVec.ofNat 8 (2 ^ p.val) }
  if s.boot.held then { s with boot := { b with cause := b.cause ||| 2 } } else ({ s with boot := b }).vioFault p true

def execVioBrownout (p : Pod) (s : State) : Out := .next (s.vioDrops p)

/-- VIO_RETURN: 10 µs after the rail is back; the fault of the supervisor is its own (R323, R342). -/
def execVioReturn (p : Pod) (s : State) : Out :=
  .next (({ s with boot := { s.boot with vioDown := s.boot.vioDown &&& ~~~BitVec.ofNat 8 (2 ^ p.val) } } : State).vioFault p
    (bit s.sur.sup (8 + p.val)))

/-! ### Microcode (R201 to R204) -/

/-- Two records touch one address of one pod. -/
def patchOverlap (a b : PatchRec) : Bool :=
  a.podMask &&& b.podMask != 0 && decide (a.start < b.start + b.words.length) && decide (b.start < a.start + a.words.length)

/-- No record overlaps one behind it. -/
def noOverlap : List PatchRec → Bool
  | [] => true
  | a :: r => r.all (fun b => !patchOverlap a b) && noOverlap r

/-- The rules of R203. -/
def recsOk (l : List PatchRec) : Bool :=
  decide (1 ≤ l.length) && decide (l.length ≤ 64)
    && l.all (fun r => r.podMask != 0 && decide (1 ≤ r.words.length) && decide (r.start + r.words.length ≤ 4096))
    && noOverlap l && decide ((l.map (fun r => r.words.length)).sum ≤ 2048)

/-- The PATCH_CODE of a container, 0 where it passes every check (R204). -/
def patchCode (floor : Nat) (i : PatchIn) : Nat :=
  if !i.formatOk then 2
  else if i.targetStep != 0x21 then 3
  else if i.level < floor then 4
  else if !i.keyHashOk then 5
  else if !i.sigOk then 6
  else if !i.tagOk then 7
  else if !recsOk i.recs then 8
  else 0

/-- The records of a pod put into its control store. -/
def patchWords (p : Pod) (l : List PatchRec) : List (Nat × BitVec 128) :=
  (l.filter (fun r => r.podMask.getLsbD p.val)).foldl (fun m r =>
    r.words.zipIdx.foldl (fun (m : List (Nat × BitVec 128)) x => upsert (r.start + x.2) x.1 m) m) []

/-- The base microcode, with the container applied where it passes; the stores are locked (R201, R204). -/
def State.loadMicro (patch : Option PatchIn) (s : State) : State :=
  let code := patch.elim 1 (patchCode s.fuse.patchFloor)
  let s := forAll allPods (fun p => State.modPod p (fun q => { q with uc :=
    match patch with
    | some i => if code = 0 then
        { locked := true, patched := true, level := i.level, words := patchWords p i.recs
          records := (i.recs.filter (fun r => r.podMask.getLsbD p.val)).length }
      else { locked := true, code := BitVec.ofNat 4 code, patchErr := true }
    | none => { locked := true, code := 1 } })) s
  s.when (decide (2 ≤ code)) (State.hsum 12)

/-! ### Boot (R346 to R349) -/

/-- FAIL_STEP of an image, none where it passes every check (R349). -/
def imageFault (floor : Nat) (i : ImageIn) : Option Nat :=
  if !i.present then some 1
  else if !i.formatOk then some 2
  else if i.targetStep != 0x21 then some 3
  else if i.level < floor then some 4
  else if !i.keyHashOk then some 5
  else if !i.hdrSigOk then some 6
  else if !i.keeperOk then some 7
  else if !i.serviceOk then some 8
  else none

/-- The units of a pod that fail the boot self-test are retired; the buoy serves in place of the first of them that a channel needs (R296). [DEDUCED, log entry 65] -/
def bootUnits (fails : BitVec 17) (h : PodHealth) : PodHealth :=
  let bad := (List.range 16).find? (fun u => fails.getLsbD u)
  if fails.getLsbD 16 then { h with retired := fails, buoy := noBuoy }
  else match bad with
    | none => { h with retired := fails }
    | some c => { h with retired := fails, buoy := noBuoy, unitOf := h.unitOf.set! c 16 }

/-- An image that has passed every check: microcode, self-test of the units, and the service firmware starts (R349). What FW_INFO tells of its versions is free. [DEDUCED, log entry 65] -/
def State.startImage (i : ImageIn) (selfTest : List (BitVec 17)) (s : State) : State :=
  let s := s.loadMicro i.patch
  let s := forAll allPods (fun p => State.modHealth p (bootUnits (selfTest.getD p.val 0))) s
  let v (k n : Nat) : Nat := Config.freeNat (s.free + k) % n
  { s.used.used.used with
    boot := { s.boot with verified := true, level := i.level }
    store := { s.store with mem := [] }
    fw := { s.fw with
      state := 0, subsystem := i.subsystem
      keeperVer := BitVec.ofNat 32 (v 0 (2 ^ 32)), serviceVer := BitVec.ofNat 32 (v 1 (2 ^ 32)), build := BitVec.ofNat 64 (v 2 (2 ^ 64)) } }

/-- A refused image is told (R266, R349). [DEDUCED, log entry 65] -/
def State.imageRefused (step : Nat) (s : State) : State :=
  ({ (s.hsum 12) with boot := { (s.hsum 12).boot with failStep := BitVec.ofNat 4 step } } : State).notice 7 [BitVec.ofNat 8 step]

/-- The boot has failed (R248, R287, R349). [DEDUCED, log entry 65] -/
def State.bootFails (s : State) : State := { s with fw := { s.fw with state := 4 } }

/-- Boot from the flash: the primary copy, then the alternate one. [DEDUCED, log entry 65] -/
def State.flashBoot (primary alternate : ImageIn) (selfTest : List (BitVec 17)) (s : State) : State :=
  match imageFault s.fuse.imageFloor primary with
  | none => s.startImage primary selfTest
  | some k =>
    let s := { (s.imageRefused k) with boot := { (s.imageRefused k).boot with priFail := true } }
    match imageFault s.fuse.imageFloor alternate with
    | none => (({ s with boot := { s.boot with alt := true } } : State)).startImage alternate selfTest
    | some k => (s.imageRefused k).bootFails

/-- CORE_RESET_RELEASE: the core reset ends, the straps are sampled and the Keeper ROM boots; SAFE_n acts from now on (R341, R344, R346). [DEDUCED, log entry 64] -/
def State.resetRelease (straps : BitVec 2) (primary alternate : ImageIn) (selfTest : List (BitVec 17)) (s : State) : State :=
  if !s.boot.held || s.boot.testmode || s.boot.vioDown != 0 then s
  else
    let s := { s with boot := { s.boot with held := false, alert := false, src := straps } }
    let s := s.when s.abort.safeLow (State.abortScope allChs s.tw true)
    match straps.toNat with
    | 0 => s.flashBoot primary alternate selfTest
    | 3 => { s with fw := { s.fw with state := 3 } }
    | _ => s

def execCoreResetRelease (straps : BitVec 2) (primary alternate : ImageIn) (selfTest : List (BitVec 17)) (s : State) : Out :=
  .next (s.resetRelease straps primary alternate selfTest)

/-- FW_READY: the service firmware has started (R349). [DEDUCED, log entry 65] -/
def State.fwStarts (s : State) : State :=
  if s.boot.verified && !s.fw.ready && !s.boot.held then
    ({ s with fw := { s.fw with ready := true, state := 1, lastBeat := Vector.replicate 4 s.tick } } : State).hsum 15
  else s

def execFwReady (s : State) : Out := .next s.fwStarts

/-- BOOT_CMD.LOAD is accepted from the host of the selected load mode, and in recovery, while no image runs (R346). [DEDUCED, log entry 65] -/
def loadAccepted (m : Master) (s : State) : Bool :=
  !s.boot.held && !s.boot.verified &&
    ((s.boot.src == 1 && m == .qspi) || (s.boot.src == 2 && m == .pcie) || s.boot.src == 3)

/-- BOOT_CMD.LOAD: the image in the store is verified and started as a flash image is; one that fails leaves the ROM waiting (R346, R349). [DEDUCED, log entry 65] -/
def State.bootLoad (m : Master) (i : ImageIn) (selfTest : List (BitVec 17)) (s : State) : State :=
  if !loadAccepted m s then s
  else match imageFault s.fuse.imageFloor i with
    | none => s.startImage i selfTest
    | some k => (s.imageRefused k).bootFails

def execBootCmdLoad (m : Master) (image : ImageIn) (selfTest : List (BitVec 17)) (s : State) : Out :=
  .next (s.access m (.bootCmdLoad m image selfTest) (State.bootLoad m image selfTest))

/-- BOOT_CMD.FLASH: in recovery, while no image runs, a verified image is written to the primary flash copy (R346). [DEDUCED, log entry 65] -/
def State.bootFlash (i : ImageIn) (s : State) : State :=
  if s.boot.src == 3 && !s.boot.held && !s.boot.verified && (imageFault s.fuse.imageFloor i).isNone
  then { s with boot := { s.boot with flashed := some i } } else s

def execBootCmdFlash (m : Master) (image : ImageIn) (s : State) : Out :=
  .next (s.access m (.bootCmdFlash m image) (State.bootFlash image))

/-! ### Test buses (R365) -/

/-- A source ATB_SEL can name. -/
def atbOk (v : Nat) : Bool := decide (v ≤ 25) || (decide (32 ≤ v) && decide (v ≤ 36))

/-- One field of ATB_SEL: a reserved source leaves it. -/
def atbField (lo : Nat) (w old : W) : W := if atbOk (fld w lo 6) then ins old lo 6 w else old

/-- ATB_SEL_WRITE. -/
def State.writeAtb (w : W) (s : State) : State :=
  let bad := !atbOk (fld w 0 6) || !atbOk (fld w 8 6)
  { s with sur := { s.sur with
    atb := atbField 8 w (atbField 0 w s.sur.atb)
    atbErr := (s.sur.atbErr.w1c s.tick (w &&& 0x80)).raiseIf bad s.tick 0x80 } }

def execAtbSelWrite (w : W) (s : State) : Out := .next (s.writeAtb w)

/-- The source a bus is connected to: none while the device sleeps (R365). -/
def atbNode (bus : Nat) (s : State) : Nat := if s.pwr.mode != 0 then 0 else fld s.sur.atb (8 * bus) 6

/-! ### The balls (R68, R340, R344, R351, R364, R367) -/

/-- What the device does at the ball of channel n: nothing in a core reset, in TESTMODE or without VIO; the boundary register while it is selected,
but SAFE while SAFE_n is low under EXTEST or CLAMP; else R68. [DESIGN CHOICE, log entry 76] -/
def State.ballOf (n : Ch) (s : State) : Ball :=
  let c := s.ch[n]
  if s.boot.held || s.boot.testmode then .z (c.view s.tick).pull
  else if s.boot.vioDown.getLsbD (podOf n).val then .z 0
  else if scanning s && !(s.abort.safeLow && s.jtag.ir != .highz) then
    (if s.jtag.ir == .highz || !has s.jtag.drive n then .z 0 else .drive (has s.jtag.level n))
  else if c.spare then .z 0
  else c.ball s.tick

/-- What the device does at SPBp: never driven, with the pull-down of R385, until a channel moves to it; from then on that channel's output (R299).
Its boundary cell is outside the model. [DESIGN CHOICE, log entry 76] -/
def State.spbOf (p : Pod) (s : State) : Ball :=
  if s.boot.held || s.boot.testmode then .z 1
  else if s.boot.vioDown.getLsbD p.val then .z 0
  else
    match movedCh p s with
    | none => .z 1
    | some n => s.ch[n].ball s.tick

/-! ### The test access port (R366, R367) -/

/-- An instruction is selected. The first of EXTEST, CLAMP and HIGHZ makes every channel count as frozen (R39, R367). [DESIGN CHOICE, log entry 76] -/
def State.jtagSelect (i : JtagInstr) (s : State) : State :=
  let t := { s with jtag := { s.jtag with ir := i } }
  t.when (scanning t) (State.breach brFreeze)

def execJtagReset (s : State) : Out := .next (s.jtagSelect .idcode)
def execExtest (s : State) : Out := .next (s.jtagSelect .extest)
def execIdcode (s : State) : Out := .next (s.jtagSelect .idcode)
def execClamp (s : State) : Out := .next (s.jtagSelect .clamp)
def execHighz (s : State) : Out := .next (s.jtagSelect .highz)
def execDebug (s : State) : Out := .next (s.jtagSelect .debug)
def execBypass (s : State) : Out := .next (s.jtagSelect .bypass)

/-- SAMPLE_PRELOAD: the levels at the balls are sampled and the boundary register is loaded, with no effect on the balls. [DESIGN CHOICE, log entry 76] -/
def State.samplePreload (drive level : BitVec 128) (s : State) : State :=
  s.jtagSelect .samplePreload |> fun t =>
    { t with jtag := { t.jtag with sampled := setOf (allChs.filter (fun n => s.ch[n].ownPin)), drive := drive, level := level } }

def execSamplePreload (drive level : BitVec 128) (s : State) : Out := .next (s.samplePreload drive level)

/-- IDCODE's value (R366). -/
def idcode : W := 0x26128375

/-- DEBUG_UNLOCK: a token written through the data register of DEBUG, accepted by the Keeper or not. -/
def execDebugUnlock (tokenOk : Bool) (s : State) : Out :=
  .next (if s.jtag.ir == .debug && s.fw.keeperUp && tokenOk then { s with jtag := { s.jtag with unlocked := true } } else s)

end Sys2Proof.Machine
end

