-- ==== Sys2Proof/Machine/BusGlobal.lean ====
section
/-!
DEFINITION. The registers of the global block (base 0x0000_0000): identification, Line Time, guarantee, calendar, firmware and link status, health, power,
boot and clocks. A block is given by three functions of the offset: the value of a wide register by the offset of its low word, the value of
another register, and what a read does besides; and by what a write does.
-/
namespace Sys2Proof.Machine

/-! ### Line Time as it is read (R14, R382) -/

/-- LT at the instant a read reaches the block: the frac within the tick is free, and no read is less than an earlier one (R31, R382). -/
def ltSample (s : State) : Nat :=
  match s.time.res with
  | 0 => max s.time.seen (s.tick * 32 + s.freeBelow 32)
  | 1 => max s.time.seen (s.tick * 32)
  | _ => max s.time.seen s.time.lt

/-- LT_OFS as it is in force in the present tick (R31). -/
def ofsNow (s : State) : Nat := (if s.tick < s.time.ofsTick then s.time.ofsPrev else s.time.ofs).toNat

/-- A read has sampled LT. -/
def State.sampled (s : State) : State := { s.used with time := { s.time with seen := ltSample s } }

/-! ### Reading -/

/-- The value of a wide register of the block, by the offset of its low word. -/
def globalWide (a : Nat) (s : State) : Option Nat :=
  match a with
  | 0x100 => some (ltSample s)
  | 0x108 => some ((ltSample s + ofsNow s) % 2 ^ 64)
  | 0x110 => some (ofsNow s)
  | 0x138 => some s.guar.clrLt
  | 0x140 => some s.guar.firstLt
  | 0x514 => some s.fw.rstLt
  | 0x808 => some s.pwr.wakeLt
  | 0x810 => some s.pwr.runLt
  | 0x818 => some s.pwr.nextWake
  | _ =>
    if 0x600 ≤ a ∧ a < 0x700 ∧ a % 0x20 = 0x14 then
      some s.health.pod[(⟨(a - 0x600) / 0x20 % 8, by omega⟩ : Fin 8)].lastTs
    else none

/-- GUAR_STAT as it reads (R41). -/
def guarWord (g : Guar) : W :=
  (g.flags.bits &&& breachMask) ||| flag 0 (g.cleared && g.flags.bits &&& breachMask == 0) ||| put 16 g.first

/-- The health registers of a pod. -/
def healthWord (k : Nat) (t : Nat) (h : PodHealth) : W :=
  match k with
  | 0x00 =>
    put 0 h.shadowCh ||| flag 4 h.shadowing ||| flag 5 h.shadowEn ||| flag 6 h.autoSubst ||| flag 7 h.substPin
      ||| put 8 h.buoy ||| flag 13 h.testing ||| flag 14 h.spacing ||| flag 15 h.degraded
  | 0x04 => BitVec.ofNat 32 h.retired.toNat
  | 0x08 => h.evt.bits
  | 0x0C => put 0 (h.mism.view t) ||| put 8 (h.takes.view t) ||| put 16 (h.shadows.view t)
  | 0x10 => put 0 h.spareCh ||| flag 4 h.named ||| flag 5 h.spareOn.isSome
  | _ => 0

/-- A register of the block that is not wide, as it reads. -/
def globalWord (m : Master) (a : Nat) (s : State) : W :=
  let t := s.tick
  match a with
  | 0x000 => if s.fuse.gradeX then 0x61282120 else 0x61282110
  | 0x118 =>
    BitVec.ofNat 32 s.time.res.toNat ||| flag 2 (s.time.res != 0) ||| (s.time.flags.bits &&& 0x58) ||| flag 5 s.time.degraded
  | 0x11C =>
    let x := s.master[m.idx]
    (x.mism.bits &&& 1) ||| flag 1 x.valid ||| put 8 x.addr.toNat
  | 0x120 => put 0 s.cal.horizon
  | 0x130 => guarWord s.guar
  | 0x200 => put 0 s.cal.win ||| flag 8 s.cal.mirror
  | 0x204 => flag 0 (calFree s == 0) ||| flag 1 (calEmpty s) ||| (s.cal.flags.bits &&& 0x3C)
  | 0x208 => put 0 (calFree s)
  | 0x20C => put 0 (s.cal.wheel.length + s.cal.ovfl.length)
  | 0x210 => put 0 s.cal.pos.length
  | 0x214 => put 0 s.cal.ovfl.length
  | 0x218 => put 0 (s.time.lt / 2 ^ 14 % 2 ^ 16)
  | 0x21C => put 0 (s.cal.accCnt.view t)
  | 0x220 => put 0 (s.cal.lateCnt.view t)
  | 0x224 => put 0 (s.cal.refCnt.view t)
  | 0x228 => put 0 (s.cal.fixCnt.view t) ||| put 16 (s.cal.errCnt.view t)
  | 0x300 => flag 0 s.fw.ready ||| put 1 s.fw.state.toNat ||| flag 4 s.fw.restarting
  | 0x304 => s.fw.alive
  | 0x308 => put 0 s.fw.restarts
  | 0x310 =>
    flag 0 s.pcie.up ||| (if s.pcie.up then (if s.pcie.width2 then put 1 2 else put 1 1) ||| put 3 s.pcie.speed.toNat else 0)
      ||| flag 5 s.pcie.d3hot ||| flag 6 s.pcie.bme
  | 0x320 => s.pcie.qs.bits &&& 3
  | 0x400 =>
    let some_ := dmaActive 0 s || dmaActive 1 s
    flag 0 (dmaActive 0 s) ||| flag 1 (dmaActive 1 s) ||| (if some_ then put 4 (s.freeBelow 65) else 0) ||| (s.pcie.dmaErr.bits &&& 0xF000)
  | 0x500 => hlthSum s
  | 0x504 => s.health.alertEn
  | 0x508 => s.health.viol
  | 0x510 => put 0 s.fw.cause.toNat ||| flag 4 s.fw.slow ||| put 8 s.fw.core.toNat ||| put 16 s.fw.dur
  | 0x51C => put 0 (s.health.xchk.view t) ||| put 16 (s.health.backup.view t)
  | 0x520 => s.health.mirror
  | 0x800 =>
    put 0 s.pwr.mode.toNat ||| flag 2 (s.pwr.entering || s.pwr.waking) ||| flag 3 s.pwr.autoWake ||| (s.pwr.flags.bits &&& 0x30)
  | 0x804 => (s.pwr.wakeSrc.bits &&& 0xFF) ||| put 8 (s.pwr.wakeCh.getD 0) ||| put 15 (s.pwr.wakeAx.getD 0)
  | 0x820 => s.pwr.lead
  | 0x824 => s.pwr.stby
  | 0x828 => s.pwr.cfg
  | 0x830 => s.pwr.chans[0]
  | 0x834 => s.pwr.chans[1]
  | 0x838 => s.pwr.chans[2]
  | 0x83C => s.pwr.chans[3]
  | 0x840 => BitVec.ofNat 32 s.boot.cause.toNat
  | 0x844 =>
    put 0 s.boot.src.toNat ||| flag 2 s.boot.alt ||| flag 3 s.boot.priFail ||| put 4 s.boot.failStep.toNat ||| put 8 (s.boot.level % 65536)
  | 0x848 => s.boot.load
  | 0x850 => flag 0 s.time.pllLock ||| flag 1 s.time.xinOk ||| flag 2 s.time.rtcOk ||| flag 3 s.time.backup
  | _ =>
    if 0x600 ≤ a ∧ a < 0x700 then healthWord (a % 0x20) t s.health.pod[(⟨(a - 0x600) / 0x20 % 8, by omega⟩ : Fin 8)] else 0

/-- What a read of a register of the block does besides: read-and-clear counts (R4, R5), and the sampling of LT. -/
def globalTake (a : Nat) (s : State) : State :=
  let t := s.tick
  match a with
  | 0x100 => s.sampled
  | 0x104 => s.sampled
  | 0x108 => s.sampled
  | 0x10C => s.sampled
  | 0x21C => { s with cal := { s.cal with accCnt := s.cal.accCnt.read t } }
  | 0x220 => { s with cal := { s.cal with lateCnt := s.cal.lateCnt.read t } }
  | 0x224 => { s with cal := { s.cal with refCnt := s.cal.refCnt.read t } }
  | 0x228 => { s with cal := { s.cal with fixCnt := s.cal.fixCnt.read t, errCnt := s.cal.errCnt.read t } }
  | 0x400 => s.used
  | 0x51C => { s with health := { s.health with xchk := s.health.xchk.read t, backup := s.health.backup.read t } }
  | _ =>
    if 0x600 ≤ a ∧ a < 0x700 ∧ a % 0x20 = 0x0C then
      s.modHealth ⟨(a - 0x600) / 0x20 % 8, by omega⟩ (fun h =>
        { h with mism := h.mism.read t, takes := h.takes.read t, shadows := h.shadows.read t })
    else s

/-! ### Writing -/

/-- A write of GUAR_STAT; one that clears a breach bit loads GUAR_CLR_LT, and FIRST is 0 with no breach left (R41). [DEDUCED, log entry 86] -/
def State.guarClear (w : W) (s : State) : State :=
  if w &&& breachMask == 0 then s
  else
    let f := s.guar.flags.w1c s.tick (w &&& breachMask)
    { s with guar := { s.guar with
        flags := f, cleared := true, clrLt := s.time.lt
        first := if f.bits &&& breachMask == 0 then 0 else s.guar.first } }

/-- LT_OFS takes a value at the next tick boundary (R18, R31). -/
def State.setOfs (v : Nat) (s : State) : State :=
  { s with time := { s.time with ofs := BitVec.ofNat 64 v, ofsPrev := BitVec.ofNat 64 (ofsNow s), ofsTick := s.tw } }

/-- A lead of a power mode is out of its range (PWR_STAT.CFG_ERR). -/
def State.pwrCfgErr (s : State) : State := { s with pwr := { s.pwr with flags := s.pwr.flags.raise s.tick 0x20 } }

/-- A write of HLTH_ALERT_EN by the Keeper or a host (R305). [DEDUCED, log entry 73] -/
def State.writeAlertEn (m : Master) (w : W) (s : State) : State :=
  match m with
  | .keeper | .pcie | .qspi => { s with health := { s.health with alertEn := w &&& 0x7FFF } }
  | _ => s

/-- One of the registers PWR_WAKE_CHi. -/
def State.setWakeChs (i : Fin 4) (w : W) (s : State) : State :=
  { s with pwr := { s.pwr with chans := s.pwr.chans.set i.val w } }

/-- A write of a register of the block. -/
def globalWrite (m : Master) (a : Nat) (w : W) (s : State) : State :=
  let t := s.tick
  match a with
  | 0x110 => s.setHolding m 0x110 w
  | 0x114 => s.setOfs (join w (s.holding m 0x110))
  | 0x118 => { s with time := { s.time with flags := s.time.flags.w1c t (w &&& 0x58) } }
  | 0x11C => s.modMaster m (fun x => { x with mism := x.mism.w1c t (w &&& 1) })
  | 0x130 => s.guarClear w
  | 0x204 => { s with cal := { s.cal with flags := s.cal.flags.w1c t (w &&& 0x3C) } }
  | 0x320 => { s with pcie := { s.pcie with qs := s.pcie.qs.w1c t (w &&& 3) } }
  | 0x400 => { s with pcie := { s.pcie with dmaErr := s.pcie.dmaErr.w1c t (w &&& 0xF000) } }
  | 0x500 => { s with health := { s.health with sum := s.health.sum.w1c t (w &&& 0xD379) } }
  | 0x504 => s.writeAlertEn m w
  | 0x800 => { s with pwr := { s.pwr with flags := s.pwr.flags.w1c t (w &&& 0x30) } }
  | 0x804 => { s with pwr := { s.pwr with wakeSrc := s.pwr.wakeSrc.w1c t (w &&& 0xFF) } }
  | 0x820 =>
    if 800000 ≤ w.toNat ∧ w.toNat ≤ 4000000000 then { s with pwr := { s.pwr with lead := w } } else s.pwrCfgErr
  | 0x824 =>
    if 24000 ≤ fld w 0 24 then { s with pwr := { s.pwr with stby := w &&& mask 0 24 } } else s.pwrCfgErr
  | 0x828 => { s with pwr := { s.pwr with cfg := w &&& 0x1F } }
  | 0x830 => s.setWakeChs 0 w
  | 0x834 => s.setWakeChs 1 w
  | 0x838 => s.setWakeChs 2 w
  | 0x83C => s.setWakeChs 3 w
  | 0x848 => { s with boot := { s.boot with load := w &&& mask 0 23 } }
  | _ =>
    if 0x600 ≤ a ∧ a < 0x700 ∧ a % 0x20 = 0x08 then
      s.modHealth ⟨(a - 0x600) / 0x20 % 8, by omega⟩ (fun h => { h with evt := h.evt.w1c t (w &&& 0xFF) })
    else s

end Sys2Proof.Machine
end

