-- ==== Sys2Proof/Machine/BusChan.lean ====
section
/-!
DEFINITION. The registers of a channel (base 0x0004_0000 + 0x800 × n; R43, R90). Where an access meets what has happened by the present tick, that
is brought into the channel first.
-/
namespace Sys2Proof.Machine

/-! ### Reading -/

/-- The channel as of the present tick: its counter, its captures, its reflex term, its Pip, its advance and a cancelled tick that is over. -/
def State.chNow (n : Ch) (s : State) : State :=
  let s := (((s.countNow n).settleCaps s.tick n).settleSpill n).settleRfx s.tick n
  (s.pipNow n).modCh n (fun c =>
    let c := if c.out.mergeNow && decide (c.out.mergeTick < s.tick + 4) then c.settleMerge 0 else c
    { c with adv := c.adv.takeAt s.tick, pip := c.pip.noteStalls s.tick })

/-- The wide registers of a channel, by the offset of the low word. -/
def chanWide (n : Ch) (o : Nat) (s : State) : Option Nat :=
  let c := s.ch[n]
  let u : Unit4 := ⟨(o - 0x40) / 0x20 % 4, by omega⟩
  match o with
  | 0x10 => some c.ctr.top.toNat
  | 0x18 => some c.ctr.cnt.toNat
  | 0x20 => some c.ctr.ld.toNat
  | 0x190 => some ((c.adv.pend.map AdvPair.epoch).getD c.adv.since)
  | _ =>
    if 0x40 ≤ o ∧ o < 0xC0 then
      if o % 0x20 = 0 then some c.unit[u].cur.val.toNat
      else if o % 0x20 = 0x14 then some c.unit[u].matchLt
      else none
    else none

/-- CHn_CMPx_STAT. [DEDUCED, log entry 33] -/
def unitStat (u : CmpUnit) : W :=
  flag 0 (u.live || u.shadow) ||| (u.flags.bits &&& 6) ||| flag 3 u.owner ||| flag 4 u.shadow

/-- CHn_PIP_STAT. -/
def pipStat (n : Ch) (s : State) : W :=
  let p := s.ch[n].pip
  flag 0 p.run ||| flag 1 p.stalled.isSome ||| put 2 p.halt.toNat ||| flag 5 p.resum ||| flag 6 p.bank ||| flag 7 p.valid0
    ||| flag 8 p.valid1 ||| flag 9 p.swap.isSome ||| flag 10 (!(tierOf n s).isEmpty) ||| put 11 p.r.pc.val ||| put 16 p.r.bc
    ||| flag 22 p.r.loaded

/-- A register of a channel's Pip (R90). -/
def pipWord (n : Ch) (o : Nat) (s : State) : W :=
  let p := s.ch[n].pip
  match o with
  | 0x500 => p.ctrl
  | 0x508 => p.div
  | 0x50C => p.pins
  | 0x510 => pipStat n s
  | 0x514 => p.err.bits
  | 0x518 => p.r.sr
  | 0x51C => p.r.cv
  | 0x520 => put 0 p.r.lc.toNat ||| put 16 p.r.lcInit.toNat
  | 0x524 => p.r.flags.bits &&& 0xF
  | 0x528 => p.r.flags.bits &&& 0xF
  | 0x52C => p.tmo
  | 0x538 => put 0 p.r.txf.length ||| put 4 p.r.rxf.length
  | 0x53C => p.r.pend ||| latchedBy s.tick p.r.pendQ
  | 0x540 => (p.irq.bits &&& 3) ||| flag 2 (p.err.bits != 0) ||| (p.ie &&& 0x70) ||| put 8 p.code.toNat
  | 0x544 => put 0 (p.waits.view s.tick)
  | _ =>
    if o < 0x400 then 0
    else if o < 0x480 then put 0 p.prg0[(⟨(o - 0x400) / 4 % 32, by omega⟩ : Fin 32)].toNat
    else if o < 0x500 then put 0 p.prg1[(⟨(o - 0x480) / 4 % 32, by omega⟩ : Fin 32)].toNat
    else 0

/-- The ball shows the SAFE level (CHn_STAT.SAFE_ACT). [DEDUCED, log entry 33] -/
def Channel.safeAct (t : Nat) (c : Channel) : Bool := (c.view t).cfgd && (c.view t).oe && c.showsSafe t

/-- A register of a channel that is not wide (R43). [DEDUCED, log entry 29] [DEDUCED, log entry 32] [DEDUCED, log entry 33] -/
def chanWord (m : Master) (n : Ch) (o : Nat) (s : State) : W :=
  let c := s.ch[n]
  let t := s.tick
  let u : Unit4 := ⟨(o - 0x40) / 0x20 % 4, by omega⟩
  match o with
  | 0x000 => flag 0 c.en ||| flag 1 c.oe ||| flag 2 c.rbEn ||| flag 3 c.frzReq ||| flag 4 c.frz
  | 0x008 => c.ctr.presc
  | 0x00C => c.ctr.cfg
  | 0x028 =>
    flag 0 c.ctr.run ||| flag 1 (countsDown s c) ||| flag 2 c.ctr.gateAct ||| (c.ctr.wrap.bits &&& 8) ||| flag 4 (c.frz || s.time.res != 0)
  | 0x100 => c.cap.cfg
  | 0x104 =>
    put 0 c.cap.queue.length ||| (c.cap.flags.bits &&& 0x50) ||| flag 5 c.cap.spilling ||| put 8 (c.cap.drops.view t)
  | 0x110 => c.cap.latch[m.idx].cnt
  | 0x114 => put 0 c.cap.latch[m.idx].flags.toNat
  | 0x180 => (match c.out.drivePend with
      | some d => ins c.out.cfg 0 4 d
      | none => c.out.cfg) ||| flag 8 c.out.configured
  | 0x184 => c.out.skew
  | 0x188 => put 0 c.adv.value
  | 0x18C => c.adv.next
  | 0x198 => flag 3 c.out.level ||| flag 4 c.filt.raw
  | 0x19C => c.inCfg
  | 0x1C0 => c.rfx.cfg
  | 0x1C4 =>
    flag 0 c.rfx.armed ||| flag 1 c.rfx.out ||| (c.rfx.flags.bits &&& 0xC)
  | 0x200 =>
    (c.stat.bits &&& 0xBF) ||| flag 2 c.out.mergeNow ||| flag 6 c.adv.pend.isSome ||| flag 8 (c.safeAct t) ||| flag 9 (sched n s)
  | 0x204 => (c.fault.bits &&& 3) ||| flag 2 c.spare ||| flag 3 c.subst ||| flag 4 c.vioFault
  | 0x208 => c.irqEn
  | 0x20C => put 0 (c.rb.ticks.view t) ||| put 16 c.rb.consec
  | _ =>
    if 0x40 ≤ o ∧ o < 0xC0 then
      match o % 0x20 with
      | 0x08 => c.unit[u].cur.act
      | 0x0C => c.unit[u].cur.param
      | 0x10 => unitStat c.unit[u]
      | _ => 0
    else pipWord n o s

/-- What a read of a register of a channel does besides (R4, R5). -/
def chanTake (n : Ch) (o : Nat) (s : State) : State :=
  match o with
  | 0x104 => s.modCh n (fun c => { c with cap := { c.cap with drops := c.cap.drops.read s.tick } })
  | 0x20C => s.modCh n (fun c => { c with rb := { c.rb with ticks := c.rb.ticks.read s.tick } })
  | 0x544 => s.modPip n (fun p => { p with waits := p.waits.read s.tick })
  | _ => s

/-! ### Writing -/

/-- A write of CHn_CTRL: EN and OE act at the next boundary; without EN the Pip stops (R68, R91); FRZ is written by the debug master only (R86). -/
def State.writeCtrl (m : Master) (n : Ch) (w : W) (s : State) : State :=
  let s := s.countTo n
  let c := s.ch[n]
  let c1 := { (c.setEn s.tw (bit w 0)) with
    oe := bit w 1, rbEn := bit w 2, frzReq := if m = .debug then bit w 3 else c.frzReq }
  let c2 := c.pinChange s.tw c1
  let s := s.modCh n (fun _ => c2)
  if c.en && !bit w 0 then (s.pipNow n).pipHalt s.tw 5 false true n else s

/-- A write of CHn_CMD (R43): STOP wins over START, LOAD over CLEAR, DISARM over REARM of the same unit, RFX_DISARM over RFX_ARM. -/
def State.writeCmd (n : Ch) (w : W) (s : State) : State :=
  let s := s.countNow n
  let s := if bit w 1 then s.cntStop n else if bit w 0 then s.cntStart n else s
  let s := if bit w 3 then s.cntLoad n else if bit w 2 then s.cntClear n else s
  let s := s.when (fld w 4 4 != 0) (State.hostDisarms (BitVec.ofNat 4 (fld w 4 4)) n)
  let s := forAll ((List.finRange 4).filter (fun u => bit w (8 + u.val) && !bit w (4 + u.val))) (fun u => State.rearm u n) s
  if bit w 13 then (s.settleRfx s.tw n).rfxDisarm s.tw n
  else if bit w 12 then (s.settleRfx s.tw n).rfxArm s.tw n
  else s

/-- A write of CHn_OUT_FORCE: CLR wins over SET, either over TOG (R71). -/
def State.writeForce (n : Ch) (w : W) (s : State) : State :=
  if bit w 1 then s.force (fun _ => false) n
  else if bit w 0 then s.force (fun _ => true) n
  else if bit w 2 then s.force (fun l => !l) n
  else s

/-- A write of CHn_PIP_DIV: only while the engine stands, and not below 1.0 (R93). -/
def Pip.writeDiv (t : Nat) (w : W) (p : Pip) : Pip :=
  if p.run || decide (fld w 0 24 < 0x100) then p.error t 0x80 else { p with div := w &&& mask 0 24 }

/-- The tick up to which a latch or a flag is older than the cycle that a host write of tick t meets (R107). -/
def Pip.meets (t : Nat) (p : Pip) : Nat :=
  let k := p.firstCycle (t + 1)
  if p.run && decide (0 < k) then min t (p.cycleTick (k - 1)) else t

/-- A write of 1s to CHn_PIP_PEND: an occurrence of the cycle it meets stays (R107). -/
def Pip.clearPend (t : Nat) (w : W) (p : Pip) : Pip :=
  let q := p.settlePend (p.meets t)
  q.modR (fun r => { r with pend := r.pend &&& ~~~w })

/-- A write of 1s to CHn_PIP_FLAGS: what the host sets in the cycle it meets stays (R107). -/
def Pip.clearFlags (t : Nat) (w : W) (p : Pip) : Pip :=
  p.modR (fun r => { r with flags := r.flags.w1c (p.meets t + 1) (w &&& 0xF) })

/-- A write of CHn_PIP_CMD (R91, R92, R106, R109 to R113): STOP wins over START and RESUME; FORCE implies SWAP. -/
def State.writePipCmd (n : Ch) (w : W) (s : State) : State :=
  let s := s.pipNow n
  let s := s.when (bit w 7) (State.modPip n (Pip.reset s.tick))
  let s := s.modPip n (Pip.validate (bit w 8) (bit w 9))
  let s := s.when (bit w 10) (State.modPip n (Pip.flushTx s.tick))
  let s := s.when (bit w 11) (State.modPip n (Pip.flushRx s.tick))
  let s := s.when (bit w 5) (State.releaseTier s.tw n)
  let s := s.when (bit w 6) (State.modPip n (Pip.latch s.tw (flag 13 true)))
  let s := s.when (bit w 3 || bit w 4) (State.modPip n (Pip.reqSwap s.tick (bit w 4)))
  if bit w 1 then s.modPip n (Pip.reqStop s.tw)
  else
    let s := s.when (bit w 2) (State.pipResume n)
    s.when (bit w 0) (State.pipStartAt s.tw ⟨fld w 16 5 % 32, by omega⟩ none n)

/-- A write of a register of a channel's Pip. -/
def pipWrite (n : Ch) (o : Nat) (w : W) (s : State) : State :=
  let t := s.tick
  let s := s.pipNow n
  match o with
  | 0x500 => s.writePipCtrl n w
  | 0x504 => s.writePipCmd n w
  | 0x508 => s.modPip n (Pip.writeDiv t w)
  | 0x50C => s.writePipPins n w
  | 0x514 => s.modPip n (fun p => { p with err := p.err.w1c t w })
  | 0x518 => s.modPip n (Pip.writeSr t w)
  | 0x51C => s.modPip n (fun p => p.modR (fun r => { r with cv := w }))
  | 0x520 => s.modPip n (Pip.writeLc w)
  | 0x524 => s.modPip n (Pip.clearFlags t w)
  | 0x528 => s.modPip n (fun p => p.modR (fun r => { r with flags := r.flags.raise s.tw (w &&& 0xF) }))
  | 0x52C => s.modPip n (fun p => { p with tmo := w &&& 0xFFFF })
  | 0x530 => s.modPip n (Pip.txfIn t w)
  | 0x53C => s.modPip n (Pip.clearPend t w)
  | 0x540 => s.modPip n (fun p => { p with irq := p.irq.w1c t (w &&& 3), ie := w &&& 0x70 })
  | _ =>
    if o < 0x400 then s
    else if o < 0x480 then s.modPip n (Pip.writePrg t false ⟨(o - 0x400) / 4 % 32, by omega⟩ w)
    else if o < 0x500 then s.modPip n (Pip.writePrg t true ⟨(o - 0x480) / 4 % 32, by omega⟩ w)
    else s

/-- A write of a compare unit's registers: VAL_LO, ACT and PARAM go to the master's holding registers, VAL_HI commits (R51). -/
def unitWrite (m : Master) (n : Ch) (u : Unit4) (k : Nat) (w : W) (s : State) : State :=
  match k with
  | 0x00 => s.setHolding m (unitBase n u) w
  | 0x04 => s.hostCommit u (commitSet m n u w s) n
  | 0x08 => s.setHolding m (unitBase n u + 8) w
  | 0x0C => s.setHolding m (unitBase n u + 0xC) w
  | 0x10 => (s.countNow n).modCh n (Channel.modUnit u (fun x => { x with flags := x.flags.w1c s.tick (w &&& 6) }))
  | _ => s

/-- A write of a register of a channel. -/
def chanWrite (m : Master) (n : Ch) (o : Nat) (w : W) (s : State) : State :=
  let t := s.tick
  match o with
  | 0x000 => s.writeCtrl m n w
  | 0x004 => s.writeCmd n w
  | 0x008 => (s.countNow n).modCh n (fun c => { c with ctr := { c.ctr with presc := w &&& 0xFFFF } })
  | 0x00C => (s.countNow n).writeCntCfg n w
  | 0x010 => s.setHolding m (chBase n + 0x10) w
  | 0x014 => s.commitTop m n w
  | 0x020 => s.setHolding m (chBase n + 0x20) w
  | 0x024 => s.modCh n (fun c => { c with ctr := { c.ctr with
      ld := BitVec.ofNat 48 (fld w 0 16 * 2 ^ 32 + (s.holding m (chBase n + 0x20)).toNat) } })
  | 0x028 => (s.countNow n).modCh n (fun c => { c with ctr := { c.ctr with wrap := c.ctr.wrap.w1c t (w &&& 8) } })
  | 0x100 => s.modCh n (fun c => { c with cap := { c.cap with cfg := w &&& 0x7F } })
  | 0x104 => (s.chNow n).modCh n (fun c => { c with cap := { c.cap with flags := c.cap.flags.w1c t (w &&& 0x50) } })
  | 0x180 => s.writeOutCfg n w
  | 0x184 => s.modCh n (fun c => { c with out := { c.out with skew := w &&& 0x3F } })
  | 0x18C => s.modCh n (fun c => { c with adv := { c.adv with next := w &&& mask 0 24 } })
  | 0x190 => s.setHolding m (chBase n + 0x190) w
  | 0x194 => s.advCommit n (join w (s.holding m (chBase n + 0x190)))
  | 0x198 => s.writeForce n w
  | 0x19C => s.modCh n (fun c => c.pinChange s.tw (c.setInCfg s.tw w))
  | 0x1C0 => (s.settleRfx t n).writeRfxCfg n w
  | 0x1C4 => (s.settleRfx t n).modCh n (fun c => { c with rfx := { c.rfx with flags := c.rfx.flags.w1c t (w &&& 0xC) } })
  | 0x200 => (s.chNow n).modCh n (fun c => { c with stat := c.stat.w1c t (w &&& 0xBF) })
  | 0x204 => s.modCh n (fun c => { c with fault := c.fault.w1c t (w &&& 3) })
  | 0x208 => s.modCh n (fun c => { c with irqEn := w &&& 0x3F })
  | _ =>
    if 0x40 ≤ o ∧ o < 0xC0 then unitWrite m n ⟨(o - 0x40) / 0x20 % 4, by omega⟩ (o % 0x20) w s
    else if 0x400 ≤ o then pipWrite n o w s
    else s

end Sys2Proof.Machine
end

