-- ==== Sys2Proof/Machine/Serial.lean ====
section
/-!
DEFINITION. Serial absolute sensors (R129 to R133) and the writes of an axis block (R119, R120, R384).
-/
namespace Sys2Proof.Machine

/-! ### Frames (R129 to R131) -/

/-- The axis runs serial frames: enabled, in SSI or BiSS-C mode, in RUN (R129, R141). -/
def serialOn (k : Ax) (s : State) : Bool := s.axis[k].en && decide (2 ≤ s.axis[k].mode) && s.pwr.mode == 0

/-- A frame starts at boundary b, or is skipped while one runs (R129). -/
def State.frameStart (k : Ax) (b : Nat) (s : State) : State :=
  s.modAxis k (fun a =>
    if a.ser.busy.isSome then a.fail s.tick (flag 8 true) else { a with ser := { a.ser with busy := some b } })

/-- SER_TRIG, with TRIG = 1 (R129). [DESIGN CHOICE, log entry 21] -/
def State.serTrig (k : Ax) (s : State) : State :=
  if serialOn k s && bit s.axis[k].ser.cfg 12 then s.frameStart k s.tw else s

def execSerTrig (k : Ax) (s : State) : Out := .next (s.serTrig k)

/-- SER_FRAME_START: with TRIG = 0 at a boundary whose tick count is a multiple of SER_PERIOD (R129). [DESIGN CHOICE, log entry 21] -/
def execSerFrameStart (k : Ax) (s : State) : Out :=
  .next (if serialOn k s && !bit s.axis[k].ser.cfg 12 && decide (s.tick % max 1 (fld s.axis[k].ser.period 0 24) = 0)
    then s.frameStart k s.tick else s)

/-- SER_TMO: a ready, start-bit or word timeout abandons the frame (R130 to R132). -/
def execSerTmo (k : Ax) (s : State) : Out :=
  .next (if s.axis[k].ser.busy.isSome then
      s.modAxis k (fun a => { a with
        ser := { a.ser with busy := none, errs := a.ser.errs + 1 }
        serErr := a.serErr.bump s.tick 1 255
        err := a.err.raise s.tick (flag 3 true) })
    else s)

/-! ### A sample (R131 to R133) -/

/-- The n low bits of a number, most significant first. -/
def msbBits (v n : Nat) : List Bool := ((List.range n).map (fun i => decide (v / 2 ^ i % 2 = 1))).reverse

/-- A cyclic check over bits taken most significant first: width l, the polynomial's lower bits p, the initial value. -/
def crcOf (l p init : Nat) (bits : List Bool) : Nat :=
  bits.foldl (fun r b =>
    let top := decide (r / 2 ^ (l - 1) % 2 = 1)
    let r := r * 2 % 2 ^ l
    if top != b then Nat.xor r (p % 2 ^ l) else r) (init % 2 ^ l)

/-- Gray code to binary. -/
def grayToBin (n v : Nat) : Nat :=
  ((msbBits v n).foldl (fun (r : Nat × Bool) b => let x := r.2 != b; (2 * r.1 + (if x then 1 else 0), x)) (0, false)).1

/-- LEN. -/
def Serial.len (r : Serial) : Nat := fld r.cfg 0 6

/-- The check bits of a frame are right (R131, R132). -/
def Axis.frameOk (f : SerFrame) (a : Axis) : Bool :=
  let n := a.ser.len
  if a.mode = 3 then
    let c := crcOf 6 3 0 (msbBits f.pos.toNat n ++ [f.nE, f.nW])
    f.crc.toNat % 64 == 63 - c
  else
    let l := fld a.ser.cfg 8 4
    let c := crcOf l (fld a.ser.crc 0 9) (fld a.ser.crc 16 8) (msbBits f.pos.toNat n)
    l == 0 || f.crc.toNat % 2 ^ l == (if bit a.ser.crc 24 then 2 ^ l - 1 - c else c)

/-- The timestamp of a sample: T_f and the signed SER_LAT (R129). -/
def Axis.sampleLt (tf : Nat) (a : Axis) : Nat :=
  ((tf * 32 : Nat) + (BitVec.ofNat 16 a.ser.lat.toNat).toInt : Int).toNat

/-- The step from the last good sample, as a signed number of LEN bits (R133). -/
def serStep (n v prev : Nat) : Int :=
  let d := (v + 2 ^ n - prev % 2 ^ n) % 2 ^ n
  if d < 2 ^ (n - 1) then d else (d : Int) - (2 ^ n : Nat)

/-- A good sample v with timestamp x becomes the axis edge; the first after EN sets POS (R133). [DEDUCED, log entry 22] -/
def State.serGood (k : Ax) (v x : Nat) (s : State) : State :=
  let a := s.axis[k]
  match a.ser.prev with
  | none =>
    let s := s.modAxis k (fun a => ({ a with
      pos := BitVec.ofNat 32 v, edgeLt := x, edgePos := BitVec.ofNat 32 v
      ser := { a.ser with prev := some v } }.happen s.tick evSample).rateEdge (s.freeBelow (2 ^ 32)) x 0)
    let s := s.used.tellCounters k { at_ := s.tick + 1, delta := 0, pos := BitVec.ofNat 32 v, load := true }
    s.axMoved k a.pos a.rev 0
  | some p =>
    let d := serStep a.ser.len v p
    let lim := fld a.ser.cfg 16 16
    if lim != 0 && decide (lim < d.natAbs) then s.modAxis k (fun a => a.fail s.tick (flag 7 true))
    else
      (s.modAxis k (fun a => { a with ser := { a.ser with prev := some v } }.happen s.tick evSample)).axCount k d x

/-- SER_SAMPLE: a complete frame is checked; a good one becomes the edge of the axis (R131 to R133). [DESIGN CHOICE, log entry 21] -/
def State.serSample (k : Ax) (f : SerFrame) (s : State) : State :=
  let a := s.axis[k]
  match a.ser.busy with
  | none => s
  | some tf =>
    let n := a.ser.len
    let raw := f.pos.toNat % 2 ^ n
    let s := s.modAxis k (fun a => { a with ser := { a.ser with busy := none, raw := BitVec.ofNat 32 raw } })
    if !serialOn k s then s
    else if !a.frameOk f then
      s.modAxis k (fun a => { a with
        err := a.err.raise s.tick (flag 4 true), serErr := a.serErr.bump s.tick 1 255
        ser := { a.ser with bad := if a.mode = 2 then a.ser.bad + 1 else a.ser.bad } })
    else
      let biss := a.mode == 3
      let s := s.when (biss && !f.nW) (State.modAxis k (fun a => { a with
        err := a.err.raise s.tick (flag 6 true), ser := { a.ser with bad := a.ser.bad + 1 } }))
      if biss && !f.nE then
        s.modAxis k (fun a => { a with err := a.err.raise s.tick (flag 5 true), ser := { a.ser with errs := a.ser.errs + 1 } })
      else
        let s := s.modAxis k (fun a => { a with ser := { a.ser with good := a.ser.good + 1, bits := n, delay := f.delay } })
        s.serGood k (if bit a.ser.cfg 6 then grayToBin n raw else raw) (a.sampleLt tf)

def execSerSample (k : Ax) (f : SerFrame) (s : State) : Out := .next (s.serSample k f)

/-! ### Writes of the axis block (R119, R120) -/

/-- One field of a write: its lowest bit, its width, whether it is idle only, and the values it takes. -/
structure AxField where
  lo   : Nat
  n    : Nat
  idle : Bool := false
  ok   : Nat → Bool := fun _ => true

/-- A write field by field: a change of an idle-only field while enabled, or a refused value, leaves the field as it was (R120). The second
part says whether any field was refused. -/
def applyFields (en : Bool) (old w : W) (l : List AxField) : W × Bool :=
  l.foldl (fun (r : W × Bool) f =>
    let v := fld w f.lo f.n
    if (f.idle && en && v != fld old f.lo f.n) || !f.ok v then (r.1, true)
    else (ins r.1 f.lo f.n w, r.2)) (old, false)

/-- The fields of the registers that are written field by field. -/
def axFields (off : Nat) : List AxField :=
  match off with
  | 0x000 => [{ lo := 0, n := 1 }, { lo := 1, n := 2, idle := true }, { lo := 3, n := 4, idle := true }, { lo := 7, n := 5 },
      { lo := 12, n := 1, idle := true }, { lo := 13, n := 2 }]
  | 0x008 => [{ lo := 0, n := 16 }, { lo := 16, n := 4, ok := fun v => decide (2 ≤ v) }]
  | 0x00C => [{ lo := 0, n := 3, ok := fun v => v != 7 }, { lo := 3, n := 2, ok := fun v => v != 3 },
      { lo := 16, n := 16, ok := fun v => decide (256 ≤ v) }]
  | 0x018 => [{ lo := 0, n := 31, ok := fun v => decide (2 ≤ v) }]
  | 0x080 => [{ lo := 0, n := 6, idle := true, ok := fun v => decide (8 ≤ v ∧ v ≤ 32) }, { lo := 6, n := 2, idle := true },
      { lo := 8, n := 4, idle := true, ok := fun v => decide (v ≤ 8) }, { lo := 12, n := 1, idle := true }, { lo := 16, n := 16, idle := true }]
  | 0x084 => [{ lo := 0, n := 11, idle := true, ok := fun v => decide (20 ≤ v ∧ v ≤ 2000) }, { lo := 16, n := 8, idle := true }]
  | 0x088 => [{ lo := 0, n := 24, ok := fun v => decide (400 ≤ v) }]
  | 0x08C => [{ lo := 0, n := 9, idle := true }, { lo := 16, n := 9, idle := true }]
  | 0x0A0 => [{ lo := 0, n := 16, ok := fun v => decide (256 ≤ v) }]
  | _ => []

/-- EN becomes 1: the decoder takes the filtered levels as its reference and counts nothing for them; no pair has been formed (R136, R139,
R384). [DEDUCED, log entry 22] -/
def Axis.enable (t : Nat) (a : Axis) : Axis :=
  let gate := fld a.spdCfg 16 16
  { a with
    ref := a.pins, accQ := [], lastTick := none, revRun := 0
    sect := if a.mode = 1 then hallSector a.pins else none
    hall := if a.mode = 1 then BitVec.ofNat 3 ((hallSector a.pins).getD 7) else a.hall
    spd := { a.spd with
      valid := false, formed := false, cntMode := a.mode == 0 && a.spdMode == 2, pairs := [], edges := []
      winNet := 0, winLast := none, before := none, winAt := t / max 1 gate * gate, gate := gate, avg := fld a.spdCfg 0 3 }
    ser := { a.ser with busy := none, prev := none, bits := 0, delay := 0, good := 0, bad := 0, errs := 0 } }

/-- EN becomes 0: the axis is STOPPED and no frame runs (R139, R153). -/
def Axis.disable (a : Axis) : Axis := { a with accQ := [], ser := { a.ser with busy := none } }

/-- A write of AXk_CFG. -/
def State.writeAxCfg (k : Ax) (w : W) (s : State) : State :=
  let a := s.axis[k]
  let (v, bad) := applyFields a.en a.cfg w (axFields 0)
  let s := s.when bad (State.axCfgErr k)
  let s := s.modAxis k (fun a =>
    let a' := { a with cfg := v }
    if bit v 0 && !a.en then a'.enable s.tw else if !bit v 0 && a.en then a'.disable else a')
  s.axReeval k

/-- A write of AXk_CMD (AXk_CMD). -/
def State.writeAxCmd (k : Ax) (w : W) (s : State) : State :=
  let s := s.when (bit w 0) (State.zArm k)
  let s := s.when (bit w 1) (State.posLoad k)
  let s := s.when (bit w 2) (State.serTrig k)
  s.when (bit w 3) (State.emulRestart k)

/-- A write of the speed thresholds with DN at or above UP is refused (R137). -/
def State.writeThr (k : Ax) (up dn : W) (s : State) : State :=
  if dn.toNat < up.toNat then s.modAxis k (fun a => { a with upThr := up, dnThr := dn }) else s.axCfgErr k

/-- A write of an axis register (R119, R120); an offset not listed, or read-only, is ignored (R4, R6). [DEDUCED, log entry 19] -/
def State.writeAxis (k : Ax) (off : Nat) (w : W) (s : State) : State :=
  let a := s.axis[k]
  let m31 : W := 0x7FFFFFFF
  let field (old : W) (put : W → Axis → Axis) : State :=
    let (v, bad) := applyFields a.en old w (axFields off)
    (s.when bad (State.axCfgErr k)).modAxis k (put v)
  match off with
  | 0x000 => s.writeAxCfg k w
  | 0x004 => s.writeAxCmd k w
  | 0x008 => (field a.qchk (fun v a => { a with qchk := v })).axReeval k
  | 0x00C =>
    (field a.spdCfg (fun v a =>
      let a := { a with spdCfg := v }
      if a.en && a.mode == 0 && a.spdMode != 0 then a.setMethod s.tw (a.spdMode == 2) else a)).axReeval k
  | 0x010 => s.writeThr k (w &&& m31) a.dnThr
  | 0x014 => s.writeThr k a.upThr (w &&& m31)
  | 0x018 => (field a.stopSpd (fun v a => { a with stopSpd := v })).axReeval k
  | 0x024 => s.modAxis k (fun a => { a with posLd := w })
  | 0x054 => s.modAxis k (fun a => { a with err := a.err.w1c s.tick w })
  | 0x060 => s.modAxis k (fun a => { a with irqEn := w &&& 0xFF })
  | 0x070 => s.modAxis k (fun a => { a with evt := a.evt.w1c s.tick w })
  | 0x080 => field a.ser.cfg (fun v a => { a with ser := { a.ser with cfg := v } })
  | 0x084 => field a.ser.clk (fun v a => { a with ser := { a.ser with clk := v } })
  | 0x088 => field a.ser.period (fun v a => { a with ser := { a.ser with period := v } })
  | 0x08C => field a.ser.crc (fun v a => { a with ser := { a.ser with crc := v } })
  | 0x090 => s.modAxis k (fun a => { a with ser := { a.ser with tmo := w &&& 0xFFFF00FF } })
  | 0x098 => s.modAxis k (fun a => { a with ser := { a.ser with lat := w &&& 0xFFFF } })
  | 0x0A0 => field a.predCfg (fun v a => { a with predCfg := v })
  | 0x0A4 => s.modAxis k (fun a => { a with vmin := w &&& m31 })
  | 0x0A8 => s.modAxis k (fun a => { a with vmax := w &&& m31 })
  | 0x0AC => s.modAxis k (fun a => { a with amax := w &&& m31 })
  | 0x0C0 => s.writeEmulCfg k w
  | 0x0C4 =>
    if bit a.emul.cfg 0 || fld w 0 16 == 0 || decide (fld w 16 16 < fld w 0 16) then
      s.when (w != a.emul.ratio || !bit a.emul.cfg 0) (State.axCfgErr k)
    else s.modAxis k (fun a => { a with emul := { a.emul with ratio := w } })
  | 0x0C8 => if w.toNat < 4 then s.axCfgErr k else s.modAxis k (fun a => { a with emul := { a.emul with zper := w } })
  | 0x0CC => s.modAxis k (fun a => { a with emul := { a.emul with flags := a.emul.flags.w1c s.tick (w &&& 0xC) } })
  | _ => s

/-- AXIS_CFG_WRITE (R120). -/
def execAxisCfgWrite (k : Ax) (off : Nat) (w : W) (s : State) : Out := .next (s.writeAxis k off w)

end Sys2Proof.Machine
end

