-- ==== Sys2Proof/Machine/BusAxis.lean ====
section
/-!
DEFINITION. The registers of an axis (base 0x0008_0000 + 0x1000 × k; R119) and of a pod (base 0x0009_0000 + 0x2000 × p; R187, R197, chapter Calendar).
-/
namespace Sys2Proof.Machine

/-! ### Axis -/

/-- AXk_IPOS: POS in 1/256 count, extrapolated from the last edge and never past the next count (R140). -/
def Axis.ipos (t : Nat) (a : Axis) : Nat :=
  let f := if a.held t then 0 else min 255 (256 * a.age t * a.spd.dp.natAbs / a.spd.dt)
  (a.pos.toNat * 256 + (if a.rev then 2 ^ 40 - f else f)) % 2 ^ 40

/-- The wide registers of an axis, by the offset of the low word. -/
def axisWide (k : Ax) (o : Nat) (s : State) : Option Nat :=
  let a := s.axis[k]
  match o with
  | 0x028 => some (a.ipos s.tick)
  | 0x030 => some a.edgeLt
  | 0x064 => some a.zLt
  | _ => none

/-- The channels that have a head on axis k. -/
def headsOf (k : Ax) (s : State) : List PosEv := allChs.filterMap (fun n => headOf k n s)

/-- AXk_STAT. -/
def axisStat (k : Ax) (s : State) : W :=
  let a := s.axis[k]
  let t := s.tick
  flag 0 (a.en && s.pwr.mode != 2) ||| flag 1 a.rev ||| flag 2 (decide (0 < a.revRun)) ||| flag 3 (a.isStopped t) ||| flag 4 (a.isLagging t)
    ||| flag 5 a.spd.cntMode ||| flag 6 a.zArmed ||| flag 7 a.coarse ||| put 8 (min 255 a.revRun) ||| put 16 a.hall.toNat
    ||| flag 19 a.ser.busy.isSome ||| flag 20 a.spd.valid

/-- AXk_PRED_STAT. SUSPENDED holds commits of an axis that is enabled or has events; one that is neither reads the 0 of reset. [DEDUCED, log entry 28] -/
def predStat (k : Ax) (s : State) : W :=
  let a := s.axis[k]
  let hs := headsOf k s
  put 0 hs.length ||| flag 8 (a.held s.tick && (a.en || s.cal.pos.any (fun x => x.axis == k))) ||| flag 9 (hs.any (fun h => posClass a.rev a.pos h.ev.rec_.target == .behind))
    ||| flag 10 (s.cal.pos.any (fun x => x.axis == k && !x.ahead))

/-- A register of an axis that is not wide. -/
def axisWord (m : Master) (k : Ax) (o : Nat) (s : State) : W :=
  let a := s.axis[k]
  let t := s.tick
  let l := a.latch[m.idx]
  match o with
  | 0x000 => a.cfg
  | 0x008 => a.qchk
  | 0x00C => a.spdCfg
  | 0x010 => a.upThr
  | 0x014 => a.dnThr
  | 0x018 => a.stopSpd
  | 0x020 => a.pos
  | 0x024 => a.posLd
  | 0x038 => l.edgePos
  | 0x040 => ofInt a.spd.speed
  | 0x044 => ofInt l.accel
  | 0x048 => ofInt l.dp
  | 0x04C => put 0 l.dt
  | 0x050 => axisStat k s
  | 0x054 => a.err.bits &&& 0x1FFF
  | 0x058 => put 0 (a.illegal.view t) ||| put 8 (a.fast.view t) ||| put 16 (a.serErr.view t)
  | 0x05C => ofInt (a.wrapNet.val - a.wrapNet.now t) &&& 0xFFFF
  | 0x060 => a.irqEn
  | 0x06C => l.zPos
  | 0x070 => a.evt.bits &&& 0xFF
  | 0x080 => a.ser.cfg
  | 0x084 => a.ser.clk
  | 0x088 => a.ser.period
  | 0x08C => a.ser.crc
  | 0x090 => a.ser.tmo
  | 0x094 => a.ser.raw
  | 0x098 => a.ser.lat
  | 0x0A0 => a.predCfg
  | 0x0A4 => a.vmin
  | 0x0A8 => a.vmax
  | 0x0AC => a.amax
  | 0x0B0 => predStat k s
  | 0x0B4 => put 0 (a.missedBehind.view t) ||| put 8 (a.lateShort.view t) ||| put 16 (a.lateReached.view t) ||| put 24 (a.outBound.view t)
  | 0x0C0 => a.emul.cfg
  | 0x0C4 => a.emul.ratio
  | 0x0C8 => a.emul.zper
  | 0x0CC =>
    flag 0 a.emul.run ||| flag 1 (a.emul.backlog != 0) ||| (a.emul.flags.bits &&& 0xC) ||| put 4 (min 65535 a.emul.backlog)
  | _ => 0

/-- What a read of an axis register does besides: what it latches for the master (R138), and read-and-clear counts. -/
def axisTake (m : Master) (k : Ax) (o : Nat) (s : State) : State :=
  let t := s.tick
  let latch (f : Axis → AxLatch → AxLatch) : State :=
    s.modAxis k (fun a => { a with latch := a.latch.set m.idx.val (f a a.latch[m.idx]) })
  match o with
  | 0x030 => latch (fun a l => { l with edgePos := a.edgePos })
  | 0x040 => latch (fun a l => { l with accel := a.spd.accel, dp := a.spd.dp, dt := a.spd.dt })
  | 0x064 => latch (fun a l => { l with zPos := a.zPos })
  | 0x058 => s.modAxis k (fun a => { a with illegal := a.illegal.read t, fast := a.fast.read t, serErr := a.serErr.read t })
  | 0x05C => s.modAxis k (fun a => { a with wrapNet := a.wrapNet.read t })
  | 0x0B4 => s.modAxis k (fun a => { a with
      missedBehind := a.missedBehind.read t, lateShort := a.lateShort.read t
      lateReached := a.lateReached.read t, outBound := a.outBound.read t })
  | _ => s

/-! ### Pod -/

/-- Nothing has been dispatched in the pod since reset, and nothing waits for its sequencer. -/
def PodSt.quiet (q : PodSt) : Bool :=
  !q.uc.ran && q.staging.isEmpty && q.spill.isEmpty && q.fast.isEmpty && q.commits.isEmpty && q.matched.isEmpty && q.capQ.isEmpty
    && q.plines.isEmpty && q.job.isNone && q.substReq.isNone

/-- PODp_SEQ_STAT: which routine runs, and which wait, is the sequencer's own within R191: a routine is preempted only by higher priorities (R387). -/
def seqStat (q : PodSt) (s : State) : W :=
  if q.quiet then flag 8 true
  else if Config.freeBit s.free then
    let prio := 1 + Config.freeNat s.free % 7
    flag 0 true ||| put 1 prio ||| put 4 (Config.freeNat (s.free + 1) % prio)
  else flag 8 (Config.freeBit (s.free + 1))

/-- PODp_EVT_PEND (R387). -/
def evtPend (q : PodSt) (s : State) : W := if q.quiet then 0 else put 1 (s.freeBelow 128)

/-- A feeder register. -/
def feederWord (f : Feeder) (k : Nat) : W :=
  match k with
  | 0x00 => f.feedBase
  | 0x04 => f.drnBase
  | 0x08 => f.size
  | 0x0C => f.feedWr
  | 0x10 => f.feedRd
  | 0x14 => f.drnWr
  | 0x18 => f.drnRd
  | _ => 0

/-- The wide registers of a pod. -/
def podWide (p : Pod) (o : Nat) (s : State) : Option Nat :=
  if o = 0x1010 then some s.pod[p].res.base.toNat else none

/-- A register of a pod that is not wide. -/
def podWord (p : Pod) (o : Nat) (s : State) : W :=
  let q := s.pod[p]
  let t := s.tick
  let r := q.res
  match o with
  | 0x000 => seqStat q s
  | 0x004 => evtPend q s
  | 0x008 => put 0 (min 65535 (q.latTop.peakView t)) ||| put 16 (min 65535 (q.latAny.peakView t))
  | 0x00C => put 0 (q.busy.view t)
  | 0x010 => put 0 (q.preempt.view t)
  | 0x014 =>
    put 0 (q.uc.level % 65536) ||| put 16 q.uc.records ||| flag 23 q.uc.patched ||| flag 24 q.uc.locked ||| put 28 q.uc.code.toNat
  | 0x018 => (q.uc.flags.bits &&& 7) ||| flag 3 q.uc.patchErr
  | 0x01C => put 0 (q.uc.corrCnt.view t) ||| put 16 (q.uc.repCnt.view t)
  | 0x020 => q.irqEn
  | 0x024 => q.plineSeen.bits
  | 0x028 => q.pfErr.bits
  | 0x1000 => put 0 q.staging.length ||| put 16 q.spill.length
  | 0x1004 => put 0 (q.lvlMax.peakView t) ||| put 16 (min 65535 (q.winMax.peakView t))
  | 0x1008 => put 0 q.fast.length
  | 0x100C => put 0 (q.displaced.view t) ||| put 16 (q.armLate.view t)
  | 0x1018 => put 0 r.log2
  | 0x101C => r.wr
  | 0x1020 => r.rd
  | 0x1024 => put 0 r.backlog.length ||| flag 16 (r.log2 != 0 && r.full) ||| (r.flags.bits &&& mask 17 2)
  | 0x1028 => put 0 (r.gap.view t)
  | 0x102C => r.thr
  | _ =>
    if 0x100 ≤ o ∧ o < 0x300 then feederWord q.feeder[(⟨(o - 0x100) / 0x20 % 16, by omega⟩ : Fin 16)] (o % 0x20) else 0

/-- What a read of a register of a pod does besides. -/
def podTake (p : Pod) (o : Nat) (s : State) : State :=
  let t := s.tick
  match o with
  | 0x000 => s.used.used
  | 0x004 => s.used
  | 0x008 => s.modPod p (fun q => { q with latTop := q.latTop.peakRead t 0, latAny := q.latAny.peakRead t 0 })
  | 0x00C => s.modPod p (fun q => { q with busy := q.busy.read t })
  | 0x010 => s.modPod p (fun q => { q with preempt := q.preempt.read t })
  | 0x01C => s.modPod p (fun q => { q with uc := { q.uc with corrCnt := q.uc.corrCnt.read t, repCnt := q.uc.repCnt.read t } })
  | 0x1004 => s.modPod p (fun q => { q with lvlMax := q.lvlMax.peakRead t q.staging.length, winMax := q.winMax.peakRead t 0 })
  | 0x100C => s.modPod p (fun q => { q with displaced := q.displaced.read t, armLate := q.armLate.read t })
  | 0x1028 => s.modPod p (fun q => { q with res := { q.res with gap := q.res.gap.read t } })
  | _ => s

/-- PODp_RES_THR: 1 to 2^20. -/
def clampThr (w : W) : W := if w == 0 then 1 else if decide (1048576 < w.toNat) then 1048576 else w

/-- A write of a register of a pod. -/
def podWrite (p : Pod) (o : Nat) (w : W) (s : State) : State :=
  let t := s.tick
  match o with
  | 0x018 => s.modPod p (fun q => { q with uc := { q.uc with flags := q.uc.flags.w1c t (w &&& 7) } })
  | 0x020 => s.modPod p (fun q => { q with irqEn := w &&& 0xFF07 })
  | 0x024 => s.modPod p (fun q => { q with plineSeen := q.plineSeen.w1c t (w &&& 0xFF) })
  | 0x028 => s.modPod p (fun q => { q with pfErr := q.pfErr.w1c t (w &&& 0xFFFF) })
  | 0x1020 => s.writeResRd p w
  | 0x1024 => s.modPod p (fun q => { q with res := { q.res with flags := q.res.flags.w1c t (w &&& mask 17 2) } })
  | 0x102C => s.modPod p (fun q => { q with res := { q.res with thr := clampThr w } })
  | _ =>
    if 0x100 ≤ o ∧ o < 0x300 then
      let n := chOf p ((o - 0x100) / 0x20)
      match o % 0x20 with
      | 0x00 => s.writeFeeder n 0 w
      | 0x04 => s.writeFeeder n 1 w
      | 0x08 => s.writeFeeder n 2 w
      | 0x0C => s.writeFeedWr n w
      | 0x18 => s.writeDrnRd n w
      | _ => s
    else s

end Sys2Proof.Machine
end

