-- ==== Sys2Proof/Machine/BusStore.lean ====
section
/-!
DEFINITION. The registers of the converter (base 0x0008_8000; R307), the central store (base 0x000A_0000; R206) and the event interrupt controller
(base 0x0002_0000; R227).
-/
namespace Sys2Proof.Machine

/-! ### Converter -/

/-- The slice whose registers an offset lies in. -/
def sliceOf (o : Nat) : Slice := ⟨(o - 0x100) / 0x40 % 4, by omega⟩

/-- The wide registers of the converter: ADC_STR_BASE, and the timestamp of the master's last DATA read (R312). -/
def adcWide (m : Master) (o : Nat) (s : State) : Option Nat :=
  if o = 0x44 then some s.adc.strBase.toNat
  else if 0x100 ≤ o ∧ o < 0x200 ∧ o % 0x40 = 0x0C then some s.adc.slice[sliceOf o].latch[m.idx]
  else none

/-- ADC_STAT. -/
def adcStat (a : Adc) : W :=
  flag 0 a.refReady ||| flag 1 (a.overlap.isSome || a.calUnit.isSome) ||| put 2 a.calSlice ||| put 5 a.spare
    ||| (a.flags.bits &&& 0x3700) ||| flag 11 a.degraded

/-- ADC_SLs_STAT. -/
def sliceStat (x : AdcSlice) : W :=
  flag 0 x.en ||| flag 1 (x.en && x.skip != 0) ||| flag 2 x.inBand ||| (x.stat.bits &&& 0x38) ||| put 6 x.unit ||| put 9 x.selAct.toNat

/-- A unit's registers. Whether the coefficients of a retired unit count as valid is free: no rule states it (R316). [DEDUCED, log entry 53] -/
def unitWord (k : Nat) (fv : Bool) (u : AdcUnit) : W :=
  match k with
  | 0x0 => ofInt u.ofs &&& 0xFFFFFF
  | 0x4 => put 0 (u.gain % 2 ^ 24)
  | 0x8 => put 0 u.role.toNat ||| flag 3 (u.role != 7 || fv)
  | _ => 0

/-- A register of the converter that is not wide; ADC_SLs_DATA has its own read. -/
def adcWord (o : Nat) (s : State) : W :=
  let a := s.adc
  let t := s.tick
  match o with
  | 0x000 => a.ctrl
  | 0x004 => adcStat a
  | 0x008 => a.period
  | 0x00C => a.tol
  | 0x010 => put 0 (a.rotations.view t) ||| put 16 (a.mism.view t) ||| put 24 (a.fails.view t)
  | 0x014 => a.dac
  | 0x018 => a.temp25
  | 0x040 => put 0 a.strMask.toNat ||| put 4 a.strLog2
  | 0x04C => a.strWr
  | 0x050 => a.strRd
  | 0x054 => put 0 (a.strLost.view t)
  | _ =>
    if 0x100 ≤ o ∧ o < 0x200 then
      let x := a.slice[sliceOf o]
      match o % 0x40 with
      | 0x00 => x.cfg
      | 0x04 => x.sel
      | 0x14 => ofInt x.low &&& 0xFFFFFF
      | 0x18 => ofInt x.high &&& 0xFFFFFF
      | 0x1C => sliceStat x
      | 0x20 => x.irqEn
      | _ => 0
    else if h : 0x200 ≤ o ∧ o < 0x250 then unitWord (o % 0x10) s.freeBit (a.unit[(o - 0x200) / 0x10]'(by omega))
    else 0

/-- What a read of a converter register does besides. -/
def adcTake (o : Nat) (s : State) : State :=
  let t := s.tick
  match o with
  | 0x010 => { s with adc := { s.adc with rotations := s.adc.rotations.read t, mism := s.adc.mism.read t, fails := s.adc.fails.read t } }
  | 0x054 => { s with adc := { s.adc with strLost := s.adc.strLost.read t } }
  | _ => if 0x200 ≤ o ∧ o < 0x250 then s.used else s

/-- A write of a converter register. -/
def adcWrite (o : Nat) (w : W) (s : State) : State :=
  let t := s.tick
  match o with
  | 0x000 => s.writeAdcCtrl w
  | 0x004 => { s with adc := { s.adc with flags := s.adc.flags.w1c t (w &&& 0x3700) } }
  | 0x008 => if fld w 0 16 < 50 then s.adcCfgErr else { s with adc := { s.adc with period := w &&& 0xFFFF } }
  | 0x00C => { s with adc := { s.adc with tol := w &&& 0xFFFFFF } }
  | 0x014 => { s with adc := { s.adc with dac := w &&& 0x1FFF } }
  | 0x050 => s.writeStrRd w
  | _ =>
    if 0x100 ≤ o ∧ o < 0x200 then
      let i := sliceOf o
      match o % 0x40 with
      | 0x00 => s.writeAdcCfg i w
      | 0x04 => s.writeAdcSel i w
      | 0x14 => s.writeBand i false w
      | 0x18 => s.writeBand i true w
      | 0x1C => s.modSlice i (fun x => { x with stat := x.stat.w1c t (w &&& 0x38) })
      | 0x20 => s.modSlice i (fun x => { x with irqEn := w &&& 0xF })
      | _ => s
    else s

/-! ### Central store -/

/-- A register of the store. -/
def storeWord (o : Nat) (s : State) : W :=
  let x := s.store
  let t := s.tick
  match o with
  | 0x000 => flag 0 x.calHalf
  | 0x004 => put 0 x.retained.toNat ||| put 8 x.transit.toNat ||| (x.retFlags.bits &&& 0x13F0000)
  | 0x008 => (x.errFlags.bits &&& 0x7F) ||| put 8 x.errMaster.toNat
  | 0x00C => x.errAddr
  | 0x010 => put 0 (x.ceCnt.view t) ||| put 16 (x.ueCnt.view t)
  | 0x014 => x.winAddr
  | 0x018 => put 0 x.passCnt.toNat ||| (x.scrub.bits &&& mask 16 2)
  | 0x01C => x.irqEn
  | 0x020 => put 0 x.page.toNat
  | 0x024 => capPend s
  | _ =>
    if h : 0x100 ≤ o ∧ o < 0x164 then put 0 ((x.arb[(o - 0x100) / 4]'(by omega)).conf.val)
    else if h : 0x200 ≤ o ∧ o < 0x264 then
      let m := x.arb[(o - 0x200) / 4]'(by omega)
      put 0 (min 63 (m.runMax.peakView t)) ||| put 8 (m.guard.view t)
    else if 0x300 ≤ o ∧ o < 0x380 then
      let r := x.ring[(⟨(o - 0x300) / 0x10 % 8, by omega⟩ : Pod)]
      match o % 0x10 with
      | 0x0 => r.base
      | 0x4 => r.size
      | 0x8 => r.wr
      | _ => r.rd
    else 0

/-- What a read of a store register does besides. -/
def storeTake (o : Nat) (s : State) : State :=
  let t := s.tick
  if o = 0x010 then { s with store := { s.store with ceCnt := s.store.ceCnt.read t, ueCnt := s.store.ueCnt.read t } }
  else if h : 0x200 ≤ o ∧ o < 0x264 then
    s.modArb ⟨(o - 0x200) / 4, by omega⟩ (fun x => { x with runMax := x.runMax.peakRead t (min 63 (x.run + x.rmw)), guard := x.guard.read t })
  else s

/-- A write of STO_QSPI_PAGE (R225). -/
def State.writePage (w : W) (s : State) : State :=
  if 6 ≤ fld w 0 3 then s.storeCfgErr else { s with store := { s.store with page := BitVec.ofNat 3 (fld w 0 3) } }

/-- A write of a store register. A loss of the present tick counts on from the value written to STO_ARBm_CONF (R216). -/
def storeWrite (o : Nat) (w : W) (s : State) : State :=
  let t := s.tick
  match o with
  | 0x004 => { s with store := { s.store with retFlags := s.store.retFlags.w1c t (w &&& 0x13F0000) } }
  | 0x008 => { s with store := { s.store with errFlags := s.store.errFlags.w1c t (w &&& 0x7F) } }
  | 0x018 => { s with store := { s.store with scrub := s.store.scrub.w1c t (w &&& mask 16 2) } }
  | 0x01C => { s with store := { s.store with irqEn := w &&& 0x7F } }
  | 0x020 => s.writePage w
  | _ =>
    if h : 0x100 ≤ o ∧ o < 0x164 then
      s.modArb ⟨(o - 0x100) / 4, by omega⟩ (fun x => { x with conf := { x.conf with val := min 0xFFFFFFFF (w.toNat + x.conf.now t) } })
    else if 0x300 ≤ o ∧ o < 0x380 then
      let p : Pod := ⟨(o - 0x300) / 0x10 % 8, by omega⟩
      match o % 0x10 with
      | 0x0 => s.writeCapCfg p false w
      | 0x4 => s.writeCapCfg p true w
      | 0xC => s.writeCapRd p w
      | _ => s
    else s

/-! ### Event interrupt controller -/

/-- The 32 pending bits of a group. -/
def pendWord (g : Grp) (e : Eic) : W := BitVec.ofNat 32 (e.pend.toNat / 2 ^ (32 * g.val))

/-- TGTt_PEEK: what the last decision offers. -/
def peekWord (t : Tgt) (s : State) : W := match s.eic.tgt[t].offered with
  | some i => put 0 i
  | none => claimNone

/-- A register of a target; TGTt_CLAIM has its own read. -/
def tgtWord (t : Tgt) (k : Nat) (s : State) : W :=
  let x := s.eic.tgt[t]
  match k with
  | 0x00 => put 0 x.thr.toNat
  | 0x04 => put 0 x.run ||| put 4 x.stack.length
  | 0x10 => peekWord t s
  | 0x14 => flag 0 x.sleep
  | 0x18 => flag 0 x.offered.isSome ||| flag 1 (asleep t s) ||| (x.flags.bits &&& 0x1C) ||| put 8 (x.spur.view s.tick)
  | _ => 0

/-- A word of the MSI-X table. -/
def msixWord (v : MsixVec) (k : Nat) : W :=
  match k with
  | 0x0 => v.addrLo
  | 0x4 => v.addrHi
  | 0x8 => v.data
  | _ => v.ctrl

/-- A register of the controller. -/
def eicWord (o : Nat) (s : State) : W :=
  let e := s.eic
  let g (b : Nat) : Grp := ⟨(o - b) / 4 % 32, by omega⟩
  if o = 0x0000 then 0x70400
  else if o = 0x0004 then (e.flags.bits &&& 1) ||| flag 1 (e.pend != 0)
  else if o = 0x0008 then e.qCfg
  else if 0x0100 ≤ o ∧ o < 0x0180 then e.grp[g 0x100].cfg
  else if 0x0180 ≤ o ∧ o < 0x0200 then put 0 (e.grp[g 0x180].coalesce.view s.tick) ||| flag 8 (holding (g 0x180) s)
  else if 0x0200 ≤ o ∧ o < 0x0280 then pendWord (g 0x200) e
  else if 0x0280 ≤ o ∧ o < 0x0300 then pendWord (g 0x280) e
  else if 0x1000 ≤ o ∧ o < 0x1700 then tgtWord ⟨(o - 0x1000) / 0x100 % 7, by omega⟩ (o % 0x100) s
  else if 0x4000 ≤ o ∧ o < 0x5000 then e.src[(⟨(o - 0x4000) / 4 % 1024, by omega⟩ : Src)]
  else if 0x8000 ≤ o ∧ o < 0x8200 then msixWord e.msix[(⟨(o - 0x8000) / 16 % 32, by omega⟩ : Fin 32)] (o % 16)
  else if o = 0x9000 then e.pba
  else 0

/-- What a read of a register of the controller does besides; a read of a target's registers by the debug master does nothing (R244). -/
def eicTake (m : Master) (o : Nat) (s : State) : State :=
  if 0x0180 ≤ o ∧ o < 0x0200 then
    s.modGrp ⟨(o - 0x180) / 4 % 32, by omega⟩ (fun x => { x with coalesce := x.coalesce.read s.tick })
  else if 0x1000 ≤ o ∧ o < 0x1700 ∧ o % 0x100 = 0x18 ∧ m ≠ .debug then
    s.modTgt ⟨(o - 0x1000) / 0x100 % 7, by omega⟩ (fun x => { x with spur := x.spur.read s.tick })
  else s

/-- A write of a word of the MSI-X table; clearing the mask bit is MSIX_UNMASK (R241). -/
def State.writeMsix (v : Fin 32) (k : Nat) (w : W) (s : State) : State :=
  let put_ (f : MsixVec → MsixVec) : State := { s with eic := { s.eic with msix := s.eic.msix.set v.val (f s.eic.msix[v]) } }
  match k with
  | 0x0 => put_ (fun x => { x with addrLo := w })
  | 0x4 => put_ (fun x => { x with addrHi := w })
  | 0x8 => put_ (fun x => { x with data := w })
  | _ => if bit w 0 then put_ (fun x => { x with ctrl := 1 }) else s.msixUnmask v

/-- A write of a register of a target; by another than its owner it is ignored with OWN_ERR (R244). -/
def tgtWrite (m : Master) (t : Tgt) (k : Nat) (w : W) (s : State) : State :=
  match k with
  | 0x00 => s.writeTgt m t false w
  | 0x0C => s.eoi m t
  | 0x14 => s.writeTgt m t true w
  | 0x18 =>
    if owns m t then s.modTgt t (fun x => { x with flags := x.flags.w1c s.tick (w &&& 0x1C) }) else s.ownErr m t
  | _ => s

/-- A write of a register of the controller. -/
def eicWrite (m : Master) (o : Nat) (w : W) (s : State) : State :=
  let g (b : Nat) : Grp := ⟨(o - b) / 4 % 32, by omega⟩
  if o = 0x0004 then { s with eic := { s.eic with flags := s.eic.flags.w1c s.tick (w &&& 1) } }
  else if o = 0x0008 then { s with eic := { s.eic with qCfg := w &&& 0xF } }
  else if 0x0100 ≤ o ∧ o < 0x0180 then s.writeGrp m (g 0x100) w
  else if 0x0200 ≤ o ∧ o < 0x0280 then s.clearPend m (g 0x200) w
  else if 0x0280 ≤ o ∧ o < 0x0300 then s.writePset m (g 0x280) w
  else if 0x1000 ≤ o ∧ o < 0x1700 then tgtWrite m ⟨(o - 0x1000) / 0x100 % 7, by omega⟩ (o % 0x100) w s
  else if 0x4000 ≤ o ∧ o < 0x5000 then s.writeSrc m ⟨(o - 0x4000) / 4 % 1024, by omega⟩ w
  else if 0x8000 ≤ o ∧ o < 0x8200 then s.writeMsix ⟨(o - 0x8000) / 16 % 32, by omega⟩ (o % 16) w
  else s

end Sys2Proof.Machine
end

