-- ==== Sys2Proof/Machine/BusHost.lean ====
section
/-!
DEFINITION. The registers of the mailboxes (0x0001_0000 + 0x40 × m), of the abort block (0x0001_1000; R257) and of the surroundings (0x000C_0000; R323, R365).
-/
namespace Sys2Proof.Machine

/-! ### Mailboxes -/

/-- The mailbox whose registers an offset lies in. -/
def mbxAt (o : Nat) : Mbx := ⟨o / 0x40 % 32, by omega⟩

/-- MBm_STATUS. -/
def mbxStatus (x : Mailbox) : W :=
  flag 0 x.busy ||| (x.flags.bits &&& 0x1E) ||| flag 5 (x.owner != 0) ||| put 8 x.owner ||| put 16 x.result

/-- A register of a mailbox; MBm_LOCK has its own read. -/
def mbxWord (o : Nat) (s : State) : W :=
  let x := s.mbx[mbxAt o]
  match o % 0x40 with
  | 0x04 => x.postLo
  | 0x08 => x.postHi
  | 0x10 => mbxStatus x
  | 0x14 => x.lastSeq
  | 0x18 => put 0 x.detail
  | 0x1C => x.irqEn
  | _ => 0

/-- A write of MBm_DOORBELL: a post for mailboxes 0 to 23, an acknowledgement for 24 to 31 (R259, R266). -/
def State.ring (m : Master) (b : Mbx) (w : W) (s : State) : State :=
  if h : b.val < 24 then s.doorbell m ⟨b.val, h⟩ w else s.noticeAck ⟨b.val - 24, by omega⟩ w

/-- A write of a register of a mailbox. -/
def mbxWrite (m : Master) (o : Nat) (w : W) (s : State) : State :=
  let b := mbxAt o
  match o % 0x40 with
  | 0x00 => s.lockWrite m b
  | 0x04 => s.postWrite m b false w
  | 0x08 => s.postWrite m b true w
  | 0x0C => s.ring m b w
  | 0x10 => s.modMbx b (fun x => { x with flags := x.flags.w1c s.tick (w &&& 0x1E) })
  | 0x1C => s.modMbx b (fun x => { x with irqEn := w &&& 1 })
  | _ => s

/-! ### Abort -/

/-- ABORT_ACTi. -/
def abortAct (i : Nat) (s : State) : W :=
  (List.range 32).foldl (fun w j => w ||| flag j (s.ch[(⟨(32 * i + j) % 128, by omega⟩ : Ch)]).aborted) 0

/-- A register of the abort block that is not wide. -/
def abortWord (o : Nat) (s : State) : W :=
  let a := s.abort
  match o with
  | 0x04 => a.podMask
  | 0x08 => a.chMask[0]
  | 0x0C => a.chMask[1]
  | 0x10 => a.chMask[2]
  | 0x14 => a.chMask[3]
  | 0x18 =>
    (a.flags.bits &&& 0x11) ||| flag 1 (s.ch.toList.any (fun c => c.aborted)) ||| flag 2 a.safeLow ||| flag 3 (a.going != 0)
      ||| flag 5 !a.relPend.isEmpty
  | 0x20 => abortAct 0 s
  | 0x24 => abortAct 1 s
  | 0x28 => abortAct 2 s
  | 0x2C => abortAct 3 s
  | 0x38 => put 0 (a.purged.view s.tick)
  | _ => 0

/-- A write of a mask of the abort block; a Watch core is refused it (R283, R284). -/
def State.writeMask (m : Master) (o : Nat) (f : Abort → Abort) (s : State) : State :=
  match m.watch with
  | some c => s.watchViol c false (0x11000 + o)
  | none => { s with abort := f s.abort }

/-- A write of a register of the abort block. -/
def abortWrite (m : Master) (o : Nat) (w : W) (s : State) : State :=
  match o with
  | 0x00 => s.writeAbortCtrl m w
  | 0x04 => s.writeMask m o (fun a => { a with podMask := w &&& 0xFF })
  | 0x08 => s.writeMask m o (fun a => { a with chMask := a.chMask.set 0 w })
  | 0x0C => s.writeMask m o (fun a => { a with chMask := a.chMask.set 1 w })
  | 0x10 => s.writeMask m o (fun a => { a with chMask := a.chMask.set 2 w })
  | 0x14 => s.writeMask m o (fun a => { a with chMask := a.chMask.set 3 w })
  | 0x18 => { s with abort := { s.abort with flags := s.abort.flags.w1c s.tick (w &&& 0x11) } }
  | _ => s

/-! ### Surroundings -/

/-- A register of an adaptation policy. -/
def polWord (p : Policy) (k : Nat) : W :=
  match k with
  | 0x00 => flag 0 p.enable ||| flag 1 p.lock ||| flag 2 (!p.decls.isEmpty)
  | 0x04 => p.min
  | 0x08 => p.max
  | 0x0C => p.tgt[0]
  | 0x10 => p.tgt[1]
  | 0x14 => p.tgt[2]
  | 0x18 => p.tgt[3]
  | _ => 0

/-- SUR_MEAS_STAT. -/
def measStat (x : Sur) : W :=
  flag 0 x.running ||| flag 1 (!x.running && x.jobs.head?.any MeasJob.gap) ||| put 2 x.abandons ||| flag 4 x.kind ||| put 8 x.ch

/-- A register of the surroundings. -/
def surWord (o : Nat) (s : State) : W :=
  let x := s.sur
  let t := s.tick
  match o with
  | 0x000 => x.sup
  | 0x004 => x.seen.bits
  | 0x008 => put 0 x.tj.toNat ||| put 16 x.alarm.toNat
  | 0x200 => put 0 (x.declared.view t) ||| put 8 (x.deferred.view t) ||| put 16 (x.cancelled.view t) ||| put 24 (x.clamped.view t)
  | 0x300 => measStat x
  | 0x600 => (x.atb &&& 0x3F3F) ||| (x.atbErr.bits &&& 0x80)
  | _ =>
    if h : 0x040 ≤ o ∧ o < 0x060 then put 0 (x.vio[(o - 0x40) / 4]'(by omega) % 8192)
    else if h : 0x100 ≤ o ∧ o < 0x1A0 then polWord (x.pol[(o - 0x100) / 0x20]'(by omega)) (o % 0x20)
    else if 0x400 ≤ o ∧ o < 0x600 then put 0 s.ch[(⟨(o - 0x400) / 4 % 128, by omega⟩ : Ch)].adv.comp
    else 0

/-- What a read of a register of the surroundings does besides. -/
def surTake (o : Nat) (s : State) : State :=
  let t := s.tick
  if o = 0x200 then { s with sur := { s.sur with
    declared := s.sur.declared.read t, deferred := s.sur.deferred.read t, cancelled := s.sur.cancelled.read t, clamped := s.sur.clamped.read t } }
  else s

/-- A write of SUR_TEMP: ALARM, 0 to 125; what a larger value stores no rule says. [DESIGN CHOICE, log entry 75] -/
def State.writeAlarm (w : W) (s : State) : State :=
  let v := fld w 16 8
  if v ≤ 125 then { s with sur := { s.sur with alarm := BitVec.ofNat 8 v } }
  else { s.used with sur := { s.sur with alarm := BitVec.ofNat 8 (s.freeBelow 126) } }

/-- A write of a register of the surroundings. -/
def surWrite (o : Nat) (w : W) (s : State) : State :=
  match o with
  | 0x004 => { s with sur := { s.sur with seen := s.sur.seen.w1c s.tick (w &&& 0xFF1F) } }
  | 0x008 => s.writeAlarm w
  | 0x600 => s.writeAtb w
  | _ => s

end Sys2Proof.Machine
end

