-- ==== Sys2Proof/Machine/Bus.lean ====
section
/-!
DEFINITION. The register bus (R4 to R7, R14 to R18, R283, R284): one read and one write of an aligned word by a master, and the commands that make them.
-/
namespace Sys2Proof.Machine

/-- The blocks of BAR0. An address in none is reserved (R6). -/
inductive Block where
  | global | mailbox | abort | eic | chan (n : Ch) | axis (k : Ax) | adc | pod (p : Pod) | store | sur | none
  deriving DecidableEq, Repr

/-- The block of an address, and the offset in it. -/
def blockOf (a : Nat) : Block × Nat :=
  if a < 0x1000 then (.global, a)
  else if 0x10000 ≤ a ∧ a < 0x10800 then (.mailbox, a - 0x10000)
  else if 0x11000 ≤ a ∧ a < 0x12000 then (.abort, a - 0x11000)
  else if 0x20000 ≤ a ∧ a < 0x30000 then (.eic, a - 0x20000)
  else if 0x40000 ≤ a ∧ a < 0x80000 then (.chan ⟨(a - 0x40000) / 0x800 % 128, by omega⟩, (a - 0x40000) % 0x800)
  else if 0x80000 ≤ a ∧ a < 0x88000 then (.axis ⟨(a - 0x80000) / 0x1000 % 8, by omega⟩, (a - 0x80000) % 0x1000)
  else if 0x88000 ≤ a ∧ a < 0x89000 then (.adc, a - 0x88000)
  else if 0x90000 ≤ a ∧ a < 0xA0000 then (.pod ⟨(a - 0x90000) / 0x2000 % 8, by omega⟩, (a - 0x90000) % 0x2000)
  else if 0xA0000 ≤ a ∧ a < 0xA1000 then (.store, a - 0xA0000)
  else if 0xC0000 ≤ a ∧ a < 0xC1000 then (.sur, a - 0xC0000)
  else (.none, a)

/-- The value of the wide register whose low word is at address a, as master m reads it; none where no wide register's low word is there. -/
def busWide (m : Master) (a : Nat) (s : State) : Option Nat :=
  match blockOf a with
  | (.global, o) => globalWide o s
  | (.abort, o) => if o = 0x30 then some s.abort.lt else none
  | (.chan n, o) => if o = 0x108 then some s.ch[n].cap.latch[m.idx].ts else chanWide n o s
  | (.axis k, o) => axisWide k o s
  | (.adc, o) => adcWide m o s
  | (.pod p, o) => podWide p o s
  | _ => none

/-- A register that is not wide, as master m reads it. -/
def busWord (m : Master) (a : Nat) (s : State) : W :=
  match blockOf a with
  | (.global, o) => globalWord m o s
  | (.mailbox, o) => mbxWord o s
  | (.abort, o) => abortWord o s
  | (.eic, o) => eicWord o s
  | (.chan n, o) => chanWord m n o s
  | (.axis k, o) => axisWord m k o s
  | (.adc, o) => adcWord o s
  | (.pod p, o) => podWord p o s
  | (.store, o) => storeWord o s
  | (.sur, o) => surWord o s
  | (.none, _) => 0

/-- What the read does to the block besides. -/
def busTake (m : Master) (a : Nat) (s : State) : State :=
  match blockOf a with
  | (.global, o) => globalTake o s
  | (.abort, o) => if o = 0x38 then { s with abort := { s.abort with purged := s.abort.purged.read s.tick } } else s
  | (.eic, o) => eicTake m o s
  | (.chan n, o) => chanTake n o s
  | (.axis k, o) => axisTake m k o s
  | (.adc, o) => adcTake o s
  | (.pod p, o) => podTake p o s
  | (.store, o) => storeTake o s
  | (.sur, o) => surTake o s
  | _ => s

/-- Brings the addressed channel up to the present tick. -/
def busSettle (a : Nat) (s : State) : State :=
  match blockOf a with
  | (.chan n, o) => if o = 0x108 ∨ o = 0x10C then s else s.chNow n
  | _ => s

/-- A read of the word at an aligned address: low word of a wide register, high word of one, or a register of its own (R14, R15). -/
def State.plainRead (m : Master) (a : Nat) (s : State) : State :=
  let s := busSettle a s
  match busWide m a s with
  | some v => (busTake m a s).lowRead m a v
  | none =>
    match (if 4 ≤ a then busWide m (a - 4) s else none) with
    | some v => (busTake m a s).highRead m (a - 4) (hi32 v)
    | none => (busTake m a s).ret m (busWord m a s)

/-- A Watch core is denied the substitution registers of the health block (R283). [DEDUCED, log entry 73] -/
def readDenied (m : Master) (a : Nat) : Option (Fin 4) :=
  if 0x600 ≤ a ∧ a < 0x700 then m.watch else none

/-- A read of the word at an address by a master; the registers whose read acts have their own (R76, R109, R233, R258, R312). [DEDUCED, log entry 74] -/
def State.busRead (m : Master) (addr : Nat) (s : State) : State :=
  let a := addr / 4 * 4
  match readDenied m a with
  | some c => (s.ret m 0).watchViol c false a
  | none =>
    match blockOf a with
    | (.mailbox, o) => if o % 0x40 = 0 then s.lockRead (mbxAt o) [m] else s.plainRead m a
    | (.eic, o) =>
      if 0x1000 ≤ o ∧ o < 0x1700 ∧ o % 0x100 = 0x08 then s.claim [(m, ⟨(o - 0x1000) / 0x100 % 7, by omega⟩)] else s.plainRead m a
    | (.chan n, o) => if o = 0x108 then s.capPop m n else if o = 0x534 then s.rxfPop m n else s.plainRead m a
    | (.adc, o) => if 0x100 ≤ o ∧ o < 0x200 ∧ o % 0x40 = 0x08 then s.adcRead m (sliceOf o) else s.plainRead m a
    | _ => s.plainRead m a

/-- The writes a Watch core is denied besides those that its block refuses (R283, R305). [DEDUCED, log entry 73] -/
def writeDenied (m : Master) (a : Nat) : Option (Fin 4) :=
  if a = 0x504 ∨ (0x600 ≤ a ∧ a < 0x700) then m.watch else none

/-- A write of a whole word at an aligned address by a master. -/
def State.plainWrite (m : Master) (a : Nat) (w : W) (s : State) : State :=
  match writeDenied m a with
  | some c => s.watchViol c false a
  | none =>
    match blockOf a with
    | (.global, o) => globalWrite m o w s
    | (.mailbox, o) => mbxWrite m o w s
    | (.abort, o) => abortWrite m o w s
    | (.eic, o) => eicWrite m o w s
    | (.chan n, o) => chanWrite m n o w s
    | (.axis k, o) => s.writeAxis k o w
    | (.adc, o) => adcWrite o w s
    | (.pod p, o) => podWrite p o w s
    | (.store, o) => storeWrite o w s
    | (.sur, o) => surWrite o w s
    | (.none, _) => s

/-- A write whose byte enables do not cover the word is ignored with ACC_ERR (R7). [DEDUCED, log entry 74] -/
def State.busWrite (m : Master) (addr : Nat) (w : W) (be : BitVec 4) (s : State) : State :=
  if be ≠ 0xF then s.hsum 0 else s.plainWrite m (addr / 4 * 4) w

/-! ### The commands -/

def execRegisterWrite (m : Master) (a : Nat) (w : W) (be : BitVec 4) (s : State) : Out :=
  .next (s.access m (.registerWrite m a w be) (State.busWrite m a w be))

/-- HOLDING_REG_WRITE: the low word of a wide register, which its high word will commit (R18). -/
def execHoldingRegWrite (m : Master) (a : Nat) (w : W) (s : State) : Out :=
  .next (s.access m (.holdingRegWrite m a w) (State.busWrite m a w 0xF))

/-- WIDE_HIGH_WRITE: the high word, which commits both (R18). -/
def execWideHighWrite (m : Master) (a : Nat) (w : W) (s : State) : Out :=
  .next (s.access m (.wideHighWrite m a w) (State.busWrite m a w 0xF))

/-- GUAR_STAT_CLEAR (R41). -/
def execGuarStatClear (m : Master) (w : W) (s : State) : Out :=
  .next (s.access m (.guarStatClear m w) (State.guarClear w))

def execRcRead (m : Master) (a : Nat) (s : State) : Out := .next (s.access m (.rcRead m a) (State.busRead m a))
def execLowWordRead (m : Master) (a : Nat) (s : State) : Out := .next (s.access m (.lowWordRead m a) (State.busRead m a))
def execHighWordRead (m : Master) (a : Nat) (s : State) : Out := .next (s.access m (.highWordRead m a) (State.busRead m a))

/-- An 8-byte read by the PCI Express host: the low word, then the high word (R16). -/
def State.wideRead (a : Nat) (s : State) : State :=
  let s := s.busRead .pcie a
  let lo := s.master[Master.pcie.idx].rdata
  let s := s.busRead .pcie (a + 4)
  s.modMaster .pcie (fun x => { x with rdataHi := x.rdata, rdata := lo })

def execWideRead8Byte (a : Nat) (s : State) : Out := .next (s.access .pcie (.wideRead8Byte a) (State.wideRead a))

end Sys2Proof.Machine
end

