-- ==== Sys2Proof/Machine/Commands.lean ====
section
/-!
DEFINITION. The firmware commands that read and configure (R268, R270, R272, R274): NOP, FW_INFO, HEALTH_QUERY, CH_CONFIG, CH_QUERY, PIP_LOAD, PIP_SWAP,
AXIS_CONFIG, EMUL_CONFIG and ADC_CONFIG.
-/
namespace Sys2Proof.Machine

def execNop (b : CmdMbx) (s : State) : Out := .next (s.command b 0x00 (fun _ s => s.answer b stOk 0 []))

/-- A reply of n bytes: what it holds, then reserved bytes of 0. -/
def padTo (n : Nat) (bs : List Byte) : List Byte := bs ++ List.replicate (n - bs.length) 0

/-! ### Queries (R268, R272) -/

/-- FW_INFO; the two microcode fields of pod 0 stand as u32 fields. [DESIGN CHOICE, log entry 66] -/
def State.fwInfo (b : CmdMbx) (_body : List Byte) (s : State) : State :=
  let uc := s.pod[(0 : Pod)].uc
  s.answer b stOk 0 (padTo 64
    (leBytes 4 (globalWord .watch1 0 s).toNat ++ leBytes 4 s.fw.keeperVer.toNat ++ leBytes 4 s.fw.serviceVer.toNat
      ++ leBytes 4 (uc.level % 65536) ++ leBytes 4 uc.code.toNat ++ leBytes 8 s.fw.build.toNat))

def execFwInfo (b : CmdMbx) (s : State) : Out := .next (s.command b 0x01 (State.fwInfo b))

/-- HEALTH_QUERY: a snapshot of one tick. How the substitution and spare-pin counts share their word is free. [DESIGN CHOICE, log entry 67] -/
def State.healthQuery (b : CmdMbx) (_body : List Byte) (s : State) : State :=
  let g (a : Nat) : List Byte := leBytes 4 (globalWord .watch1 a s).toNat
  s.used.answer b stOk 0 (padTo 64
    (leBytes 8 s.time.lt ++ g 0x130 ++ g 0x118 ++ g 0x308 ++ g 0x208 ++ g 0x204 ++ leBytes 4 (storeWord 0x008 s).toNat
      ++ leBytes 4 (abortWord 0x18 s).toNat ++ leBytes 4 (s.freeBelow (2 ^ 32))
      ++ allPods.flatMap (fun p => leBytes 2 s.pod[p].staging.length)))

def execHealthQuery (b : CmdMbx) (s : State) : Out := .next (s.command b 0x02 (State.healthQuery b))

/-- The value at an offset of a channel's block, as a read without side effects finds it: a high word is that of the value itself. -/
def imageWord (n : Ch) (o : Nat) (s : State) : W :=
  match busWide .watch1 (chBase n + o) s with
  | some v => lo32 v
  | none =>
    match (if 4 ≤ o then busWide .watch1 (chBase n + o - 4) s else none) with
    | some v => hi32 v
    | none => chanWord .watch1 n o s

/-- The offsets of CH_QUERY. -/
def imageOffsets : List Nat := (List.range 132).map (fun i => 4 * i) ++ (List.range 18).map (fun i => 0x500 + 4 * i)

/-- CH_QUERY. -/
def State.chQuery (b : CmdMbx) (body : List Byte) (s : State) : State :=
  let c := u32 0 body
  if h : c < 128 then
    let n : Ch := ⟨c, h⟩
    let now := s.chNow n
    now.answer b stOk 0 (imageOffsets.flatMap (fun o => leBytes 4 (imageWord n o now).toNat))
  else s.answer b stBadCh 0 []

def execChQuery (b : CmdMbx) (s : State) : Out := .next (s.command b 0x11 (State.chQuery b))

/-! ### Pairs (R270) -/

/-- What a command with pairs needs to know of its block: the status with which a pair is refused, given the offsets of the pairs behind it; whether a
write only acts at the boundary after T_p; and the write. -/
structure PairRules where
  bad    : Nat → W → List Nat → State → Option Nat
  acting : Nat → Bool
  write  : Nat → W → State → State

/-- The pairs of a register image whose COUNT is at byte o. -/
def pairsAt (o : Nat) (body : List Byte) : List (Nat × W) :=
  (List.range (u32 o body)).map (fun i => (u32 (o + 4 + 8 * i) body, BitVec.ofNat 32 (u32 (o + 8 + 8 * i) body)))

/-- The first pair that is refused, with its status and index. Each is judged where the values of the pairs before it stand in their registers, and
nothing that acts at the boundary after T_p has acted. [DEDUCED, log entry 68] -/
def judgePairs (r : PairRules) : Nat → List (Nat × W) → State → Option (Nat × Nat)
  | _, [], _ => none
  | i, (o, v) :: rest, s =>
    match r.bad o v (rest.map Prod.fst) s with
    | some st => some (st, i)
    | none => judgePairs r (i + 1) rest (if r.acting o then s else r.write o v s)

/-- The pairs written at T_p, and then what acts at the boundary after it. [DEDUCED, log entry 68] -/
def writePairs (r : PairRules) (ps : List (Nat × W)) (s : State) : State :=
  let now := ps.filter (fun p => !r.acting p.1)
  let after := ps.filter (fun p => r.acting p.1)
  forAll after (fun p => r.write p.1 p.2) (forAll now (fun p => r.write p.1 p.2) s)

/-- A command with pairs: COUNT, then every pair, then the writes, with T_p in the reply. [DEDUCED, log entry 40] [DEDUCED, log entry 68] -/
def State.pairsCmd (r : PairRules) (b : CmdMbx) (o : Nat) (body : List Byte) (s : State) : State :=
  let n := u32 o body
  if n = 0 ∨ 64 < n then s.answer b stBadField o []
  else match judgePairs r 0 (pairsAt o body) s with
    | some (st, i) => s.answer b st (if st = stBadField then i else 0) []
    | none => (writePairs r (pairsAt o body) s).answer b stOk 0 (leBytes 8 (s.tick * 32))

/-- The offsets CH_CONFIG writes: those below 0x400 and the Pip's up to 0x52C that a write reaches. -/
def chCfgOffsets : List Nat :=
  [0x000, 0x004, 0x008, 0x00C, 0x010, 0x014, 0x020, 0x024, 0x028, 0x100, 0x104, 0x180, 0x184, 0x18C, 0x190, 0x194, 0x198, 0x19C, 0x1C0, 0x1C4,
    0x200, 0x204, 0x208, 0x500, 0x504, 0x508, 0x50C, 0x514, 0x518, 0x51C, 0x520, 0x524, 0x528, 0x52C]

/-- The offset of a writable register of a compare unit. -/
def inUnits (o : Nat) : Bool := decide (0x40 ≤ o ∧ o < 0xC0) && [0x00, 0x04, 0x08, 0x0C, 0x10].contains (o % 0x20)

/-- The low word of a wide register of a channel that is written. -/
def chLow (o : Nat) : Bool := o == 0x010 || o == 0x020 || o == 0x190 || (inUnits o && o % 0x20 == 0)

/-- The register would refuse the value: it sets CFG_ERR of the channel, or a flag of CHn_PIP_ERR. -/
def chFlags (n : Ch) (o : Nat) (v : W) (s : State) : Bool :=
  let s := (s.pipNow n).modCh n (fun c => { c with stat := {}, pip := { c.pip with err := {} } })
  let c := (chanWrite .watch1 n o v s).ch[n]
  c.stat.get 0 || c.pip.err.bits != 0

/-- Why a pair of CH_CONFIG is refused. [DEDUCED, log entry 68] -/
def chPairBad (n : Ch) (o : Nat) (v : W) (rest : List Nat) (s : State) : Option Nat :=
  if !(chCfgOffsets.contains o || inUnits o) || (chLow o && !rest.contains (o + 4)) then some stBadField
  else if inUnits o then
    if sched n s then some stChBusy
    else if (o % 0x20 = 0x08 ∧ actReserved (actCode v)) ∨
        (o % 0x20 = 0x04 ∧ actReserved (actCode (commitSet .watch1 n ⟨(o - 0x40) / 0x20 % 4, by omega⟩ v s).act)) then some stBadField
    else none
  else if o = 0x004 then if (bit v 2 || bit v 3) && s.ch[n].ctr.mode == 5 then some stBadField else none
  else if o = 0x00C then if s.ch[n].ctr.run then some stBadField else none
  else if chFlags n o v s then some stBadField
  else none

/-- The registers of a channel whose write acts at the boundary after it. [DEDUCED, log entry 68] -/
def chActs (o : Nat) : Bool := o == 0x000 || o == 0x004 || o == 0x198 || o == 0x500 || o == 0x504

/-- CH_CONFIG. -/
def State.chConfig (b : CmdMbx) (body : List Byte) (s : State) : State :=
  let c := u32 0 body
  if h : c < 128 then
    let n : Ch := ⟨c, h⟩
    s.pairsCmd { bad := chPairBad n, acting := chActs, write := chanWrite .watch1 n } b 4 body
  else s.answer b stBadCh 0 []

def execChConfig (b : CmdMbx) (s : State) : Out := .next (s.command b 0x10 (State.chConfig b))

/-- A write of axis register o would be refused, in whole or in part. -/
def axFlags (k : Ax) (o : Nat) (v : W) (s : State) : Bool :=
  ((s.modAxis k (fun a => { a with err := {} })).writeAxis k o v).axis[k].err.get 12

/-- The offsets AXIS_CONFIG writes. -/
def axCfgOffsets : List Nat :=
  [0x000, 0x004, 0x008, 0x00C, 0x010, 0x014, 0x018, 0x024, 0x054, 0x060, 0x070, 0x080, 0x084, 0x088, 0x08C, 0x090, 0x098, 0x0A0, 0x0A4, 0x0A8, 0x0AC]

/-- AXIS_CONFIG. -/
def axRules (k : Ax) : PairRules where
  bad o v _ s := if !axCfgOffsets.contains o || axFlags k o v s then some stBadField else none
  acting o := o == 0x000 || o == 0x004
  write o v s := s.writeAxis k o v

/-- EMUL_CONFIG: EN := 1 with channels that are not free is CH_BUSY (R144). -/
def emulRules (k : Ax) : PairRules where
  bad o v _ s :=
    if !([0x0C0, 0x0C4, 0x0C8].contains o) then some stBadField
    else if axFlags k o v s then
      if o = 0x0C0 ∧ bit v 0 ∧ !bit s.axis[k].emul.cfg 0 ∧ emulPinsOk (v &&& 0x3FFFF) then some stChBusy else some stBadField
    else none
  acting o := o == 0x0C0
  write o v s := s.writeAxis k o v

/-- A command with pairs on an axis. -/
def State.axPairs (rules : Ax → PairRules) (b : CmdMbx) (body : List Byte) (s : State) : State :=
  let a := u32 0 body
  if h : a < 8 then s.pairsCmd (rules ⟨a, h⟩) b 4 body else s.answer b stBadField 0 []

def execAxisConfig (b : CmdMbx) (s : State) : Out := .next (s.command b 0x30 (State.axPairs axRules b))
def execEmulConfig (b : CmdMbx) (s : State) : Out := .next (s.command b 0x31 (State.axPairs emulRules b))

/-- A converter offset that a write reaches. -/
def adcWritable (o : Nat) : Bool :=
  [0x000, 0x004, 0x008, 0x00C, 0x014, 0x050].contains o
    || (decide (0x100 ≤ o ∧ o < 0x200) && [0x00, 0x04, 0x14, 0x18, 0x1C, 0x20].contains (o % 0x40))

/-- A write of converter register o would be refused, in whole or in part. -/
def adcFlags (o : Nat) (v : W) (s : State) : Bool :=
  (adcWrite o v { s with adc := { s.adc with flags := {} } }).adc.flags.get 13

/-- ADC_CONFIG. -/
def adcRules : PairRules where
  bad o v _ s := if !adcWritable o || adcFlags o v s then some stBadField else none
  acting o := o == 0x000 || (decide (0x100 ≤ o) && o % 0x40 == 0)
  write := adcWrite

def execAdcConfig (b : CmdMbx) (s : State) : Out := .next (s.command b 0x38 (State.pairsCmd adcRules b 0))

/-! ### Pip programs (R274) -/

/-- Words written into a bank, and its VALID, in one step. -/
def Pip.load (t : Nat) (b : Bool) (start : Nat) (ws : List W) (p : Pip) : Pip :=
  let q := ws.zipIdx.foldl (fun (p : Pip) w => p.writePrg t b ⟨(start + w.2) % 32, by omega⟩ w.1) p
  if b then { q with valid1 := true } else { q with valid0 := true }

/-- PIP_LOAD. [DEDUCED, log entry 40] [DEDUCED, log entry 41] -/
def State.pipLoad (b : CmdMbx) (body : List Byte) (s : State) : State :=
  let c := u32 0 body
  let bank := u32 4 body
  let start := u32 8 body
  let count := u32 12 body
  if h : c < 128 then
    let n : Ch := ⟨c, h⟩
    if 1 < bank then s.answer b stBadField 4 []
    else if 32 < start then s.answer b stBadField 8 []
    else if 32 < start + count then s.answer b stBadField 12 []
    else
      let s := s.pipNow n
      let p := s.ch[n].pip
      if bit p.ctrl 0 && p.bank == (bank == 1) then s.answer b stBankActive 0 []
      else
        let ws := (List.range count).map (fun i => BitVec.ofNat 32 (u32 (16 + 4 * i) body))
        (s.modPip n (Pip.load s.tick (bank == 1) start ws)).answer b stOk 0 []
  else s.answer b stBadCh 0 []

def execPipLoad (b : CmdMbx) (s : State) : Out := .next (s.command b 0x18 (State.pipLoad b))

/-- PIP_SWAP: every channel of CH_MASK whose inactive bank is valid is asked at one boundary; the others are left alone and named. [DEDUCED, log entry 41] [DEDUCED, log entry 69] -/
def State.pipSwap (b : CmdMbx) (body : List Byte) (s : State) : State :=
  let force := u32 16 body == 1
  let named := allChs.filter (fun n => (u32 (4 * (n.val / 32)) body).testBit (n.val % 32))
  let s := forAll named (fun n s => s.pipNow n) s
  let good := named.filter (fun n => s.ch[n].pip.otherValid)
  let bad := named.filter (fun n => !s.ch[n].pip.otherValid)
  let word (i : Nat) : Nat := (bad.filter (fun n => n.val / 32 == i)).foldl (fun v n => v + 2 ^ (n.val % 32)) 0
  let s := forAll good (fun n => State.modPip n (Pip.reqSwap s.tick force)) s
  s.answer b (if bad.isEmpty then stOk else stBankInvalid) 0
    (leBytes 8 (s.tw * 32) ++ (List.range 4).flatMap (fun i => leBytes 4 (word i)))

def execPipSwap (b : CmdMbx) (s : State) : Out := .next (s.command b 0x19 (State.pipSwap b))

end Sys2Proof.Machine
end

