-- ==== Sys2Proof/Machine/Qspi.lean ====
section
/-!
DEFINITION. The reading and writing QSPI transactions (R225, R253 to R255, R357).
-/
namespace Sys2Proof.Machine

/-- A 24-bit address reaches the store window (R254). -/
def inWindow (a : Nat) : Bool := decide (0x800000 ≤ a % 2 ^ 24)

/-- The store offsets of n bytes from a window address: they stay in the segment of STO_QSPI_PAGE, going on at its offset 0 past its end (R225). -/
def pageOffsets (a n : Nat) (s : State) : List Nat :=
  (List.range n).map (fun i => s.store.page.toNat * 0x800000 + (a + i) % 0x800000)

/-- One register read of a burst, which appends its word, least significant byte first (R254). [DEDUCED, log entry 70] -/
def State.burstRead (a : Nat) (r : State × List Byte) : State × List Byte :=
  let s := r.1.busRead .qspi a
  (s, r.2 ++ leBytes 4 s.master[Master.qspi.idx].rdata.toNat)

/-- The words of a register burst: addresses step by 4 from the aligned start (R254). -/
def burstAddrs (a n : Nat) : List Nat := (List.range ((n + 3) / 4)).map (fun i => (a % 2 ^ 24 / 4 + i) * 4)

/-- A byte of a window read whose word came late reads 0xFF (R255). [DEDUCED, log entry 70] -/
def lateByte (late : List Nat) (i : Nat) (v : Byte) : Byte := if late.contains (i / 4) then 0xFF else v

/-- A read or a quad read. A sleeping device answers 0xFF and wakes (R357). A window word that is late, or whose segment is retained, which then wakes, reads
0xFF with RD_LATE (R255). [DEDUCED, log entry 70] -/
def State.qspiRead (a n : Nat) (late : List Nat) (s : State) : State :=
  if s.pwr.mode != 0 then (s.qspiOut (List.replicate n 0xFF)).wakeIf (bit s.pwr.cfg 1) wkQspi
  else if inWindow a then
    let as := pageOffsets a n s
    let closed := closedSegs as s
    if closed.isEmpty then
      let s := s.winRead 23 as
      let s := s.qspiOut (s.store.arb[(23 : Fin 25)].rdata.mapIdx (lateByte late))
      s.when (late.any (fun i => decide (i * 4 < n))) (fun s => { s with pcie := { s.pcie with qs := s.pcie.qs.raise s.tick 1 } })
    else
      let s := forAll closed State.autoWake s
      { s with pcie := { s.pcie with qs := s.pcie.qs.raise s.tick 1, qsData := List.replicate n 0xFF } }
  else
    let (s, bs) := (burstAddrs a n).foldl (fun r x => State.burstRead x r) (s, [])
    s.qspiOut (bs.take n)

def execQspiRead (a n : Nat) (late : List Nat) (s : State) : Out := .next (s.qspiRead a n late)
def execQspiQread (a n : Nat) (late : List Nat) (s : State) : Out := .next (s.qspiRead a n late)

/-- The word of four bytes, the first least significant. -/
def wordLE (bs : List Byte) : W := BitVec.ofNat 32 (u32 0 bs)

/-- The register writes of a burst: whole words only, trailing bytes set ACC_ERR (R254). -/
def State.burstWrite (a : Nat) (bs : List Byte) (s : State) : State :=
  let s := forAll (List.range (bs.length / 4))
    (fun i => State.busWrite .qspi ((a % 2 ^ 24 / 4 + i) * 4) (wordLE (bs.drop (4 * i))) 0xF) s
  s.when (bs.length % 4 != 0) (State.hsum 0)

/-- A write or a quad write, made now. -/
def State.qspiWriteNow (a : Nat) (bs : List Byte) (s : State) : State :=
  if inWindow a then s.winWrite 23 ((pageOffsets a bs.length s).zip bs) else s.burstWrite a bs

/-- The segments a write waits for. [DEDUCED, log entry 70] -/
def pageClosed (a : Nat) (bs : List Byte) (s : State) : List Seg :=
  if inWindow a then closedSegs (pageOffsets a bs.length s) s else []

/-- A write or a quad write. A sleeping device ignores it and wakes (R357); a write to a retained segment wakes it and waits (R222), as does what
comes behind (R224). [DEDUCED, log entry 70] -/
def State.qspiWrite (row : Instr) (a : Nat) (bs : List Byte) (s : State) : State :=
  if s.pwr.mode != 0 then s.wakeIf (bit s.pwr.cfg 1) wkQspi
  else
    let closed := pageClosed a bs s
    if closed.isEmpty && s.store.heldQ.isEmpty then s.qspiWriteNow a bs
    else forAll closed State.autoWake { s with store := { s.store with heldQ := s.store.heldQ ++ [row] } }

def execQspiWrite (a : Nat) (bs : List Byte) (s : State) : Out := .next (s.qspiWrite (.qspiWrite a bs) a bs)
def execQspiQwrite (a : Nat) (bs : List Byte) (s : State) : Out := .next (s.qspiWrite (.qspiQwrite a bs) a bs)

end Sys2Proof.Machine
end

