-- ==== Sys2Proof/Machine/Held.lean ====
section
/-!
DEFINITION. Accesses that waited, for a segment of the store to wake (R222, R224) or for RUN (R357), and the rows that let them go on.
-/
namespace Sys2Proof.Machine

/-- What an access of a host does once nothing holds it back. -/
def rowNow (i : Instr) : State → State :=
  match i with
  | .registerWrite m a w be => State.busWrite m a w be
  | .holdingRegWrite m a w => State.busWrite m a w 0xF
  | .wideHighWrite m a w => State.busWrite m a w 0xF
  | .guarStatClear _ w => State.guarClear w
  | .rcRead m a => State.busRead m a
  | .lowWordRead m a => State.busRead m a
  | .highWordRead m a => State.busRead m a
  | .wideRead8Byte a => State.wideRead a
  | .topCommit m n w => State.commitTop m n w
  | .cmpCommit m n u w => fun s => s.hostCommit u (commitSet m n u w s) n
  | .advCommit m n w => fun s => s.advCommit n (join w (s.holding m (chBase n + 0x190)))
  | .capPop m n => State.capPop m n
  | .rxfRead m n => State.rxfPop m n
  | .speedRead m k => State.speedRead m k
  | .eicPsetWrite m g w => State.writePset m g w
  | .eicPendClear m g w => State.clearPend m g w
  | .claim reads => State.claim reads
  | .eoi m t => State.eoi m t
  | .srcCfgWrite m i w => State.writeSrc m i w
  | .groupLock m g => State.groupLock m g
  | .abortGo m w => State.writeAbortCtrl m w
  | .abortRelease m w => State.writeAbortCtrl m w
  | .adcDataRead m i => State.adcRead m i
  | .mbLockRead b readers => State.lockRead b readers
  | .mbLockRelease m b => State.lockWrite m b
  | .mbPostWrite m b hi w => State.postWrite m b hi w
  | .mbDoorbell m b w => State.doorbell m b w
  | .mbNoticeAck _ b w => State.noticeAck b w
  | .bootCmdLoad m image selfTest => State.bootLoad m image selfTest
  | .bootCmdFlash _ image => State.bootFlash image
  | .configRequest r => State.config r
  | .bar2Access a => State.winAccess a
  | .qspiWrite a bs => State.qspiWriteNow a bs
  | .qspiQwrite a bs => State.qspiWriteNow a bs
  | _ => id

/-- The segments an access waits for. -/
def rowClosed (i : Instr) (s : State) : List Seg :=
  match i with
  | .bar2Access a => closedSegs (winOffsets a) s
  | .qspiWrite a bs => pageClosed a bs s
  | .qspiQwrite a bs => pageClosed a bs s
  | _ => []

/-- The accesses of the PCI Express host that waited, in their order, up to one that still waits. -/
def serveHeld : List Instr → State → State
  | [], s => s
  | x :: r, s =>
    let closed := rowClosed x s
    if closed.isEmpty then serveHeld r (rowNow x { s with store := { s.store with held := r } })
    else forAll closed State.autoWake s

/-- The same of the QSPI host. -/
def serveHeldQ : List Instr → State → State
  | [], s => s
  | x :: r, s =>
    let closed := rowClosed x s
    if closed.isEmpty then serveHeldQ r (rowNow x { s with store := { s.store with heldQ := r } })
    else forAll closed State.autoWake s

/-- Both hosts' accesses. -/
def State.serve (s : State) : State :=
  let s := serveHeld s.store.held s
  serveHeldQ s.store.heldQ s

/-- SEGMENT_WAKE_DONE: segment g is accessible again, and what waited for it goes on (R220, R222). -/
def execSegmentWakeDone (g : Seg) (s : State) : Out :=
  .next (if s.store.transit.getLsbD g.val && s.store.retained.getLsbD g.val && s.store.waking.getLsbD g.val then
    (s.segmentAwake g).serve else s)

/-- An access that waited for RUN is made, or waits for its segment (R357). -/
def State.rowAtRun (i : Instr) (s : State) : State :=
  match i with
  | .bar2Access a => s.hostAccess a
  | .configRequest r => s.config r
  | i => s.behindBar2 i (rowNow i)

/-- RUN_REACHED: RUN, and the accesses that waited for it (R355, R357). [DEDUCED, log entry 57] -/
def State.runReached (s : State) : State :=
  let s := s.toRun.serve
  let l := s.pwr.held
  forAll l State.rowAtRun { s with pwr := { s.pwr with held := [] } }

def execRunReached (s : State) : Out := .next (if runDue s then s.runReached else s)

end Sys2Proof.Machine
end

