-- ==== Sys2Proof/Machine/Dispatch.lean ====
section
/-!
DEFINITION. The meaning of every command: one arm per row of spec/opcode_table.json, each a direct call of that row's own meaning.
-/
namespace Sys2Proof.Machine

/-- The effect of a command on everything but the queue. -/
def exec (i : Instr) (s : State) : Host.Outcome State Fault Refusal :=
  match i with
  | .registerWrite m addr w be => Sys2Proof.Machine.execRegisterWrite m addr w be s
  | .rcRead m addr => Sys2Proof.Machine.execRcRead m addr s
  | .lowWordRead m addr => Sys2Proof.Machine.execLowWordRead m addr s
  | .highWordRead m addr => Sys2Proof.Machine.execHighWordRead m addr s
  | .wideRead8Byte addr => Sys2Proof.Machine.execWideRead8Byte addr s
  | .holdingRegWrite m addr w => Sys2Proof.Machine.execHoldingRegWrite m addr w s
  | .wideHighWrite m addr w => Sys2Proof.Machine.execWideHighWrite m addr w s
  | .aonPor cold => Sys2Proof.Machine.execAonPor cold s
  | .guarStatClear m w => Sys2Proof.Machine.execGuarStatClear m w s
  | .cntStart n => Sys2Proof.Machine.execCntStart n s
  | .cntStop n => Sys2Proof.Machine.execCntStop n s
  | .cntClear n => Sys2Proof.Machine.execCntClear n s
  | .cntLoad n => Sys2Proof.Machine.execCntLoad n s
  | .cmpDisarm n mask => Sys2Proof.Machine.execCmpDisarm n mask s
  | .cmpRearm n u => Sys2Proof.Machine.execCmpRearm n u s
  | .rfxArm n => Sys2Proof.Machine.execRfxArm n s
  | .rfxDisarm n => Sys2Proof.Machine.execRfxDisarm n s
  | .counterStep n => Sys2Proof.Machine.execCounterStep n s
  | .topCommit m n w => Sys2Proof.Machine.execTopCommit m n w s
  | .cmpCommit m n u w => Sys2Proof.Machine.execCmpCommit m n u w s
  | .cmpMatch n => Sys2Proof.Machine.execCmpMatch n s
  | .pulseEnd n => Sys2Proof.Machine.execPulseEnd n s
  | .burstEdge n => Sys2Proof.Machine.execBurstEdge n s
  | .outForceSet n => Sys2Proof.Machine.execOutForceSet n s
  | .outForceClr n => Sys2Proof.Machine.execOutForceClr n s
  | .outForceTog n => Sys2Proof.Machine.execOutForceTog n s
  | .advCommit m n w => Sys2Proof.Machine.execAdvCommit m n w s
  | .advEpochReached n => Sys2Proof.Machine.execAdvEpochReached n s
  | .driveChangeApply n => Sys2Proof.Machine.execDriveChangeApply n s
  | .freezeRequest m n => Sys2Proof.Machine.execFreezeRequest m n s
  | .freezeEntry n => Sys2Proof.Machine.execFreezeEntry n s
  | .thawRequest m n => Sys2Proof.Machine.execThawRequest m n s
  | .thaw n => Sys2Proof.Machine.execThaw n s
  | .inputCrossing p level frac => Sys2Proof.Machine.execInputCrossing p level frac s
  | .filterAccept p => Sys2Proof.Machine.execFilterAccept p s
  | .capPop m n => Sys2Proof.Machine.execCapPop m n s
  | .readbackMismatchTick n => Sys2Proof.Machine.execReadbackMismatchTick n s
  | .readbackInterval n => Sys2Proof.Machine.execReadbackInterval n s
  | .reflexInputChange n => Sys2Proof.Machine.execReflexInputChange n s
  | .pipStart n entry => Sys2Proof.Machine.execPipStart n entry s
  | .pipStop n => Sys2Proof.Machine.execPipStop n s
  | .pipResume n => Sys2Proof.Machine.execPipResume n s
  | .pipCmdSwap n => Sys2Proof.Machine.execPipCmdSwap n s
  | .pipCmdForce n => Sys2Proof.Machine.execPipCmdForce n s
  | .pipRelease n => Sys2Proof.Machine.execPipRelease n s
  | .pipKick n => Sys2Proof.Machine.execPipKick n s
  | .pipReset n => Sys2Proof.Machine.execPipReset n s
  | .pipValidate n mask => Sys2Proof.Machine.execPipValidate n mask s
  | .txfFlush n => Sys2Proof.Machine.execTxfFlush n s
  | .rxfFlush n => Sys2Proof.Machine.execRxfFlush n s
  | .pipWaitcyc n => Sys2Proof.Machine.execPipWaitcyc n s
  | .pipWaitpin n => Sys2Proof.Machine.execPipWaitpin n s
  | .pipWaitflag n => Sys2Proof.Machine.execPipWaitflag n s
  | .pipWaitirq n => Sys2Proof.Machine.execPipWaitirq n s
  | .pipOut n => Sys2Proof.Machine.execPipOut n s
  | .pipIn n => Sys2Proof.Machine.execPipIn n s
  | .pipSet n => Sys2Proof.Machine.execPipSet n s
  | .pipJmp n => Sys2Proof.Machine.execPipJmp n s
  | .pipLoop n => Sys2Proof.Machine.execPipLoop n s
  | .pipCmp n => Sys2Proof.Machine.execPipCmp n s
  | .pipPush n => Sys2Proof.Machine.execPipPush n s
  | .pipPull n => Sys2Proof.Machine.execPipPull n s
  | .pipIrq n => Sys2Proof.Machine.execPipIrq n s
  | .pipMov n => Sys2Proof.Machine.execPipMov n s
  | .pipSwapInstr n => Sys2Proof.Machine.execPipSwapInstr n s
  | .pipStopInstr n => Sys2Proof.Machine.execPipStopInstr n s
  | .pipReservedOp n => Sys2Proof.Machine.execPipReservedOp n s
  | .pipWaitComplete n => Sys2Proof.Machine.execPipWaitComplete n s
  | .pipWaitTimeout n => Sys2Proof.Machine.execPipWaitTimeout n s
  | .pipPrgWrite n bank idx w => Sys2Proof.Machine.execPipPrgWrite n bank idx w s
  | .pipCtrlWrite n w => Sys2Proof.Machine.execPipCtrlWrite n w s
  | .pipPinsWrite n w => Sys2Proof.Machine.execPipPinsWrite n w s
  | .pipSrWrite n w => Sys2Proof.Machine.execPipSrWrite n w s
  | .pipLcWrite n w => Sys2Proof.Machine.execPipLcWrite n w s
  | .txfWrite n w => Sys2Proof.Machine.execTxfWrite n w s
  | .rxfRead m n => Sys2Proof.Machine.execRxfRead m n s
  | .axisCfgWrite k off w => Sys2Proof.Machine.execAxisCfgWrite k off w s
  | .axisFilterAccept k p level lt => Sys2Proof.Machine.execAxisFilterAccept k p level lt s
  | .axisEdge k => Sys2Proof.Machine.execAxisEdge k s
  | .countWindowEnd k => Sys2Proof.Machine.execCountWindowEnd k s
  | .axisStopDetect k => Sys2Proof.Machine.execAxisStopDetect k s
  | .lagDetect k => Sys2Proof.Machine.execLagDetect k s
  | .zArm k => Sys2Proof.Machine.execZArm k s
  | .posLoad k => Sys2Proof.Machine.execPosLoad k s
  | .serTrig k => Sys2Proof.Machine.execSerTrig k s
  | .emulRestart k => Sys2Proof.Machine.execEmulRestart k s
  | .serFrameStart k => Sys2Proof.Machine.execSerFrameStart k s
  | .serSample k f => Sys2Proof.Machine.execSerSample k f s
  | .serTmo k => Sys2Proof.Machine.execSerTmo k s
  | .speedRead m k => Sys2Proof.Machine.execSpeedRead m k s
  | .emulEnable k w => Sys2Proof.Machine.execEmulEnable k w s
  | .emulOutputEdge k => Sys2Proof.Machine.execEmulOutputEdge k s
  | .posCommit k n => Sys2Proof.Machine.execPosCommit k n s
  | .calWrite b => Sys2Proof.Machine.execCalWrite b s
  | .calWriteDma b => Sys2Proof.Machine.execCalWriteDma b s
  | .calRecordAccept b => Sys2Proof.Machine.execCalRecordAccept b s
  | .bucketBoundary => Sys2Proof.Machine.execBucketBoundary s
  | .horizonTakeEffect => Sys2Proof.Machine.execHorizonTakeEffect s
  | .armFast p f => Sys2Proof.Machine.execArmFast p f s
  | .armStage p f => Sys2Proof.Machine.execArmStage p f s
  | .retire p f => Sys2Proof.Machine.execRetire p f s
  | .substStep p => Sys2Proof.Machine.execSubstStep p s
  | .capSpill p => Sys2Proof.Machine.execCapSpill p s
  | .pipXfer n drain => Sys2Proof.Machine.execPipXfer n drain s
  | .pline p => Sys2Proof.Machine.execPline p s
  | .cfg p f => Sys2Proof.Machine.execCfg p f s
  | .csRepair p a => Sys2Proof.Machine.execCsRepair p a s
  | .csBackgroundPass p => Sys2Proof.Machine.execCsBackgroundPass p s
  | .missedAtDue p => Sys2Proof.Machine.execMissedAtDue p s
  | .backlogDrain p => Sys2Proof.Machine.execBacklogDrain p s
  | .resRdWrite p w => Sys2Proof.Machine.execResRdWrite p w s
  | .calCancel b => Sys2Proof.Machine.execCalCancel b s
  | .calConfig b => Sys2Proof.Machine.execCalConfig b s
  | .horizonSet b => Sys2Proof.Machine.execHorizonSet b s
  | .resultRingSet b => Sys2Proof.Machine.execResultRingSet b s
  | .feedWrWrite n w => Sys2Proof.Machine.execFeedWrWrite n w s
  | .drnRdWrite n w => Sys2Proof.Machine.execDrnRdWrite n w s
  | .storeAccess bank reqs => Sys2Proof.Machine.execStoreAccess bank reqs s
  | .ceWriteback a => Sys2Proof.Machine.execCeWriteback a s
  | .scrubPassStart found => Sys2Proof.Machine.execScrubPassStart found s
  | .scrubPassDone => Sys2Proof.Machine.execScrubPassDone s
  | .storeRetain b => Sys2Proof.Machine.execStoreRetain b s
  | .retentionDone g => Sys2Proof.Machine.execRetentionDone g s
  | .segmentWakeDone g => Sys2Proof.Machine.execSegmentWakeDone g s
  | .segmentAutoWake m g => Sys2Proof.Machine.execSegmentAutoWake m g s
  | .capRingRdWrite p w => Sys2Proof.Machine.execCapRingRdWrite p w s
  | .capRingConfigWrite p size w => Sys2Proof.Machine.execCapRingConfigWrite p size w s
  | .bar2Access a => Sys2Proof.Machine.execBar2Access a s
  | .eicLineEdge sl => Sys2Proof.Machine.execEicLineEdge sl s
  | .eicPsetWrite m g w => Sys2Proof.Machine.execEicPsetWrite m g w s
  | .eicPendClear m g w => Sys2Proof.Machine.execEicPendClear m g w s
  | .claim reads => Sys2Proof.Machine.execClaim reads s
  | .eoi m t => Sys2Proof.Machine.execEoi m t s
  | .holdoffExpire g => Sys2Proof.Machine.execHoldoffExpire g s
  | .srcCfgWrite m sl w => Sys2Proof.Machine.execSrcCfgWrite m sl w s
  | .groupLock m g => Sys2Proof.Machine.execGroupLock m g s
  | .msixUnmask v => Sys2Proof.Machine.execMsixUnmask v s
  | .linkUp width2 speed => Sys2Proof.Machine.execLinkUp width2 speed s
  | .configRequest r => Sys2Proof.Machine.execConfigRequest r s
  | .perstN low => Sys2Proof.Machine.execPerstN low s
  | .hotReset => Sys2Proof.Machine.execHotReset s
  | .functionLevelReset => Sys2Proof.Machine.execFunctionLevelReset s
  | .dmaCompletion c data => Sys2Proof.Machine.execDmaCompletion c data s
  | .dmaCompletionTimeout c => Sys2Proof.Machine.execDmaCompletionTimeout c s
  | .qspiRead addr len late => Sys2Proof.Machine.execQspiRead addr len late s
  | .qspiWrite addr data => Sys2Proof.Machine.execQspiWrite addr data s
  | .qspiQread addr len late => Sys2Proof.Machine.execQspiQread addr len late s
  | .qspiQwrite addr data => Sys2Proof.Machine.execQspiQwrite addr data s
  | .qspiStatus => Sys2Proof.Machine.execQspiStatus s
  | .qspiBadOp op => Sys2Proof.Machine.execQspiBadOp op s
  | .mbLockRead b readers => Sys2Proof.Machine.execMbLockRead b readers s
  | .mbLockRelease m b => Sys2Proof.Machine.execMbLockRelease m b s
  | .mbPostWrite m b hi w => Sys2Proof.Machine.execMbPostWrite m b hi w s
  | .mbDoorbell m b w => Sys2Proof.Machine.execMbDoorbell m b w s
  | .mbNoticeAck m b w => Sys2Proof.Machine.execMbNoticeAck m b w s
  | .commandStart b => Sys2Proof.Machine.execCommandStart b s
  | .commandComplete b => Sys2Proof.Machine.execCommandComplete b s
  | .noticePost b => Sys2Proof.Machine.execNoticePost b s
  | .nop b => Sys2Proof.Machine.execNop b s
  | .fwInfo b => Sys2Proof.Machine.execFwInfo b s
  | .healthQuery b => Sys2Proof.Machine.execHealthQuery b s
  | .watchRestart b => Sys2Proof.Machine.execWatchRestart b s
  | .chConfig b => Sys2Proof.Machine.execChConfig b s
  | .chQuery b => Sys2Proof.Machine.execChQuery b s
  | .pipLoad b => Sys2Proof.Machine.execPipLoad b s
  | .pipSwap b => Sys2Proof.Machine.execPipSwap b s
  | .axisConfig b => Sys2Proof.Machine.execAxisConfig b s
  | .emulConfig b => Sys2Proof.Machine.execEmulConfig b s
  | .adcConfig b => Sys2Proof.Machine.execAdcConfig b s
  | .adcStream b => Sys2Proof.Machine.execAdcStream b s
  | .substPolicy b => Sys2Proof.Machine.execSubstPolicy b s
  | .adaptSet b => Sys2Proof.Machine.execAdaptSet b s
  | .adaptLock b => Sys2Proof.Machine.execAdaptLock b s
  | .measureCable b => Sys2Proof.Machine.execMeasureCable b s
  | .measureLoad b => Sys2Proof.Machine.execMeasureLoad b s
  | .partnerRead b bytes => Sys2Proof.Machine.execPartnerRead b bytes s
  | .sleep b => Sys2Proof.Machine.execSleep b s
  | .wake b => Sys2Proof.Machine.execWake b s
  | .abortGo m w => Sys2Proof.Machine.execAbortGo m w s
  | .abortRelease m w => Sys2Proof.Machine.execAbortRelease m w s
  | .abortDone => Sys2Proof.Machine.execAbortDone s
  | .safeNFall width => Sys2Proof.Machine.execSafeNFall width s
  | .safeNRise => Sys2Proof.Machine.execSafeNRise s
  | .watchViolation core store addr => Sys2Proof.Machine.execWatchViolation core store addr s
  | .heartbeatWrite core => Sys2Proof.Machine.execHeartbeatWrite core s
  | .heartbeatTimeout core => Sys2Proof.Machine.execHeartbeatTimeout core s
  | .watchCoreFault core => Sys2Proof.Machine.execWatchCoreFault core s
  | .codeDigestCheck ok flashOk => Sys2Proof.Machine.execCodeDigestCheck ok flashOk s
  | .restartDelayEnd => Sys2Proof.Machine.execRestartDelayEnd s
  | .restartComplete => Sys2Proof.Machine.execRestartComplete s
  | .keeperWatchdog => Sys2Proof.Machine.execKeeperWatchdog s
  | .keeperRebootDone => Sys2Proof.Machine.execKeeperRebootDone s
  | .buoySelfTestDone p pass => Sys2Proof.Machine.execBuoySelfTestDone p pass s
  | .shadowMismatch p output forced ts => Sys2Proof.Machine.execShadowMismatch p output forced ts s
  | .shadowPeriodEnd p => Sys2Proof.Machine.execShadowPeriodEnd p s
  | .quarantineTestDone p pass => Sys2Proof.Machine.execQuarantineTestDone p pass s
  | .takeoverSpacingEnd p => Sys2Proof.Machine.execTakeoverSpacingEnd p s
  | .spareMove n => Sys2Proof.Machine.execSpareMove n s
  | .spareMoveBack n => Sys2Proof.Machine.execSpareMoveBack n s
  | .ltXchkCorrect a b => Sys2Proof.Machine.execLtXchkCorrect a b s
  | .xinFail => Sys2Proof.Machine.execXinFail s
  | .xinRestore => Sys2Proof.Machine.execXinRestore s
  | .adcConversionEnd sl raw spareRaw => Sys2Proof.Machine.execAdcConversionEnd sl raw spareRaw s
  | .adcSelWrite sl w => Sys2Proof.Machine.execAdcSelWrite sl w s
  | .adcDataRead m sl => Sys2Proof.Machine.execAdcDataRead m sl s
  | .refReady => Sys2Proof.Machine.execRefReady s
  | .calRotationStart => Sys2Proof.Machine.execCalRotationStart s
  | .calDone z f => Sys2Proof.Machine.execCalDone z f s
  | .adcStrRdWrite w => Sys2Proof.Machine.execAdcStrRdWrite w s
  | .supplyFault r => Sys2Proof.Machine.execSupplyFault r s
  | .supplyFaultClear r => Sys2Proof.Machine.execSupplyFaultClear r s
  | .vioTrack p mv => Sys2Proof.Machine.execVioTrack p mv s
  | .tempMeasure t => Sys2Proof.Machine.execTempMeasure t s
  | .measureStart => Sys2Proof.Machine.execMeasureStart s
  | .measureDone r => Sys2Proof.Machine.execMeasureDone r s
  | .measureGapTimeout => Sys2Proof.Machine.execMeasureGapTimeout s
  | .adaptDeclare pol idx meas => Sys2Proof.Machine.execAdaptDeclare pol idx meas s
  | .adaptDeferRetry pol idx => Sys2Proof.Machine.execAdaptDeferRetry pol idx s
  | .adaptEpoch pol idx => Sys2Proof.Machine.execAdaptEpoch pol idx s
  | .coreReset avdd => Sys2Proof.Machine.execCoreReset avdd s
  | .vioBrownout p => Sys2Proof.Machine.execVioBrownout p s
  | .vioReturn p => Sys2Proof.Machine.execVioReturn p s
  | .peRailDrop vddh => Sys2Proof.Machine.execPeRailDrop vddh s
  | .resetN acts => Sys2Proof.Machine.execResetN acts s
  | .coreResetRelease straps primary alternate selfTest => Sys2Proof.Machine.execCoreResetRelease straps primary alternate selfTest s
  | .fwReady => Sys2Proof.Machine.execFwReady s
  | .bootCmdLoad m image selfTest => Sys2Proof.Machine.execBootCmdLoad m image selfTest s
  | .bootCmdFlash m image => Sys2Proof.Machine.execBootCmdFlash m image s
  | .pllLock => Sys2Proof.Machine.execPllLock s
  | .sleepEntryDone => Sys2Proof.Machine.execSleepEntryDone s
  | .autoWake => Sys2Proof.Machine.execAutoWake s
  | .wakeSource w => Sys2Proof.Machine.execWakeSource w s
  | .runReached => Sys2Proof.Machine.execRunReached s
  | .testmode high => Sys2Proof.Machine.execTestmode high s
  | .atbSelWrite w => Sys2Proof.Machine.execAtbSelWrite w s
  | .jtagReset => Sys2Proof.Machine.execJtagReset s
  | .extest => Sys2Proof.Machine.execExtest s
  | .samplePreload drive level => Sys2Proof.Machine.execSamplePreload drive level s
  | .idcode => Sys2Proof.Machine.execIdcode s
  | .clamp => Sys2Proof.Machine.execClamp s
  | .highz => Sys2Proof.Machine.execHighz s
  | .debug => Sys2Proof.Machine.execDebug s
  | .bypass => Sys2Proof.Machine.execBypass s
  | .debugUnlock tokenOk => Sys2Proof.Machine.execDebugUnlock tokenOk s
  | .xinOscStable => Sys2Proof.Machine.execXinOscStable s
  | .linkDown => Sys2Proof.Machine.execLinkDown s

end Sys2Proof.Machine
end

