-- ==== Sys2Proof/Safety.lean ====
section
/-!
DEFINITION. What statements about the block are written in: its parts, what a command leaves as it was, and the form the state always has.
-/
namespace Sys2Proof.Machine

/-- The parts of the state a command may leave alone: `mem` is the contents of the store (R206), `store` the rest of the store's registers and queues. -/
inductive Part where
  | time | master | guar | ch | axis | cal | pod | mem | store | eic | mbx | abort | fw | health | pcie | adc | sur | pwr | boot | fuse | jtag | free
  deriving DecidableEq, Repr

/-- A part is the same in two states. -/
def Part.same (p : Part) (s t : State) : Prop :=
  match p with
  | .time => t.time = s.time
  | .master => t.master = s.master
  | .guar => t.guar = s.guar
  | .ch => t.ch = s.ch
  | .axis => t.axis = s.axis
  | .cal => t.cal = s.cal
  | .pod => t.pod = s.pod
  | .mem => t.store.mem = s.store.mem
  | .store => { t.store with mem := [] } = { s.store with mem := [] }
  | .eic => t.eic = s.eic
  | .mbx => t.mbx = s.mbx
  | .abort => t.abort = s.abort
  | .fw => t.fw = s.fw
  | .health => t.health = s.health
  | .pcie => t.pcie = s.pcie
  | .adc => t.adc = s.adc
  | .sur => t.sur = s.sur
  | .pwr => t.pwr = s.pwr
  | .boot => t.boot = s.boot
  | .fuse => t.fuse = s.fuse
  | .jtag => t.jtag = s.jtag
  | .free => t.free = s.free

/-- Between two states nothing differs but, at most, the parts named; the queue of waiting commands never does. -/
def Keeps (but : List Part) (s t : State) : Prop := t.pending = s.pending ∧ ∀ p : Part, p ∉ but → p.same s t

/-- No channel but n differs. -/
def OnlyCh (n : Ch) (s t : State) : Prop := ∀ m : Ch, m ≠ n → t.ch[m] = s.ch[m]

/-- No axis but k differs. -/
def OnlyAxis (k : Ax) (s t : State) : Prop := ∀ m : Ax, m ≠ k → t.axis[m] = s.axis[m]

/-- No pod but p differs. -/
def OnlyPod (p : Pod) (s t : State) : Prop := ∀ m : Pod, m ≠ p → t.pod[m] = s.pod[m]

/-- No mailbox but b differs. -/
def OnlyMbx (b : Mbx) (s t : State) : Prop := ∀ m : Mbx, m ≠ b → t.mbx[m] = s.mbx[m]

/-- No register-bus master but m differs. -/
def OnlyMaster (m : Master) (s t : State) : Prop := ∀ i : Fin 8, i ≠ m.idx → t.master[i] = s.master[i]

/-- Every byte of the store outside the n bytes from a reads as before. -/
def MemSameBut (a n : Nat) (s t : State) : Prop :=
  ∀ x : Nat, x < a ∨ a + n ≤ x → memRead x t.store.mem = memRead x s.store.mem

/-- The store's contents are in their one canonical form: addresses rising, no byte listed that an unlisted address reads as (R206, R350). -/
def State.memOk (s : State) : Prop := Memory.wf s.store.mem = true

/-- Line Time has not gone back from s to t (R8, R19). -/
def LtForward (s t : State) : Prop := s.time.lt ≤ t.time.lt

/-- An access of master m is carried out now: its port takes it (R248, R250, R357, R366) and no write of the host waits before it (R224). -/
def served (m : Master) (row : Instr) (s : State) : Bool :=
  reaches m s && (match m with
    | .pcie => !(isWriteRow row && s.store.held.any isWriteRow)
    | .qspi => !(isWriteRow row && s.store.heldQ.any isWriteRow)
    | _ => true)

/-- The state an access of master m finds: a memory request of the PCI Express host that is answered is not Unsupported (R248). -/
def found (m : Master) (s : State) : State :=
  match m with
  | .pcie => { s with pcie := { s.pcie with unsupported := false } }
  | _ => s

/-- The Pip of channel n, as of the present tick, issues op in its next cycle: it runs, no wait holds it, the cycle has begun, and no swap or host stop waits (R93, R94). -/
def PipIssues (n : Ch) (op : PipOp) (s : State) : Prop :=
  let p := (s.pipNow n).ch[n].pip
  p.run = true ∧ p.stalled = none ∧ p.waitLeft = 0 ∧ p.instr.op = op ∧ op.reserved = false ∧ p.cycleTick p.cyc ≤ s.tick ∧ p.swap = none ∧ p.stopAt = none

/-- The instruction completed in its issue cycle: the program's registers are r, but for the latches seen meanwhile; the engine runs on in its bank. -/
def PipCompletes (n : Ch) (s t : State) (r : PipRegs) : Prop :=
  let p := (s.pipNow n).ch[n].pip
  let q := t.ch[n].pip
  q.r = { r with pend := q.r.pend, pendQ := q.r.pendQ } ∧ q.cyc = p.cyc + 1 ∧ q.run = true ∧ q.stalled = none ∧ q.bank = p.bank ∧ q.prg0 = p.prg0 ∧ q.prg1 = p.prg1

/-- The instruction stalls from its issue cycle on: the program's registers are as before, but for the latches seen meanwhile. -/
def PipStalls (n : Ch) (s t : State) : Prop :=
  let p := (s.pipNow n).ch[n].pip
  let q := t.ch[n].pip
  q.r = { p.r with pend := q.r.pend, pendQ := q.r.pendQ } ∧ q.stalled = some p.cyc ∧ q.cyc = p.cyc + 1 ∧ q.run = true ∧ q.bank = p.bank ∧ q.prg0 = p.prg0 ∧ q.prg1 = p.prg1

/-- Mailbox b runs the command with an opcode, a SEQ and a body, and the firmware can carry it out (R261, R264, R288, R358). -/
def CmdRuns (b : CmdMbx) (op : Nat) (seq : W) (body : List Byte) (s : State) : Prop :=
  (∃ cap : Nat, s.mbx[cmdMbx b].phase = .running op seq cap body) ∧ s.fw.restarting = false ∧ s.pwr.mode = 0

/-- The command of mailbox b has its outcome, and nothing else of any mailbox has changed (R263). -/
def Answered (b : CmdMbx) (seq : W) (status detail : Nat) (reply : List Byte) (s t : State) : Prop :=
  t.mbx[cmdMbx b] = { s.mbx[cmdMbx b] with phase := .answered (some seq) true status detail reply } ∧ OnlyMbx (cmdMbx b) s t

end Sys2Proof.Machine
end

