-- ==== Sys2Proof/Certificates/Slice0/Obligations.lean ====
section
/-!
DEFINITION. The statements about the block that are to be proved. Where a statement speaks of a command of a register-bus master it speaks of one that the
master's port takes (`served`); what happens to the others is AccessNotServed. A value in a conclusion is written with the state before the command; the free values
(Config) are the same constants on both sides.
-/
open Sys2Proof Sys2Proof.Machine

/-! ### The machine as a whole -/

/-- The command at the front of the queue is carried out on the state with the rest of the queue. On an empty queue time passes and the queue stays empty:
that is the model's own choice (log entry 1). The model's own readings here: log entries 1, 2. -/
def Obligations.StepRunsFrontCommand : Prop :=
  (∀ (c : Instr) (rest : List Instr) (s : State), step { s with pending := c :: rest } = exec c { s with pending := rest }) ∧
  (∀ s : State, s.pending = [] → step s = .next s.idle ∧ s.idle.pending = [])

/-- No command of the table stops the block: each answers a next state, and none touches the queue of those that wait behind it. The model's own readings
here: log entry 2. -/
def Obligations.EveryCommandAnswers : Prop :=
  ∀ (c : Instr) (s : State), ∃ t : State, exec c s = .next t ∧ t.pending = s.pending

/-- Every step keeps the store's contents in their canonical form, so that two stores that read alike are the same data. The model's own readings here:
log entry 78. -/
def Obligations.StoreFormKept : Prop :=
  ∀ s t : State, s.memOk → step s = .next t → t.memOk

/-- The canonical form holds after reset, where every byte of the store reads 0 (R350). The model's own readings here: log entry 78. -/
def Obligations.StoreFormAtReset : Prop :=
  State.reset.memOk ∧ ∀ a : Nat, memRead a State.reset.store.mem = 0

/-- No command but the always-on power-on reset takes Line Time back, and neither does the passing of time. The model's own readings here: log entry 1. -/
def Obligations.LineTimeNeverDecreases : Prop :=
  (∀ (c : Instr) (s t : State), (∀ cold : Bool, c ≠ .aonPor cold) → exec c s = .next t → LtForward s t) ∧
  (∀ s : State, LtForward s s.idle)

/-- Decoding the word of a Pip instruction gives the instruction back, with every operand field at every value. -/
def Obligations.PipDecodeOfEncode : Prop :=
  ∀ i : PipInstr, pipDecode (pipEncode i) = i

/-! ### The register bus -/

/-- A low-word read returns bits 31 to 0 of the wide register as it stands in the tick of the access and loads the master's shadow with bits 63 to 32 of
the same value, with the address and VALID; no other master's shadow changes (R14). The read of CHn_CAP_TS_LO is CAP_POP, which has a statement of its
own. An 8-byte read of the PCI Express host returns both words of one value, and leaves the shadow loaded with its high word (R16). -/
def Obligations.WideReads : Prop :=
  (∀ (m : Master) (a v : Nat) (s : State),
     served m (.lowWordRead m a) s = true → a % 4 = 0 → readDenied m a = none → (∀ n : Ch, a ≠ chBase n + 0x108) →
     busWide m a (busSettle a (found m s)) = some v →
     ∃ t : State, exec (.lowWordRead m a) s = .next t ∧
       t.master[m.idx] = { s.master[m.idx] with rdata := lo32 v, shadow := hi32 v, addr := BitVec.ofNat 24 a, valid := true } ∧
       OnlyMaster m s t ∧ t.time = { s.time with seen := t.time.seen } ∧
       Keeps [.master, .time, .ch, .axis, .pod, .free] (found m s) t) ∧
  (∀ (a v : Nat) (s : State),
     served .pcie (.wideRead8Byte a) s = true → a % 4 = 0 → (∀ n : Ch, a ≠ chBase n + 0x108) →
     busWide .pcie a (busSettle a (found .pcie s)) = some v →
     ∃ t : State, exec (.wideRead8Byte a) s = .next t ∧
       t.master[Master.pcie.idx] = { s.master[Master.pcie.idx] with
         rdata := lo32 v, rdataHi := hi32 v, shadow := hi32 v, addr := BitVec.ofNat 24 a, valid := true } ∧
       OnlyMaster .pcie s t)

/-- A high-word read returns the master's shadow where LATCH_ADDR names the register's low word and VALID is 1, and else the live high word with MISMATCH;
the shadow stays (R15). -/
def Obligations.HighWordReadUsesShadow : Prop :=
  ∀ (m : Master) (a v : Nat) (s : State),
    served m (.highWordRead m (a + 4)) s = true → a % 4 = 0 → readDenied m (a + 4) = none →
    busWide m a (busSettle (a + 4) (found m s)) = some v →
    ∃ t : State, exec (.highWordRead m (a + 4)) s = .next t ∧
      t.master[m.idx] =
        (if s.master[m.idx].valid = true ∧ s.master[m.idx].addr = BitVec.ofNat 24 a then { s.master[m.idx] with rdata := s.master[m.idx].shadow }
         else { s.master[m.idx] with rdata := hi32 v, mism := s.master[m.idx].mism.raise s.tick 1 }) ∧
      OnlyMaster m s t

/-- A read of a read-and-clear register returns the count without the occurrences of that tick, which it leaves for the next read; nothing else changes
(R4, R5). Stated of CAL_ACC_CNT, ABORT_PURGED, ADC_STR_LOST and PODp_RES_GAP. -/
def Obligations.ReadAndClearKeepsNew : Prop :=
  ∀ (m : Master) (s : State),
    (served m (.rcRead m 0x21C) s = true → ∃ t : State, exec (.rcRead m 0x21C) s = .next t ∧
      t.master[m.idx] = { s.master[m.idx] with rdata := put 0 (s.cal.accCnt.val - s.cal.accCnt.now s.tick) } ∧ OnlyMaster m s t ∧
      t.cal = { s.cal with accCnt := t.cal.accCnt } ∧ t.cal.accCnt.val = s.cal.accCnt.now s.tick ∧ Keeps [.master, .cal] (found m s) t) ∧
    (served m (.rcRead m 0x11038) s = true → ∃ t : State, exec (.rcRead m 0x11038) s = .next t ∧
      t.master[m.idx] = { s.master[m.idx] with rdata := put 0 (s.abort.purged.val - s.abort.purged.now s.tick) } ∧ OnlyMaster m s t ∧
      t.abort = { s.abort with purged := t.abort.purged } ∧ t.abort.purged.val = s.abort.purged.now s.tick ∧ Keeps [.master, .abort] (found m s) t) ∧
    (served m (.rcRead m 0x88054) s = true → ∃ t : State, exec (.rcRead m 0x88054) s = .next t ∧
      t.master[m.idx] = { s.master[m.idx] with rdata := put 0 (s.adc.strLost.val - s.adc.strLost.now s.tick) } ∧ OnlyMaster m s t ∧
      t.adc = { s.adc with strLost := t.adc.strLost } ∧ t.adc.strLost.val = s.adc.strLost.now s.tick ∧ Keeps [.master, .adc] (found m s) t) ∧
    (∀ p : Pod, served m (.rcRead m (0x91028 + 0x2000 * p.val)) s = true → ∃ t : State, exec (.rcRead m (0x91028 + 0x2000 * p.val)) s = .next t ∧
      t.master[m.idx] = { s.master[m.idx] with rdata := put 0 (s.pod[p].res.gap.val - s.pod[p].res.gap.now s.tick) } ∧ OnlyMaster m s t ∧
      t.pod[p] = { s.pod[p] with res := { s.pod[p].res with gap := t.pod[p].res.gap } } ∧ t.pod[p].res.gap.val = s.pod[p].res.gap.now s.tick ∧
      OnlyPod p s t ∧ Keeps [.master, .pod] (found m s) t)

/-- A low-word write of a wide register, and a write of CMPx_ACT or CMPx_PARAM, goes to the writing master's holding register for that address and nowhere
else (R18, R51). A high-word write commits both halves with the writing master's holding register, 0 where it never wrote one: LT_OFS_HI puts the new
offset in force from the next tick boundary (R18, R31), CHn_CNT_LD_HI loads the load value. The model's own readings here: log entry 3. -/
def Obligations.WideWrites : Prop :=
  (∀ (m : Master) (a : Nat) (w : W) (s : State),
     served m (.holdingRegWrite m a w) s = true →
     (a = 0x110 ∨ ∃ n : Ch, a = chBase n + 0x10 ∨ a = chBase n + 0x20 ∨ a = chBase n + 0x190 ∨
       ∃ u : Unit4, a = unitBase n u ∨ a = unitBase n u + 8 ∨ a = unitBase n u + 0xC) →
     ∃ t : State, exec (.holdingRegWrite m a w) s = .next t ∧
       t.holding m a = w ∧ (∀ b : Nat, b ≠ a → t.holding m b = s.holding m b) ∧
       t.master[m.idx] = { s.master[m.idx] with hold := t.master[m.idx].hold } ∧ OnlyMaster m s t ∧ Keeps [.master] (found m s) t) ∧
  (∀ (m : Master) (w : W) (s : State),
     (served m (.wideHighWrite m 0x114 w) s = true → ∃ t : State, exec (.wideHighWrite m 0x114 w) s = .next t ∧
       t.time = { s.time with ofs := w ++ s.holding m 0x110, ofsPrev := BitVec.ofNat 64 (ofsNow s), ofsTick := s.tick + 1 } ∧ Keeps [.time] (found m s) t) ∧
     (∀ n : Ch, served m (.wideHighWrite m (chBase n + 0x24) w) s = true → ∃ t : State, exec (.wideHighWrite m (chBase n + 0x24) w) s = .next t ∧
       t.ch[n] = { s.ch[n] with ctr := { s.ch[n].ctr with ld := (w ++ s.holding m (chBase n + 0x20)).setWidth 48 } } ∧
       OnlyCh n s t ∧ Keeps [.ch] (found m s) t) ∧
     (∀ b : Nat, State.reset.holding m b = 0))

/-- A register write: one whose byte enables do not cover the word is ignored with ACC_ERR (R7); a reserved address ignores it (R6); RW stores, W1C clears
what is written as 1 but what is set in that tick (R4, R5), and a value out of range is refused. Stated of a reserved address, PWR_WAKE_CHi, CAL_STAT
and PWR_WAKE_LEAD. -/
def Obligations.RegisterWriteByAccessCode : Prop :=
  ∀ (m : Master) (a : Nat) (w : W) (be : BitVec 4) (s : State), served m (.registerWrite m a w be) s = true →
    ∃ t : State, exec (.registerWrite m a w be) s = .next t ∧
      (be ≠ 0xF → t.health = { s.health with sum := s.health.sum.raise s.tick 1 } ∧ Keeps [.health] (found m s) t) ∧
      (be = 0xF → a % 4 = 0 → (blockOf a).1 = .none → t = found m s) ∧
      (be = 0xF → ∀ i : Fin 4, a = 0x830 + 4 * i.val → t.pwr = { s.pwr with chans := s.pwr.chans.set i.val w } ∧ Keeps [.pwr] (found m s) t) ∧
      (be = 0xF → a = 0x204 → t.cal = { s.cal with flags := s.cal.flags.w1c s.tick (w &&& 0x3C) } ∧ Keeps [.cal] (found m s) t) ∧
      (be = 0xF → a = 0x820 → 800000 ≤ w.toNat → w.toNat ≤ 4000000000 → t.pwr = { s.pwr with lead := w } ∧ Keeps [.pwr] (found m s) t) ∧
      (be = 0xF → a = 0x820 → (w.toNat < 800000 ∨ 4000000000 < w.toNat) →
        t.pwr = { s.pwr with flags := s.pwr.flags.raise s.tick 0x20 } ∧ Keeps [.pwr] (found m s) t)

/-- A clearing write of GUAR_STAT loads GUAR_CLR_LT, and FIRST is 0 where it leaves no breach bit; one that clears no breach bit changes nothing (R41).
The model's own readings here: log entry 86. -/
def Obligations.GuaranteeClear : Prop :=
  ∀ (m : Master) (w : W) (s : State), served m (.guarStatClear m w) s = true →
    ∃ t : State, exec (.guarStatClear m w) s = .next t ∧ Keeps [.guar] (found m s) t ∧
      (w &&& 0xFE = 0 → t = found m s) ∧
      (w &&& 0xFE ≠ 0 → t.guar.clrLt = s.time.lt ∧ t.guar.firstLt = s.guar.firstLt ∧ t.guar.cleared = true ∧
        t.guar.flags = s.guar.flags.w1c s.tick (w &&& 0xFE) ∧
        t.guar.first = if t.guar.flags.bits &&& 0xFE = 0 then 0 else s.guar.first)

/-- What a command does whose master's port does not take it: without a link, or while configuration is retried or in D3hot, a PCI Express request does
nothing or is Unsupported; one that comes while the device sleeps waits for RUN; QSPI is ignored while the device sleeps; the debug master has no port
until the Keeper has accepted the token (R248, R250, R357, R366). Stated of register reads, which no waiting write holds up. The model's own readings
here: log entries 57, 73. -/
def Obligations.AccessNotServed : Prop :=
  ∀ (a : Nat) (s : State),
    (s.pcie.up = false → exec (.rcRead .pcie a) s = .next s) ∧
    (s.pcie.up = true → (cfgRetried s = true ∨ s.pcie.d3hot = true) →
      exec (.rcRead .pcie a) s = .next { s with pcie := { s.pcie with unsupported := true } }) ∧
    (s.pcie.up = true → cfgRetried s = false → s.pcie.d3hot = false → s.pwr.mode ≠ 0 →
      ∃ t : State, exec (.rcRead .pcie a) s = .next t ∧ t.pwr.held = s.pwr.held ++ [.rcRead .pcie a] ∧
        (bit s.pwr.cfg 0 = true → t.pwr.waking = true) ∧ (bit s.pwr.cfg 0 = false → t.pwr.waking = s.pwr.waking) ∧ Keeps [.pcie, .pwr] s t) ∧
    (s.pwr.mode ≠ 0 → ∃ t : State, exec (.rcRead .qspi a) s = .next t ∧ (bit s.pwr.cfg 1 = true → t.pwr.waking = true) ∧ (bit s.pwr.cfg 1 = false → t = s) ∧
      t.pwr.held = s.pwr.held ∧ Keeps [.pwr] s t) ∧
    ((s.jtag.unlocked = false ∨ s.jtag.ir ≠ .debug) → exec (.rcRead .debug a) s = .next s)

/-! ### Counters and compare units -/

/-- START, STOP, CLEAR and LOAD act at the next tick boundary. START on a stopped counter begins a fresh prescaler phase, and in AXIS mode takes POS; STOP
holds the count reached there and takes a waiting TOP; CLEAR and LOAD change CNT without counting, are refused in AXIS mode, and follow the UPDOWN
rules of direction and of a value above TOP (R45, R47, R48, R49). A running counter in UP or DOWN mode has stepped once every DIV + 1 ticks, up to the
present boundary, from the boundary of its next step on; a stopped or disabled one holds; one step of an UPDOWN counter turns at TOP and at 0; and an
armed unit in CNT base whose value a single step reaches has matched there, at no other value (R44, R45, R48, R53). The model's own readings here: log
entries 8, 9. -/
def Obligations.Counters : Prop :=
  (∀ (n : Ch) (s : State),
     (∃ t : State, exec (.cntStart n) s = .next t ∧ t.ch[n].ctr.run = true ∧
       (s.ch[n].ctr.run = true → t.ch[n] = s.ch[n]) ∧
       (s.ch[n].ctr.run = false → t.ch[n].ctr.next = s.tick + 1 + (fld s.ch[n].ctr.presc 0 16 + 1) ∧
         t.ch[n].ctr.cnt = (if s.ch[n].ctr.mode = 5 then s.axis[axSel s.ch[n].ctr.cfg].pos.setWidth 48 else s.ch[n].ctr.cnt)) ∧
       t.ch[n] = { s.ch[n] with ctr := t.ch[n].ctr } ∧ OnlyCh n s t ∧ Keeps [.ch] s t) ∧
     (∃ t : State, exec (.cntStop n) s = .next t ∧
       (let c := s.ch[n].count (s.tick + 1) (s.freeBelow (2 ^ 48))
        t.ch[n] = { c with ctr := { c.ctr with run := false, top := c.ctr.topPend.getD c.ctr.top, topPend := none } }) ∧
       OnlyCh n s t ∧ Keeps [.ch, .free] s t) ∧
     (∃ t : State, exec (.cntClear n) s = .next t ∧
       (let c := s.ch[n].count s.tick (s.freeBelow (2 ^ 48))
        if c.ctr.mode = 5 then t.ch[n] = { c with stat := c.stat.raise s.tick 1 }
        else t.ch[n] = { c with ctr := { c.ctr with cnt := 0, down := false, next := t.ch[n].ctr.next } }) ∧
       OnlyCh n s t ∧ Keeps [.ch, .free] s t) ∧
     (∃ t : State, exec (.cntLoad n) s = .next t ∧
       (let c := s.ch[n].count s.tick (s.freeBelow (2 ^ 48))
        let k := c.ctr
        if k.mode = 5 then t.ch[n] = { c with stat := c.stat.raise s.tick 1 }
        else if k.mode = 2 ∧ k.top < k.ld then
          t.ch[n] = { c with stat := c.stat.raise s.tick 1, ctr := { k with cnt := k.top, down := true, next := t.ch[n].ctr.next } }
        else if k.mode = 2 then
          t.ch[n] = { c with ctr := { k with
            cnt := k.ld, next := t.ch[n].ctr.next, down := if k.ld = 0 then false else if k.ld = k.top then true else k.down } }
        else t.ch[n] = { c with ctr := { k with cnt := k.ld, next := t.ch[n].ctr.next } }) ∧
       OnlyCh n s t ∧ Keeps [.ch, .free] s t)) ∧
  (∀ (n : Ch) (s : State), ∃ t : State, exec (.counterStep n) s = .next t ∧ OnlyCh n s t ∧ Keeps [.ch, .free] s t ∧
     (let k := s.ch[n].ctr
      let steps := if k.next ≤ s.tick then (s.tick - k.next) / k.div1 + 1 else 0
      ((k.run = false ∨ s.ch[n].en = false) → t.ch[n].ctr.cnt = k.cnt) ∧
      (k.run = true → s.ch[n].en = true → k.mode = 0 →
        t.ch[n].ctr.cnt = k.cnt + BitVec.ofNat 48 steps ∧ t.ch[n].ctr.next = k.next + steps * k.div1 ∧ t.ch[n].ctr.run = true) ∧
      (k.run = true → s.ch[n].en = true → k.mode = 1 →
        t.ch[n].ctr.cnt = k.cnt - BitVec.ofNat 48 steps ∧ t.ch[n].ctr.next = k.next + steps * k.div1 ∧ t.ch[n].ctr.run = true) ∧
      (k.run = true → s.ch[n].en = true → k.mode = 2 → steps = 1 → k.top ≠ 0 → k.cnt ≤ k.top →
        t.ch[n].ctr.cnt = (if k.down then k.cnt - 1 else k.cnt + 1) ∧
        t.ch[n].ctr.down = (if t.ch[n].ctr.cnt = 0 then false else if t.ch[n].ctr.cnt = k.top then true else k.down)) ∧
      (k.run = true → s.ch[n].en = true → k.mode = 0 → steps = 1 → ∀ u : Unit4, s.ch[n].unit[u].live = true → actLt s.ch[n].unit[u].active.act = false →
        t.ch[n].unit[u].hit = if s.ch[n].unit[u].active.val = k.cnt + 1 then some (k.next, s.ch[n].unit[u].active) else s.ch[n].unit[u].hit)))

/-- A commit of TOP takes effect at once while the counter is stopped or not in UPDOWN mode, and else waits for CNT to reach 0 (R48); its low word is the
writing master's holding register (R18). -/
def Obligations.TopCommit : Prop :=
  ∀ (m : Master) (n : Ch) (w : W) (s : State), served m (.topCommit m n w) s = true →
    ∃ t : State, exec (.topCommit m n w) s = .next t ∧
      (let c := s.ch[n].count s.tick (s.freeBelow (2 ^ 48))
       let v : C48 := (w ++ s.holding m (chBase n + 0x10)).setWidth 48
       t.ch[n] = (if c.ctr.run = true ∧ c.ctr.mode = 2 then { c with ctr := { c.ctr with topPend := some v } }
         else { c with ctr := { c.ctr with top := v, topPend := none } })) ∧
      OnlyCh n s t ∧ Keeps [.ch, .free] (found m s) t

/-- A commit or a REARM of a unit in LT base on a channel that runs no emulation: ahead, it arms the unit with the committed value; passed, it is applied
in the tick after T_w with LATE, and the unit is not armed (R51, R56). A commit of a reserved action changes nothing but CFG_ERR (R59), one aimed at a
unit the pod owns nothing but CMP_COLLIDE and DIRECT_CMP (R57), and one on a channel of a running emulation nothing but CMP_COLLIDE (R144). DISARM
disarms the units of its mask that the pod does not own, and of one it owns it leaves the unit and sets CMP_COLLIDE and DIRECT_CMP (R57). The model's
own readings here: log entry 6. -/
def Obligations.CompareCommit : Prop :=
  (∀ (m : Master) (n : Ch) (u : Unit4) (w : W) (s : State) (set : CmpSet) (i : Instr),
     ((i = .cmpCommit m n u w ∧ served m i s = true ∧ set = commitSet m n u w s) ∨ (i = .cmpRearm n u ∧ m = .keeper ∧ set = s.ch[n].unit[u].cur)) →
     ∃ t : State, exec i s = .next t ∧
       (s.ch[n].unit[u].owner = true →
         t.ch[n] = { s.ch[n] with stat := s.ch[n].stat.raise s.tick 2 } ∧ t.guar.flags = s.guar.flags.raise s.tick 0x20 ∧
           OnlyCh n s t ∧ Keeps [.ch, .guar] (found m s) t) ∧
       (s.ch[n].unit[u].owner = false → emulBusy n s = true →
         t.ch[n] = { s.ch[n] with stat := s.ch[n].stat.raise s.tick 2 } ∧ OnlyCh n s t ∧ Keeps [.ch] (found m s) t) ∧
       (s.ch[n].unit[u].owner = false → emulBusy n s = false → 11 ≤ actCode set.act →
         t.ch[n] = { s.ch[n] with stat := s.ch[n].stat.raise s.tick 1 } ∧ OnlyCh n s t ∧ Keeps [.ch] (found m s) t) ∧
       (s.ch[n].unit[u].owner = false → emulBusy n s = false → actCode set.act < 11 → actLt set.act = true →
         (let d := (set.val - lt48 (s.tick + 1)).toNat
          t.ch[n].unit[u].cur = set ∧
          (1 ≤ d ∧ d < 2 ^ 47 → t.ch[n].unit[u].active = set ∧ t.ch[n].unit[u].live = true ∧ t.ch[n].unit[u].owner = false) ∧
          (¬ (1 ≤ d ∧ d < 2 ^ 47) → s.ch[n].en = true → t.ch[n].unit[u].live = false ∧ t.ch[n].unit[u].flags.get 1 = true ∧ t.ch[n].unit[u].flags.get 2 = true ∧
            t.ch[n].unit[u].matchLt = (s.tick + 2 + 4) * 32 + actFrac set.act)) ∧
         (sched n s = true → t.guar.flags.get 5 = true) ∧ Keeps [.ch, .pod, .guar, .free] (found m s) t)) ∧
  (∀ (n : Ch) (mask : BitVec 4) (s : State), ∃ t : State, exec (.cmpDisarm n mask) s = .next t ∧ OnlyCh n s t ∧ Keeps [.ch, .guar, .free] s t ∧
     (∀ u : Unit4, mask.getLsbD u.val = true → s.ch[n].unit[u].owner = false → t.ch[n].unit[u].live = false ∧ t.ch[n].unit[u].shadow = false) ∧
     (∀ u : Unit4, mask.getLsbD u.val = true → s.ch[n].unit[u].owner = true →
       t.ch[n].stat.get 1 = true ∧ t.guar.flags.get 5 = true ∧ t.ch[n].unit[u].owner = true) ∧
     (∀ u : Unit4, mask.getLsbD u.val = false → t.ch[n].unit[u] = (s.ch[n].count s.tick (s.freeBelow (2 ^ 48))).unit[u]))

/-- In RUN, a unit in LT base whose value is the present tick matches: it is disarmed, MATCHED and MATCH_LT are set, and SET, CLEAR and TOGGLE set the
level of their tier (R53, R54, R59, R62). Stated where no other match is due on the channel and no train runs. In another power mode nothing matches
(R351). The model's own readings here: log entries 10, 35. -/
def Obligations.CompareMatch : Prop :=
  ∀ (n : Ch) (u : Unit4) (s : State), ∃ t : State, exec (.cmpMatch n) s = .next t ∧
    (s.pwr.mode ≠ 0 → t = s) ∧
    (s.pwr.mode = 0 → s.time.res = 0 → s.ch[n].en = true → s.ch[n].frz = false → s.ch[n].out.train = .none → s.ch[n].unit[u].live = true → s.ch[n].unit[u].hit = none → s.ch[n].unit[u].ev = none →
      actLt s.ch[n].unit[u].active.act = true → s.ch[n].unit[u].active.val = lt48 s.tick →
      (∀ v : Unit4, v ≠ u → s.ch[n].unit[v].live = false ∧ s.ch[n].unit[v].shadow = false ∧ s.ch[n].unit[v].hit = none) → s.ch[n].unit[u].shadow = false →
      (let set := s.ch[n].unit[u].active
       t.ch[n].unit[u] = { s.ch[n].unit[u] with
         live := false, owner := false, flags := s.ch[n].unit[u].flags.raise s.tick 2, matchLt := (s.tick + 4) * 32 + actFrac set.act } ∧
       (actCode set.act = 1 → t.ch[n].out.level = true) ∧ (actCode set.act = 2 → t.ch[n].out.level = false) ∧
       (actCode set.act = 3 → t.ch[n].out.level = !s.ch[n].out.level) ∧ (actCode set.act = 0 → t.ch[n].out.level = s.ch[n].out.level)) ∧
      OnlyCh n s t ∧ Keeps [.ch, .free] s t)

/-! ### Output, input and reflex -/

/-- SET, CLR and TOG of OUT_FORCE set the level of the compare-and-calendar tier as an action with FRAC 0 in the tick after the write, whose edge reaches
the ball 4 ticks later; a frozen channel takes none; on a scheduled channel DIRECT_CMP is set (R62, R71, R86). A due end of a pulse, or a due edge of
a burst, sets its level, and the train goes on with its next edge or ends; one that is not due changes nothing (R59, R60). Stated in RUN with no
compare unit armed. The model's own readings here: log entries 13, 34. -/
def Obligations.ForcesAndTrains : Prop :=
  (∀ (n : Ch) (s : State) (i : Instr) (f : Bool → Bool),
     ((i = .outForceSet n ∧ f = fun _ => true) ∨ (i = .outForceClr n ∧ f = fun _ => false) ∨ (i = .outForceTog n ∧ f = fun l => !l)) →
     ∃ t : State, exec i s = .next t ∧ OnlyCh n s t ∧ Keeps [.ch, .guar] s t ∧
       (sched n s = true → t.guar.flags.get 5 = true) ∧ (sched n s = false → t.guar = s.guar) ∧
       (s.ch[n].frz = true → t.ch[n] = s.ch[n]) ∧
       (s.ch[n].frz = false → s.ch[n].out.train = .none → t.ch[n].out.level = f s.ch[n].out.level) ∧
       (s.ch[n].frz = false → s.ch[n].out.train = .none → s.ch[n].out.pip = none → s.ch[n].out.pipe = [] → s.ch[n].out.mergeTick ≠ s.tick + 5 →
         t.ch[n].out.pipe = if f s.ch[n].out.level = s.ch[n].out.level then [] else [⟨(s.tick + 5) * 32, f s.ch[n].out.level⟩])) ∧
  (∀ (n : Ch) (s : State), s.pwr.mode = 0 → (∀ u : Unit4, s.ch[n].unit[u].live = false ∧ s.ch[n].unit[u].shadow = false ∧ s.ch[n].unit[u].hit = none) →
     (∀ x : Nat, s.ch[n].out.train = .pulse x → ∃ t : State, exec (.pulseEnd n) s = .next t ∧ OnlyCh n s t ∧ Keeps [.ch, .free] s t ∧
       (s.tick < x / 32 - 4 → t = s) ∧ (x / 32 - 4 ≤ s.tick → t.ch[n].out.train = .none ∧ t.ch[n].out.level = false)) ∧
     (∀ (x k w g : Nat) (l : Bool), s.ch[n].out.train = .burst x l k w g → ∃ t : State, exec (.burstEdge n) s = .next t ∧ OnlyCh n s t ∧ Keeps [.ch, .free] s t ∧
       (s.tick < x / 32 - 4 → t = s) ∧ (x / 32 - 4 ≤ s.tick → t.ch[n].out.level = l ∧
         t.ch[n].out.train = if k ≤ 1 then .none else .burst (x + 32 * (if l then w else g)) (!l) (k - 1) w g)))

/-- A commit of an advance waits for its epoch, at the earliest the boundary after the write; when LT has reached the epoch it is in force for DUEs from
it on, and the old one for those before; a change of OD, DRIVE or SLEW waits for a boundary outside every readback mask (R66, R70). The model's own
readings here: log entries 15, 32. -/
def Obligations.AdvanceAndDriveChange : Prop :=
  ∀ (m : Master) (n : Ch) (w : W) (s : State),
    (served m (.advCommit m n w) s = true → ∃ t : State, exec (.advCommit m n w) s = .next t ∧ OnlyCh n s t ∧
      (∃ p : AdvPair, t.ch[n].adv.pend = some p ∧ p.adv = fld s.ch[n].adv.next 0 24 ∧ p.comp = none ∧
        p.epoch = (w ++ s.holding m (chBase n + 0x190)).toNat ∧ p.start = s.tick + 1) ∧
      t.ch[n] = { s.ch[n] with adv := t.ch[n].adv } ∧ Keeps [.ch, .pod, .sur] (found m s) t) ∧
    (∃ t : State, exec (.advEpochReached n) s = .next t ∧ OnlyCh n s t ∧ Keeps [.ch] s t ∧ t.ch[n] = { s.ch[n] with adv := t.ch[n].adv } ∧
      (∀ p : AdvPair, s.ch[n].adv.pend = some p → p.epoch ≤ s.tick * 32 → p.start ≤ s.tick → p.comp = none →
        t.ch[n].adv.pend = none ∧ t.ch[n].adv.base = p.adv ∧ t.ch[n].adv.since = p.epoch ∧ t.ch[n].adv.prev = s.ch[n].adv.value) ∧
      (∀ p : AdvPair, s.ch[n].adv.pend = some p → (s.tick * 32 < p.epoch ∨ s.tick < p.start) → t = s) ∧
      (s.ch[n].adv.pend = none → t = s)) ∧
    (∃ t : State, exec (.driveChangeApply n) s = .next t ∧ OnlyCh n s t ∧ Keeps [.ch] s t ∧
      (s.ch[n].out.drivePend = none ∨ s.ch[n].masked s.tick = true → t = s) ∧
      (∀ d : W, s.ch[n].out.drivePend = some d → s.ch[n].masked s.tick = false →
        t.ch[n] = { s.ch[n] with out := { s.ch[n].out with cfg := (s.ch[n].out.cfg &&& ~~~0xF) ||| (d &&& 0xF), drivePend := none } }))

/-- The debug master, and no other, asks for a freeze and a thaw (R86); a freeze that is asked for holds the ball, stops the Pip and the train, and sets
FREEZE of the guarantee (R39, R86); a thaw ends it (R87). The model's own readings here: log entry 14. -/
def Obligations.FreezeAndThaw : Prop :=
  ∀ (m : Master) (n : Ch) (s : State),
    (m ≠ .debug → exec (.freezeRequest m n) s = .next s ∧ exec (.thawRequest m n) s = .next s) ∧
    (s.jtag.unlocked = true → s.jtag.ir = .debug →
      (∃ t : State, exec (.freezeRequest .debug n) s = .next t ∧ t.ch[n] = { s.ch[n] with frzReq := true } ∧ OnlyCh n s t ∧ Keeps [.ch] s t) ∧
      (∃ t : State, exec (.thawRequest .debug n) s = .next t ∧ t.ch[n] = { s.ch[n] with frzReq := false } ∧ OnlyCh n s t ∧ Keeps [.ch] s t)) ∧
    (s.ch[n].frzReq = true → s.ch[n].frz = false → ∃ t : State, exec (.freezeEntry n) s = .next t ∧
      t.ch[n].frz = true ∧ t.ch[n].out.train = .none ∧ t.ch[n].out.pipe = [] ∧ t.ch[n].pip.run = false ∧ t.guar.flags.get 7 = true ∧
      Keeps [.ch, .guar, .pod, .mem, .store, .mbx, .health, .pcie, .sur, .free] s t) ∧
    ((s.ch[n].frzReq = false ∨ s.ch[n].frz = true) → exec (.freezeEntry n) s = .next s) ∧
    (s.ch[n].frz = true → s.ch[n].frzReq = false → ∃ t : State, exec (.thaw n) s = .next t ∧ t.ch[n] = { s.ch[n] with frz := false } ∧ OnlyCh n s t ∧ Keeps [.ch] s t) ∧
    ((s.ch[n].frz = false ∨ s.ch[n].frzReq = true) → exec (.thaw n) s = .next s)

/-- A crossing of an input comparator changes the raw level and, where the level is not the accepted one, is remembered with its time and the count in
force; the level that has held for FILTER ticks is accepted, and an edge of a selected polarity on an enabled channel makes an entry with the time of
its first crossing that enters FILTER + 3 ticks after it (R73, R74, R75). Stated at full resolution, for a channel's own ball and for SPBp while no
channel is moved to it. A pop takes the head entry: its LT[31:0] is returned, the rest is latched for the reading master, and the queue keeps the
others; an empty queue returns 0 with VALID 0 (R76, R77). Stated where no entry is about to enter and the channel does not spill. The model's own
readings here: log entry 5. -/
def Obligations.InputEdgesAndCaptures : Prop :=
  (∀ (n : Ch) (p : Pod) (level : Bool) (frac : Fin 32) (s : State), s.time.res = 0 → blind s = false →
     (s.ch[n].spare = false → (s.ch[n].filt.cand = none ∨ s.ch[n].filter ≠ 0) →
       ∃ t : State, exec (.inputCrossing (.ch n) level frac) s = .next t ∧ OnlyCh n s t ∧ Keeps [.ch, .free] s t ∧ t.ch[n].ownPin = level ∧
         (level = s.ch[n].filt.raw → t.ch[n].filt = s.ch[n].filt) ∧
         (level ≠ s.ch[n].filt.raw → t.ch[n].filt = { s.ch[n].filt with
           raw := level, cand := if level = s.ch[n].filt.acc then none else some (s.tick * 32 + frac.val, t.ch[n].ctr.cnt.setWidth 32) })) ∧
     (s.health.pod[p].spareOn = none → s.health.pod[p].spb.cand = none → level ≠ s.health.pod[p].spb.raw →
       ∃ t : State, exec (.inputCrossing (.spb p) level frac) s = .next t ∧ Keeps [.health] s t ∧
         t.health.pod[p].spb = { s.health.pod[p].spb with
           raw := level, cand := if level = s.health.pod[p].spb.acc then none else some (s.tick * 32 + frac.val, 0) }) ∧
     (∃ t : State, exec (.filterAccept (.ch n)) s = .next t ∧
       (s.ch[n].filt.cand = none → t = s) ∧
       (∀ (x : Nat) (cnt : W), s.ch[n].filt.cand = some (x, cnt) →
         (s.tick < x / 32 + s.ch[n].filter → t = s) ∧
         (x / 32 + s.ch[n].filter ≤ s.tick → t.ch[n].filt.acc = s.ch[n].filt.raw ∧ t.ch[n].filt.cand = none ∧
           (s.ch[n].en = true → s.ch[n].frz = false → capSelects s.ch[n].cap.cfg s.ch[n].filt.raw = true → s.ch[n].cap.accTick ≠ some (x / 32 + s.ch[n].filter) →
             (x / 32 + s.ch[n].filter + 3, ({ lt := x, cnt := cnt, flags := if s.ch[n].filt.raw then 1 else 0 } : CapE)) ∈ t.ch[n].cap.waiting))) ∧
       (∀ k : Ch, k ≠ n → t.ch[k] = { s.ch[k] with ctr := { s.ch[k].ctr with srcQ := t.ch[k].ctr.srcQ } }) ∧ Keeps [.ch, .pod, .free] s t) ∧
     (∃ t : State, exec (.filterAccept (.spb p)) s = .next t ∧ Keeps [.ch, .health] s t ∧
       (s.health.pod[p].spb.cand = none → t = s) ∧
       (s.health.pod[p].spb.cand ≠ none → t.health.pod[p].spb.acc = s.health.pod[p].spb.raw ∧ t.health.pod[p].spb.cand = none))) ∧
  (∀ (m : Master) (n : Ch) (s : State), served m (.capPop m n) s = true → s.ch[n].cap.waiting = [] → s.ch[n].cap.spilling = false →
     ∃ t : State, exec (.capPop m n) s = .next t ∧ OnlyMaster m s t ∧ OnlyCh n s t ∧ Keeps [.master, .ch] (found m s) t ∧
       (s.ch[n].cap.queue = [] →
         t.master[m.idx] = { s.master[m.idx] with rdata := 0, shadow := 0, addr := BitVec.ofNat 24 (chBase n + 0x108), valid := true } ∧
         t.ch[n] = { s.ch[n] with cap := { s.ch[n].cap with latch := s.ch[n].cap.latch.set m.idx.val {} } }) ∧
       (∀ (e : CapE) (r : List CapE), s.ch[n].cap.queue = e :: r →
         t.master[m.idx] = { s.master[m.idx] with rdata := lo32 e.lt, shadow := hi32 e.lt, addr := BitVec.ofNat 24 (chBase n + 0x108), valid := true } ∧
         t.ch[n] = { s.ch[n] with cap := { s.ch[n].cap with
           queue := r, latch := s.ch[n].cap.latch.set m.idx.val { ts := e.lt, cnt := e.cnt, flags := e.flags ||| 0x80 } } }))

/-- A boundary at which the sampled ball is not the level meant there, outside the readback mask, counts a mismatch tick and sets MISMATCH; an interval
that closes counts consecutive bad intervals, and the third sets PIN_FAULT (R81, R82). Arming the reflex term sets ARMED, loads its latch with the
level of the compare-and-calendar tier and evaluates it; disarming ends it; an armed term follows its inputs, a change of the ball sets FIRED, and a
frozen ball sets nothing (R83, R85, R86). Stated where no arming by an action is on its way. The model's own readings here: log entries 11, 12, 29. -/
def Obligations.ReadbackAndReflex : Prop :=
  (∀ (n : Ch) (s : State),
     (∃ t : State, exec (.readbackMismatchTick n) s = .next t ∧
       (∀ l : Bool, s.ch[n].expected s.tick = some l → s.ch[n].filt.raw ≠ l → measuring n s = false → scanning s = false →
         t.ch[n] = { s.ch[n] with
           rb := { s.ch[n].rb with ticks := s.ch[n].rb.ticks.bump s.tick 1 65535, bad := true }, fault := s.ch[n].fault.raise s.tick 1 } ∧
         OnlyCh n s t ∧ Keeps [.ch] s t) ∧
       (s.ch[n].expected s.tick = none ∨ s.ch[n].expected s.tick = some s.ch[n].filt.raw ∨ measuring n s = true ∨ scanning s = true → t = s)) ∧
     (∃ t : State, exec (.readbackInterval n) s = .next t ∧ OnlyCh n s t ∧ Keeps [.ch] s t ∧
       (let o := s.ch[n].out.drain s.tick
        let k := if s.ch[n].rb.bad then min 3 (s.ch[n].rb.consec + 1) else 0
        if s.ch[n].rb.since < o.lastBall ∨ s.ch[n].rb.since + 4096 ≤ s.tick then
          t.ch[n] = { s.ch[n] with
            out := o, fault := if k = 3 then s.ch[n].fault.raise s.tick 2 else s.ch[n].fault
            rb := { s.ch[n].rb with consec := k, bad := false, since := if s.ch[n].rb.since < o.lastBall then o.lastBall else s.tick } }
        else t = s))) ∧
  (∀ (n : Ch) (s : State), s.ch[n].rfx.pend = [] →
     (let a := rfxA n s
      let b := rfxB n s
      let func := fld s.ch[n].rfx.cfg 0 2
      (∃ t : State, exec (.rfxArm n) s = .next t ∧ OnlyCh n s t ∧ Keeps [.ch] s t ∧ t.ch[n].rfx.armed = true ∧
        t.ch[n].rfx.out = (rfxFunc func a b s.ch[n].out.level != bit s.ch[n].rfx.cfg 14) ∧ t.ch[n] = { s.ch[n] with rfx := t.ch[n].rfx }) ∧
      (∃ t : State, exec (.rfxDisarm n) s = .next t ∧ OnlyCh n s t ∧ Keeps [.ch] s t ∧ t.ch[n].rfx = { s.ch[n].rfx with armed := false } ∧
        t.ch[n] = { s.ch[n] with rfx := t.ch[n].rfx, out := t.ch[n].out } ∧ (s.ch[n].rfx.armed = false → t.ch[n].out = s.ch[n].out)) ∧
      (∃ t : State, exec (.reflexInputChange n) s = .next t ∧ OnlyCh n s t ∧ Keeps [.ch] s t ∧
        t.ch[n].rfx.out = (rfxFunc func a b s.ch[n].rfx.latch != bit s.ch[n].rfx.cfg 14) ∧ t.ch[n].rfx.armed = s.ch[n].rfx.armed ∧
        t.ch[n] = { s.ch[n] with rfx := t.ch[n].rfx, out := t.ch[n].out } ∧
        t.ch[n].rfx.flags = (if s.ch[n].rfx.armed = true ∧ s.ch[n].frz = false ∧ t.ch[n].rfx.out ≠ s.ch[n].rfx.out
          then s.ch[n].rfx.flags.raise s.tick 8 else s.ch[n].rfx.flags) ∧
        (s.ch[n].rfx.armed = false ∨ s.ch[n].frz = true → t.ch[n].out = s.ch[n].out))))

/-! ### The Pip engines -/

/-- The host's commands to a Pip, at the boundary after the write: START and RESUME begin cycle 0 there or are refused with START_ERR; STOP is noted for
the first cycle from there on; a swap is taken at once while the engine stands or when forced and else waits, and is refused where the other bank is
not valid; RELEASE gives up the tiers; KICK sets its latch; RESET clears the program's registers of a standing engine; VALIDATE sets VALID, except of
the bank in use (R91 to R93, R97, R106, R110 to R114). The model's own readings here: log entry 16. -/
def Obligations.PipHostCommands : Prop :=
  ∀ (n : Ch) (s : State),
    (let c := (s.pipNow n).ch[n]
     let p := c.pip
     (∀ entry : Fin 32, p.run = false → p.swap = none → ∃ t : State, exec (.pipStart n entry) s = .next t ∧ t.ch[n] = { c with pip := t.ch[n].pip } ∧ OnlyCh n s t ∧ Keeps [.ch, .pod] s t ∧
       (if p.activeValid = true ∧ c.frz = false ∧ c.en = true ∧ bit p.ctrl 0 = true then
          t.ch[n].pip.run = true ∧ t.ch[n].pip.r = { p.r with pc := entry, bc := 0, loaded := false } ∧ t.ch[n].pip.t0 = s.tick + 1 ∧ t.ch[n].pip.cyc = 0 ∧ t.ch[n].pip.stalled = none
        else t.ch[n].pip = { p with err := p.err.raise (s.tick + 1) 8 })) ∧
     (∃ t : State, exec (.pipStop n) s = .next t ∧ OnlyCh n s t ∧ Keeps [.ch, .pod] s t ∧
       t.ch[n] = { c with pip := if p.run = true ∧ p.stopAt = none then { p with stopAt := some (s.tick + 1) } else p }) ∧
     (∃ t : State, exec (.pipResume n) s = .next t ∧ t.ch[n] = { c with pip := t.ch[n].pip } ∧ OnlyCh n s t ∧ Keeps [.ch, .pod] s t ∧
       (if p.resum = true ∧ p.run = false ∧ c.en = true ∧ bit p.ctrl 0 = true ∧ c.frz = false then
          t.ch[n].pip.run = true ∧ t.ch[n].pip.r = p.r ∧ t.ch[n].pip.t0 = s.tick + 1 ∧ t.ch[n].pip.cyc = 0 ∧ t.ch[n].pip.resum = false
        else t.ch[n].pip = { p with err := p.err.raise s.tick 8 })) ∧
     (∃ t : State, exec (.pipCmdSwap n) s = .next t ∧ t.ch[n] = { c with pip := t.ch[n].pip } ∧ OnlyCh n s t ∧ Keeps [.ch, .pod] s t ∧
       (p.otherValid = false → t.ch[n].pip = { p with err := p.err.raise s.tick 4 }) ∧
       (p.otherValid = true → p.run = false → t.ch[n].pip.bank = !p.bank ∧ t.ch[n].pip.r.pc = 0 ∧ t.ch[n].pip.resum = false) ∧
       (p.otherValid = true → p.run = true → t.ch[n].pip = { p with swap := some (p.swap.getD (s.tick + 1)) })) ∧
     (∃ t : State, exec (.pipCmdForce n) s = .next t ∧ t.ch[n] = { c with pip := t.ch[n].pip } ∧ OnlyCh n s t ∧ Keeps [.ch, .pod] s t ∧
       (p.otherValid = false → t.ch[n].pip = { p with err := p.err.raise s.tick 4 }) ∧
       (p.otherValid = true → t.ch[n].pip.bank = !p.bank ∧ t.ch[n].pip.r.pc = 0 ∧ t.ch[n].pip.run = p.run ∧
         (p.r.bc ≠ 0 → t.ch[n].pip.r.sr = 0 ∧ t.ch[n].pip.r.bc = 0 ∧ t.ch[n].pip.r.loaded = false ∧ t.ch[n].pip.err = p.err.raise s.tick 1))) ∧
     (∃ t : State, exec (.pipRelease n) s = .next t ∧ Keeps [.ch, .pod] s t ∧ (∀ k : Ch, podOf k ≠ podOf n → t.ch[k] = s.ch[k]) ∧
       (∀ k : Ch, k ∈ tierOf n (s.pipNow n) → t.ch[k].out.pip = none)) ∧
     (∃ t : State, exec (.pipReset n) s = .next t ∧ t.ch[n] = { c with pip := t.ch[n].pip } ∧ OnlyCh n s t ∧ Keeps [.ch, .pod] s t ∧
       t.ch[n].pip = (if p.run then { p with err := p.err.raise s.tick 0x80 }
         else { p with r := { p.r with sr := 0, bc := 0, lc := 0, flags := {}, pend := 0, pendQ := [], pc := 0, loaded := false } }))) ∧
    (∃ t : State, exec (.pipKick n) s = .next t ∧ OnlyCh n s t ∧ Keeps [.ch] s t ∧
      t.ch[n] = { s.ch[n] with pip := { s.ch[n].pip with r := { s.ch[n].pip.r with pendQ := s.ch[n].pip.r.pendQ ++ [(s.tick + 1, 0x2000)] } } }) ∧
    (∀ mask : BitVec 2, ∃ t : State, exec (.pipValidate n mask) s = .next t ∧ OnlyCh n s t ∧ Keeps [.ch] s t ∧
      t.ch[n] = { s.ch[n] with pip := { s.ch[n].pip with
        valid0 := s.ch[n].pip.valid0 || (mask.getLsbD 0 && !(bit s.ch[n].pip.ctrl 0 && !s.ch[n].pip.bank))
        valid1 := s.ch[n].pip.valid1 || (mask.getLsbD 1 && !(bit s.ch[n].pip.ctrl 0 && s.ch[n].pip.bank)) } })

/-- The host's side of the Pip FIFOs: a word for a full TXF is refused with TX_OVF, a read of an empty RXF returns 0 with RX_UNF, either of a FIFO the pod
serves sets its own flag, and a flush is accepted of a standing engine only (R109). Host writes of Pip registers: an instruction of the bank in use is
refused while EN is 1, one of the other clears its VALID and cancels a swap that waits for it; CTRL of a running engine changes EN only, with CFG_ERR
where bits [18:1] differ; PINS of a running engine keeps its pin fields; SR and LC are written of a standing engine, LC_INIT always (R95, R96, R112,
R114, R117, R118). -/
def Obligations.PipHostData : Prop :=
  (∀ (m : Master) (n : Ch) (w : W) (s : State),
     (let c := (s.pipNow n).ch[n]
      let p := c.pip
      (∃ t : State, exec (.txfWrite n w) s = .next t ∧ OnlyCh n s t ∧ Keeps [.ch, .pod] s t ∧
        t.ch[n] = { c with pip := if p.txPod then { p with err := p.err.raise s.tick 0x400 }
          else if 4 ≤ p.r.txf.length then { p with err := p.err.raise s.tick 0x10 } else { p with r := { p.r with txf := p.r.txf ++ [w] } } }) ∧
      (served m (.rxfRead m n) s = true → ∃ t : State, exec (.rxfRead m n) s = .next t ∧ OnlyCh n s t ∧ OnlyMaster m s t ∧ Keeps [.ch, .pod, .master] (found m s) t ∧
        t.ch[n] = { c with pip := t.ch[n].pip } ∧
        (p.rxPod = true → t.ch[n].pip = { p with err := p.err.raise s.tick 0x400 } ∧ t.master[m.idx].rdata = 0) ∧
        (p.rxPod = false → p.r.rxf = [] → t.ch[n].pip = { p with err := p.err.raise s.tick 0x20 } ∧ t.master[m.idx].rdata = 0) ∧
        (∀ (v : W) (r : List W), p.rxPod = false → p.r.rxf = v :: r → t.ch[n].pip = { p with r := { p.r with rxf := r } } ∧ t.master[m.idx].rdata = v)) ∧
      (∃ t : State, exec (.txfFlush n) s = .next t ∧ OnlyCh n s t ∧ Keeps [.ch, .pod] s t ∧
        t.ch[n] = { c with pip := if p.run then { p with err := p.err.raise s.tick 0x80 } else { p with r := { p.r with txf := [] } } }) ∧
      (∃ t : State, exec (.rxfFlush n) s = .next t ∧ OnlyCh n s t ∧ Keeps [.ch, .pod] s t ∧
        t.ch[n] = { c with pip := if p.run then { p with err := p.err.raise s.tick 0x80 } else { p with r := { p.r with rxf := [] } } }))) ∧
  (∀ (n : Ch) (w : W) (s : State),
     (let c := (s.pipNow n).ch[n]
      let p := c.pip
      (∀ (bank : Bool) (i : Fin 32), ∃ t : State, exec (.pipPrgWrite n bank i w) s = .next t ∧ OnlyCh n s t ∧ Keeps [.ch, .pod] s t ∧ t.ch[n] = { c with pip := t.ch[n].pip } ∧
        (bit p.ctrl 0 = true → bank = p.bank → t.ch[n].pip = { p with err := p.err.raise s.tick 2 }) ∧
        (bit p.ctrl 0 = false ∨ bank ≠ p.bank →
          t.ch[n].pip.prg0 = (if bank then p.prg0 else p.prg0.set i.val (w.setWidth 16)) ∧ t.ch[n].pip.prg1 = (if bank then p.prg1.set i.val (w.setWidth 16) else p.prg1) ∧
          t.ch[n].pip.valid0 = (if bank then p.valid0 else false) ∧ t.ch[n].pip.valid1 = (if bank then false else p.valid1) ∧
          (bank ≠ p.bank → t.ch[n].pip.swap = none) ∧ t.ch[n].pip.r = p.r ∧ t.ch[n].pip.run = p.run)) ∧
      (∃ t : State, exec (.pipCtrlWrite n w) s = .next t ∧ Keeps [.ch, .pod] s t ∧ (∀ k : Ch, podOf k ≠ podOf n → t.ch[k] = s.ch[k]) ∧
        (p.run = false → t.ch[n].pip.ctrl = w &&& 0x7FFFF ∧ t.ch[n].pip.err = p.err ∧ t.ch[n].pip.run = false) ∧
        (p.run = true → t.ch[n].pip.ctrl = setBit p.ctrl 0 (bit w 0) ∧ t.ch[n].pip.err = (if (w ^^^ p.ctrl) &&& 0x7FFFE = 0 then p.err else p.err.raise s.tick 0x80)) ∧
        (p.run = true → bit w 0 = true → t.ch[n].pip = { p with ctrl := t.ch[n].pip.ctrl, err := t.ch[n].pip.err }) ∧
        (bit p.ctrl 0 = true → bit w 0 = false → t.ch[n].pip.run = false ∧ bit t.ch[n].pip.ctrl 0 = false)) ∧
      (∃ t : State, exec (.pipPinsWrite n w) s = .next t ∧ OnlyCh n s t ∧ Keeps [.ch, .pod] s t ∧ t.ch[n] = { c with pip := { p with pins := t.ch[n].pip.pins, err := t.ch[n].pip.err } } ∧
        (p.run = true → t.ch[n].pip.pins &&& 0x1FFFF = p.pins &&& 0x1FFFF) ∧ (c.out.pip ≠ none → fld t.ch[n].pip.pins 20 4 = fld p.pins 20 4) ∧
        (p.run = false → c.out.pip = none → fld w 0 4 + fld w 4 2 ≤ 15 → p.pins &&& 0xFF0E00C0 = 0 → t.ch[n].pip.pins = w &&& 0xF1FF3F ∧ t.ch[n].pip.err = p.err)) ∧
      (∃ t : State, exec (.pipSrWrite n w) s = .next t ∧ OnlyCh n s t ∧ Keeps [.ch, .pod] s t ∧
        t.ch[n] = { c with pip := if p.run then { p with err := p.err.raise s.tick 0x80 } else { p with r := { p.r with sr := w, loaded := true } } }) ∧
      (∃ t : State, exec (.pipLcWrite n w) s = .next t ∧ OnlyCh n s t ∧ Keeps [.ch, .pod] s t ∧
        t.ch[n] = { c with pip := { p with r := { p.r with lcInit := (w >>> 16).setWidth 16, lc := if p.run then p.r.lc else w.setWidth 16 } } })))

/-- The waits at issue: WAITCYC holds the engine N, or LC, further cycles; WAITPIN for a level, WAITFLAG and WAITIRQ complete in their cycle where their
condition holds, and else stall from it on with the PC unchanged; a wait with a timeout that is met leaves F3 0 (R94, R99, R100, R105, R106). A
stalled PULL completes in the cycle in which TXF has a word, and one whose timeout is over expires: F3 and ERR.TMO are set, and the program goes on
(R30, R94, R105). A WAIT_COMPLETE or WAIT_TIMEOUT of an engine that does not stall does nothing but bring it up to date. The model's own readings
here: log entry 17. -/
def Obligations.PipWaits : Prop :=
  (∀ (n : Ch) (s : State),
     (let p := (s.pipNow n).ch[n].pip
      let stalls (i : Instr) (hold : Bool) (to_ : Bool) : Prop := ∃ t : State, exec i s = .next t ∧ Keeps [.ch, .pod] s t ∧ (∀ k : Ch, podOf k ≠ podOf n → t.ch[k] = s.ch[k]) ∧
        (hold = true → PipCompletes n s t { p.r with pc := p.r.pc + 1, flags := t.ch[n].pip.r.flags } ∧ (p.timeout to_ = 0 → t.ch[n].pip.r.flags = p.r.flags) ∧
          (0 < p.timeout to_ → p.r.flags.fresh = 0 → t.ch[n].pip.r.flags.get 3 = false)) ∧
        (hold = false → PipStalls n s t)
      (∀ (lc : Bool) (k : Fin 512), PipIssues n (.waitcyc lc k) s → ∃ t : State, exec (.pipWaitcyc n) s = .next t ∧ Keeps [.ch, .pod] s t ∧
        (∀ k : Ch, podOf k ≠ podOf n → t.ch[k] = s.ch[k]) ∧ PipCompletes n s t { p.r with pc := p.r.pc + 1 } ∧ t.ch[n].pip.waitLeft = if lc then p.r.lc.toNat else k.val) ∧
      (∀ (cond : Fin 4) (pin : Fin 32) (to_ : Bool), PipIssues n (.waitpin cond pin to_) s →
        stalls (.pipWaitpin n) (cond = 0 && !pipSample (podOf n) pin.val (p.cycleTick p.cyc) (s.pipNow n) || cond = 1 && pipSample (podOf n) pin.val (p.cycleTick p.cyc) (s.pipNow n)) to_) ∧
      (∀ (f : Fin 4) (v to_ : Bool), PipIssues n (.waitflag f v false to_) s → stalls (.pipWaitflag n) (bit p.r.flags.bits f.val == v) to_) ∧
      (∀ (f : Fin 4) (v to_ : Bool), PipIssues n (.waitflag f v true to_) s → p.r.flags.fresh = 0 → ∃ t : State, exec (.pipWaitflag n) s = .next t ∧ Keeps [.ch, .pod] s t ∧
        (∀ k : Ch, podOf k ≠ podOf n → t.ch[k] = s.ch[k]) ∧
        (p.r.flags.get f.val = v → PipCompletes n s t { p.r with pc := p.r.pc + 1, flags := t.ch[n].pip.r.flags } ∧
          t.ch[n].pip.r.flags.get f.val = (if f = 3 ∧ 0 < p.timeout to_ then false else !v)) ∧
        (p.r.flags.get f.val ≠ v → PipStalls n s t)) ∧
      (∀ (cls : Fin 4) (i : Fin 8) (to_ : Bool), PipIssues n (.waitirq cls i to_) s → p.r.pendQ = [] → stalls (.pipWaitirq n) (bit p.r.pend (pendBit cls i)) to_))) ∧
  (∀ (n : Ch) (s : State),
     (let p := (s.pipNow n).ch[n].pip
      (p.stalled = none → exec (.pipWaitComplete n) s = .next (s.pipNow n) ∧ exec (.pipWaitTimeout n) s = .next (s.pipNow n)) ∧
      (∀ (k0 : Nat) (w : W) (r : List W), p.run = true → p.swap = none → p.stopAt = none → p.stalled = some k0 → k0 < p.lastCycle s.tick → p.instr.op = .pull false → p.r.txf = w :: r →
        ∃ t : State, exec (.pipWaitComplete n) s = .next t ∧ OnlyCh n s t ∧ Keeps [.ch, .pod] s t ∧
          t.ch[n].pip.r = { p.r with pc := p.r.pc + 1, sr := w, txf := r, bc := 0, loaded := true, pend := t.ch[n].pip.r.pend, pendQ := t.ch[n].pip.r.pendQ } ∧
          t.ch[n].pip.stalled = none ∧ t.ch[n].pip.cyc = p.lastCycle s.tick + 1) ∧
      (∀ k0 : Nat, p.run = true → p.swap = none → p.stopAt = none → p.stalled = some k0 → p.instr.op = .pull true → p.r.txf = [] → 0 < fld p.tmo 0 16 → p.cycleTick (k0 + fld p.tmo 0 16) ≤ s.tick →
        ∃ t : State, exec (.pipWaitTimeout n) s = .next t ∧ OnlyCh n s t ∧ Keeps [.ch, .pod] s t ∧
          t.ch[n].pip.r.pc = p.r.pc + 1 ∧ t.ch[n].pip.r.flags.get 3 = true ∧ t.ch[n].pip.err.get 9 = true ∧ t.ch[n].pip.stalled = none ∧ t.ch[n].pip.r.sr = p.r.sr) ∧
      (∀ k0 : Nat, p.stalled = some k0 → (p.timeout p.instr.op.hasTimeout = 0 ∨ s.tick < p.cycleTick (k0 + p.timeout p.instr.op.hasTimeout)) → exec (.pipWaitTimeout n) s = .next (s.pipNow n))))

/-- OUT and IN shift SR by N bits in their direction and count them in BC up to the word length, with the chained load and delivery at a word's ends; PUSH
and PULL move whole words; MOV writes its destination (R100, R103, R104). Where the FIFO they need cannot serve them they stall. The model's own
readings here: log entries 17, 18. -/
def Obligations.PipDataMoves : Prop :=
  ∀ (n : Ch) (s : State),
    (let p := (s.pipNow n).ch[n].pip
     (∀ (d : Fin 4) (k : Fin 32), PipIssues n (.out d k) s → ∃ t : State, exec (.pipOut n) s = .next t ∧ Keeps [.ch, .pod] s t ∧ (∀ j : Ch, podOf j ≠ podOf n → t.ch[j] = s.ch[j]) ∧
       (let load := p.chainTx && !p.r.loaded
        (load = true → p.r.txf = [] → PipStalls n s t) ∧
        ((load = false ∨ p.r.txf ≠ []) →
          (let v : W := if load then p.r.txf.headD 0 else p.r.sr
           let bits := (if p.txMsb then rev32 v.toNat else v.toNat) % 2 ^ (k.val + 1)
           let e := decide (p.wlen ≤ p.r.bc + (k.val + 1))
           PipCompletes n s t { p.r with
             pc := p.r.pc + 1, sr := if p.txMsb then v <<< (k.val + 1) else v >>> (k.val + 1), txf := if load then p.r.txf.tail else p.r.txf
             bc := if e then 0 else p.r.bc + (k.val + 1), loaded := (load || p.r.loaded) && !e
             cv := if d = 2 then BitVec.ofNat 32 bits else p.r.cv, lc := if d = 3 then BitVec.ofNat 16 bits else p.r.lc })))) ∧
     (∀ (c : Fin 4) (k : Fin 32), PipIssues n (.inp c k) s → ∃ t : State, exec (.pipIn n) s = .next t ∧ Keeps [.ch, .pod] s t ∧ (∀ j : Ch, podOf j ≠ podOf n → t.ch[j] = s.ch[j]) ∧
       (let e := decide (p.wlen ≤ p.r.bc + (k.val + 1))
        let v := if c = 0 then (List.range (k.val + 1)).foldl (fun a i => a + (if pipSample (podOf n) (fld p.pins 12 5 + i) (p.cycleTick p.cyc) (s.pipNow n) then 2 ^ i else 0)) 0
          else (if c = 2 then p.r.cv.toNat else if c = 3 then p.r.lc.toNat else 0) % 2 ^ (k.val + 1)
        let sr : W := if p.rxMsb then (p.r.sr <<< (k.val + 1)) ||| BitVec.ofNat 32 (rev32 v / 2 ^ (31 - k.val)) else (p.r.sr >>> (k.val + 1)) ||| BitVec.ofNat 32 (v * 2 ^ (31 - k.val))
        (p.chainRx = true → e = true → 4 ≤ p.r.rxf.length → PipStalls n s t) ∧
        (p.chainRx = false ∨ e = false ∨ p.r.rxf.length < 4 →
          PipCompletes n s t { p.r with
            pc := p.r.pc + 1, sr := if p.chainRx && e then 0 else sr, rxf := if p.chainRx && e then p.r.rxf ++ [sr] else p.r.rxf
            bc := if e then 0 else p.r.bc + (k.val + 1) }))) ∧
     (∀ clr to_ : Bool, PipIssues n (.push clr to_) s → ∃ t : State, exec (.pipPush n) s = .next t ∧ Keeps [.ch, .pod] s t ∧ (∀ j : Ch, podOf j ≠ podOf n → t.ch[j] = s.ch[j]) ∧
       (p.r.rxf.length < 4 → PipCompletes n s t { p.r with pc := p.r.pc + 1, rxf := p.r.rxf ++ [p.r.sr], bc := 0, sr := if clr then 0 else p.r.sr, flags := t.ch[n].pip.r.flags } ∧
         (p.timeout to_ = 0 → t.ch[n].pip.r.flags = p.r.flags)) ∧
       (4 ≤ p.r.rxf.length → PipStalls n s t)) ∧
     (∀ to_ : Bool, PipIssues n (.pull to_) s → ∃ t : State, exec (.pipPull n) s = .next t ∧ Keeps [.ch, .pod] s t ∧ (∀ j : Ch, podOf j ≠ podOf n → t.ch[j] = s.ch[j]) ∧
       (p.r.txf ≠ [] → PipCompletes n s t { p.r with pc := p.r.pc + 1, sr := p.r.txf.headD 0, txf := p.r.txf.tail, bc := 0, loaded := true, flags := t.ch[n].pip.r.flags } ∧
         (p.timeout to_ = 0 → t.ch[n].pip.r.flags = p.r.flags)) ∧
       (p.r.txf = [] → PipStalls n s t)) ∧
     (∀ (d src : Fin 8) (o : Fin 4), PipIssues n (.mov d src o) s → ∃ t : State, exec (.pipMov n) s = .next t ∧ Keeps [.ch, .pod] s t ∧
       (∀ j : Ch, podOf j ≠ podOf n → t.ch[j] = s.ch[j]) ∧
       (let pins := (List.range 17).foldl (fun a i => a + (if pipSample (podOf n) i (p.cycleTick p.cyc) (s.pipNow n) then 2 ^ i else 0)) 0
        let v := movOp o (if src = 0 then p.r.sr else if src = 1 then p.r.cv else if src = 2 then p.r.lc.setWidth 32 else if src = 3 then BitVec.ofNat 32 pins
          else if src = 4 then (s.pipNow n).ch[n].ctr.cnt.setWidth 32 else if src = 5 then lo32 (p.cycleTick p.cyc) else 0)
        (d = 0 → PipCompletes n s t { p.r with pc := p.r.pc + 1, sr := v, loaded := true }) ∧ (d = 1 → PipCompletes n s t { p.r with pc := p.r.pc + 1, cv := v }) ∧
        (d = 2 → PipCompletes n s t { p.r with pc := p.r.pc + 1, lc := v.setWidth 16 }) ∧ (d = 3 → PipCompletes n s t { p.r with pc := p.r.pc + 1 }) ∧
        (d = 4 → p.r.flags.fresh = 0 → PipCompletes n s t { p.r with pc := p.r.pc + 1, flags := t.ch[n].pip.r.flags } ∧ ∀ g : Fin 4, t.ch[n].pip.r.flags.get g.val = bit v g.val) ∧
        (d = 5 → PipCompletes n s t { p.r with pc := ⟨v.toNat % 32, by omega⟩ }))))

/-- Branches, comparison, settings, interrupts, SWAP and STOP (R91, R100, R101, R107, R113, R115): JMP goes to its address where its condition holds, LOOP
while LC is not 0, CMP and SET write flags or registers, IRQ raises a pod line or the host interrupt and stalls while one is pending, SWAP takes the
other bank or waits for a word boundary, STOP stops the engine, and a reserved encoding stops it with BAD_OP and no other effect. The model's own
readings here: log entry 17. -/
def Obligations.PipControlFlow : Prop :=
  ∀ (n : Ch) (s : State),
    (let p := (s.pipNow n).ch[n].pip
     let other (t : State) : Prop := Keeps [.ch, .pod] s t ∧ ∀ j : Ch, podOf j ≠ podOf n → t.ch[j] = s.ch[j]
     (∀ (cond : Fin 8) (x : Fin 4) (a : Fin 32), PipIssues n (.jmp cond x a) s → ∃ t : State, exec (.pipJmp n) s = .next t ∧ other t ∧
       (let take : Bool := if cond = 0 then true else if cond = 1 then bit p.r.flags.bits x.val else if cond = 2 then !bit p.r.flags.bits x.val else if cond = 3 then p.r.lc != 0
          else if cond = 4 then pipSample (podOf n) (fld p.pins 12 5) (p.cycleTick p.cyc) (s.pipNow n) else if cond = 5 then !p.r.txf.isEmpty else if cond = 6 then decide (p.r.rxf.length < 4) else p.r.bc == 0
        PipCompletes n s t { p.r with pc := if take then a else p.r.pc + 1 })) ∧
     (∀ (reload : Bool) (a : Fin 32), PipIssues n (.loop reload a) s → ∃ t : State, exec (.pipLoop n) s = .next t ∧ other t ∧
       PipCompletes n s t (if p.r.lc ≠ 0 then { p.r with lc := p.r.lc - 1, pc := a } else { p.r with pc := p.r.pc + 1, lc := if reload then p.r.lcInit else p.r.lc })) ∧
     (∀ (o f : Fin 4) (inv : Bool), PipIssues n (.cmp o f inv) s → p.r.flags.fresh = 0 → ∃ t : State, exec (.pipCmp n) s = .next t ∧ other t ∧
       PipCompletes n s t { p.r with pc := p.r.pc + 1, flags := t.ch[n].pip.r.flags } ∧ (∀ g : Fin 4, g ≠ f → t.ch[n].pip.r.flags.get g.val = p.r.flags.get g.val) ∧
       t.ch[n].pip.r.flags.get f.val = ((if o = 0 then p.r.sr == p.r.cv else if o = 1 then p.r.sr.ult p.r.cv else if o = 2 then p.r.sr &&& p.r.cv != 0 else p.r.lc == p.r.cv.setWidth 16) != inv)) ∧
     (∀ (cv : Bool) (v : Fin 256), PipIssues n (.setVal cv v) s → ∃ t : State, exec (.pipSet n) s = .next t ∧ other t ∧
       PipCompletes n s t (if cv then { p.r with pc := p.r.pc + 1, cv := BitVec.ofNat 32 v.val } else { p.r with pc := p.r.pc + 1, lc := BitVec.ofNat 16 v.val })) ∧
     (∀ (msk v : Fin 16), PipIssues n (.setMask false msk v) s → ∃ t : State, exec (.pipSet n) s = .next t ∧ other t ∧ PipCompletes n s t { p.r with pc := p.r.pc + 1 }) ∧
     (∀ (msk v : Fin 16), PipIssues n (.setMask true msk v) s → p.r.flags.fresh = 0 → ∃ t : State, exec (.pipSet n) s = .next t ∧ other t ∧
       PipCompletes n s t { p.r with pc := p.r.pc + 1, flags := t.ch[n].pip.r.flags } ∧
       (∀ g : Fin 4, t.ch[n].pip.r.flags.get g.val = if bitAt msk.val g.val then bitAt v.val g.val else p.r.flags.get g.val)) ∧
     (∀ c : Fin 256, PipIssues n (.irq 1 c) s → ∃ t : State, exec (.pipIrq n) s = .next t ∧ other t ∧
       (p.irq.get 0 = true → PipStalls n s t) ∧
       (p.irq.get 0 = false → PipCompletes n s t { p.r with pc := p.r.pc + 1 } ∧ t.ch[n].pip.irq.get 0 = true ∧ t.ch[n].pip.code = BitVec.ofNat 8 c.val)) ∧
     (∀ c : Fin 256, PipIssues n (.irq 0 c) s → ∃ t : State, exec (.pipIrq n) s = .next t ∧ other t ∧
       PipCompletes n s t { p.r with pc := p.r.pc + 1 } ∧ t.pod[podOf n].plines = (s.pipNow n).pod[podOf n].plines ++ [c.val % 8]) ∧
     (∀ force : Bool, PipIssues n (.swap force) s → ∃ t : State, exec (.pipSwapInstr n) s = .next t ∧ other t ∧
       (p.otherValid = false → PipCompletes n s t { p.r with pc := p.r.pc + 1 } ∧ t.ch[n].pip.err.get 2 = true) ∧
       (p.otherValid = true → (force = true ∨ p.r.bc = 0) → t.ch[n].pip.bank = !p.bank ∧ t.ch[n].pip.r.pc = 0 ∧ t.ch[n].pip.r.bc = 0 ∧ t.ch[n].pip.swap = none ∧ t.ch[n].pip.run = true) ∧
       (p.otherValid = true → force = false → p.r.bc ≠ 0 → PipCompletes n s t { p.r with pc := p.r.pc + 1 } ∧ t.ch[n].pip.swap = some (p.cycleTick p.cyc))) ∧
     (∀ rel irq : Bool, PipIssues n (.stop rel irq) s → ∃ t : State, exec (.pipStopInstr n) s = .next t ∧ other t ∧
       t.ch[n].pip.run = false ∧ t.ch[n].pip.halt = 1 ∧ t.ch[n].pip.resum = false ∧ (irq = true → t.ch[n].pip.irq.get 1 = true)) ∧
     (p.run = true → p.stalled = none → p.waitLeft = 0 → p.swap = none → p.instr.op.reserved = true → p.cycleTick p.cyc ≤ s.tick → ∃ t : State, exec (.pipReservedOp n) s = .next t ∧ OnlyCh n s t ∧ Keeps [.ch, .pod] s t ∧
       t.ch[n].pip = { p with run := false, halt := 6, resum := false, stopAt := none, err := p.err.raise (p.cycleTick p.cyc) 0x100 }))

/-! ### Axes -/

/-- Writes of an axis block: POS_LD and SER_LAT store, ERR clears what is written as 1, a change of MODE or FILTER while the axis is enabled, a SER_PERIOD
below 400 and thresholds out of order are refused with CFG_ERR and leave the field; EN := 0 stops the axis, EN := 1 takes the present levels as the
decoder's reference (R120, R129, R137, R139, R384). Z_ARM arms; POS_LOAD loads POS, discards the rate pair and tells the counters that follow the
axis, and is refused with LOAD_ERR while the axis holds position events (R126, R127). The model's own readings here: log entries 23, 24. -/
def Obligations.AxisConfiguration : Prop :=
  ∀ (k : Ax) (w : W) (s : State),
    (let a := s.axis[k]
     (∃ t : State, exec (.axisCfgWrite k 0x24 w) s = .next t ∧ t.axis[k] = { a with posLd := w } ∧ OnlyAxis k s t ∧ Keeps [.axis] s t) ∧
     (∃ t : State, exec (.axisCfgWrite k 0x98 w) s = .next t ∧ t.axis[k] = { a with ser := { a.ser with lat := w &&& 0xFFFF } } ∧ OnlyAxis k s t ∧ Keeps [.axis] s t) ∧
     (∃ t : State, exec (.axisCfgWrite k 0x54 w) s = .next t ∧ t.axis[k] = { a with err := a.err.w1c s.tick w } ∧ OnlyAxis k s t ∧ Keeps [.axis] s t) ∧
     (∃ t : State, exec (.axisCfgWrite k 0x88 w) s = .next t ∧ OnlyAxis k s t ∧ Keeps [.axis] s t ∧
       (fld w 0 24 < 400 → t.axis[k] = { a with err := a.err.raise s.tick 0x1000 }) ∧
       (400 ≤ fld w 0 24 → t.axis[k] = { a with ser := { a.ser with period := t.axis[k].ser.period } } ∧ fld t.axis[k].ser.period 0 24 = fld w 0 24)) ∧
     (∃ t : State, exec (.axisCfgWrite k 0x10 w) s = .next t ∧ OnlyAxis k s t ∧ Keeps [.axis] s t ∧
       t.axis[k] = if a.dnThr.toNat < w.toNat % 2 ^ 31 then { a with upThr := w &&& 0x7FFFFFFF } else { a with err := a.err.raise s.tick 0x1000 }) ∧
     (∃ t : State, exec (.axisCfgWrite k 0x14 w) s = .next t ∧ OnlyAxis k s t ∧ Keeps [.axis] s t ∧
       t.axis[k] = if w.toNat % 2 ^ 31 < a.upThr.toNat then { a with dnThr := w &&& 0x7FFFFFFF } else { a with err := a.err.raise s.tick 0x1000 }) ∧
     (∃ t : State, exec (.axisCfgWrite k 0 w) s = .next t ∧ OnlyAxis k s t ∧ Keeps [.guar, .ch, .axis, .cal, .pod] s t ∧
       bit t.axis[k].cfg 0 = bit w 0 ∧ t.axis[k].pos = a.pos ∧
       (bit a.cfg 0 = true → fld w 1 2 ≠ fld a.cfg 1 2 → fld t.axis[k].cfg 1 2 = fld a.cfg 1 2 ∧ t.axis[k].err.get 12 = true) ∧
       (bit a.cfg 0 = true → fld w 3 4 ≠ fld a.cfg 3 4 → fld t.axis[k].cfg 3 4 = fld a.cfg 3 4 ∧ t.axis[k].err.get 12 = true) ∧
       (bit a.cfg 0 = false → fld t.axis[k].cfg 1 2 = fld w 1 2 ∧ fld t.axis[k].cfg 3 4 = fld w 3 4 ∧ t.axis[k].err = a.err) ∧
       (bit w 0 = false → t.axis[k].stopped = true) ∧
       (bit w 0 = true → bit a.cfg 0 = false → t.axis[k].ref = a.pins ∧ t.axis[k].accQ = [] ∧ t.axis[k].spd.valid = false ∧ t.axis[k].ser.prev = none ∧ t.axis[k].stopped = true)) ∧
     (∃ t : State, exec (.zArm k) s = .next t ∧ t.axis[k] = { a with zArmed := true } ∧ OnlyAxis k s t ∧ Keeps [.axis] s t) ∧
     (axisHolds k s = true → ∃ t : State, exec (.posLoad k) s = .next t ∧ t.axis[k] = { a with err := a.err.raise s.tick 0x800 } ∧ OnlyAxis k s t ∧ Keeps [.axis] s t) ∧
     (axisHolds k s = false → ∃ t : State, exec (.posLoad k) s = .next t ∧ OnlyAxis k s t ∧ Keeps [.ch, .axis] s t ∧
       t.axis[k].pos = a.posLd ∧ t.axis[k].edgeLt = a.edgeLt ∧ t.axis[k].edgePos = a.edgePos ∧ t.axis[k].wrapNet = a.wrapNet ∧ t.axis[k].spd = { a.spd with valid := false, dp := 0, dt := 0, pairs := [], edges := [] } ∧
       (∀ n : Ch, (s.ch[n].ctr.mode = 5 ∧ axSel s.ch[n].ctr.cfg = k) →
         t.ch[n] = { s.ch[n] with ctr := { s.ch[n].ctr with axQ := s.ch[n].ctr.axQ ++ [{ at_ := s.tick + 1, delta := 0, pos := a.posLd, load := true }] } }) ∧
       (∀ n : Ch, ¬ (s.ch[n].ctr.mode = 5 ∧ axSel s.ch[n].ctr.cfg = k) → t.ch[n] = s.ch[n])))

/-- A level of an axis pin that has held for FILTER ticks is accepted and handed to the decoder of an enabled axis in an edge mode; in HIBERNATE it is
only remembered, and one too young or already held changes nothing (R121, R122, R141). FILTER + 2 ticks after its crossing the decoder takes an edge:
a step along or against the sequence 00, 10, 11, 01 moves POS by one; an edge of both lines, or a fast one, moves nothing and sets SUSPECT; a Hall
state counts a neighbouring sector; an index pulse in mode 3 loads POS (R123 to R128). The model's own readings here: log entries 22, 23. -/
def Obligations.AxisEdges : Prop :=
  ∀ (k : Ax) (s : State),
    (let a := s.axis[k]
     let d (up : Bool) : Int := if up != bit a.cfg 12 then 1 else -1
     let moved (t : State) (x : Nat) (v : Int) : Prop := t.axis[k].pos = BitVec.ofInt 32 (a.pos.toNat + v) ∧ t.axis[k].edgeLt = x ∧ t.axis[k].edgePos = t.axis[k].pos
     let frame (t : State) : Prop := OnlyAxis k s t ∧ Keeps [.guar, .ch, .axis, .cal, .pod, .free] s t ∧ t.axis[k].pins = a.pins ∧ t.axis[k].cfg = a.cfg
     (∀ (p : AxPin) (level : Bool) (x : Nat),
       (a.pins.getLsbD p.idx = level ∨ s.tick < x / 32 + a.filterTicks → exec (.axisFilterAccept k p level x) s = .next s) ∧
       (a.pins.getLsbD p.idx ≠ level → x / 32 + a.filterTicks ≤ s.tick → s.boot.held = false → ∃ t : State, exec (.axisFilterAccept k p level x) s = .next t ∧ OnlyAxis k s t ∧ Keeps [.ch, .axis] s t ∧
         (s.pwr.mode = 2 → t.axis[k] = { a with pins := set3 a.pins p.idx level, moved := true } ∧ t.ch = s.ch) ∧
         (s.pwr.mode ≠ 2 → t.axis[k] = { a with
           pins := set3 a.pins p.idx level
           accQ := if a.en = true ∧ a.mode ≤ 1 then a.accQ ++ [(p, level, if a.coarse = true ∨ s.time.res ≠ 0 then x / 32 * 32 else x)] else a.accQ } ∧
           (∀ n : Ch, t.ch[n] = { s.ch[n] with ctr := { s.ch[n].ctr with srcQ := t.ch[n].ctr.srcQ } })))) ∧
     (∀ (p : AxPin) (level : Bool) (x : Nat) (rest : List (AxPin × Bool × Nat)), a.accQ = (p, level, x) :: rest →
       (∀ e ∈ rest, e.2.2 / 32 ≠ x / 32) →
       (s.tick < x / 32 + a.filterTicks + 2 → exec (.axisEdge k) s = .next s) ∧
       (x / 32 + a.filterTicks + 2 ≤ s.tick → a.en = true → ∃ t : State, exec (.axisEdge k) s = .next t ∧ frame t ∧ t.axis[k].accQ = rest ∧
         (a.mode = 0 → p ≠ .z → a.ref.getLsbD p.idx ≠ level → t.axis[k].ref = set3 a.ref p.idx level ∧ t.axis[k].lastTick = some (x / 32) ∧
           (a.fastEdge (x / 32) = false → moved t x (d (decide ((quadIdx (set3 a.ref p.idx level) + 4 - quadIdx a.ref) % 4 = 1)))) ∧
           (a.fastEdge (x / 32) = true → t.axis[k].pos = a.pos ∧ t.axis[k].edgeLt = a.edgeLt ∧ t.axis[k].err = a.err.raise s.tick 0x202 ∧ t.axis[k].fast = a.fast.bump s.tick 1 255)) ∧
         (a.mode = 0 → p = .z → level = true → fld a.cfg 9 2 = 3 → bit a.cfg 11 = false → axisHolds k s = false →
           t.axis[k].pos = a.posLd ∧ t.axis[k].zLt = x ∧ t.axis[k].zPos = a.pos ∧ t.axis[k].evt.get 3 = true ∧ t.axis[k].edgeLt = a.edgeLt) ∧
         (∀ h0 h1 : Nat, a.mode = 1 → a.sect = some h0 → hallSector (set3 a.ref p.idx level) = some h1 → set3 a.ref p.idx level ≠ a.ref → a.fastEdge (x / 32) = false →
           t.axis[k].sect = some h1 ∧ ((h1 + 6 - h0) % 6 = 1 → moved t x (d true)) ∧ ((h1 + 6 - h0) % 6 = 5 → moved t x (d false))))) ∧
     (∀ (la lb : Bool) (x y : Nat), a.accQ = [(.a, la, x), (.b, lb, y)] → x / 32 = y / 32 → x / 32 + a.filterTicks + 2 ≤ s.tick → a.en = true → a.mode = 0 →
       a.ref.getLsbD 0 ≠ la → a.ref.getLsbD 1 ≠ lb → a.fastEdge (x / 32) = false →
       ∃ t : State, exec (.axisEdge k) s = .next t ∧ frame t ∧ t.axis[k].pos = a.pos ∧ t.axis[k].edgeLt = a.edgeLt ∧ t.axis[k].accQ = [] ∧
         (bit a.cfg 7 = true → t.axis[k].err = a.err.raise s.tick 0x201 ∧ t.axis[k].illegal = a.illegal.bump s.tick 1 255) ∧
         (bit a.cfg 7 = false → t.axis[k].err = a.err)))

/-- STOPPED and LAGGING are what R139 makes of the enable, the speed and the age of the last edge; a change of STOPPED sets MOTION. A speed window that
has ended clears its count, takes the new PERIOD_AVG and GATE, and, in the count method of SPD_MODE 2, forms its pair with SPEED rounded half away
from zero and saturated (R136 to R138). A read of SPEED latches ACCEL and the pair for the reading master (R138). The model's own readings here: log
entries 19, 24. -/
def Obligations.AxisSpeed : Prop :=
  ∀ (k : Ax) (s : State),
    (let a := s.axis[k]
     let stop : Prop := a.en = false ∨ a.spd.formed = false ∨ a.spd.speed.natAbs < a.stopSpd.toNat ∨ 3276800000 < a.stopSpd.toNat * (s.tick * 32 - a.edgeLt)
     let lag : Prop := a.en = true ∧ a.spd.formed = true ∧ a.spd.dp ≠ 0 ∧ a.lagLim * a.spd.dt < (s.tick * 32 - a.edgeLt) * a.spd.dp.natAbs
     let judged (t : State) : Prop := (t.axis[k].stopped = true ↔ stop) ∧ (t.axis[k].lagging = true ↔ lag) ∧ (t.axis[k].stopped ≠ a.stopped → t.axis[k].evt.get 5 = true) ∧
       t.axis[k].pos = a.pos ∧ OnlyAxis k s t ∧ Keeps [.guar, .ch, .axis, .cal, .pod] s t ∧ (stop ∨ lag → ∀ x ∈ t.cal.pos, x.axis = k → x.pred = none ∧ x.soon = [])
     (∃ t : State, exec (.axisStopDetect k) s = .next t ∧ judged t ∧ t.axis[k].spd = a.spd) ∧
     (∃ t : State, exec (.lagDetect k) s = .next t ∧ judged t ∧ t.axis[k].spd = a.spd) ∧
     (let tb := (s.tick - (a.filterTicks + 2)) / max 1 a.spd.gate * a.spd.gate
      (a.en = false ∨ tb ≤ a.spd.winAt → exec (.countWindowEnd k) s = .next s) ∧
      (a.en = true → a.spd.winAt < tb → ∃ t : State, exec (.countWindowEnd k) s = .next t ∧ OnlyAxis k s t ∧ Keeps [.guar, .ch, .axis, .cal, .pod, .free] s t ∧
        t.axis[k].spd.winAt = tb ∧ t.axis[k].spd.winNet = 0 ∧ t.axis[k].spd.winLast = none ∧ t.axis[k].spd.avg = fld a.spdCfg 0 3 ∧ t.axis[k].spd.gate = fld a.spdCfg 16 16 ∧
        t.axis[k].pos = a.pos ∧ t.axis[k].edgeLt = a.edgeLt ∧
        (∀ x0 x1 : Nat, a.mode = 0 → fld a.spdCfg 3 2 = 2 → a.spd.cntMode = true → a.spd.winLast = some x1 → a.spd.before = some x0 → x0 < x1 → x1 - x0 < 2 ^ 32 → a.spd.winNet ≠ 0 →
          t.axis[k].spd.dp = a.spd.winNet ∧ t.axis[k].spd.dt = x1 - x0 ∧ t.axis[k].spd.valid = true ∧ t.axis[k].spd.before = some x1 ∧
          t.axis[k].spd.speed = max (-2147483647) (min 2147483647 (roundAway (a.spd.winNet * 3276800000) (x1 - x0)))))) ∧
     (∀ m : Master, served m (.speedRead m k) s = true → ∃ t : State, exec (.speedRead m k) s = .next t ∧
       t.master[m.idx] = { s.master[m.idx] with rdata := BitVec.ofInt 32 a.spd.speed } ∧ OnlyMaster m s t ∧ OnlyAxis k s t ∧ t.axis[k] = { a with latch := t.axis[k].latch } ∧
       t.axis[k].latch[m.idx] = { a.latch[m.idx] with accel := a.spd.accel, dp := a.spd.dp, dt := a.spd.dt } ∧ (∀ i : Fin 8, i ≠ m.idx → t.axis[k].latch[i] = a.latch[i]) ∧
       Keeps [.master, .axis] (found m s) t))

/-- A trigger, or the period, starts a serial frame at the boundary or, while one runs, sets SER_SKIP; a timeout abandons the frame and is counted. A
frame whose check fails sets SER_CRC and moves nothing; a good one moves POS by the signed step from the last good sample, the first one sets POS, and
a step beyond the jump limit is refused with SER_JUMP (R129 to R133). EMUL_ENABLE of a stopped emulator with distinct pins and free channels starts it
from zero and lays its levels on its channels alone; otherwise it is refused with CFG_ERR. A restart lets a halted one go on. A due output count moves
the emulated position by one; one not due changes nothing (R142 to R144). The model's own readings here: log entries 21, 27. -/
def Obligations.SerialAndEmulator : Prop :=
  (∀ (k : Ax) (s : State),
     (let a := s.axis[k]
      let on : Prop := a.en = true ∧ 2 ≤ a.mode ∧ s.pwr.mode = 0
      let started (t : State) (b : Nat) : Prop := OnlyAxis k s t ∧ Keeps [.axis] s t ∧ t.axis[k] =
        (if a.ser.busy = none then { a with ser := { a.ser with busy := some b } } else { a with err := a.err.raise s.tick 0x100 })
      (on → bit a.ser.cfg 12 = true → ∃ t : State, exec (.serTrig k) s = .next t ∧ started t (s.tick + 1)) ∧
      (on → bit a.ser.cfg 12 = false → fld a.ser.period 0 24 ≠ 0 → s.tick % fld a.ser.period 0 24 = 0 → ∃ t : State, exec (.serFrameStart k) s = .next t ∧ started t s.tick) ∧
      (¬ on → exec (.serTrig k) s = .next s ∧ exec (.serFrameStart k) s = .next s) ∧
      (a.ser.busy = none → exec (.serTmo k) s = .next s) ∧
      (a.ser.busy ≠ none → ∃ t : State, exec (.serTmo k) s = .next t ∧ OnlyAxis k s t ∧ Keeps [.axis] s t ∧
        t.axis[k] = { a with ser := { a.ser with busy := none, errs := a.ser.errs + 1 }, serErr := a.serErr.bump s.tick 1 255, err := a.err.raise s.tick 8 }) ∧
      (∀ f : SerFrame, a.ser.busy = none → exec (.serSample k f) s = .next s) ∧
      (∀ (f : SerFrame) (tf : Nat), a.ser.busy = some tf → on →
        (let raw := f.pos.toNat % 2 ^ a.ser.len
         let v := if bit a.ser.cfg 6 then grayToBin a.ser.len raw else raw
         let x : Nat := (((tf * 32 : Nat) : Int) + (BitVec.ofNat 16 a.ser.lat.toNat).toInt).toNat
         let lim := fld a.ser.cfg 16 16
         ∃ t : State, exec (.serSample k f) s = .next t ∧ OnlyAxis k s t ∧ Keeps [.guar, .ch, .axis, .cal, .pod, .free] s t ∧ t.axis[k].ser.busy = none ∧ t.axis[k].ser.raw = BitVec.ofNat 32 raw ∧
           (a.frameOk f = false → t.axis[k].pos = a.pos ∧ t.axis[k].edgeLt = a.edgeLt ∧ t.axis[k].err = a.err.raise s.tick 0x10 ∧ t.axis[k].serErr = a.serErr.bump s.tick 1 255 ∧ t.axis[k].ser.prev = a.ser.prev) ∧
           (a.frameOk f = true → a.mode = 3 → f.nE = false → t.axis[k].pos = a.pos ∧ t.axis[k].err.get 5 = true ∧ t.axis[k].ser.prev = a.ser.prev) ∧
           (a.frameOk f = true → a.mode = 2 ∨ (f.nE = true ∧ f.nW = true) → t.axis[k].ser.good = a.ser.good + 1 ∧
             (a.ser.prev = none → t.axis[k].pos = BitVec.ofNat 32 v ∧ t.axis[k].edgeLt = x ∧ t.axis[k].ser.prev = some v) ∧
             (∀ p : Nat, a.ser.prev = some p →
               (lim = 0 ∨ (serStep a.ser.len v p).natAbs ≤ lim →
                 t.axis[k].pos = BitVec.ofInt 32 (a.pos.toNat + serStep a.ser.len v p) ∧ t.axis[k].edgeLt = x ∧ t.axis[k].ser.prev = some v) ∧
               (lim ≠ 0 → lim < (serStep a.ser.len v p).natAbs → t.axis[k].pos = a.pos ∧ t.axis[k].err.get 7 = true ∧ t.axis[k].ser.prev = some p))))))) ∧
  (∀ (k : Ax) (s : State),
     (let e := s.axis[k].emul
      (∀ w : W, bit e.cfg 0 = false →
        (let c := (w ||| 1) &&& 0x3FFFF
         let e' : Emul := { e with cfg := c, run := true, acc := 0, out := 0, wait := [], lastX := none }
         ∃ t : State, exec (.emulEnable k w) s = .next t ∧ OnlyAxis k s t ∧ Keeps [.ch, .axis] s t ∧
           (emulPinsOk c = true → (emulChs { s.axis[k] with emul := e' }).all (emulFree s) = true →
             t.axis[k] = { s.axis[k] with emul := e' } ∧ ∀ n : Ch, n ∉ emulChs t.axis[k] → t.ch[n] = s.ch[n]) ∧
           (emulPinsOk c = false ∨ (emulChs { s.axis[k] with emul := e' }).all (emulFree s) = false →
             t.axis[k] = { s.axis[k] with err := s.axis[k].err.raise s.tick 0x1000 } ∧ t.ch = s.ch))) ∧
      (∃ t : State, exec (.emulRestart k) s = .next t ∧ OnlyAxis k s t ∧ Keeps [.axis] s t ∧
        t.axis[k] = { s.axis[k] with emul := { e with run := e.run || bit e.cfg 0 } }) ∧
      (e.wait = [] → exec (.emulOutputEdge k) s = .next s) ∧
      (∀ (c : EmulEdge) (r : List EmulEdge), e.wait = c :: r →
        (s.tick < c.x / 32 - 4 → exec (.emulOutputEdge k) s = .next s) ∧
        (c.x / 32 - 4 ≤ s.tick → ∃ t : State, exec (.emulOutputEdge k) s = .next t ∧ OnlyAxis k s t ∧ Keeps [.ch, .axis] s t ∧
          t.axis[k] = { s.axis[k] with emul := { e with wait := r, out := if c.up then e.out + 1 else e.out - 1 } } ∧
          (∀ n : Ch, n ∉ emulChs s.axis[k] → t.ch[n] = s.ch[n]) ∧ (∀ n : Ch, s.ch[n].frz = true → t.ch[n] = s.ch[n])))))

/-- The head of a channel on an axis commits once the present boundary is within CL of its ball time, and then leaves its axis list for the pod with that
ball time, where the density limits hold, and with no LATE where the lead is at least CL / 2. Without a prediction, too early, while the axis is
STOPPED, LAGGING or about to reverse, while the channel is aborted, and outside RUN nothing happens (R141, R147, R149, R150, R153). The model's own
readings here: log entries 25, 26. -/
def Obligations.PositionCommit : Prop :=
  ∀ (k : Ax) (n : Ch) (s : State),
    (headOf k n s = none → exec (.posCommit k n) s = .next s) ∧
    (∀ h : PosEv, headOf k n s = some h →
      (h.arr s.tick = none → exec (.posCommit k n) s = .next s) ∧
      (∀ arr : Nat, h.arr s.tick = some arr →
        (let adv := s.ch[n].adv.for_ arr
         let b := arr - adv
         let cl := fld s.axis[k].predCfg 0 16
         let waits : Prop := s.axis[k].held s.tick = true ∨ s.ch[n].aborted = true ∨ s.pwr.mode ≠ 0 ∨ s.tick * 32 + cl * 32 < b
         (waits → exec (.posCommit k n) s = .next s) ∧
         (¬ waits → withHead k h s = [h.ev] → ∃ t : State, exec (.posCommit k n) s = .next t ∧ OnlyAxis k s t ∧ Keeps [.guar, .ch, .axis, .cal, .pod] s t ∧
           (∀ x ∈ t.cal.pos, x.ev.ord ≠ h.ev.ord) ∧
           (∃ e ∈ t.pod[podOf h.ev.rec_.ch].commits, e.ord = h.ev.ord ∧ e.rec_ = h.ev.rec_ ∧ e.committed = true ∧ e.adv = adv ∧
             (s.tick * 32 + cl * 16 ≤ b → fits (podEvs (podOf h.ev.rec_.ch) s) h.ev.rec_.ch h.ev.ord (b / 32 - 4) = true → e.ball = b ∧ e.late = false))))))

/-! ### The calendar -/

/-- A CAL_WRITE hands its records to the engine's input, one without records is answered at once; a CAL_WRITE_DMA with a misaligned address or a bad count
is refused, another begins its fetch (R271). The engine takes one record in at most 8 ticks: a refused one ends its command with the first reason of
R157 that holds and the number of records taken; an accepted time record waits in the fast lane, the wheel or the overflow area with the ball time of
its DUE less the advance, and one written later than the horizon sets LATE; a position record joins its axis list (R145, R158 to R161, R164, R166).
The model's own readings here: log entries 38, 39. -/
def Obligations.CalendarRecords : Prop :=
  ∀ (b : CmdMbx) (seq : W) (body : List Byte) (s : State),
    (CmdRuns b 0x20 seq body s → s.mbx[cmdMbx b].cal.active = false → ∃ t : State, exec (.calWrite b) s = .next t ∧ Keeps [.mbx] s t ∧
      (u32 0 body = 0 → t.mbx[cmdMbx b] = { s.mbx[cmdMbx b] with cal := {}, phase := .answered (some seq) true 0 0 (leBytes 4 0 ++ leBytes 4 (calFree s) ++ leBytes 8 0 ++ leBytes 8 0) }) ∧
      (u32 0 body ≠ 0 → t.mbx[cmdMbx b] = { s.mbx[cmdMbx b] with cal := { recs := recsOf (body.drop 16) (u32 0 body), total := u32 0 body, active := true } }) ∧
      OnlyMbx (cmdMbx b) s t) ∧
    (CmdRuns b 0x21 seq body s → s.mbx[cmdMbx b].cal.active = false → ∃ t : State, exec (.calWriteDma b) s = .next t ∧ Keeps [.mbx] s t ∧
      (u64 0 body % 16 ≠ 0 → Answered b seq 5 0 [] s t) ∧
      (u64 0 body % 16 = 0 → u32 8 body = 0 ∨ 16777216 < u32 8 body → Answered b seq 5 8 [] s t) ∧
      (u64 0 body % 16 = 0 → u32 8 body ≠ 0 → u32 8 body ≤ 16777216 →
        t.mbx[cmdMbx b] = { s.mbx[cmdMbx b] with cal := { total := u32 8 body, dma := true, addr := u64 0 body, active := true } } ∧ OnlyMbx (cmdMbx b) s t)) ∧
    (∀ (op cap : Nat) (w : BitVec 128) (rest : List (BitVec 128)), s.mbx[cmdMbx b].phase = .running op seq cap body → s.mbx[cmdMbx b].cal.recs = w :: rest → s.mbx[cmdMbx b].cal.active = true →
      (∀ l : Nat, s.cal.lastAcc = some l → l + 8 ≤ s.tick) → s.pwr.mode = 0 → s.fw.restarting = false →
      (let j := s.mbx[cmdMbx b].cal
       let r := recOf w
       let e := timeEv r s
       ∃ t : State, exec (.calRecordAccept b) s = .next t ∧ Keeps [.guar, .ch, .axis, .cal, .pod, .mbx] s t ∧ OnlyMbx (cmdMbx b) s t ∧
         (9 ≤ r.dom.toNat → judgeRec r s = .refuse 0x11) ∧
         (r.dom.toNat < 9 → r.dom ≠ 0 → 2 ^ 32 ≤ r.due → judgeRec r s = .refuse 0x12) ∧
         (judgeRec r s = .wait → t = { s with cal := { s.cal with flags := s.cal.flags.raise s.tick 0x10 } }) ∧
         (∀ st : Nat, judgeRec r s = .refuse st →
           t.cal = { s.cal with flags := s.cal.flags.raise s.tick 0x20, refCnt := s.cal.refCnt.bump s.tick 1 0xFFFFFFFF } ∧ t.pod = s.pod ∧ t.ch = s.ch ∧ t.mbx[cmdMbx b].cal = {} ∧
           t.mbx[cmdMbx b].phase = .answered (some seq) true st (if st = 0x10 then 0 else j.done % 65536)
             (leBytes 4 j.done ++ leBytes 4 (calFree s) ++ leBytes 8 (if j.done = 0 then 0 else j.first) ++ leBytes 8 (if j.done = 0 then 0 else j.last))) ∧
         (judgeRec r s = .take → t.cal.ord = s.cal.ord + 1 ∧ t.cal.lastAcc = some s.tick ∧ t.cal.accCnt = s.cal.accCnt.bump s.tick 1 0xFFFFFFFF ∧
           (j.done + 1 ≠ j.total → t.mbx[cmdMbx b].cal = { j with recs := rest, done := j.done + 1, first := if j.done = 0 then s.tick * 32 else j.first, last := s.tick * 32 }) ∧
           (j.done + 1 = j.total → ∃ reply : List Byte, t.mbx[cmdMbx b].phase = .answered (some seq) true 0 0 reply) ∧
           (r.dom = 0 → e.ball = r.due - s.ch[r.ch].adv.for_ r.due ∧ e.late = decide (e.ball < (s.tick + s.cal.horizon) * 32) ∧
             (e.late = true → t.guar.flags.get 1 = true ∧ t.cal.lateCnt = s.cal.lateCnt.bump s.tick 1 0xFFFFFFFF) ∧
             (toFast e s = false → e.ball / 32 / 512 ≤ s.tick / 512 + 65535 → ∃ x ∈ t.cal.wheel, x.ord = s.cal.ord ∧ x.rec_ = r ∧ x.ball = e.ball ∧ x.late = e.late ∧ x.tAcc = s.tick) ∧
             (toFast e s = false → s.tick / 512 + 65535 < e.ball / 32 / 512 → ∃ x ∈ t.cal.ovfl, x.ord = s.cal.ord ∧ x.rec_ = r ∧ x.ball = e.ball ∧ x.late = e.late) ∧
             (toFast e s = true → ∃ x ∈ t.pod[podOf r.ch].fast, x.ord = s.cal.ord ∧ x.rec_ = r ∧ x.late = true)) ∧
           (r.dom ≠ 0 → s.axis[r.axis].isStopped s.tick = true → ∃ x ∈ t.cal.pos, x.ev.rec_ = r ∧ x.ev.ord = s.cal.ord ∧ x.axis = r.axis ∧ x.ahead = false) ∧
           (r.dom ≠ 0 → s.axis[r.axis].isStopped s.tick = false → posClass s.axis[r.axis].rev s.axis[r.axis].pos r.target = .ahead →
             ∃ x ∈ t.cal.pos, x.ev.rec_ = r ∧ x.ev.ord = s.cal.ord ∧ x.axis = r.axis ∧ x.ahead = true))))

/-- The calendar's other commands: CAL_CANCEL removes every uncommitted event its mode names, leaves the others, and tells the committed ones as TOO_LATE;
CAL_CONFIG sets the two bits while no event is held; HORIZON_SET schedules the pair for the first bucket boundary at least 1024 ticks on, where it
comes into force; RESULT_RING_SET judges the placement and hands it to the pod. Each refuses what R162, R167, R210, R273 and R275 refuse (R176). The
model's own readings here: log entries 40, 42, 46. -/
def Obligations.CalendarCommands : Prop :=
  ∀ (b : CmdMbx) (seq : W) (body : List Byte) (s : State),
    (CmdRuns b 0x24 seq body s →
      (let h := u32 0 body
       let w := u32 4 body
       let at_ := (s.tick + 1024 + 511) / 512 * 512
       ∃ t : State, exec (.horizonSet b) s = .next t ∧ Keeps [.cal, .mbx] s t ∧
         (1 ≤ w ∧ w ≤ 16 ∧ (w + 2) * 512 ≤ h ∧ 5120 ≤ h ∧ h ≤ 400000 → t.cal = { s.cal with pendHW := s.cal.pendHW ++ [(at_, h, w)] } ∧ Answered b seq 0 0 (leBytes 8 (at_ * 32)) s t) ∧
         (¬ (1 ≤ w ∧ w ≤ 16 ∧ (w + 2) * 512 ≤ h ∧ 5120 ≤ h ∧ h ≤ 400000) → t.cal = s.cal ∧ Answered b seq 0x1C 0 [] s t))) ∧
    ((s.cal.pendHW = [] → exec .horizonTakeEffect s = .next s) ∧
     (∀ (l : List (Nat × Nat × Nat)) (at_ h w : Nat), s.cal.pendHW = l ++ [(at_, h, w)] → at_ ≤ s.tick → ∃ t : State, exec .horizonTakeEffect s = .next t ∧ Keeps [.guar, .ch, .cal, .pod] s t ∧
       t.cal.horizon = h ∧ t.cal.win = w ∧ (∀ x ∈ t.cal.pendHW, s.tick < x.1))) ∧
    (CmdRuns b 0x23 seq body s → ∃ t : State, exec (.calConfig b) s = .next t ∧ Keeps [.cal, .store, .mbx] s t ∧
      (1 < u32 0 body → t.cal = s.cal ∧ t.store = s.store ∧ Answered b seq 5 0 [] s t) ∧
      (u32 0 body ≤ 1 → 1 < u32 4 body → t.cal = s.cal ∧ t.store = s.store ∧ Answered b seq 5 4 [] s t) ∧
      (u32 0 body ≤ 1 → u32 4 body ≤ 1 → calEmpty s = false → t.cal = s.cal ∧ t.store = s.store ∧ Answered b seq 6 0 [] s t) ∧
      (u32 0 body ≤ 1 → u32 4 body ≤ 1 → calEmpty s = true →
        t.cal.mirror = (u32 0 body == 1) ∧ t.store = { s.store with calHalf := u32 4 body == 1 } ∧ Answered b seq 0 0 (leBytes 4 (calFree t)) s t)) ∧
    (CmdRuns b 0x22 seq body s →
      (let mode := u32 0 body
       let ch := u32 4 body
       let sel := u32 8 body
       let lo := u64 16 body
       let hi := u64 24 body
       let f := cancelMatch mode ch sel lo hi
       let late := (allPods.map (fun p => countIf (fun e => f e && e.committed) (s.pod[p].staging ++ s.pod[p].spill) + countIf f s.pod[p].commits + countIf f (armedEvs p s))).sum
       ∃ t : State, exec (.calCancel b) s = .next t ∧ Keeps [.cal, .pod, .mbx] s t ∧
         (5 < mode → t.cal = s.cal ∧ t.pod = s.pod ∧ Answered b seq 5 0 [] s t) ∧
         (mode = 2 ∨ mode = 3 → hi ≤ lo → ch ≤ 127 → t.cal = s.cal ∧ t.pod = s.pod ∧ Answered b seq 0x1B 0 [] s t) ∧
         (mode ≤ 3 → (mode = 3 ∨ ch ≤ 127) → (mode ≤ 1 ∨ lo < hi) →
           t.cal.wheel = s.cal.wheel.filter (fun e => !f e) ∧ t.cal.ovfl = s.cal.ovfl.filter (fun e => !f e) ∧
           t.cal.pos.map (fun x => x.ev) = (s.cal.pos.filter (fun x => !f x.ev)).map (fun x => x.ev) ∧
           (∀ p : Pod, t.pod[p] = { s.pod[p] with
             staging := s.pod[p].staging.filter (fun e => !(f e && !e.committed)), spill := s.pod[p].spill.filter (fun e => !(f e && !e.committed))
             fast := s.pod[p].fast.filter (fun e => !(f e && !e.committed)) }) ∧
           (∃ n : Nat, Answered b seq (if late = 0 then 0 else 0x1A) 0 (leBytes 4 n ++ leBytes 4 late ++ leBytes 8 (s.tick * 32)) s t)))) ∧
    (CmdRuns b 0x25 seq body s →
      (let p := u32 0 body
       let l := u32 4 body
       let base := u64 8 body
       let q : Pod := ⟨p % 8, by omega⟩
       ∃ t : State, exec (.resultRingSet b) s = .next t ∧ Keeps [.pod, .mbx] s t ∧ OnlyPod q s t ∧
         (7 < p → t.pod = s.pod ∧ Answered b seq 5 0 [] s t) ∧
         (p ≤ 7 → l ≠ 0 → (l < 8 ∨ 20 < l) → t.pod = s.pod ∧ Answered b seq 5 4 [] s t) ∧
         (p ≤ 7 → 8 ≤ l → l ≤ 20 → base < 2 ^ 63 → ringPlaceOk q base (16 * 2 ^ l) s = false → t.pod = s.pod ∧ Answered b seq 7 0 [] s t) ∧
         (p ≤ 7 → (l = 0 ∨ (8 ≤ l ∧ l ≤ 20 ∧ base < 2 ^ 63 ∧ ringPlaceOk q base (16 * 2 ^ l) s = true)) → s.pod[q].job = none →
           t.pod[q] = { s.pod[q] with job := some (.ring b l (BitVec.ofNat 64 base)) } ∧ t.mbx = s.mbx)))

/-- At a new bucket boundary in RUN the records of the buckets that end with c + W − 1 leave the wheel for their pods' staging, and overflow records of
bucket c + 65 535 enter the wheel; at any other time nothing happens (R166, R168, R351). The sequencer arms one event in a tick: the first of the fast
lane and the commit path, and of the staged ones the earliest action tick, into a free unit that then holds it; an aborted channel takes no arm (R169,
R171, R189, R279). Outcomes whose ACT_LT has come leave their records in the ring, or in the backlog where the ring has no room; as LT reaches the DUE
of an event of an aborted channel it is MISSED (R181 to R183). The model's own readings here: log entry 43. -/
def Obligations.StagingAndArming : Prop :=
  ∀ (p : Pod) (f : Fetch) (s : State),
    (let c := s.tick / 512
     (s.pwr.mode ≠ 0 ∨ c ≤ s.cal.bucket → exec .bucketBoundary s = .next s) ∧
     (s.pwr.mode = 0 → s.cal.bucket < c → ∃ t : State, exec .bucketBoundary s = .next t ∧ Keeps [.guar, .ch, .cal, .pod] s t ∧ t.cal.bucket = c ∧
       (∀ e ∈ t.cal.wheel, c + s.cal.win - 1 < bucketOf (e.refresh s).ball) ∧ (∀ e ∈ t.cal.ovfl, c + 65535 < bucketOf (e.refresh s).ball) ∧
       (∀ e ∈ s.cal.wheel, bucketOf (e.refresh s).ball ≤ c + s.cal.win - 1 → ∃ x ∈ t.pod[podOf e.rec_.ch].staging ++ t.pod[podOf e.rec_.ch].spill, x.ord = e.ord ∧ x.rec_ = e.rec_))) ∧
    (s.pod[p].armedAt < s.tick + 1 →
      (∀ e : Ev, (sortBy (urgentBefore (s.pod[p].fast ++ s.pod[p].commits)) (s.pod[p].fast ++ s.pod[p].commits)).head? = some e → podOf e.rec_.ch = p →
        ∃ t : State, exec (.armFast p f) s = .next t ∧ Keeps [.guar, .ch, .cal, .pod, .mem, .store, .mbx, .pcie, .sur, .free] s t ∧
          (∀ x ∈ t.pod[p].fast ++ t.pod[p].commits, x.ord ≠ e.ord) ∧
          (s.ch[e.rec_.ch].aborted = true → ∃ x ∈ t.pod[p].staging ++ t.pod[p].spill, x.ord = e.ord ∧ x.rec_ = e.rec_) ∧
          (∀ u : Unit4, s.ch[e.rec_.ch].aborted = false → freeUnit e.rec_.ch s = some u → t.pod[p].armedAt = s.tick + 1 ∧
            ∃ x : Ev, x.ord = e.ord ∧ x.rec_ = e.rec_ ∧ t.ch[e.rec_.ch].unit[u].cur = x.set)) ∧
      (∀ (e : Ev) (u : Unit4), stagedPick p s = some e → podOf e.rec_.ch = p → freeUnit e.rec_.ch s = some u →
        ∃ t : State, exec (.armStage p f) s = .next t ∧ Keeps [.ch, .pod, .mem, .store, .mbx, .pcie, .sur, .free] s t ∧
          (∀ x ∈ t.pod[p].staging ++ t.pod[p].spill, x.ord ≠ e.ord) ∧ t.pod[p].armedAt = s.tick + 1 ∧ t.ch[e.rec_.ch].unit[u].cur = e.set ∧
          (s.tick + 1 < e.actionTick → e.actionTick < s.tick + 2 ^ 47 →
            t.ch[e.rec_.ch].unit[u].active = e.set ∧ t.ch[e.rec_.ch].unit[u].live = true ∧ t.ch[e.rec_.ch].unit[u].owner = true ∧ t.ch[e.rec_.ch].unit[u].ev = some { e with committed := true }))) ∧
    (∃ t : State, exec (.retire p f) s = .next t ∧ Keeps [.pod, .mem, .store, .pcie, .free] s t ∧ OnlyPod p s t ∧
      t.pod[p].matched = s.pod[p].matched.filter (fun o => decide (s.tick < o.actLt / 32)) ∧
      (∀ o : Outcome, s.pod[p].matched.filter (fun o => decide (o.actLt / 32 ≤ s.tick)) = [o] →
        (let r := s.pod[p].res
         (o.wanted = false → t.pod[p].res = r ∧ t.store.mem = s.store.mem) ∧
         (o.wanted = true → r.base.getLsbD 63 = false → r.log2 ≠ 0 → (r.wr - r.rd).toNat < 2 ^ r.log2 → r.backlog = [] →
           t.pod[p].res = { r with wr := r.wr + 1, rseq := r.rseq + 1 } ∧ t.store.mem = memWrites (r.base.toNat + 16 * (r.wr.toNat % 2 ^ r.log2)) (o.rec_.bytes r.rseq) s.store.mem) ∧
         (o.wanted = true → (r.log2 = 0 ∨ 2 ^ r.log2 ≤ (r.wr - r.rd).toNat) → r.backlog.length + r.reserved < 4096 →
           t.pod[p].res = { r with backlog := r.backlog ++ [o.rec_] } ∧ t.store.mem = s.store.mem)))) ∧
    (∃ t : State, exec (.missedAtDue p) s = .next t ∧ Keeps [.cal, .pod, .mem, .store, .pcie] s t ∧ OnlyPod p s t ∧
      (∀ o ∈ t.pod[p].matched, s.tick < o.actLt / 32) ∧
      (∀ e ∈ t.cal.wheel ++ t.cal.ovfl, podOf e.rec_.ch = p → s.ch[e.rec_.ch].aborted = true → e.rec_.dom = 0 → s.tick < e.rec_.due / 32) ∧
      (∀ e : Ev, s.cal.wheel = [e] → e.rec_.dom = 0 → podOf e.rec_.ch = p → s.ch[e.rec_.ch].aborted = true → e.rec_.due / 32 ≤ s.tick → s.cal.ovfl = [] → s.cal.missed = [] →
        s.pod[p].staging = [] → s.pod[p].spill = [] → s.pod[p].fast = [] → s.pod[p].commits = [] → s.pod[p].matched = [] → s.pod[p].res.log2 = 0 → s.pod[p].res.backlog.length + s.pod[p].res.reserved < 4096 →
        t.pod[p].res.backlog = s.pod[p].res.backlog ++ [{ actLt := e.rec_.due, word := e.rec_.resWord, half := resHalf false true e.ambig e.advHeld 1 }]))

/-! ### Pods, rings and the store -/

/-- The pod's other routines: a pod line is noted, a configuration job switches the result ring and is answered with the counts it had, a corrected
control-store word is rewritten; a spilled capture goes to the pod's ring or, where that is full, is dropped and counted; a Pip feeder moves a word
between a FIFO and the store, but none in an abort or a freeze; a substitution step starts a shadow period, moves the named channel to the buoy, or
waits (R78, R79, R183, R192, R194, R197 to R199, R211, R292, R294, R296, R298). The model's own readings here: log entries 44, 45, 50, 84. -/
def Obligations.PodRoutines : Prop :=
  ∀ (p : Pod) (f : Fetch) (s : State),
    (∃ t : State, exec (.pline p) s = .next t ∧ Keeps [.pod, .free] s t ∧ OnlyPod p s t ∧ t.pod[p].res = s.pod[p].res ∧ t.pod[p].staging = s.pod[p].staging ∧
      (s.pod[p].plines = [] → t.pod[p].plines = [] ∧ t.pod[p].plineSeen = s.pod[p].plineSeen) ∧
      (∀ (i : Nat) (r : List Nat), s.pod[p].plines = i :: r → t.pod[p].plines = r ∧ t.pod[p].plineSeen = s.pod[p].plineSeen.raise s.tick (flag (i % 8) true))) ∧
    (∀ (b : CmdMbx) (l : Nat) (base : BitVec 64) (op cap : Nat) (seq : W) (body : List Byte), s.pod[p].job = some (.ring b l base) → s.mbx[cmdMbx b].phase = .running op seq cap body → s.pod[p].res.backlog = [] → s.pod[p].res.gapNow = 0 →
      ∃ t : State, exec (.cfg p f) s = .next t ∧ Keeps [.pod, .mbx, .free] s t ∧ OnlyPod p s t ∧ t.pod[p].job = none ∧
        t.pod[p].res = { s.pod[p].res with base := base, log2 := l, wr := 0, rd := 0 } ∧
        Answered b seq 0 0 (leBytes 4 s.pod[p].res.wr.toNat ++ leBytes 4 s.pod[p].res.rd.toNat ++ leBytes 8 (s.tick * 32)) s t) ∧
    (∀ a : Fin 4096, ∃ t : State, exec (.csRepair p a) s = .next t ∧ Keeps [.pod] s t ∧ OnlyPod p s t ∧
      t.pod[p] = { s.pod[p] with uc := { s.pod[p].uc with
        corr := s.pod[p].uc.corr.filter (fun x => x != a.val), flags := s.pod[p].uc.flags.raise s.tick 2, repCnt := s.pod[p].uc.repCnt.bump s.tick 1 65535 } }) ∧
    (∃ t : State, exec (.csBackgroundPass p) s = .next t ∧ Keeps [.pod] s t ∧ OnlyPod p s t ∧ t.pod[p] = { s.pod[p] with uc := { s.pod[p].uc with corr := [] } }) ∧
    (∀ (n : Ch) (e : CapE), (∀ m : Ch, podOf m = p → s.ch[m].cap.waiting = []) → s.pod[p].capQ = [(n, e)] → podOf n = p →
      (let r := s.store.ring[p]
       let log := fld r.size 0 5
       ∃ t : State, exec (.capSpill p) s = .next t ∧ Keeps [.ch, .pod, .mem, .store, .free] s t ∧ OnlyPod p s t ∧ t.pod[p].capQ = [] ∧
         ((r.wr - r.rd).toNat < 2 ^ log → t.store.mem = memWrites (r.base.toNat + 16 * (r.wr.toNat % 2 ^ log)) (e.bytes n (r.wr.toNat % 65536)) s.store.mem ∧
           t.store.ring[p] = { r with wr := r.wr + 1 } ∧ t.ch[n].cap.drops = s.ch[n].cap.drops) ∧
         (2 ^ log ≤ (r.wr - r.rd).toNat → t.store = s.store ∧ t.ch[n].cap.drops = s.ch[n].cap.drops.bump s.tick 1 255 ∧ t.ch[n].cap.flags.get 6 = true ∧ t.ch[n].cap.dropBefore = true))) ∧
    (∀ n : Ch,
      (let q := (s.pipNow n).ch[n].pip
       let d := feederOf n s
       (∀ drain : Bool, s.ch[n].aborted = true ∨ s.ch[n].frz = true → ∃ t : State, exec (.pipXfer n drain) s = .next t ∧ Keeps [.ch, .pod, .free] s t ∧ feederOf n t = d ∧ t.ch[n].pip = q) ∧
       (∀ w : W, s.ch[n].aborted = false → s.ch[n].frz = false → q.rxPod = true → q.r.rxf = [w] → d.drnLog ≠ 0 → (d.drnWr - d.drnRd).toNat < 2 ^ d.drnLog → s.store.isBad (d.drnBase.toNat + 4 * (d.drnWr.toNat % 2 ^ d.drnLog)) = false →
         ∃ t : State, exec (.pipXfer n true) s = .next t ∧ Keeps [.ch, .pod, .mem, .free] s t ∧ t.ch[n].pip.r.rxf = [] ∧ feederOf n t = { d with drnWr := d.drnWr + 1 } ∧
           t.store.mem = memWrites (d.drnBase.toNat + 4 * (d.drnWr.toNat % 2 ^ d.drnLog)) (leBytes 4 w.toNat) s.store.mem) ∧
       (s.ch[n].aborted = false → s.ch[n].frz = false → q.txPod = true → q.r.txf.length < 4 → d.feedLog ≠ 0 → d.feedWr = d.feedRd + 1 →
         s.store.isBad (d.feedBase.toNat + 4 * (d.feedRd.toNat % 2 ^ d.feedLog)) = false →
         ∃ t : State, exec (.pipXfer n false) s = .next t ∧ Keeps [.ch, .pod, .free] s t ∧ feederOf n t = { d with feedRd := d.feedRd + 1 } ∧
           t.ch[n].pip.r.txf = q.r.txf ++ [BitVec.ofNat 32 (leNat (memReads (d.feedBase.toNat + 4 * (d.feedRd.toNat % 2 ^ d.feedLog)) 4 s.store.mem))]))) ∧
    (let h := s.health.pod[p]
     (s.pod[p].substReq = none → ∃ t : State, exec (.substStep p) s = .next t ∧ Keeps [.pod, .free] s t) ∧
     (s.pod[p].substReq = some .quarantineTest → ∃ t : State, exec (.substStep p) s = .next t ∧ Keeps [.pod, .health, .free] s t ∧ t.pod[p].substReq = none ∧ t.health.pod[p] = { h with testing := true }) ∧
     (∀ n : Ch, s.pod[p].substReq = some .shadowStart → h.shadowEn = true → h.buoy ≠ 31 → nextShadow p s = some n → ∃ t : State, exec (.substStep p) s = .next t ∧ Keeps [.pod, .health, .free] s t ∧
       t.pod[p].substReq = none ∧ t.health.pod[p] = { h with shadowing := true, shadowCh := n.val % 16, rot := (n.val + 1) % 16 }) ∧
     (∀ u : Nat, s.pod[p].substReq = some .buoyReturn → h.suspect = some u → ∃ t : State, exec (.substStep p) s = .next t ∧ Keeps [.pod, .health, .free] s t ∧
       t.pod[p].substReq = none ∧ t.health.pod[p].buoy = u ∧ t.health.pod[p].suspect = none ∧ t.health.pod[p].evt.get 3 = true) ∧
     (∀ (ts : Nat) (output : Bool), s.pod[p].substReq = some .takeover → h.takeover = some (ts, output) →
       (let n := chOf p h.shadowCh
        let i : Fin 16 := ⟨h.shadowCh % 16, by omega⟩
        (s.tick + 1 < ts ∨ s.ch[n].aborted = true ∨ s.ch[n].frz = true ∨ s.fw.keeperUp = false → ∃ t : State, exec (.substStep p) s = .next t ∧ Keeps [.pod, .free] s t ∧ t.pod[p].substReq = s.pod[p].substReq) ∧
        (ts ≤ s.tick + 1 → s.ch[n].aborted = false → s.ch[n].frz = false → s.fw.keeperUp = true → ∃ t : State, exec (.substStep p) s = .next t ∧ Keeps [.ch, .pod, .mbx, .health, .free] s t ∧
          t.ch[n] = { s.ch[n] with subst := true } ∧ OnlyCh n s t ∧ t.health.sum.get 5 = true ∧ t.pod[p].substReq = some .quarantineTest ∧
          t.health.pod[p] = { h with
            shadowing := false, takeover := none, unitOf := h.unitOf.set i.val h.buoy, suspect := some h.unitOf[i], buoy := 31, spacing := true, lastTs := (s.tick + 1) * 32
            evt := h.evt.raise s.tick 2, takes := h.takes.bump s.tick 1 255, rot := (h.shadowCh + 1) % 16 }))))

/-- A read pointer, of a result ring, a feeder's drain or a capture ring, moves forward by at most what the ring holds, and a feed write pointer by at
most the room; any other write leaves it and sets its error flag. A capture ring's size changes only while the ring is idle. The backlog moves into a
ring that has room, and records that were lost are told by one gap record (R182, R183, R198, R211, R212). The model's own readings here: log entry 84. -/
def Obligations.RingPointers : Prop :=
  ∀ (p : Pod) (n : Ch) (w : W) (s : State),
    (let r := s.pod[p].res
     ∃ t : State, exec (.resRdWrite p w) s = .next t ∧ Keeps [.pod] s t ∧ OnlyPod p s t ∧
       t.pod[p] = (if (w - r.rd).toNat ≤ (r.wr - r.rd).toNat then { s.pod[p] with res := { r with rd := w } } else { s.pod[p] with res := { r with flags := r.flags.raise s.tick 0x40000 } })) ∧
    (let d := feederOf n s
     let ok := (w - d.feedWr).toNat ≤ 2 ^ d.feedLog - (d.feedWr - d.feedRd).toNat
     ∃ t : State, exec (.feedWrWrite n w) s = .next t ∧ Keeps [.pod] s t ∧ OnlyPod (podOf n) s t ∧
       (ok → feederOf n t = { d with feedWr := w } ∧ t.pod[podOf n].pfErr = s.pod[podOf n].pfErr) ∧ (¬ ok → feederOf n t = d ∧ t.pod[podOf n].pfErr.get (n.val % 16) = true) ∧
       (∀ m : Ch, m ≠ n → feederOf m t = feederOf m s)) ∧
    (let d := feederOf n s
     let ok := (w - d.drnRd).toNat ≤ (d.drnWr - d.drnRd).toNat
     ∃ t : State, exec (.drnRdWrite n w) s = .next t ∧ Keeps [.pod] s t ∧ OnlyPod (podOf n) s t ∧
       (ok → feederOf n t = { d with drnRd := w } ∧ t.pod[podOf n].pfErr = s.pod[podOf n].pfErr) ∧ (¬ ok → feederOf n t = d ∧ t.pod[podOf n].pfErr.get (n.val % 16) = true) ∧
       (∀ m : Ch, m ≠ n → feederOf m t = feederOf m s)) ∧
    (let r := s.store.ring[p]
     (∃ t : State, exec (.capRingRdWrite p w) s = .next t ∧ Keeps [.ch, .store] s t ∧
       ((w - r.rd).toNat ≤ (r.wr - r.rd).toNat → t.store.ring[p] = { r with rd := w } ∧ t.store.errFlags = s.store.errFlags) ∧
       ((r.wr - r.rd).toNat < (w - r.rd).toNat → t.store = { s.store with errFlags := s.store.errFlags.raise s.tick 0x40 } ∧ t.ch = s.ch) ∧
       (∀ q : Pod, q ≠ p → t.store.ring[q] = s.store.ring[q])) ∧
     (∃ t : State, exec (.capRingConfigWrite p true w) s = .next t ∧ Keeps [.store] s t ∧ t.store.ring[p].base = r.base ∧ t.store.ring[p].wr = r.wr ∧ t.store.ring[p].rd = r.rd ∧
       fld t.store.ring[p].size 8 16 = (if fld w 8 16 = 0 then 1 else fld w 8 16) ∧
       (capIdle p s = true → 8 ≤ fld w 0 5 → fld w 0 5 ≤ 16 → capPlaceOk r.base.toNat (fld w 0 5) = true → fld t.store.ring[p].size 0 5 = fld w 0 5 ∧ t.store.errFlags = s.store.errFlags) ∧
       (capIdle p s = false → fld w 0 5 ≠ fld r.size 0 5 → fld t.store.ring[p].size 0 5 = fld r.size 0 5 ∧ t.store.errFlags = s.store.errFlags.raise s.tick 0x20)) ∧
     (∃ t : State, exec (.capRingConfigWrite p false w) s = .next t ∧ Keeps [.store] s t ∧
       (capIdle p s = true → capPlaceOk (w &&& 0x3FFFFF0).toNat (fld r.size 0 5) = true → t.store.ring[p] = { r with base := w &&& 0x3FFFFF0 } ∧ t.store.errFlags = s.store.errFlags) ∧
       (capIdle p s = false ∨ capPlaceOk (w &&& 0x3FFFFF0).toNat (fld r.size 0 5) = false → t.store = { s.store with errFlags := s.store.errFlags.raise s.tick 0x20 }))) ∧
    (let r := s.pod[p].res
     (r.gapNow = 0 → r.log2 = 0 ∨ 2 ^ r.log2 ≤ (r.wr - r.rd).toNat → exec (.backlogDrain p) s = .next s) ∧
     (∀ x : ResRec, r.gapNow = 0 → r.backlog = [x] → r.log2 ≠ 0 → (r.wr - r.rd).toNat < 2 ^ r.log2 → r.base.getLsbD 63 = false → ∃ t : State, exec (.backlogDrain p) s = .next t ∧ Keeps [.pod, .mem, .store] s t ∧ OnlyPod p s t ∧
       t.pod[p].res = { r with backlog := [], wr := r.wr + 1, rseq := r.rseq + 1 } ∧ t.store.mem = memWrites (r.base.toNat + 16 * (r.wr.toNat % 2 ^ r.log2)) (x.bytes r.rseq) s.store.mem) ∧
     (r.gapNow ≠ 0 → r.log2 = 0 → r.backlog.length + r.reserved < 4096 → ∃ t : State, exec (.backlogDrain p) s = .next t ∧ Keeps [.pod] s t ∧ OnlyPod p s t ∧
       t.pod[p].res = { r with gapNow := 0, backlog := r.backlog ++ [{ actLt := s.time.lt, word := lo32 r.gapNow, half := 2 }] }))

/-- One cycle of a bank grants one request: of two not guarded the lower master, while the other counts a lost cycle; a read returns the word, a write
stores its bytes and no other, a word with an uncorrectable error is reported and a partial write to it is discarded; the second cycle of a
read-modify-write grants none (R214 to R218). A corrected word is written back. The host's window reads and writes the bytes it may, refuses the
others, and waits for a closed segment (R222, R223). The model's own readings here: log entries 47, 84. -/
def Obligations.StoreAccesses : Prop :=
  ∀ (bank : Fin 96) (s : State),
    (∀ r : StoreReq, reqOk bank s r = true → bankBusy bank.val s = false →
      ∃ t : State, exec (.storeAccess bank [r]) s = .next t ∧ Keeps [.cal, .pod, .mem, .store, .mbx, .health, .free] s t ∧ t.store.arb[r.master].run = 0 ∧ t.store.arb[r.master].guarded = none ∧ t.store.cycle = s.store.cycle + 1 ∧
        (∀ d : List Byte, r.op = .write d → t.store.mem = memWrites r.offset (mergeWord (memReads r.offset 16 s.store.mem) (d.map some)) s.store.mem ∧ MemSameBut r.offset 16 s t ∧ Keeps [.mem, .store] s t) ∧
        (r.op = .read → r.ecc = .clean → t.store.mem = s.store.mem ∧ t.store.arb[r.master].rdata = memReads r.offset 16 s.store.mem ∧ t.store.arb[r.master].rerr = false ∧ Keeps [.store] s t) ∧
        (r.op = .read → r.ecc = .double → 9 ≤ r.master.val → t.store.mem = s.store.mem ∧ t.store.arb[r.master].rerr = true ∧ t.store.errFlags = s.store.errFlags.raise s.tick 2 ∧
          t.store.errMaster = BitVec.ofNat 5 r.master.val ∧ t.store.errAddr = BitVec.ofNat 32 (r.offset / 16 * 16) ∧ t.store.ueCnt = s.store.ueCnt.bump s.tick 1 65535 ∧ t.health.sum.get 8 = true) ∧
        (∀ bs : List (Option Byte), r.op = .partialWrite bs → r.ecc = .double → t.store.mem = s.store.mem ∧ t.store.errFlags = s.store.errFlags.raise s.tick 4) ∧
        (∀ bs : List (Option Byte), r.op = .partialWrite bs → r.ecc ≠ .double → t.store.mem = memWrites r.offset (mergeWord (memReads r.offset 16 s.store.mem) bs) s.store.mem ∧ MemSameBut r.offset 16 s t)) ∧
    (∀ r q : StoreReq, reqOk bank s r = true → reqOk bank s q = true → bankBusy bank.val s = false → r.master < q.master → s.store.arb[r.master].guarded = none → s.store.arb[q.master].guarded = none → r.op = .read → r.ecc = .clean →
      ∃ t : State, exec (.storeAccess bank [q, r]) s = .next t ∧ Keeps [.store] s t ∧ t.store.mem = s.store.mem ∧ t.store.arb[r.master].rdata = memReads r.offset 16 s.store.mem ∧
        t.store.arb[q.master].run = s.store.arb[q.master].run + 1 ∧ t.store.arb[q.master].conf = s.store.arb[q.master].conf.bump s.tick 1 0xFFFFFFFF ∧ t.store.arb[q.master].rdata = s.store.arb[q.master].rdata) ∧
    (∀ reqs : List StoreReq, bankBusy bank.val s = true → ∃ t : State, exec (.storeAccess bank reqs) s = .next t ∧ Keeps [.store] s t ∧ t.store.mem = s.store.mem ∧ ∀ m : Fin 25, t.store.arb[m].rdata = s.store.arb[m].rdata ∧ t.store.arb[m].run = s.store.arb[m].run) ∧
    (∀ a : Nat, ∃ t : State, exec (.ceWriteback a) s = .next t ∧ t = { s with store := { s.store with corr := s.store.corr.filter (fun x => x != a / 16 * 16) } }) ∧
    (reaches .pcie s = true → s.store.held = [] → s.store.bad = [] →
      (∀ a n : Nat, closedSegs (winOffsets (.read a n)) s = [] → ∃ t : State, exec (.bar2Access (.read a n)) s = .next t ∧ Keeps [.store] (found .pcie s) t ∧ t.store.mem = s.store.mem ∧
        t.store.arb[(22 : Fin 25)].rdata = (List.range n).map (fun i => if winReads (a + i) s then memRead (a + i) s.store.mem else 0)) ∧
      (∀ (a : Nat) (bs : List (Option Byte)), closedSegs (winOffsets (.write a bs)) s = [] → ∃ t : State, exec (.bar2Access (.write a bs)) s = .next t ∧ Keeps [.mem, .store] (found .pcie s) t ∧ MemSameBut a bs.length s t ∧
        (∀ (i : Nat) (v : Byte), bs[i]? = some (some v) → memRead (a + i) t.store.mem = if winWrites (a + i) s then v else memRead (a + i) s.store.mem) ∧
        (∀ i : Nat, bs[i]? = some none → memRead (a + i) t.store.mem = memRead (a + i) s.store.mem) ∧
        (∀ (i : Nat) (v : Byte), bs[i]? = some (some v) → winWrites (a + i) s = false → t.store.errFlags.get 4 = true)) ∧
      (∀ x : WinAccess, closedSegs (winOffsets x) s ≠ [] → ∃ t : State, exec (.bar2Access x) s = .next t ∧ Keeps [.store] (found .pcie s) t ∧ t.store.mem = s.store.mem ∧ t.store.held = [.bar2Access x] ∧
        (∀ g ∈ closedSegs (winOffsets x) s, t.store.waking.getLsbD g.val = true ∧ t.store.retFlags.get (16 + g.val) = true)))

/-- STORE_RETAIN of one segment is refused with SEG_BUSY, or closes it and waits; RETENTION_DONE retains it, or takes the wake that came meanwhile, and
answers the command; an access wakes it, and SEGMENT_WAKE_DONE opens it and makes the access that waited (R220 to R222). A scrub pass counts the
errors it finds, and one that is due while the last runs starts when that one is done (R217, R219). The model's own readings here: log entries 41, 58. -/
def Obligations.RetentionAndScrubbing : Prop :=
  ∀ (g : Seg) (s : State),
    (∀ (b : CmdMbx) (seq : W) (body : List Byte), CmdRuns b 0x58 seq body s → s.store.jobs.any (fun j => j.b == b) = false →
      ∃ t : State, exec (.storeRetain b) s = .next t ∧ Keeps [.store, .mbx, .free] s t ∧ t.store.mem = s.store.mem ∧
        (64 ≤ u32 0 body → t.store = s.store ∧ Answered b seq 5 0 [] s t) ∧
        (u32 0 body < 64 → 64 ≤ u32 4 body → t.store = s.store ∧ Answered b seq 5 4 [] s t) ∧
        (u32 0 body = 2 ^ g.val → u32 4 body = 0 → segOpen g.val s = true →
          (retainRefused g.val s = true → t.store = { s.store with retFlags := s.store.retFlags.raise s.tick 0x1000000 } ∧ Answered b seq 0x28 (2 ^ g.val) (leBytes 4 (2 ^ g.val)) s t) ∧
          (retainRefused g.val s = false → segOpen g.val t = false ∧ t.store.retained.getLsbD g.val = false ∧ t.mbx = s.mbx ∧
            (∀ h : Seg, h ≠ g → t.store.transit.getLsbD h.val = s.store.transit.getLsbD h.val ∧ t.store.retained.getLsbD h.val = s.store.retained.getLsbD h.val)))) ∧
    (let x := s.store
     (x.transit.getLsbD g.val = true → x.retained.getLsbD g.val = false → ∃ t : State, exec (.retentionDone g) s = .next t ∧ Keeps [.store, .mbx] s t ∧ t.store.mem = x.mem ∧ t.store.retained.getLsbD g.val = true ∧
       t.store.transit.getLsbD g.val = x.waking.getLsbD g.val ∧
       (∀ (b : CmdMbx) (op cap : Nat) (seq : W) (body : List Byte), x.waking.getLsbD g.val = false → x.jobs = [{ b := b, wait := BitVec.ofNat 6 (2 ^ g.val), refused := 0 }] → s.mbx[cmdMbx b].phase = .running op seq cap body →
         t.store.jobs = [] ∧ Answered b seq 0 0 (leBytes 4 0) s t)) ∧
     (x.transit.getLsbD g.val = false ∨ x.retained.getLsbD g.val = true → exec (.retentionDone g) s = .next s) ∧
     (∀ m : Fin 25, 17 ≤ m.val → (18 ≤ m.val → m.val ≤ 21 → 2 ≤ g.val) →
       (segOpen g.val s = true → exec (.segmentAutoWake m g) s = .next s) ∧
       (segOpen g.val s = false → ∃ t : State, exec (.segmentAutoWake m g) s = .next t ∧ Keeps [.store] s t ∧ t.store.mem = x.mem ∧ t.store.transit.getLsbD g.val = true ∧ t.store.waking.getLsbD g.val = true ∧
         t.store.retained = x.retained ∧ t.store.retFlags = x.retFlags.raise s.tick (flag (16 + g.val) true))) ∧
     (let due := x.transit.getLsbD g.val = true ∧ x.retained.getLsbD g.val = true ∧ x.waking.getLsbD g.val = true
      (¬ due → exec (.segmentWakeDone g) s = .next s) ∧
      (due → x.jobs = [] → x.heldQ = [] →
        (x.held = [] → ∃ t : State, exec (.segmentWakeDone g) s = .next t ∧ Keeps [.store] s t ∧ t.store.mem = x.mem ∧ segOpen g.val t = true ∧ (∀ h : Seg, h ≠ g → segOpen h.val t = segOpen h.val s)) ∧
        (∀ a n : Nat, x.held = [.bar2Access (.read a n)] → (∀ i < n, segOf (a + i) = g.val) → x.bad = [] → ∃ t : State, exec (.segmentWakeDone g) s = .next t ∧ Keeps [.store] s t ∧ t.store.mem = x.mem ∧ segOpen g.val t = true ∧
          t.store.held = [] ∧ t.store.arb[(22 : Fin 25)].rdata = (List.range n).map (fun i => if winReads (a + i) s then memRead (a + i) x.mem else 0)))) ∧
     (x.scrubbing = true → ∀ l : List (Nat × Ecc), ∃ t : State, exec (.scrubPassStart l) s = .next t ∧ t = { s with store := { x with scrubLate := true, scrub := x.scrub.raise s.tick 0x20000 } }) ∧
     (x.scrubbing = false → exec .scrubPassDone s = .next s) ∧
     (x.scrubbing = false → x.bad = [] →
       (∃ t : State, exec (.scrubPassStart []) s = .next t ∧ t = { s with store := { x with scrubbing := true } }) ∧
       (∀ a : Nat, a < 0x3000000 → segOpen (segOf a) s = true → ∃ t : State, exec (.scrubPassStart [(a, .single)]) s = .next t ∧ Keeps [.store] s t ∧ t.store.mem = x.mem ∧ t.store.errFlags = x.errFlags.raise s.tick 1 ∧
         t.store.ceCnt = x.ceCnt.bump s.tick 1 65535 ∧ a / 16 * 16 ∈ t.store.corr) ∧
       (∀ a : Nat, a < 0x3000000 → segOpen (segOf a) s = true → isCalSeg (segOf a) s = false → ∃ t : State, exec (.scrubPassStart [(a, .double)]) s = .next t ∧ Keeps [.store, .health, .mbx, .free] s t ∧ t.store.mem = x.mem ∧
         t.store.errFlags = x.errFlags.raise s.tick 8 ∧ t.store.errMaster = 31 ∧ t.store.ueCnt = x.ueCnt.bump s.tick 1 65535 ∧ t.store.isBad a = true ∧ t.health.sum.get 8 = true)) ∧
     (x.scrubbing = true → x.bad = [] → ∃ t : State, exec .scrubPassDone s = .next t ∧ t = { s with store := { x with
       scrubbing := x.scrubLate, scrubLate := false, passCnt := x.passCnt + 1, scrub := x.scrub.raise s.tick 0x10000 } }))

/-! ### Interrupts -/

/-- A rise of a source's line, and a bit written to PSET, set the source's pending bit, or are counted as coalesced where it is set; a write to PEND
clears the bits written as 1 but those set in that tick; a locked group refuses all but the Keeper with CFG_ERR (R229, R230, R245). A write of a
source's configuration keeps the Keeper's mask bit, and in a locked group the level (R239, R245); only the Keeper locks a group; an expired hold-off
ends (R238). After each, every target is offered the eligible pending source of highest level, then lowest number (R231, R232). The model's own
readings here: log entry 52. -/
def Obligations.InterruptSources : Prop :=
  ∀ (i : Src) (g : Grp) (m : Master) (w : W) (s : State),
    (let pends (t : State) (j : Src) : Prop := t.eic.pend.getLsbD j.val = true
     let lvl (t : State) (j : Src) : Nat := fld t.eic.src[j] 0 4
     let offers (t : State) : Prop := ∀ u : Tgt,
       (t.eic.tgt[u].offered = none → ∀ j : Src, pends t j → eligible j u t = false) ∧
       (∀ k : Nat, t.eic.tgt[u].offered = some k → ∃ j : Src, j.val = k ∧ pends t j ∧ eligible j u t = true ∧
         ∀ x : Src, pends t x → eligible x u t = true → lvl t x < lvl t j ∨ (lvl t x = lvl t j ∧ j.val ≤ x.val))
     let locked : Prop := bit s.eic.grp[g].cfg 1 = true ∧ m ≠ .keeper
     (∃ t : State, exec (.eicLineEdge i) s = .next t ∧ Keeps [.eic] s t ∧ offers t ∧ t.eic.prev.getLsbD i.val = line s i ∧
       (∀ j : Src, j ≠ i → t.eic.prev.getLsbD j.val = s.eic.prev.getLsbD j.val ∧ t.eic.pend.getLsbD j.val = s.eic.pend.getLsbD j.val) ∧
       t.eic.pend.getLsbD i.val = (s.eic.pend.getLsbD i.val || (line s i && !s.eic.prev.getLsbD i.val)) ∧ t.eic.src = s.eic.src ∧
       (line s i = true → s.eic.prev.getLsbD i.val = false → s.eic.pend.getLsbD i.val = true → t.eic.grp[grpOf i] = { s.eic.grp[grpOf i] with coalesce := s.eic.grp[grpOf i].coalesce.bump s.tick 1 255 }) ∧
       (line s i = false ∨ s.eic.prev.getLsbD i.val = true ∨ s.eic.pend.getLsbD i.val = false → t.eic.grp = s.eic.grp)) ∧
     (served m (.eicPsetWrite m g w) s = true → ∃ t : State, exec (.eicPsetWrite m g w) s = .next t ∧ Keeps [.eic] (found m s) t ∧
       (locked → t.eic = { s.eic with flags := s.eic.flags.raise s.tick 1 }) ∧
       (¬ locked → offers t ∧ t.eic.src = s.eic.src ∧ ∀ j : Src, t.eic.pend.getLsbD j.val = (s.eic.pend.getLsbD j.val || (grpOf j == g && bit w (j.val % 32))))) ∧
     (served m (.eicPendClear m g w) s = true → ∃ t : State, exec (.eicPendClear m g w) s = .next t ∧ Keeps [.eic] (found m s) t ∧
       (locked → t.eic = { s.eic with flags := s.eic.flags.raise s.tick 1 }) ∧
       (¬ locked → offers t ∧ t.eic.src = s.eic.src ∧ t.eic.grp = s.eic.grp ∧ ∀ j : Src, t.eic.pend.getLsbD j.val =
         (s.eic.pend.getLsbD j.val && (!(grpOf j == g && bit w (j.val % 32)) || (decide (s.eic.stamp = s.tick) && (s.eic.fresh.getLsbD j.val || s.eic.again.getLsbD j.val)))))) ∧
     (served m (.srcCfgWrite m i w) s = true → ∃ t : State, exec (.srcCfgWrite m i w) s = .next t ∧ Keeps [.eic] (found m s) t ∧ offers t ∧ t.eic.pend = s.eic.pend ∧ t.eic.grp = s.eic.grp ∧
       (∀ j : Src, j ≠ i → t.eic.src[j] = s.eic.src[j]) ∧ fld t.eic.src[i] 16 5 = fld w 16 5 ∧ fld t.eic.src[i] 9 6 = fld w 9 6 ∧
       fld t.eic.src[i] 8 1 = (if m = .keeper then fld w 8 1 else fld s.eic.src[i] 8 1) ∧
       fld t.eic.src[i] 0 4 = (if bit s.eic.grp[grpOf i].cfg 1 = true ∧ m ≠ .keeper then fld s.eic.src[i] 0 4 else fld w 0 4)) ∧
     (served m (.groupLock m g) s = true →
       (m = .keeper → ∃ t : State, exec (.groupLock m g) s = .next t ∧ Keeps [.eic] s t ∧ t.eic = { s.eic with grp := t.eic.grp } ∧ t.eic.grp[g] = { s.eic.grp[g] with cfg := s.eic.grp[g].cfg ||| 2 } ∧
         ∀ h : Grp, h ≠ g → t.eic.grp[h] = s.eic.grp[h]) ∧
       (m.watch = none → m ≠ .keeper → exec (.groupLock m g) s = .next (found m s)) ∧
       (∀ c : Fin 4, m.watch = some c → ∃ t : State, exec (.groupLock m g) s = .next t ∧ t.eic.grp = s.eic.grp ∧ t.health.sum.get 14 = true ∧ Keeps [.eic, .mbx, .fw, .health, .sur, .free] s t)) ∧
     (holding g s = true → exec (.holdoffExpire g) s = .next s) ∧
     (holding g s = false → ∃ t : State, exec (.holdoffExpire g) s = .next t ∧ Keeps [.eic] s t ∧ offers t ∧ t.eic.grp[g] = { s.eic.grp[g] with hold := none } ∧ t.eic.pend = s.eic.pend ∧ t.eic.src = s.eic.src ∧
       ∀ h : Grp, h ≠ g → t.eic.grp[h] = s.eic.grp[h]))

/-- A claim by the target's owner returns the source offered at the decision of that boundary, clears its pending bit, stacks its level and starts its
group's hold-off; with no offer it returns SPURIOUS and counts it; any other master reads SPURIOUS and sets OWN_ERR. An end of interrupt pops the
stack, and sets EOI_ERR where it is empty (R233, R235, R238, R244). Unmasking an MSI-X vector clears its pending bit, and sends the message where the
host is still offered a source of it (R241). The model's own readings here: log entry 51. -/
def Obligations.InterruptClaims : Prop :=
  ∀ (m : Master) (u : Tgt) (s : State),
    (reaches m s = true →
      (m.idx.val = u.val → ∀ i : Src, offerTo u [] s.deliver = some i → ∃ t : State, exec (.claim [(m, u)]) s = .next t ∧ Keeps [.eic, .master] (found m s) t ∧ OnlyMaster m s t ∧
        t.master[m.idx] = { s.master[m.idx] with rdata := BitVec.ofNat 32 i.val } ∧ t.eic.tgt[u].stack = fld s.eic.src[i] 0 4 :: s.eic.tgt[u].stack ∧ t.eic.src = s.eic.src ∧
        (∀ j : Src, j ≠ i → t.eic.pend.getLsbD j.val = s.eic.pend.getLsbD j.val) ∧ (s.eic.stamp ≠ s.tick → t.eic.pend.getLsbD i.val = false) ∧
        (fld s.eic.grp[grpOf i].cfg 16 16 ≠ 0 → t.eic.grp[grpOf i].hold = some (s.tick + fld s.eic.grp[grpOf i].cfg 16 16 * 512)) ∧ (∀ v : Tgt, v ≠ u → t.eic.tgt[v].stack = s.eic.tgt[v].stack)) ∧
      (m.idx.val = u.val → offerTo u [] s.deliver = none → ∃ t : State, exec (.claim [(m, u)]) s = .next t ∧ Keeps [.eic, .master] (found m s) t ∧
        t.master[m.idx] = { s.master[m.idx] with rdata := 0x8000 } ∧ t.eic.tgt[u].spur = s.eic.tgt[u].spur.bump s.tick 1 255 ∧ t.eic.tgt[u].stack = s.eic.tgt[u].stack ∧ t.eic.pend = s.eic.pend) ∧
      (m.idx.val ≠ u.val → ∃ t : State, exec (.claim [(m, u)]) s = .next t ∧ Keeps [.eic, .master] (found m s) t ∧ t.master[m.idx] = { s.master[m.idx] with rdata := 0x8000 } ∧
        t.eic.tgt[u].stack = s.eic.tgt[u].stack ∧ t.eic.pend = s.eic.pend ∧ (m ≠ .debug → t.eic.tgt[u].flags.get 4 = true))) ∧
    (served m (.eoi m u) s = true → ∃ t : State, exec (.eoi m u) s = .next t ∧ Keeps [.eic] (found m s) t ∧ t.eic.pend = s.eic.pend ∧
      (∀ (l : Nat) (r : List Nat), m.idx.val = u.val → s.eic.tgt[u].stack = l :: r → t.eic.tgt[u].stack = r) ∧
      (m.idx.val = u.val → s.eic.tgt[u].stack = [] → t.eic.tgt[u] = { s.eic.tgt[u] with flags := s.eic.tgt[u].flags.raise s.tick 8 }) ∧
      (m.idx.val ≠ u.val → t.eic.tgt[u].stack = s.eic.tgt[u].stack ∧ (m ≠ .debug → t.eic.tgt[u] = { s.eic.tgt[u] with flags := s.eic.tgt[u].flags.raise s.tick 0x10 })) ∧
      (∀ v : Tgt, v ≠ u → t.eic.tgt[v].stack = s.eic.tgt[v].stack)) ∧
    (∀ v : Fin 32, ∃ t : State, exec (.msixUnmask v) s = .next t ∧ Keeps [.eic] s t ∧ t.eic.msix[v] = { s.eic.msix[v] with ctrl := s.eic.msix[v].ctrl &&& ~~~1#32 } ∧
      bit t.eic.pba v.val = false ∧ (∀ x : Fin 32, x ≠ v → t.eic.msix[x] = s.eic.msix[x] ∧ bit t.eic.pba x.val = bit s.eic.pba x.val) ∧
      (∀ i : Src, bit s.eic.pba v.val = true → s.eic.tgt[(5 : Tgt)].offered = some i.val → fld s.eic.src[i] 16 5 = v.val → s.pcie.msix = true → t.eic.sent = v.val :: s.eic.sent) ∧
      (bit s.eic.pba v.val = false → t.eic.sent = s.eic.sent))

/-! ### The host link -/

/-- The PCI Express function: the link comes up only with PERST_n high and the core reset released, and goes down; a configuration request without a link
does nothing, is retried until the boot is done, and else sets what it writes or returns the identity (R247, R248, R250). PERST_n low, a hot reset, a
Function Level Reset and a drop of its rails reset the function, the host's locks, its interrupt table and its waiting accesses (R249, R340). The
model's own readings here: log entry 59. -/
def Obligations.PcieFunction : Prop :=
  ∀ s : State,
    (let p := s.pcie
     let cleared (t : State) : Prop := Keeps [.store, .eic, .mbx, .pcie, .pwr] s t ∧ t.store = { s.store with held := [] } ∧ t.pwr = { s.pwr with held := [] } ∧
       t.eic.msix = Vector.replicate 32 {} ∧ t.eic.pba = 0 ∧ t.eic.tgt[(5 : Tgt)].stack = [] ∧ t.eic.tgt[(5 : Tgt)].thr = 0 ∧ t.eic.tgt[(5 : Tgt)].sleep = false ∧
       t.pcie.bme = false ∧ t.pcie.d3hot = false ∧ t.pcie.msix = false ∧ t.pcie.msi = none ∧ t.pcie.out = p.out ∧ (∀ b : Mbx, t.mbx[b].owner = if s.mbx[b].owner = 6 then 0 else s.mbx[b].owner)
     (∀ (x2 : Bool) (v : LinkSpeed), (p.perst = true ∨ s.boot.held = true → exec (.linkUp x2 v) s = .next s) ∧
       (p.perst = false → s.boot.held = false → ∃ t : State, exec (.linkUp x2 v) s = .next t ∧ Keeps [.eic, .pcie] s t ∧ t.pcie = { p with up := true, width2 := x2, speed := speedCode v })) ∧
     (∃ t : State, exec .linkDown s = .next t ∧ Keeps [.eic, .pcie] s t ∧ t.pcie = { p with up := false, width2 := false, speed := 0 }) ∧
     (∀ r : CfgReq, (p.up = false → exec (.configRequest r) s = .next s) ∧
       (p.up = true → cfgRetried s = true → exec (.configRequest r) s = .next { s with pcie := { p with retried := true } }) ∧
       (p.up = true → cfgRetried s = false → s.pwr.mode ≠ 0 → ∃ t : State, exec (.configRequest r) s = .next t ∧ Keeps [.pcie, .pwr] s t ∧ t.pwr.held = s.pwr.held ++ [.configRequest r] ∧ t.pcie = { p with retried := false }) ∧
       (p.up = true → cfgRetried s = false → s.pwr.mode = 0 → ∃ t : State, exec (.configRequest r) s = .next t ∧ Keeps [.master, .eic, .pcie] s t ∧
         (r = .readId → t.master[Master.pcie.idx] = { s.master[Master.pcie.idx] with rdata := 0x61281BAE } ∧ OnlyMaster .pcie s t ∧ t.pcie = { p with retried := false }) ∧
         (r ≠ .readId → t.master = s.master) ∧
         (∀ on : Bool, (r = .busMaster on → t.pcie = { p with retried := false, bme := on }) ∧ (r = .d3hot on → t.pcie = { p with retried := false, d3hot := on }) ∧
           (r = .pmeEnable on → t.pcie = { p with retried := false, pmeEn := on }) ∧ (r = .msixEnable on → t.pcie = { p with retried := false, msix := on })) ∧
         (∀ k : Fin 6, r = .msiEnable false k → t.pcie = { p with retried := false, msi := none }) ∧ (∀ k : Fin 6, r = .msiEnable true k → t.pcie = { p with retried := false, msi := some k.val }) ∧
         (∀ k : Fin 2, r = .maxPayload k → t.pcie = { p with retried := false, maxPay := k.val }) ∧ (∀ k : Fin 3, r = .maxReadReq k → t.pcie = { p with retried := false, maxReq := k.val }) ∧
         (∀ e : BitVec 4, r = .complTimeout e → t.pcie = { p with retried := false, tmoEnc := e }))) ∧
     (∃ t : State, exec (.perstN true) s = .next t ∧ cleared t ∧ t.pcie.up = false ∧ t.pcie.perst = true) ∧
     (p.perst = true → exec (.perstN false) s = .next { s with pcie := { p with perst := false, since := s.tick } }) ∧
     (p.perst = false → exec (.perstN false) s = .next s) ∧
     (p.up = false → exec .hotReset s = .next s ∧ exec .functionLevelReset s = .next s) ∧
     (p.up = true → ∃ t : State, exec .hotReset s = .next t ∧ cleared t ∧ t.pcie.up = false ∧ t.pcie.perst = p.perst) ∧
     (p.up = true → ∃ t : State, exec .functionLevelReset s = .next t ∧ cleared t ∧ t.pcie.up = true ∧ t.pcie.width2 = p.width2 ∧ t.pcie.speed = p.speed ∧ t.pcie.perst = p.perst) ∧
     (∀ vddh : Bool, ∃ t : State, exec (.peRailDrop vddh) s = .next t ∧ cleared t ∧ t.pcie.up = false ∧ t.pcie.perst = p.perst))

/-- A completion for DMA channel 0 adds its records to those of the first command that fetches; one for channel 1 adds to the block being fetched; a
failed read sets ERR of its channel and ends that command (R251, R252). A QSPI status transaction returns the status byte and an unknown opcode sets
BAD_OP; a read returns the bytes of the window or the word of the register, 0xFF where a word is late or the device sleeps; a write stores the bytes
of whole words, and waits for a closed segment (R222, R225, R253 to R256, R357). The model's own readings here: log entries 60, 70. -/
def Obligations.DmaAndQspi : Prop :=
  ∀ s : State,
    (∀ (c : Fin 4) (data : List Byte), dmaReads s = false ∨ 2 ≤ c.val → exec (.dmaCompletion c data) s = .next s ∧ exec (.dmaCompletionTimeout c) s = .next s) ∧
    (∀ b : CmdMbx, dmaReads s = true →
      (dmaOwner fetchesRecs s = some b →
        (∀ data : List Byte, ∃ t : State, exec (.dmaCompletion 0 data) s = .next t ∧ Keeps [.mbx] s t ∧ OnlyMbx (cmdMbx b) s t ∧
          t.mbx[cmdMbx b] = { s.mbx[cmdMbx b] with cal := { s.mbx[cmdMbx b].cal with recs := s.mbx[cmdMbx b].cal.recs ++ recsOf data (min s.mbx[cmdMbx b].cal.unfetched (data.length / 16)) } }) ∧
        (∀ (op cap : Nat) (seq : W) (body : List Byte), s.mbx[cmdMbx b].phase = .running op seq cap body → ∃ t : State, exec (.dmaCompletionTimeout 0) s = .next t ∧ Keeps [.mbx, .pcie] s t ∧ OnlyMbx (cmdMbx b) s t ∧
          t.pcie = { s.pcie with dmaErr := s.pcie.dmaErr.raise s.tick 0x1000 } ∧ t.mbx[cmdMbx b].cal = {} ∧ ∃ reply : List Byte, t.mbx[cmdMbx b].phase = .answered (some seq) true 9 0 reply)) ∧
      (∀ got : List Byte, dmaOwner fetchesBlock s = some b → s.mbx[cmdMbx b].phase = .fetching got →
        (∀ data : List Byte, (got ++ data).length < 32 → ∃ t : State, exec (.dmaCompletion 1 data) s = .next t ∧ Keeps [.mbx] s t ∧ OnlyMbx (cmdMbx b) s t ∧ t.mbx[cmdMbx b] = { s.mbx[cmdMbx b] with phase := .fetching (got ++ data) }) ∧
        (∀ data : List Byte, 32 + bodyLen (got ++ data) (2 ^ 63) ≤ (got ++ data).length → 32 ≤ (got ++ data).length →
          exec (.dmaCompletion 1 data) s = .next (s.judge b ((got ++ data).take 32) (((got ++ data).drop 32).take (bodyLen (got ++ data) (2 ^ 63))) (2 ^ 63))) ∧
        (∃ t : State, exec (.dmaCompletionTimeout 1) s = .next t ∧ Keeps [.mbx, .pcie] s t ∧ OnlyMbx (cmdMbx b) s t ∧ t.pcie = { s.pcie with dmaErr := s.pcie.dmaErr.raise s.tick 0x2000 } ∧
          t.mbx[cmdMbx b] = { s.mbx[cmdMbx b] with phase := .answered none false 9 1 [] }))) ∧
    (∃ (t : State) (v : Byte), exec .qspiStatus s = .next t ∧ Keeps [.pcie] s t ∧ t.pcie = { s.pcie with qsData := [v] } ∧ v.getLsbD 0 = (s.fw.ready && s.pwr.mode == 0) ∧ v.getLsbD 1 = s.ch.toList.any (fun c => c.aborted) ∧
      v.getLsbD 2 = s.pcie.qs.get 0 ∧ v.getLsbD 3 = s.health.sum.get 0 ∧ v.getLsbD 4 = irq0Low s ∧ v.getLsbD 5 = false ∧ v.getLsbD 6 = false ∧ v.getLsbD 7 = false) ∧
    (∀ op : Byte, (op ∈ qspiOps → exec (.qspiBadOp op) s = .next s) ∧
      (op ∉ qspiOps → s.pwr.mode = 0 → exec (.qspiBadOp op) s = .next { s with pcie := { s.pcie with qs := s.pcie.qs.raise s.tick 2 } }) ∧
      (op ∉ qspiOps → s.pwr.mode ≠ 0 → ∃ t : State, exec (.qspiBadOp op) s = .next t ∧ Keeps [.pwr] s t ∧ (bit s.pwr.cfg 1 = true → t.pwr.waking = true))) ∧
    (∀ (quad : Bool) (a n : Nat) (late : List Nat),
      (let row : Instr := if quad then .qspiQread a n late else .qspiRead a n late
       (s.pwr.mode ≠ 0 → ∃ t : State, exec row s = .next t ∧ Keeps [.pcie, .pwr] s t ∧ t.pcie = { s.pcie with qsData := List.replicate n 0xFF } ∧ (bit s.pwr.cfg 1 = true → t.pwr.waking = true)) ∧
       (s.pwr.mode = 0 → inWindow a = true → closedSegs (pageOffsets a n s) s = [] → s.store.bad = [] → ∃ t : State, exec row s = .next t ∧ Keeps [.store, .pcie] s t ∧ t.store.mem = s.store.mem ∧
         (t.pcie.qs.get 0 = (s.pcie.qs.get 0 || late.any (fun i => decide (i * 4 < n)))) ∧
         t.pcie.qsData = ((pageOffsets a n s).map (fun x => if winReads x s then memRead x s.store.mem else 0)).mapIdx (fun i v => if i / 4 ∈ late then 0xFF else v)) ∧
       (s.pwr.mode = 0 → inWindow a = true → closedSegs (pageOffsets a n s) s ≠ [] → ∃ t : State, exec row s = .next t ∧ Keeps [.store, .pcie] s t ∧ t.store.mem = s.store.mem ∧ t.pcie.qsData = List.replicate n 0xFF ∧ t.pcie.qs.get 0 = true) ∧
       (s.pwr.mode = 0 → inWindow a = false → n = 4 →
         (let r := s.busRead .qspi (a % 2 ^ 24 / 4 * 4)
          exec row s = .next { r with pcie := { r.pcie with qsData := leBytes 4 r.master[Master.qspi.idx].rdata.toNat } })))) ∧
    (∀ (quad : Bool) (a : Nat) (bs : List Byte),
      (let row : Instr := if quad then .qspiQwrite a bs else .qspiWrite a bs
       (s.pwr.mode ≠ 0 → ∃ t : State, exec row s = .next t ∧ Keeps [.pwr] s t ∧ (bit s.pwr.cfg 1 = true → t.pwr.waking = true)) ∧
       (s.pwr.mode = 0 → inWindow a = true → closedSegs (pageOffsets a bs.length s) s = [] → s.store.heldQ = [] → s.store.bad = [] → bs.length ≤ 0x800000 → ∃ t : State, exec row s = .next t ∧ Keeps [.mem, .store] s t ∧
         (∀ (i : Nat) (v : Byte), bs[i]? = some v → memRead (s.store.page.toNat * 0x800000 + (a + i) % 0x800000) t.store.mem =
           if winWrites (s.store.page.toNat * 0x800000 + (a + i) % 0x800000) s then v else memRead (s.store.page.toNat * 0x800000 + (a + i) % 0x800000) s.store.mem) ∧
         (∀ x : Nat, x ∉ pageOffsets a bs.length s → memRead x t.store.mem = memRead x s.store.mem)) ∧
       (s.pwr.mode = 0 → inWindow a = true → closedSegs (pageOffsets a bs.length s) s ≠ [] → ∃ t : State, exec row s = .next t ∧ Keeps [.store] s t ∧ t.store.mem = s.store.mem ∧ t.store.heldQ = s.store.heldQ ++ [row]) ∧
       (s.pwr.mode = 0 → inWindow a = false → s.store.heldQ = [] → bs.length = 4 → exec row s = .next (s.busWrite .qspi (a % 2 ^ 24 / 4 * 4) (BitVec.ofNat 32 (leNat bs)) 0xF)) ∧
       (s.pwr.mode = 0 → inWindow a = false → s.store.heldQ = [] → bs.length < 4 → bs ≠ [] → exec row s = .next { s with health := { s.health with sum := s.health.sum.raise s.tick 1 } })))

/-! ### Mailboxes -/

/-- The lock of a mailbox: of the masters that read it in one PCLK cycle the lowest-numbered takes a free lock and reads 0, the owner reads 0, any other
reads the owner's number; the owner and the Keeper release it, and any other writer sets LOCK_VIOL (R258). The owner posts the pointer and rings while
the mailbox is not BUSY; any other such write is ignored with LOCK_VIOL, and with POST_BUSY while BUSY (R259). A notice is acknowledged by any master
(R266). The model's own readings here: log entry 49. -/
def Obligations.MailboxRegisters : Prop :=
  ∀ (m : Master) (b : Mbx) (s : State),
    (let x := s.mbx[b]
     let no (k : Master) : Nat := k.idx.val + 1
     (∀ readers : List Master, m ∈ readers → (∀ k ∈ readers, reaches k s = true ∧ no m ≤ no k) → x.owner = 0 → ∃ t : State, exec (.mbLockRead b readers) s = .next t ∧ Keeps [.master, .mbx, .pcie] s t ∧ OnlyMbx b s t ∧
       t.mbx[b] = { x with owner := no m } ∧ t.master[m.idx] = { s.master[m.idx] with rdata := 0 } ∧
       (∀ k ∈ readers, no k ≠ no m → t.master[k.idx] = { s.master[k.idx] with rdata := BitVec.ofNat 32 (no m) }) ∧ (∀ k : Master, k ∉ readers → t.master[k.idx] = s.master[k.idx])) ∧
     (reaches m s = true → x.owner ≠ 0 → ∃ t : State, exec (.mbLockRead b [m]) s = .next t ∧ Keeps [.master, .mbx] (found m s) t ∧ t.mbx = s.mbx ∧ OnlyMaster m s t ∧
       t.master[m.idx] = { s.master[m.idx] with rdata := if x.owner = no m then 0 else BitVec.ofNat 32 x.owner }) ∧
     (served m (.mbLockRelease m b) s = true → ∃ t : State, exec (.mbLockRelease m b) s = .next t ∧ Keeps [.mbx] (found m s) t ∧ OnlyMbx b s t ∧
       (x.owner = no m ∨ m = .keeper → t.mbx[b] = { x with owner := 0 }) ∧ (x.owner ≠ no m → m ≠ .keeper → t.mbx[b] = { x with flags := x.flags.raise s.tick 4 })) ∧
     (∀ (hi : Bool) (w : W), served m (.mbPostWrite m b hi w) s = true → ∃ t : State, exec (.mbPostWrite m b hi w) s = .next t ∧ Keeps [.mbx] (found m s) t ∧ OnlyMbx b s t ∧
       (x.owner = no m → x.busy = false → t.mbx[b] = if hi then { x with postHi := w } else { x with postLo := w }) ∧
       (x.owner ≠ no m → x.busy = false → t.mbx[b] = { x with flags := x.flags.raise s.tick 4 }) ∧
       (x.busy = true → t.mbx[b] = { x with flags := (x.flags.raise s.tick 4).raise s.tick 8 }))) ∧
    (∀ (c : CmdMbx) (w : W), served m (.mbDoorbell m c w) s = true →
      (let x := s.mbx[cmdMbx c]
       (∃ t : State, exec (.mbDoorbell m c w) s = .next t ∧ Keeps [.mbx, .fw] (found m s) t ∧ OnlyMbx (cmdMbx c) s t ∧
         (x.owner = m.idx.val + 1 → x.busy = false → bit w 0 = false → t = found m s) ∧
         (x.owner = m.idx.val + 1 → x.busy = false → bit w 0 = true → t.mbx[cmdMbx c] = { x with busy := true, phase := .posted, poster := m.idx.val + 1, replyLost := false, bell := s.fw.bells + 1 } ∧ t.fw = { s.fw with bells := s.fw.bells + 1 }) ∧
         (x.owner ≠ m.idx.val + 1 → x.busy = false → t.mbx[cmdMbx c] = { x with flags := x.flags.raise s.tick 4 } ∧ t.fw = s.fw) ∧
         (x.busy = true → t.mbx[cmdMbx c] = { x with flags := (x.flags.raise s.tick 4).raise s.tick 8 } ∧ t.fw = s.fw)))) ∧
    (∀ (i : Fin 8) (w : W), served m (.mbNoticeAck m i w) s = true →
      (bit w 0 = false ∨ s.mbx[noticeMbx i].shown = none → exec (.mbNoticeAck m i w) s = .next (found m s)) ∧
      (∀ n : Notice, bit w 0 = true → s.mbx[noticeMbx i].shown = some n → ∃ t : State, exec (.mbNoticeAck m i w) s = .next t ∧ Keeps [.mbx] (found m s) t ∧ OnlyMbx (noticeMbx i) s t ∧
        t.mbx[noticeMbx i] = { s.mbx[noticeMbx i] with flags := s.mbx[noticeMbx i].flags.drop 2, shown := none, owner := 0 }))

/-- The service firmware starts the first command in the order of the doorbells. A pointer that breaks R260 is answered with BAD_HDR; a block in host
memory is fetched; one in an open segment of the store is read and judged: a SEQ of 0xFFFFFFFF, then a repeat, then the header (R260, R262, R264,
R267). At completion the reply is in the block, and in the same step the outcome is recorded, BUSY clears and DONE is set; a repeat returns the
recorded outcome and runs nothing; a reply that cannot be written sets LINK_LOST (R263 to R265), and one whose block lies in a segment that is not open
wakes it and waits (R222). A notice is written into its mailbox's own 8 KiB,
posted and DONE set (R266). The model's own readings here: log entries 40, 61, 63. -/
def Obligations.CommandBlocks : Prop :=
  (∀ (b : CmdMbx) (s : State),
    (let x := s.mbx[cmdMbx b]
     let first : Prop := ∀ c : CmdMbx, c ≠ b → s.mbx[cmdMbx c].phase = .posted → x.bell < s.mbx[cmdMbx c].bell
     (x.phase ≠ .posted ∨ fwPicks s = false ∨ ¬ first → exec (.commandStart b) s = .next s) ∧
     (x.phase = .posted → fwPicks s = true → first →
       (ptrOk x s = false → ∃ t : State, exec (.commandStart b) s = .next t ∧ Keeps [.mbx] s t ∧ OnlyMbx (cmdMbx b) s t ∧ t.mbx[cmdMbx b] = { x with phase := .answered none false 1 0 [] }) ∧
       (ptrOk x s = true → bit x.postHi 31 = true → ∃ t : State, exec (.commandStart b) s = .next t ∧ Keeps [.mbx] s t ∧ OnlyMbx (cmdMbx b) s t ∧ t.mbx[cmdMbx b] = { x with phase := .fetching [] }) ∧
       (∀ (h : List Byte) (e : Nat), ptrOk x s = true → bit x.postHi 31 = false → s.store.bad = [] → areaEnd x.ptr s = some e → (∀ g : Seg, segOf x.ptr ≤ g.val → g.val ≤ segOf (e - 1) → segOpen g.val s = true) →
         h = (List.range 32).map (fun i => memRead (x.ptr + i) s.store.mem) →
         (let body := (List.range (leAt 8 4 h)).map (fun i => memRead (x.ptr + 32 + i) s.store.mem)
          let seq : W := BitVec.ofNat 32 (leAt 4 4 h)
          let fits : Prop := leAt 8 4 h ≤ 1048576 ∧ leAt 8 4 h ≤ leAt 12 4 h ∧ x.ptr + 32 + leAt 12 4 h ≤ e
          ∃ t : State, exec (.commandStart b) s = .next t ∧ Keeps [.store, .mbx] s t ∧ t.store.mem = s.store.mem ∧ OnlyMbx (cmdMbx b) s t ∧ t.mbx[cmdMbx b] = { x with phase := t.mbx[cmdMbx b].phase } ∧
            (leAt 4 4 h = 0xFFFFFFFF → t.mbx[cmdMbx b].phase = .answered none true 1 4 []) ∧
            (seq ≠ 0xFFFFFFFF → seq = x.lastSeq → t.mbx[cmdMbx b].phase = .repeated seq) ∧
            (seq ≠ 0xFFFFFFFF → seq ≠ x.lastSeq → leAt 2 2 h % 32768 ≠ 0 → cmdShape (leAt 0 2 h) [] ≠ none → t.mbx[cmdMbx b].phase = .answered (some seq) true 1 2 []) ∧
            (seq ≠ 0xFFFFFFFF → seq ≠ x.lastSeq → cmdShape (leAt 0 2 h) [] = none → t.mbx[cmdMbx b].phase = .answered (some seq) true 2 0 []) ∧
            (∀ want reply : Nat, seq ≠ 0xFFFFFFFF → seq ≠ x.lastSeq → leAt 2 2 h % 32768 = 0 → fits → cmdShape (leAt 0 2 h) body = some (want, reply) →
              t.mbx[cmdMbx b].phase = if leAt 8 4 h = want ∧ reply ≤ leAt 12 4 h then .running (leAt 0 2 h) seq (leAt 12 4 h) body else .answered (some seq) true 3 0 [])))) ∧
     (∀ (seq : W) (st d : Nat) (reply : List Byte), fwRuns s = true → s.pwr.mode = 0 → x.phase = .answered (some seq) true st d reply →
       (let done : Mailbox := { x with busy := false, phase := .idle, replyLost := false, result := st, detail := d, flags := x.flags.raise s.tick 2, lastSeq := seq, recStatus := st, recDetail := d, replyLen := reply.length, doneLt := s.time.lt }
        let head := leBytes 2 st ++ leBytes 2 d ++ leBytes 4 reply.length ++ leBytes 8 s.time.lt ++ reply
        (∀ e : Nat, bit x.postHi 31 = false → areaEnd x.ptr s = some e → x.ptr % 32 = 0 → x.ptr + 32 + reply.length ≤ e → (∀ g : Seg, segOf x.ptr ≤ g.val → g.val ≤ segOf (e - 1) → segOpen g.val s = true) → s.store.bad = [] →
          ∃ t : State, exec (.commandComplete b) s = .next t ∧ Keeps [.mem, .store, .mbx] s t ∧ OnlyMbx (cmdMbx b) s t ∧ t.mbx[cmdMbx b] = done ∧ MemSameBut (x.ptr + 16) (16 + reply.length) s t ∧
            ∀ (i : Nat) (v : Byte), head[i]? = some v → memRead (x.ptr + 16 + i) t.store.mem = v) ∧
        (bit x.postHi 31 = false → winReads x.ptr s = true → segOpen (segOf x.ptr) s = false → ∃ t : State, exec (.commandComplete b) s = .next t ∧ Keeps [.store] s t ∧ t.store.mem = s.store.mem ∧
          t.store.waking.getLsbD (segOf x.ptr) = true) ∧
        (bit x.postHi 31 = true → dmaReady s = true → x.replyLost = false → ∃ t : State, exec (.commandComplete b) s = .next t ∧ Keeps [.mbx, .pcie] s t ∧ OnlyMbx (cmdMbx b) s t ∧ t.mbx[cmdMbx b] = done) ∧
        (bit x.postHi 31 = true → dmaReady s = false ∨ x.replyLost = true → ∃ t : State, exec (.commandComplete b) s = .next t ∧ Keeps [.mbx] s t ∧ OnlyMbx (cmdMbx b) s t ∧
          t.mbx[cmdMbx b] = { done with flags := (x.flags.raise s.tick 0x10).raise s.tick 2 }))) ∧
     (∀ seq : W, fwRuns s = true → s.pwr.mode = 0 → x.phase = .repeated seq → (bit x.postHi 31 = true ∨ ∀ i : Fin 32, segOpen (segOf (x.ptr + i.val)) s = true) → ∃ t : State, exec (.commandComplete b) s = .next t ∧ OnlyMbx (cmdMbx b) s t ∧ t.mbx[cmdMbx b].lastSeq = x.lastSeq ∧ t.mbx[cmdMbx b].doneLt = x.doneLt ∧
       t.mbx[cmdMbx b].result = x.recStatus ∧ t.mbx[cmdMbx b].detail = x.recDetail ∧ t.mbx[cmdMbx b].busy = false ∧ t.mbx[cmdMbx b].flags.get 1 = true ∧ Keeps [.mem, .store, .mbx, .health, .pcie, .free] s t ∧ MemSameBut x.ptr 32 s t) ∧
     (fwRuns s = false ∨ s.pwr.mode ≠ 0 → exec (.commandComplete b) s = .next s))) ∧
  (∀ (i : Fin 8) (s : State),
    (let x := s.mbx[noticeMbx i]
     let own := 0x2800000 + i.val * 8192
     (x.queue = [] ∨ x.shown ≠ none ∨ x.owner ≠ 0 ∨ noticeReady i s = false → exec (.noticePost i) s = .next s) ∧
     (∀ (n : Notice) (rest : List Notice), x.queue = n :: rest → x.shown = none → x.owner = 0 → noticeReady i s = true → segOpen 5 s = true →
       ∃ (t : State) (k : Nat), k < 32 ∧ exec (.noticePost i) s = .next t ∧ Keeps [.mem, .store, .mbx, .free] s t ∧ OnlyMbx (noticeMbx i) s t ∧
         t.mbx[noticeMbx i] = { x with owner := t.mbx[noticeMbx i].owner, postLo := BitVec.ofNat 32 (own + k * 256), postHi := 0, queue := rest, shown := some n, lost := 0, flags := x.flags.raise s.tick 2 } ∧
         (if i.val = 7 then t.mbx[noticeMbx i].owner = 1 else 2 ≤ t.mbx[noticeMbx i].owner ∧ t.mbx[noticeMbx i].owner ≤ 5) ∧ MemSameBut (own + k * 256) 256 s t ∧
         (∀ (o : Nat) (v : Byte), (leBytes 2 n.code)[o]? = some v → memRead (own + k * 256 + o) t.store.mem = v) ∧
         (∀ (o : Nat) (v : Byte), (leBytes 4 x.lost ++ leBytes 8 n.lt)[o]? = some v → memRead (own + k * 256 + 4 + o) t.store.mem = v))))

/-! ### Commands of the service firmware -/

/-- The queries: NOP replies nothing; FW_INFO the identity, the versions, the microcode level and the build; HEALTH_QUERY a snapshot of one tick; CH_QUERY
the 150 words of a channel's image, read without side effects; PARTNER_READ the identity block of an enabled serial axis, or what an EEPROM gave,
PARTNER_NAK where that is too short (R268, R272, R332, R333). A command that its mailbox does not run, or that the firmware cannot carry out now, does
nothing (R288). That the two microcode fields stand as u32 fields is the model's choice. The model's own readings here: log entries 66, 67. -/
def Obligations.QueryCommands : Prop :=
  ∀ (b : CmdMbx) (seq : W) (body bytes : List Byte) (s : State),
    ((∀ op : Nat, op ∈ [0, 1, 2, 0x11, 0x52] → (∀ q : W, ∀ c : List Byte, ¬ CmdRuns b op q c s) →
      exec (match op with | 0 => .nop b | 1 => .fwInfo b | 2 => .healthQuery b | 0x11 => .chQuery b | _ => .partnerRead b bytes) s = .next s)) ∧
    (CmdRuns b 0x00 seq body s → ∃ t : State, exec (.nop b) s = .next t ∧ Keeps [.mbx] s t ∧ Answered b seq 0 0 [] s t) ∧
    (CmdRuns b 0x01 seq body s → ∃ (t : State) (r : List Byte), exec (.fwInfo b) s = .next t ∧ Keeps [.mbx] s t ∧ Answered b seq 0 0 r s t ∧ r.length = 64 ∧
      leAt 0 4 r = (if s.fuse.gradeX then 0x61282120 else 0x61282110) ∧ leAt 4 4 r = s.fw.keeperVer.toNat ∧ leAt 8 4 r = s.fw.serviceVer.toNat ∧
      leAt 12 4 r = s.pod[(0 : Pod)].uc.level % 65536 ∧ leAt 16 4 r = s.pod[(0 : Pod)].uc.code.toNat ∧ leAt 20 8 r = s.fw.build.toNat) ∧
    (CmdRuns b 0x02 seq body s → ∃ (t : State) (r : List Byte), exec (.healthQuery b) s = .next t ∧ Keeps [.mbx, .free] s t ∧ Answered b seq 0 0 r s t ∧ r.length = 64 ∧
      leAt 0 8 r = s.time.lt % 2 ^ 64 ∧ leAt 8 4 r = (guarWord s.guar).toNat ∧ leAt 16 4 r = s.fw.restarts % 2 ^ 32 ∧ leAt 20 4 r = calFree s % 2 ^ 32 ∧
      (leAt 24 4 r).testBit 0 = (calFree s == 0) ∧ (leAt 24 4 r).testBit 1 = calEmpty s ∧ leAt 28 4 r = (storeWord 0x008 s).toNat ∧ leAt 32 4 r = (abortWord 0x18 s).toNat ∧
      ∀ p : Pod, leAt (40 + 2 * p.val) 2 r = s.pod[p].staging.length % 65536) ∧
    (CmdRuns b 0x11 seq body s →
      (128 ≤ leAt 0 4 body → ∃ t : State, exec (.chQuery b) s = .next t ∧ Keeps [.mbx] s t ∧ Answered b seq 4 0 [] s t) ∧
      (∀ n : Ch, leAt 0 4 body = n.val → ∃ (t : State) (r : List Byte), exec (.chQuery b) s = .next t ∧ Keeps [.ch, .pod, .mbx, .free] s t ∧ OnlyCh n s t ∧ OnlyMbx (cmdMbx b) s t ∧ r.length = 600 ∧
        t.mbx[cmdMbx b] = { s.mbx[cmdMbx b] with phase := .answered (some seq) true 0 0 r } ∧ (∀ i : Fin 132, leAt (4 * i.val) 4 r = (imageWord n (4 * i.val) (s.chNow n)).toNat) ∧
        (∀ i : Fin 18, leAt (528 + 4 * i.val) 4 r = (imageWord n (0x500 + 4 * i.val) (s.chNow n)).toNat) ∧ leAt 0x20 4 r + 2 ^ 32 * leAt 0x24 4 r = t.ch[n].ctr.ld.toNat)) ∧
    (CmdRuns b 0x52 seq body s →
      (let src := leAt 0 4 body
       let idx := leAt 4 4 body
       let off := leAt 8 4 body
       let len := leAt 12 4 body
       let reply (st d : Nat) (r : List Byte) : Prop := ∃ t : State, exec (.partnerRead b bytes) s = .next t ∧ Keeps [.mbx] s t ∧ Answered b seq st d r s t
       (1 < src → reply 5 0 []) ∧ (src ≤ 1 → len = 0 ∨ 256 < len → reply 5 12 []) ∧
       (src = 1 → 1 ≤ len → len ≤ 256 → bytes.length < len → reply 0x31 bytes.length []) ∧ (src = 1 → 1 ≤ len → len ≤ 256 → len ≤ bytes.length → reply 0 0 (bytes.take len)) ∧
       (src = 0 → 1 ≤ len → len ≤ 256 → 8 ≤ idx → reply 5 4 []) ∧
       (∀ k : Ax, src = 0 → 1 ≤ len → len ≤ 256 → idx = k.val →
         (let a := s.axis[k]
          (a.en = false ∨ a.mode < 2 → reply 5 4 []) ∧ (a.en = true → 2 ≤ a.mode → 16 < off + len → reply 5 8 []) ∧
          (a.en = true → 2 ≤ a.mode → off + len ≤ 16 →
            reply 0 0 (((leBytes 1 a.mode ++ leBytes 1 a.ser.bits ++ leBytes 2 a.ser.delay ++ leBytes 4 a.ser.good ++ leBytes 2 a.ser.bad ++ leBytes 2 a.ser.errs ++ leBytes 4 0).drop off).take len))))))

/-- The configuring commands: CH_CONFIG, AXIS_CONFIG, EMUL_CONFIG and ADC_CONFIG check every pair before applying any, so that a command that is refused
has written nothing; else the pairs are written in their order at one boundary, whose LT is the reply (R270). PIP_LOAD writes the words and VALID of a
bank that does not run; PIP_SWAP asks every named channel with a valid inactive bank at one boundary and names the others (R274). ADC_STREAM starts
the stream ring anew (R319). The model's own readings here: log entries 68, 69. -/
def Obligations.ConfigCommands : Prop :=
  ∀ (b : CmdMbx) (seq : W) (body : List Byte) (s : State),
    (let pairs (o : Nat) : List (Nat × W) := (List.range (leAt o 4 body)).map (fun i => (leAt (o + 4 + 8 * i) 4 body, BitVec.ofNat 32 (leAt (o + 8 + 8 * i) 4 body)))
     let reply (row : Instr) (st d : Nat) (r : List Byte) : Prop := ∃ t : State, exec row s = .next t ∧ Keeps [.mbx] s t ∧ Answered b seq st d r s t
     let lt : List Byte := leBytes 8 (s.tick * 32)
     let count (row : Instr) (o : Nat) : Prop := leAt o 4 body = 0 ∨ 64 < leAt o 4 body → reply row 5 o []
     let judged (row : Instr) (o : Nat) (r : PairRules) : Prop := ∀ st i : Nat, 1 ≤ leAt o 4 body → leAt o 4 body ≤ 64 → judgePairs r 0 (pairs o) s = some (st, i) → reply row st (if st = 5 then i else 0) []
     let written (row : Instr) (o : Nat) (r : PairRules) : Prop := 1 ≤ leAt o 4 body → leAt o 4 body ≤ 64 → judgePairs r 0 (pairs o) s = none → ∃ t : State, exec row s = .next t ∧ t = (writePairs r (pairs o) s).answer b 0 0 lt ∧ Keeps [.master, .guar, .ch, .axis, .cal, .pod, .mbx, .adc, .sur, .free] s t
     (CmdRuns b 0x10 seq body s → (128 ≤ leAt 0 4 body → reply (.chConfig b) 4 0 []) ∧
       (∀ n : Ch, leAt 0 4 body = n.val → count (.chConfig b) 4 ∧ judged (.chConfig b) 4 { bad := chPairBad n, acting := chActs, write := chanWrite .watch1 n } ∧
         (leAt 4 4 body = 1 → leAt 8 4 body = 0x010 → reply (.chConfig b) 5 0 []) ∧
         written (.chConfig b) 4 { bad := chPairBad n, acting := chActs, write := chanWrite .watch1 n } ∧
         (∀ lo hi : W, pairs 4 = [(0x020, lo), (0x024, hi)] → leAt 4 4 body = 2 → ∃ t : State, exec (.chConfig b) s = .next t ∧ Keeps [.master, .ch, .mbx] s t ∧ Answered b seq 0 0 lt s t ∧ OnlyMaster .watch1 s t ∧ OnlyCh n s t ∧
           t.ch[n] = { s.ch[n] with ctr := { s.ch[n].ctr with ld := (hi ++ lo).setWidth 48 } }))) ∧
     (CmdRuns b 0x30 seq body s → (8 ≤ leAt 0 4 body → reply (.axisConfig b) 5 0 []) ∧
       (∀ k : Ax, leAt 0 4 body = k.val → count (.axisConfig b) 4 ∧ judged (.axisConfig b) 4 (axRules k) ∧ written (.axisConfig b) 4 (axRules k))) ∧
     (CmdRuns b 0x31 seq body s → (8 ≤ leAt 0 4 body → reply (.emulConfig b) 5 0 []) ∧
       (∀ k : Ax, leAt 0 4 body = k.val → count (.emulConfig b) 4 ∧ judged (.emulConfig b) 4 (emulRules k) ∧ written (.emulConfig b) 4 (emulRules k))) ∧
     (CmdRuns b 0x38 seq body s → count (.adcConfig b) 0 ∧ judged (.adcConfig b) 0 adcRules ∧ written (.adcConfig b) 0 adcRules) ∧
     (CmdRuns b 0x39 seq body s →
       (let m := leAt 0 4 body
        let l := leAt 4 4 body
        let base := leAt 8 8 body
        (16 ≤ m → reply (.adcStream b) 5 0 []) ∧ (m < 16 → l ≠ 0 → l < 8 ∨ 20 < l → reply (.adcStream b) 5 4 []) ∧
        (m < 16 → 8 ≤ l → l ≤ 20 → 2 ^ 63 ≤ base → base % 16 ≠ 0 → reply (.adcStream b) 5 8 []) ∧ (m < 16 → 8 ≤ l → l ≤ 20 → base < 2 ^ 63 → strPlaceOk base (16 * 2 ^ l) s = false → reply (.adcStream b) 0x7 0 []) ∧
        (m < 16 → l = 0 ∨ (8 ≤ l ∧ l ≤ 20 ∧ ((2 ^ 63 ≤ base ∧ base % 16 = 0) ∨ (base < 2 ^ 63 ∧ strPlaceOk base (16 * 2 ^ l) s = true))) → ∃ t : State, exec (.adcStream b) s = .next t ∧ Keeps [.mbx, .adc] s t ∧ Answered b seq 0 0 [] s t ∧
          t.adc = { s.adc with strMask := BitVec.ofNat 4 m, strLog2 := l, strBase := BitVec.ofNat 64 base, strWr := 0, strRd := 0 }))) ∧
     (CmdRuns b 0x18 seq body s →
       (let bank := leAt 4 4 body
        let start := leAt 8 4 body
        let n := leAt 12 4 body
        (128 ≤ leAt 0 4 body → reply (.pipLoad b) 4 0 []) ∧
        (∀ c : Ch, leAt 0 4 body = c.val →
          (let p := (s.pipNow c).ch[c].pip
           let active : Prop := bit p.ctrl 0 = true ∧ p.bank = (bank == 1)
           (1 < bank → reply (.pipLoad b) 5 4 []) ∧ (bank ≤ 1 → 32 < start + n → reply (.pipLoad b) 5 (if 32 < start then 8 else 12) []) ∧
           (bank ≤ 1 → start + n ≤ 32 → active → ∃ t : State, exec (.pipLoad b) s = .next t ∧ Keeps [.ch, .pod, .mbx] s t ∧ Answered b seq 0x20 0 [] s t ∧ t.ch[c].pip = p) ∧
           (bank ≤ 1 → start + n ≤ 32 → ¬ active → ∃ t : State, exec (.pipLoad b) s = .next t ∧ Keeps [.ch, .pod, .mbx] s t ∧ Answered b seq 0 0 [] s t ∧ OnlyCh c s t ∧
             (∀ i : Fin 32, (if bank = 1 then t.ch[c].pip.prg1[i] else t.ch[c].pip.prg0[i]) =
               if start ≤ i.val ∧ i.val < start + n then BitVec.ofNat 16 (leAt (16 + 4 * (i.val - start)) 4 body) else if bank = 1 then p.prg1[i] else p.prg0[i]) ∧
             (if bank = 1 then t.ch[c].pip.valid1 = true ∧ t.ch[c].pip.prg0 = p.prg0 ∧ t.ch[c].pip.valid0 = p.valid0 else t.ch[c].pip.valid0 = true ∧ t.ch[c].pip.prg1 = p.prg1 ∧ t.ch[c].pip.valid1 = p.valid1)))))) ∧
     (CmdRuns b 0x19 seq body s → ∃ (t : State) (r : List Byte), exec (.pipSwap b) s = .next t ∧ Keeps [.ch, .pod, .mbx] s t ∧ OnlyMbx (cmdMbx b) s t ∧ r.length = 24 ∧ leAt 0 8 r = (s.tick + 1) * 32 % 2 ^ 64 ∧
       (∃ st : Nat, t.mbx[cmdMbx b] = { s.mbx[cmdMbx b] with phase := .answered (some seq) true st 0 r } ∧ (st = 0 ∨ st = 0x21) ∧ (st = 0x21 ↔ ∃ c : Ch, (leAt (8 + 4 * (c.val / 32)) 4 r).testBit (c.val % 32) = true)) ∧
       ∀ c : Ch,
         (let p := (s.pipNow c).ch[c].pip
          let named := (leAt (4 * (c.val / 32)) 4 body).testBit (c.val % 32)
          ((leAt (8 + 4 * (c.val / 32)) 4 r).testBit (c.val % 32) = (named && !p.otherValid)) ∧ (named = true → p.otherValid = true → t.ch[c].pip = p.reqSwap s.tick (leAt 16 4 body == 1)) ∧
          (named = true → p.otherValid = false → t.ch[c].pip = p) ∧ (named = false → t.ch[c] = s.ch[c]))))

/-- The policy commands: SUBST_POLICY sets the flags and the spare channel of every named pod (R268, R292, R299); ADAPT_SET sets bounds and targets of a
policy that is not locked, ADAPT_LOCK locks policies (R334, R337); MEASURE_CABLE and MEASURE_LOAD put a measurement in the line (R326); WATCH_RESTART
with its KEY is answered with its LT and restarts the Watch cores (R276, R286, R288); SLEEP is refused with its reason, or answered with the entry
begun (R353, R354); WAKE answers with the LT at which RUN was reached (R358). Which byte offset BAD_FIELD names for a bound is the model's choice. The
model's own readings here: log entries 40, 41, 57. -/
def Obligations.PolicyCommands : Prop :=
  ∀ (b : CmdMbx) (seq : W) (body : List Byte) (s : State),
    (let reply (row : Instr) (st d : Nat) (r : List Byte) : Prop := ∃ t : State, exec row s = .next t ∧ Keeps [.mbx] s t ∧ Answered b seq st d r s t
     let u (o : Nat) : Nat := leAt o 4 body
     (CmdRuns b 0x40 seq body s →
       (let sp (p : Pod) : Nat := leAt (8 + p.val) 1 body
        let ok (p : Pod) : Prop := sp p < 16 ∨ sp p = 255
        (256 ≤ u 0 → reply (.substPolicy b) 5 0 []) ∧ (u 0 < 256 → 8 ≤ u 4 → reply (.substPolicy b) 5 4 []) ∧
        (∀ p : Pod, u 0 < 256 → u 4 < 8 → (u 0).testBit p.val = true → ¬ ok p → (∀ q : Pod, q.val < p.val → (u 0).testBit q.val = true → ok q) → reply (.substPolicy b) 5 (8 + p.val) []) ∧
        (u 0 < 256 → u 4 < 8 → (∀ p : Pod, (u 0).testBit p.val = true → ok p) → ∃ t : State, exec (.substPolicy b) s = .next t ∧ Keeps [.mbx, .health] s t ∧ Answered b seq 0 0 [] s t ∧ t.health = { s.health with pod := t.health.pod } ∧
          ∀ p : Pod,
            (let h := s.health.pod[p]
             let x := t.health.pod[p]
             ((u 0).testBit p.val = false → x = h) ∧
             ((u 0).testBit p.val = true → x = { h with testing := x.testing, shadowing := h.shadowing && ((u 4).testBit 0 || h.takeover.isSome), shadowEn := (u 4).testBit 0, autoSubst := (u 4).testBit 1, substPin := (u 4).testBit 2, named := sp p != 255, spareCh := if sp p = 255 then 0 else sp p }))))) ∧
     (CmdRuns b 0x48 seq body s →
       (let on := u 4
        let lo := leAt 16 8 body
        let hi := leAt 24 8 body
        (5 ≤ u 0 → reply (.adaptSet b) 5 0 []) ∧
        (∀ i : Fin 5, u 0 = i.val →
          (let p := s.sur.pol[i]
           let r := polRange i.val
           (p.lock = true → reply (.adaptSet b) 8 i.val []) ∧ (p.lock = false → 1 < on → reply (.adaptSet b) 5 4 []) ∧ (p.lock = false → on ≤ 1 → polTargets i.val (u 8) = none → reply (.adaptSet b) 5 8 []) ∧
           (p.lock = false → on ≤ 1 → polTargets i.val (u 8) ≠ none → lo < r.1 ∨ r.2 < hi ∨ hi < lo → reply (.adaptSet b) 5 (if lo < r.1 ∨ r.2 < lo ∨ hi < lo then 16 else 24) []) ∧
           (∀ g : Vector W 4, p.lock = false → on ≤ 1 → polTargets i.val (u 8) = some g → r.1 ≤ lo → lo ≤ hi → hi ≤ r.2 → ∃ t : State, exec (.adaptSet b) s = .next t ∧ Keeps [.mbx, .sur] s t ∧ Answered b seq 0 0 [] s t ∧
             t.sur = { s.sur with pol := t.sur.pol } ∧ (∀ j : Fin 5, j ≠ i → t.sur.pol[j] = s.sur.pol[j]) ∧
             t.sur.pol[i] = { p with min := lo32 lo, max := lo32 hi, tgt := t.sur.pol[i].tgt, enable := t.sur.pol[i].enable } ∧
             (∀ j : Fin 4, t.sur.pol[i].tgt[j] = if on = 1 then p.tgt[j] ||| g[j] else p.tgt[j] &&& ~~~g[j]) ∧ (t.sur.pol[i].enable = true ↔ ∃ j : Fin 4, t.sur.pol[i].tgt[j] ≠ 0)))))) ∧
     (CmdRuns b 0x49 seq body s → (32 ≤ u 0 → reply (.adaptLock b) 5 0 []) ∧ (u 0 < 32 → 1 < u 4 → reply (.adaptLock b) 5 4 []) ∧
       (u 0 < 32 → u 4 ≤ 1 → ∃ t : State, exec (.adaptLock b) s = .next t ∧ Keeps [.mbx, .sur] s t ∧ Answered b seq 0 0 [] s t ∧ t.sur = { s.sur with pol := t.sur.pol } ∧
         ∀ i : Fin 5, t.sur.pol[i] = if (u 0).testBit i.val = true then { s.sur.pol[i] with lock := u 4 == 1 } else s.sur.pol[i])) ∧
     (CmdRuns b 0x50 seq body s → (∀ x ∈ s.sur.jobs, x.b ≠ some b) → (128 ≤ u 0 → reply (.measureCable b) 4 0 []) ∧ (u 0 < 128 → u 4 < 6554 ∨ 65535 < u 4 → reply (.measureCable b) 5 4 []) ∧
       (∀ n : Ch, u 0 = n.val → 6554 ≤ u 4 → u 4 ≤ 65535 → ∃ (t : State) (j : MeasJob), exec (.measureCable b) s = .next t ∧ Keeps [.sur] s t ∧ t.sur = { s.sur with jobs := t.sur.jobs } ∧
         j = { b := some b, ch := n, load := false, gap := (u 8).testBit 0, vf := u 4, since := s.tick } ∧ t.sur.jobs.length = s.sur.jobs.length + 1 ∧ j ∈ t.sur.jobs ∧ (∀ x : MeasJob, s.sur.jobs.head? = some x → t.sur.jobs.head? = some x))) ∧
     (CmdRuns b 0x51 seq body s → (∀ x ∈ s.sur.jobs, x.b ≠ some b) → (128 ≤ u 0 → reply (.measureLoad b) 4 0 []) ∧
       (∀ n : Ch, u 0 = n.val → ∃ (t : State) (j : MeasJob), exec (.measureLoad b) s = .next t ∧ Keeps [.sur] s t ∧ t.sur = { s.sur with jobs := t.sur.jobs } ∧
         j.b = some b ∧ j.ch = n ∧ j.load = true ∧ j.gap = (u 4).testBit 0 ∧ j.since = s.tick ∧ t.sur.jobs.length = s.sur.jobs.length + 1 ∧ j ∈ t.sur.jobs ∧ (∀ x : MeasJob, s.sur.jobs.head? = some x → t.sur.jobs.head? = some x))) ∧
     (CmdRuns b 0x03 seq body s → (u 0 ≠ 0x57525354 → reply (.watchRestart b) 5 0 []) ∧
       (u 0 = 0x57525354 → s.fw.keeperUp = true → ∃ t : State, exec (.watchRestart b) s = .next t ∧ Keeps [.eic, .mbx, .fw, .health, .sur, .free] s t ∧ t.mbx[cmdMbx b].phase = .answered (some seq) true 0 0 (leBytes 8 s.time.lt) ∧
         t.fw.restarting = true ∧ t.fw.state = 2 ∧ t.fw.cause = 3 ∧ t.fw.rstLt = s.time.lt ∧ t.health.sum.get 3 = true ∧ (∀ m : Mbx, t.mbx[m].owner = if 2 ≤ s.mbx[m].owner ∧ s.mbx[m].owner ≤ 5 then 0 else s.mbx[m].owner))) ∧
     (CmdRuns b 0x60 seq body s →
       (let auto := (u 4).testBit 0
        (u 0 ≠ 1 → u 0 ≠ 2 → reply (.sleep b) 5 0 []) ∧ (∀ d : Nat, u 0 = 1 ∨ u 0 = 2 → sleepRefusal b (u 0) auto s = some d → reply (.sleep b) 0x29 d []) ∧
        (auto = false → u 0 = 1 ∨ u 0 = 2 → s.cal.wheel ≠ [] ∨ s.cal.ovfl ≠ [] → reply (.sleep b) 0x29 1 []) ∧
        (u 0 = 1 ∨ u 0 = 2 → sleepRefusal b (u 0) auto s = none → ∃ (t : State) (e wk : Nat), exec (.sleep b) s = .next t ∧ Keeps [.mbx, .pwr, .free] s t ∧ Answered b seq 0 0 (leBytes 8 e ++ leBytes 8 (wk * 32)) s t ∧
          s.time.lt ≤ e ∧ e ≤ s.time.lt + (if u 0 = 2 then 1280000 else 128000) ∧
          t.pwr = { s.pwr with target := BitVec.ofNat 2 (u 0), entering := true, waking := false, autoWake := t.pwr.autoWake, nextWake := wk * 32, stageAt := t.pwr.stageAt } ∧ (t.pwr.autoWake = true → auto = true ∧ (s.cal.wheel ≠ [] ∨ s.cal.ovfl ≠ [])) ∧ (t.pwr.autoWake = false → wk = 0)))) ∧
     (CmdRuns b 0x61 seq body s → reply (.wake b) 0 0 (leBytes 8 s.pwr.runLt)))

/-! ### Abort -/

/-- ABORT_CTRL: GO aborts the channels that SCOPE names from the next boundary on, with their units, reflex and trains disarmed, ABORT_T_A loaded and the
guarantee's breach set; RELEASE ends the aborts of a scope, unless SAFE_n is low, an abort is under way or the Keeper reboots, and makes the purge
asked for. A Watch core, a scope of no channel, and both bits or neither set CMD_ERR (R277, R279, R281, R282, R291). A fall of SAFE_n of 5 ns aborts
every channel, one below 2 ns does nothing, one between does either; its rise releases nothing (R278, R379). The model's own readings here: log
entries 31, 56, 85. -/
def Obligations.AbortControl : Prop :=
  ∀ (m : Master) (w : W) (s : State),
    (let inS (n : Ch) : Bool := match fld w 4 2 with | 0 => true | 1 => bit s.abort.podMask (podOf n).val | 2 => bit s.abort.chMask[(⟨n.val / 32 % 4, by omega⟩ : Fin 4)] (n.val % 32) | _ => false
     let stops (t : State) (n : Ch) (safe : Nat) : Prop := t.ch[n].aborted = true ∧ (s.ch[n].aborted = false → t.ch[n].safeFrom = safe) ∧ t.ch[n].rfx.armed = false ∧ (∀ u : Unit4, t.ch[n].unit[u].live = false ∧ t.ch[n].unit[u].shadow = false) ∧ t.ch[n].pip.run = false
     let freed (t : State) (sc : Ch → Bool) : Prop := ∀ n : Ch, t.ch[n].aborted = (s.ch[n].aborted && !sc n) ∧
       (s.ch[n].aborted = true → sc n = true → t.ch[n].safeHold = true ∧ t.ch[n].safeEnd = none) ∧ (has t.abort.purge n = (has s.abort.purge n && !(s.ch[n].aborted && sc n))) ∧
       (s.ch[n].aborted = true → sc n = true → has s.abort.purge n = true → (∀ e ∈ t.cal.wheel ++ t.cal.ovfl ++ t.pod[podOf n].staging, e.rec_.ch ≠ n) ∧ ∀ x ∈ t.cal.pos, x.ev.rec_.ch ≠ n)
     let bad : Prop := bit w 0 = bit w 1 ∨ ∀ n : Ch, inS n = false
     (∀ go : Bool, (let row : Instr := if go then .abortGo m w else .abortRelease m w
       served m row s = true →
        (∀ c : Fin 4, m.watch = some c → ∃ t : State, exec row s = .next t ∧ Keeps [.eic, .mbx, .abort, .fw, .health, .sur, .free] s t ∧ t.abort = { s.abort with flags := s.abort.flags.raise s.tick 0x10 } ∧ t.health.sum.get 14 = true) ∧
        (m.watch = none → bad → ∃ t : State, exec row s = .next t ∧ Keeps [.abort] (found m s) t ∧ t.abort = { s.abort with flags := s.abort.flags.raise s.tick 0x10 }) ∧
        (m.watch = none → ¬ bad → bit w 0 = true → ∃ t : State, exec row s = .next t ∧ t.time = s.time ∧ t.abort.going = s.abort.going + 1 ∧ t.abort.lt = (s.tick + 1) * 32 ∧ t.guar.flags.get 4 = true ∧
          (∀ n : Ch, has t.abort.purge n = (has s.abort.purge n || (bit w 2 && inS n))) ∧ (∀ n : Ch, inS n = true → stops t n (s.tick + 5)) ∧ (∀ n : Ch, inS n = false → t.ch[n].aborted = s.ch[n].aborted)) ∧
        (m.watch = none → ¬ bad → bit w 1 = true →
          (s.abort.safeLow = true → ∃ t : State, exec row s = .next t ∧ Keeps [.abort] (found m s) t ∧ t.abort = { s.abort with flags := s.abort.flags.raise s.tick 0x10 }) ∧
          (s.abort.safeLow = false → s.abort.going ≠ 0 → ∃ (t : State) (v : BitVec 128), exec row s = .next t ∧ Keeps [.abort] (found m s) t ∧ t.abort = { s.abort with relPend := s.abort.relPend ++ [(v, s.abort.going)] } ∧ ∀ n : Ch, has v n = inS n) ∧
          (s.abort.safeLow = false → s.abort.going = 0 → s.fw.keeperUp = false → ∃ (t : State) (v : BitVec 128), exec row s = .next t ∧ Keeps [.fw] (found m s) t ∧ t.fw = { s.fw with deferred := s.fw.deferred ++ [v] } ∧ ∀ n : Ch, has v n = inS n) ∧
          (s.abort.safeLow = false → s.abort.going = 0 → s.fw.keeperUp = true → ∃ t : State, exec row s = .next t ∧ Keeps [.ch, .cal, .pod, .mbx, .abort, .free] (found m s) t ∧ freed t inS)))) ∧
     (s.abort.going = 0 → exec .abortDone s = .next s) ∧
     (∀ k : Nat, s.abort.going = k + 1 → s.abort.relPend = [] → ∃ t : State, exec .abortDone s = .next t ∧ Keeps [.abort] s t ∧ t.abort = { s.abort with going := k, flags := s.abort.flags.raise s.tick 1 }) ∧
     (∀ (k : Nat) (v : BitVec 128), s.abort.going = k + 1 → s.abort.relPend = [(v, 1)] → s.fw.keeperUp = true → s.abort.safeLow = true → ∃ t : State, exec .abortDone s = .next t ∧ Keeps [.abort] s t ∧
       t.abort = { s.abort with going := k, relPend := [], flags := (s.abort.flags.raise s.tick 1).raise s.tick 0x10 }) ∧
     (∀ (k : Nat) (v : BitVec 128), s.abort.going = k + 1 → s.abort.relPend = [(v, 1)] → s.fw.keeperUp = true → s.abort.safeLow = false → ∃ t : State, exec .abortDone s = .next t ∧ Keeps [.ch, .cal, .pod, .mbx, .abort, .free] s t ∧
       t.abort.going = k ∧ t.abort.flags.get 0 = true ∧ t.abort.relPend = [] ∧ freed t (has v)) ∧
     (let all (t : State) : Prop := t.abort.safeLow = true ∧ (∀ n : Ch, stops t n (s.tick + 1)) ∧ t.abort.going = s.abort.going + 1 ∧ t.abort.lt = (s.tick + 1) * 32 ∧ t.guar.flags.get 4 = true ∧ t.time = s.time
      exec (.safeNFall .below2ns) s = .next s ∧
      (s.boot.held = true → ∃ t : State, exec (.safeNFall .atLeast5ns) s = .next t ∧ Keeps [.abort, .pwr] s t ∧ t.abort = { s.abort with safeLow := true }) ∧
      (s.boot.held = false → ∃ t : State, exec (.safeNFall .atLeast5ns) s = .next t ∧ all t) ∧
      (s.boot.held = false → ∃ t : State, exec (.safeNFall .between) s = .next t ∧ (t = { s with free := t.free } ∨ all t))) ∧
     exec .safeNRise s = .next { s with abort := { s.abort with safeLow := false } })

/-! ### The Watch cores, the Keeper and spares -/

/-- The Watch cores: a refused access is recorded, and the seventeenth within one second restarts them (R284); FW_ALIVE advances in the millisecond in
which all four write; a core silent for 5 ms, or a fault, restarts them (R285). A restart records its cause, core and LT, releases their locks, resets
their interrupt targets, and is delayed where the last one ended within one second (R246, R286, R289). A code region that fails its digest comes from
the flash or stops the cores; the first heartbeat after the delay ends the restart. The Keeper restarts alone, and after its reboot carries on with
what waited (R291). The model's own readings here: log entry 72. -/
def Obligations.WatchAndKeeper : Prop :=
  ∀ (core : Fin 4) (s : State),
    (let f := s.fw
     let runs : Prop := f.ready = true ∧ f.restarting = false ∧ f.state = 1
     let restarts (row : Instr) (cause : BitVec 4) (who : Nat) : Prop := ∃ t : State, exec row s = .next t ∧ Keeps [.eic, .mbx, .fw, .health, .sur, .free] s t ∧
       t.fw.restarting = true ∧ t.fw.state = 2 ∧ t.fw.cause = cause ∧ t.fw.core.toNat = who ∧ t.fw.rstLt = s.time.lt ∧ t.fw.alive = f.alive ∧ t.fw.restarts = f.restarts ∧
       t.fw.delay = (match f.lastDone with | none => 0 | some d => if d + 12800000000 < s.time.lt then 0 else if f.delay = 0 then 40 else min 1280 (2 * f.delay)) ∧ (t.fw.delayed = true ↔ t.fw.delay ≠ 0) ∧
       t.health.sum.get 3 = true ∧ (∀ m : Mbx, t.mbx[m].owner = if 2 ≤ s.mbx[m].owner ∧ s.mbx[m].owner ≤ 5 then 0 else s.mbx[m].owner) ∧
       (∀ u : Tgt, t.eic.tgt[u] = if 1 ≤ u.val ∧ u.val ≤ 4 then { s.eic.tgt[u] with stack := [], thr := 15, offered := none } else s.eic.tgt[u]) ∧ t.sur.running = false
     let recent := f.viols.filter (fun x => decide (s.time.lt < x + 12800000000))
     (∀ (store : Bool) (a : Nat),
       (recent.length < 16 ∨ f.ready = false ∨ f.restarting = true → ∃ t : State, exec (.watchViolation core store a) s = .next t ∧ Keeps [.fw, .health] s t ∧ t.fw = { f with viols := s.time.lt :: recent } ∧ t.health.sum.get 14 = true ∧
         fld t.health.viol 0 24 = a % 2 ^ 24 ∧ bit t.health.viol 24 = store ∧ fld t.health.viol 25 7 = core.val + 1) ∧
       (16 ≤ recent.length → f.ready = true → f.restarting = false → f.keeperUp = true → restarts (.watchViolation core store a) 4 (core.val + 1))) ∧
     (¬ runs → exec (.heartbeatWrite core) s = .next s) ∧
     (runs → ∃ t : State, exec (.heartbeatWrite core) s = .next t ∧ Keeps [.fw] s t ∧
       (let old : BitVec 4 := if f.beatMs = s.tick / 400000 then f.beat else 0
        (∀ c : Fin 4, t.fw.beat.getLsbD c.val = (old.getLsbD c.val || c == core)) ∧ t.fw.alive = (if old ≠ 0xF ∧ t.fw.beat = 0xF then f.alive + 1 else f.alive) ∧ t.fw.lastBeat[core] = s.tick ∧ t.fw.restarts = f.restarts)) ∧
     (¬ runs ∨ s.tick < f.lastBeat[core] + 2000000 → exec (.heartbeatTimeout core) s = .next s) ∧
     (runs → f.lastBeat[core] + 2000000 ≤ s.tick → f.keeperUp = true → restarts (.heartbeatTimeout core) 1 (core.val + 1)) ∧
     (¬ runs → exec (.watchCoreFault core) s = .next s) ∧ (runs → f.keeperUp = true → restarts (.watchCoreFault core) 2 (core.val + 1)) ∧
     (∀ ok fl : Bool,
       (f.restarting = false ∨ f.state ≠ 2 ∨ f.keeperUp = false → exec (.codeDigestCheck ok fl) s = .next s) ∧
       (f.restarting = true → f.state = 2 → f.keeperUp = true → ∃ t : State, exec (.codeDigestCheck ok fl) s = .next t ∧ Keeps [.fw, .health] s t ∧
         (ok = true ∨ fl = true → t.fw = { f with digestOk := true, slow := f.slow || !ok } ∧ t.health = s.health) ∧ (ok = false → fl = false → t.fw = { f with state := 4, slow := true } ∧ t.health.sum.get 12 = true))) ∧
     (f.delayed = false ∨ s.time.lt < f.rstLt + f.delay * 12800000 → exec .restartDelayEnd s = .next s) ∧
     (f.delayed = true → f.rstLt + f.delay * 12800000 ≤ s.time.lt → exec .restartDelayEnd s = .next { s with fw := { f with delayed := false } }) ∧
     (f.restarting = false ∨ f.state ≠ 2 ∨ f.digestOk = false ∨ f.delayed = true ∨ f.keeperUp = false → exec .restartComplete s = .next s) ∧
     (f.restarting = true → f.state = 2 → f.digestOk = true → f.delayed = false → f.keeperUp = true → ∃ t : State, exec .restartComplete s = .next t ∧ Keeps [.mbx, .fw, .health, .free] s t ∧
       t.fw = { f with restarting := false, state := 1, restarts := min 65535 (f.restarts + 1), lastDone := some s.time.lt, dur := min 65535 ((s.time.lt - f.rstLt) / 1280000), lastBeat := t.fw.lastBeat } ∧ t.health.sum.get 4 = true) ∧
     exec .keeperWatchdog s = .next { s with fw := { f with keeperUp := false, cause := 5, core := 0, rstLt := s.time.lt } } ∧
     (f.keeperUp = true → exec .keeperRebootDone s = .next s) ∧
     (f.keeperUp = false → ∃ t : State, exec .keeperRebootDone s = .next t ∧ Keeps [.ch, .cal, .pod, .mbx, .abort, .fw, .health, .free] s t ∧ t.fw.keeperUp = true ∧ t.fw.deferred = [] ∧ t.fw.restarting = f.restarting ∧
       (f.restarting = true → t.fw.digestOk = false ∧ (f.delay ≠ 0 → t.fw.delayed = true)) ∧ (f.deferred = [] → t.ch = s.ch ∧ t.cal = s.cal) ∧
       (∀ (p : Pod) (x : Nat × Bool), t.health.pod[p].takeover = some x → s.tick + 640 ≤ x.1) ∧ (∀ (v : BitVec 128) (n : Ch), f.deferred = [v] → s.abort.safeLow = false → t.ch[n].aborted = (s.ch[n].aborted && !has v n))))

/-- Shadowing and substitution: a buoy that passes its self-test begins a shadow period, one that fails is retired; a period ends after 1 ms and is
counted; a mismatch is recorded and, with AUTO_SUBST, names a takeover between 640 ticks and 1 ms ahead, else it is told and ends the period (R292 to
R297). A suspect that passes its test becomes the buoy, one that fails is retired; after 10 ms the pod goes on (R296, R297). A channel moves to the
spare pin, and back, only where the policy asks, the Keeper runs and its edges are quiet (R299, R300, R385). The model's own readings here: log entry
50. -/
def Obligations.SparesAndShadows : Prop :=
  ∀ (p : Pod) (n : Ch) (s : State),
    (let h := s.health.pod[p]
     let others (t : State) : Prop := (∀ q : Pod, q ≠ p → t.health.pod[q] = s.health.pod[q] ∧ t.pod[q] = s.pod[q]) ∧ t.health.sum = s.health.sum
     let asks (k : SubstKind) : PodSt := { s.pod[p] with substReq := some k }
     let next (t : State) : Prop := h.shadowEn = true → h.buoy ≠ 31 → h.spacing = false → h.suspect = none → s.pod[p].substReq = none → t.health.pod[p].testing = true
     (∀ pass : Bool,
       (h.testing = false ∨ h.suspect ≠ none → exec (.buoySelfTestDone p pass) s = .next s) ∧
       (h.testing = true → h.suspect = none → ∃ t : State, exec (.buoySelfTestDone p pass) s = .next t ∧ Keeps [.pod, .health] s t ∧ others t ∧
         t.pod[p] = (if pass then asks .shadowStart else s.pod[p]) ∧
         t.health.pod[p] = if pass then { h with testing := false } else { h with testing := false, retired := h.retired ||| BitVec.ofNat 17 (2 ^ h.buoy), buoy := 31, evt := h.evt.raise s.tick 0x20 }) ∧
       (h.suspect = none ∨ h.testing = false → exec (.quarantineTestDone p pass) s = .next s) ∧
       (∀ u : Nat, h.suspect = some u → h.testing = true → ∃ t : State, exec (.quarantineTestDone p pass) s = .next t ∧ Keeps [.pod, .health] s t ∧ others t ∧ t.pod[p] = (if pass then asks .buoyReturn else s.pod[p]) ∧
         t.health.pod[p] = if pass then { h with testing := false } else { h with testing := false, suspect := none, retired := h.retired ||| BitVec.ofNat 17 (2 ^ u), evt := h.evt.raise s.tick 0x10 })) ∧
     (h.shadowing = false ∨ h.takeover ≠ none → exec (.shadowPeriodEnd p) s = .next s ∧ ∀ (o f : Bool) (ts : Nat), exec (.shadowMismatch p o f ts) s = .next s) ∧
     (h.shadowing = true → h.takeover = none → ∃ t : State, exec (.shadowPeriodEnd p) s = .next t ∧ Keeps [.health] s t ∧ others t ∧ next t ∧
       t.health.pod[p] = { h with shadowing := false, shadows := h.shadows.bump s.tick 1 255, testing := t.health.pod[p].testing }) ∧
     (∀ (o f : Bool) (ts : Nat), h.shadowing = true → h.takeover = none →
       (let seen : PodHealth := { h with mism := h.mism.bump s.tick 1 255, mismLt := s.time.lt }
        (h.autoSubst = true → ∃ (t : State) (at_ : Nat), exec (.shadowMismatch p o f ts) s = .next t ∧ Keeps [.pod, .health] s t ∧ others t ∧ t.pod[p] = asks .takeover ∧
          t.health.pod[p] = { seen with takeover := some (at_, o), evt := if f then (h.evt.raise s.tick 1).raise s.tick 4 else h.evt.raise s.tick 1 } ∧ s.tick + 640 ≤ at_ ∧ at_ ≤ s.tick + 400000 ∧
          (f = false → s.tick + 640 ≤ ts → ts ≤ s.tick + 400000 → at_ = ts) ∧ (f = true → at_ = s.tick + 400000)) ∧
        (h.autoSubst = false → ∃ t : State, exec (.shadowMismatch p o f ts) s = .next t ∧ Keeps [.mbx, .health, .free] s t ∧ OnlyMbx 25 s t ∧ others t ∧ next t ∧
          t.health.pod[p] = { seen with shadowing := false, evt := h.evt.raise s.tick 1, testing := t.health.pod[p].testing }))) ∧
     (h.spacing = false ∨ s.tick < h.lastTs / 32 + 4000000 → exec (.takeoverSpacingEnd p) s = .next s) ∧
     (h.spacing = true → h.lastTs / 32 + 4000000 ≤ s.tick → ∃ t : State, exec (.takeoverSpacingEnd p) s = .next t ∧ Keeps [.health] s t ∧ others t ∧ t.health.pod[p] = { h with spacing := false, testing := t.health.pod[p].testing })) ∧
    (let h := s.health.pod[podOf n]
     let moves : Prop := h.named = true ∧ h.spareCh = n.val % 16 ∧ h.substPin = true ∧ h.spareOn = none ∧ s.ch[n].fault.get 1 = true ∧ s.fw.keeperUp = true ∧ quietAt n s = true
     let back : Prop := h.spareOn = some (n.val % 16) ∧ (h.substPin = false ∨ h.named = false ∨ h.spareCh ≠ n.val % 16) ∧ s.fw.keeperUp = true ∧ quietAt n s = true
     (¬ moves → exec (.spareMove n) s = .next s) ∧ (¬ back → exec (.spareMoveBack n) s = .next s) ∧
     (moves → ∃ t : State, exec (.spareMove n) s = .next t ∧ Keeps [.ch, .pod, .mbx, .health, .free] s t ∧ t.ch[n].spare = true ∧ t.ch[n].filt.raw = h.spb.raw ∧ t.health.sum.get 6 = true ∧
       t.health.pod[podOf n].spareOn = some (n.val % 16) ∧ t.health.pod[podOf n].lastTs = (s.tick + 1) * 32 ∧ t.health.pod[podOf n].evt.get 6 = true) ∧
     (back → ∃ t : State, exec (.spareMoveBack n) s = .next t ∧ Keeps [.ch, .pod, .mbx, .health, .free] s t ∧ t.ch[n].spare = false ∧ t.ch[n].filt.raw = s.ch[n].ownPin ∧ t.health.sum.get 6 = true ∧
       t.health.pod[podOf n].spareOn = none ∧ t.health.pod[podOf n].lastTs = (s.tick + 1) * 32 ∧ t.health.pod[podOf n].evt.get 7 = true))

/-- The clocks: two LT counters that agree leave everything, ones that differ are corrected to LT and counted (R301); at a failure of XIN the internal
oscillator takes over, FREQ_DEGRADED and the guarantee's BACKUP_CLK are set and LT stands where it stood; XIN comes back with its restoration, and
FREQ_DEGRADED clears as the PLL locks to it (R302). At lock LT goes on at a whole tick with full resolution (R345); LT moves from RTC32I to a running
XIN at an edge of RTC32I (R20). The model's own readings here: log entry 58. -/
def Obligations.ClockChanges : Prop :=
  ∀ s : State,
    (let x := s.time
     (∀ a b : Nat, (a = x.lt ∧ b = x.lt → exec (.ltXchkCorrect a b) s = .next s) ∧
       (a ≠ x.lt ∨ b ≠ x.lt → ∃ t : State, exec (.ltXchkCorrect a b) s = .next t ∧ Keeps [.time, .health] s t ∧ t.time = { x with ctrA := x.lt, ctrB := x.lt, flags := x.flags.raise s.tick 0x40 } ∧
         t.health = { s.health with xchk := s.health.xchk.bump s.tick 1 65535 })) ∧
     (x.xinOk = false ∨ x.backup = true → exec .xinFail s = .next s) ∧
     (x.xinOk = true → x.backup = false → ∃ t : State, exec .xinFail s = .next t ∧ Keeps [.time, .guar, .health] s t ∧ t.time = { x with xinOk := false, backup := true, degraded := true } ∧ t.guar.flags.get 6 = true ∧
       t.health = { s.health with backup := s.health.backup.bump s.tick 1 65535 }) ∧
     (x.backup = false → exec .xinRestore s = .next s) ∧ (x.backup = true → exec .xinRestore s = .next { s with time := { x with xinOk := true, backup := false } }) ∧
     (let off : Prop := (x.xinOk = false ∧ x.backup = false) ∨ x.res = 2 ∨ (s.pwr.mode ≠ 0 ∧ s.pwr.waking = false)
      (off → exec .pllLock s = .next s) ∧
      (¬ off → ∃ t : State, exec .pllLock s = .next t ∧ Keeps [.time] s t ∧ x.lt ≤ t.time.lt ∧ t.time.lt < x.lt + 32 ∧ 32 ∣ t.time.lt ∧
        t.time = { x with lt := t.time.lt, ctrA := t.time.lt, ctrB := t.time.lt, pllLock := true, res := 0, degraded := x.degraded && x.backup })) ∧
     (s.pwr.mode = 2 → s.pwr.waking = false → exec .xinOscStable s = .next s) ∧
     (s.pwr.mode ≠ 2 ∨ s.pwr.waking = true → ∃ t : State, exec .xinOscStable s = .next t ∧ Keeps [.time] s t ∧ t.time.xinOk = true ∧ t.time.lt = x.lt ∧ t.time.rtcOk = x.rtcOk ∧
       t.time.res = (if x.res = 2 ∧ x.rtcOk = true then 2 else if x.pllLock then 0 else 1)) ∧
     (x.res = 2 → x.rtcOk = true → x.xinOk = true → s.idle.time.lt = x.lt + 390625 ∧ s.idle.time.res = (if x.pllLock then 0 else 1)) ∧
     (x.res = 0 → x.xinOk = true ∨ x.backup = true → s.idle.time.lt = (s.tick + 1) * 32))

/-! ### Converter -/

/-- Conversions: at a slice's boundary its result is (raw − OFS) × GAIN / 2^22, rounded and saturated with CLIP, stamped with the boundary; one that finds
NEW set sets OVR; the window comparator takes it while the reference is settled; a streamed result goes to the ring or is counted as lost (R308, R311
to R314, R319). A read of DATA returns it and clears NEW (R5, R312). SEL above 31 is refused; a SEL written takes effect at the next boundary and
skips two results (R309, R310). The reference is ready 2 ms after it was enabled (R313). The first settling results and an overlap's exchange at B3
are made as R315 ends; a released unit calibrates for 38 conversions and becomes the spare, or is retired (R316); ADC_STR_RD moves by at most what the
ring holds (R319). The model's own readings here: log entries 53, 84. -/
def Obligations.Converter : Prop :=
  ∀ (i : Slice) (m : Master) (raw spare : Int) (w : W) (s : State),
    (let a := s.adc
     let x := a.slice[i]
     let per := 8192 * max 1 (fld x.cfg 1 7)
     let b := x.last + per
     let due : Prop := bit x.cfg 0 = true ∧ s.pwr.mode = 0 ∧ b ≤ s.tick
     let only (t : State) : Prop := ∀ j : Slice, j ≠ i → t.adc.slice[j] = a.slice[j]
     let v := (a.unit[(⟨x.unit % 5, by omega⟩ : Fin 5)].value raw).1
     let quiet : Prop := x.pendSel = none ∧ (a.overlap = none ∨ a.calSlice ≠ i.val)
     (reaches m s = true → ∃ t : State, exec (.adcDataRead m i) s = .next t ∧ Keeps [.master, .adc] (found m s) t ∧ OnlyMaster m s t ∧ only t ∧ t.adc.slice[i].ovr = false ∧ t.adc.slice[i].new.val = x.new.now s.tick ∧
       t.master[m.idx] = { s.master[m.idx] with rdata := if x.new.now s.tick = 0 then (ofInt x.val &&& 0xFFFFFF) ||| flag 24 (x.new.val != 0) ||| flag 25 x.ovr ||| put 26 x.flags.toNat else x.oldVal }) ∧
     (¬ due → exec (.adcConversionEnd i raw spare) s = .next s) ∧
     (due → quiet → x.skip ≠ 0 → ∃ t : State, exec (.adcConversionEnd i raw spare) s = .next t ∧ Keeps [.adc] s t ∧ only t ∧ t.adc.slice[i] = { x with last := b, skip := x.skip - 1 }) ∧
     (due → quiet → x.skip = 0 →
       (let lost : Prop := a.strLog2 ≠ 0 ∧ a.strMask.getLsbD i.val = true ∧ 2 ^ a.strLog2 ≤ (a.strWr - a.strRd).toNat
        let kept : Prop := a.strLog2 ≠ 0 ∧ a.strMask.getLsbD i.val = true ∧ (a.strWr - a.strRd).toNat < 2 ^ a.strLog2 ∧ a.strBase.getLsbD 63 = false
        ∃ t : State, exec (.adcConversionEnd i raw spare) s = .next t ∧ Keeps [.mem, .store, .mbx, .pcie, .adc] s t ∧ only t ∧
          (let y := t.adc.slice[i]
           y.val = v ∧ -8388608 ≤ y.val ∧ y.val ≤ 8388607 ∧ y.ts = b * 32 ∧ y.last = b ∧ y.new.val = 1 ∧ (y.ovr = (x.new.val != 0)) ∧ y.flags = BitVec.ofBool x.swNext ++ BitVec.ofBool (a.unit[(⟨x.unit % 5, by omega⟩ : Fin 5)].value raw).2 ++ BitVec.ofBool (!a.refReady) ∧
           (a.refReady = false → y.stat = x.stat ∧ y.inBand = x.inBand ∧ y.armed = x.armed) ∧
           (a.refReady = true → y.inBand = (decide (x.low ≤ v) && decide (v < x.high)) ∧ y.armed = (decide (x.low ≤ v) && decide (v < x.high)) ∧
             y.stat = if v < x.low then x.stat.raiseIf x.armed s.tick 8 else if x.high ≤ v then x.stat.raiseIf x.armed s.tick 0x10 else x.stat) ∧
           (lost → t.store = s.store ∧ t.pcie = s.pcie ∧ t.adc.strWr = a.strWr ∧ t.adc.strLost = a.strLost.bump s.tick 1 0xFFFFFFFF ∧ t.adc.strGap = true) ∧
           (kept → t.adc.strWr = a.strWr + 1 ∧ t.adc.strSeq = a.strSeq + 1 ∧ t.adc.strGap = false ∧ t.adc.strLost = a.strLost ∧
             t.store.mem = memWrites (a.strBase.toNat + 16 * (a.strWr.toNat % 2 ^ a.strLog2)) (leBytes 8 (b * 32) ++ leBytes 4 (ofInt v).toNat ++ leBytes 1 x.selAct.toNat ++ leBytes 1 (i.val + 4 * y.flags.toNat + (if a.strGap then 32 else 0)) ++ leBytes 2 a.strSeq.toNat) s.store.mem) ∧
           (a.strLog2 = 0 ∨ a.strMask.getLsbD i.val = false → t.store = s.store ∧ t.adc.strWr = a.strWr ∧ t.adc.strLost = a.strLost)))) ∧
     (∀ (at_ : Nat) (sel : BitVec 6), due → a.overlap = none → x.pendSel = some (at_, sel) → at_ < b → sel ≠ x.selAct → ∃ t : State, exec (.adcConversionEnd i raw spare) s = .next t ∧ only t ∧ t.adc.slice[i].selAct = sel ∧ t.adc.slice[i].skip = 2 ∧ t.adc.slice[i].pendSel = none) ∧
     (∀ b0 : Nat, due → x.skip ≠ 0 → x.pendSel = none → a.overlap = some b0 → a.calSlice = i.val → b0 + 3 * per ≤ b → a.spare < 5 → x.unit < 5 → x.unit ≠ a.spare → ∃ t : State, exec (.adcConversionEnd i raw spare) s = .next t ∧ Keeps [.adc] s t ∧ only t ∧
       t.adc.slice[i].unit = a.spare ∧ t.adc.slice[i].swNext = true ∧ t.adc.overlap = none ∧ t.adc.calUnit = some x.unit ∧ t.adc.spare = x.unit ∧ b ≤ t.adc.calAt ∧ t.adc.calAt < b + 65536 ∧ t.adc.calAt % 65536 = 0 ∧
       (fld a.tol 0 24 < (v - (a.unit[(⟨a.spare % 5, by omega⟩ : Fin 5)].value spare).1).natAbs → t.adc.mism = a.mism.bump s.tick 1 255 ∧ t.adc.flags.get 10 = true)) ∧
     (32 ≤ fld w 0 6 → exec (.adcSelWrite i w) s = .next { s with adc := { a with flags := a.flags.raise s.tick 0x2000 } }) ∧
     (fld w 0 6 < 32 → ∃ t : State, exec (.adcSelWrite i w) s = .next t ∧ Keeps [.adc] s t ∧ only t ∧ t.adc = { a with slice := t.adc.slice } ∧ t.adc.slice[i] = { x with sel := put 0 (fld w 0 6), selAct := t.adc.slice[i].selAct, pendSel := t.adc.slice[i].pendSel } ∧
       (bit x.cfg 0 = true → x.last < s.tick + 1 → t.adc.slice[i].selAct = x.selAct ∧ t.adc.slice[i].pendSel = some (s.tick, BitVec.ofNat 6 (fld w 0 6))) ∧ (bit x.cfg 0 = false → t.adc.slice[i].selAct = BitVec.ofNat 6 (fld w 0 6)))) ∧
    (let a := s.adc
     let ref : Prop := bit a.ctrl 0 = true ∧ a.refReady = false ∧ s.pwr.mode = 0 ∧ a.refAt + 800000 ≤ s.tick
     (ref → exec .refReady s = .next { s with adc := { a with refReady := true, flags := a.flags.raise s.tick 0x1000 } }) ∧ (¬ ref → exec .refReady s = .next s) ∧
     (let starts : Prop := bit a.ctrl 1 = true ∧ a.refReady = true ∧ a.degraded = false ∧ a.overlap = none ∧ a.calUnit = none ∧ s.pwr.mode = 0 ∧ a.due ≤ s.tick
      (¬ starts → exec .calRotationStart s = .next s) ∧
      (∀ k : Slice, starts → a.nextSlice = k.val → a.spare < 5 → ∃ t : State, exec .calRotationStart s = .next t ∧ Keeps [.adc] s t ∧ t.adc.calSlice = k.val ∧
        (bit a.slice[k].cfg 0 = true → t.adc.slice = a.slice ∧ t.adc.calUnit = none ∧ ∃ b0 : Nat, t.adc.overlap = some b0 ∧ s.tick ≤ b0 ∧ 8192 * max 1 (fld a.slice[k].cfg 1 7) ∣ b0 ∧ t.adc.due = b0 + fld a.period 0 16 * 400000) ∧
        (bit a.slice[k].cfg 0 = false → t.adc.overlap = none ∧ t.adc.slice[k].unit = a.spare ∧ t.adc.calUnit = some a.slice[k].unit ∧ t.adc.due = s.tick + fld a.period 0 16 * 400000))) ∧
     (∀ z f : Int,
       (a.calUnit = none ∨ s.pwr.mode ≠ 0 ∨ s.tick < a.calAt + 38 * 65536 → exec (.calDone z f) s = .next s) ∧
       (∀ u : Fin 5, a.calUnit = some u.val → s.pwr.mode = 0 → a.calAt + 38 * 65536 ≤ s.tick → ∃ t : State, exec (.calDone z f) s = .next t ∧ Keeps [.adc] s t ∧ t.adc.slice = a.slice ∧ t.adc.calUnit = none ∧ t.adc.rotations = a.rotations.bump s.tick 1 65535 ∧
         (∀ g : Nat, z.natAbs ≤ 33554 → calGain z f = some g → t.adc.unit[u] = { ofs := z, gain := g, role := 4 } ∧ t.adc.flags.get 8 = true ∧ t.adc.spare = a.spare ∧ t.adc.degraded = a.degraded) ∧
         (33554 < z.natAbs ∨ calGain z f = none → t.adc.unit[u] = { a.unit[u] with role := 7 } ∧ t.adc.flags.get 9 = true ∧ t.adc.spare = 7 ∧ t.adc.degraded = true ∧ t.adc.fails = a.fails.bump s.tick 1 255))) ∧
     (exec (.adcStrRdWrite w) s = if (w - a.strRd).toNat ≤ (a.strWr - a.strRd).toNat then .next { s with adc := { a with strRd := w } } else .next { s with adc := { a with flags := a.flags.raise s.tick 0x2000 } }))

/-! ### Surroundings -/

/-- Supplies and temperature: a rail's fault is shown, latched, told in mailbox 24 and shown on its bank's channels until the rail is back; SUR_VIO
follows a rail without a fault; the alarm has 5 °C of hysteresis (R323 to R325). A measurement is refused, fails, waits for its gap, or runs, and ends
with its reply: the round trip and its class, CAP and its class, or MEAS_FAIL with the reason; one without an idle gap for 1 s fails (R326 to R331).
The model's own readings here: log entry 54. -/
def Obligations.Surroundings : Prop :=
  ∀ (r : Rail) (p : Pod) (mv : Nat) (tj : Int) (s : State),
    (let u := s.sur
     let isVio (q : Pod) : Prop := r = .vio q
     (bit u.sup (railBit r) = true → exec (.supplyFault r) s = .next s) ∧
     (bit u.sup (railBit r) = false → ∃ t : State, exec (.supplyFault r) s = .next t ∧ Keeps [.ch, .mbx, .sur, .pwr, .free] s t ∧ OnlyMbx 24 s t ∧ t.sur = { u with sup := u.sup ||| flag (railBit r) true, seen := u.seen.raise s.tick (flag (railBit r) true) } ∧
       ∀ n : Ch, t.ch[n] = { s.ch[n] with vioFault := t.ch[n].vioFault } ∧ (isVio (podOf n) → t.ch[n].vioFault = true) ∧ (¬ isVio (podOf n) → t.ch[n].vioFault = s.ch[n].vioFault)) ∧
     (∃ t : State, exec (.supplyFaultClear r) s = .next t ∧ Keeps [.ch, .sur] s t ∧ t.sur = { u with sup := u.sup &&& ~~~(flag (railBit r) true) } ∧
       ∀ n : Ch, t.ch[n] = { s.ch[n] with vioFault := t.ch[n].vioFault } ∧ (isVio (podOf n) → s.boot.vioDown.getLsbD (podOf n).val = false → t.ch[n].vioFault = false) ∧ (¬ isVio (podOf n) → t.ch[n].vioFault = s.ch[n].vioFault)) ∧
     (exec (.vioTrack p mv) s = if bit u.sup (8 + p.val) then .next s else .next { s with sur := { u with vio := u.vio.set p.val (min 8191 mv) } }) ∧
     (∃ t : State, exec (.tempMeasure tj) s = .next t ∧ Keeps [.sur, .pwr] s t ∧ t.sur = { u with tj := BitVec.ofInt 8 (max (-128) (min 127 tj)), temp := t.sur.temp } ∧ ((u.alarm.toNat : Int) ≤ tj → t.sur.temp = true) ∧
       (tj ≤ (u.alarm.toNat : Int) - 5 → t.sur.temp = false) ∧ ((u.alarm.toNat : Int) - 5 < tj → tj < (u.alarm.toNat : Int) → t.sur.temp = u.temp)) ∧
     (u.running = true ∨ s.fw.restarting = true → exec .measureStart s = .next s) ∧
     (∀ (j : MeasJob) (rest : List MeasJob), u.running = false → s.fw.restarting = false → u.jobs = j :: rest →
       (let ends (t : State) (st d : Nat) (rep : List Byte) : Prop := t.sur.running = false ∧ t.sur.jobs.length = rest.length ∧ ∀ (b : CmdMbx) (op cap : Nat) (seq : W) (body : List Byte), j.b = some b → s.mbx[cmdMbx b].phase = .running op seq cap body → t.mbx[cmdMbx b].phase = .answered (some seq) true st d rep
        let waits : Bool := (j.gap || u.abandons != 0) && !idleGap j.ch s
        (measRefused j s = true → ∃ t : State, exec .measureStart s = .next t ∧ Keeps [.mbx, .sur] s t ∧ ends t 0x16 0 []) ∧
        (measRefused j s = false → s.ch[j.ch].oe = false → ∃ t : State, exec .measureStart s = .next t ∧ ends t 0x30 3 []) ∧
        (measRefused j s = false → s.ch[j.ch].oe = true → s.ch[j.ch].vioFault = true → ∃ t : State, exec .measureStart s = .next t ∧ ends t 0x30 4 []) ∧
        (measRefused j s = false → s.ch[j.ch].oe = true → s.ch[j.ch].vioFault = false → waits = true → exec .measureStart s = .next s) ∧
        (measRefused j s = false → s.ch[j.ch].oe = true → s.ch[j.ch].vioFault = false → waits = false → ∃ t : State, exec .measureStart s = .next t ∧ Keeps [.sur, .free] s t ∧ s.time.lt < t.sur.edgeLt ∧
          t.sur = { u with running := true, edgeLt := t.sur.edgeLt, kind := j.load, ch := j.ch.val }) ∧
        (let late : Bool := (j.gap || u.abandons != 0) && decide (j.since + 400000000 ≤ s.tick)
         (late = false → exec .measureGapTimeout s = .next s) ∧ (late = true → ∃ t : State, exec .measureGapTimeout s = .next t ∧ ends t 0x30 1 [])))) ∧
     (u.running = false → ∀ x : MeasRaw, exec (.measureDone x) s = .next s) ∧
     (∀ (j : MeasJob) (rest : List MeasJob) (b : CmdMbx) (op cap : Nat) (seq : W) (body : List Byte), u.running = true → u.jobs = j :: rest → j.b = some b → s.mbx[cmdMbx b].phase = .running op seq cap body →
       (let replies (x : MeasRaw) (st d : Nat) (rep : List Byte → Prop) : Prop := ∃ (t : State) (l : List Byte), exec (.measureDone x) s = .next t ∧ rep l ∧ t.sur.running = false ∧ t.sur.jobs.length = rest.length ∧ t.mbx[cmdMbx b].phase = .answered (some seq) true st d l ∧ Keeps [.pod, .mem, .store, .mbx, .pcie, .sur, .free] s t
        let cable (rt vf cls : Nat) (l : List Byte) : Prop := l = leBytes 4 rt ++ leBytes 4 (roundDiv rt 2) ++ leBytes 4 (roundDiv (roundDiv rt 2 * vf * 78125 * 299792458) (65536 * 10 ^ 12)) ++ leBytes 4 cls
        let pad := s.fuse.pad[j.ch]
        let cls (c : Nat) (l : List Byte) : Prop := l.length = 8 ∧ leAt 4 4 l = c
        (∀ d : Fin 8, replies (.failed d) 0x30 d.val (fun l => l = [])) ∧
        (∀ o : Nat, j.load = false → s.fuse.cable[j.ch] + 128 ≤ o → replies (.cable [some o]) 0 0 (cable (o - s.fuse.cable[j.ch]) j.vf 0)) ∧
        (∀ o : Nat, j.load = false → o < s.fuse.cable[j.ch] + 128 → replies (.cable [some o]) 0 0 (cable 0 j.vf 2)) ∧
        (∀ l : List (Option Nat), j.load = false → l = [] ∨ none ∈ l → replies (.cable l) 0 0 (cable 0 j.vf 1)) ∧
        (∀ (hi lo up dn : Bool) (x : Option Nat), j.load = true →
          (hi = false ∨ lo = false → replies (.load hi lo up dn x) 0 0 (cls 4)) ∧ (hi = true → lo = true → up = false → dn = false → replies (.load hi lo up dn x) 0 0 (cls 2)) ∧
          (hi = true → lo = true → up = true → dn = true → replies (.load hi lo up dn x) 0 0 (cls 3)) ∧ (hi = true → lo = true → up = false → dn = true → replies (.load hi lo up dn x) 0x30 6 (fun l => l = []))) ∧
        (j.load = true → replies (.load true true true false none) 0 0 (fun l => l = leBytes 4 0xFFFFFFFF ++ leBytes 4 0)) ∧
        (∀ o : Nat, j.load = true → o ≤ 262144 → u.vio[podOf j.ch] ≠ 0 → replies (.load true true true false (some o)) 0 0 (fun l => ∃ c : Nat,
          (c = 3125 * o / (2 * u.vio[podOf j.ch]) - pad ∨ c = 3125 * o / (2 * u.vio[podOf j.ch]) - pad + 1) ∧ l = leBytes 4 c ++ leBytes 4 (if c < 200 then 1 else 0))))))

/-- Adaptation: a policy declares only for a target it is enabled for, unlocked, while the Watch cores run, and only a change that reaches its step,
clamped to its bounds; the declaration takes its place in the result backlog and an epoch on the 512-tick grid, at least HORIZON ahead; without room
it is deferred by 10 ms (R334 to R338). At the epoch the value applies, for the policies 2 to 4 to the axis thresholds, the lead and the calibration
period (R335). The model's own readings here: log entry 55. -/
def Obligations.Adaptation : Prop :=
  ∀ (i : Fin 5) (n : Ch) (meas : Nat) (s : State),
    (let q := s.advNow n
     let p := q.sur.pol[i]
     let on : Prop := polOn i n q = true ∧ q.fw.restarting = false ∧ (i.val ≤ 1 → q.ch[n].vioFault = false) ∧ (i.val = 0 → q.ch[n].adv.pend = none)
     let v (raw : Nat) : Nat := max p.min.toNat (min p.max.toNat raw)
     (¬ on ∨ polNew i.val n.val meas q = none → exec (.adaptDeclare i n meas) s = .next q) ∧
     (∀ raw : Nat, on → polNew i.val n.val meas q = some raw →
       (stepOk i.val (polOld i.val n q) (v raw) = false → exec (.adaptDeclare i n meas) s = .next q) ∧
       (stepOk i.val (polOld i.val n q) (v raw) = true → q.pod[polPod i.val n].res.roomFor false = true → ∃ (t : State) (e : Nat), exec (.adaptDeclare i n meas) s = .next t ∧ Keeps [.ch, .pod, .mbx, .sur, .free] s t ∧ OnlyCh n s t ∧ OnlyMbx 26 s t ∧
         512 ∣ e ∧ s.tick + s.cal.horizon ≤ e ∧ t.sur.pol[i] = { p with decls := p.decls ++ [{ idx := n.val, value := v raw, epoch := e, clamped := v raw != raw }] } ∧ (∀ j : Fin 5, j ≠ i → t.sur.pol[j] = s.sur.pol[j]) ∧
         t.sur.declared = s.sur.declared.bump s.tick 1 255 ∧ t.pod[polPod i.val n].res.reserved = s.pod[polPod i.val n].res.reserved + 1 ∧
         (i.val = 0 → t.ch[n].adv.pend = some { adv := q.ch[n].adv.base, comp := some (v raw), epoch := e * 32 }) ∧ (i.val ≠ 0 → t.ch = q.ch)) ∧
       (stepOk i.val (polOld i.val n q) (v raw) = true → q.pod[polPod i.val n].res.roomFor false = false → ∃ t : State, exec (.adaptDeclare i n meas) s = .next t ∧ Keeps [.ch, .sur] s t ∧ t.ch = q.ch ∧
         t.sur.deferred = s.sur.deferred.bump s.tick 1 255 ∧ t.sur.pol[i] = { p with deferred := p.deferred ++ [(n.val, meas, s.tick + 4000000)] }))) ∧
    (let p := s.sur.pol[i]
     ((∀ x ∈ p.deferred, x.1 = n.val → s.tick < x.2.2) → exec (.adaptDeferRetry i n) s = .next s) ∧
     (∀ at_ : Nat, p.deferred = [(n.val, meas, at_)] → at_ ≤ s.tick → exec (.adaptDeferRetry i n) s = exec (.adaptDeclare i n meas) { s with sur := { s.sur with pol := s.sur.pol.set i.val { p with deferred := [] } } }) ∧
     ((∀ d ∈ p.decls, d.idx = n.val → s.tick < d.epoch) → exec (.adaptEpoch i n) s = .next s) ∧
     (∀ d : Decl, p.decls = [d] → d.idx = n.val → d.epoch ≤ s.tick → ∃ t : State, exec (.adaptEpoch i n) s = .next t ∧ t.sur = { s.sur with pol := t.sur.pol } ∧ t.sur.pol[i] = { p with decls := [] } ∧ (∀ j : Fin 5, j ≠ i → t.sur.pol[j] = s.sur.pol[j]) ∧
       (i.val = 0 → OnlyCh n s t ∧ t.ch[n] = { s.ch[n] with adv := s.ch[n].adv.takeAt d.epoch }) ∧ (i.val ≠ 0 → i.val ≠ 1 → t.ch = s.ch) ∧
       (i.val = 1 → OnlyCh n s t ∧ ∃ x : W, t.ch[n] = { s.ch[n] with out := { s.ch[n].out with drivePend := some x } } ∧ fld x 1 2 = d.value % 4) ∧
       (i.val = 2 → ∀ k : Ax, t.axis[k] = if k.val = n.val % 8 then { s.axis[k] with upThr := lo32 d.value, dnThr := lo32 (roundDiv (3 * d.value) 4) } else s.axis[k]) ∧ (i.val ≠ 2 → t.axis = s.axis) ∧
       (i.val = 3 → t.pwr = { s.pwr with lead := lo32 d.value }) ∧ (i.val ≠ 3 → t.pwr = s.pwr) ∧ (i.val = 4 → t.adc = { s.adc with period := lo32 d.value }) ∧ (i.val ≠ 4 → t.adc = s.adc)))

/-! ### Reset and boot -/

/-- Reset: every register that is read returns the reset value of its table entry (R43, R118, R257). Registers whose reset value the spec leaves to fuses,
trims or straps are not among them. The model's own readings here: log entry 77. -/
def Obligations.ResetState : Prop :=
  (let reads (a v : Nat) : Prop := ∃ t : State, exec (.rcRead .keeper a) State.reset = .next t ∧ t.master[Master.keeper.idx].rdata = BitVec.ofNat 32 v
   (∀ x ∈ ([(0x118, 0x10), (0x11C, 0), (0x120, 0x1F40), (0x130, 0), (0x200, 0x108), (0x204, 2), (0x208, 0x100000), (0x20C, 0), (0x210, 0), (0x214, 0), (0x300, 0), (0x308, 0), (0x310, 0), (0x500, 0), (0x504, 0xF84), (0x510, 0), (0x800, 0),
      (0x804, 0), (0x820, 0xF4240), (0x824, 0x9C40), (0x828, 0x1F), (0x844, 0), (0x850, 0), (0x11004, 0), (0x11018, 0), (0x20000, 0x70400), (0x20008, 0xC), (0x88000, 2), (0x88004, 0x80), (0x88008, 0x3E8), (0x8800C, 0x100), (0x88040, 0),
      (0xA0000, 0), (0xA0004, 0), (0xA0008, 0), (0xA0020, 5), (0xC0000, 0), (0xC0008, 0x690000), (0xC0300, 0), (0xC0600, 0)] : List (Nat × Nat)), reads x.1 x.2) ∧
   (∀ n : Ch, ∀ x ∈ ([(0x000, 4), (0x008, 0), (0x00C, 0x800), (0x100, 4), (0x104, 0), (0x180, 0x22), (0x188, 0), (0x19C, 0x14), (0x1C0, 0xFFC), (0x1C4, 0), (0x200, 0), (0x204, 0), (0x208, 0), (0x500, 0x7C0), (0x508, 0x100), (0x510, 0), (0x52C, 0)] : List (Nat × Nat)), reads (chBase n + x.1) x.2) ∧
   (∀ k : Ax, ∀ x ∈ ([(0x000, 0x180), (0x008, 0x20004), (0x00C, 0x10000002), (0x010, 0xC800), (0x014, 0x9600), (0x018, 0x100), (0x020, 0), (0x050, 8), (0x080, 0x18), (0x084, 0xC8), (0x088, 0xFA0), (0x090, 0x0FA00010), (0x0A0, 0x320), (0x0A4, 0xA00),
      (0x0A8, 0x7FFFFFFF), (0x0B0, 0), (0x0C0, 0), (0x0C4, 0x10001), (0x0C8, 4)] : List (Nat × Nat)), reads (0x80000 + 0x1000 * k.val + x.1) x.2) ∧
   (∀ p : Pod, ∀ x ∈ ([(0x1000, 0), (0x1018, 0), (0x101C, 0), (0x1020, 0), (0x102C, 1), (0x0014, 0)] : List (Nat × Nat)), reads (0x90000 + 0x2000 * p.val + x.1) x.2) ∧
   (∀ p : Pod, reads (0xA0300 + 0x10 * p.val) (0x2000000 + p.val * 0x10000) ∧ reads (0xA0304 + 0x10 * p.val) 0x10C ∧ reads (0x600 + 0x20 * p.val) 0x1000) ∧
   (∀ b : Mbx, reads (0x10010 + 0x40 * b.val) 0 ∧ reads (0x10014 + 0x40 * b.val) 0xFFFFFFFF ∧ reads (0x1001C + 0x40 * b.val) 0) ∧
   (∀ i : Slice, reads (0x88100 + 0x40 * i.val) 2 ∧ reads (0x88114 + 0x40 * i.val) 0x800000 ∧ reads (0x88118 + 0x40 * i.val) 0x7FFFFF ∧ reads (0x8811C + 0x40 * i.val) (0x40 * i.val)) ∧
   (∀ i : Fin 5, reads (0xC0100 + 0x20 * i.val) 0 ∧ reads (0xC0108 + 0x20 * i.val) 0xFFFFFFFF) ∧ (∀ i : Src, reads (0x24000 + 4 * i.val) (if 768 ≤ i.val ∧ i.val ≤ 782 then 0x10F else 0)) ∧
   State.reset.time.lt = 0 ∧ State.reset.pending = [])

/-- The resets: a core reset, a pulse of RESET_n that acts, and TESTMODE bring every register to its reset value, with the trims of the fuses, hold the
core reset and record their cause; LT and its clocks, the fuses and the levels at the pins stay (R13, R340, R343, R344, R364, R384). The always-on
power-on reset also starts LT from 0 with AON_POR (R12). The loss of a bank's VIO shows VIO_FAULT on its channels until it returns, and holds the core
reset before its release (R340, R342). The model's own readings here: log entries 64, 77. -/
def Obligations.Resets : Prop :=
  ∀ (p : Pod) (s : State),
    (let r := State.reset
     let core (t : State) : Prop := t.master = r.master ∧ t.guar = r.guar ∧ t.cal = r.cal ∧ t.pod = r.pod ∧ t.store = r.store ∧ t.mbx = r.mbx ∧ t.fw = r.fw ∧ t.sur = r.sur ∧ t.pwr = r.pwr ∧ t.fuse = s.fuse ∧ t.free = s.free ∧ t.pending = s.pending ∧
       t.eic = { r.eic with sent := s.eic.sent } ∧ t.abort = { r.abort with safeLow := s.abort.safeLow } ∧ t.pcie = { r.pcie with perst := s.pcie.perst, since := s.pcie.since, out := s.pcie.out } ∧
       (∀ n : Ch, t.ch[n] = { Channel.reset (s.fuse.skew[n]) n with filt := t.ch[n].filt, ownPin := s.ch[n].ownPin, vioFault := s.boot.vioDown.getLsbD (podOf n).val } ∧ t.ch[n].filt.raw = s.ch[n].filt.raw ∧ t.ch[n].filt.cand = none) ∧
       (∀ k : Ax, t.axis[k] = { r.axis[k] with pins := s.axis[k].pins }) ∧ t.health = { r.health with pod := t.health.pod } ∧ (∀ q : Pod, t.health.pod[q] = { r.health.pod[q] with spb := t.health.pod[q].spb }) ∧
       t.adc = { r.adc with temp25 := s.fuse.temp25, unit := t.adc.unit } ∧ (∀ u : Fin 5, t.adc.unit[u] = { ofs := s.fuse.ofs[u], gain := s.fuse.gain[u], role := BitVec.ofNat 3 u.val })
     let boot (t : State) (tm : Bool) (cause : BitVec 4) : Prop := t.boot = { r.boot with testmode := tm, vioDown := s.boot.vioDown, flashed := s.boot.flashed, cause := cause } ∧ t.boot.held = true
     let was : BitVec 4 := if s.boot.held then s.boot.cause else 0
     let on (t : State) : Prop := t.time = { s.time with ofs := 0, ofsPrev := 0, ofsTick := 0, flags := t.time.flags } ∧ t.time.flags.get 4 = s.time.flags.get 4 ∧ t.jtag = { s.jtag with unlocked := false }
     (∀ avdd : Bool, ∃ t : State, exec (.coreReset avdd) s = .next t ∧ core t ∧ on t ∧ boot t s.boot.testmode (was ||| 2)) ∧
     (∃ t : State, exec (.resetN true) s = .next t ∧ core t ∧ on t ∧ boot t s.boot.testmode (was ||| 4)) ∧ exec (.resetN false) s = .next s ∧
     (∃ t : State, exec (.testmode true) s = .next t ∧ core t ∧ on t ∧ boot t true was) ∧ exec (.testmode false) s = .next { s with boot := { s.boot with testmode := false } } ∧
     (∀ cold : Bool, ∃ t : State, exec (.aonPor cold) s = .next t ∧ core t ∧ t.time = r.time ∧ t.time.lt = 0 ∧ t.time.flags.get 4 = true ∧ t.jtag = r.jtag ∧ boot t s.boot.testmode (if cold then 3 else 1)) ∧
     (s.boot.held = true → exec (.vioBrownout p) s = .next { s with boot := { s.boot with vioDown := s.boot.vioDown ||| BitVec.ofNat 8 (2 ^ p.val), cause := s.boot.cause ||| 2 } }) ∧
     (s.boot.held = false → ∃ t : State, exec (.vioBrownout p) s = .next t ∧ Keeps [.ch, .boot] s t ∧ t.boot = { s.boot with vioDown := s.boot.vioDown ||| BitVec.ofNat 8 (2 ^ p.val) } ∧
       ∀ n : Ch, t.ch[n] = if podOf n = p then { s.ch[n] with vioFault := true } else s.ch[n]) ∧
     (∃ t : State, exec (.vioReturn p) s = .next t ∧ Keeps [.ch, .boot] s t ∧ t.boot = { s.boot with vioDown := s.boot.vioDown &&& ~~~BitVec.ofNat 8 (2 ^ p.val) } ∧
       ∀ n : Ch, t.ch[n] = if podOf n = p then { s.ch[n] with vioFault := bit s.sur.sup (8 + p.val) } else s.ch[n]))

/-- The boot: the core reset ends only outside TESTMODE with every VIO up; the straps choose the flash, whose primary copy and then the alternate is
started if it passes every check, a load by a host, or recovery. A started image loads the microcode, with its patch or its PATCH_CODE, and locks the
control stores; one that fails records its step (R201 to R204, R341, R346 to R349). The firmware is ready once it has started. A load command is taken
from the host that the straps name while no image runs; the flash is written in recovery with a good image (R346). The model's own readings here: log
entry 65. -/
def Obligations.BootAndLoad : Prop :=
  ∀ (st : BitVec 2) (a b : ImageIn) (test : List (BitVec 17)) (m : Master) (s : State),
    (let ends : Prop := s.boot.held = true ∧ s.boot.testmode = false ∧ s.boot.vioDown = 0
     let row : Instr := .coreResetRelease st a b test
     let fault (i : ImageIn) : Option Nat := imageFault s.fuse.imageFloor i
     let starts (t : State) (i : ImageIn) : Prop := t.boot.verified = true ∧ t.boot.level = i.level ∧ t.fw.state = 0 ∧ t.fw.ready = s.fw.ready ∧ t.fw.subsystem = i.subsystem ∧ t.store.mem = [] ∧ (∀ p : Pod, t.health.pod[p].retired = test.getD p.val 0 ∧
       t.pod[p].uc.locked = true ∧ (i.patch = none → t.pod[p].uc = { locked := true, code := 1 }) ∧
       (∀ x : PatchIn, i.patch = some x → patchCode s.fuse.patchFloor x = 0 → t.pod[p].uc.patched = true ∧ t.pod[p].uc.level = x.level ∧ t.pod[p].uc.code = 0 ∧ t.pod[p].uc.words = patchWords p x.recs) ∧
       (∀ x : PatchIn, i.patch = some x → patchCode s.fuse.patchFloor x ≠ 0 → t.pod[p].uc = { locked := true, code := BitVec.ofNat 4 (patchCode s.fuse.patchFloor x), patchErr := true } ∧ t.health.sum.get 12 = true))
     (¬ ends → exec row s = .next s) ∧
     (ends → s.abort.safeLow = false →
       (st = 3 → ∃ t : State, exec row s = .next t ∧ Keeps [.fw, .boot] s t ∧ t.boot = { s.boot with held := false, alert := false, src := st } ∧ t.fw = { s.fw with state := 3 }) ∧
       (st = 1 ∨ st = 2 → ∃ t : State, exec row s = .next t ∧ Keeps [.boot] s t ∧ t.boot = { s.boot with held := false, alert := false, src := st }) ∧
       (st = 0 → fault a = none → ∃ t : State, exec row s = .next t ∧ Keeps [.pod, .mem, .fw, .health, .boot, .free] s t ∧ starts t a ∧ t.boot.held = false ∧ t.boot.alt = s.boot.alt ∧ t.boot.priFail = s.boot.priFail) ∧
       (∀ k : Nat, st = 0 → fault a = some k → fault b = none → ∃ t : State, exec row s = .next t ∧ starts t b ∧ t.boot.held = false ∧ t.boot.alt = true ∧ t.boot.priFail = true ∧ t.boot.failStep = BitVec.ofNat 4 k ∧ t.health.sum.get 12 = true) ∧
       (∀ k l : Nat, st = 0 → fault a = some k → fault b = some l → ∃ t : State, exec row s = .next t ∧ Keeps [.mbx, .fw, .health, .boot, .free] s t ∧ t.fw = { s.fw with state := 4 } ∧ t.boot.held = false ∧ t.boot.verified = s.boot.verified ∧ t.boot.priFail = true ∧ t.boot.failStep = BitVec.ofNat 4 l ∧
         t.health.sum.get 12 = true)) ∧
     (ends → s.abort.safeLow = true → ∃ t : State, exec row s = .next t ∧ t.boot.held = false ∧ ∀ n : Ch, t.ch[n].aborted = true) ∧
     (let up : Prop := s.boot.verified = true ∧ s.fw.ready = false ∧ s.boot.held = false
      (¬ up → exec .fwReady s = .next s) ∧ (up → ∃ t : State, exec .fwReady s = .next t ∧ Keeps [.fw, .health] s t ∧ t.fw = { s.fw with ready := true, state := 1, lastBeat := t.fw.lastBeat } ∧ t.health.sum.get 15 = true)) ∧
     (served m (.bootCmdLoad m a test) s = true →
       (let takes : Prop := s.boot.held = false ∧ s.boot.verified = false ∧ ((s.boot.src = 1 ∧ m = .qspi) ∨ (s.boot.src = 2 ∧ m = .pcie) ∨ s.boot.src = 3)
        (¬ takes → exec (.bootCmdLoad m a test) s = .next (found m s)) ∧ (takes → fault a = none → ∃ t : State, exec (.bootCmdLoad m a test) s = .next t ∧ Keeps [.pod, .mem, .fw, .health, .boot, .free] (found m s) t ∧ starts t a) ∧
        (∀ k : Nat, takes → fault a = some k → ∃ t : State, exec (.bootCmdLoad m a test) s = .next t ∧ Keeps [.mbx, .fw, .health, .boot, .free] (found m s) t ∧ t.fw = { s.fw with state := 4 } ∧ t.boot = { s.boot with failStep := BitVec.ofNat 4 k } ∧ t.health.sum.get 12 = true))) ∧
     (served m (.bootCmdFlash m a) s = true → exec (.bootCmdFlash m a) s = .next (if s.boot.src = 3 ∧ s.boot.held = false ∧ s.boot.verified = false ∧ fault a = none then { found m s with boot := { s.boot with flashed := some a } } else found m s)))

/-! ### Power modes and the test port -/

/-- Sleep: the mode is entered once every reply is written; LT goes on from the sleeping source at its value, without the PLL, HIBERNATE stops XIN and the
reference and retains every segment (R19, R320, R351, R355). An enabled source wakes a sleeping device, and the source and the edge of LT are
recorded; RTC32I failing in HIBERNATE leads to STANDBY (R302, R354, R356). RUN is reached with the PLL locked, at the LT recorded; the segments open
before sleep are open again, and an axis whose pins moved in HIBERNATE is SUSPECT (R128, R351, R355, R356). The model's own readings here: log entries
57, 58. -/
def Obligations.SleepAndWake : Prop :=
  ∀ s : State,
    (let w := s.pwr
     let replied : Prop := ∀ b : Mbx, match s.mbx[b].phase with | .answered .. => False | .repeated _ => False | _ => True
     let asleep : Prop := w.mode ≠ 0 ∨ w.entering = true
     let wakes (t : State) (i : Nat) : Prop := t.pwr.waking = true ∧ t.pwr.wakeLt = s.time.lt ∧ t.pwr.wakeSrc = w.wakeSrc.raise s.tick (flag i true)
     (w.entering = false ∨ ¬ replied → exec .sleepEntryDone s = .next s) ∧
     (w.entering = true → replied → ∃ t : State, exec .sleepEntryDone s = .next t ∧ Keeps [.time, .ch, .axis, .store, .mbx, .adc, .pwr, .free] s t ∧ OnlyMbx 29 s t ∧ t.pwr = { w with mode := w.target, entering := false, keep := s.store.retained } ∧
       t.time.lt = s.time.lt ∧ t.time.res = w.target ∧ t.time.pllLock = false ∧ (w.target = 2 → t.time.xinOk = false ∧ t.time.backup = false ∧ t.time.rtcOk = true ∧ t.store.retained = 0x3F ∧ t.store.transit = 0 ∧ t.adc.refReady = false) ∧
       (w.target ≠ 2 → t.time.xinOk = s.time.xinOk ∧ t.time.backup = s.time.backup ∧ t.adc = s.adc ∧ t.ch = s.ch ∧ (∀ k : Ax, t.axis[k].coarse = true) ∧ ∀ g : Seg, t.store.retained.getLsbD g.val = (s.store.retained.getLsbD g.val || !retainRefused g.val s))) ∧
     (let due : Prop := w.mode ≠ 0 ∧ w.autoWake = true ∧ w.nextWake < s.time.lt + (if s.time.res = 0 then 32 else if s.time.res = 1 then 512 else 390625)
      (¬ due → exec .autoWake s = .next s) ∧ (due → w.waking = false → ∃ t : State, exec .autoWake s = .next t ∧ Keeps [.pwr] s t ∧ wakes t 0)) ∧
     (∀ (x : WakeSrc) (i : Nat) (on : Bool), (match x with
          | .axis k => i = 1 ∧ on = (bit s.axis[k].cfg 14 && bit w.cfg 4)
          | .channel n => i = 2 ∧ on = (bit w.chans[(⟨n.val / 32 % 4, by omega⟩ : Fin 4)] (n.val % 32) && bit w.cfg 3)
          | .pcie => i = wkPcie ∧ on = bit w.cfg 0
          | .qspi => i = wkQspi ∧ on = bit w.cfg 1
          | .supply => i = wkSupply ∧ on = bit w.cfg 2
          | .safeN => i = wkSafe ∧ on = true
          | .clock => False) →
       (on = false ∨ ¬ asleep → exec (.wakeSource x) s = .next s) ∧
       (on = true → asleep → w.waking = false → ∃ t : State, exec (.wakeSource x) s = .next t ∧ Keeps [.pwr] s t ∧ wakes t i ∧ t.pwr.mode = w.mode ∧ (∀ k : Ax, x = .axis k → t.pwr.wakeAx = some k.val) ∧ (∀ n : Ch, x = .channel n → t.pwr.wakeCh = some n.val))) ∧
     (w.mode ≠ 2 → exec (.wakeSource .clock) s = .next s) ∧ (w.mode = 2 → ∃ t : State, exec (.wakeSource .clock) s = .next t ∧ Keeps [.time, .pwr] s t ∧ t.pwr.mode = 1 ∧ t.pwr.waking = true ∧ t.time = { s.time with rtcOk := false }) ∧
     (let due : Prop := w.mode ≠ 0 ∧ w.waking = true ∧ s.time.pllLock = true ∧ s.time.res = 0
      (¬ due → exec .runReached s = .next s) ∧
      (due → w.held = [] → s.store.held = [] → s.store.heldQ = [] → ∃ t : State, exec .runReached s = .next t ∧ t.time = s.time ∧ t.pwr.mode = 0 ∧ t.pwr.waking = false ∧ t.pwr.autoWake = false ∧ t.pwr.nextWake = 0 ∧ t.pwr.runLt = s.time.lt ∧ t.store.retained = w.keep ∧
        (∀ k : Ax, t.axis[k].coarse = false ∧ (w.target = 2 → s.axis[k].moved = true → t.axis[k].err.get 9 = true ∧ t.axis[k].moved = false) ∧ (w.target = 2 → t.axis[k].ref = s.axis[k].pins)) ∧
        (w.target = 2 → t.boot.cause = 8) ∧ (w.target ≠ 2 → t.boot = s.boot) ∧ (w.autoWake = true → w.stageAt < s.tick → t.pwr.flags.get 4 = true))))

/-- The test port: an instruction is selected, and EXTEST, CLAMP and HIGHZ break the guarantee as a freeze does; a covered ball follows the boundary
register, is released under HIGHZ, and shows SAFE while SAFE_n is low (R39, R366, R367). SAMPLE_PRELOAD samples the balls and loads the register; the
debug port opens with a token that the Keeper accepts. The balls are released in a core reset, in TESTMODE and without VIO (R340, R344, R364). A channel
on the spare pin releases its own ball and drives SPBp, which nothing else drives (R299, R385). ATB_SEL
refuses a reserved source field by field with SEL_ERR (R365). The model's own readings here: log entry 76. -/
def Obligations.TestPort : Prop :=
  ∀ (n : Ch) (w : W) (drive level : BitVec 128) (s : State),
    ((∀ x ∈ ([(.jtagReset, .idcode), (.idcode, .idcode), (.debug, .debug), (.bypass, .bypass)] : List (Instr × JtagInstr)), exec x.1 s = .next { s with jtag := { s.jtag with ir := x.2 } }) ∧
     (∀ x ∈ ([(.extest, .extest), (.clamp, .clamp), (.highz, .highz)] : List (Instr × JtagInstr)), ∃ t : State, exec x.1 s = .next t ∧ Keeps [.guar, .jtag] s t ∧ t.jtag = { s.jtag with ir := x.2 } ∧ t.guar.flags = s.guar.flags.raise s.tick 0x80) ∧
     (∃ t : State, exec (.samplePreload drive level) s = .next t ∧ Keeps [.jtag] s t ∧ t.jtag = { s.jtag with ir := .samplePreload, sampled := t.jtag.sampled, drive := drive, level := level } ∧ ∀ c : Ch, has t.jtag.sampled c = s.ch[c].ownPin) ∧
     (∀ ok : Bool, exec (.debugUnlock ok) s = .next (if s.jtag.ir = .debug ∧ s.fw.keeperUp = true ∧ ok = true then { s with jtag := { s.jtag with unlocked := true } } else s)) ∧
     (let named (v : Nat) : Bool := decide (v ≤ 25) || (decide (32 ≤ v) && decide (v ≤ 36))
      ∃ t : State, exec (.atbSelWrite w) s = .next t ∧ Keeps [.sur] s t ∧ t.sur = { s.sur with atb := t.sur.atb, atbErr := t.sur.atbErr } ∧ fld t.sur.atb 0 6 = (if named (fld w 0 6) then fld w 0 6 else fld s.sur.atb 0 6) ∧
        fld t.sur.atb 8 6 = (if named (fld w 8 6) then fld w 8 6 else fld s.sur.atb 8 6) ∧ (named (fld w 0 6) = false ∨ named (fld w 8 6) = false → t.sur.atbErr.get 7 = true)) ∧
     (let live : Prop := s.boot.held = false ∧ s.boot.testmode = false ∧ s.boot.vioDown.getLsbD (podOf n).val = false
      (s.boot.held = true ∨ s.boot.testmode = true → ∃ pull : Nat, s.ballOf n = .z pull) ∧ (s.boot.held = false → s.boot.testmode = false → s.boot.vioDown.getLsbD (podOf n).val = true → s.ballOf n = .z 0) ∧
      (live → s.jtag.ir = .highz → s.ballOf n = .z 0) ∧ (live → s.jtag.ir = .extest ∨ s.jtag.ir = .clamp → s.abort.safeLow = false → s.ballOf n = if has s.jtag.drive n then .drive (has s.jtag.level n) else .z 0) ∧
      (live → s.jtag.ir = .extest ∨ s.jtag.ir = .clamp → s.abort.safeLow = true → s.ballOf n = if s.ch[n].spare then .z 0 else s.ch[n].ball s.tick) ∧
      (live → s.jtag.ir ≠ .extest → s.jtag.ir ≠ .clamp → s.jtag.ir ≠ .highz → s.ballOf n = if s.ch[n].spare then .z 0 else s.ch[n].ball s.tick) ∧
      (live → s.spbOf (podOf n) = match s.health.pod[podOf n].spareOn with
        | none => .z 1
        | some i => s.ch[chOf (podOf n) i].ball s.tick)))
end

