-- ==== Sys2Proof/Laws/Keeps.lean ====
section
/-!
SUPPORT. How what a command leaves alone is put together from what its operations leave alone (`Keeps`).
-/
namespace Sys2Proof.Machine

theorem Keeps.refl (l : List Part) (s : State) : Keeps l s s :=
  ⟨rfl, fun p _ => by cases p <;> rfl⟩

theorem Part.same_trans {p : Part} {s t u : State} (h : p.same s t) (k : p.same t u) : p.same s u := by
  cases p <;> exact Eq.trans k h

theorem Keeps.trans {l : List Part} {s t u : State} (h : Keeps l s t) (k : Keeps l t u) : Keeps l s u :=
  ⟨k.1.trans h.1, fun p hp => Part.same_trans (h.2 p hp) (k.2 p hp)⟩

theorem Keeps.mono {l m : List Part} {s t : State} (h : Keeps m s t) (hm : ∀ p ∈ m, p ∈ l) : Keeps l s t :=
  ⟨h.1, fun p hp => h.2 p (fun q => hp (hm p q))⟩

/-- A further operation that leaves alone what m does not name. -/
theorem Keeps.step {l m : List Part} {s t u : State} (h : Keeps l s t) (k : Keeps m t u) (hm : ∀ p ∈ m, p ∈ l) : Keeps l s u :=
  h.trans (k.mono hm)

theorem Keeps.ite {l : List Part} {s a b : State} {c : Prop} [Decidable c] (ha : Keeps l s a) (hb : Keeps l s b) :
    Keeps l s (if c then a else b) := by split <;> assumption

theorem Keeps.when {l : List Part} {s t : State} (h : Keeps l s t) (b : Bool) (f : State → State) (k : ∀ u, Keeps l u (f u)) :
    Keeps l s (State.when b f t) := by
  unfold State.when
  split
  · exact h.trans (k t)
  · exact h

theorem Keeps.forAll {α : Type} {l : List Part} (f : α → State → State) (k : ∀ a u, Keeps l u (f a u)) :
    ∀ (xs : List α) {s t : State}, Keeps l s t → Keeps l s (forAll xs f t)
  | [], _, _, h => h
  | a :: r, _, t, h => Keeps.forAll f k r (h.trans (k a t))

/-- An update of a state that keeps its queue, as a whole: each part it changes is named. -/
theorem Keeps.upd {l : List Part} {s t : State} {x0 : Time} {x1 : Vector MasterSt 8} {x2 : Guar} {x3 : Vector Channel 128} {x4 : Vector Axis 8} {x5 : Calendar} {x6 : Vector PodSt 8} {x7 : Store} {x8 : Eic} {x9 : Vector Mailbox 32} {x10 : Abort} {x11 : Firmware} {x12 : Health} {x13 : Pcie} {x14 : Adc} {x15 : Sur} {x16 : Power} {x17 : Boot} {x18 : Fuses} {x19 : Jtag} {x20 : Nat}
    (h : Keeps l s t)
    (k0 : Part.time ∈ l ∨ x0 = t.time)
    (k1 : Part.master ∈ l ∨ x1 = t.master)
    (k2 : Part.guar ∈ l ∨ x2 = t.guar)
    (k3 : Part.ch ∈ l ∨ x3 = t.ch)
    (k4 : Part.axis ∈ l ∨ x4 = t.axis)
    (k5 : Part.cal ∈ l ∨ x5 = t.cal)
    (k6 : Part.pod ∈ l ∨ x6 = t.pod)
    (k7 : (Part.store ∈ l ∧ Part.mem ∈ l) ∨ (Part.store ∈ l ∧ x7.mem = t.store.mem) ∨ (Part.mem ∈ l ∧ { x7 with mem := [] } = { t.store with mem := [] }) ∨ x7 = t.store)
    (k8 : Part.eic ∈ l ∨ x8 = t.eic)
    (k9 : Part.mbx ∈ l ∨ x9 = t.mbx)
    (k10 : Part.abort ∈ l ∨ x10 = t.abort)
    (k11 : Part.fw ∈ l ∨ x11 = t.fw)
    (k12 : Part.health ∈ l ∨ x12 = t.health)
    (k13 : Part.pcie ∈ l ∨ x13 = t.pcie)
    (k14 : Part.adc ∈ l ∨ x14 = t.adc)
    (k15 : Part.sur ∈ l ∨ x15 = t.sur)
    (k16 : Part.pwr ∈ l ∨ x16 = t.pwr)
    (k17 : Part.boot ∈ l ∨ x17 = t.boot)
    (k18 : Part.fuse ∈ l ∨ x18 = t.fuse)
    (k19 : Part.jtag ∈ l ∨ x19 = t.jtag)
    (k20 : Part.free ∈ l ∨ x20 = t.free) :
    Keeps l s (State.mk x0 x1 x2 x3 x4 x5 x6 x7 x8 x9 x10 x11 x12 x13 x14 x15 x16 x17 x18 x19 x20 t.pending) := by
  refine h.trans ⟨rfl, fun p hp => ?_⟩
  cases p
  case time => exact k0.resolve_left hp
  case master => exact k1.resolve_left hp
  case guar => exact k2.resolve_left hp
  case ch => exact k3.resolve_left hp
  case axis => exact k4.resolve_left hp
  case cal => exact k5.resolve_left hp
  case pod => exact k6.resolve_left hp
  case store =>
    rcases k7 with k | k | k | k
    · exact absurd k.1 hp
    · exact absurd k.1 hp
    · exact k.2
    · exact congrArg (fun x : Store => { x with mem := [] }) k
  case mem =>
    rcases k7 with k | k | k | k
    · exact absurd k.2 hp
    · exact k.2
    · exact absurd k.1 hp
    · exact congrArg Store.mem k
  case eic => exact k8.resolve_left hp
  case mbx => exact k9.resolve_left hp
  case abort => exact k10.resolve_left hp
  case fw => exact k11.resolve_left hp
  case health => exact k12.resolve_left hp
  case pcie => exact k13.resolve_left hp
  case adc => exact k14.resolve_left hp
  case sur => exact k15.resolve_left hp
  case pwr => exact k16.resolve_left hp
  case boot => exact k17.resolve_left hp
  case fuse => exact k18.resolve_left hp
  case jtag => exact k19.resolve_left hp
  case free => exact k20.resolve_left hp

/-- An update of the store's registers and queues that leaves its contents. -/
theorem Keeps.setStore (s : State) (x : Store) (h : x.mem = s.store.mem) : Keeps [.store] s { s with store := x } :=
  ⟨rfl, fun p hp => by cases p <;> first | exact absurd (by decide) hp | exact h | exact Eq.refl _⟩

theorem Store.wakeSeg_mem (g : Seg) (x : Store) : (x.wakeSeg g).mem = x.mem := by
  unfold Store.wakeSeg
  repeat' split
  all_goals rfl

theorem Store.retain_mem (g : Seg) (x : Store) : (x.retain g).mem = x.mem := by
  unfold Store.retain
  repeat' split
  all_goals rfl

end Sys2Proof.Machine
end

