-- ==== Sys2Proof/Laws/Access.lean ====
section
/-!
SUPPORT. An access that is carried out does what its command does on the state it finds.
-/
namespace Sys2Proof.Machine

theorem access_served {m : Master} {row : Instr} {f : State → State} {s : State} (h : served m row s = true) :
    s.access m row f = f (found m s) := by
  cases m <;> simp only [served, reaches, State.access, State.pcieReq, State.behindBar2, State.behindPage, found] at h ⊢ <;> simp_all <;> aesop
@[simp] theorem found_time (m : Master) (s : State) : (found m s).time = s.time := by cases m <;> rfl
@[simp] theorem found_master (m : Master) (s : State) : (found m s).master = s.master := by cases m <;> rfl
@[simp] theorem found_guar (m : Master) (s : State) : (found m s).guar = s.guar := by cases m <;> rfl
@[simp] theorem found_ch (m : Master) (s : State) : (found m s).ch = s.ch := by cases m <;> rfl
@[simp] theorem found_axis (m : Master) (s : State) : (found m s).axis = s.axis := by cases m <;> rfl
@[simp] theorem found_cal (m : Master) (s : State) : (found m s).cal = s.cal := by cases m <;> rfl
@[simp] theorem found_pod (m : Master) (s : State) : (found m s).pod = s.pod := by cases m <;> rfl
@[simp] theorem found_store (m : Master) (s : State) : (found m s).store = s.store := by cases m <;> rfl
@[simp] theorem found_eic (m : Master) (s : State) : (found m s).eic = s.eic := by cases m <;> rfl
@[simp] theorem found_mbx (m : Master) (s : State) : (found m s).mbx = s.mbx := by cases m <;> rfl
@[simp] theorem found_abort (m : Master) (s : State) : (found m s).abort = s.abort := by cases m <;> rfl
@[simp] theorem found_fw (m : Master) (s : State) : (found m s).fw = s.fw := by cases m <;> rfl
@[simp] theorem found_health (m : Master) (s : State) : (found m s).health = s.health := by cases m <;> rfl
@[simp] theorem found_adc (m : Master) (s : State) : (found m s).adc = s.adc := by cases m <;> rfl
@[simp] theorem found_sur (m : Master) (s : State) : (found m s).sur = s.sur := by cases m <;> rfl
@[simp] theorem found_pwr (m : Master) (s : State) : (found m s).pwr = s.pwr := by cases m <;> rfl
@[simp] theorem found_boot (m : Master) (s : State) : (found m s).boot = s.boot := by cases m <;> rfl
@[simp] theorem found_fuse (m : Master) (s : State) : (found m s).fuse = s.fuse := by cases m <;> rfl
@[simp] theorem found_jtag (m : Master) (s : State) : (found m s).jtag = s.jtag := by cases m <;> rfl
@[simp] theorem found_free (m : Master) (s : State) : (found m s).free = s.free := by cases m <;> rfl
@[simp] theorem found_pending (m : Master) (s : State) : (found m s).pending = s.pending := by cases m <;> rfl
@[simp] theorem found_tick (m : Master) (s : State) : (found m s).tick = s.tick := by cases m <;> rfl
@[simp] theorem found_holding (m k : Master) (a : Nat) (s : State) : (found m s).holding k a = s.holding k a := by cases m <;> rfl

theorem found_keeps (m : Master) (s : State) : Keeps [.pcie] s (found m s) := by
  cases m <;> first | exact Keeps.refl _ _ | (refine ⟨rfl, fun p hp => ?_⟩; cases p <;> first | exact Eq.refl _ | exact absurd (by decide) hp)

end Sys2Proof.Machine
end

