-- ==== Sys2Proof/Laws/FrameChan.lean ====
section
/-!
SUPPORT. What each operation of the channels and the Pip engines leaves alone (`Keeps`).
-/
namespace Sys2Proof.Machine
-- One script is tried on every goal of this file, so on some goals a part of it has nothing to do.
set_option linter.unusedTactic false
set_option linter.unreachableTactic false

theorem State.modCh_keeps (n : Ch) (f : Channel → Channel) (s : State) : Keeps [.ch] s (State.modCh n f s) := by
  unfold State.modCh
  repeat' first
    | with_reducible exact Keeps.refl ..
    | extract_lets
    | with_reducible apply Keeps.ite
    | split
    | ((with_reducible apply Keeps.upd ?_); any_goals first | exact Or.inl (by decide) | exact Or.inr (Eq.refl _) | exact Or.inr (Or.inl ⟨by decide, Eq.refl _⟩) | exact Or.inr (Or.inr (Or.inl ⟨by decide, Eq.refl _⟩)) | exact Or.inr (Or.inr (Or.inr (Eq.refl _))))

theorem State.modPip_keeps (n : Ch) (f : Pip → Pip) (s : State) : Keeps [.ch] s (State.modPip n f s) := by
  unfold State.modPip
  repeat' first
    | with_reducible exact Keeps.refl ..
    | extract_lets
    | ((with_reducible apply Keeps.step ?_ (State.modCh_keeps ..) ?_); on_goal 2 => decide)

theorem State.modAxis_keeps (k : Ax) (f : Axis → Axis) (s : State) : Keeps [.axis] s (State.modAxis k f s) := by
  unfold State.modAxis
  repeat' first
    | with_reducible exact Keeps.refl ..
    | extract_lets
    | with_reducible apply Keeps.ite
    | split
    | ((with_reducible apply Keeps.upd ?_); any_goals first | exact Or.inl (by decide) | exact Or.inr (Eq.refl _) | exact Or.inr (Or.inl ⟨by decide, Eq.refl _⟩) | exact Or.inr (Or.inr (Or.inl ⟨by decide, Eq.refl _⟩)) | exact Or.inr (Or.inr (Or.inr (Eq.refl _))))

theorem State.modPod_keeps (p : Pod) (f : PodSt → PodSt) (s : State) : Keeps [.pod] s (State.modPod p f s) := by
  unfold State.modPod
  repeat' first
    | with_reducible exact Keeps.refl ..
    | extract_lets
    | with_reducible apply Keeps.ite
    | split
    | ((with_reducible apply Keeps.upd ?_); any_goals first | exact Or.inl (by decide) | exact Or.inr (Eq.refl _) | exact Or.inr (Or.inl ⟨by decide, Eq.refl _⟩) | exact Or.inr (Or.inr (Or.inl ⟨by decide, Eq.refl _⟩)) | exact Or.inr (Or.inr (Or.inr (Eq.refl _))))

theorem State.modMbx_keeps (b : Mbx) (f : Mailbox → Mailbox) (s : State) : Keeps [.mbx] s (State.modMbx b f s) := by
  unfold State.modMbx
  repeat' first
    | with_reducible exact Keeps.refl ..
    | extract_lets
    | with_reducible apply Keeps.ite
    | split
    | ((with_reducible apply Keeps.upd ?_); any_goals first | exact Or.inl (by decide) | exact Or.inr (Eq.refl _) | exact Or.inr (Or.inl ⟨by decide, Eq.refl _⟩) | exact Or.inr (Or.inr (Or.inl ⟨by decide, Eq.refl _⟩)) | exact Or.inr (Or.inr (Or.inr (Eq.refl _))))

theorem State.modMaster_keeps (m : Master) (f : MasterSt → MasterSt) (s : State) : Keeps [.master] s (State.modMaster m f s) := by
  unfold State.modMaster
  repeat' first
    | with_reducible exact Keeps.refl ..
    | extract_lets
    | with_reducible apply Keeps.ite
    | split
    | ((with_reducible apply Keeps.upd ?_); any_goals first | exact Or.inl (by decide) | exact Or.inr (Eq.refl _) | exact Or.inr (Or.inl ⟨by decide, Eq.refl _⟩) | exact Or.inr (Or.inr (Or.inl ⟨by decide, Eq.refl _⟩)) | exact Or.inr (Or.inr (Or.inr (Eq.refl _))))

theorem State.modHealth_keeps (p : Pod) (f : PodHealth → PodHealth) (s : State) : Keeps [.health] s (State.modHealth p f s) := by
  unfold State.modHealth
  repeat' first
    | with_reducible exact Keeps.refl ..
    | extract_lets
    | with_reducible apply Keeps.ite
    | split
    | (dsimp +zetaDelta only; split)
    | ((with_reducible apply Keeps.upd ?_); any_goals first | exact Or.inl (by decide) | exact Or.inr (Eq.refl _) | exact Or.inr (Or.inl ⟨by decide, Eq.refl _⟩) | exact Or.inr (Or.inr (Or.inl ⟨by decide, Eq.refl _⟩)) | exact Or.inr (Or.inr (Or.inr (Eq.refl _))))

theorem State.modSlice_keeps (i : Slice) (f : AdcSlice → AdcSlice) (s : State) : Keeps [.adc] s (State.modSlice i f s) := by
  unfold State.modSlice
  repeat' first
    | with_reducible exact Keeps.refl ..
    | extract_lets
    | with_reducible apply Keeps.ite
    | split
    | (dsimp +zetaDelta only; split)
    | ((with_reducible apply Keeps.upd ?_); any_goals first | exact Or.inl (by decide) | exact Or.inr (Eq.refl _) | exact Or.inr (Or.inl ⟨by decide, Eq.refl _⟩) | exact Or.inr (Or.inr (Or.inl ⟨by decide, Eq.refl _⟩)) | exact Or.inr (Or.inr (Or.inr (Eq.refl _))))

theorem State.modTgt_keeps (t : Tgt) (f : Target → Target) (s : State) : Keeps [.eic] s (State.modTgt t f s) := by
  unfold State.modTgt
  repeat' first
    | with_reducible exact Keeps.refl ..
    | extract_lets
    | with_reducible apply Keeps.ite
    | split
    | (dsimp +zetaDelta only; split)
    | ((with_reducible apply Keeps.upd ?_); any_goals first | exact Or.inl (by decide) | exact Or.inr (Eq.refl _) | exact Or.inr (Or.inl ⟨by decide, Eq.refl _⟩) | exact Or.inr (Or.inr (Or.inl ⟨by decide, Eq.refl _⟩)) | exact Or.inr (Or.inr (Or.inr (Eq.refl _))))

theorem State.modGrp_keeps (g : Grp) (f : Group → Group) (s : State) : Keeps [.eic] s (State.modGrp g f s) := by
  unfold State.modGrp
  repeat' first
    | with_reducible exact Keeps.refl ..
    | extract_lets
    | with_reducible apply Keeps.ite
    | split
    | (dsimp +zetaDelta only; split)
    | ((with_reducible apply Keeps.upd ?_); any_goals first | exact Or.inl (by decide) | exact Or.inr (Eq.refl _) | exact Or.inr (Or.inl ⟨by decide, Eq.refl _⟩) | exact Or.inr (Or.inr (Or.inl ⟨by decide, Eq.refl _⟩)) | exact Or.inr (Or.inr (Or.inr (Eq.refl _))))

theorem State.chStat_keeps (n : Ch) (m : W) (s : State) : Keeps [.ch] s (State.chStat n m s) := by
  unfold State.chStat
  repeat' first
    | with_reducible exact Keeps.refl ..
    | extract_lets
    | ((with_reducible apply Keeps.step ?_ (State.modCh_keeps ..) ?_); on_goal 2 => decide)

theorem State.chCfgErr_keeps (n : Ch) (s : State) : Keeps [.ch] s (State.chCfgErr n s) := by
  unfold State.chCfgErr
  repeat' first
    | with_reducible exact Keeps.refl ..
    | extract_lets
    | ((with_reducible apply Keeps.step ?_ (State.chStat_keeps ..) ?_); on_goal 2 => decide)

theorem State.used_keeps (s : State) : Keeps [.free] s (State.used s) := by
  unfold State.used
  repeat' first
    | with_reducible exact Keeps.refl ..
    | extract_lets
    | with_reducible apply Keeps.ite
    | split
    | ((with_reducible apply Keeps.upd ?_); any_goals first | exact Or.inl (by decide) | exact Or.inr (Eq.refl _) | exact Or.inr (Or.inl ⟨by decide, Eq.refl _⟩) | exact Or.inr (Or.inr (Or.inl ⟨by decide, Eq.refl _⟩)) | exact Or.inr (Or.inr (Or.inr (Eq.refl _))))

theorem State.breach_keeps (i : Nat) (s : State) : Keeps [.guar] s (State.breach i s) := by
  unfold State.breach
  repeat' first
    | with_reducible exact Keeps.refl ..
    | extract_lets
    | with_reducible apply Keeps.ite
    | split
    | (dsimp +zetaDelta only; split)
    | ((with_reducible apply Keeps.upd ?_); any_goals first | exact Or.inl (by decide) | exact Or.inr (Eq.refl _) | exact Or.inr (Or.inl ⟨by decide, Eq.refl _⟩) | exact Or.inr (Or.inr (Or.inl ⟨by decide, Eq.refl _⟩)) | exact Or.inr (Or.inr (Or.inr (Eq.refl _))))

theorem State.ret_keeps (m : Master) (w : W) (s : State) : Keeps [.master] s (State.ret m w s) := by
  unfold State.ret
  repeat' first
    | with_reducible exact Keeps.refl ..
    | extract_lets
    | ((with_reducible apply Keeps.step ?_ (State.modMaster_keeps ..) ?_); on_goal 2 => decide)

theorem State.lowRead_keeps (m : Master) (a v : Nat) (s : State) : Keeps [.master] s (State.lowRead m a v s) := by
  unfold State.lowRead
  repeat' first
    | with_reducible exact Keeps.refl ..
    | extract_lets
    | ((with_reducible apply Keeps.step ?_ (State.modMaster_keeps ..) ?_); on_goal 2 => decide)

theorem State.highRead_keeps (m : Master) (a : Nat) (live : W) (s : State) : Keeps [.master] s (State.highRead m a live s) := by
  unfold State.highRead
  repeat' first
    | with_reducible exact Keeps.refl ..
    | extract_lets
    | ((with_reducible apply Keeps.step ?_ (State.ret_keeps ..) ?_); on_goal 2 => decide)
    | ((with_reducible apply Keeps.step ?_ (State.modMaster_keeps ..) ?_); on_goal 2 => decide)
    | with_reducible apply Keeps.ite

theorem State.setHolding_keeps (m : Master) (a : Nat) (w : W) (s : State) : Keeps [.master] s (State.setHolding m a w s) := by
  unfold State.setHolding
  repeat' first
    | with_reducible exact Keeps.refl ..
    | extract_lets
    | ((with_reducible apply Keeps.step ?_ (State.modMaster_keeps ..) ?_); on_goal 2 => decide)

theorem State.wakeBy_keeps (i : Nat) (s : State) : Keeps [.pwr] s (State.wakeBy i s) := by
  unfold State.wakeBy
  repeat' first
    | with_reducible exact Keeps.refl ..
    | extract_lets
    | with_reducible apply Keeps.ite
    | split
    | (dsimp +zetaDelta only; split)
    | ((with_reducible apply Keeps.upd ?_); any_goals first | exact Or.inl (by decide) | exact Or.inr (Eq.refl _) | exact Or.inr (Or.inl ⟨by decide, Eq.refl _⟩) | exact Or.inr (Or.inr (Or.inl ⟨by decide, Eq.refl _⟩)) | exact Or.inr (Or.inr (Or.inr (Eq.refl _))))

theorem State.wakeIf_keeps (on : Bool) (i : Nat) (s : State) : Keeps [.pwr] s (State.wakeIf on i s) := by
  unfold State.wakeIf
  repeat' first
    | with_reducible exact Keeps.refl ..
    | extract_lets
    | ((with_reducible apply Keeps.step ?_ (State.wakeBy_keeps ..) ?_); on_goal 2 => decide)
    | with_reducible apply Keeps.ite

theorem Keeps.behindBar2 {l : List Part} {s t : State} (row : Instr) (f : State → State) (h : Keeps l s t)
    (hm : ∀ p ∈ [Part.store], p ∈ l) (k : ∀ u, Keeps l u (f u)) : Keeps l s (State.behindBar2 row f t) := by
  unfold State.behindBar2
  split
  · exact h.step (Keeps.setStore t _ (by exact rfl)) hm
  · exact h.trans (k t)

theorem Keeps.behindPage {l : List Part} {s t : State} (row : Instr) (f : State → State) (h : Keeps l s t)
    (hm : ∀ p ∈ [Part.store], p ∈ l) (k : ∀ u, Keeps l u (f u)) : Keeps l s (State.behindPage row f t) := by
  unfold State.behindPage
  split
  · exact h.step (Keeps.setStore t _ (by exact rfl)) hm
  · exact h.trans (k t)

theorem Keeps.pcieReq {l : List Part} {s t : State} (row : Instr) (f : State → State) (h : Keeps l s t)
    (hm : ∀ p ∈ [Part.pcie, Part.pwr], p ∈ l) (k : ∀ u, Keeps l u (f u)) : Keeps l s (State.pcieReq row f t) := by
  have h3 : ∀ p ∈ [Part.pcie], p ∈ l := fun p q => hm p (by simp_all)
  have h4 : ∀ p ∈ [Part.pwr], p ∈ l := fun p q => hm p (by simp_all)
  have hc : ∀ (u : State) (b : Bool), Keeps [.pcie] u { u with pcie := { u.pcie with unsupported := b } } := by
    intro u b
    apply Keeps.upd (Keeps.refl _ u) <;> first | exact Or.inl (by decide) | exact Or.inr (Eq.refl _) | exact Or.inr (Or.inl ⟨by decide, Eq.refl _⟩) | exact Or.inr (Or.inr (Or.inl ⟨by decide, Eq.refl _⟩)) | exact Or.inr (Or.inr (Or.inr (Eq.refl _)))
  have hw : ∀ (u : State) (x : Power), Keeps [.pwr] u { u with pwr := x } := by
    intro u b
    apply Keeps.upd (Keeps.refl _ u) <;> first | exact Or.inl (by decide) | exact Or.inr (Eq.refl _) | exact Or.inr (Or.inl ⟨by decide, Eq.refl _⟩) | exact Or.inr (Or.inr (Or.inl ⟨by decide, Eq.refl _⟩)) | exact Or.inr (Or.inr (Or.inr (Eq.refl _)))
  have h1 : Keeps l s { t with pcie := { t.pcie with unsupported := false } } := h.step (hc t false) h3
  unfold State.pcieReq
  split
  · exact h
  · split
    · exact h.step (hc t true) h3
    · extract_lets _ u
      split
      · exact (h1.step (hw u _) h4).step (State.wakeIf_keeps ..) h4
      · exact h1.trans (k u)

theorem Keeps.access {l : List Part} {s t : State} (m : Master) (row : Instr) (f : State → State) (h : Keeps l s t)
    (hm : ∀ p ∈ [Part.store, Part.pcie, Part.pwr], p ∈ l) (k : ∀ u, Keeps l u (f u)) : Keeps l s (State.access m row f t) := by
  unfold State.access
  split
  · exact Keeps.pcieReq row _ h (fun p q => hm p (by simp_all)) (fun u => Keeps.behindBar2 row f (Keeps.refl _ u) (fun p q => hm p (by simp_all)) k)
  · split
    · exact h.step (State.wakeIf_keeps ..) (fun p q => hm p (by simp_all))
    · exact Keeps.behindPage row f h (fun p q => hm p (by simp_all)) k
  · split
    · exact h.trans (k t)
    · exact h
  · exact h.trans (k t)

theorem State.releaseTier_keeps (t : Nat) (n : Ch) (s : State) : Keeps [.ch] s (State.releaseTier t n s) := by
  unfold State.releaseTier
  repeat' first
    | with_reducible exact Keeps.refl ..
    | extract_lets
    | ((with_reducible refine Keeps.forAll _ ?_ _ ?_); on_goal 1 => intro _ _)
    | ((with_reducible apply Keeps.step ?_ (State.modCh_keeps ..) ?_); on_goal 2 => decide)

theorem State.pipHalt_keeps (t : Nat) (why : BitVec 3) (resumable release : Bool) (n : Ch) (s : State) : Keeps [.ch] s (State.pipHalt t why resumable release n s) := by
  unfold State.pipHalt
  repeat' first
    | with_reducible exact Keeps.refl ..
    | extract_lets
    | ((with_reducible apply Keeps.when ?_ _ _ ?_); on_goal 2 => intro _)
    | ((with_reducible apply Keeps.step ?_ (State.releaseTier_keeps ..) ?_); on_goal 2 => decide)
    | ((with_reducible apply Keeps.step ?_ (State.modPip_keeps ..) ?_); on_goal 2 => decide)

theorem State.pipStartAt_keeps (t : Nat) (entry : Fin 32) (frac : Option Nat) (n : Ch) (s : State) : Keeps [.ch] s (State.pipStartAt t entry frac n s) := by
  unfold State.pipStartAt
  repeat' first
    | with_reducible exact Keeps.refl ..
    | extract_lets
    | ((with_reducible apply Keeps.step ?_ (State.modPip_keeps ..) ?_); on_goal 2 => decide)
    | with_reducible apply Keeps.ite

theorem State.act_keeps (t frac code : Nat) (param : W) (n : Ch) (s : State) : Keeps [.ch] s (State.act t frac code param n s) := by
  unfold State.act
  repeat' first
    | with_reducible exact Keeps.refl ..
    | extract_lets
    | ((with_reducible apply Keeps.step ?_ (State.modCh_keeps ..) ?_); on_goal 2 => decide)
    | ((with_reducible apply Keeps.step ?_ (State.pipStartAt_keeps ..) ?_); on_goal 2 => decide)
    | with_reducible apply Keeps.ite
    | split

theorem State.outcome_keeps (p : Pod) (o : Outcome) (s : State) : Keeps [.pod] s (State.outcome p o s) := by
  unfold State.outcome
  repeat' first
    | with_reducible exact Keeps.refl ..
    | extract_lets
    | ((with_reducible apply Keeps.step ?_ (State.modPod_keeps ..) ?_); on_goal 2 => decide)

theorem State.fire_keeps (t : Nat) (u : Unit4) (set : CmpSet) (late : Bool) (n : Ch) (s : State) : Keeps [.ch, .pod] s (State.fire t u set late n s) := by
  unfold State.fire
  repeat' first
    | with_reducible exact Keeps.refl ..
    | extract_lets
    | ((with_reducible apply Keeps.when ?_ _ _ ?_); on_goal 2 => intro _)
    | ((with_reducible apply Keeps.step ?_ (State.modCh_keeps ..) ?_); on_goal 2 => decide)
    | ((with_reducible apply Keeps.step ?_ (State.outcome_keeps ..) ?_); on_goal 2 => decide)
    | ((with_reducible apply Keeps.step ?_ (State.act_keeps ..) ?_); on_goal 2 => decide)
    | ((with_reducible apply Keeps.step ?_ (State.modPod_keeps ..) ?_); on_goal 2 => decide)
    | with_reducible apply Keeps.ite
    | split
    | (dsimp +zetaDelta only; split)

theorem State.directIf_keeps (b : Bool) (s : State) : Keeps [.guar] s (State.directIf b s) := by
  unfold State.directIf
  repeat' first
    | with_reducible exact Keeps.refl ..
    | extract_lets
    | ((with_reducible apply Keeps.when ?_ _ _ ?_); on_goal 2 => intro _)
    | ((with_reducible apply Keeps.step ?_ (State.breach_keeps ..) ?_); on_goal 2 => decide)

theorem State.countTo_keeps (n : Ch) (s : State) : Keeps [.ch, .free] s (State.countTo n s) := by
  unfold State.countTo
  repeat' first
    | with_reducible exact Keeps.refl ..
    | extract_lets
    | ((with_reducible apply Keeps.step ?_ (State.used_keeps ..) ?_); on_goal 2 => decide)
    | ((with_reducible apply Keeps.step ?_ (State.modCh_keeps ..) ?_); on_goal 2 => decide)

theorem State.countNow_keeps (n : Ch) (s : State) : Keeps [.ch, .free] s (State.countNow n s) := by
  unfold State.countNow
  repeat' first
    | with_reducible exact Keeps.refl ..
    | extract_lets
    | ((with_reducible apply Keeps.step ?_ (State.used_keeps ..) ?_); on_goal 2 => decide)
    | ((with_reducible apply Keeps.step ?_ (State.modCh_keeps ..) ?_); on_goal 2 => decide)

theorem State.cntStart_keeps (n : Ch) (s : State) : Keeps [.ch] s (State.cntStart n s) := by
  unfold State.cntStart
  repeat' first
    | with_reducible exact Keeps.refl ..
    | extract_lets
    | ((with_reducible apply Keeps.step ?_ (State.modCh_keeps ..) ?_); on_goal 2 => decide)

theorem State.cntStop_keeps (n : Ch) (s : State) : Keeps [.ch, .free] s (State.cntStop n s) := by
  unfold State.cntStop
  repeat' first
    | with_reducible exact Keeps.refl ..
    | extract_lets
    | ((with_reducible apply Keeps.step ?_ (State.modCh_keeps ..) ?_); on_goal 2 => decide)
    | ((with_reducible apply Keeps.step ?_ (State.countTo_keeps ..) ?_); on_goal 2 => decide)

theorem State.cntClear_keeps (n : Ch) (s : State) : Keeps [.ch] s (State.cntClear n s) := by
  unfold State.cntClear
  repeat' first
    | with_reducible exact Keeps.refl ..
    | extract_lets
    | ((with_reducible apply Keeps.step ?_ (State.chCfgErr_keeps ..) ?_); on_goal 2 => decide)
    | ((with_reducible apply Keeps.step ?_ (State.modCh_keeps ..) ?_); on_goal 2 => decide)
    | with_reducible apply Keeps.ite

theorem State.cntLoad_keeps (n : Ch) (s : State) : Keeps [.ch] s (State.cntLoad n s) := by
  unfold State.cntLoad
  repeat' first
    | with_reducible exact Keeps.refl ..
    | extract_lets
    | ((with_reducible apply Keeps.step ?_ (State.chCfgErr_keeps ..) ?_); on_goal 2 => decide)
    | ((with_reducible apply Keeps.step ?_ (State.modCh_keeps ..) ?_); on_goal 2 => decide)
    | with_reducible apply Keeps.ite

theorem State.commitTop_keeps (m : Master) (n : Ch) (w : W) (s : State) : Keeps [.ch, .free] s (State.commitTop m n w s) := by
  unfold State.commitTop
  repeat' first
    | with_reducible exact Keeps.refl ..
    | extract_lets
    | ((with_reducible apply Keeps.step ?_ (State.modCh_keeps ..) ?_); on_goal 2 => decide)
    | ((with_reducible apply Keeps.step ?_ (State.countNow_keeps ..) ?_); on_goal 2 => decide)

theorem State.writeCntCfg_keeps (n : Ch) (w : W) (s : State) : Keeps [.ch] s (State.writeCntCfg n w s) := by
  unfold State.writeCntCfg
  repeat' first
    | with_reducible exact Keeps.refl ..
    | extract_lets
    | ((with_reducible apply Keeps.when ?_ _ _ ?_); on_goal 2 => intro _)
    | ((with_reducible apply Keeps.step ?_ (State.chCfgErr_keeps ..) ?_); on_goal 2 => decide)
    | ((with_reducible apply Keeps.step ?_ (State.modCh_keeps ..) ?_); on_goal 2 => decide)
    | with_reducible apply Keeps.ite

theorem State.commitUnit_keeps (u : Unit4) (set : CmpSet) (owner : Bool) (ev : Option Ev) (n : Ch) (s : State) : Keeps [.ch, .pod, .free] s (State.commitUnit u set owner ev n s) := by
  unfold State.commitUnit
  repeat' first
    | with_reducible exact Keeps.refl ..
    | extract_lets
    | ((with_reducible apply Keeps.when ?_ _ _ ?_); on_goal 2 => intro _)
    | ((with_reducible apply Keeps.step ?_ (State.countNow_keeps ..) ?_); on_goal 2 => decide)
    | ((with_reducible apply Keeps.step ?_ (State.used_keeps ..) ?_); on_goal 2 => decide)
    | ((with_reducible apply Keeps.step ?_ (State.chCfgErr_keeps ..) ?_); on_goal 2 => decide)
    | ((with_reducible apply Keeps.step ?_ (State.modCh_keeps ..) ?_); on_goal 2 => decide)
    | ((with_reducible apply Keeps.step ?_ (State.fire_keeps ..) ?_); on_goal 2 => decide)
    | with_reducible apply Keeps.ite
    | split
    | (dsimp +zetaDelta only; split)

theorem State.collide_keeps (n : Ch) (owned : Bool) (s : State) : Keeps [.guar, .ch] s (State.collide n owned s) := by
  unfold State.collide
  repeat' first
    | with_reducible exact Keeps.refl ..
    | extract_lets
    | ((with_reducible apply Keeps.step ?_ (State.directIf_keeps ..) ?_); on_goal 2 => decide)
    | ((with_reducible apply Keeps.step ?_ (State.chStat_keeps ..) ?_); on_goal 2 => decide)

theorem State.hostDisarm_keeps (u : Unit4) (n : Ch) (s : State) : Keeps [.guar, .ch] s (State.hostDisarm u n s) := by
  unfold State.hostDisarm
  repeat' first
    | with_reducible exact Keeps.refl ..
    | extract_lets
    | ((with_reducible apply Keeps.step ?_ (State.collide_keeps ..) ?_); on_goal 2 => decide)
    | ((with_reducible apply Keeps.step ?_ (State.modCh_keeps ..) ?_); on_goal 2 => decide)
    | with_reducible apply Keeps.ite

theorem State.hostDisarms_keeps (mask : BitVec 4) (n : Ch) (s : State) : Keeps [.guar, .ch, .free] s (State.hostDisarms mask n s) := by
  unfold State.hostDisarms
  repeat' first
    | with_reducible exact Keeps.refl ..
    | extract_lets
    | ((with_reducible refine Keeps.forAll _ ?_ _ ?_); on_goal 1 => intro _ _)
    | ((with_reducible apply Keeps.step ?_ (State.hostDisarm_keeps ..) ?_); on_goal 2 => decide)
    | ((with_reducible apply Keeps.step ?_ (State.countNow_keeps ..) ?_); on_goal 2 => decide)

theorem State.applyMatch_keeps (n : Ch) (x : Match) (s : State) : Keeps [.ch, .pod] s (State.applyMatch n x s) := by
  unfold State.applyMatch
  repeat' first
    | with_reducible exact Keeps.refl ..
    | extract_lets
    | ((with_reducible apply Keeps.step ?_ (State.fire_keeps ..) ?_); on_goal 2 => decide)
    | ((with_reducible apply Keeps.step ?_ (State.modCh_keeps ..) ?_); on_goal 2 => decide)

theorem State.applyMatches_keeps (n : Ch) (s : State) : Keeps [.ch, .pod, .free] s (State.applyMatches n s) := by
  unfold State.applyMatches
  repeat' first
    | with_reducible exact Keeps.refl ..
    | extract_lets
    | ((with_reducible refine Keeps.forAll _ ?_ _ ?_); on_goal 1 => intro _ _)
    | ((with_reducible apply Keeps.step ?_ (State.countNow_keeps ..) ?_); on_goal 2 => decide)
    | ((with_reducible apply Keeps.step ?_ (State.applyMatch_keeps ..) ?_); on_goal 2 => decide)

theorem State.hostCommit_keeps (u : Unit4) (set : CmpSet) (n : Ch) (s : State) : Keeps [.guar, .ch, .pod, .free] s (State.hostCommit u set n s) := by
  unfold State.hostCommit
  repeat' first
    | with_reducible exact Keeps.refl ..
    | extract_lets
    | ((with_reducible apply Keeps.step ?_ (State.collide_keeps ..) ?_); on_goal 2 => decide)
    | ((with_reducible apply Keeps.step ?_ (State.chCfgErr_keeps ..) ?_); on_goal 2 => decide)
    | ((with_reducible apply Keeps.step ?_ (State.commitUnit_keeps ..) ?_); on_goal 2 => decide)
    | ((with_reducible apply Keeps.step ?_ (State.applyMatches_keeps ..) ?_); on_goal 2 => decide)
    | ((with_reducible apply Keeps.step ?_ (State.directIf_keeps ..) ?_); on_goal 2 => decide)
    | with_reducible apply Keeps.ite

theorem State.rearm_keeps (u : Unit4) (n : Ch) (s : State) : Keeps [.guar, .ch, .pod, .free] s (State.rearm u n s) := by
  unfold State.rearm
  repeat' first
    | with_reducible exact Keeps.refl ..
    | extract_lets
    | ((with_reducible apply Keeps.step ?_ (State.hostCommit_keeps ..) ?_); on_goal 2 => decide)

theorem State.trainEdge_keeps (n : Ch) (s : State) : Keeps [.ch, .pod, .free] s (State.trainEdge n s) := by
  unfold State.trainEdge
  repeat' first
    | with_reducible exact Keeps.refl ..
    | extract_lets
    | ((with_reducible apply Keeps.when ?_ _ _ ?_); on_goal 2 => intro _)
    | ((with_reducible apply Keeps.step ?_ (State.applyMatches_keeps ..) ?_); on_goal 2 => decide)
    | ((with_reducible apply Keeps.step ?_ (State.modCh_keeps ..) ?_); on_goal 2 => decide)

theorem State.force_keeps (f : Bool → Bool) (n : Ch) (s : State) : Keeps [.guar, .ch] s (State.force f n s) := by
  unfold State.force
  repeat' first
    | with_reducible exact Keeps.refl ..
    | extract_lets
    | ((with_reducible apply Keeps.step ?_ (State.directIf_keeps ..) ?_); on_goal 2 => decide)
    | ((with_reducible apply Keeps.step ?_ (State.modCh_keeps ..) ?_); on_goal 2 => decide)
    | with_reducible apply Keeps.ite

theorem State.advNow_keeps (n : Ch) (s : State) : Keeps [.ch] s (State.advNow n s) := by
  unfold State.advNow
  repeat' first
    | with_reducible exact Keeps.refl ..
    | extract_lets
    | ((with_reducible apply Keeps.step ?_ (State.modCh_keeps ..) ?_); on_goal 2 => decide)

theorem State.cancelComp_keeps (n : Ch) (s : State) : Keeps [.pod, .sur] s (State.cancelComp n s) := by
  unfold State.cancelComp
  repeat' first
    | with_reducible exact Keeps.refl ..
    | extract_lets
    | ((with_reducible apply Keeps.step ?_ (State.modPod_keeps ..) ?_); on_goal 2 => decide)
    | with_reducible apply Keeps.ite
    | split
    | (dsimp +zetaDelta only; split)
    | ((with_reducible apply Keeps.upd ?_); any_goals first | exact Or.inl (by decide) | exact Or.inr (Eq.refl _) | exact Or.inr (Or.inl ⟨by decide, Eq.refl _⟩) | exact Or.inr (Or.inr (Or.inl ⟨by decide, Eq.refl _⟩)) | exact Or.inr (Or.inr (Or.inr (Eq.refl _))))

theorem State.advCommit_keeps (n : Ch) (epoch : Nat) (s : State) : Keeps [.ch, .pod, .sur] s (State.advCommit n epoch s) := by
  unfold State.advCommit
  repeat' first
    | with_reducible exact Keeps.refl ..
    | extract_lets
    | ((with_reducible apply Keeps.step ?_ (State.advNow_keeps ..) ?_); on_goal 2 => decide)
    | ((with_reducible apply Keeps.step ?_ (State.modCh_keeps ..) ?_); on_goal 2 => decide)
    | ((with_reducible apply Keeps.step ?_ (State.cancelComp_keeps ..) ?_); on_goal 2 => decide)

theorem State.writeOutCfg_keeps (n : Ch) (w : W) (s : State) : Keeps [.ch] s (State.writeOutCfg n w s) := by
  unfold State.writeOutCfg
  repeat' first
    | with_reducible exact Keeps.refl ..
    | extract_lets
    | ((with_reducible apply Keeps.step ?_ (State.modCh_keeps ..) ?_); on_goal 2 => decide)

theorem enterAll_keeps (n : Ch) (lim : Nat) : ∀ (l : List (Nat × CapE)) (s : State), Keeps [.ch, .pod] s (enterAll n lim l s)
  | [], s => Keeps.refl _ s
  | (b, e) :: r, s => by
    have ih := enterAll_keeps n lim r
    unfold enterAll
    split
    · extract_lets k
      split
      extract_lets _ t u
      refine Keeps.trans ?_ (ih u)
      have ht : Keeps [.ch, .pod] s t := (State.modCh_keeps ..).mono (by decide)
      show Keeps _ s (match _ with | none => t | some e' => t.modPod (podOf n) (fun p => { p with capQ := p.capQ ++ [(n, e')] }))
      split
      · exact ht
      · exact ht.step (State.modPod_keeps ..) (by decide)
    · exact Keeps.refl _ s

theorem State.settleCaps_keeps (lim : Nat) (n : Ch) (s : State) : Keeps [.ch, .pod] s (State.settleCaps lim n s) := by
  unfold State.settleCaps
  repeat' first
    | with_reducible exact Keeps.refl ..
    | extract_lets
    | ((with_reducible apply Keeps.step ?_ (enterAll_keeps ..) ?_); on_goal 2 => decide)

theorem State.settleSpill_keeps (n : Ch) (s : State) : Keeps [.ch] s (State.settleSpill n s) := by
  unfold State.settleSpill
  repeat' first
    | with_reducible exact Keeps.refl ..
    | extract_lets
    | ((with_reducible apply Keeps.step ?_ (State.modCh_keeps ..) ?_); on_goal 2 => decide)
    | with_reducible apply Keeps.ite

theorem State.capPop_keeps (m : Master) (n : Ch) (s : State) : Keeps [.master, .ch, .pod] s (State.capPop m n s) := by
  unfold State.capPop
  repeat' first
    | with_reducible exact Keeps.refl ..
    | extract_lets
    | ((with_reducible apply Keeps.step ?_ (State.settleSpill_keeps ..) ?_); on_goal 2 => decide)
    | ((with_reducible apply Keeps.step ?_ (State.settleCaps_keeps ..) ?_); on_goal 2 => decide)
    | ((with_reducible apply Keeps.step ?_ (State.lowRead_keeps ..) ?_); on_goal 2 => decide)
    | ((with_reducible apply Keeps.step ?_ (State.modCh_keeps ..) ?_); on_goal 2 => decide)
    | with_reducible apply Keeps.ite
    | split
    | (dsimp +zetaDelta only; split)

theorem feedSource_keeps (p : Pod) (sel ta : Nat) (level : Bool) (s : State) : Keeps [.ch] s (feedSource p sel ta level s) := by
  unfold feedSource
  repeat' first
    | with_reducible exact Keeps.refl ..
    | extract_lets
    | ((with_reducible refine Keeps.forAll _ ?_ _ ?_); on_goal 1 => intro _ _)
    | ((with_reducible apply Keeps.step ?_ (State.modCh_keeps ..) ?_); on_goal 2 => decide)

theorem State.acceptPin_keeps (n : Ch) (s : State) : Keeps [.ch, .pod, .free] s (State.acceptPin n s) := by
  unfold State.acceptPin
  repeat' first
    | with_reducible exact Keeps.refl ..
    | extract_lets
    | ((with_reducible apply Keeps.step ?_ (State.used_keeps ..) ?_); on_goal 2 => decide)
    | ((with_reducible apply Keeps.step ?_ (State.settleCaps_keeps ..) ?_); on_goal 2 => decide)
    | ((with_reducible apply Keeps.step ?_ (State.modCh_keeps ..) ?_); on_goal 2 => decide)
    | ((with_reducible apply Keeps.step ?_ (feedSource_keeps ..) ?_); on_goal 2 => decide)
    | with_reducible apply Keeps.ite
    | split

theorem State.acceptSpb_keeps (p : Pod) (s : State) : Keeps [.ch, .health] s (State.acceptSpb p s) := by
  unfold State.acceptSpb
  repeat' first
    | with_reducible exact Keeps.refl ..
    | extract_lets
    | ((with_reducible apply Keeps.step ?_ (State.modHealth_keeps ..) ?_); on_goal 2 => decide)
    | ((with_reducible apply Keeps.step ?_ (feedSource_keeps ..) ?_); on_goal 2 => decide)
    | with_reducible apply Keeps.ite
    | split

theorem State.crossPin_keeps (x : Nat) (level : Bool) (n : Ch) (s : State) : Keeps [.ch, .pod, .free] s (State.crossPin x level n s) := by
  unfold State.crossPin
  repeat' first
    | with_reducible exact Keeps.refl ..
    | extract_lets
    | ((with_reducible apply Keeps.when ?_ _ _ ?_); on_goal 2 => intro _)
    | ((with_reducible apply Keeps.step ?_ (State.modCh_keeps ..) ?_); on_goal 2 => decide)
    | ((with_reducible apply Keeps.step ?_ (State.countNow_keeps ..) ?_); on_goal 2 => decide)
    | ((with_reducible apply Keeps.step ?_ (State.acceptPin_keeps ..) ?_); on_goal 2 => decide)
    | with_reducible apply Keeps.ite

theorem State.rfxArm_keeps (t : Nat) (n : Ch) (s : State) : Keeps [.ch] s (State.rfxArm t n s) := by
  unfold State.rfxArm
  repeat' first
    | with_reducible exact Keeps.refl ..
    | extract_lets
    | ((with_reducible apply Keeps.step ?_ (State.modCh_keeps ..) ?_); on_goal 2 => decide)

theorem State.rfxDisarm_keeps (t : Nat) (n : Ch) (s : State) : Keeps [.ch] s (State.rfxDisarm t n s) := by
  unfold State.rfxDisarm
  repeat' first
    | with_reducible exact Keeps.refl ..
    | extract_lets
    | ((with_reducible apply Keeps.step ?_ (State.modCh_keeps ..) ?_); on_goal 2 => decide)

theorem settleRfxList_keeps (n : Ch) (t : Nat) : ∀ (l : List (Nat × Bool)) (s : State), Keeps [.ch] s (settleRfxList n t l s)
  | [], s => Keeps.refl _ s
  | (b, on) :: r, s => by
    have ih := settleRfxList_keeps n t r
    unfold settleRfxList
    split
    · extract_lets u
      refine Keeps.trans ?_ (ih _)
      have hu : Keeps [.ch] s u := State.modCh_keeps ..
      split
      · exact hu.trans (State.rfxArm_keeps ..)
      · exact hu.trans (State.rfxDisarm_keeps ..)
    · exact Keeps.refl _ s

theorem State.settleRfx_keeps (t : Nat) (n : Ch) (s : State) : Keeps [.ch] s (State.settleRfx t n s) := by
  unfold State.settleRfx
  repeat' first
    | with_reducible exact Keeps.refl ..
    | extract_lets
    | ((with_reducible apply Keeps.step ?_ (settleRfxList_keeps ..) ?_); on_goal 2 => decide)

theorem State.reflexInput_keeps (n : Ch) (s : State) : Keeps [.ch] s (State.reflexInput n s) := by
  unfold State.reflexInput
  repeat' first
    | with_reducible exact Keeps.refl ..
    | extract_lets
    | ((with_reducible apply Keeps.step ?_ (State.settleRfx_keeps ..) ?_); on_goal 2 => decide)
    | ((with_reducible apply Keeps.step ?_ (State.modCh_keeps ..) ?_); on_goal 2 => decide)

theorem State.writeRfxCfg_keeps (n : Ch) (w : W) (s : State) : Keeps [.ch] s (State.writeRfxCfg n w s) := by
  unfold State.writeRfxCfg
  repeat' first
    | with_reducible exact Keeps.refl ..
    | extract_lets
    | ((with_reducible apply Keeps.step ?_ (State.chCfgErr_keeps ..) ?_); on_goal 2 => decide)
    | ((with_reducible apply Keeps.step ?_ (State.modCh_keeps ..) ?_); on_goal 2 => decide)
    | with_reducible apply Keeps.ite

theorem State.pipPins_keeps (n : Ch) (tk : Nat) (ws : List (Nat × Bool)) (s : State) : Keeps [.ch] s (State.pipPins n tk ws s) := by
  unfold State.pipPins
  repeat' first
    | with_reducible exact Keeps.refl ..
    | extract_lets
    | ((with_reducible refine Keeps.forAll _ ?_ _ ?_); on_goal 1 => intro _ _)
    | ((with_reducible apply Keeps.step ?_ (State.modCh_keeps ..) ?_); on_goal 2 => decide)
    | ((with_reducible apply Keeps.step ?_ (State.modPip_keeps ..) ?_); on_goal 2 => decide)
    | with_reducible apply Keeps.ite

theorem State.raisePline_keeps (p : Pod) (tk i : Nat) (s : State) : Keeps [.ch, .pod] s (State.raisePline p tk i s) := by
  unfold State.raisePline
  repeat' first
    | with_reducible exact Keeps.refl ..
    | extract_lets
    | ((with_reducible refine Keeps.forAll _ ?_ _ ?_); on_goal 1 => intro _ _)
    | ((with_reducible apply Keeps.step ?_ (State.modPod_keeps ..) ?_); on_goal 2 => decide)
    | ((with_reducible apply Keeps.step ?_ (State.modPip_keeps ..) ?_); on_goal 2 => decide)

theorem State.pipComplete_keeps (cx : PipCx) (i : PipInstr) (issue : Bool) (r : PipRes) (s : State) : Keeps [.ch, .pod] s (State.pipComplete cx i issue r s) := by
  unfold State.pipComplete
  repeat' first
    | with_reducible exact Keeps.refl ..
    | extract_lets
    | ((with_reducible apply Keeps.step ?_ (State.modPip_keeps ..) ?_); on_goal 2 => decide)
    | ((with_reducible apply Keeps.step ?_ (State.pipPins_keeps ..) ?_); on_goal 2 => decide)
    | ((with_reducible apply Keeps.step ?_ (State.raisePline_keeps ..) ?_); on_goal 2 => decide)
    | ((with_reducible apply Keeps.step ?_ (State.pipHalt_keeps ..) ?_); on_goal 2 => decide)
    | with_reducible apply Keeps.ite
    | split
    | (dsimp +zetaDelta only; split)

theorem State.pipNow_keeps (n : Ch) (s : State) : Keeps [.ch, .pod] s (State.pipNow n s) := by
  unfold State.pipNow
  repeat' first
    | with_reducible exact Keeps.refl ..
    | extract_lets
    | ((with_reducible apply Keeps.step ?_ (State.modPip_keeps ..) ?_); on_goal 2 => decide)
    | ((with_reducible apply Keeps.step ?_ (State.settleCaps_keeps ..) ?_); on_goal 2 => decide)

theorem State.pipRun_keeps (want : PipOp → Bool) (n : Ch) (s : State) : Keeps [.ch, .pod] s (State.pipRun want n s) := by
  unfold State.pipRun
  repeat' first
    | with_reducible exact Keeps.refl ..
    | extract_lets
    | ((with_reducible apply Keeps.step ?_ (State.pipNow_keeps ..) ?_); on_goal 2 => decide)
    | ((with_reducible apply Keeps.step ?_ (State.pipComplete_keeps ..) ?_); on_goal 2 => decide)
    | ((with_reducible apply Keeps.step ?_ (State.pipPins_keeps ..) ?_); on_goal 2 => decide)
    | ((with_reducible apply Keeps.step ?_ (State.modPip_keeps ..) ?_); on_goal 2 => decide)
    | with_reducible apply Keeps.ite
    | split

theorem State.pipRetry_keeps (k : Nat) (n : Ch) (s t : State) (h : State.pipRetry k n s = some t) : Keeps [.ch, .pod] s t := by
  unfold State.pipRetry at h
  extract_lets p at h
  split at h
  · exact absurd h (by simp)
  · simp only [Option.map_eq_some_iff] at h
    obtain ⟨r, _, rfl⟩ := h
    exact State.pipComplete_keeps ..

theorem State.pipWaitComplete_keeps (n : Ch) (s : State) : Keeps [.ch, .pod] s (State.pipWaitComplete n s) := by
  unfold State.pipWaitComplete
  repeat' first
    | with_reducible exact Keeps.refl ..
    | extract_lets
    | (refine Keeps.trans ?_ (State.pipRetry_keeps _ _ _ _ (by assumption)))
    | ((with_reducible apply Keeps.step ?_ (State.pipNow_keeps ..) ?_); on_goal 2 => decide)
    | with_reducible apply Keeps.ite
    | split

theorem State.pipWaitTimeout_keeps (n : Ch) (s : State) : Keeps [.ch, .pod] s (State.pipWaitTimeout n s) := by
  have g : ∀ (k : Nat) (u : State), Keeps [.ch, .pod] u ((u.pipRetry k n).getD u) := by
    intro k u
    cases h : u.pipRetry k n with
    | none => exact Keeps.refl _ u
    | some t => exact State.pipRetry_keeps _ _ _ _ h
  unfold State.pipWaitTimeout
  repeat' first
    | with_reducible exact Keeps.refl ..
    | extract_lets
    | (with_reducible refine Keeps.trans ?_ (g _ _))
    | ((with_reducible apply Keeps.step ?_ (State.pipNow_keeps ..) ?_); on_goal 2 => decide)
    | with_reducible apply Keeps.ite
    | split

theorem State.pipResume_keeps (n : Ch) (s : State) : Keeps [.ch] s (State.pipResume n s) := by
  unfold State.pipResume
  repeat' first
    | with_reducible exact Keeps.refl ..
    | extract_lets
    | ((with_reducible apply Keeps.step ?_ (State.modPip_keeps ..) ?_); on_goal 2 => decide)
    | with_reducible apply Keeps.ite

theorem State.writePipCtrl_keeps (n : Ch) (w : W) (s : State) : Keeps [.ch, .pod] s (State.writePipCtrl n w s) := by
  unfold State.writePipCtrl
  repeat' first
    | with_reducible exact Keeps.refl ..
    | extract_lets
    | ((with_reducible apply Keeps.step ?_ (State.pipNow_keeps ..) ?_); on_goal 2 => decide)
    | ((with_reducible apply Keeps.step ?_ (State.modPip_keeps ..) ?_); on_goal 2 => decide)
    | ((with_reducible apply Keeps.step ?_ (State.pipHalt_keeps ..) ?_); on_goal 2 => decide)
    | with_reducible apply Keeps.ite

theorem State.writePipPins_keeps (n : Ch) (w : W) (s : State) : Keeps [.ch, .pod] s (State.writePipPins n w s) := by
  unfold State.writePipPins
  repeat' first
    | with_reducible exact Keeps.refl ..
    | extract_lets
    | ((with_reducible apply Keeps.step ?_ (State.pipNow_keeps ..) ?_); on_goal 2 => decide)
    | ((with_reducible apply Keeps.step ?_ (State.modPip_keeps ..) ?_); on_goal 2 => decide)

theorem State.rxfPop_keeps (m : Master) (n : Ch) (s : State) : Keeps [.master, .ch, .pod] s (State.rxfPop m n s) := by
  unfold State.rxfPop
  repeat' first
    | with_reducible exact Keeps.refl ..
    | extract_lets
    | ((with_reducible apply Keeps.step ?_ (State.pipNow_keeps ..) ?_); on_goal 2 => decide)
    | ((with_reducible apply Keeps.step ?_ (State.ret_keeps ..) ?_); on_goal 2 => decide)
    | ((with_reducible apply Keeps.step ?_ (State.modPip_keeps ..) ?_); on_goal 2 => decide)
    | with_reducible apply Keeps.ite
    | split

end Sys2Proof.Machine
end

