-- ==== Sys2Proof/Laws/FrameSched.lean ====
section
/-!
SUPPORT. What each operation of results, the axes, the calendar and the pods leaves alone (`Keeps`).
-/
namespace Sys2Proof.Machine
-- One script is tried on every goal of this file, so on some goals a part of it has nothing to do.
set_option linter.unusedTactic false
set_option linter.unreachableTactic false

theorem State.ringWrite_keeps (base : BitVec 64) (off : Nat) (bs : List Byte) (s : State) : Keeps [.mem, .store, .pcie] s (State.ringWrite base off bs s) := by
  unfold State.ringWrite
  repeat' first
    | with_reducible exact Keeps.refl ..
    | extract_lets
    | with_reducible apply Keeps.ite
    | split
    | (dsimp +zetaDelta only; split)
    | ((with_reducible apply Keeps.upd ?_); any_goals first | exact Or.inl (by decide) | exact Or.inr (Eq.refl _) | exact Or.inr (Or.inl ⟨by decide, Eq.refl _⟩) | exact Or.inr (Or.inr (Or.inl ⟨by decide, Eq.refl _⟩)) | exact Or.inr (Or.inr (Or.inr (Eq.refl _))))

theorem State.resPut_keeps (p : Pod) (r : ResRec) (s : State) : Keeps [.pod, .mem, .store, .pcie] s (State.resPut p r s) := by
  unfold State.resPut
  repeat' first
    | with_reducible exact Keeps.refl ..
    | extract_lets
    | ((with_reducible apply Keeps.step ?_ (State.ringWrite_keeps ..) ?_); on_goal 2 => decide)
    | ((with_reducible apply Keeps.step ?_ (State.modPod_keeps ..) ?_); on_goal 2 => decide)

theorem State.resWrite_keeps (p : Pod) (reserved : Bool) (r : ResRec) (s : State) : Keeps [.pod, .mem, .store, .pcie] s (State.resWrite p reserved r s) := by
  unfold State.resWrite
  repeat' first
    | with_reducible exact Keeps.refl ..
    | extract_lets
    | ((with_reducible apply Keeps.step ?_ (State.modPod_keeps ..) ?_); on_goal 2 => decide)
    | ((with_reducible apply Keeps.step ?_ (State.resPut_keeps ..) ?_); on_goal 2 => decide)
    | with_reducible apply Keeps.ite

theorem drainBacklog_keeps (p : Pod) : ∀ (k : Nat) (s : State), Keeps [.pod, .mem, .store, .pcie] s (drainBacklog p k s)
  | 0, s => Keeps.refl _ s
  | k + 1, s => by
    have ih := drainBacklog_keeps p k
    unfold drainBacklog
    extract_lets q
    split
    · exact Keeps.refl _ s
    · split
      · refine Keeps.trans ?_ (ih _)
        exact ((State.modPod_keeps ..).mono (by decide)).step (State.resPut_keeps ..) (by decide)
      · exact Keeps.refl _ s

theorem State.gapRecord_keeps (p : Pod) (s : State) : Keeps [.pod] s (State.gapRecord p s) := by
  unfold State.gapRecord
  repeat' first
    | with_reducible exact Keeps.refl ..
    | extract_lets
    | ((with_reducible apply Keeps.step ?_ (State.modPod_keeps ..) ?_); on_goal 2 => decide)
    | with_reducible apply Keeps.ite

theorem State.backlogDrain_keeps (p : Pod) (s : State) : Keeps [.pod, .mem, .store, .pcie] s (State.backlogDrain p s) := by
  unfold State.backlogDrain
  repeat' first
    | with_reducible exact Keeps.refl ..
    | extract_lets
    | ((with_reducible apply Keeps.step ?_ (drainBacklog_keeps ..) ?_); on_goal 2 => decide)
    | ((with_reducible apply Keeps.step ?_ (State.gapRecord_keeps ..) ?_); on_goal 2 => decide)

theorem State.report_keeps (p : Pod) (o : Outcome) (s : State) : Keeps [.pod, .mem, .store, .pcie] s (State.report p o s) := by
  unfold State.report
  repeat' first
    | with_reducible exact Keeps.refl ..
    | extract_lets
    | ((with_reducible apply Keeps.step ?_ (State.resWrite_keeps ..) ?_); on_goal 2 => decide)
    | with_reducible apply Keeps.ite

theorem State.retire_keeps (p : Pod) (s : State) : Keeps [.pod, .mem, .store, .pcie] s (State.retire p s) := by
  unfold State.retire
  repeat' first
    | with_reducible exact Keeps.refl ..
    | extract_lets
    | ((with_reducible refine Keeps.forAll _ ?_ _ ?_); on_goal 1 => intro _ _)
    | ((with_reducible apply Keeps.step ?_ (State.modPod_keeps ..) ?_); on_goal 2 => decide)
    | ((with_reducible apply Keeps.step ?_ (State.report_keeps ..) ?_); on_goal 2 => decide)

theorem State.writeResRd_keeps (p : Pod) (w : W) (s : State) : Keeps [.pod] s (State.writeResRd p w s) := by
  unfold State.writeResRd
  repeat' first
    | with_reducible exact Keeps.refl ..
    | extract_lets
    | ((with_reducible apply Keeps.step ?_ (State.modPod_keeps ..) ?_); on_goal 2 => decide)

theorem State.noticeCode_keeps (i : Fin 8) (code : Nat) (data : List Byte) (s : State) : Keeps [.mbx] s (State.noticeCode i code data s) := by
  unfold State.noticeCode
  repeat' first
    | with_reducible exact Keeps.refl ..
    | extract_lets
    | ((with_reducible apply Keeps.step ?_ (State.modMbx_keeps ..) ?_); on_goal 2 => decide)

theorem State.notice_keeps (i : Fin 8) (data : List Byte) (s : State) : Keeps [.mbx, .free] s (State.notice i data s) := by
  unfold State.notice
  repeat' first
    | with_reducible exact Keeps.refl ..
    | extract_lets
    | ((with_reducible apply Keeps.step ?_ (State.used_keeps ..) ?_); on_goal 2 => decide)
    | ((with_reducible apply Keeps.step ?_ (State.noticeCode_keeps ..) ?_); on_goal 2 => decide)

theorem State.answer_keeps (b : CmdMbx) (status detail : Nat) (reply : List Byte) (s : State) : Keeps [.mbx] s (State.answer b status detail reply s) := by
  unfold State.answer
  repeat' first
    | with_reducible exact Keeps.refl ..
    | extract_lets
    | ((with_reducible apply Keeps.step ?_ (State.modMbx_keeps ..) ?_); on_goal 2 => decide)

theorem Keeps.command {l : List Part} (b : CmdMbx) (op : Nat) (f : List Byte → State → State) (s : State)
    (k : ∀ body u, Keeps l u (f body u)) : Keeps l s (State.command b op f s) := by
  unfold State.command
  split
  · split
    · exact k _ s
    · exact Keeps.refl _ s
  · exact Keeps.refl _ s

theorem State.measAnswer_keeps (j : MeasJob) (status detail : Nat) (reply : List Byte) (s : State) : Keeps [.mbx] s (State.measAnswer j status detail reply s) := by
  unfold State.measAnswer
  repeat' first
    | with_reducible exact Keeps.refl ..
    | extract_lets
    | ((with_reducible apply Keeps.step ?_ (State.answer_keeps ..) ?_); on_goal 2 => decide)
    | with_reducible apply Keeps.ite
    | split

theorem State.measKeep_keeps (j : MeasJob) (value : Option Nat) (s : State) : Keeps [.sur] s (State.measKeep j value s) := by
  unfold State.measKeep
  repeat' first
    | with_reducible exact Keeps.refl ..
    | extract_lets
    | with_reducible apply Keeps.ite
    | split
    | (dsimp +zetaDelta only; split)
    | ((with_reducible apply Keeps.upd ?_); any_goals first | exact Or.inl (by decide) | exact Or.inr (Eq.refl _) | exact Or.inr (Or.inl ⟨by decide, Eq.refl _⟩) | exact Or.inr (Or.inr (Or.inl ⟨by decide, Eq.refl _⟩)) | exact Or.inr (Or.inr (Or.inr (Eq.refl _))))

theorem State.measEnd_keeps (status detail : Nat) (reply : List Byte) (value : W) (kept : Option Nat) (s : State) : Keeps [.pod, .mem, .store, .mbx, .pcie, .sur, .free] s (State.measEnd status detail reply value kept s) := by
  unfold State.measEnd
  repeat' first
    | with_reducible exact Keeps.refl ..
    | extract_lets
    | ((with_reducible apply Keeps.step ?_ (State.used_keeps ..) ?_); on_goal 2 => decide)
    | ((with_reducible apply Keeps.step ?_ (State.resWrite_keeps ..) ?_); on_goal 2 => decide)
    | ((with_reducible apply Keeps.step ?_ (State.notice_keeps ..) ?_); on_goal 2 => decide)
    | ((with_reducible apply Keeps.step ?_ (State.measAnswer_keeps ..) ?_); on_goal 2 => decide)
    | ((with_reducible apply Keeps.step ?_ (State.measKeep_keeps ..) ?_); on_goal 2 => decide)
    | with_reducible apply Keeps.ite
    | split
    | (dsimp +zetaDelta only; split)
    | ((with_reducible apply Keeps.upd ?_); any_goals first | exact Or.inl (by decide) | exact Or.inr (Eq.refl _) | exact Or.inr (Or.inl ⟨by decide, Eq.refl _⟩) | exact Or.inr (Or.inr (Or.inl ⟨by decide, Eq.refl _⟩)) | exact Or.inr (Or.inr (Or.inr (Eq.refl _))))

theorem State.measFail_keeps (reason : Nat) (s : State) : Keeps [.pod, .mem, .store, .mbx, .pcie, .sur, .free] s (State.measFail reason s) := by
  unfold State.measFail
  repeat' first
    | with_reducible exact Keeps.refl ..
    | extract_lets
    | ((with_reducible apply Keeps.step ?_ (State.measEnd_keeps ..) ?_); on_goal 2 => decide)

theorem State.measAbandon_keeps (n : Ch) (s : State) : Keeps [.pod, .mem, .store, .mbx, .pcie, .sur, .free] s (State.measAbandon n s) := by
  unfold State.measAbandon
  repeat' first
    | with_reducible exact Keeps.refl ..
    | extract_lets
    | ((with_reducible apply Keeps.step ?_ (State.measFail_keeps ..) ?_); on_goal 2 => decide)
    | with_reducible apply Keeps.ite
    | split
    | (dsimp +zetaDelta only; split)
    | ((with_reducible apply Keeps.upd ?_); any_goals first | exact Or.inl (by decide) | exact Or.inr (Eq.refl _) | exact Or.inr (Or.inl ⟨by decide, Eq.refl _⟩) | exact Or.inr (Or.inr (Or.inl ⟨by decide, Eq.refl _⟩)) | exact Or.inr (Or.inr (Or.inr (Eq.refl _))))

theorem State.measStop_keeps (n : Ch) (s : State) : Keeps [.pod, .mem, .store, .mbx, .pcie, .sur, .free] s (State.measStop n s) := by
  unfold State.measStop
  repeat' first
    | with_reducible exact Keeps.refl ..
    | extract_lets
    | ((with_reducible apply Keeps.step ?_ (State.measFail_keeps ..) ?_); on_goal 2 => decide)
    | with_reducible apply Keeps.ite

theorem State.freeSlots_keeps (n : Nat) (s : State) : Keeps [.cal] s (State.freeSlots n s) := by
  unfold State.freeSlots
  repeat' first
    | with_reducible exact Keeps.refl ..
    | extract_lets
    | with_reducible apply Keeps.ite
    | split
    | (dsimp +zetaDelta only; split)
    | ((with_reducible apply Keeps.upd ?_); any_goals first | exact Or.inl (by decide) | exact Or.inr (Eq.refl _) | exact Or.inr (Or.inl ⟨by decide, Eq.refl _⟩) | exact Or.inr (Or.inr (Or.inl ⟨by decide, Eq.refl _⟩)) | exact Or.inr (Or.inr (Or.inr (Eq.refl _))))

theorem State.drainCheck_keeps (p : Pod) (b : Nat) (s : State) : Keeps [.guar, .pod] s (State.drainCheck p b s) := by
  unfold State.drainCheck
  repeat' first
    | with_reducible exact Keeps.refl ..
    | extract_lets
    | ((with_reducible apply Keeps.when ?_ _ _ ?_); on_goal 2 => intro _)
    | ((with_reducible apply Keeps.step ?_ (State.modPod_keeps ..) ?_); on_goal 2 => decide)
    | ((with_reducible apply Keeps.step ?_ (State.breach_keeps ..) ?_); on_goal 2 => decide)

theorem State.drainIf_keeps (p : Pod) (e : Ev) (s : State) : Keeps [.guar, .pod] s (State.drainIf p e s) := by
  unfold State.drainIf
  repeat' first
    | with_reducible exact Keeps.refl ..
    | extract_lets
    | ((with_reducible apply Keeps.when ?_ _ _ ?_); on_goal 2 => intro _)
    | ((with_reducible apply Keeps.step ?_ (State.drainCheck_keeps ..) ?_); on_goal 2 => decide)

theorem State.stageEv_keeps (e : Ev) (s : State) : Keeps [.pod] s (State.stageEv e s) := by
  unfold State.stageEv
  repeat' first
    | with_reducible exact Keeps.refl ..
    | extract_lets
    | ((with_reducible apply Keeps.step ?_ (State.modPod_keeps ..) ?_); on_goal 2 => decide)

theorem State.mapPodEvs_keeps (p : Pod) (f : Ev → Ev) (s : State) : Keeps [.ch, .pod] s (State.mapPodEvs p f s) := by
  unfold State.mapPodEvs
  repeat' first
    | with_reducible exact Keeps.refl ..
    | extract_lets
    | ((with_reducible refine Keeps.forAll _ ?_ _ ?_); on_goal 1 => intro _ _)
    | ((with_reducible apply Keeps.step ?_ (State.modPod_keeps ..) ?_); on_goal 2 => decide)
    | ((with_reducible apply Keeps.step ?_ (State.modCh_keeps ..) ?_); on_goal 2 => decide)

theorem State.markAmbig_keeps (e : Ev) (s : State) : Keeps [.ch, .cal, .pod] s (State.markAmbig e s).1 := by
  unfold State.markAmbig
  repeat' first
    | with_reducible exact Keeps.refl ..
    | extract_lets
    | ((with_reducible apply Keeps.step ?_ (State.mapPodEvs_keeps ..) ?_); on_goal 2 => decide)
    | with_reducible apply Keeps.ite
    | split
    | (dsimp +zetaDelta only; split)
    | ((with_reducible apply Keeps.upd ?_); any_goals first | exact Or.inl (by decide) | exact Or.inr (Eq.refl _) | exact Or.inr (Or.inl ⟨by decide, Eq.refl _⟩) | exact Or.inr (Or.inr (Or.inl ⟨by decide, Eq.refl _⟩)) | exact Or.inr (Or.inr (Or.inr (Eq.refl _))))

theorem State.keepHeads_keeps (k : Ax) (s : State) : Keeps [.cal] s (State.keepHeads k s) := by
  unfold State.keepHeads
  repeat' first
    | with_reducible exact Keeps.refl ..
    | extract_lets
    | with_reducible apply Keeps.ite
    | split
    | (dsimp +zetaDelta only; split)
    | ((with_reducible apply Keeps.upd ?_); any_goals first | exact Or.inl (by decide) | exact Or.inr (Eq.refl _) | exact Or.inr (Or.inl ⟨by decide, Eq.refl _⟩) | exact Or.inr (Or.inr (Or.inl ⟨by decide, Eq.refl _⟩)) | exact Or.inr (Or.inr (Or.inr (Eq.refl _))))

theorem State.dropPreds_keeps (k : Ax) (s : State) : Keeps [.cal] s (State.dropPreds k s) := by
  unfold State.dropPreds
  repeat' first
    | with_reducible exact Keeps.refl ..
    | extract_lets
    | with_reducible apply Keeps.ite
    | split
    | (dsimp +zetaDelta only; split)
    | ((with_reducible apply Keeps.upd ?_); any_goals first | exact Or.inl (by decide) | exact Or.inr (Eq.refl _) | exact Or.inr (Or.inl ⟨by decide, Eq.refl _⟩) | exact Or.inr (Or.inr (Or.inl ⟨by decide, Eq.refl _⟩)) | exact Or.inr (Or.inr (Or.inr (Eq.refl _))))

theorem State.unlist_keeps (o : Nat) (s : State) : Keeps [.cal] s (State.unlist o s) := by
  unfold State.unlist
  repeat' first
    | with_reducible exact Keeps.refl ..
    | extract_lets
    | with_reducible apply Keeps.ite
    | split
    | (dsimp +zetaDelta only; split)
    | ((with_reducible apply Keeps.upd ?_); any_goals first | exact Or.inl (by decide) | exact Or.inr (Eq.refl _) | exact Or.inr (Or.inl ⟨by decide, Eq.refl _⟩) | exact Or.inr (Or.inr (Or.inl ⟨by decide, Eq.refl _⟩)) | exact Or.inr (Or.inr (Or.inr (Eq.refl _))))

theorem State.predCount_keeps (k : Ax) (f : Axis → Axis) (s : State) : Keeps [.axis] s (State.predCount k f s) := by
  unfold State.predCount
  repeat' first
    | with_reducible exact Keeps.refl ..
    | extract_lets
    | ((with_reducible apply Keeps.step ?_ (State.modAxis_keeps ..) ?_); on_goal 2 => decide)

theorem State.commitPos_keeps (k : Ax) (e : Ev) (ball adv reason : Nat) (s : State) : Keeps [.guar, .ch, .axis, .cal, .pod] s (State.commitPos k e ball adv reason s) := by
  unfold State.commitPos
  repeat' first
    | with_reducible exact Keeps.refl ..
    | extract_lets
    | ((with_reducible apply Keeps.when ?_ _ _ ?_); on_goal 2 => intro _)
    | ((with_reducible apply Keeps.step ?_ (State.breach_keeps ..) ?_); on_goal 2 => decide)
    | ((with_reducible apply Keeps.step ?_ (State.predCount_keeps ..) ?_); on_goal 2 => decide)
    | ((with_reducible apply Keeps.step ?_ (State.markAmbig_keeps ..) ?_); on_goal 2 => decide)
    | ((with_reducible apply Keeps.step ?_ (State.unlist_keeps ..) ?_); on_goal 2 => decide)
    | ((with_reducible apply Keeps.step ?_ (State.modPod_keeps ..) ?_); on_goal 2 => decide)
    | ((with_reducible apply Keeps.step ?_ (State.drainIf_keeps ..) ?_); on_goal 2 => decide)
    | ((with_reducible apply Keeps.step ?_ (State.freeSlots_keeps ..) ?_); on_goal 2 => decide)

theorem State.losePos_keeps (e : Ev) (reason lt : Nat) (s : State) : Keeps [.cal, .pod] s (State.losePos e reason lt s) := by
  unfold State.losePos
  repeat' first
    | with_reducible exact Keeps.refl ..
    | extract_lets
    | ((with_reducible apply Keeps.step ?_ (State.outcome_keeps ..) ?_); on_goal 2 => decide)
    | ((with_reducible apply Keeps.step ?_ (State.freeSlots_keeps ..) ?_); on_goal 2 => decide)
    | ((with_reducible apply Keeps.step ?_ (State.unlist_keeps ..) ?_); on_goal 2 => decide)

theorem State.posBehind_keeps (k : Ax) (e : Ev) (s : State) : Keeps [.guar, .ch, .axis, .cal, .pod] s (State.posBehind k e s) := by
  unfold State.posBehind
  repeat' first
    | with_reducible exact Keeps.refl ..
    | extract_lets
    | ((with_reducible apply Keeps.step ?_ (State.breach_keeps ..) ?_); on_goal 2 => decide)
    | ((with_reducible apply Keeps.step ?_ (State.losePos_keeps ..) ?_); on_goal 2 => decide)
    | ((with_reducible apply Keeps.step ?_ (State.commitPos_keeps ..) ?_); on_goal 2 => decide)
    | ((with_reducible apply Keeps.step ?_ (State.predCount_keeps ..) ?_); on_goal 2 => decide)
    | with_reducible apply Keeps.ite

theorem State.posRange_keeps (k : Ax) (e : Ev) (s : State) : Keeps [.guar, .axis, .cal, .pod] s (State.posRange k e s) := by
  unfold State.posRange
  repeat' first
    | with_reducible exact Keeps.refl ..
    | extract_lets
    | ((with_reducible apply Keeps.step ?_ (State.losePos_keeps ..) ?_); on_goal 2 => decide)
    | ((with_reducible apply Keeps.step ?_ (State.predCount_keeps ..) ?_); on_goal 2 => decide)
    | ((with_reducible apply Keeps.step ?_ (State.breach_keeps ..) ?_); on_goal 2 => decide)

theorem State.judgeWaiting_keeps (k : Ax) (s : State) : Keeps [.guar, .ch, .axis, .cal, .pod] s (State.judgeWaiting k s) := by
  unfold State.judgeWaiting
  repeat' first
    | with_reducible exact Keeps.refl ..
    | extract_lets
    | ((with_reducible refine Keeps.forAll _ ?_ _ ?_); on_goal 1 => intro _ _)
    | ((with_reducible apply Keeps.step ?_ (State.posRange_keeps ..) ?_); on_goal 2 => decide)
    | ((with_reducible apply Keeps.step ?_ (State.posBehind_keeps ..) ?_); on_goal 2 => decide)
    | ((with_reducible apply Keeps.step ?_ (State.keepHeads_keeps ..) ?_); on_goal 2 => decide)
    | with_reducible apply Keeps.ite
    | split
    | (dsimp +zetaDelta only; split)
    | ((with_reducible apply Keeps.upd ?_); any_goals first | exact Or.inl (by decide) | exact Or.inr (Eq.refl _) | exact Or.inr (Or.inl ⟨by decide, Eq.refl _⟩) | exact Or.inr (Or.inr (Or.inl ⟨by decide, Eq.refl _⟩)) | exact Or.inr (Or.inr (Or.inr (Eq.refl _))))

theorem State.axCfgErr_keeps (k : Ax) (s : State) : Keeps [.axis] s (State.axCfgErr k s) := by
  unfold State.axCfgErr
  repeat' first
    | with_reducible exact Keeps.refl ..
    | extract_lets
    | ((with_reducible apply Keeps.step ?_ (State.modAxis_keeps ..) ?_); on_goal 2 => decide)

theorem State.axReeval_keeps (k : Ax) (s : State) : Keeps [.guar, .ch, .axis, .cal, .pod] s (State.axReeval k s) := by
  unfold State.axReeval
  repeat' first
    | with_reducible exact Keeps.refl ..
    | extract_lets
    | ((with_reducible apply Keeps.when ?_ _ _ ?_); on_goal 2 => intro _)
    | ((with_reducible apply Keeps.step ?_ (State.modAxis_keeps ..) ?_); on_goal 2 => decide)
    | ((with_reducible apply Keeps.step ?_ (State.dropPreds_keeps ..) ?_); on_goal 2 => decide)
    | ((with_reducible apply Keeps.step ?_ (State.judgeWaiting_keeps ..) ?_); on_goal 2 => decide)

theorem State.windowEnd_keeps (k : Ax) (s : State) : Keeps [.guar, .ch, .axis, .cal, .pod, .free] s (State.windowEnd k s) := by
  unfold State.windowEnd
  repeat' first
    | with_reducible exact Keeps.refl ..
    | extract_lets
    | ((with_reducible apply Keeps.step ?_ (State.modAxis_keeps ..) ?_); on_goal 2 => decide)
    | ((with_reducible apply Keeps.step ?_ (State.axReeval_keeps ..) ?_); on_goal 2 => decide)
    | ((with_reducible apply Keeps.step ?_ (State.used_keeps ..) ?_); on_goal 2 => decide)
    | with_reducible apply Keeps.ite

theorem State.speedRead_keeps (m : Master) (k : Ax) (s : State) : Keeps [.master, .axis] s (State.speedRead m k s) := by
  unfold State.speedRead
  repeat' first
    | with_reducible exact Keeps.refl ..
    | extract_lets
    | ((with_reducible apply Keeps.step ?_ (State.modAxis_keeps ..) ?_); on_goal 2 => decide)
    | ((with_reducible apply Keeps.step ?_ (State.ret_keeps ..) ?_); on_goal 2 => decide)

theorem State.tellCounters_keeps (k : Ax) (m : AxMove) (s : State) : Keeps [.ch] s (State.tellCounters k m s) := by
  unfold State.tellCounters
  repeat' first
    | with_reducible exact Keeps.refl ..
    | extract_lets
    | ((with_reducible refine Keeps.forAll _ ?_ _ ?_); on_goal 1 => intro _ _)
    | ((with_reducible apply Keeps.step ?_ (State.modCh_keeps ..) ?_); on_goal 2 => decide)

theorem State.loadPos_keeps (k : Ax) (s : State) : Keeps [.ch, .axis] s (State.loadPos k s) := by
  unfold State.loadPos
  repeat' first
    | with_reducible exact Keeps.refl ..
    | extract_lets
    | ((with_reducible apply Keeps.step ?_ (State.modAxis_keeps ..) ?_); on_goal 2 => decide)
    | ((with_reducible apply Keeps.step ?_ (State.tellCounters_keeps ..) ?_); on_goal 2 => decide)

theorem State.posLoad_keeps (k : Ax) (s : State) : Keeps [.guar, .ch, .axis, .cal, .pod] s (State.posLoad k s) := by
  unfold State.posLoad
  repeat' first
    | with_reducible exact Keeps.refl ..
    | extract_lets
    | ((with_reducible apply Keeps.step ?_ (State.modAxis_keeps ..) ?_); on_goal 2 => decide)
    | ((with_reducible apply Keeps.step ?_ (State.axReeval_keeps ..) ?_); on_goal 2 => decide)
    | ((with_reducible apply Keeps.step ?_ (State.loadPos_keeps ..) ?_); on_goal 2 => decide)
    | with_reducible apply Keeps.ite

theorem State.zArm_keeps (k : Ax) (s : State) : Keeps [.axis] s (State.zArm k s) := by
  unfold State.zArm
  repeat' first
    | with_reducible exact Keeps.refl ..
    | extract_lets
    | ((with_reducible apply Keeps.step ?_ (State.modAxis_keeps ..) ?_); on_goal 2 => decide)

theorem State.repredict_keeps (k : Ax) (b : Nat) (s : State) : Keeps [.cal] s (State.repredict k b s) := by
  unfold State.repredict
  repeat' first
    | with_reducible exact Keeps.refl ..
    | extract_lets
    | with_reducible apply Keeps.ite
    | split
    | (dsimp +zetaDelta only; split)
    | ((with_reducible apply Keeps.upd ?_); any_goals first | exact Or.inl (by decide) | exact Or.inr (Eq.refl _) | exact Or.inr (Or.inl ⟨by decide, Eq.refl _⟩) | exact Or.inr (Or.inr (Or.inl ⟨by decide, Eq.refl _⟩)) | exact Or.inr (Or.inr (Or.inr (Eq.refl _))))

theorem State.reach_keeps (k : Ax) (p : W) (d : Int) (s : State) : Keeps [.guar, .ch, .axis, .cal, .pod] s (State.reach k p d s) := by
  unfold State.reach
  repeat' first
    | with_reducible exact Keeps.refl ..
    | extract_lets
    | ((with_reducible refine Keeps.forAll _ ?_ _ ?_); on_goal 1 => intro _ _)
    | ((with_reducible apply Keeps.step ?_ (State.losePos_keeps ..) ?_); on_goal 2 => decide)
    | ((with_reducible apply Keeps.step ?_ (State.commitPos_keeps ..) ?_); on_goal 2 => decide)
    | with_reducible apply Keeps.ite

theorem State.posCommit_keeps (k : Ax) (n : Ch) (s : State) : Keeps [.guar, .ch, .axis, .cal, .pod] s (State.posCommit k n s) := by
  unfold State.posCommit
  repeat' first
    | with_reducible exact Keeps.refl ..
    | extract_lets
    | ((with_reducible refine Keeps.forAll _ ?_ _ ?_); on_goal 1 => intro _ _)
    | ((with_reducible apply Keeps.step ?_ (State.keepHeads_keeps ..) ?_); on_goal 2 => decide)
    | ((with_reducible apply Keeps.step ?_ (State.commitPos_keeps ..) ?_); on_goal 2 => decide)
    | with_reducible apply Keeps.ite
    | split

theorem State.emulDrive_keeps (k : Ax) (x : Nat) (s : State) : Keeps [.ch] s (State.emulDrive k x s) := by
  unfold State.emulDrive
  repeat' first
    | with_reducible exact Keeps.refl ..
    | extract_lets
    | ((with_reducible refine Keeps.forAll _ ?_ _ ?_); on_goal 1 => intro _ _)
    | ((with_reducible apply Keeps.step ?_ (State.modCh_keeps ..) ?_); on_goal 2 => decide)
    | with_reducible apply Keeps.ite

theorem State.emulEdge_keeps (k : Ax) (s : State) : Keeps [.ch, .axis] s (State.emulEdge k s) := by
  unfold State.emulEdge
  repeat' first
    | with_reducible exact Keeps.refl ..
    | extract_lets
    | ((with_reducible apply Keeps.step ?_ (State.emulDrive_keeps ..) ?_); on_goal 2 => decide)
    | ((with_reducible apply Keeps.step ?_ (State.modAxis_keeps ..) ?_); on_goal 2 => decide)
    | with_reducible apply Keeps.ite
    | split

theorem State.writeEmulCfg_keeps (k : Ax) (w : W) (s : State) : Keeps [.ch, .axis] s (State.writeEmulCfg k w s) := by
  unfold State.writeEmulCfg
  repeat' first
    | with_reducible exact Keeps.refl ..
    | extract_lets
    | ((with_reducible apply Keeps.when ?_ _ _ ?_); on_goal 2 => intro _)
    | ((with_reducible apply Keeps.step ?_ (State.axCfgErr_keeps ..) ?_); on_goal 2 => decide)
    | ((with_reducible apply Keeps.step ?_ (State.modAxis_keeps ..) ?_); on_goal 2 => decide)
    | ((with_reducible apply Keeps.step ?_ (State.emulDrive_keeps ..) ?_); on_goal 2 => decide)
    | with_reducible apply Keeps.ite

theorem State.emulRestart_keeps (k : Ax) (s : State) : Keeps [.axis] s (State.emulRestart k s) := by
  unfold State.emulRestart
  repeat' first
    | with_reducible exact Keeps.refl ..
    | extract_lets
    | ((with_reducible apply Keeps.step ?_ (State.modAxis_keeps ..) ?_); on_goal 2 => decide)

theorem State.axMoved_keeps (k : Ax) (p0 : W) (rev0 : Bool) (d : Int) (s : State) : Keeps [.guar, .ch, .axis, .cal, .pod] s (State.axMoved k p0 rev0 d s) := by
  unfold State.axMoved
  repeat' first
    | with_reducible exact Keeps.refl ..
    | extract_lets
    | ((with_reducible apply Keeps.when ?_ _ _ ?_); on_goal 2 => intro _)
    | ((with_reducible apply Keeps.step ?_ (State.reach_keeps ..) ?_); on_goal 2 => decide)
    | ((with_reducible apply Keeps.step ?_ (State.dropPreds_keeps ..) ?_); on_goal 2 => decide)
    | ((with_reducible apply Keeps.step ?_ (State.keepHeads_keeps ..) ?_); on_goal 2 => decide)
    | ((with_reducible apply Keeps.step ?_ (State.axReeval_keeps ..) ?_); on_goal 2 => decide)
    | ((with_reducible apply Keeps.step ?_ (State.repredict_keeps ..) ?_); on_goal 2 => decide)
    | ((with_reducible apply Keeps.step ?_ (State.tellCounters_keeps ..) ?_); on_goal 2 => decide)
    | ((with_reducible apply Keeps.step ?_ (State.modAxis_keeps ..) ?_); on_goal 2 => decide)
    | with_reducible apply Keeps.ite
    | split
    | (dsimp +zetaDelta only; split)
    | ((with_reducible apply Keeps.upd ?_); any_goals first | exact Or.inl (by decide) | exact Or.inr (Eq.refl _) | exact Or.inr (Or.inl ⟨by decide, Eq.refl _⟩) | exact Or.inr (Or.inr (Or.inl ⟨by decide, Eq.refl _⟩)) | exact Or.inr (Or.inr (Or.inr (Eq.refl _))))

theorem State.axCount_keeps (k : Ax) (d : Int) (x : Nat) (s : State) : Keeps [.guar, .ch, .axis, .cal, .pod, .free] s (State.axCount k d x s) := by
  unfold State.axCount
  repeat' first
    | with_reducible exact Keeps.refl ..
    | extract_lets
    | ((with_reducible apply Keeps.step ?_ (State.axMoved_keeps ..) ?_); on_goal 2 => decide)
    | ((with_reducible apply Keeps.step ?_ (State.used_keeps ..) ?_); on_goal 2 => decide)
    | ((with_reducible apply Keeps.step ?_ (State.modAxis_keeps ..) ?_); on_goal 2 => decide)

theorem feedAxis_keeps (k : Ax) (i ta : Nat) (level : Bool) (s : State) : Keeps [.ch] s (feedAxis k i ta level s) := by
  unfold feedAxis
  repeat' first
    | with_reducible exact Keeps.refl ..
    | extract_lets
    | ((with_reducible refine Keeps.forAll _ ?_ _ ?_); on_goal 1 => intro _ _)
    | ((with_reducible apply Keeps.step ?_ (feedSource_keeps ..) ?_); on_goal 2 => decide)

theorem State.axAccept_keeps (k : Ax) (p : AxPin) (level : Bool) (x : Nat) (s : State) : Keeps [.ch, .axis] s (State.axAccept k p level x s) := by
  unfold State.axAccept
  repeat' first
    | with_reducible exact Keeps.refl ..
    | extract_lets
    | ((with_reducible apply Keeps.step ?_ (State.modAxis_keeps ..) ?_); on_goal 2 => decide)
    | ((with_reducible apply Keeps.step ?_ (feedAxis_keeps ..) ?_); on_goal 2 => decide)
    | with_reducible apply Keeps.ite

theorem State.quadSample_keeps (k : Ax) (es : List (AxPin × Bool × Nat)) (s : State) : Keeps [.guar, .ch, .axis, .cal, .pod, .free] s (State.quadSample k es s) := by
  unfold State.quadSample
  repeat' first
    | with_reducible exact Keeps.refl ..
    | extract_lets
    | ((with_reducible apply Keeps.step ?_ (State.modAxis_keeps ..) ?_); on_goal 2 => decide)
    | ((with_reducible apply Keeps.step ?_ (State.axCount_keeps ..) ?_); on_goal 2 => decide)
    | with_reducible apply Keeps.ite

theorem State.indexSample_keeps (k : Ax) (p0 : W) (es : List (AxPin × Bool × Nat)) (s : State) : Keeps [.guar, .ch, .axis, .cal, .pod] s (State.indexSample k p0 es s) := by
  unfold State.indexSample
  repeat' first
    | with_reducible exact Keeps.refl ..
    | extract_lets
    | ((with_reducible apply Keeps.step ?_ (State.modAxis_keeps ..) ?_); on_goal 2 => decide)
    | ((with_reducible apply Keeps.step ?_ (State.axReeval_keeps ..) ?_); on_goal 2 => decide)
    | ((with_reducible apply Keeps.step ?_ (State.loadPos_keeps ..) ?_); on_goal 2 => decide)
    | with_reducible apply Keeps.ite
    | split

theorem State.hallSample_keeps (k : Ax) (es : List (AxPin × Bool × Nat)) (s : State) : Keeps [.guar, .ch, .axis, .cal, .pod, .free] s (State.hallSample k es s) := by
  unfold State.hallSample
  repeat' first
    | with_reducible exact Keeps.refl ..
    | extract_lets
    | ((with_reducible apply Keeps.step ?_ (State.modAxis_keeps ..) ?_); on_goal 2 => decide)
    | ((with_reducible apply Keeps.step ?_ (State.axCount_keeps ..) ?_); on_goal 2 => decide)
    | with_reducible apply Keeps.ite
    | split

theorem State.axEdge_keeps (k : Ax) (s : State) : Keeps [.guar, .ch, .axis, .cal, .pod, .free] s (State.axEdge k s) := by
  unfold State.axEdge
  repeat' first
    | with_reducible exact Keeps.refl ..
    | extract_lets
    | ((with_reducible apply Keeps.step ?_ (State.modAxis_keeps ..) ?_); on_goal 2 => decide)
    | ((with_reducible apply Keeps.step ?_ (State.indexSample_keeps ..) ?_); on_goal 2 => decide)
    | ((with_reducible apply Keeps.step ?_ (State.quadSample_keeps ..) ?_); on_goal 2 => decide)
    | ((with_reducible apply Keeps.step ?_ (State.hallSample_keeps ..) ?_); on_goal 2 => decide)
    | with_reducible apply Keeps.ite
    | split

theorem State.acceptTime_keeps (r : Rec) (s : State) : Keeps [.guar, .ch, .cal, .pod] s (State.acceptTime r s) := by
  unfold State.acceptTime
  repeat' first
    | with_reducible exact Keeps.refl ..
    | extract_lets
    | ((with_reducible apply Keeps.when ?_ _ _ ?_); on_goal 2 => intro _)
    | ((with_reducible apply Keeps.step ?_ (State.breach_keeps ..) ?_); on_goal 2 => decide)
    | ((with_reducible apply Keeps.step ?_ (State.markAmbig_keeps ..) ?_); on_goal 2 => decide)
    | ((with_reducible apply Keeps.step ?_ (State.modPod_keeps ..) ?_); on_goal 2 => decide)
    | with_reducible apply Keeps.ite
    | split
    | (dsimp +zetaDelta only; split)
    | ((with_reducible apply Keeps.upd ?_); any_goals first | exact Or.inl (by decide) | exact Or.inr (Eq.refl _) | exact Or.inr (Or.inl ⟨by decide, Eq.refl _⟩) | exact Or.inr (Or.inr (Or.inl ⟨by decide, Eq.refl _⟩)) | exact Or.inr (Or.inr (Or.inr (Eq.refl _))))

theorem State.acceptPos_keeps (r : Rec) (s : State) : Keeps [.guar, .ch, .axis, .cal, .pod] s (State.acceptPos r s) := by
  unfold State.acceptPos
  repeat' first
    | with_reducible exact Keeps.refl ..
    | extract_lets
    | ((with_reducible apply Keeps.step ?_ (State.posBehind_keeps ..) ?_); on_goal 2 => decide)
    | ((with_reducible apply Keeps.step ?_ (State.keepHeads_keeps ..) ?_); on_goal 2 => decide)
    | with_reducible apply Keeps.ite
    | split
    | (dsimp +zetaDelta only; split)
    | ((with_reducible apply Keeps.upd ?_); any_goals first | exact Or.inl (by decide) | exact Or.inr (Eq.refl _) | exact Or.inr (Or.inl ⟨by decide, Eq.refl _⟩) | exact Or.inr (Or.inr (Or.inl ⟨by decide, Eq.refl _⟩)) | exact Or.inr (Or.inr (Or.inr (Eq.refl _))))

theorem State.acceptRec_keeps (r : Rec) (s : State) : Keeps [.guar, .ch, .axis, .cal, .pod] s (State.acceptRec r s) := by
  unfold State.acceptRec
  repeat' first
    | with_reducible exact Keeps.refl ..
    | extract_lets
    | ((with_reducible apply Keeps.step ?_ (State.acceptTime_keeps ..) ?_); on_goal 2 => decide)
    | ((with_reducible apply Keeps.step ?_ (State.acceptPos_keeps ..) ?_); on_goal 2 => decide)
    | with_reducible apply Keeps.ite
    | split
    | (dsimp +zetaDelta only; split)
    | ((with_reducible apply Keeps.upd ?_); any_goals first | exact Or.inl (by decide) | exact Or.inr (Eq.refl _) | exact Or.inr (Or.inl ⟨by decide, Eq.refl _⟩) | exact Or.inr (Or.inr (Or.inl ⟨by decide, Eq.refl _⟩)) | exact Or.inr (Or.inr (Or.inr (Eq.refl _))))

theorem State.calFinish_keeps (b : CmdMbx) (status detail : Nat) (s : State) : Keeps [.mbx] s (State.calFinish b status detail s) := by
  unfold State.calFinish
  repeat' first
    | with_reducible exact Keeps.refl ..
    | extract_lets
    | ((with_reducible apply Keeps.step ?_ (State.answer_keeps ..) ?_); on_goal 2 => decide)
    | ((with_reducible apply Keeps.step ?_ (State.modMbx_keeps ..) ?_); on_goal 2 => decide)

theorem State.calWrite_keeps (b : CmdMbx) (body : List Byte) (s : State) : Keeps [.mbx] s (State.calWrite b body s) := by
  unfold State.calWrite
  repeat' first
    | with_reducible exact Keeps.refl ..
    | extract_lets
    | ((with_reducible apply Keeps.step ?_ (State.modMbx_keeps ..) ?_); on_goal 2 => decide)
    | ((with_reducible apply Keeps.step ?_ (State.calFinish_keeps ..) ?_); on_goal 2 => decide)
    | with_reducible apply Keeps.ite

theorem State.calWriteDma_keeps (b : CmdMbx) (body : List Byte) (s : State) : Keeps [.mbx] s (State.calWriteDma b body s) := by
  unfold State.calWriteDma
  repeat' first
    | with_reducible exact Keeps.refl ..
    | extract_lets
    | ((with_reducible apply Keeps.step ?_ (State.answer_keeps ..) ?_); on_goal 2 => decide)
    | ((with_reducible apply Keeps.step ?_ (State.modMbx_keeps ..) ?_); on_goal 2 => decide)
    | with_reducible apply Keeps.ite

theorem State.calAccept_keeps (b : CmdMbx) (s : State) : Keeps [.guar, .ch, .axis, .cal, .pod, .mbx, .free] s (State.calAccept b s) := by
  unfold State.calAccept
  repeat' first
    | with_reducible exact Keeps.refl ..
    | extract_lets
    | ((with_reducible apply Keeps.step ?_ (State.used_keeps ..) ?_); on_goal 2 => decide)
    | ((with_reducible apply Keeps.step ?_ (State.calFinish_keeps ..) ?_); on_goal 2 => decide)
    | ((with_reducible apply Keeps.step ?_ (State.modMbx_keeps ..) ?_); on_goal 2 => decide)
    | ((with_reducible apply Keeps.step ?_ (State.acceptRec_keeps ..) ?_); on_goal 2 => decide)
    | with_reducible apply Keeps.ite
    | split
    | (dsimp +zetaDelta only; split)
    | ((with_reducible apply Keeps.upd ?_); any_goals first | exact Or.inl (by decide) | exact Or.inr (Eq.refl _) | exact Or.inr (Or.inl ⟨by decide, Eq.refl _⟩) | exact Or.inr (Or.inr (Or.inl ⟨by decide, Eq.refl _⟩)) | exact Or.inr (Or.inr (Or.inr (Eq.refl _))))

theorem State.noteHeld_keeps (e : Ev) (was : Bool) (s : State) : Keeps [.ch] s (State.noteHeld e was s) := by
  unfold State.noteHeld
  repeat' first
    | with_reducible exact Keeps.refl ..
    | extract_lets
    | ((with_reducible apply Keeps.when ?_ _ _ ?_); on_goal 2 => intro _)
    | ((with_reducible apply Keeps.step ?_ (State.chStat_keeps ..) ?_); on_goal 2 => decide)

theorem State.stageRec_keeps (e : Ev) (s : State) : Keeps [.ch, .cal, .pod] s (State.stageRec e s) := by
  unfold State.stageRec
  repeat' first
    | with_reducible exact Keeps.refl ..
    | extract_lets
    | ((with_reducible apply Keeps.step ?_ (State.markAmbig_keeps ..) ?_); on_goal 2 => decide)
    | ((with_reducible apply Keeps.step ?_ (State.noteHeld_keeps ..) ?_); on_goal 2 => decide)
    | ((with_reducible apply Keeps.step ?_ (State.stageEv_keeps ..) ?_); on_goal 2 => decide)
    | ((with_reducible apply Keeps.step ?_ (State.freeSlots_keeps ..) ?_); on_goal 2 => decide)
    | with_reducible apply Keeps.ite
    | split
    | (dsimp +zetaDelta only; split)
    | ((with_reducible apply Keeps.upd ?_); any_goals first | exact Or.inl (by decide) | exact Or.inr (Eq.refl _) | exact Or.inr (Or.inl ⟨by decide, Eq.refl _⟩) | exact Or.inr (Or.inr (Or.inl ⟨by decide, Eq.refl _⟩)) | exact Or.inr (Or.inr (Or.inr (Eq.refl _))))

theorem State.stageDue_keeps (s : State) : Keeps [.guar, .ch, .cal, .pod] s (State.stageDue s) := by
  unfold State.stageDue
  repeat' first
    | with_reducible exact Keeps.refl ..
    | extract_lets
    | ((with_reducible refine Keeps.forAll _ ?_ _ ?_); on_goal 1 => intro _ _)
    | ((with_reducible apply Keeps.step ?_ (State.stageRec_keeps ..) ?_); on_goal 2 => decide)
    | ((with_reducible apply Keeps.step ?_ (State.drainCheck_keeps ..) ?_); on_goal 2 => decide)

theorem State.bucketBoundary_keeps (s : State) : Keeps [.guar, .ch, .cal, .pod] s (State.bucketBoundary s) := by
  unfold State.bucketBoundary
  repeat' first
    | with_reducible exact Keeps.refl ..
    | extract_lets
    | ((with_reducible apply Keeps.step ?_ (State.stageDue_keeps ..) ?_); on_goal 2 => decide)
    | with_reducible apply Keeps.ite
    | split
    | (dsimp +zetaDelta only; split)
    | ((with_reducible apply Keeps.upd ?_); any_goals first | exact Or.inl (by decide) | exact Or.inr (Eq.refl _) | exact Or.inr (Or.inl ⟨by decide, Eq.refl _⟩) | exact Or.inr (Or.inr (Or.inl ⟨by decide, Eq.refl _⟩)) | exact Or.inr (Or.inr (Or.inr (Eq.refl _))))

theorem State.horizonSet_keeps (b : CmdMbx) (body : List Byte) (s : State) : Keeps [.cal, .mbx] s (State.horizonSet b body s) := by
  unfold State.horizonSet
  repeat' first
    | with_reducible exact Keeps.refl ..
    | extract_lets
    | ((with_reducible apply Keeps.step ?_ (State.answer_keeps ..) ?_); on_goal 2 => decide)
    | with_reducible apply Keeps.ite
    | split
    | (dsimp +zetaDelta only; split)
    | ((with_reducible apply Keeps.upd ?_); any_goals first | exact Or.inl (by decide) | exact Or.inr (Eq.refl _) | exact Or.inr (Or.inl ⟨by decide, Eq.refl _⟩) | exact Or.inr (Or.inr (Or.inl ⟨by decide, Eq.refl _⟩)) | exact Or.inr (Or.inr (Or.inr (Eq.refl _))))

theorem State.horizonTake_keeps (s : State) : Keeps [.guar, .ch, .cal, .pod] s (State.horizonTake s) := by
  unfold State.horizonTake
  repeat' first
    | with_reducible exact Keeps.refl ..
    | extract_lets
    | ((with_reducible apply Keeps.step ?_ (State.stageDue_keeps ..) ?_); on_goal 2 => decide)
    | with_reducible apply Keeps.ite
    | split
    | (dsimp +zetaDelta only; split)
    | ((with_reducible apply Keeps.upd ?_); any_goals first | exact Or.inl (by decide) | exact Or.inr (Eq.refl _) | exact Or.inr (Or.inl ⟨by decide, Eq.refl _⟩) | exact Or.inr (Or.inr (Or.inl ⟨by decide, Eq.refl _⟩)) | exact Or.inr (Or.inr (Or.inr (Eq.refl _))))

theorem State.calConfig_keeps (b : CmdMbx) (body : List Byte) (s : State) : Keeps [.cal, .store, .mbx] s (State.calConfig b body s) := by
  unfold State.calConfig
  repeat' first
    | with_reducible exact Keeps.refl ..
    | extract_lets
    | ((with_reducible apply Keeps.step ?_ (State.answer_keeps ..) ?_); on_goal 2 => decide)
    | with_reducible apply Keeps.ite
    | split
    | (dsimp +zetaDelta only; split)
    | ((with_reducible apply Keeps.upd ?_); any_goals first | exact Or.inl (by decide) | exact Or.inr (Eq.refl _) | exact Or.inr (Or.inl ⟨by decide, Eq.refl _⟩) | exact Or.inr (Or.inr (Or.inl ⟨by decide, Eq.refl _⟩)) | exact Or.inr (Or.inr (Or.inr (Eq.refl _))))

theorem State.removeEvs_keeps (f : Ev → Bool) (s : State) : Keeps [.cal, .pod] s (State.removeEvs f s).1 := by
  unfold State.removeEvs
  repeat' first
    | with_reducible exact Keeps.refl ..
    | extract_lets
    | ((with_reducible refine Keeps.forAll _ ?_ _ ?_); on_goal 1 => intro _ _)
    | ((with_reducible apply Keeps.step ?_ (State.modPod_keeps ..) ?_); on_goal 2 => decide)
    | ((with_reducible apply Keeps.step ?_ (State.freeSlots_keeps ..) ?_); on_goal 2 => decide)
    | with_reducible apply Keeps.ite
    | split
    | (dsimp +zetaDelta only; split)
    | ((with_reducible apply Keeps.upd ?_); any_goals first | exact Or.inl (by decide) | exact Or.inr (Eq.refl _) | exact Or.inr (Or.inl ⟨by decide, Eq.refl _⟩) | exact Or.inr (Or.inr (Or.inl ⟨by decide, Eq.refl _⟩)) | exact Or.inr (Or.inr (Or.inr (Eq.refl _))))

theorem State.calCancel_keeps (b : CmdMbx) (body : List Byte) (s : State) : Keeps [.cal, .pod, .mbx] s (State.calCancel b body s) := by
  unfold State.calCancel
  repeat' first
    | with_reducible exact Keeps.refl ..
    | extract_lets
    | ((with_reducible refine Keeps.forAll _ ?_ _ ?_); on_goal 1 => intro _ _)
    | ((with_reducible apply Keeps.step ?_ (State.answer_keeps ..) ?_); on_goal 2 => decide)
    | ((with_reducible apply Keeps.step ?_ (State.removeEvs_keeps ..) ?_); on_goal 2 => decide)
    | ((with_reducible apply Keeps.step ?_ (State.keepHeads_keeps ..) ?_); on_goal 2 => decide)
    | with_reducible apply Keeps.ite

theorem State.dispatch_keeps (p : Pod) (top : Bool) (cclk : Nat) (f : Fetch) (s : State) : Keeps [.pod, .free] s (State.dispatch p top cclk f s) := by
  unfold State.dispatch
  repeat' first
    | with_reducible exact Keeps.refl ..
    | extract_lets
    | ((with_reducible apply Keeps.step ?_ (State.used_keeps ..) ?_); on_goal 2 => decide)
    | ((with_reducible apply Keeps.step ?_ (State.modPod_keeps ..) ?_); on_goal 2 => decide)

theorem State.arm_keeps (u : Unit4) (e : Ev) (s : State) : Keeps [.ch, .pod, .mem, .store, .mbx, .pcie, .sur, .free] s (State.arm u e s) := by
  unfold State.arm
  repeat' first
    | with_reducible exact Keeps.refl ..
    | extract_lets
    | ((with_reducible apply Keeps.when ?_ _ _ ?_); on_goal 2 => intro _)
    | ((with_reducible apply Keeps.step ?_ (State.modPod_keeps ..) ?_); on_goal 2 => decide)
    | ((with_reducible apply Keeps.step ?_ (State.measAbandon_keeps ..) ?_); on_goal 2 => decide)
    | ((with_reducible apply Keeps.step ?_ (State.commitUnit_keeps ..) ?_); on_goal 2 => decide)

theorem State.displace_keeps (u : Unit4) (n : Ch) (s : State) : Keeps [.ch, .pod] s (State.displace u n s) := by
  unfold State.displace
  repeat' first
    | with_reducible exact Keeps.refl ..
    | extract_lets
    | ((with_reducible apply Keeps.step ?_ (State.modCh_keeps ..) ?_); on_goal 2 => decide)
    | ((with_reducible apply Keeps.step ?_ (State.stageEv_keeps ..) ?_); on_goal 2 => decide)
    | ((with_reducible apply Keeps.step ?_ (State.modPod_keeps ..) ?_); on_goal 2 => decide)
    | with_reducible apply Keeps.ite
    | split

theorem State.armUrgent_keeps (e : Ev) (s : State) : Keeps [.ch, .pod, .mem, .store, .mbx, .pcie, .sur, .free] s (State.armUrgent e s) := by
  unfold State.armUrgent
  repeat' first
    | with_reducible exact Keeps.refl ..
    | extract_lets
    | ((with_reducible apply Keeps.step ?_ (State.stageEv_keeps ..) ?_); on_goal 2 => decide)
    | ((with_reducible apply Keeps.step ?_ (State.arm_keeps ..) ?_); on_goal 2 => decide)
    | ((with_reducible apply Keeps.step ?_ (State.displace_keeps ..) ?_); on_goal 2 => decide)
    | with_reducible apply Keeps.ite
    | split

theorem State.armFast_keeps (p : Pod) (s : State) : Keeps [.guar, .ch, .cal, .pod, .mem, .store, .mbx, .pcie, .sur, .free] s (State.armFast p s) := by
  unfold State.armFast
  repeat' first
    | with_reducible exact Keeps.refl ..
    | extract_lets
    | ((with_reducible apply Keeps.when ?_ _ _ ?_); on_goal 2 => intro _)
    | ((with_reducible apply Keeps.step ?_ (State.modPod_keeps ..) ?_); on_goal 2 => decide)
    | ((with_reducible apply Keeps.step ?_ (State.freeSlots_keeps ..) ?_); on_goal 2 => decide)
    | ((with_reducible apply Keeps.step ?_ (State.markAmbig_keeps ..) ?_); on_goal 2 => decide)
    | ((with_reducible apply Keeps.step ?_ (State.noteHeld_keeps ..) ?_); on_goal 2 => decide)
    | ((with_reducible apply Keeps.step ?_ (State.drainIf_keeps ..) ?_); on_goal 2 => decide)
    | ((with_reducible apply Keeps.step ?_ (State.armUrgent_keeps ..) ?_); on_goal 2 => decide)
    | with_reducible apply Keeps.ite
    | split

theorem State.armStage_keeps (p : Pod) (s : State) : Keeps [.ch, .pod, .mem, .store, .mbx, .pcie, .sur, .free] s (State.armStage p s) := by
  unfold State.armStage
  repeat' first
    | with_reducible exact Keeps.refl ..
    | extract_lets
    | ((with_reducible apply Keeps.step ?_ (State.arm_keeps ..) ?_); on_goal 2 => decide)
    | ((with_reducible apply Keeps.step ?_ (State.modPod_keeps ..) ?_); on_goal 2 => decide)
    | with_reducible apply Keeps.ite
    | split

theorem State.missAborted_keeps (p : Pod) (t : Nat) (s : State) : Keeps [.cal, .pod] s (State.missAborted p t s) := by
  unfold State.missAborted
  repeat' first
    | with_reducible exact Keeps.refl ..
    | extract_lets
    | ((with_reducible apply Keeps.step ?_ (State.modPod_keeps ..) ?_); on_goal 2 => decide)
    | ((with_reducible apply Keeps.step ?_ (State.freeSlots_keeps ..) ?_); on_goal 2 => decide)
    | with_reducible apply Keeps.ite
    | split
    | (dsimp +zetaDelta only; split)
    | ((with_reducible apply Keeps.upd ?_); any_goals first | exact Or.inl (by decide) | exact Or.inr (Eq.refl _) | exact Or.inr (Or.inl ⟨by decide, Eq.refl _⟩) | exact Or.inr (Or.inr (Or.inl ⟨by decide, Eq.refl _⟩)) | exact Or.inr (Or.inr (Or.inr (Eq.refl _))))

theorem State.missLost_keeps (p : Pod) (s : State) : Keeps [.cal, .pod] s (State.missLost p s) := by
  unfold State.missLost
  repeat' first
    | with_reducible exact Keeps.refl ..
    | extract_lets
    | ((with_reducible apply Keeps.step ?_ (State.modPod_keeps ..) ?_); on_goal 2 => decide)
    | with_reducible apply Keeps.ite
    | split
    | (dsimp +zetaDelta only; split)
    | ((with_reducible apply Keeps.upd ?_); any_goals first | exact Or.inl (by decide) | exact Or.inr (Eq.refl _) | exact Or.inr (Or.inl ⟨by decide, Eq.refl _⟩) | exact Or.inr (Or.inr (Or.inl ⟨by decide, Eq.refl _⟩)) | exact Or.inr (Or.inr (Or.inr (Eq.refl _))))

theorem State.missedAtDue_keeps (p : Pod) (s : State) : Keeps [.cal, .pod, .mem, .store, .pcie] s (State.missedAtDue p s) := by
  unfold State.missedAtDue
  repeat' first
    | with_reducible exact Keeps.refl ..
    | extract_lets
    | ((with_reducible apply Keeps.step ?_ (State.retire_keeps ..) ?_); on_goal 2 => decide)
    | ((with_reducible apply Keeps.step ?_ (State.missLost_keeps ..) ?_); on_goal 2 => decide)
    | ((with_reducible apply Keeps.step ?_ (State.missAborted_keeps ..) ?_); on_goal 2 => decide)

theorem State.capSpill_keeps (p : Pod) (s : State) : Keeps [.ch, .pod, .mem, .store] s (State.capSpill p s) := by
  unfold State.capSpill
  extract_lets t q r at0 u
  refine Keeps.forAll _ (fun a v => (State.settleSpill_keeps ..).mono (by decide)) _ ?_
  have ht : Keeps [.ch, .pod, .mem, .store] s t := Keeps.forAll _ (fun a v => (State.settleCaps_keeps ..).mono (by decide)) _ (Keeps.refl _ s)
  clear_value t r
  simp only [u]
  generalize oldestCap q.capQ = o
  cases o with
  | none => exact ht
  | some x =>
    obtain ⟨n, e⟩ := x
    dsimp only
    split
    · exact (ht.step (State.modPod_keeps ..) (by decide)).step (State.modCh_keeps ..) (by decide)
    · refine Keeps.step ?_ (State.modCh_keeps ..) (by decide)
      refine Keeps.upd (ht.step (State.modPod_keeps ..) (by decide)) ?_ ?_ ?_ ?_ ?_ ?_ ?_ ?_ ?_ ?_ ?_ ?_ ?_ ?_ ?_ ?_ ?_ ?_ ?_ ?_ ?_ <;> first | exact Or.inl (by decide) | exact Or.inr (Eq.refl _)

theorem State.modFeeder_keeps (n : Ch) (f : Feeder → Feeder) (s : State) : Keeps [.pod] s (State.modFeeder n f s) := by
  unfold State.modFeeder
  repeat' first
    | with_reducible exact Keeps.refl ..
    | extract_lets
    | ((with_reducible apply Keeps.step ?_ (State.modPod_keeps ..) ?_); on_goal 2 => decide)

theorem State.pfErr_keeps (n : Ch) (s : State) : Keeps [.pod] s (State.pfErr n s) := by
  unfold State.pfErr
  repeat' first
    | with_reducible exact Keeps.refl ..
    | extract_lets
    | ((with_reducible apply Keeps.step ?_ (State.modPod_keeps ..) ?_); on_goal 2 => decide)

theorem State.feedWord_keeps (n : Ch) (s : State) : Keeps [.ch, .pod] s (State.feedWord n s) := by
  unfold State.feedWord
  repeat' first
    | with_reducible exact Keeps.refl ..
    | extract_lets
    | ((with_reducible apply Keeps.when ?_ _ _ ?_); on_goal 2 => intro _)
    | ((with_reducible apply Keeps.step ?_ (State.pfErr_keeps ..) ?_); on_goal 2 => decide)
    | ((with_reducible apply Keeps.step ?_ (State.modPip_keeps ..) ?_); on_goal 2 => decide)
    | ((with_reducible apply Keeps.step ?_ (State.modFeeder_keeps ..) ?_); on_goal 2 => decide)
    | with_reducible apply Keeps.ite

theorem State.drainWord_keeps (n : Ch) (s : State) : Keeps [.ch, .pod, .mem, .store] s (State.drainWord n s) := by
  unfold State.drainWord
  repeat' first
    | with_reducible exact Keeps.refl ..
    | extract_lets
    | ((with_reducible apply Keeps.step ?_ (State.modPip_keeps ..) ?_); on_goal 2 => decide)
    | ((with_reducible apply Keeps.step ?_ (State.modFeeder_keeps ..) ?_); on_goal 2 => decide)
    | with_reducible apply Keeps.ite
    | split
    | (dsimp +zetaDelta only; split)
    | ((with_reducible apply Keeps.upd ?_); any_goals first | exact Or.inl (by decide) | exact Or.inr (Eq.refl _) | exact Or.inr (Or.inl ⟨by decide, Eq.refl _⟩) | exact Or.inr (Or.inr (Or.inl ⟨by decide, Eq.refl _⟩)) | exact Or.inr (Or.inr (Or.inr (Eq.refl _))))

theorem State.pipXfer_keeps (n : Ch) (drain : Bool) (s : State) : Keeps [.ch, .pod, .mem, .store] s (State.pipXfer n drain s) := by
  unfold State.pipXfer
  repeat' first
    | with_reducible exact Keeps.refl ..
    | extract_lets
    | ((with_reducible refine Keeps.forAll _ ?_ _ ?_); on_goal 1 => intro _ _)
    | ((with_reducible apply Keeps.step ?_ (State.pipNow_keeps ..) ?_); on_goal 2 => decide)
    | ((with_reducible apply Keeps.step ?_ (State.drainWord_keeps ..) ?_); on_goal 2 => decide)
    | ((with_reducible apply Keeps.step ?_ (State.feedWord_keeps ..) ?_); on_goal 2 => decide)
    | with_reducible apply Keeps.ite

theorem State.writeFeedWr_keeps (n : Ch) (w : W) (s : State) : Keeps [.pod] s (State.writeFeedWr n w s) := by
  unfold State.writeFeedWr
  repeat' first
    | with_reducible exact Keeps.refl ..
    | extract_lets
    | ((with_reducible apply Keeps.step ?_ (State.modFeeder_keeps ..) ?_); on_goal 2 => decide)
    | ((with_reducible apply Keeps.step ?_ (State.pfErr_keeps ..) ?_); on_goal 2 => decide)
    | with_reducible apply Keeps.ite

theorem State.writeDrnRd_keeps (n : Ch) (w : W) (s : State) : Keeps [.pod] s (State.writeDrnRd n w s) := by
  unfold State.writeDrnRd
  repeat' first
    | with_reducible exact Keeps.refl ..
    | extract_lets
    | ((with_reducible apply Keeps.step ?_ (State.modFeeder_keeps ..) ?_); on_goal 2 => decide)
    | ((with_reducible apply Keeps.step ?_ (State.pfErr_keeps ..) ?_); on_goal 2 => decide)
    | with_reducible apply Keeps.ite

theorem State.writeFeeder_keeps (n : Ch) (which : Nat) (w : W) (s : State) : Keeps [.pod] s (State.writeFeeder n which w s) := by
  unfold State.writeFeeder
  repeat' first
    | with_reducible exact Keeps.refl ..
    | extract_lets
    | ((with_reducible apply Keeps.step ?_ (State.pfErr_keeps ..) ?_); on_goal 2 => decide)
    | ((with_reducible apply Keeps.step ?_ (State.modFeeder_keeps ..) ?_); on_goal 2 => decide)
    | with_reducible apply Keeps.ite
    | split

theorem State.pline_keeps (p : Pod) (s : State) : Keeps [.pod] s (State.pline p s) := by
  unfold State.pline
  repeat' first
    | with_reducible exact Keeps.refl ..
    | extract_lets
    | ((with_reducible apply Keeps.step ?_ (State.modPod_keeps ..) ?_); on_goal 2 => decide)
    | with_reducible apply Keeps.ite
    | split

theorem State.resultRingSet_keeps (b : CmdMbx) (body : List Byte) (s : State) : Keeps [.pod, .mbx] s (State.resultRingSet b body s) := by
  unfold State.resultRingSet
  repeat' first
    | with_reducible exact Keeps.refl ..
    | extract_lets
    | ((with_reducible apply Keeps.step ?_ (State.answer_keeps ..) ?_); on_goal 2 => decide)
    | ((with_reducible apply Keeps.step ?_ (State.modPod_keeps ..) ?_); on_goal 2 => decide)
    | with_reducible apply Keeps.ite

theorem State.cfgJob_keeps (p : Pod) (s : State) : Keeps [.pod, .mem, .store, .mbx, .pcie] s (State.cfgJob p s) := by
  unfold State.cfgJob
  repeat' first
    | with_reducible exact Keeps.refl ..
    | extract_lets
    | ((with_reducible apply Keeps.step ?_ (State.modPod_keeps ..) ?_); on_goal 2 => decide)
    | ((with_reducible apply Keeps.step ?_ (State.answer_keeps ..) ?_); on_goal 2 => decide)
    | ((with_reducible apply Keeps.step ?_ (State.backlogDrain_keeps ..) ?_); on_goal 2 => decide)
    | with_reducible apply Keeps.ite
    | split

end Sys2Proof.Machine
end

