-- ==== Sys2Proof/Laws/FrameStore.lean ====
section
/-!
SUPPORT. What each operation of the store, resilience, the event interrupt controller, aborts, the converter and the surroundings leaves alone (`Keeps`).
-/
namespace Sys2Proof.Machine
-- One script is tried on every goal of this file, so on some goals a part of it has nothing to do.
set_option linter.unusedTactic false
set_option linter.unreachableTactic false

theorem State.hsum_keeps (i : Nat) (s : State) : Keeps [.health] s (State.hsum i s) := by
  unfold State.hsum
  repeat' first
    | with_reducible exact Keeps.refl ..
    | extract_lets
    | with_reducible apply Keeps.ite
    | split
    | (dsimp +zetaDelta only; split)
    | ((with_reducible apply Keeps.upd ?_); any_goals first | exact Or.inl (by decide) | exact Or.inr (Eq.refl _) | exact Or.inr (Or.inl ⟨by decide, Eq.refl _⟩) | exact Or.inr (Or.inr (Or.inl ⟨by decide, Eq.refl _⟩)) | exact Or.inr (Or.inr (Or.inr (Eq.refl _))))

theorem State.failOver_keeps (g : Nat) (s : State) : Keeps [.store, .mbx, .health, .free] s (State.failOver g s) := by
  unfold State.failOver
  repeat' first
    | with_reducible exact Keeps.refl ..
    | extract_lets
    | ((with_reducible apply Keeps.step ?_ (State.notice_keeps ..) ?_); on_goal 2 => decide)
    | with_reducible apply Keeps.ite
    | split
    | (dsimp +zetaDelta only; split)
    | ((with_reducible apply Keeps.upd ?_); any_goals first | exact Or.inl (by decide) | exact Or.inr (Eq.refl _) | exact Or.inr (Or.inl ⟨by decide, Eq.refl _⟩) | exact Or.inr (Or.inr (Or.inl ⟨by decide, Eq.refl _⟩)) | exact Or.inr (Or.inr (Or.inr (Eq.refl _))))

theorem State.ueSeen_keeps (master a : Nat) (flags : W) (s : State) : Keeps [.store, .mbx, .health, .free] s (State.ueSeen master a flags s) := by
  unfold State.ueSeen
  repeat' first
    | with_reducible exact Keeps.refl ..
    | extract_lets
    | ((with_reducible apply Keeps.when ?_ _ _ ?_); on_goal 2 => intro _)
    | ((with_reducible apply Keeps.step ?_ (State.failOver_keeps ..) ?_); on_goal 2 => decide)
    | ((with_reducible apply Keeps.step ?_ (State.hsum_keeps ..) ?_); on_goal 2 => decide)
    | with_reducible apply Keeps.ite
    | split
    | (dsimp +zetaDelta only; split)
    | ((with_reducible apply Keeps.upd ?_); any_goals first | exact Or.inl (by decide) | exact Or.inr (Eq.refl _) | exact Or.inr (Or.inl ⟨by decide, Eq.refl _⟩) | exact Or.inr (Or.inr (Or.inl ⟨by decide, Eq.refl _⟩)) | exact Or.inr (Or.inr (Or.inr (Eq.refl _))))

theorem State.ceSeen_keeps (a : Nat) (s : State) : Keeps [.store] s (State.ceSeen a s) := by
  unfold State.ceSeen
  repeat' first
    | with_reducible exact Keeps.refl ..
    | extract_lets
    | with_reducible apply Keeps.ite
    | split
    | (dsimp +zetaDelta only; split)
    | ((with_reducible apply Keeps.upd ?_); any_goals first | exact Or.inl (by decide) | exact Or.inr (Eq.refl _) | exact Or.inr (Or.inl ⟨by decide, Eq.refl _⟩) | exact Or.inr (Or.inr (Or.inl ⟨by decide, Eq.refl _⟩)) | exact Or.inr (Or.inr (Or.inr (Eq.refl _))))

theorem State.wordGood_keeps (a : Nat) (s : State) : Keeps [.store] s (State.wordGood a s) := by
  unfold State.wordGood
  repeat' first
    | with_reducible exact Keeps.refl ..
    | extract_lets
    | with_reducible apply Keeps.ite
    | split
    | (dsimp +zetaDelta only; split)
    | ((with_reducible apply Keeps.upd ?_); any_goals first | exact Or.inl (by decide) | exact Or.inr (Eq.refl _) | exact Or.inr (Or.inl ⟨by decide, Eq.refl _⟩) | exact Or.inr (Or.inr (Or.inl ⟨by decide, Eq.refl _⟩)) | exact Or.inr (Or.inr (Or.inr (Eq.refl _))))

theorem State.loseRecord_keeps (s : State) : Keeps [.cal, .free] s (State.loseRecord s) := by
  unfold State.loseRecord
  repeat' first
    | with_reducible exact Keeps.refl ..
    | extract_lets
    | ((with_reducible apply Keeps.step ?_ (State.used_keeps ..) ?_); on_goal 2 => decide)
    | ((with_reducible apply Keeps.step ?_ (State.freeSlots_keeps ..) ?_); on_goal 2 => decide)
    | with_reducible apply Keeps.ite
    | split
    | (dsimp +zetaDelta only; split)
    | ((with_reducible apply Keeps.upd ?_); any_goals first | exact Or.inl (by decide) | exact Or.inr (Eq.refl _) | exact Or.inr (Or.inl ⟨by decide, Eq.refl _⟩) | exact Or.inr (Or.inr (Or.inl ⟨by decide, Eq.refl _⟩)) | exact Or.inr (Or.inr (Or.inr (Eq.refl _))))

theorem State.calUe_keeps (a : Nat) (inUse : Bool) (s : State) : Keeps [.cal, .mem, .store, .free] s (State.calUe a inUse s) := by
  unfold State.calUe
  repeat' first
    | with_reducible exact Keeps.refl ..
    | extract_lets
    | ((with_reducible apply Keeps.step ?_ (State.wordGood_keeps ..) ?_); on_goal 2 => decide)
    | ((with_reducible apply Keeps.step ?_ (State.loseRecord_keeps ..) ?_); on_goal 2 => decide)
    | with_reducible apply Keeps.ite
    | split
    | (dsimp +zetaDelta only; split)
    | ((with_reducible apply Keeps.upd ?_); any_goals first | exact Or.inl (by decide) | exact Or.inr (Eq.refl _) | exact Or.inr (Or.inl ⟨by decide, Eq.refl _⟩) | exact Or.inr (Or.inr (Or.inl ⟨by decide, Eq.refl _⟩)) | exact Or.inr (Or.inr (Or.inr (Eq.refl _))))

theorem State.loseStaged_keeps (p : Pod) (s : State) : Keeps [.cal, .pod, .free] s (State.loseStaged p s) := by
  unfold State.loseStaged
  repeat' first
    | with_reducible exact Keeps.refl ..
    | extract_lets
    | ((with_reducible apply Keeps.step ?_ (State.used_keeps ..) ?_); on_goal 2 => decide)
    | ((with_reducible apply Keeps.step ?_ (State.modPod_keeps ..) ?_); on_goal 2 => decide)
    | with_reducible apply Keeps.ite
    | split
    | (dsimp +zetaDelta only; split)
    | ((with_reducible apply Keeps.upd ?_); any_goals first | exact Or.inl (by decide) | exact Or.inr (Eq.refl _) | exact Or.inr (Or.inl ⟨by decide, Eq.refl _⟩) | exact Or.inr (Or.inr (Or.inl ⟨by decide, Eq.refl _⟩)) | exact Or.inr (Or.inr (Or.inr (Eq.refl _))))

theorem State.ueOutcome_keeps (master a : Nat) (s : State) : Keeps [.cal, .pod, .mem, .store, .free] s (State.ueOutcome master a s) := by
  unfold State.ueOutcome
  repeat' first
    | with_reducible exact Keeps.refl ..
    | extract_lets
    | ((with_reducible apply Keeps.when ?_ _ _ ?_); on_goal 2 => intro _)
    | ((with_reducible apply Keeps.step ?_ (State.calUe_keeps ..) ?_); on_goal 2 => decide)
    | ((with_reducible apply Keeps.step ?_ (State.loseStaged_keeps ..) ?_); on_goal 2 => decide)
    | with_reducible apply Keeps.ite
    | split

theorem State.modArb_keeps (m : Fin 25) (f : ArbM → ArbM) (s : State) : Keeps [.store] s (State.modArb m f s) := by
  unfold State.modArb
  repeat' first
    | with_reducible exact Keeps.refl ..
    | extract_lets
    | with_reducible apply Keeps.ite
    | split
    | (dsimp +zetaDelta only; split)
    | ((with_reducible apply Keeps.upd ?_); any_goals first | exact Or.inl (by decide) | exact Or.inr (Eq.refl _) | exact Or.inr (Or.inl ⟨by decide, Eq.refl _⟩) | exact Or.inr (Or.inr (Or.inl ⟨by decide, Eq.refl _⟩)) | exact Or.inr (Or.inr (Or.inr (Eq.refl _))))

theorem State.loseTry_keeps (m : Fin 25) (s : State) : Keeps [.store] s (State.loseTry m s) := by
  unfold State.loseTry
  repeat' first
    | with_reducible exact Keeps.refl ..
    | extract_lets
    | ((with_reducible apply Keeps.step ?_ (State.modArb_keeps ..) ?_); on_goal 2 => decide)

theorem State.waitRmw_keeps (m : Fin 25) (s : State) : Keeps [.store] s (State.waitRmw m s) := by
  unfold State.waitRmw
  repeat' first
    | with_reducible exact Keeps.refl ..
    | extract_lets
    | ((with_reducible apply Keeps.step ?_ (State.modArb_keeps ..) ?_); on_goal 2 => decide)

theorem State.grant_keeps (r : StoreReq) (s : State) : Keeps [.cal, .pod, .mem, .store, .mbx, .health, .free] s (State.grant r s) := by
  unfold State.grant
  repeat' first
    | with_reducible exact Keeps.refl ..
    | extract_lets
    | ((with_reducible apply Keeps.step ?_ (State.modArb_keeps ..) ?_); on_goal 2 => decide)
    | ((with_reducible apply Keeps.step ?_ (State.ceSeen_keeps ..) ?_); on_goal 2 => decide)
    | ((with_reducible apply Keeps.step ?_ (State.ueOutcome_keeps ..) ?_); on_goal 2 => decide)
    | ((with_reducible apply Keeps.step ?_ (State.ueSeen_keeps ..) ?_); on_goal 2 => decide)
    | ((with_reducible apply Keeps.step ?_ (State.used_keeps ..) ?_); on_goal 2 => decide)
    | ((with_reducible apply Keeps.step ?_ (State.wordGood_keeps ..) ?_); on_goal 2 => decide)
    | with_reducible apply Keeps.ite
    | split
    | (dsimp +zetaDelta only; split)
    | ((with_reducible apply Keeps.upd ?_); any_goals first | exact Or.inl (by decide) | exact Or.inr (Eq.refl _) | exact Or.inr (Or.inl ⟨by decide, Eq.refl _⟩) | exact Or.inr (Or.inr (Or.inl ⟨by decide, Eq.refl _⟩)) | exact Or.inr (Or.inr (Or.inr (Eq.refl _))))

theorem State.storeAccess_keeps (bank : Fin 96) (reqs : List StoreReq) (s : State) : Keeps [.cal, .pod, .mem, .store, .mbx, .health, .free] s (State.storeAccess bank reqs s) := by
  unfold State.storeAccess
  repeat' first
    | with_reducible exact Keeps.refl ..
    | extract_lets
    | ((with_reducible refine Keeps.forAll _ ?_ _ ?_); on_goal 1 => intro _ _)
    | ((with_reducible apply Keeps.step ?_ (State.waitRmw_keeps ..) ?_); on_goal 2 => decide)
    | ((with_reducible apply Keeps.step ?_ (State.grant_keeps ..) ?_); on_goal 2 => decide)
    | ((with_reducible apply Keeps.step ?_ (State.loseTry_keeps ..) ?_); on_goal 2 => decide)
    | with_reducible apply Keeps.ite
    | split
    | (dsimp +zetaDelta only; split)
    | ((with_reducible apply Keeps.upd ?_); any_goals first | exact Or.inl (by decide) | exact Or.inr (Eq.refl _) | exact Or.inr (Or.inl ⟨by decide, Eq.refl _⟩) | exact Or.inr (Or.inr (Or.inl ⟨by decide, Eq.refl _⟩)) | exact Or.inr (Or.inr (Or.inr (Eq.refl _))))

theorem State.scrubWord_keeps (a : Nat) (e : Ecc) (s : State) : Keeps [.cal, .mem, .store, .mbx, .health, .free] s (State.scrubWord a e s) := by
  unfold State.scrubWord
  repeat' first
    | with_reducible exact Keeps.refl ..
    | extract_lets
    | ((with_reducible apply Keeps.step ?_ (State.ceSeen_keeps ..) ?_); on_goal 2 => decide)
    | ((with_reducible apply Keeps.step ?_ (State.calUe_keeps ..) ?_); on_goal 2 => decide)
    | ((with_reducible apply Keeps.step ?_ (State.ueSeen_keeps ..) ?_); on_goal 2 => decide)
    | ((with_reducible apply Keeps.step ?_ (State.used_keeps ..) ?_); on_goal 2 => decide)
    | with_reducible apply Keeps.ite
    | split

theorem State.scrubPass_keeps (found : List (Nat × Ecc)) (s : State) : Keeps [.cal, .mem, .store, .mbx, .health, .free] s (State.scrubPass found s) := by
  unfold State.scrubPass
  repeat' first
    | with_reducible exact Keeps.refl ..
    | extract_lets
    | ((with_reducible refine Keeps.forAll _ ?_ _ ?_); on_goal 1 => intro _ _)
    | ((with_reducible apply Keeps.step ?_ (State.scrubWord_keeps ..) ?_); on_goal 2 => decide)
    | with_reducible apply Keeps.ite
    | split
    | (dsimp +zetaDelta only; split)
    | ((with_reducible apply Keeps.upd ?_); any_goals first | exact Or.inl (by decide) | exact Or.inr (Eq.refl _) | exact Or.inr (Or.inl ⟨by decide, Eq.refl _⟩) | exact Or.inr (Or.inr (Or.inl ⟨by decide, Eq.refl _⟩)) | exact Or.inr (Or.inr (Or.inr (Eq.refl _))))

theorem State.retainDone_keeps (j : RetJob) (s : State) : Keeps [.mbx] s (State.retainDone j s) := by
  unfold State.retainDone
  repeat' first
    | with_reducible exact Keeps.refl ..
    | extract_lets
    | ((with_reducible apply Keeps.step ?_ (State.answer_keeps ..) ?_); on_goal 2 => decide)

theorem State.settleJobs_keeps (g : Seg) (s : State) : Keeps [.store, .mbx] s (State.settleJobs g s) := by
  unfold State.settleJobs
  repeat' first
    | with_reducible exact Keeps.refl ..
    | extract_lets
    | ((with_reducible refine Keeps.forAll _ ?_ _ ?_); on_goal 1 => intro _ _)
    | ((with_reducible apply Keeps.step ?_ (State.retainDone_keeps ..) ?_); on_goal 2 => decide)
    | with_reducible apply Keeps.ite
    | split
    | (dsimp +zetaDelta only; split)
    | ((with_reducible apply Keeps.upd ?_); any_goals first | exact Or.inl (by decide) | exact Or.inr (Eq.refl _) | exact Or.inr (Or.inl ⟨by decide, Eq.refl _⟩) | exact Or.inr (Or.inr (Or.inl ⟨by decide, Eq.refl _⟩)) | exact Or.inr (Or.inr (Or.inr (Eq.refl _))))

theorem State.retainOne_keeps (g : Seg) (r : State × BitVec 6) : Keeps [.store] r.1 (State.retainOne g r).1 := by
  obtain ⟨s, refused⟩ := r
  unfold State.retainOne
  dsimp only
  split
  · exact Keeps.setStore s _ rfl
  · exact Keeps.setStore s _ (Store.retain_mem ..)

theorem retainAll_keeps : ∀ (l : List Seg) (r : State × BitVec 6), Keeps [.store] r.1 (l.foldl (fun a g => State.retainOne g a) r).1
  | [], r => Keeps.refl _ r.1
  | g :: l, r => (State.retainOne_keeps g r).trans (retainAll_keeps l (State.retainOne g r))

theorem State.storeRetain_keeps (b : CmdMbx) (body : List Byte) (s : State) : Keeps [.store, .mbx, .free] s (State.storeRetain b body s) := by
  have ans : ∀ (c d : Nat) (l : List Byte), Keeps [.store, .mbx, .free] s (s.answer b c d l) := fun c d l => (State.answer_keeps ..).mono (by decide)
  unfold State.storeRetain
  extract_lets r w
  split
  · exact Keeps.refl _ s
  split
  · exact ans ..
  split
  · exact ans ..
  have h1 := retainAll_keeps (segsOf r) (s, 0)
  revert h1
  generalize List.foldl (fun a g => State.retainOne g a) (s, 0) (segsOf r) = x
  intro h1
  obtain ⟨t, refused⟩ := x
  dsimp only
  have h2 : Keeps [.store, .mbx, .free] s (forAll (segsOf w) (fun g s => { s with store := s.store.wakeSeg g }) t.used) := by
    refine Keeps.forAll _ ?_ _ ((h1.mono (by decide)).step (State.used_keeps ..) (by decide))
    intro g u
    exact (Keeps.setStore u _ (Store.wakeSeg_mem ..)).mono (by decide)
  split
  · exact h2.step (State.retainDone_keeps ..) (by decide)
  · apply Keeps.upd h2 <;> first | exact Or.inl (by decide) | exact Or.inr (Eq.refl _) | exact Or.inr (Or.inl ⟨by decide, Eq.refl _⟩) | exact Or.inr (Or.inr (Or.inl ⟨by decide, Eq.refl _⟩)) | exact Or.inr (Or.inr (Or.inr (Eq.refl _)))

theorem State.retentionDone_keeps (g : Seg) (s : State) : Keeps [.store, .mbx] s (State.retentionDone g s) := by
  unfold State.retentionDone
  repeat' first
    | with_reducible exact Keeps.refl ..
    | extract_lets
    | ((with_reducible apply Keeps.when ?_ _ _ ?_); on_goal 2 => intro _)
    | ((with_reducible apply Keeps.step ?_ (State.settleJobs_keeps ..) ?_); on_goal 2 => decide)
    | with_reducible apply Keeps.ite
    | split
    | (dsimp +zetaDelta only; split)
    | ((with_reducible apply Keeps.upd ?_); any_goals first | exact Or.inl (by decide) | exact Or.inr (Eq.refl _) | exact Or.inr (Or.inl ⟨by decide, Eq.refl _⟩) | exact Or.inr (Or.inr (Or.inl ⟨by decide, Eq.refl _⟩)) | exact Or.inr (Or.inr (Or.inr (Eq.refl _))))

theorem State.winErr_keeps (a : Nat) (qspi write : Bool) (s : State) : Keeps [.store] s (State.winErr a qspi write s) := by
  unfold State.winErr
  repeat' first
    | with_reducible exact Keeps.refl ..
    | extract_lets
    | with_reducible apply Keeps.ite
    | split
    | (dsimp +zetaDelta only; split)
    | ((with_reducible apply Keeps.upd ?_); any_goals first | exact Or.inl (by decide) | exact Or.inr (Eq.refl _) | exact Or.inr (Or.inl ⟨by decide, Eq.refl _⟩) | exact Or.inr (Or.inr (Or.inl ⟨by decide, Eq.refl _⟩)) | exact Or.inr (Or.inr (Or.inr (Eq.refl _))))

theorem State.winRead_keeps (m : Fin 25) (as : List Nat) (s : State) : Keeps [.store, .mbx, .health, .free] s (State.winRead m as s) := by
  unfold State.winRead
  repeat' first
    | with_reducible exact Keeps.refl ..
    | extract_lets
    | ((with_reducible apply Keeps.when ?_ _ _ ?_); on_goal 2 => intro _)
    | ((with_reducible refine Keeps.forAll _ ?_ _ ?_); on_goal 1 => intro _ _)
    | ((with_reducible apply Keeps.step ?_ (State.modArb_keeps ..) ?_); on_goal 2 => decide)
    | ((with_reducible apply Keeps.step ?_ (State.used_keeps ..) ?_); on_goal 2 => decide)
    | ((with_reducible apply Keeps.step ?_ (State.ueSeen_keeps ..) ?_); on_goal 2 => decide)
    | ((with_reducible apply Keeps.step ?_ (State.winErr_keeps ..) ?_); on_goal 2 => decide)

theorem State.winWord_keeps (m : Fin 25) (cells : List (Nat × Byte)) (w : Nat) (s : State) : Keeps [.mem, .store, .mbx, .health, .free] s (State.winWord m cells w s) := by
  unfold State.winWord
  repeat' first
    | with_reducible exact Keeps.refl ..
    | extract_lets
    | ((with_reducible apply Keeps.when ?_ _ _ ?_); on_goal 2 => intro _)
    | ((with_reducible apply Keeps.step ?_ (State.ueSeen_keeps ..) ?_); on_goal 2 => decide)
    | ((with_reducible apply Keeps.step ?_ (State.wordGood_keeps ..) ?_); on_goal 2 => decide)
    | with_reducible apply Keeps.ite
    | split
    | (dsimp +zetaDelta only; split)
    | ((with_reducible apply Keeps.upd ?_); any_goals first | exact Or.inl (by decide) | exact Or.inr (Eq.refl _) | exact Or.inr (Or.inl ⟨by decide, Eq.refl _⟩) | exact Or.inr (Or.inr (Or.inl ⟨by decide, Eq.refl _⟩)) | exact Or.inr (Or.inr (Or.inr (Eq.refl _))))

theorem State.winWrite_keeps (m : Fin 25) (cells : List (Nat × Byte)) (s : State) : Keeps [.mem, .store, .mbx, .health, .free] s (State.winWrite m cells s) := by
  unfold State.winWrite
  repeat' first
    | with_reducible exact Keeps.refl ..
    | extract_lets
    | ((with_reducible apply Keeps.when ?_ _ _ ?_); on_goal 2 => intro _)
    | ((with_reducible refine Keeps.forAll _ ?_ _ ?_); on_goal 1 => intro _ _)
    | ((with_reducible apply Keeps.step ?_ (State.winWord_keeps ..) ?_); on_goal 2 => decide)
    | ((with_reducible apply Keeps.step ?_ (State.winErr_keeps ..) ?_); on_goal 2 => decide)

theorem State.winAccess_keeps (x : WinAccess) (s : State) : Keeps [.mem, .store, .mbx, .health, .free] s (State.winAccess x s) := by
  unfold State.winAccess
  repeat' first
    | with_reducible exact Keeps.refl ..
    | extract_lets
    | ((with_reducible apply Keeps.step ?_ (State.winRead_keeps ..) ?_); on_goal 2 => decide)
    | ((with_reducible apply Keeps.step ?_ (State.winWrite_keeps ..) ?_); on_goal 2 => decide)
    | with_reducible apply Keeps.ite
    | split

theorem State.autoWake_keeps (g : Seg) (s : State) : Keeps [.store] s (State.autoWake g s) := by
  unfold State.autoWake
  split
  · exact Keeps.refl _ s
  · exact Keeps.setStore s _ (Store.wakeSeg_mem ..)

theorem State.hostAccess_keeps (x : WinAccess) (s : State) : Keeps [.mem, .store, .mbx, .health, .free] s (State.hostAccess x s) := by
  unfold State.hostAccess
  repeat' first
    | with_reducible exact Keeps.refl ..
    | extract_lets
    | ((with_reducible refine Keeps.forAll _ ?_ _ ?_); on_goal 1 => intro _ _)
    | ((with_reducible apply Keeps.step ?_ (State.autoWake_keeps ..) ?_); on_goal 2 => decide)
    | ((with_reducible apply Keeps.step ?_ (State.winAccess_keeps ..) ?_); on_goal 2 => decide)
    | with_reducible apply Keeps.ite
    | split
    | (dsimp +zetaDelta only; split)
    | ((with_reducible apply Keeps.upd ?_); any_goals first | exact Or.inl (by decide) | exact Or.inr (Eq.refl _) | exact Or.inr (Or.inl ⟨by decide, Eq.refl _⟩) | exact Or.inr (Or.inr (Or.inl ⟨by decide, Eq.refl _⟩)) | exact Or.inr (Or.inr (Or.inr (Eq.refl _))))

theorem State.segmentAwake_keeps (g : Seg) (s : State) : Keeps [.store, .mbx] s (State.segmentAwake g s) := by
  unfold State.segmentAwake
  repeat' first
    | with_reducible exact Keeps.refl ..
    | extract_lets
    | ((with_reducible apply Keeps.step ?_ (State.settleJobs_keeps ..) ?_); on_goal 2 => decide)
    | with_reducible apply Keeps.ite
    | split
    | (dsimp +zetaDelta only; split)
    | ((with_reducible apply Keeps.upd ?_); any_goals first | exact Or.inl (by decide) | exact Or.inr (Eq.refl _) | exact Or.inr (Or.inl ⟨by decide, Eq.refl _⟩) | exact Or.inr (Or.inr (Or.inl ⟨by decide, Eq.refl _⟩)) | exact Or.inr (Or.inr (Or.inr (Eq.refl _))))

theorem State.storeCfgErr_keeps (s : State) : Keeps [.store] s (State.storeCfgErr s) := by
  unfold State.storeCfgErr
  repeat' first
    | with_reducible exact Keeps.refl ..
    | extract_lets
    | with_reducible apply Keeps.ite
    | split
    | (dsimp +zetaDelta only; split)
    | ((with_reducible apply Keeps.upd ?_); any_goals first | exact Or.inl (by decide) | exact Or.inr (Eq.refl _) | exact Or.inr (Or.inl ⟨by decide, Eq.refl _⟩) | exact Or.inr (Or.inr (Or.inl ⟨by decide, Eq.refl _⟩)) | exact Or.inr (Or.inr (Or.inr (Eq.refl _))))

theorem State.writeCapRd_keeps (p : Pod) (w : W) (s : State) : Keeps [.ch, .store] s (State.writeCapRd p w s) := by
  unfold State.writeCapRd
  repeat' first
    | with_reducible exact Keeps.refl ..
    | extract_lets
    | ((with_reducible refine Keeps.forAll _ ?_ _ ?_); on_goal 1 => intro _ _)
    | ((with_reducible apply Keeps.step ?_ (State.settleSpill_keeps ..) ?_); on_goal 2 => decide)
    | with_reducible apply Keeps.ite
    | split
    | (dsimp +zetaDelta only; split)
    | ((with_reducible apply Keeps.upd ?_); any_goals first | exact Or.inl (by decide) | exact Or.inr (Eq.refl _) | exact Or.inr (Or.inl ⟨by decide, Eq.refl _⟩) | exact Or.inr (Or.inr (Or.inl ⟨by decide, Eq.refl _⟩)) | exact Or.inr (Or.inr (Or.inr (Eq.refl _))))

theorem State.writeCapCfg_keeps (p : Pod) (size : Bool) (w : W) (s : State) : Keeps [.store] s (State.writeCapCfg p size w s) := by
  unfold State.writeCapCfg
  repeat' first
    | with_reducible exact Keeps.refl ..
    | extract_lets
    | ((with_reducible apply Keeps.step ?_ (State.storeCfgErr_keeps ..) ?_); on_goal 2 => decide)
    | with_reducible apply Keeps.ite
    | split
    | (dsimp +zetaDelta only; split)
    | ((with_reducible apply Keeps.upd ?_); any_goals first | exact Or.inl (by decide) | exact Or.inr (Eq.refl _) | exact Or.inr (Or.inl ⟨by decide, Eq.refl _⟩) | exact Or.inr (Or.inr (Or.inl ⟨by decide, Eq.refl _⟩)) | exact Or.inr (Or.inr (Or.inr (Eq.refl _))))

theorem State.restartBegin_keeps (cause : BitVec 4) (core : BitVec 3) (s : State) : Keeps [.eic, .mbx, .fw, .health, .sur, .free] s (State.restartBegin cause core s) := by
  unfold State.restartBegin
  repeat' first
    | with_reducible exact Keeps.refl ..
    | extract_lets
    | ((with_reducible apply Keeps.step ?_ (State.notice_keeps ..) ?_); on_goal 2 => decide)
    | ((with_reducible apply Keeps.step ?_ (State.hsum_keeps ..) ?_); on_goal 2 => decide)
    | with_reducible apply Keeps.ite
    | split
    | (dsimp +zetaDelta only; split)
    | ((with_reducible apply Keeps.upd ?_); any_goals first | exact Or.inl (by decide) | exact Or.inr (Eq.refl _) | exact Or.inr (Or.inl ⟨by decide, Eq.refl _⟩) | exact Or.inr (Or.inr (Or.inl ⟨by decide, Eq.refl _⟩)) | exact Or.inr (Or.inr (Or.inr (Eq.refl _))))

theorem State.watchRestart_keeps (b : CmdMbx) (body : List Byte) (s : State) : Keeps [.eic, .mbx, .fw, .health, .sur, .free] s (State.watchRestart b body s) := by
  unfold State.watchRestart
  repeat' first
    | with_reducible exact Keeps.refl ..
    | extract_lets
    | ((with_reducible apply Keeps.step ?_ (State.answer_keeps ..) ?_); on_goal 2 => decide)
    | ((with_reducible apply Keeps.step ?_ (State.restartBegin_keeps ..) ?_); on_goal 2 => decide)
    | with_reducible apply Keeps.ite

theorem State.watchViol_keeps (core : Fin 4) (store : Bool) (addr : Nat) (s : State) : Keeps [.eic, .mbx, .fw, .health, .sur, .free] s (State.watchViol core store addr s) := by
  unfold State.watchViol
  repeat' first
    | with_reducible exact Keeps.refl ..
    | extract_lets
    | ((with_reducible apply Keeps.when ?_ _ _ ?_); on_goal 2 => intro _)
    | ((with_reducible apply Keeps.step ?_ (State.hsum_keeps ..) ?_); on_goal 2 => decide)
    | ((with_reducible apply Keeps.step ?_ (State.restartBegin_keeps ..) ?_); on_goal 2 => decide)
    | with_reducible apply Keeps.ite
    | split
    | (dsimp +zetaDelta only; split)
    | ((with_reducible apply Keeps.upd ?_); any_goals first | exact Or.inl (by decide) | exact Or.inr (Eq.refl _) | exact Or.inr (Or.inl ⟨by decide, Eq.refl _⟩) | exact Or.inr (Or.inr (Or.inl ⟨by decide, Eq.refl _⟩)) | exact Or.inr (Or.inr (Or.inr (Eq.refl _))))

theorem State.heartbeat_keeps (core : Fin 4) (s : State) : Keeps [.fw] s (State.heartbeat core s) := by
  unfold State.heartbeat
  repeat' first
    | with_reducible exact Keeps.refl ..
    | extract_lets
    | with_reducible apply Keeps.ite
    | split
    | (dsimp +zetaDelta only; split)
    | ((with_reducible apply Keeps.upd ?_); any_goals first | exact Or.inl (by decide) | exact Or.inr (Eq.refl _) | exact Or.inr (Or.inl ⟨by decide, Eq.refl _⟩) | exact Or.inr (Or.inr (Or.inl ⟨by decide, Eq.refl _⟩)) | exact Or.inr (Or.inr (Or.inr (Eq.refl _))))

theorem State.digestCheck_keeps (ok flashOk : Bool) (s : State) : Keeps [.fw, .health] s (State.digestCheck ok flashOk s) := by
  unfold State.digestCheck
  repeat' first
    | with_reducible exact Keeps.refl ..
    | extract_lets
    | ((with_reducible apply Keeps.step ?_ (State.hsum_keeps ..) ?_); on_goal 2 => decide)
    | with_reducible apply Keeps.ite
    | split
    | (dsimp +zetaDelta only; split)
    | ((with_reducible apply Keeps.upd ?_); any_goals first | exact Or.inl (by decide) | exact Or.inr (Eq.refl _) | exact Or.inr (Or.inl ⟨by decide, Eq.refl _⟩) | exact Or.inr (Or.inr (Or.inl ⟨by decide, Eq.refl _⟩)) | exact Or.inr (Or.inr (Or.inr (Eq.refl _))))

theorem State.restartComplete_keeps (s : State) : Keeps [.mbx, .fw, .health, .free] s (State.restartComplete s) := by
  unfold State.restartComplete
  repeat' first
    | with_reducible exact Keeps.refl ..
    | extract_lets
    | ((with_reducible apply Keeps.step ?_ (State.notice_keeps ..) ?_); on_goal 2 => decide)
    | ((with_reducible apply Keeps.step ?_ (State.hsum_keeps ..) ?_); on_goal 2 => decide)
    | with_reducible apply Keeps.ite
    | split
    | (dsimp +zetaDelta only; split)
    | ((with_reducible apply Keeps.upd ?_); any_goals first | exact Or.inl (by decide) | exact Or.inr (Eq.refl _) | exact Or.inr (Or.inl ⟨by decide, Eq.refl _⟩) | exact Or.inr (Or.inr (Or.inl ⟨by decide, Eq.refl _⟩)) | exact Or.inr (Or.inr (Or.inr (Eq.refl _))))

theorem State.shadowOn_keeps (p : Pod) (s : State) : Keeps [.health] s (State.shadowOn p s) := by
  unfold State.shadowOn
  repeat' first
    | with_reducible exact Keeps.refl ..
    | extract_lets
    | ((with_reducible apply Keeps.step ?_ (State.modHealth_keeps ..) ?_); on_goal 2 => decide)
    | with_reducible apply Keeps.ite

theorem State.askSubst_keeps (p : Pod) (k : SubstKind) (s : State) : Keeps [.pod] s (State.askSubst p k s) := by
  unfold State.askSubst
  repeat' first
    | with_reducible exact Keeps.refl ..
    | extract_lets
    | ((with_reducible apply Keeps.step ?_ (State.modPod_keeps ..) ?_); on_goal 2 => decide)

theorem State.buoyTest_keeps (p : Pod) (pass : Bool) (s : State) : Keeps [.pod, .health] s (State.buoyTest p pass s) := by
  unfold State.buoyTest
  repeat' first
    | with_reducible exact Keeps.refl ..
    | extract_lets
    | ((with_reducible apply Keeps.step ?_ (State.askSubst_keeps ..) ?_); on_goal 2 => decide)
    | ((with_reducible apply Keeps.step ?_ (State.modHealth_keeps ..) ?_); on_goal 2 => decide)
    | with_reducible apply Keeps.ite

theorem State.endShadow_keeps (n : Ch) (s : State) : Keeps [.health] s (State.endShadow n s) := by
  unfold State.endShadow
  repeat' first
    | with_reducible exact Keeps.refl ..
    | extract_lets
    | ((with_reducible apply Keeps.step ?_ (State.shadowOn_keeps ..) ?_); on_goal 2 => decide)
    | ((with_reducible apply Keeps.step ?_ (State.modHealth_keeps ..) ?_); on_goal 2 => decide)
    | with_reducible apply Keeps.ite

theorem State.shadowMismatch_keeps (p : Pod) (output forced : Bool) (ts : Nat) (s : State) : Keeps [.pod, .mbx, .health, .free] s (State.shadowMismatch p output forced ts s) := by
  unfold State.shadowMismatch
  repeat' first
    | with_reducible exact Keeps.refl ..
    | extract_lets
    | ((with_reducible apply Keeps.step ?_ (State.modHealth_keeps ..) ?_); on_goal 2 => decide)
    | ((with_reducible apply Keeps.step ?_ (State.askSubst_keeps ..) ?_); on_goal 2 => decide)
    | ((with_reducible apply Keeps.step ?_ (State.shadowOn_keeps ..) ?_); on_goal 2 => decide)
    | ((with_reducible apply Keeps.step ?_ (State.notice_keeps ..) ?_); on_goal 2 => decide)
    | with_reducible apply Keeps.ite

theorem State.takeover_keeps (p : Pod) (s : State) : Keeps [.ch, .pod, .mbx, .health, .free] s (State.takeover p s) := by
  unfold State.takeover
  repeat' first
    | with_reducible exact Keeps.refl ..
    | extract_lets
    | ((with_reducible apply Keeps.step ?_ (State.modPod_keeps ..) ?_); on_goal 2 => decide)
    | ((with_reducible apply Keeps.step ?_ (State.modHealth_keeps ..) ?_); on_goal 2 => decide)
    | ((with_reducible apply Keeps.step ?_ (State.hsum_keeps ..) ?_); on_goal 2 => decide)
    | ((with_reducible apply Keeps.step ?_ (State.modCh_keeps ..) ?_); on_goal 2 => decide)
    | ((with_reducible apply Keeps.step ?_ (State.notice_keeps ..) ?_); on_goal 2 => decide)
    | ((with_reducible apply Keeps.step ?_ (State.askSubst_keeps ..) ?_); on_goal 2 => decide)
    | with_reducible apply Keeps.ite
    | split

theorem State.substStep_keeps (p : Pod) (s : State) : Keeps [.ch, .pod, .mbx, .health, .free] s (State.substStep p s) := by
  unfold State.substStep
  repeat' first
    | with_reducible exact Keeps.refl ..
    | extract_lets
    | ((with_reducible apply Keeps.step ?_ (State.modPod_keeps ..) ?_); on_goal 2 => decide)
    | ((with_reducible apply Keeps.step ?_ (State.modHealth_keeps ..) ?_); on_goal 2 => decide)
    | ((with_reducible apply Keeps.step ?_ (State.takeover_keeps ..) ?_); on_goal 2 => decide)
    | ((with_reducible apply Keeps.step ?_ (State.shadowOn_keeps ..) ?_); on_goal 2 => decide)
    | with_reducible apply Keeps.ite
    | split

theorem State.quarantineDone_keeps (p : Pod) (pass : Bool) (s : State) : Keeps [.pod, .health] s (State.quarantineDone p pass s) := by
  unfold State.quarantineDone
  repeat' first
    | with_reducible exact Keeps.refl ..
    | extract_lets
    | ((with_reducible apply Keeps.step ?_ (State.askSubst_keeps ..) ?_); on_goal 2 => decide)
    | ((with_reducible apply Keeps.step ?_ (State.modHealth_keeps ..) ?_); on_goal 2 => decide)
    | with_reducible apply Keeps.ite
    | split

theorem State.sense_keeps (spare : Bool) (level : Bool) (n : Ch) (s : State) : Keeps [.ch, .pod, .free] s (State.sense spare level n s) := by
  unfold State.sense
  repeat' first
    | with_reducible exact Keeps.refl ..
    | extract_lets
    | ((with_reducible apply Keeps.step ?_ (State.crossPin_keeps ..) ?_); on_goal 2 => decide)
    | ((with_reducible apply Keeps.step ?_ (State.modCh_keeps ..) ?_); on_goal 2 => decide)

theorem State.spareMove_keeps (n : Ch) (s : State) : Keeps [.ch, .pod, .mbx, .health, .free] s (State.spareMove n s) := by
  unfold State.spareMove
  repeat' first
    | with_reducible exact Keeps.refl ..
    | extract_lets
    | ((with_reducible apply Keeps.step ?_ (State.sense_keeps ..) ?_); on_goal 2 => decide)
    | ((with_reducible apply Keeps.step ?_ (State.modHealth_keeps ..) ?_); on_goal 2 => decide)
    | ((with_reducible apply Keeps.step ?_ (State.notice_keeps ..) ?_); on_goal 2 => decide)
    | ((with_reducible apply Keeps.step ?_ (State.hsum_keeps ..) ?_); on_goal 2 => decide)
    | with_reducible apply Keeps.ite

theorem State.spareBack_keeps (n : Ch) (s : State) : Keeps [.ch, .pod, .mbx, .health, .free] s (State.spareBack n s) := by
  unfold State.spareBack
  repeat' first
    | with_reducible exact Keeps.refl ..
    | extract_lets
    | ((with_reducible apply Keeps.step ?_ (State.sense_keeps ..) ?_); on_goal 2 => decide)
    | ((with_reducible apply Keeps.step ?_ (State.modHealth_keeps ..) ?_); on_goal 2 => decide)
    | ((with_reducible apply Keeps.step ?_ (State.notice_keeps ..) ?_); on_goal 2 => decide)
    | ((with_reducible apply Keeps.step ?_ (State.hsum_keeps ..) ?_); on_goal 2 => decide)
    | with_reducible apply Keeps.ite

theorem State.substPolicy_keeps (b : CmdMbx) (body : List Byte) (s : State) : Keeps [.mbx, .health] s (State.substPolicy b body s) := by
  unfold State.substPolicy
  repeat' first
    | with_reducible exact Keeps.refl ..
    | extract_lets
    | ((with_reducible refine Keeps.forAll _ ?_ _ ?_); on_goal 1 => intro _ _)
    | ((with_reducible apply Keeps.step ?_ (State.answer_keeps ..) ?_); on_goal 2 => decide)
    | ((with_reducible apply Keeps.step ?_ (State.shadowOn_keeps ..) ?_); on_goal 2 => decide)
    | ((with_reducible apply Keeps.step ?_ (State.modHealth_keeps ..) ?_); on_goal 2 => decide)
    | with_reducible apply Keeps.ite
    | split

theorem State.message_keeps (v : Nat) (s : State) : Keeps [.eic] s (State.message v s) := by
  unfold State.message
  repeat' first
    | with_reducible exact Keeps.refl ..
    | extract_lets
    | with_reducible apply Keeps.ite
    | split
    | (dsimp +zetaDelta only; split)
    | ((with_reducible apply Keeps.upd ?_); any_goals first | exact Or.inl (by decide) | exact Or.inr (Eq.refl _) | exact Or.inr (Or.inl ⟨by decide, Eq.refl _⟩) | exact Or.inr (Or.inr (Or.inl ⟨by decide, Eq.refl _⟩)) | exact Or.inr (Or.inr (Or.inr (Eq.refl _))))

theorem State.wakeReq_keeps (t : Tgt) (s : State) : Keeps [.eic] s (State.wakeReq t s) := by
  unfold State.wakeReq
  repeat' first
    | with_reducible exact Keeps.refl ..
    | extract_lets
    | ((with_reducible apply Keeps.step ?_ (State.modTgt_keeps ..) ?_); on_goal 2 => decide)
    | with_reducible apply Keeps.ite
    | split
    | (dsimp +zetaDelta only; split)
    | ((with_reducible apply Keeps.upd ?_); any_goals first | exact Or.inl (by decide) | exact Or.inr (Eq.refl _) | exact Or.inr (Or.inl ⟨by decide, Eq.refl _⟩) | exact Or.inr (Or.inr (Or.inl ⟨by decide, Eq.refl _⟩)) | exact Or.inr (Or.inr (Or.inr (Eq.refl _))))

theorem State.deliver_keeps (s : State) : Keeps [.eic] s (State.deliver s) := by
  unfold State.deliver
  extract_lets before _ t u u0 v now
  have ht : Keeps [.eic] s t := by
    apply Keeps.upd (Keeps.refl _ s) <;> first | exact Or.inl (by decide) | exact Or.inr (Eq.refl _) | exact Or.inr (Or.inl ⟨by decide, Eq.refl _⟩) | exact Or.inr (Or.inr (Or.inl ⟨by decide, Eq.refl _⟩)) | exact Or.inr (Or.inr (Or.inr (Eq.refl _)))
  have hu : Keeps [.eic] s u := Keeps.forAll _ (fun a x => State.wakeReq_keeps ..) _ ht
  have hv : Keeps [.eic] s v := Keeps.forAll _ (fun a x => State.modTgt_keeps ..) _ hu
  clear_value before now v
  split
  · exact hv
  · split
    · exact hv
    · exact hv.trans (State.message_keeps ..)

theorem State.srcEdge_keeps (i : Src) (s : State) : Keeps [.eic] s (State.srcEdge i s) := by
  unfold State.srcEdge
  repeat' first
    | with_reducible exact Keeps.refl ..
    | extract_lets
    | ((with_reducible apply Keeps.when ?_ _ _ ?_); on_goal 2 => intro _)
    | ((with_reducible apply Keeps.step ?_ (State.modGrp_keeps ..) ?_); on_goal 2 => decide)
    | with_reducible apply Keeps.ite
    | split
    | (dsimp +zetaDelta only; split)
    | ((with_reducible apply Keeps.upd ?_); any_goals first | exact Or.inl (by decide) | exact Or.inr (Eq.refl _) | exact Or.inr (Or.inl ⟨by decide, Eq.refl _⟩) | exact Or.inr (Or.inr (Or.inl ⟨by decide, Eq.refl _⟩)) | exact Or.inr (Or.inr (Or.inr (Eq.refl _))))

theorem State.lineEdge_keeps (i : Src) (s : State) : Keeps [.eic] s (State.lineEdge i s) := by
  unfold State.lineEdge
  repeat' first
    | with_reducible exact Keeps.refl ..
    | extract_lets
    | ((with_reducible apply Keeps.when ?_ _ _ ?_); on_goal 2 => intro _)
    | ((with_reducible apply Keeps.step ?_ (State.deliver_keeps ..) ?_); on_goal 2 => decide)
    | ((with_reducible apply Keeps.step ?_ (State.srcEdge_keeps ..) ?_); on_goal 2 => decide)
    | with_reducible apply Keeps.ite
    | split
    | (dsimp +zetaDelta only; split)
    | ((with_reducible apply Keeps.upd ?_); any_goals first | exact Or.inl (by decide) | exact Or.inr (Eq.refl _) | exact Or.inr (Or.inl ⟨by decide, Eq.refl _⟩) | exact Or.inr (Or.inr (Or.inl ⟨by decide, Eq.refl _⟩)) | exact Or.inr (Or.inr (Or.inr (Eq.refl _))))

theorem State.eicCfgErr_keeps (s : State) : Keeps [.eic] s (State.eicCfgErr s) := by
  unfold State.eicCfgErr
  repeat' first
    | with_reducible exact Keeps.refl ..
    | extract_lets
    | with_reducible apply Keeps.ite
    | split
    | (dsimp +zetaDelta only; split)
    | ((with_reducible apply Keeps.upd ?_); any_goals first | exact Or.inl (by decide) | exact Or.inr (Eq.refl _) | exact Or.inr (Or.inl ⟨by decide, Eq.refl _⟩) | exact Or.inr (Or.inr (Or.inl ⟨by decide, Eq.refl _⟩)) | exact Or.inr (Or.inr (Or.inr (Eq.refl _))))

theorem State.writePset_keeps (m : Master) (g : Grp) (w : W) (s : State) : Keeps [.eic] s (State.writePset m g w s) := by
  unfold State.writePset
  repeat' first
    | with_reducible exact Keeps.refl ..
    | extract_lets
    | ((with_reducible refine Keeps.forAll _ ?_ _ ?_); on_goal 1 => intro _ _)
    | ((with_reducible apply Keeps.step ?_ (State.eicCfgErr_keeps ..) ?_); on_goal 2 => decide)
    | ((with_reducible apply Keeps.step ?_ (State.deliver_keeps ..) ?_); on_goal 2 => decide)
    | ((with_reducible apply Keeps.step ?_ (State.srcEdge_keeps ..) ?_); on_goal 2 => decide)
    | with_reducible apply Keeps.ite

theorem State.clearPend_keeps (m : Master) (g : Grp) (w : W) (s : State) : Keeps [.eic] s (State.clearPend m g w s) := by
  unfold State.clearPend
  repeat' first
    | with_reducible exact Keeps.refl ..
    | extract_lets
    | ((with_reducible apply Keeps.step ?_ (State.eicCfgErr_keeps ..) ?_); on_goal 2 => decide)
    | ((with_reducible apply Keeps.step ?_ (State.deliver_keeps ..) ?_); on_goal 2 => decide)
    | with_reducible apply Keeps.ite
    | split
    | (dsimp +zetaDelta only; split)
    | ((with_reducible apply Keeps.upd ?_); any_goals first | exact Or.inl (by decide) | exact Or.inr (Eq.refl _) | exact Or.inr (Or.inl ⟨by decide, Eq.refl _⟩) | exact Or.inr (Or.inr (Or.inl ⟨by decide, Eq.refl _⟩)) | exact Or.inr (Or.inr (Or.inr (Eq.refl _))))

theorem State.ownErr_keeps (m : Master) (t : Tgt) (s : State) : Keeps [.eic] s (State.ownErr m t s) := by
  unfold State.ownErr
  repeat' first
    | with_reducible exact Keeps.refl ..
    | extract_lets
    | ((with_reducible apply Keeps.when ?_ _ _ ?_); on_goal 2 => intro _)
    | ((with_reducible apply Keeps.step ?_ (State.modTgt_keeps ..) ?_); on_goal 2 => decide)

theorem State.claimed_keeps (m : Master) (t : Tgt) (i : Src) (s : State) : Keeps [.master, .eic] s (State.claimed m t i s) := by
  unfold State.claimed
  repeat' first
    | with_reducible exact Keeps.refl ..
    | extract_lets
    | ((with_reducible apply Keeps.when ?_ _ _ ?_); on_goal 2 => intro _)
    | ((with_reducible apply Keeps.step ?_ (State.modTgt_keeps ..) ?_); on_goal 2 => decide)
    | ((with_reducible apply Keeps.step ?_ (State.modGrp_keeps ..) ?_); on_goal 2 => decide)
    | ((with_reducible apply Keeps.step ?_ (State.ret_keeps ..) ?_); on_goal 2 => decide)
    | with_reducible apply Keeps.ite
    | split
    | (dsimp +zetaDelta only; split)
    | ((with_reducible apply Keeps.upd ?_); any_goals first | exact Or.inl (by decide) | exact Or.inr (Eq.refl _) | exact Or.inr (Or.inl ⟨by decide, Eq.refl _⟩) | exact Or.inr (Or.inr (Or.inl ⟨by decide, Eq.refl _⟩)) | exact Or.inr (Or.inr (Or.inr (Eq.refl _))))

theorem claimAll_keeps (s0 : State) : ∀ (l : List (Master × Tgt)) (gone : List Src) (s : State), Keeps [.master, .eic] s (claimAll s0 l gone s)
  | [], _, s => Keeps.refl _ s
  | (m, t) :: r, gone, s => by
    have ih := claimAll_keeps s0 r
    unfold claimAll
    split
    · refine Keeps.trans ?_ (ih _ _)
      exact ((State.ret_keeps ..).mono (by decide)).step (State.ownErr_keeps ..) (by decide)
    · split
      · refine Keeps.trans ?_ (ih _ _)
        exact (State.claimed_keeps ..).mono (by decide)
      · refine Keeps.trans ?_ (ih _ _)
        exact ((State.ret_keeps ..).mono (by decide)).step (State.modTgt_keeps ..) (by decide)

theorem State.claim_keeps (reads : List (Master × Tgt)) (s : State) : Keeps [.master, .eic] s (State.claim reads s) := by
  unfold State.claim
  extract_lets t l
  exact (((State.deliver_keeps s).mono (by decide)).step (claimAll_keeps ..) (by decide)).step (State.deliver_keeps ..) (by decide)

theorem State.eoi_keeps (m : Master) (t : Tgt) (s : State) : Keeps [.eic] s (State.eoi m t s) := by
  unfold State.eoi
  repeat' first
    | with_reducible exact Keeps.refl ..
    | extract_lets
    | ((with_reducible apply Keeps.step ?_ (State.ownErr_keeps ..) ?_); on_goal 2 => decide)
    | ((with_reducible apply Keeps.step ?_ (State.modTgt_keeps ..) ?_); on_goal 2 => decide)
    | ((with_reducible apply Keeps.step ?_ (State.deliver_keeps ..) ?_); on_goal 2 => decide)
    | with_reducible apply Keeps.ite
    | split

theorem State.writeSrc_keeps (m : Master) (i : Src) (w : W) (s : State) : Keeps [.eic] s (State.writeSrc m i w s) := by
  unfold State.writeSrc
  repeat' first
    | with_reducible exact Keeps.refl ..
    | extract_lets
    | ((with_reducible apply Keeps.step ?_ (State.deliver_keeps ..) ?_); on_goal 2 => decide)
    | with_reducible apply Keeps.ite
    | split
    | (dsimp +zetaDelta only; split)
    | ((with_reducible apply Keeps.upd ?_); any_goals first | exact Or.inl (by decide) | exact Or.inr (Eq.refl _) | exact Or.inr (Or.inl ⟨by decide, Eq.refl _⟩) | exact Or.inr (Or.inr (Or.inl ⟨by decide, Eq.refl _⟩)) | exact Or.inr (Or.inr (Or.inr (Eq.refl _))))

theorem State.groupLock_keeps (m : Master) (g : Grp) (s : State) : Keeps [.eic, .mbx, .fw, .health, .sur, .free] s (State.groupLock m g s) := by
  unfold State.groupLock
  repeat' first
    | with_reducible exact Keeps.refl ..
    | extract_lets
    | ((with_reducible apply Keeps.step ?_ (State.modGrp_keeps ..) ?_); on_goal 2 => decide)
    | ((with_reducible apply Keeps.step ?_ (State.watchViol_keeps ..) ?_); on_goal 2 => decide)
    | with_reducible apply Keeps.ite
    | split

theorem State.writeGrp_keeps (m : Master) (g : Grp) (w : W) (s : State) : Keeps [.eic, .mbx, .fw, .health, .sur, .free] s (State.writeGrp m g w s) := by
  unfold State.writeGrp
  repeat' first
    | with_reducible exact Keeps.refl ..
    | extract_lets
    | ((with_reducible apply Keeps.when ?_ _ _ ?_); on_goal 2 => intro _)
    | ((with_reducible apply Keeps.step ?_ (State.eicCfgErr_keeps ..) ?_); on_goal 2 => decide)
    | ((with_reducible apply Keeps.step ?_ (State.groupLock_keeps ..) ?_); on_goal 2 => decide)
    | ((with_reducible apply Keeps.step ?_ (State.deliver_keeps ..) ?_); on_goal 2 => decide)
    | ((with_reducible apply Keeps.step ?_ (State.modGrp_keeps ..) ?_); on_goal 2 => decide)
    | with_reducible apply Keeps.ite

theorem State.writeTgt_keeps (m : Master) (t : Tgt) (ctl : Bool) (w : W) (s : State) : Keeps [.eic] s (State.writeTgt m t ctl w s) := by
  unfold State.writeTgt
  repeat' first
    | with_reducible exact Keeps.refl ..
    | extract_lets
    | ((with_reducible apply Keeps.step ?_ (State.ownErr_keeps ..) ?_); on_goal 2 => decide)
    | ((with_reducible apply Keeps.step ?_ (State.deliver_keeps ..) ?_); on_goal 2 => decide)
    | ((with_reducible apply Keeps.step ?_ (State.modTgt_keeps ..) ?_); on_goal 2 => decide)
    | with_reducible apply Keeps.ite

theorem State.msixUnmask_keeps (v : Fin 32) (s : State) : Keeps [.eic] s (State.msixUnmask v s) := by
  unfold State.msixUnmask
  repeat' first
    | with_reducible exact Keeps.refl ..
    | extract_lets
    | ((with_reducible apply Keeps.when ?_ _ _ ?_); on_goal 2 => intro _)
    | ((with_reducible apply Keeps.step ?_ (State.message_keeps ..) ?_); on_goal 2 => decide)
    | with_reducible apply Keeps.ite
    | split
    | (dsimp +zetaDelta only; split)
    | ((with_reducible apply Keeps.upd ?_); any_goals first | exact Or.inl (by decide) | exact Or.inr (Eq.refl _) | exact Or.inr (Or.inl ⟨by decide, Eq.refl _⟩) | exact Or.inr (Or.inr (Or.inl ⟨by decide, Eq.refl _⟩)) | exact Or.inr (Or.inr (Or.inr (Eq.refl _))))

theorem State.unarm_keeps (n : Ch) (s : State) : Keeps [.pod] s (State.unarm n s) := by
  unfold State.unarm
  repeat' first
    | with_reducible exact Keeps.refl ..
    | extract_lets
    | ((with_reducible refine Keeps.forAll _ ?_ _ ?_); on_goal 1 => intro _ _)
    | ((with_reducible apply Keeps.step ?_ (State.stageEv_keeps ..) ?_); on_goal 2 => decide)

theorem State.haltEmul_keeps (n : Ch) (s : State) : Keeps [.axis] s (State.haltEmul n s) := by
  unfold State.haltEmul
  repeat' first
    | with_reducible exact Keeps.refl ..
    | extract_lets
    | ((with_reducible refine Keeps.forAll _ ?_ _ ?_); on_goal 1 => intro _ _)
    | ((with_reducible apply Keeps.step ?_ (State.modAxis_keeps ..) ?_); on_goal 2 => decide)

theorem State.abortCh_keeps (safe : Nat) (cut : Bool) (n : Ch) (s : State) : Keeps [.ch, .axis, .pod, .mem, .store, .mbx, .health, .pcie, .sur, .free] s (State.abortCh safe cut n s) := by
  unfold State.abortCh
  repeat' first
    | with_reducible exact Keeps.refl ..
    | extract_lets
    | ((with_reducible apply Keeps.step ?_ (State.unarm_keeps ..) ?_); on_goal 2 => decide)
    | ((with_reducible apply Keeps.step ?_ (State.applyMatches_keeps ..) ?_); on_goal 2 => decide)
    | ((with_reducible apply Keeps.step ?_ (State.measStop_keeps ..) ?_); on_goal 2 => decide)
    | ((with_reducible apply Keeps.step ?_ (State.haltEmul_keeps ..) ?_); on_goal 2 => decide)
    | ((with_reducible apply Keeps.step ?_ (State.pipHalt_keeps ..) ?_); on_goal 2 => decide)
    | ((with_reducible apply Keeps.step ?_ (State.endShadow_keeps ..) ?_); on_goal 2 => decide)
    | ((with_reducible apply Keeps.step ?_ (State.modCh_keeps ..) ?_); on_goal 2 => decide)

theorem State.abortScope_keeps (scope : List Ch) (safe : Nat) (cut : Bool) (s : State) : Keeps [.guar, .ch, .axis, .pod, .mem, .store, .mbx, .abort, .health, .pcie, .sur, .free] s (State.abortScope scope safe cut s) := by
  unfold State.abortScope
  repeat' first
    | with_reducible exact Keeps.refl ..
    | extract_lets
    | ((with_reducible refine Keeps.forAll _ ?_ _ ?_); on_goal 1 => intro _ _)
    | ((with_reducible apply Keeps.step ?_ (State.abortCh_keeps ..) ?_); on_goal 2 => decide)
    | ((with_reducible apply Keeps.step ?_ (State.breach_keeps ..) ?_); on_goal 2 => decide)
    | with_reducible apply Keeps.ite
    | split
    | (dsimp +zetaDelta only; split)
    | ((with_reducible apply Keeps.upd ?_); any_goals first | exact Or.inl (by decide) | exact Or.inr (Eq.refl _) | exact Or.inr (Or.inl ⟨by decide, Eq.refl _⟩) | exact Or.inr (Or.inr (Or.inl ⟨by decide, Eq.refl _⟩)) | exact Or.inr (Or.inr (Or.inr (Eq.refl _))))

theorem State.purgeCh_keeps (n : Ch) (s : State) : Keeps [.cal, .pod] s (State.purgeCh n s).1 := by
  unfold State.purgeCh
  repeat' first
    | with_reducible exact Keeps.refl ..
    | extract_lets
    | ((with_reducible apply Keeps.step ?_ (State.modPod_keeps ..) ?_); on_goal 2 => decide)
    | ((with_reducible apply Keeps.step ?_ (State.freeSlots_keeps ..) ?_); on_goal 2 => decide)
    | with_reducible apply Keeps.ite
    | split
    | (dsimp +zetaDelta only; split)
    | ((with_reducible apply Keeps.upd ?_); any_goals first | exact Or.inl (by decide) | exact Or.inr (Eq.refl _) | exact Or.inr (Or.inl ⟨by decide, Eq.refl _⟩) | exact Or.inr (Or.inr (Or.inl ⟨by decide, Eq.refl _⟩)) | exact Or.inr (Or.inr (Or.inr (Eq.refl _))))

theorem State.purge_keeps (n : Ch) (s : State) : Keeps [.cal, .pod, .mbx, .abort, .free] s (State.purge n s) := by
  unfold State.purge
  repeat' first
    | with_reducible exact Keeps.refl ..
    | extract_lets
    | ((with_reducible apply Keeps.step ?_ (State.purgeCh_keeps ..) ?_); on_goal 2 => decide)
    | ((with_reducible apply Keeps.step ?_ (State.notice_keeps ..) ?_); on_goal 2 => decide)
    | with_reducible apply Keeps.ite
    | split
    | (dsimp +zetaDelta only; split)
    | ((with_reducible apply Keeps.upd ?_); any_goals first | exact Or.inl (by decide) | exact Or.inr (Eq.refl _) | exact Or.inr (Or.inl ⟨by decide, Eq.refl _⟩) | exact Or.inr (Or.inr (Or.inl ⟨by decide, Eq.refl _⟩)) | exact Or.inr (Or.inr (Or.inr (Eq.refl _))))

theorem State.abortErr_keeps (s : State) : Keeps [.abort] s (State.abortErr s) := by
  unfold State.abortErr
  repeat' first
    | with_reducible exact Keeps.refl ..
    | extract_lets
    | with_reducible apply Keeps.ite
    | split
    | (dsimp +zetaDelta only; split)
    | ((with_reducible apply Keeps.upd ?_); any_goals first | exact Or.inl (by decide) | exact Or.inr (Eq.refl _) | exact Or.inr (Or.inl ⟨by decide, Eq.refl _⟩) | exact Or.inr (Or.inr (Or.inl ⟨by decide, Eq.refl _⟩)) | exact Or.inr (Or.inr (Or.inr (Eq.refl _))))

theorem State.releaseAll_keeps (scope : BitVec 128) (s : State) : Keeps [.ch, .cal, .pod, .mbx, .abort, .free] s (State.releaseAll scope s) := by
  unfold State.releaseAll
  repeat' first
    | with_reducible exact Keeps.refl ..
    | extract_lets
    | ((with_reducible refine Keeps.forAll _ ?_ _ ?_); on_goal 1 => intro _ _)
    | ((with_reducible apply Keeps.step ?_ (State.missAborted_keeps ..) ?_); on_goal 2 => decide)
    | ((with_reducible apply Keeps.step ?_ (State.modCh_keeps ..) ?_); on_goal 2 => decide)
    | ((with_reducible apply Keeps.step ?_ (State.purge_keeps ..) ?_); on_goal 2 => decide)
    | ((with_reducible apply Keeps.step ?_ (State.keepHeads_keeps ..) ?_); on_goal 2 => decide)

theorem State.releaseScope_keeps (scope : BitVec 128) (s : State) : Keeps [.ch, .cal, .pod, .mbx, .abort, .free] s (State.releaseScope scope s) := by
  unfold State.releaseScope
  split
  · exact (State.abortErr_keeps s).mono (by decide)
  · exact State.releaseAll_keeps scope s

theorem State.releaseNow_keeps (scope : BitVec 128) (s : State) : Keeps [.ch, .cal, .pod, .mbx, .abort, .fw, .free] s (State.releaseNow scope s) := by
  unfold State.releaseNow
  repeat' first
    | with_reducible exact Keeps.refl ..
    | extract_lets
    | ((with_reducible apply Keeps.step ?_ (State.releaseScope_keeps ..) ?_); on_goal 2 => decide)
    | with_reducible apply Keeps.ite
    | split
    | (dsimp +zetaDelta only; split)
    | ((with_reducible apply Keeps.upd ?_); any_goals first | exact Or.inl (by decide) | exact Or.inr (Eq.refl _) | exact Or.inr (Or.inl ⟨by decide, Eq.refl _⟩) | exact Or.inr (Or.inr (Or.inl ⟨by decide, Eq.refl _⟩)) | exact Or.inr (Or.inr (Or.inr (Eq.refl _))))

theorem State.writeAbortCtrl_keeps (m : Master) (w : W) (s : State) : Keeps [.guar, .ch, .axis, .cal, .pod, .mem, .store, .eic, .mbx, .abort, .fw, .health, .pcie, .sur, .free] s (State.writeAbortCtrl m w s) := by
  unfold State.writeAbortCtrl
  repeat' first
    | with_reducible exact Keeps.refl ..
    | extract_lets
    | ((with_reducible apply Keeps.when ?_ _ _ ?_); on_goal 2 => intro _)
    | ((with_reducible apply Keeps.step ?_ (State.watchViol_keeps ..) ?_); on_goal 2 => decide)
    | ((with_reducible apply Keeps.step ?_ (State.abortErr_keeps ..) ?_); on_goal 2 => decide)
    | ((with_reducible apply Keeps.step ?_ (State.abortScope_keeps ..) ?_); on_goal 2 => decide)
    | ((with_reducible apply Keeps.step ?_ (State.releaseNow_keeps ..) ?_); on_goal 2 => decide)
    | with_reducible apply Keeps.ite
    | split
    | (dsimp +zetaDelta only; split)
    | ((with_reducible apply Keeps.upd ?_); any_goals first | exact Or.inl (by decide) | exact Or.inr (Eq.refl _) | exact Or.inr (Or.inl ⟨by decide, Eq.refl _⟩) | exact Or.inr (Or.inr (Or.inl ⟨by decide, Eq.refl _⟩)) | exact Or.inr (Or.inr (Or.inr (Eq.refl _))))

theorem State.abortDone_keeps (s : State) : Keeps [.ch, .cal, .pod, .mbx, .abort, .fw, .free] s (State.abortDone s) := by
  unfold State.abortDone
  repeat' first
    | with_reducible exact Keeps.refl ..
    | extract_lets
    | ((with_reducible refine Keeps.forAll _ ?_ _ ?_); on_goal 1 => intro _ _)
    | ((with_reducible apply Keeps.step ?_ (State.releaseNow_keeps ..) ?_); on_goal 2 => decide)
    | with_reducible apply Keeps.ite
    | split
    | (dsimp +zetaDelta only; split)
    | ((with_reducible apply Keeps.upd ?_); any_goals first | exact Or.inl (by decide) | exact Or.inr (Eq.refl _) | exact Or.inr (Or.inl ⟨by decide, Eq.refl _⟩) | exact Or.inr (Or.inr (Or.inl ⟨by decide, Eq.refl _⟩)) | exact Or.inr (Or.inr (Or.inr (Eq.refl _))))

theorem State.safeFall_keeps (s : State) : Keeps [.guar, .ch, .axis, .pod, .mem, .store, .mbx, .abort, .health, .pcie, .sur, .pwr, .free] s (State.safeFall s) := by
  unfold State.safeFall
  repeat' first
    | with_reducible exact Keeps.refl ..
    | extract_lets
    | ((with_reducible apply Keeps.step ?_ (State.wakeBy_keeps ..) ?_); on_goal 2 => decide)
    | ((with_reducible apply Keeps.step ?_ (State.abortScope_keeps ..) ?_); on_goal 2 => decide)
    | with_reducible apply Keeps.ite
    | split
    | (dsimp +zetaDelta only; split)
    | ((with_reducible apply Keeps.upd ?_); any_goals first | exact Or.inl (by decide) | exact Or.inr (Eq.refl _) | exact Or.inr (Or.inl ⟨by decide, Eq.refl _⟩) | exact Or.inr (Or.inr (Or.inl ⟨by decide, Eq.refl _⟩)) | exact Or.inr (Or.inr (Or.inr (Eq.refl _))))

theorem State.keeperBack_keeps (s : State) : Keeps [.ch, .cal, .pod, .mbx, .abort, .fw, .health, .free] s (State.keeperBack s) := by
  unfold State.keeperBack
  repeat' first
    | with_reducible exact Keeps.refl ..
    | extract_lets
    | ((with_reducible refine Keeps.forAll _ ?_ _ ?_); on_goal 1 => intro _ _)
    | ((with_reducible apply Keeps.step ?_ (State.releaseScope_keeps ..) ?_); on_goal 2 => decide)
    | with_reducible apply Keeps.ite
    | split
    | (dsimp +zetaDelta only; split)
    | ((with_reducible apply Keeps.upd ?_); any_goals first | exact Or.inl (by decide) | exact Or.inr (Eq.refl _) | exact Or.inr (Or.inl ⟨by decide, Eq.refl _⟩) | exact Or.inr (Or.inr (Or.inl ⟨by decide, Eq.refl _⟩)) | exact Or.inr (Or.inr (Or.inr (Eq.refl _))))

theorem State.freeze_keeps (n : Ch) (s : State) : Keeps [.guar, .ch, .pod, .mem, .store, .mbx, .health, .pcie, .sur, .free] s (State.freeze n s) := by
  unfold State.freeze
  repeat' first
    | with_reducible exact Keeps.refl ..
    | extract_lets
    | ((with_reducible apply Keeps.step ?_ (State.pipHalt_keeps ..) ?_); on_goal 2 => decide)
    | ((with_reducible apply Keeps.step ?_ (State.applyMatches_keeps ..) ?_); on_goal 2 => decide)
    | ((with_reducible apply Keeps.step ?_ (State.pipNow_keeps ..) ?_); on_goal 2 => decide)
    | ((with_reducible apply Keeps.step ?_ (State.modCh_keeps ..) ?_); on_goal 2 => decide)
    | ((with_reducible apply Keeps.step ?_ (State.measStop_keeps ..) ?_); on_goal 2 => decide)
    | ((with_reducible apply Keeps.step ?_ (State.modPod_keeps ..) ?_); on_goal 2 => decide)
    | ((with_reducible apply Keeps.step ?_ (State.breach_keeps ..) ?_); on_goal 2 => decide)
    | ((with_reducible apply Keeps.step ?_ (State.endShadow_keeps ..) ?_); on_goal 2 => decide)
    | with_reducible apply Keeps.ite

theorem State.adcRead_keeps (m : Master) (i : Slice) (s : State) : Keeps [.master, .adc] s (State.adcRead m i s) := by
  unfold State.adcRead
  repeat' first
    | with_reducible exact Keeps.refl ..
    | extract_lets
    | ((with_reducible apply Keeps.step ?_ (State.ret_keeps ..) ?_); on_goal 2 => decide)
    | ((with_reducible apply Keeps.step ?_ (State.modSlice_keeps ..) ?_); on_goal 2 => decide)

theorem State.stream_keeps (i : Slice) (s : State) : Keeps [.mem, .store, .mbx, .pcie, .adc] s (State.stream i s) := by
  unfold State.stream
  repeat' first
    | with_reducible exact Keeps.refl ..
    | extract_lets
    | ((with_reducible apply Keeps.step ?_ (State.ringWrite_keeps ..) ?_); on_goal 2 => decide)
    | ((with_reducible apply Keeps.step ?_ (State.noticeCode_keeps ..) ?_); on_goal 2 => decide)
    | with_reducible apply Keeps.ite
    | split
    | (dsimp +zetaDelta only; split)
    | ((with_reducible apply Keeps.upd ?_); any_goals first | exact Or.inl (by decide) | exact Or.inr (Eq.refl _) | exact Or.inr (Or.inl ⟨by decide, Eq.refl _⟩) | exact Or.inr (Or.inr (Or.inl ⟨by decide, Eq.refl _⟩)) | exact Or.inr (Or.inr (Or.inr (Eq.refl _))))

theorem State.deliverResult_keeps (i : Slice) (b : Nat) (raw : Int) (s : State) : Keeps [.mem, .store, .mbx, .pcie, .adc] s (State.deliverResult i b raw s) := by
  unfold State.deliverResult
  repeat' first
    | with_reducible exact Keeps.refl ..
    | extract_lets
    | ((with_reducible apply Keeps.step ?_ (State.modSlice_keeps ..) ?_); on_goal 2 => decide)
    | ((with_reducible apply Keeps.step ?_ (State.stream_keeps ..) ?_); on_goal 2 => decide)

theorem State.overlapAt_keeps (i : Slice) (b : Nat) (raw spareRaw : Int) (s : State) : Keeps [.adc] s (State.overlapAt i b raw spareRaw s) := by
  unfold State.overlapAt
  repeat' first
    | with_reducible exact Keeps.refl ..
    | extract_lets
    | with_reducible apply Keeps.ite
    | split
    | (dsimp +zetaDelta only; split)
    | ((with_reducible apply Keeps.upd ?_); any_goals first | exact Or.inl (by decide) | exact Or.inr (Eq.refl _) | exact Or.inr (Or.inl ⟨by decide, Eq.refl _⟩) | exact Or.inr (Or.inr (Or.inl ⟨by decide, Eq.refl _⟩)) | exact Or.inr (Or.inr (Or.inr (Eq.refl _))))

theorem State.selAt_keeps (i : Slice) (b : Nat) (s : State) : Keeps [.adc] s (State.selAt i b s) := by
  unfold State.selAt
  repeat' first
    | with_reducible exact Keeps.refl ..
    | extract_lets
    | ((with_reducible apply Keeps.step ?_ (State.modSlice_keeps ..) ?_); on_goal 2 => decide)
    | with_reducible apply Keeps.ite
    | split
    | (dsimp +zetaDelta only; split)
    | ((with_reducible apply Keeps.upd ?_); any_goals first | exact Or.inl (by decide) | exact Or.inr (Eq.refl _) | exact Or.inr (Or.inl ⟨by decide, Eq.refl _⟩) | exact Or.inr (Or.inr (Or.inl ⟨by decide, Eq.refl _⟩)) | exact Or.inr (Or.inr (Or.inr (Eq.refl _))))

theorem State.conversionEnd_keeps (i : Slice) (raw spareRaw : Int) (s : State) : Keeps [.mem, .store, .mbx, .pcie, .adc] s (State.conversionEnd i raw spareRaw s) := by
  unfold State.conversionEnd
  repeat' first
    | with_reducible exact Keeps.refl ..
    | extract_lets
    | ((with_reducible apply Keeps.step ?_ (State.modSlice_keeps ..) ?_); on_goal 2 => decide)
    | ((with_reducible apply Keeps.step ?_ (State.deliverResult_keeps ..) ?_); on_goal 2 => decide)
    | ((with_reducible apply Keeps.step ?_ (State.selAt_keeps ..) ?_); on_goal 2 => decide)
    | ((with_reducible apply Keeps.step ?_ (State.overlapAt_keeps ..) ?_); on_goal 2 => decide)
    | with_reducible apply Keeps.ite

theorem State.adcCfgErr_keeps (s : State) : Keeps [.adc] s (State.adcCfgErr s) := by
  unfold State.adcCfgErr
  repeat' first
    | with_reducible exact Keeps.refl ..
    | extract_lets
    | with_reducible apply Keeps.ite
    | split
    | (dsimp +zetaDelta only; split)
    | ((with_reducible apply Keeps.upd ?_); any_goals first | exact Or.inl (by decide) | exact Or.inr (Eq.refl _) | exact Or.inr (Or.inl ⟨by decide, Eq.refl _⟩) | exact Or.inr (Or.inr (Or.inl ⟨by decide, Eq.refl _⟩)) | exact Or.inr (Or.inr (Or.inr (Eq.refl _))))

theorem State.writeAdcSel_keeps (i : Slice) (w : W) (s : State) : Keeps [.adc] s (State.writeAdcSel i w s) := by
  unfold State.writeAdcSel
  repeat' first
    | with_reducible exact Keeps.refl ..
    | extract_lets
    | ((with_reducible apply Keeps.step ?_ (State.adcCfgErr_keeps ..) ?_); on_goal 2 => decide)
    | ((with_reducible apply Keeps.step ?_ (State.modSlice_keeps ..) ?_); on_goal 2 => decide)
    | with_reducible apply Keeps.ite

theorem State.dropOverlap_keeps (i : Slice) (s : State) : Keeps [.adc] s (State.dropOverlap i s) := by
  unfold State.dropOverlap
  repeat' first
    | with_reducible exact Keeps.refl ..
    | extract_lets
    | with_reducible apply Keeps.ite
    | split
    | (dsimp +zetaDelta only; split)
    | ((with_reducible apply Keeps.upd ?_); any_goals first | exact Or.inl (by decide) | exact Or.inr (Eq.refl _) | exact Or.inr (Or.inl ⟨by decide, Eq.refl _⟩) | exact Or.inr (Or.inr (Or.inl ⟨by decide, Eq.refl _⟩)) | exact Or.inr (Or.inr (Or.inr (Eq.refl _))))

theorem State.writeAdcCfg_keeps (i : Slice) (w : W) (s : State) : Keeps [.adc] s (State.writeAdcCfg i w s) := by
  unfold State.writeAdcCfg
  repeat' first
    | with_reducible exact Keeps.refl ..
    | extract_lets
    | ((with_reducible apply Keeps.when ?_ _ _ ?_); on_goal 2 => intro _)
    | ((with_reducible apply Keeps.step ?_ (State.adcCfgErr_keeps ..) ?_); on_goal 2 => decide)
    | ((with_reducible apply Keeps.step ?_ (State.modSlice_keeps ..) ?_); on_goal 2 => decide)
    | ((with_reducible apply Keeps.step ?_ (State.dropOverlap_keeps ..) ?_); on_goal 2 => decide)
    | with_reducible apply Keeps.ite

theorem State.writeBand_keeps (i : Slice) (high : Bool) (w : W) (s : State) : Keeps [.adc] s (State.writeBand i high w s) := by
  unfold State.writeBand
  repeat' first
    | with_reducible exact Keeps.refl ..
    | extract_lets
    | ((with_reducible apply Keeps.step ?_ (State.adcCfgErr_keeps ..) ?_); on_goal 2 => decide)
    | ((with_reducible apply Keeps.step ?_ (State.modSlice_keeps ..) ?_); on_goal 2 => decide)
    | with_reducible apply Keeps.ite

theorem State.writeAdcCtrl_keeps (w : W) (s : State) : Keeps [.adc] s (State.writeAdcCtrl w s) := by
  unfold State.writeAdcCtrl
  repeat' first
    | with_reducible exact Keeps.refl ..
    | extract_lets
    | with_reducible apply Keeps.ite
    | split
    | (dsimp +zetaDelta only; split)
    | ((with_reducible apply Keeps.upd ?_); any_goals first | exact Or.inl (by decide) | exact Or.inr (Eq.refl _) | exact Or.inr (Or.inl ⟨by decide, Eq.refl _⟩) | exact Or.inr (Or.inr (Or.inl ⟨by decide, Eq.refl _⟩)) | exact Or.inr (Or.inr (Or.inr (Eq.refl _))))

theorem State.rotationStart_keeps (s : State) : Keeps [.adc] s (State.rotationStart s) := by
  unfold State.rotationStart
  repeat' first
    | with_reducible exact Keeps.refl ..
    | extract_lets
    | with_reducible apply Keeps.ite
    | split
    | (dsimp +zetaDelta only; split)
    | ((with_reducible apply Keeps.upd ?_); any_goals first | exact Or.inl (by decide) | exact Or.inr (Eq.refl _) | exact Or.inr (Or.inl ⟨by decide, Eq.refl _⟩) | exact Or.inr (Or.inr (Or.inl ⟨by decide, Eq.refl _⟩)) | exact Or.inr (Or.inr (Or.inr (Eq.refl _))))

theorem State.calDone_keeps (z f : Int) (s : State) : Keeps [.adc] s (State.calDone z f s) := by
  unfold State.calDone
  repeat' first
    | with_reducible exact Keeps.refl ..
    | extract_lets
    | with_reducible apply Keeps.ite
    | split
    | (dsimp +zetaDelta only; split)
    | ((with_reducible apply Keeps.upd ?_); any_goals first | exact Or.inl (by decide) | exact Or.inr (Eq.refl _) | exact Or.inr (Or.inl ⟨by decide, Eq.refl _⟩) | exact Or.inr (Or.inr (Or.inl ⟨by decide, Eq.refl _⟩)) | exact Or.inr (Or.inr (Or.inr (Eq.refl _))))

theorem State.adcStream_keeps (b : CmdMbx) (body : List Byte) (s : State) : Keeps [.mbx, .adc] s (State.adcStream b body s) := by
  unfold State.adcStream
  repeat' first
    | with_reducible exact Keeps.refl ..
    | extract_lets
    | ((with_reducible apply Keeps.step ?_ (State.answer_keeps ..) ?_); on_goal 2 => decide)
    | with_reducible apply Keeps.ite
    | split
    | (dsimp +zetaDelta only; split)
    | ((with_reducible apply Keeps.upd ?_); any_goals first | exact Or.inl (by decide) | exact Or.inr (Eq.refl _) | exact Or.inr (Or.inl ⟨by decide, Eq.refl _⟩) | exact Or.inr (Or.inr (Or.inl ⟨by decide, Eq.refl _⟩)) | exact Or.inr (Or.inr (Or.inr (Eq.refl _))))

theorem State.writeStrRd_keeps (w : W) (s : State) : Keeps [.adc] s (State.writeStrRd w s) := by
  unfold State.writeStrRd
  repeat' first
    | with_reducible exact Keeps.refl ..
    | extract_lets
    | ((with_reducible apply Keeps.step ?_ (State.adcCfgErr_keeps ..) ?_); on_goal 2 => decide)
    | with_reducible apply Keeps.ite
    | split
    | (dsimp +zetaDelta only; split)
    | ((with_reducible apply Keeps.upd ?_); any_goals first | exact Or.inl (by decide) | exact Or.inr (Eq.refl _) | exact Or.inr (Or.inl ⟨by decide, Eq.refl _⟩) | exact Or.inr (Or.inr (Or.inl ⟨by decide, Eq.refl _⟩)) | exact Or.inr (Or.inr (Or.inr (Eq.refl _))))

theorem State.vioFault_keeps (p : Pod) (on : Bool) (s : State) : Keeps [.ch] s (State.vioFault p on s) := by
  unfold State.vioFault
  repeat' first
    | with_reducible exact Keeps.refl ..
    | extract_lets
    | ((with_reducible refine Keeps.forAll _ ?_ _ ?_); on_goal 1 => intro _ _)
    | ((with_reducible apply Keeps.step ?_ (State.modCh_keeps ..) ?_); on_goal 2 => decide)

theorem State.supplyFault_keeps (r : Rail) (s : State) : Keeps [.ch, .mbx, .sur, .pwr, .free] s (State.supplyFault r s) := by
  unfold State.supplyFault
  repeat' first
    | with_reducible exact Keeps.refl ..
    | extract_lets
    | ((with_reducible apply Keeps.step ?_ (State.vioFault_keeps ..) ?_); on_goal 2 => decide)
    | ((with_reducible apply Keeps.step ?_ (State.wakeIf_keeps ..) ?_); on_goal 2 => decide)
    | ((with_reducible apply Keeps.step ?_ (State.notice_keeps ..) ?_); on_goal 2 => decide)
    | with_reducible apply Keeps.ite
    | split
    | (dsimp +zetaDelta only; split)
    | ((with_reducible apply Keeps.upd ?_); any_goals first | exact Or.inl (by decide) | exact Or.inr (Eq.refl _) | exact Or.inr (Or.inl ⟨by decide, Eq.refl _⟩) | exact Or.inr (Or.inr (Or.inl ⟨by decide, Eq.refl _⟩)) | exact Or.inr (Or.inr (Or.inr (Eq.refl _))))

theorem State.supplyClear_keeps (r : Rail) (s : State) : Keeps [.ch, .sur] s (State.supplyClear r s) := by
  unfold State.supplyClear
  repeat' first
    | with_reducible exact Keeps.refl ..
    | extract_lets
    | ((with_reducible apply Keeps.step ?_ (State.vioFault_keeps ..) ?_); on_goal 2 => decide)
    | with_reducible apply Keeps.ite
    | split
    | (dsimp +zetaDelta only; split)
    | ((with_reducible apply Keeps.upd ?_); any_goals first | exact Or.inl (by decide) | exact Or.inr (Eq.refl _) | exact Or.inr (Or.inl ⟨by decide, Eq.refl _⟩) | exact Or.inr (Or.inr (Or.inl ⟨by decide, Eq.refl _⟩)) | exact Or.inr (Or.inr (Or.inr (Eq.refl _))))

theorem State.tempMeasure_keeps (t : Int) (s : State) : Keeps [.sur, .pwr] s (State.tempMeasure t s) := by
  unfold State.tempMeasure
  repeat' first
    | with_reducible exact Keeps.refl ..
    | extract_lets
    | ((with_reducible apply Keeps.step ?_ (State.wakeIf_keeps ..) ?_); on_goal 2 => decide)
    | with_reducible apply Keeps.ite
    | split
    | (dsimp +zetaDelta only; split)
    | ((with_reducible apply Keeps.upd ?_); any_goals first | exact Or.inl (by decide) | exact Or.inr (Eq.refl _) | exact Or.inr (Or.inl ⟨by decide, Eq.refl _⟩) | exact Or.inr (Or.inr (Or.inl ⟨by decide, Eq.refl _⟩)) | exact Or.inr (Or.inr (Or.inr (Eq.refl _))))

theorem State.measAsk_keeps (b : CmdMbx) (j : MeasJob) (s : State) : Keeps [.sur] s (State.measAsk b j s) := by
  unfold State.measAsk
  repeat' first
    | with_reducible exact Keeps.refl ..
    | extract_lets
    | with_reducible apply Keeps.ite
    | split
    | (dsimp +zetaDelta only; split)
    | ((with_reducible apply Keeps.upd ?_); any_goals first | exact Or.inl (by decide) | exact Or.inr (Eq.refl _) | exact Or.inr (Or.inl ⟨by decide, Eq.refl _⟩) | exact Or.inr (Or.inr (Or.inl ⟨by decide, Eq.refl _⟩)) | exact Or.inr (Or.inr (Or.inr (Eq.refl _))))

theorem State.measureCable_keeps (b : CmdMbx) (body : List Byte) (s : State) : Keeps [.mbx, .sur] s (State.measureCable b body s) := by
  unfold State.measureCable
  repeat' first
    | with_reducible exact Keeps.refl ..
    | extract_lets
    | ((with_reducible apply Keeps.step ?_ (State.answer_keeps ..) ?_); on_goal 2 => decide)
    | ((with_reducible apply Keeps.step ?_ (State.measAsk_keeps ..) ?_); on_goal 2 => decide)
    | with_reducible apply Keeps.ite
    | split

theorem State.measureLoad_keeps (b : CmdMbx) (body : List Byte) (s : State) : Keeps [.mbx, .sur] s (State.measureLoad b body s) := by
  unfold State.measureLoad
  repeat' first
    | with_reducible exact Keeps.refl ..
    | extract_lets
    | ((with_reducible apply Keeps.step ?_ (State.measAsk_keeps ..) ?_); on_goal 2 => decide)
    | ((with_reducible apply Keeps.step ?_ (State.answer_keeps ..) ?_); on_goal 2 => decide)
    | with_reducible apply Keeps.ite
    | split

theorem State.measBegin_keeps (s : State) : Keeps [.pod, .mem, .store, .mbx, .pcie, .sur, .free] s (State.measBegin s) := by
  unfold State.measBegin
  repeat' first
    | with_reducible exact Keeps.refl ..
    | extract_lets
    | ((with_reducible apply Keeps.step ?_ (State.measAnswer_keeps ..) ?_); on_goal 2 => decide)
    | ((with_reducible apply Keeps.step ?_ (State.measKeep_keeps ..) ?_); on_goal 2 => decide)
    | ((with_reducible apply Keeps.step ?_ (State.measFail_keeps ..) ?_); on_goal 2 => decide)
    | ((with_reducible apply Keeps.step ?_ (State.used_keeps ..) ?_); on_goal 2 => decide)
    | with_reducible apply Keeps.ite
    | split
    | (dsimp +zetaDelta only; split)
    | ((with_reducible apply Keeps.upd ?_); any_goals first | exact Or.inl (by decide) | exact Or.inr (Eq.refl _) | exact Or.inr (Or.inl ⟨by decide, Eq.refl _⟩) | exact Or.inr (Or.inr (Or.inl ⟨by decide, Eq.refl _⟩)) | exact Or.inr (Or.inr (Or.inr (Eq.refl _))))

theorem State.measStart_keeps (s : State) : Keeps [.pod, .mem, .store, .mbx, .pcie, .sur, .free] s (State.measStart s) := by
  unfold State.measStart
  repeat' first
    | with_reducible exact Keeps.refl ..
    | extract_lets
    | ((with_reducible apply Keeps.step ?_ (State.measBegin_keeps ..) ?_); on_goal 2 => decide)
    | with_reducible apply Keeps.ite
    | split
    | (dsimp +zetaDelta only; split)
    | ((with_reducible apply Keeps.upd ?_); any_goals first | exact Or.inl (by decide) | exact Or.inr (Eq.refl _) | exact Or.inr (Or.inl ⟨by decide, Eq.refl _⟩) | exact Or.inr (Or.inr (Or.inl ⟨by decide, Eq.refl _⟩)) | exact Or.inr (Or.inr (Or.inr (Eq.refl _))))

theorem State.cableDone_keeps (j : MeasJob) (shots : List (Option Nat)) (s : State) : Keeps [.pod, .mem, .store, .mbx, .pcie, .sur, .free] s (State.cableDone j shots s) := by
  unfold State.cableDone
  repeat' first
    | with_reducible exact Keeps.refl ..
    | extract_lets
    | ((with_reducible apply Keeps.step ?_ (State.measEnd_keeps ..) ?_); on_goal 2 => decide)

theorem State.loadEnd_keeps (cls cap : Nat) (s : State) : Keeps [.pod, .mem, .store, .mbx, .pcie, .sur, .free] s (State.loadEnd cls cap s) := by
  unfold State.loadEnd
  repeat' first
    | with_reducible exact Keeps.refl ..
    | extract_lets
    | ((with_reducible apply Keeps.step ?_ (State.measEnd_keeps ..) ?_); on_goal 2 => decide)

theorem State.loadDone_keeps (j : MeasJob) (hi lo up down : Bool) (rise : Option Nat) (s : State) : Keeps [.pod, .mem, .store, .mbx, .pcie, .sur, .free] s (State.loadDone j hi lo up down rise s) := by
  unfold State.loadDone
  repeat' first
    | with_reducible exact Keeps.refl ..
    | extract_lets
    | ((with_reducible apply Keeps.step ?_ (State.loadEnd_keeps ..) ?_); on_goal 2 => decide)
    | ((with_reducible apply Keeps.step ?_ (State.used_keeps ..) ?_); on_goal 2 => decide)
    | ((with_reducible apply Keeps.step ?_ (State.measFail_keeps ..) ?_); on_goal 2 => decide)
    | with_reducible apply Keeps.ite
    | split

theorem State.measDone_keeps (r : MeasRaw) (s : State) : Keeps [.pod, .mem, .store, .mbx, .pcie, .sur, .free] s (State.measDone r s) := by
  unfold State.measDone
  repeat' first
    | with_reducible exact Keeps.refl ..
    | extract_lets
    | ((with_reducible apply Keeps.step ?_ (State.cableDone_keeps ..) ?_); on_goal 2 => decide)
    | ((with_reducible apply Keeps.step ?_ (State.loadDone_keeps ..) ?_); on_goal 2 => decide)
    | ((with_reducible apply Keeps.step ?_ (State.measFail_keeps ..) ?_); on_goal 2 => decide)
    | with_reducible apply Keeps.ite
    | split

theorem State.partnerRead_keeps (b : CmdMbx) (bytes : List Byte) (body : List Byte) (s : State) : Keeps [.mbx] s (State.partnerRead b bytes body s) := by
  unfold State.partnerRead
  repeat' first
    | with_reducible exact Keeps.refl ..
    | extract_lets
    | ((with_reducible apply Keeps.step ?_ (State.answer_keeps ..) ?_); on_goal 2 => decide)
    | with_reducible apply Keeps.ite

theorem State.adaptSet_keeps (b : CmdMbx) (body : List Byte) (s : State) : Keeps [.mbx, .sur] s (State.adaptSet b body s) := by
  unfold State.adaptSet
  repeat' first
    | with_reducible exact Keeps.refl ..
    | extract_lets
    | ((with_reducible apply Keeps.step ?_ (State.answer_keeps ..) ?_); on_goal 2 => decide)
    | with_reducible apply Keeps.ite
    | split
    | (dsimp +zetaDelta only; split)
    | ((with_reducible apply Keeps.upd ?_); any_goals first | exact Or.inl (by decide) | exact Or.inr (Eq.refl _) | exact Or.inr (Or.inl ⟨by decide, Eq.refl _⟩) | exact Or.inr (Or.inr (Or.inl ⟨by decide, Eq.refl _⟩)) | exact Or.inr (Or.inr (Or.inr (Eq.refl _))))

theorem State.adaptLock_keeps (b : CmdMbx) (body : List Byte) (s : State) : Keeps [.mbx, .sur] s (State.adaptLock b body s) := by
  unfold State.adaptLock
  repeat' first
    | with_reducible exact Keeps.refl ..
    | extract_lets
    | ((with_reducible apply Keeps.step ?_ (State.answer_keeps ..) ?_); on_goal 2 => decide)
    | with_reducible apply Keeps.ite
    | split
    | (dsimp +zetaDelta only; split)
    | ((with_reducible apply Keeps.upd ?_); any_goals first | exact Or.inl (by decide) | exact Or.inr (Eq.refl _) | exact Or.inr (Or.inl ⟨by decide, Eq.refl _⟩) | exact Or.inr (Or.inr (Or.inl ⟨by decide, Eq.refl _⟩)) | exact Or.inr (Or.inr (Or.inr (Eq.refl _))))

theorem State.declare_keeps (i : Fin 5) (n : Ch) (v : Nat) (clamped : Bool) (s : State) : Keeps [.ch, .pod, .mbx, .sur, .free] s (State.declare i n v clamped s) := by
  unfold State.declare
  repeat' first
    | with_reducible exact Keeps.refl ..
    | extract_lets
    | ((with_reducible apply Keeps.when ?_ _ _ ?_); on_goal 2 => intro _)
    | ((with_reducible apply Keeps.step ?_ (State.modPod_keeps ..) ?_); on_goal 2 => decide)
    | ((with_reducible apply Keeps.step ?_ (State.modCh_keeps ..) ?_); on_goal 2 => decide)
    | ((with_reducible apply Keeps.step ?_ (State.notice_keeps ..) ?_); on_goal 2 => decide)
    | with_reducible apply Keeps.ite
    | split
    | (dsimp +zetaDelta only; split)
    | ((with_reducible apply Keeps.upd ?_); any_goals first | exact Or.inl (by decide) | exact Or.inr (Eq.refl _) | exact Or.inr (Or.inl ⟨by decide, Eq.refl _⟩) | exact Or.inr (Or.inr (Or.inl ⟨by decide, Eq.refl _⟩)) | exact Or.inr (Or.inr (Or.inr (Eq.refl _))))

theorem State.adapt_keeps (i : Fin 5) (n : Ch) (meas : Nat) (s : State) : Keeps [.ch, .pod, .mbx, .sur, .free] s (State.adapt i n meas s) := by
  unfold State.adapt
  repeat' first
    | with_reducible exact Keeps.refl ..
    | extract_lets
    | ((with_reducible apply Keeps.step ?_ (State.advNow_keeps ..) ?_); on_goal 2 => decide)
    | ((with_reducible apply Keeps.step ?_ (State.declare_keeps ..) ?_); on_goal 2 => decide)
    | with_reducible apply Keeps.ite
    | split
    | (dsimp +zetaDelta only; split)
    | ((with_reducible apply Keeps.upd ?_); any_goals first | exact Or.inl (by decide) | exact Or.inr (Eq.refl _) | exact Or.inr (Or.inl ⟨by decide, Eq.refl _⟩) | exact Or.inr (Or.inr (Or.inl ⟨by decide, Eq.refl _⟩)) | exact Or.inr (Or.inr (Or.inr (Eq.refl _))))

theorem State.adaptRetry_keeps (i : Fin 5) (n : Ch) (s : State) : Keeps [.ch, .pod, .mbx, .sur, .free] s (State.adaptRetry i n s) := by
  unfold State.adaptRetry
  repeat' first
    | with_reducible exact Keeps.refl ..
    | extract_lets
    | ((with_reducible apply Keeps.step ?_ (State.adapt_keeps ..) ?_); on_goal 2 => decide)
    | with_reducible apply Keeps.ite
    | split
    | (dsimp +zetaDelta only; split)
    | ((with_reducible apply Keeps.upd ?_); any_goals first | exact Or.inl (by decide) | exact Or.inr (Eq.refl _) | exact Or.inr (Or.inl ⟨by decide, Eq.refl _⟩) | exact Or.inr (Or.inr (Or.inl ⟨by decide, Eq.refl _⟩)) | exact Or.inr (Or.inr (Or.inr (Eq.refl _))))

theorem State.adaptApply_keeps (i : Nat) (n : Ch) (d : Decl) (s : State) : Keeps [.ch, .axis, .adc, .pwr] s (State.adaptApply i n d s) := by
  unfold State.adaptApply
  repeat' first
    | with_reducible exact Keeps.refl ..
    | extract_lets
    | ((with_reducible apply Keeps.step ?_ (State.modCh_keeps ..) ?_); on_goal 2 => decide)
    | ((with_reducible apply Keeps.step ?_ (State.modAxis_keeps ..) ?_); on_goal 2 => decide)
    | with_reducible apply Keeps.ite
    | split
    | (dsimp +zetaDelta only; split)
    | ((with_reducible apply Keeps.upd ?_); any_goals first | exact Or.inl (by decide) | exact Or.inr (Eq.refl _) | exact Or.inr (Or.inl ⟨by decide, Eq.refl _⟩) | exact Or.inr (Or.inr (Or.inl ⟨by decide, Eq.refl _⟩)) | exact Or.inr (Or.inr (Or.inr (Eq.refl _))))

theorem State.adaptEpoch_keeps (i : Fin 5) (n : Ch) (s : State) : Keeps [.ch, .axis, .pod, .mem, .store, .pcie, .adc, .sur, .pwr] s (State.adaptEpoch i n s) := by
  unfold State.adaptEpoch
  repeat' first
    | with_reducible exact Keeps.refl ..
    | extract_lets
    | ((with_reducible apply Keeps.step ?_ (State.resWrite_keeps ..) ?_); on_goal 2 => decide)
    | ((with_reducible apply Keeps.step ?_ (State.adaptApply_keeps ..) ?_); on_goal 2 => decide)
    | with_reducible apply Keeps.ite
    | split
    | (dsimp +zetaDelta only; split)
    | ((with_reducible apply Keeps.upd ?_); any_goals first | exact Or.inl (by decide) | exact Or.inr (Eq.refl _) | exact Or.inr (Or.inl ⟨by decide, Eq.refl _⟩) | exact Or.inr (Or.inr (Or.inl ⟨by decide, Eq.refl _⟩)) | exact Or.inr (Or.inr (Or.inr (Eq.refl _))))

end Sys2Proof.Machine
end

