-- ==== Sys2Proof/Laws/FrameHost.lean ====
section
/-!
SUPPORT. What each operation of the mailboxes, the link, power and start-up leaves alone (`Keeps`).
-/
namespace Sys2Proof.Machine
-- One script is tried on every goal of this file, so on some goals a part of it has nothing to do.
set_option linter.unusedTactic false
set_option linter.unreachableTactic false

theorem State.lockRead_keeps (b : Mbx) (readers : List Master) (s : State) : Keeps [.master, .mbx] s (State.lockRead b readers s) := by
  unfold State.lockRead
  repeat' first
    | with_reducible exact Keeps.refl ..
    | extract_lets
    | ((with_reducible refine Keeps.forAll _ ?_ _ ?_); on_goal 1 => intro _ _)
    | ((with_reducible apply Keeps.step ?_ (State.modMbx_keeps ..) ?_); on_goal 2 => decide)
    | ((with_reducible apply Keeps.step ?_ (State.ret_keeps ..) ?_); on_goal 2 => decide)

theorem State.lockWrite_keeps (m : Master) (b : Mbx) (s : State) : Keeps [.mbx] s (State.lockWrite m b s) := by
  unfold State.lockWrite
  repeat' first
    | with_reducible exact Keeps.refl ..
    | extract_lets
    | ((with_reducible apply Keeps.step ?_ (State.modMbx_keeps ..) ?_); on_goal 2 => decide)

theorem State.postWrite_keeps (m : Master) (b : Mbx) (hi : Bool) (w : W) (s : State) : Keeps [.mbx] s (State.postWrite m b hi w s) := by
  unfold State.postWrite
  repeat' first
    | with_reducible exact Keeps.refl ..
    | extract_lets
    | ((with_reducible apply Keeps.step ?_ (State.modMbx_keeps ..) ?_); on_goal 2 => decide)

theorem State.doorbell_keeps (m : Master) (b : CmdMbx) (w : W) (s : State) : Keeps [.mbx, .fw] s (State.doorbell m b w s) := by
  unfold State.doorbell
  repeat' first
    | with_reducible exact Keeps.refl ..
    | extract_lets
    | ((with_reducible apply Keeps.step ?_ (State.modMbx_keeps ..) ?_); on_goal 2 => decide)
    | with_reducible apply Keeps.ite
    | split
    | (dsimp +zetaDelta only; split)
    | ((with_reducible apply Keeps.upd ?_); any_goals first | exact Or.inl (by decide) | exact Or.inr (Eq.refl _) | exact Or.inr (Or.inl ⟨by decide, Eq.refl _⟩) | exact Or.inr (Or.inr (Or.inl ⟨by decide, Eq.refl _⟩)) | exact Or.inr (Or.inr (Or.inr (Eq.refl _))))

theorem State.judge_keeps (b : CmdMbx) (h body : List Byte) (room : Nat) (s : State) : Keeps [.mbx] s (State.judge b h body room s) := by
  unfold State.judge
  repeat' first
    | with_reducible exact Keeps.refl ..
    | extract_lets
    | ((with_reducible apply Keeps.step ?_ (State.modMbx_keeps ..) ?_); on_goal 2 => decide)

theorem State.commandStart_keeps (b : CmdMbx) (s : State) : Keeps [.store, .mbx, .health, .free] s (State.commandStart b s) := by
  unfold State.commandStart
  repeat' first
    | with_reducible exact Keeps.refl ..
    | extract_lets
    | ((with_reducible refine Keeps.forAll _ ?_ _ ?_); on_goal 1 => intro _ _)
    | ((with_reducible apply Keeps.step ?_ (State.modMbx_keeps ..) ?_); on_goal 2 => decide)
    | ((with_reducible apply Keeps.step ?_ (State.autoWake_keeps ..) ?_); on_goal 2 => decide)
    | ((with_reducible apply Keeps.step ?_ (State.winRead_keeps ..) ?_); on_goal 2 => decide)
    | ((with_reducible apply Keeps.step ?_ (State.judge_keeps ..) ?_); on_goal 2 => decide)
    | with_reducible apply Keeps.ite

theorem State.replyWrite_keeps (b : CmdMbx) (cells : List (Nat × Byte)) (s : State) : Keeps [.mem, .store, .mbx, .health, .pcie, .free] s (State.replyWrite b cells s) := by
  unfold State.replyWrite
  repeat' first
    | with_reducible exact Keeps.refl ..
    | extract_lets
    | ((with_reducible apply Keeps.step ?_ (State.winWrite_keeps ..) ?_); on_goal 2 => decide)
    | ((with_reducible apply Keeps.step ?_ (State.modMbx_keeps ..) ?_); on_goal 2 => decide)
    | with_reducible apply Keeps.ite
    | split
    | (dsimp +zetaDelta only; split)
    | ((with_reducible apply Keeps.upd ?_); any_goals first | exact Or.inl (by decide) | exact Or.inr (Eq.refl _) | exact Or.inr (Or.inl ⟨by decide, Eq.refl _⟩) | exact Or.inr (Or.inr (Or.inl ⟨by decide, Eq.refl _⟩)) | exact Or.inr (Or.inr (Or.inr (Eq.refl _))))

theorem State.completeNow_keeps (b : CmdMbx) (s : State) : Keeps [.mem, .store, .mbx, .health, .pcie, .free] s (State.completeNow b s) := by
  unfold State.completeNow
  repeat' first
    | with_reducible exact Keeps.refl ..
    | extract_lets
    | ((with_reducible apply Keeps.when ?_ _ _ ?_); on_goal 2 => intro _)
    | ((with_reducible apply Keeps.step ?_ (State.replyWrite_keeps ..) ?_); on_goal 2 => decide)
    | ((with_reducible apply Keeps.step ?_ (State.modMbx_keeps ..) ?_); on_goal 2 => decide)
    | with_reducible apply Keeps.ite
    | split

theorem State.commandComplete_keeps (b : CmdMbx) (s : State) : Keeps [.mem, .store, .mbx, .health, .pcie, .free] s (State.commandComplete b s) := by
  unfold State.commandComplete
  extract_lets closed
  split
  · exact Keeps.refl ..
  · split
    · exact State.completeNow_keeps b s
    · exact Keeps.forAll _ (fun g v => (State.autoWake_keeps ..).mono (by decide)) _ (Keeps.refl _ s)

theorem State.noticeOut_keeps (i : Fin 8) (n : Notice) (rest : List Notice) (s : State) : Keeps [.mem, .store, .mbx, .free] s (State.noticeOut i n rest s) := by
  unfold State.noticeOut
  repeat' first
    | with_reducible exact Keeps.refl ..
    | extract_lets
    | ((with_reducible apply Keeps.step ?_ (State.used_keeps ..) ?_); on_goal 2 => decide)
    | ((with_reducible apply Keeps.step ?_ (State.modMbx_keeps ..) ?_); on_goal 2 => decide)
    | with_reducible apply Keeps.ite
    | split
    | (dsimp +zetaDelta only; split)
    | ((with_reducible apply Keeps.upd ?_); any_goals first | exact Or.inl (by decide) | exact Or.inr (Eq.refl _) | exact Or.inr (Or.inl ⟨by decide, Eq.refl _⟩) | exact Or.inr (Or.inr (Or.inl ⟨by decide, Eq.refl _⟩)) | exact Or.inr (Or.inr (Or.inr (Eq.refl _))))

theorem State.noticePost_keeps (i : Fin 8) (s : State) : Keeps [.mem, .store, .mbx, .free] s (State.noticePost i s) := by
  unfold State.noticePost
  extract_lets x
  split
  · exact Keeps.refl ..
  · split
    · exact Keeps.refl ..
    · split
      · exact State.noticeOut_keeps ..
      · exact (State.autoWake_keeps ..).mono (by decide)

theorem State.noticeAck_keeps (i : Fin 8) (w : W) (s : State) : Keeps [.mbx] s (State.noticeAck i w s) := by
  unfold State.noticeAck
  repeat' first
    | with_reducible exact Keeps.refl ..
    | extract_lets
    | ((with_reducible apply Keeps.step ?_ (State.modMbx_keeps ..) ?_); on_goal 2 => decide)
    | with_reducible apply Keeps.ite

theorem State.cutDma_keeps (b : CmdMbx) (s : State) : Keeps [.mbx] s (State.cutDma b s) := by
  unfold State.cutDma
  repeat' first
    | with_reducible exact Keeps.refl ..
    | extract_lets
    | ((with_reducible apply Keeps.step ?_ (State.modMbx_keeps ..) ?_); on_goal 2 => decide)
    | ((with_reducible apply Keeps.step ?_ (State.calFinish_keeps ..) ?_); on_goal 2 => decide)
    | with_reducible apply Keeps.ite
    | split

theorem State.pcieReset_keeps (down : Bool) (s : State) : Keeps [.store, .eic, .mbx, .pcie, .pwr] s (State.pcieReset down s) := by
  unfold State.pcieReset
  repeat' first
    | with_reducible exact Keeps.refl ..
    | extract_lets
    | ((with_reducible refine Keeps.forAll _ ?_ _ ?_); on_goal 1 => intro _ _)
    | ((with_reducible apply Keeps.step ?_ (State.modTgt_keeps ..) ?_); on_goal 2 => decide)
    | ((with_reducible apply Keeps.step ?_ (State.deliver_keeps ..) ?_); on_goal 2 => decide)
    | ((with_reducible apply Keeps.step ?_ (State.cutDma_keeps ..) ?_); on_goal 2 => decide)
    | with_reducible apply Keeps.ite
    | split
    | (dsimp +zetaDelta only; split)
    | ((with_reducible apply Keeps.upd ?_); any_goals first | exact Or.inl (by decide) | exact Or.inr (Eq.refl _) | exact Or.inr (Or.inl ⟨by decide, Eq.refl _⟩) | exact Or.inr (Or.inr (Or.inl ⟨by decide, Eq.refl _⟩)) | exact Or.inr (Or.inr (Or.inr (Eq.refl _))))

theorem State.perstPin_keeps (low : Bool) (s : State) : Keeps [.store, .eic, .mbx, .pcie, .pwr] s (State.perstPin low s) := by
  unfold State.perstPin
  split
  · apply Keeps.upd ((State.pcieReset_keeps ..).mono (by decide)) <;> first | exact Or.inl (by decide) | exact Or.inr (Eq.refl _) | exact Or.inr (Or.inl ⟨by decide, Eq.refl _⟩) | exact Or.inr (Or.inr (Or.inl ⟨by decide, Eq.refl _⟩)) | exact Or.inr (Or.inr (Or.inr (Eq.refl _)))
  · split
    · apply Keeps.upd (Keeps.refl _ s) <;> first | exact Or.inl (by decide) | exact Or.inr (Eq.refl _) | exact Or.inr (Or.inl ⟨by decide, Eq.refl _⟩) | exact Or.inr (Or.inr (Or.inl ⟨by decide, Eq.refl _⟩)) | exact Or.inr (Or.inr (Or.inr (Eq.refl _)))
    · exact Keeps.refl _ s

theorem State.config_keeps (r : CfgReq) (s : State) : Keeps [.master, .eic, .pcie] s (State.config r s) := by
  unfold State.config
  repeat' first
    | with_reducible exact Keeps.refl ..
    | extract_lets
    | ((with_reducible apply Keeps.step ?_ (State.ret_keeps ..) ?_); on_goal 2 => decide)
    | ((with_reducible apply Keeps.step ?_ (State.deliver_keeps ..) ?_); on_goal 2 => decide)
    | with_reducible apply Keeps.ite
    | split
    | (dsimp +zetaDelta only; split)
    | ((with_reducible apply Keeps.upd ?_); any_goals first | exact Or.inl (by decide) | exact Or.inr (Eq.refl _) | exact Or.inr (Or.inl ⟨by decide, Eq.refl _⟩) | exact Or.inr (Or.inr (Or.inl ⟨by decide, Eq.refl _⟩)) | exact Or.inr (Or.inr (Or.inr (Eq.refl _))))

theorem State.configRequest_keeps (r : CfgReq) (s : State) : Keeps [.master, .eic, .pcie, .pwr] s (State.configRequest r s) := by
  unfold State.configRequest
  repeat' first
    | with_reducible exact Keeps.refl ..
    | extract_lets
    | ((with_reducible apply Keeps.step ?_ (State.wakeIf_keeps ..) ?_); on_goal 2 => decide)
    | ((with_reducible apply Keeps.step ?_ (State.config_keeps ..) ?_); on_goal 2 => decide)
    | with_reducible apply Keeps.ite
    | split
    | (dsimp +zetaDelta only; split)
    | ((with_reducible apply Keeps.upd ?_); any_goals first | exact Or.inl (by decide) | exact Or.inr (Eq.refl _) | exact Or.inr (Or.inl ⟨by decide, Eq.refl _⟩) | exact Or.inr (Or.inr (Or.inl ⟨by decide, Eq.refl _⟩)) | exact Or.inr (Or.inr (Or.inr (Eq.refl _))))

theorem State.dmaRecs_keeps (b : CmdMbx) (data : List Byte) (s : State) : Keeps [.mbx] s (State.dmaRecs b data s) := by
  unfold State.dmaRecs
  repeat' first
    | with_reducible exact Keeps.refl ..
    | extract_lets
    | ((with_reducible apply Keeps.step ?_ (State.modMbx_keeps ..) ?_); on_goal 2 => decide)

theorem State.dmaBlock_keeps (b : CmdMbx) (data : List Byte) (s : State) : Keeps [.mbx] s (State.dmaBlock b data s) := by
  unfold State.dmaBlock
  repeat' first
    | with_reducible exact Keeps.refl ..
    | extract_lets
    | ((with_reducible apply Keeps.step ?_ (State.judge_keeps ..) ?_); on_goal 2 => decide)
    | ((with_reducible apply Keeps.step ?_ (State.modMbx_keeps ..) ?_); on_goal 2 => decide)
    | with_reducible apply Keeps.ite
    | split

theorem State.dmaData_keeps (c : Fin 4) (data : List Byte) (s : State) : Keeps [.mbx] s (State.dmaData c data s) := by
  unfold State.dmaData
  split
  · exact Keeps.refl _ s
  · split
    · cases dmaOwner fetchesRecs s with
      | none => exact Keeps.refl _ s
      | some b => exact (State.dmaRecs_keeps ..).mono (by decide)
    · cases dmaOwner fetchesBlock s with
      | none => exact Keeps.refl _ s
      | some b => exact (State.dmaBlock_keeps ..).mono (by decide)
    · exact Keeps.refl _ s

theorem State.dmaFail_keeps (c : Fin 4) (s : State) : Keeps [.mbx, .pcie] s (State.dmaFail c s) := by
  unfold State.dmaFail
  repeat' first
    | with_reducible exact Keeps.refl ..
    | extract_lets
    | ((with_reducible apply Keeps.step ?_ (State.cutDma_keeps ..) ?_); on_goal 2 => decide)
    | with_reducible apply Keeps.ite
    | split
    | (dsimp +zetaDelta only; split)
    | ((with_reducible apply Keeps.upd ?_); any_goals first | exact Or.inl (by decide) | exact Or.inr (Eq.refl _) | exact Or.inr (Or.inl ⟨by decide, Eq.refl _⟩) | exact Or.inr (Or.inr (Or.inl ⟨by decide, Eq.refl _⟩)) | exact Or.inr (Or.inr (Or.inr (Eq.refl _))))

theorem State.qspiOut_keeps (bs : List Byte) (s : State) : Keeps [.pcie] s (State.qspiOut bs s) := by
  unfold State.qspiOut
  repeat' first
    | with_reducible exact Keeps.refl ..
    | extract_lets
    | with_reducible apply Keeps.ite
    | split
    | (dsimp +zetaDelta only; split)
    | ((with_reducible apply Keeps.upd ?_); any_goals first | exact Or.inl (by decide) | exact Or.inr (Eq.refl _) | exact Or.inr (Or.inl ⟨by decide, Eq.refl _⟩) | exact Or.inr (Or.inr (Or.inl ⟨by decide, Eq.refl _⟩)) | exact Or.inr (Or.inr (Or.inr (Eq.refl _))))

theorem State.qspiBad_keeps (op : Byte) (s : State) : Keeps [.pcie, .pwr] s (State.qspiBad op s) := by
  unfold State.qspiBad
  repeat' first
    | with_reducible exact Keeps.refl ..
    | extract_lets
    | ((with_reducible apply Keeps.step ?_ (State.wakeIf_keeps ..) ?_); on_goal 2 => decide)
    | with_reducible apply Keeps.ite
    | split
    | (dsimp +zetaDelta only; split)
    | ((with_reducible apply Keeps.upd ?_); any_goals first | exact Or.inl (by decide) | exact Or.inr (Eq.refl _) | exact Or.inr (Or.inl ⟨by decide, Eq.refl _⟩) | exact Or.inr (Or.inr (Or.inl ⟨by decide, Eq.refl _⟩)) | exact Or.inr (Or.inr (Or.inr (Eq.refl _))))

theorem State.sleep_keeps (b : CmdMbx) (body : List Byte) (s : State) : Keeps [.mbx, .pwr, .free] s (State.sleep b body s) := by
  unfold State.sleep
  repeat' first
    | with_reducible exact Keeps.refl ..
    | extract_lets
    | ((with_reducible apply Keeps.step ?_ (State.answer_keeps ..) ?_); on_goal 2 => decide)
    | ((with_reducible apply Keeps.step ?_ (State.used_keeps ..) ?_); on_goal 2 => decide)
    | with_reducible apply Keeps.ite
    | split
    | (dsimp +zetaDelta only; split)
    | ((with_reducible apply Keeps.upd ?_); any_goals first | exact Or.inl (by decide) | exact Or.inr (Eq.refl _) | exact Or.inr (Or.inl ⟨by decide, Eq.refl _⟩) | exact Or.inr (Or.inr (Or.inl ⟨by decide, Eq.refl _⟩)) | exact Or.inr (Or.inr (Or.inr (Eq.refl _))))

theorem State.setRes_keeps (r : BitVec 2) (s : State) : Keeps [.time] s (State.setRes r s) := by
  unfold State.setRes
  repeat' first
    | with_reducible exact Keeps.refl ..
    | extract_lets
    | with_reducible apply Keeps.ite
    | split
    | (dsimp +zetaDelta only; split)
    | ((with_reducible apply Keeps.upd ?_); any_goals first | exact Or.inl (by decide) | exact Or.inr (Eq.refl _) | exact Or.inr (Or.inl ⟨by decide, Eq.refl _⟩) | exact Or.inr (Or.inr (Or.inl ⟨by decide, Eq.refl _⟩)) | exact Or.inr (Or.inr (Or.inr (Eq.refl _))))

theorem State.sleepEntered_keeps (s : State) : Keeps [.time, .ch, .axis, .store, .mbx, .adc, .pwr, .free] s (State.sleepEntered s) := by
  unfold State.sleepEntered
  repeat' first
    | with_reducible exact Keeps.refl ..
    | extract_lets
    | ((with_reducible refine Keeps.forAll _ ?_ _ ?_); on_goal 1 => intro _ _)
    | ((with_reducible apply Keeps.step ?_ (State.modCh_keeps ..) ?_); on_goal 2 => decide)
    | ((with_reducible apply Keeps.step ?_ (State.countTo_keeps ..) ?_); on_goal 2 => decide)
    | ((with_reducible apply Keeps.step ?_ (State.setRes_keeps ..) ?_); on_goal 2 => decide)
    | ((with_reducible apply Keeps.step ?_ (State.used_keeps ..) ?_); on_goal 2 => decide)
    | ((with_reducible apply Keeps.step ?_ (State.notice_keeps ..) ?_); on_goal 2 => decide)
    | with_reducible apply Keeps.ite
    | split
    | (dsimp +zetaDelta only; split)
    | ((with_reducible apply Keeps.upd ?_); any_goals first | exact Or.inl (by decide) | exact Or.inr (Eq.refl _) | exact Or.inr (Or.inl ⟨by decide, Eq.refl _⟩) | exact Or.inr (Or.inr (Or.inl ⟨by decide, Eq.refl _⟩)) | exact Or.inr (Or.inr (Or.inr (Eq.refl _))))

theorem State.wakeName_keeps (isFirst : Bool) (f : Power → Power) (s : State) : Keeps [.pwr] s (State.wakeName isFirst f s) := by
  unfold State.wakeName
  repeat' first
    | with_reducible exact Keeps.refl ..
    | extract_lets
    | with_reducible apply Keeps.ite
    | split
    | ((with_reducible apply Keeps.upd ?_); any_goals first | exact Or.inl (by decide) | exact Or.inr (Eq.refl _) | exact Or.inr (Or.inl ⟨by decide, Eq.refl _⟩) | exact Or.inr (Or.inr (Or.inl ⟨by decide, Eq.refl _⟩)) | exact Or.inr (Or.inr (Or.inr (Eq.refl _))))

theorem State.wakeSource_keeps (w : WakeSrc) (s : State) : Keeps [.time, .pwr] s (State.wakeSource w s) := by
  unfold State.wakeSource
  repeat' first
    | with_reducible exact Keeps.refl ..
    | extract_lets
    | ((with_reducible apply Keeps.step ?_ (State.wakeName_keeps ..) ?_); on_goal 2 => decide)
    | ((with_reducible apply Keeps.step ?_ (State.wakeBy_keeps ..) ?_); on_goal 2 => decide)
    | ((with_reducible apply Keeps.step ?_ (State.wakeIf_keeps ..) ?_); on_goal 2 => decide)
    | with_reducible apply Keeps.ite
    | split
    | (dsimp +zetaDelta only; split)
    | ((with_reducible apply Keeps.upd ?_); any_goals first | exact Or.inl (by decide) | exact Or.inr (Eq.refl _) | exact Or.inr (Or.inl ⟨by decide, Eq.refl _⟩) | exact Or.inr (Or.inr (Or.inl ⟨by decide, Eq.refl _⟩)) | exact Or.inr (Or.inr (Or.inr (Eq.refl _))))

theorem State.toRun_keeps (s : State) : Keeps [.guar, .ch, .axis, .cal, .pod, .store, .eic, .mbx, .adc, .sur, .pwr, .boot, .free] s (State.toRun s) := by
  unfold State.toRun
  repeat' first
    | with_reducible exact Keeps.refl ..
    | extract_lets
    | ((with_reducible refine Keeps.forAll _ ?_ _ ?_); on_goal 1 => intro _ _)
    | ((with_reducible apply Keeps.step ?_ (State.modCh_keeps ..) ?_); on_goal 2 => decide)
    | ((with_reducible apply Keeps.step ?_ (State.deliver_keeps ..) ?_); on_goal 2 => decide)
    | ((with_reducible apply Keeps.step ?_ (State.notice_keeps ..) ?_); on_goal 2 => decide)
    | ((with_reducible apply Keeps.step ?_ (State.bucketBoundary_keeps ..) ?_); on_goal 2 => decide)
    | with_reducible apply Keeps.ite
    | split
    | (dsimp +zetaDelta only; split)
    | ((with_reducible apply Keeps.upd ?_); any_goals first | exact Or.inl (by decide) | exact Or.inr (Eq.refl _) | exact Or.inr (Or.inl ⟨by decide, Eq.refl _⟩) | exact Or.inr (Or.inr (Or.inl ⟨by decide, Eq.refl _⟩)) | exact Or.inr (Or.inr (Or.inr (Eq.refl _))))

theorem State.ltTo_keeps (v : Nat) (s : State) : Keeps [.time] s (State.ltTo v s) := by
  unfold State.ltTo
  repeat' first
    | with_reducible exact Keeps.refl ..
    | extract_lets
    | with_reducible apply Keeps.ite
    | split
    | (dsimp +zetaDelta only; split)
    | ((with_reducible apply Keeps.upd ?_); any_goals first | exact Or.inl (by decide) | exact Or.inr (Eq.refl _) | exact Or.inr (Or.inl ⟨by decide, Eq.refl _⟩) | exact Or.inr (Or.inr (Or.inl ⟨by decide, Eq.refl _⟩)) | exact Or.inr (Or.inr (Or.inr (Eq.refl _))))

theorem State.xinStable_keeps (s : State) : Keeps [.time] s (State.xinStable s) := by
  unfold State.xinStable
  repeat' first
    | with_reducible exact Keeps.refl ..
    | extract_lets
    | ((with_reducible apply Keeps.step ?_ (State.setRes_keeps ..) ?_); on_goal 2 => decide)
    | with_reducible apply Keeps.ite
    | split
    | (dsimp +zetaDelta only; split)
    | ((with_reducible apply Keeps.upd ?_); any_goals first | exact Or.inl (by decide) | exact Or.inr (Eq.refl _) | exact Or.inr (Or.inl ⟨by decide, Eq.refl _⟩) | exact Or.inr (Or.inr (Or.inl ⟨by decide, Eq.refl _⟩)) | exact Or.inr (Or.inr (Or.inr (Eq.refl _))))

theorem State.pllLocks_keeps (s : State) : Keeps [.time] s (State.pllLocks s) := by
  unfold State.pllLocks
  repeat' first
    | with_reducible exact Keeps.refl ..
    | extract_lets
    | ((with_reducible apply Keeps.step ?_ (State.ltTo_keeps ..) ?_); on_goal 2 => decide)
    | with_reducible apply Keeps.ite
    | split
    | (dsimp +zetaDelta only; split)
    | ((with_reducible apply Keeps.upd ?_); any_goals first | exact Or.inl (by decide) | exact Or.inr (Eq.refl _) | exact Or.inr (Or.inl ⟨by decide, Eq.refl _⟩) | exact Or.inr (Or.inr (Or.inl ⟨by decide, Eq.refl _⟩)) | exact Or.inr (Or.inr (Or.inr (Eq.refl _))))

theorem State.xinFails_keeps (s : State) : Keeps [.time, .guar, .health] s (State.xinFails s) := by
  unfold State.xinFails
  repeat' first
    | with_reducible exact Keeps.refl ..
    | extract_lets
    | ((with_reducible apply Keeps.step ?_ (State.breach_keeps ..) ?_); on_goal 2 => decide)
    | with_reducible apply Keeps.ite
    | split
    | (dsimp +zetaDelta only; split)
    | ((with_reducible apply Keeps.upd ?_); any_goals first | exact Or.inl (by decide) | exact Or.inr (Eq.refl _) | exact Or.inr (Or.inl ⟨by decide, Eq.refl _⟩) | exact Or.inr (Or.inr (Or.inl ⟨by decide, Eq.refl _⟩)) | exact Or.inr (Or.inr (Or.inr (Eq.refl _))))

theorem State.idle_keeps (s : State) : Keeps [.time] s (State.idle s) := by
  unfold State.idle
  repeat' first
    | with_reducible exact Keeps.refl ..
    | extract_lets
    | ((with_reducible apply Keeps.when ?_ _ _ ?_); on_goal 2 => intro _)
    | ((with_reducible apply Keeps.step ?_ (State.setRes_keeps ..) ?_); on_goal 2 => decide)
    | ((with_reducible apply Keeps.step ?_ (State.ltTo_keeps ..) ?_); on_goal 2 => decide)
    | with_reducible apply Keeps.ite
    | split
    | (dsimp +zetaDelta only; split)
    | ((with_reducible apply Keeps.upd ?_); any_goals first | exact Or.inl (by decide) | exact Or.inr (Eq.refl _) | exact Or.inr (Or.inl ⟨by decide, Eq.refl _⟩) | exact Or.inr (Or.inr (Or.inl ⟨by decide, Eq.refl _⟩)) | exact Or.inr (Or.inr (Or.inr (Eq.refl _))))

theorem State.coreReset_keeps (cause : BitVec 4) (s : State) : Keeps [.time, .master, .guar, .ch, .axis, .cal, .pod, .mem, .store, .eic, .mbx, .abort, .fw, .health, .pcie, .adc, .sur, .pwr, .boot, .jtag] s (State.coreReset cause s) := by
  unfold State.coreReset
  apply Keeps.upd (Keeps.refl _ s) <;> first | exact Or.inl (by decide) | exact Or.inr (Eq.refl _) | exact Or.inr (Or.inl ⟨by decide, Eq.refl _⟩) | exact Or.inr (Or.inr (Or.inl ⟨by decide, Eq.refl _⟩)) | exact Or.inr (Or.inr (Or.inr (Eq.refl _)))

theorem State.aonReset_keeps (cold : Bool) (s : State) : Keeps [.time, .master, .guar, .ch, .axis, .cal, .pod, .mem, .store, .eic, .mbx, .abort, .fw, .health, .pcie, .adc, .sur, .pwr, .boot, .jtag] s (State.aonReset cold s) := by
  unfold State.aonReset
  repeat' first
    | with_reducible exact Keeps.refl ..
    | extract_lets
    | ((with_reducible apply Keeps.step ?_ (State.coreReset_keeps ..) ?_); on_goal 2 => decide)
    | with_reducible apply Keeps.ite
    | split
    | (dsimp +zetaDelta only; split)
    | ((with_reducible apply Keeps.upd ?_); any_goals first | exact Or.inl (by decide) | exact Or.inr (Eq.refl _) | exact Or.inr (Or.inl ⟨by decide, Eq.refl _⟩) | exact Or.inr (Or.inr (Or.inl ⟨by decide, Eq.refl _⟩)) | exact Or.inr (Or.inr (Or.inr (Eq.refl _))))

theorem State.vioDrops_keeps (p : Pod) (s : State) : Keeps [.ch, .boot] s (State.vioDrops p s) := by
  unfold State.vioDrops
  repeat' first
    | with_reducible exact Keeps.refl ..
    | extract_lets
    | ((with_reducible apply Keeps.step ?_ (State.vioFault_keeps ..) ?_); on_goal 2 => decide)
    | with_reducible apply Keeps.ite
    | split
    | (dsimp +zetaDelta only; split)
    | ((with_reducible apply Keeps.upd ?_); any_goals first | exact Or.inl (by decide) | exact Or.inr (Eq.refl _) | exact Or.inr (Or.inl ⟨by decide, Eq.refl _⟩) | exact Or.inr (Or.inr (Or.inl ⟨by decide, Eq.refl _⟩)) | exact Or.inr (Or.inr (Or.inr (Eq.refl _))))

theorem State.loadMicro_keeps (patch : Option PatchIn) (s : State) : Keeps [.pod, .health] s (State.loadMicro patch s) := by
  unfold State.loadMicro
  repeat' first
    | with_reducible exact Keeps.refl ..
    | extract_lets
    | ((with_reducible apply Keeps.when ?_ _ _ ?_); on_goal 2 => intro _)
    | ((with_reducible refine Keeps.forAll _ ?_ _ ?_); on_goal 1 => intro _ _)
    | ((with_reducible apply Keeps.step ?_ (State.modPod_keeps ..) ?_); on_goal 2 => decide)
    | ((with_reducible apply Keeps.step ?_ (State.hsum_keeps ..) ?_); on_goal 2 => decide)

theorem State.startImage_keeps (i : ImageIn) (selfTest : List (BitVec 17)) (s : State) : Keeps [.pod, .mem, .store, .fw, .health, .boot, .free] s (State.startImage i selfTest s) := by
  unfold State.startImage
  repeat' first
    | with_reducible exact Keeps.refl ..
    | extract_lets
    | ((with_reducible refine Keeps.forAll _ ?_ _ ?_); on_goal 1 => intro _ _)
    | ((with_reducible apply Keeps.step ?_ (State.loadMicro_keeps ..) ?_); on_goal 2 => decide)
    | ((with_reducible apply Keeps.step ?_ (State.modHealth_keeps ..) ?_); on_goal 2 => decide)
    | ((with_reducible apply Keeps.step ?_ (State.used_keeps ..) ?_); on_goal 2 => decide)
    | with_reducible apply Keeps.ite
    | split
    | (dsimp +zetaDelta only; split)
    | ((with_reducible apply Keeps.upd ?_); any_goals first | exact Or.inl (by decide) | exact Or.inr (Eq.refl _) | exact Or.inr (Or.inl ⟨by decide, Eq.refl _⟩) | exact Or.inr (Or.inr (Or.inl ⟨by decide, Eq.refl _⟩)) | exact Or.inr (Or.inr (Or.inr (Eq.refl _))))

theorem State.imageRefused_keeps (step : Nat) (s : State) : Keeps [.mbx, .health, .boot, .free] s (State.imageRefused step s) := by
  unfold State.imageRefused
  repeat' first
    | with_reducible exact Keeps.refl ..
    | extract_lets
    | ((with_reducible apply Keeps.step ?_ (State.notice_keeps ..) ?_); on_goal 2 => decide)
    | ((with_reducible apply Keeps.step ?_ (State.hsum_keeps ..) ?_); on_goal 2 => decide)
    | with_reducible apply Keeps.ite
    | split
    | (dsimp +zetaDelta only; split)
    | ((with_reducible apply Keeps.upd ?_); any_goals first | exact Or.inl (by decide) | exact Or.inr (Eq.refl _) | exact Or.inr (Or.inl ⟨by decide, Eq.refl _⟩) | exact Or.inr (Or.inr (Or.inl ⟨by decide, Eq.refl _⟩)) | exact Or.inr (Or.inr (Or.inr (Eq.refl _))))

theorem State.bootFails_keeps (s : State) : Keeps [.fw] s (State.bootFails s) := by
  unfold State.bootFails
  repeat' first
    | with_reducible exact Keeps.refl ..
    | extract_lets
    | with_reducible apply Keeps.ite
    | split
    | (dsimp +zetaDelta only; split)
    | ((with_reducible apply Keeps.upd ?_); any_goals first | exact Or.inl (by decide) | exact Or.inr (Eq.refl _) | exact Or.inr (Or.inl ⟨by decide, Eq.refl _⟩) | exact Or.inr (Or.inr (Or.inl ⟨by decide, Eq.refl _⟩)) | exact Or.inr (Or.inr (Or.inr (Eq.refl _))))

theorem State.flashBoot_keeps (primary alternate : ImageIn) (selfTest : List (BitVec 17)) (s : State) : Keeps [.pod, .mem, .store, .mbx, .fw, .health, .boot, .free] s (State.flashBoot primary alternate selfTest s) := by
  unfold State.flashBoot
  repeat' first
    | with_reducible exact Keeps.refl ..
    | extract_lets
    | ((with_reducible apply Keeps.step ?_ (State.startImage_keeps ..) ?_); on_goal 2 => decide)
    | ((with_reducible apply Keeps.step ?_ (State.imageRefused_keeps ..) ?_); on_goal 2 => decide)
    | ((with_reducible apply Keeps.step ?_ (State.bootFails_keeps ..) ?_); on_goal 2 => decide)
    | with_reducible apply Keeps.ite
    | split
    | (dsimp +zetaDelta only; split)
    | ((with_reducible apply Keeps.upd ?_); any_goals first | exact Or.inl (by decide) | exact Or.inr (Eq.refl _) | exact Or.inr (Or.inl ⟨by decide, Eq.refl _⟩) | exact Or.inr (Or.inr (Or.inl ⟨by decide, Eq.refl _⟩)) | exact Or.inr (Or.inr (Or.inr (Eq.refl _))))

theorem State.resetRelease_keeps (straps : BitVec 2) (primary alternate : ImageIn) (selfTest : List (BitVec 17)) (s : State) : Keeps [.guar, .ch, .axis, .pod, .mem, .store, .mbx, .abort, .fw, .health, .pcie, .sur, .boot, .free] s (State.resetRelease straps primary alternate selfTest s) := by
  unfold State.resetRelease
  repeat' first
    | with_reducible exact Keeps.refl ..
    | extract_lets
    | ((with_reducible apply Keeps.when ?_ _ _ ?_); on_goal 2 => intro _)
    | ((with_reducible apply Keeps.step ?_ (State.abortScope_keeps ..) ?_); on_goal 2 => decide)
    | ((with_reducible apply Keeps.step ?_ (State.flashBoot_keeps ..) ?_); on_goal 2 => decide)
    | with_reducible apply Keeps.ite
    | split
    | (dsimp +zetaDelta only; split)
    | ((with_reducible apply Keeps.upd ?_); any_goals first | exact Or.inl (by decide) | exact Or.inr (Eq.refl _) | exact Or.inr (Or.inl ⟨by decide, Eq.refl _⟩) | exact Or.inr (Or.inr (Or.inl ⟨by decide, Eq.refl _⟩)) | exact Or.inr (Or.inr (Or.inr (Eq.refl _))))

theorem State.fwStarts_keeps (s : State) : Keeps [.fw, .health] s (State.fwStarts s) := by
  unfold State.fwStarts
  repeat' first
    | with_reducible exact Keeps.refl ..
    | extract_lets
    | ((with_reducible apply Keeps.step ?_ (State.hsum_keeps ..) ?_); on_goal 2 => decide)
    | with_reducible apply Keeps.ite
    | split
    | (dsimp +zetaDelta only; split)
    | ((with_reducible apply Keeps.upd ?_); any_goals first | exact Or.inl (by decide) | exact Or.inr (Eq.refl _) | exact Or.inr (Or.inl ⟨by decide, Eq.refl _⟩) | exact Or.inr (Or.inr (Or.inl ⟨by decide, Eq.refl _⟩)) | exact Or.inr (Or.inr (Or.inr (Eq.refl _))))

theorem State.bootLoad_keeps (m : Master) (i : ImageIn) (selfTest : List (BitVec 17)) (s : State) : Keeps [.pod, .mem, .store, .mbx, .fw, .health, .boot, .free] s (State.bootLoad m i selfTest s) := by
  unfold State.bootLoad
  repeat' first
    | with_reducible exact Keeps.refl ..
    | extract_lets
    | ((with_reducible apply Keeps.step ?_ (State.startImage_keeps ..) ?_); on_goal 2 => decide)
    | ((with_reducible apply Keeps.step ?_ (State.bootFails_keeps ..) ?_); on_goal 2 => decide)
    | ((with_reducible apply Keeps.step ?_ (State.imageRefused_keeps ..) ?_); on_goal 2 => decide)
    | with_reducible apply Keeps.ite
    | split

theorem State.bootFlash_keeps (i : ImageIn) (s : State) : Keeps [.boot] s (State.bootFlash i s) := by
  unfold State.bootFlash
  repeat' first
    | with_reducible exact Keeps.refl ..
    | extract_lets
    | with_reducible apply Keeps.ite
    | split
    | (dsimp +zetaDelta only; split)
    | ((with_reducible apply Keeps.upd ?_); any_goals first | exact Or.inl (by decide) | exact Or.inr (Eq.refl _) | exact Or.inr (Or.inl ⟨by decide, Eq.refl _⟩) | exact Or.inr (Or.inr (Or.inl ⟨by decide, Eq.refl _⟩)) | exact Or.inr (Or.inr (Or.inr (Eq.refl _))))

theorem State.writeAtb_keeps (w : W) (s : State) : Keeps [.sur] s (State.writeAtb w s) := by
  unfold State.writeAtb
  repeat' first
    | with_reducible exact Keeps.refl ..
    | extract_lets
    | with_reducible apply Keeps.ite
    | split
    | (dsimp +zetaDelta only; split)
    | ((with_reducible apply Keeps.upd ?_); any_goals first | exact Or.inl (by decide) | exact Or.inr (Eq.refl _) | exact Or.inr (Or.inl ⟨by decide, Eq.refl _⟩) | exact Or.inr (Or.inr (Or.inl ⟨by decide, Eq.refl _⟩)) | exact Or.inr (Or.inr (Or.inr (Eq.refl _))))

theorem State.jtagSelect_keeps (i : JtagInstr) (s : State) : Keeps [.guar, .jtag] s (State.jtagSelect i s) := by
  unfold State.jtagSelect
  repeat' first
    | with_reducible exact Keeps.refl ..
    | extract_lets
    | ((with_reducible apply Keeps.when ?_ _ _ ?_); on_goal 2 => intro _)
    | ((with_reducible apply Keeps.step ?_ (State.breach_keeps ..) ?_); on_goal 2 => decide)
    | with_reducible apply Keeps.ite
    | split
    | (dsimp +zetaDelta only; split)
    | ((with_reducible apply Keeps.upd ?_); any_goals first | exact Or.inl (by decide) | exact Or.inr (Eq.refl _) | exact Or.inr (Or.inl ⟨by decide, Eq.refl _⟩) | exact Or.inr (Or.inr (Or.inl ⟨by decide, Eq.refl _⟩)) | exact Or.inr (Or.inr (Or.inr (Eq.refl _))))

theorem State.samplePreload_keeps (drive level : BitVec 128) (s : State) : Keeps [.guar, .jtag] s (State.samplePreload drive level s) := by
  unfold State.samplePreload
  repeat' first
    | with_reducible exact Keeps.refl ..
    | extract_lets
    | ((with_reducible apply Keeps.step ?_ (State.jtagSelect_keeps ..) ?_); on_goal 2 => decide)
    | with_reducible apply Keeps.ite
    | split
    | (dsimp +zetaDelta only; split)
    | ((with_reducible apply Keeps.upd ?_); any_goals first | exact Or.inl (by decide) | exact Or.inr (Eq.refl _) | exact Or.inr (Or.inl ⟨by decide, Eq.refl _⟩) | exact Or.inr (Or.inr (Or.inl ⟨by decide, Eq.refl _⟩)) | exact Or.inr (Or.inr (Or.inr (Eq.refl _))))

end Sys2Proof.Machine
end

