-- ==== Sys2Proof/Laws/FrameBus.lean ====
section
/-!
SUPPORT. What each operation of the register bus, the configuration commands, the QSPI port and held accesses leaves alone (`Keeps`).
-/
namespace Sys2Proof.Machine
-- One script is tried on every goal of this file, so on some goals a part of it has nothing to do.
set_option linter.unusedTactic false
set_option linter.unreachableTactic false

theorem State.sampled_keeps (s : State) : Keeps [.time, .free] s (State.sampled s) := by
  unfold State.sampled
  repeat' first
    | with_reducible exact Keeps.refl ..
    | extract_lets
    | ((with_reducible apply Keeps.step ?_ (State.used_keeps ..) ?_); on_goal 2 => decide)
    | with_reducible apply Keeps.ite
    | split
    | (dsimp +zetaDelta only; split)
    | ((with_reducible apply Keeps.upd ?_); any_goals first | exact Or.inl (by decide) | exact Or.inr (Eq.refl _) | exact Or.inr (Or.inl ⟨by decide, Eq.refl _⟩) | exact Or.inr (Or.inr (Or.inl ⟨by decide, Eq.refl _⟩)) | exact Or.inr (Or.inr (Or.inr (Eq.refl _))))

theorem globalTake_keeps (a : Nat) (s : State) : Keeps [.time, .cal, .health, .free] s (globalTake a s) := by
  unfold globalTake
  repeat' first
    | with_reducible exact Keeps.refl ..
    | extract_lets
    | ((with_reducible apply Keeps.step ?_ (State.sampled_keeps ..) ?_); on_goal 2 => decide)
    | ((with_reducible apply Keeps.step ?_ (State.used_keeps ..) ?_); on_goal 2 => decide)
    | ((with_reducible apply Keeps.step ?_ (State.modHealth_keeps ..) ?_); on_goal 2 => decide)
    | with_reducible apply Keeps.ite
    | split
    | (dsimp +zetaDelta only; split)
    | ((with_reducible apply Keeps.upd ?_); any_goals first | exact Or.inl (by decide) | exact Or.inr (Eq.refl _) | exact Or.inr (Or.inl ⟨by decide, Eq.refl _⟩) | exact Or.inr (Or.inr (Or.inl ⟨by decide, Eq.refl _⟩)) | exact Or.inr (Or.inr (Or.inr (Eq.refl _))))

theorem State.guarClear_keeps (w : W) (s : State) : Keeps [.guar] s (State.guarClear w s) := by
  unfold State.guarClear
  repeat' first
    | with_reducible exact Keeps.refl ..
    | extract_lets
    | with_reducible apply Keeps.ite
    | split
    | (dsimp +zetaDelta only; split)
    | ((with_reducible apply Keeps.upd ?_); any_goals first | exact Or.inl (by decide) | exact Or.inr (Eq.refl _) | exact Or.inr (Or.inl ⟨by decide, Eq.refl _⟩) | exact Or.inr (Or.inr (Or.inl ⟨by decide, Eq.refl _⟩)) | exact Or.inr (Or.inr (Or.inr (Eq.refl _))))

theorem State.setOfs_keeps (v : Nat) (s : State) : Keeps [.time] s (State.setOfs v s) := by
  unfold State.setOfs
  repeat' first
    | with_reducible exact Keeps.refl ..
    | extract_lets
    | with_reducible apply Keeps.ite
    | split
    | (dsimp +zetaDelta only; split)
    | ((with_reducible apply Keeps.upd ?_); any_goals first | exact Or.inl (by decide) | exact Or.inr (Eq.refl _) | exact Or.inr (Or.inl ⟨by decide, Eq.refl _⟩) | exact Or.inr (Or.inr (Or.inl ⟨by decide, Eq.refl _⟩)) | exact Or.inr (Or.inr (Or.inr (Eq.refl _))))

theorem State.pwrCfgErr_keeps (s : State) : Keeps [.pwr] s (State.pwrCfgErr s) := by
  unfold State.pwrCfgErr
  repeat' first
    | with_reducible exact Keeps.refl ..
    | extract_lets
    | with_reducible apply Keeps.ite
    | split
    | (dsimp +zetaDelta only; split)
    | ((with_reducible apply Keeps.upd ?_); any_goals first | exact Or.inl (by decide) | exact Or.inr (Eq.refl _) | exact Or.inr (Or.inl ⟨by decide, Eq.refl _⟩) | exact Or.inr (Or.inr (Or.inl ⟨by decide, Eq.refl _⟩)) | exact Or.inr (Or.inr (Or.inr (Eq.refl _))))

theorem State.writeAlertEn_keeps (m : Master) (w : W) (s : State) : Keeps [.health] s (State.writeAlertEn m w s) := by
  unfold State.writeAlertEn
  repeat' first
    | with_reducible exact Keeps.refl ..
    | extract_lets
    | with_reducible apply Keeps.ite
    | split
    | (dsimp +zetaDelta only; split)
    | ((with_reducible apply Keeps.upd ?_); any_goals first | exact Or.inl (by decide) | exact Or.inr (Eq.refl _) | exact Or.inr (Or.inl ⟨by decide, Eq.refl _⟩) | exact Or.inr (Or.inr (Or.inl ⟨by decide, Eq.refl _⟩)) | exact Or.inr (Or.inr (Or.inr (Eq.refl _))))

theorem State.setWakeChs_keeps (i : Fin 4) (w : W) (s : State) : Keeps [.pwr] s (State.setWakeChs i w s) := by
  unfold State.setWakeChs
  repeat' first
    | with_reducible exact Keeps.refl ..
    | extract_lets
    | with_reducible apply Keeps.ite
    | split
    | (dsimp +zetaDelta only; split)
    | ((with_reducible apply Keeps.upd ?_); any_goals first | exact Or.inl (by decide) | exact Or.inr (Eq.refl _) | exact Or.inr (Or.inl ⟨by decide, Eq.refl _⟩) | exact Or.inr (Or.inr (Or.inl ⟨by decide, Eq.refl _⟩)) | exact Or.inr (Or.inr (Or.inr (Eq.refl _))))

theorem globalWrite_keeps (m : Master) (a : Nat) (w : W) (s : State) : Keeps [.time, .master, .guar, .cal, .health, .pcie, .pwr, .boot] s (globalWrite m a w s) := by
  unfold globalWrite
  repeat' first
    | with_reducible exact Keeps.refl ..
    | extract_lets
    | ((with_reducible apply Keeps.step ?_ (State.setHolding_keeps ..) ?_); on_goal 2 => decide)
    | ((with_reducible apply Keeps.step ?_ (State.setOfs_keeps ..) ?_); on_goal 2 => decide)
    | ((with_reducible apply Keeps.step ?_ (State.modMaster_keeps ..) ?_); on_goal 2 => decide)
    | ((with_reducible apply Keeps.step ?_ (State.guarClear_keeps ..) ?_); on_goal 2 => decide)
    | ((with_reducible apply Keeps.step ?_ (State.writeAlertEn_keeps ..) ?_); on_goal 2 => decide)
    | ((with_reducible apply Keeps.step ?_ (State.pwrCfgErr_keeps ..) ?_); on_goal 2 => decide)
    | ((with_reducible apply Keeps.step ?_ (State.setWakeChs_keeps ..) ?_); on_goal 2 => decide)
    | ((with_reducible apply Keeps.step ?_ (State.modHealth_keeps ..) ?_); on_goal 2 => decide)
    | with_reducible apply Keeps.ite
    | split
    | (dsimp +zetaDelta only; split)
    | ((with_reducible apply Keeps.upd ?_); any_goals first | exact Or.inl (by decide) | exact Or.inr (Eq.refl _) | exact Or.inr (Or.inl ⟨by decide, Eq.refl _⟩) | exact Or.inr (Or.inr (Or.inl ⟨by decide, Eq.refl _⟩)) | exact Or.inr (Or.inr (Or.inr (Eq.refl _))))

theorem State.chNow_keeps (n : Ch) (s : State) : Keeps [.ch, .pod, .free] s (State.chNow n s) := by
  unfold State.chNow
  repeat' first
    | with_reducible exact Keeps.refl ..
    | extract_lets
    | ((with_reducible apply Keeps.step ?_ (State.settleRfx_keeps ..) ?_); on_goal 2 => decide)
    | ((with_reducible apply Keeps.step ?_ (State.settleSpill_keeps ..) ?_); on_goal 2 => decide)
    | ((with_reducible apply Keeps.step ?_ (State.settleCaps_keeps ..) ?_); on_goal 2 => decide)
    | ((with_reducible apply Keeps.step ?_ (State.countNow_keeps ..) ?_); on_goal 2 => decide)
    | ((with_reducible apply Keeps.step ?_ (State.modCh_keeps ..) ?_); on_goal 2 => decide)
    | ((with_reducible apply Keeps.step ?_ (State.pipNow_keeps ..) ?_); on_goal 2 => decide)

theorem chanTake_keeps (n : Ch) (o : Nat) (s : State) : Keeps [.ch] s (chanTake n o s) := by
  unfold chanTake
  repeat' first
    | with_reducible exact Keeps.refl ..
    | extract_lets
    | ((with_reducible apply Keeps.step ?_ (State.modCh_keeps ..) ?_); on_goal 2 => decide)
    | ((with_reducible apply Keeps.step ?_ (State.modPip_keeps ..) ?_); on_goal 2 => decide)
    | with_reducible apply Keeps.ite
    | split

theorem State.writeCtrl_keeps (m : Master) (n : Ch) (w : W) (s : State) : Keeps [.ch, .pod, .free] s (State.writeCtrl m n w s) := by
  unfold State.writeCtrl
  repeat' first
    | with_reducible exact Keeps.refl ..
    | extract_lets
    | ((with_reducible apply Keeps.step ?_ (State.countTo_keeps ..) ?_); on_goal 2 => decide)
    | ((with_reducible apply Keeps.step ?_ (State.modCh_keeps ..) ?_); on_goal 2 => decide)
    | ((with_reducible apply Keeps.step ?_ (State.pipHalt_keeps ..) ?_); on_goal 2 => decide)
    | ((with_reducible apply Keeps.step ?_ (State.pipNow_keeps ..) ?_); on_goal 2 => decide)
    | with_reducible apply Keeps.ite

theorem State.writeCmd_keeps (n : Ch) (w : W) (s : State) : Keeps [.guar, .ch, .pod, .free] s (State.writeCmd n w s) := by
  unfold State.writeCmd
  repeat' first
    | with_reducible exact Keeps.refl ..
    | extract_lets
    | ((with_reducible apply Keeps.when ?_ _ _ ?_); on_goal 2 => intro _)
    | ((with_reducible refine Keeps.forAll _ ?_ _ ?_); on_goal 1 => intro _ _)
    | ((with_reducible apply Keeps.step ?_ (State.countNow_keeps ..) ?_); on_goal 2 => decide)
    | ((with_reducible apply Keeps.step ?_ (State.cntStop_keeps ..) ?_); on_goal 2 => decide)
    | ((with_reducible apply Keeps.step ?_ (State.cntStart_keeps ..) ?_); on_goal 2 => decide)
    | ((with_reducible apply Keeps.step ?_ (State.cntLoad_keeps ..) ?_); on_goal 2 => decide)
    | ((with_reducible apply Keeps.step ?_ (State.cntClear_keeps ..) ?_); on_goal 2 => decide)
    | ((with_reducible apply Keeps.step ?_ (State.hostDisarms_keeps ..) ?_); on_goal 2 => decide)
    | ((with_reducible apply Keeps.step ?_ (State.rearm_keeps ..) ?_); on_goal 2 => decide)
    | ((with_reducible apply Keeps.step ?_ (State.rfxDisarm_keeps ..) ?_); on_goal 2 => decide)
    | ((with_reducible apply Keeps.step ?_ (State.settleRfx_keeps ..) ?_); on_goal 2 => decide)
    | ((with_reducible apply Keeps.step ?_ (State.rfxArm_keeps ..) ?_); on_goal 2 => decide)
    | with_reducible apply Keeps.ite

theorem State.writeForce_keeps (n : Ch) (w : W) (s : State) : Keeps [.guar, .ch] s (State.writeForce n w s) := by
  unfold State.writeForce
  repeat' first
    | with_reducible exact Keeps.refl ..
    | extract_lets
    | ((with_reducible apply Keeps.step ?_ (State.force_keeps ..) ?_); on_goal 2 => decide)
    | with_reducible apply Keeps.ite

theorem State.writePipCmd_keeps (n : Ch) (w : W) (s : State) : Keeps [.ch, .pod] s (State.writePipCmd n w s) := by
  unfold State.writePipCmd
  repeat' first
    | with_reducible exact Keeps.refl ..
    | extract_lets
    | ((with_reducible apply Keeps.when ?_ _ _ ?_); on_goal 2 => intro _)
    | ((with_reducible apply Keeps.step ?_ (State.pipNow_keeps ..) ?_); on_goal 2 => decide)
    | ((with_reducible apply Keeps.step ?_ (State.modPip_keeps ..) ?_); on_goal 2 => decide)
    | ((with_reducible apply Keeps.step ?_ (State.releaseTier_keeps ..) ?_); on_goal 2 => decide)
    | ((with_reducible apply Keeps.step ?_ (State.pipResume_keeps ..) ?_); on_goal 2 => decide)
    | ((with_reducible apply Keeps.step ?_ (State.pipStartAt_keeps ..) ?_); on_goal 2 => decide)
    | with_reducible apply Keeps.ite

theorem pipWrite_keeps (n : Ch) (o : Nat) (w : W) (s : State) : Keeps [.ch, .pod] s (pipWrite n o w s) := by
  unfold pipWrite
  repeat' first
    | with_reducible exact Keeps.refl ..
    | extract_lets
    | ((with_reducible apply Keeps.step ?_ (State.pipNow_keeps ..) ?_); on_goal 2 => decide)
    | ((with_reducible apply Keeps.step ?_ (State.writePipCtrl_keeps ..) ?_); on_goal 2 => decide)
    | ((with_reducible apply Keeps.step ?_ (State.writePipCmd_keeps ..) ?_); on_goal 2 => decide)
    | ((with_reducible apply Keeps.step ?_ (State.modPip_keeps ..) ?_); on_goal 2 => decide)
    | ((with_reducible apply Keeps.step ?_ (State.writePipPins_keeps ..) ?_); on_goal 2 => decide)
    | with_reducible apply Keeps.ite
    | split

theorem unitWrite_keeps (m : Master) (n : Ch) (u : Unit4) (k : Nat) (w : W) (s : State) : Keeps [.master, .guar, .ch, .pod, .free] s (unitWrite m n u k w s) := by
  unfold unitWrite
  repeat' first
    | with_reducible exact Keeps.refl ..
    | extract_lets
    | ((with_reducible apply Keeps.step ?_ (State.setHolding_keeps ..) ?_); on_goal 2 => decide)
    | ((with_reducible apply Keeps.step ?_ (State.hostCommit_keeps ..) ?_); on_goal 2 => decide)
    | ((with_reducible apply Keeps.step ?_ (State.modCh_keeps ..) ?_); on_goal 2 => decide)
    | ((with_reducible apply Keeps.step ?_ (State.countNow_keeps ..) ?_); on_goal 2 => decide)
    | with_reducible apply Keeps.ite
    | split

theorem chanWrite_keeps (m : Master) (n : Ch) (o : Nat) (w : W) (s : State) : Keeps [.master, .guar, .ch, .pod, .sur, .free] s (chanWrite m n o w s) := by
  unfold chanWrite
  repeat' first
    | with_reducible exact Keeps.refl ..
    | extract_lets
    | ((with_reducible apply Keeps.step ?_ (State.writeCtrl_keeps ..) ?_); on_goal 2 => decide)
    | ((with_reducible apply Keeps.step ?_ (State.writeCmd_keeps ..) ?_); on_goal 2 => decide)
    | ((with_reducible apply Keeps.step ?_ (State.modCh_keeps ..) ?_); on_goal 2 => decide)
    | ((with_reducible apply Keeps.step ?_ (State.countNow_keeps ..) ?_); on_goal 2 => decide)
    | ((with_reducible apply Keeps.step ?_ (State.writeCntCfg_keeps ..) ?_); on_goal 2 => decide)
    | ((with_reducible apply Keeps.step ?_ (State.setHolding_keeps ..) ?_); on_goal 2 => decide)
    | ((with_reducible apply Keeps.step ?_ (State.commitTop_keeps ..) ?_); on_goal 2 => decide)
    | ((with_reducible apply Keeps.step ?_ (State.chNow_keeps ..) ?_); on_goal 2 => decide)
    | ((with_reducible apply Keeps.step ?_ (State.writeOutCfg_keeps ..) ?_); on_goal 2 => decide)
    | ((with_reducible apply Keeps.step ?_ (State.advCommit_keeps ..) ?_); on_goal 2 => decide)
    | ((with_reducible apply Keeps.step ?_ (State.writeForce_keeps ..) ?_); on_goal 2 => decide)
    | ((with_reducible apply Keeps.step ?_ (State.writeRfxCfg_keeps ..) ?_); on_goal 2 => decide)
    | ((with_reducible apply Keeps.step ?_ (State.settleRfx_keeps ..) ?_); on_goal 2 => decide)
    | ((with_reducible apply Keeps.step ?_ (unitWrite_keeps ..) ?_); on_goal 2 => decide)
    | ((with_reducible apply Keeps.step ?_ (pipWrite_keeps ..) ?_); on_goal 2 => decide)
    | with_reducible apply Keeps.ite
    | split

theorem State.frameStart_keeps (k : Ax) (b : Nat) (s : State) : Keeps [.axis] s (State.frameStart k b s) := by
  unfold State.frameStart
  repeat' first
    | with_reducible exact Keeps.refl ..
    | extract_lets
    | ((with_reducible apply Keeps.step ?_ (State.modAxis_keeps ..) ?_); on_goal 2 => decide)

theorem State.serTrig_keeps (k : Ax) (s : State) : Keeps [.axis] s (State.serTrig k s) := by
  unfold State.serTrig
  repeat' first
    | with_reducible exact Keeps.refl ..
    | extract_lets
    | ((with_reducible apply Keeps.step ?_ (State.frameStart_keeps ..) ?_); on_goal 2 => decide)
    | with_reducible apply Keeps.ite

theorem State.serGood_keeps (k : Ax) (v x : Nat) (s : State) : Keeps [.guar, .ch, .axis, .cal, .pod, .free] s (State.serGood k v x s) := by
  unfold State.serGood
  repeat' first
    | with_reducible exact Keeps.refl ..
    | extract_lets
    | ((with_reducible apply Keeps.step ?_ (State.modAxis_keeps ..) ?_); on_goal 2 => decide)
    | ((with_reducible apply Keeps.step ?_ (State.tellCounters_keeps ..) ?_); on_goal 2 => decide)
    | ((with_reducible apply Keeps.step ?_ (State.used_keeps ..) ?_); on_goal 2 => decide)
    | ((with_reducible apply Keeps.step ?_ (State.axMoved_keeps ..) ?_); on_goal 2 => decide)
    | ((with_reducible apply Keeps.step ?_ (State.axCount_keeps ..) ?_); on_goal 2 => decide)
    | with_reducible apply Keeps.ite
    | split

theorem State.serSample_keeps (k : Ax) (f : SerFrame) (s : State) : Keeps [.guar, .ch, .axis, .cal, .pod, .free] s (State.serSample k f s) := by
  unfold State.serSample
  repeat' first
    | with_reducible exact Keeps.refl ..
    | extract_lets
    | ((with_reducible apply Keeps.when ?_ _ _ ?_); on_goal 2 => intro _)
    | ((with_reducible apply Keeps.step ?_ (State.modAxis_keeps ..) ?_); on_goal 2 => decide)
    | ((with_reducible apply Keeps.step ?_ (State.serGood_keeps ..) ?_); on_goal 2 => decide)
    | with_reducible apply Keeps.ite
    | split

theorem State.writeAxCfg_keeps (k : Ax) (w : W) (s : State) : Keeps [.guar, .ch, .axis, .cal, .pod] s (State.writeAxCfg k w s) := by
  unfold State.writeAxCfg
  repeat' first
    | with_reducible exact Keeps.refl ..
    | extract_lets
    | ((with_reducible apply Keeps.when ?_ _ _ ?_); on_goal 2 => intro _)
    | ((with_reducible apply Keeps.step ?_ (State.axCfgErr_keeps ..) ?_); on_goal 2 => decide)
    | ((with_reducible apply Keeps.step ?_ (State.modAxis_keeps ..) ?_); on_goal 2 => decide)
    | ((with_reducible apply Keeps.step ?_ (State.axReeval_keeps ..) ?_); on_goal 2 => decide)

theorem State.writeAxCmd_keeps (k : Ax) (w : W) (s : State) : Keeps [.guar, .ch, .axis, .cal, .pod] s (State.writeAxCmd k w s) := by
  unfold State.writeAxCmd
  repeat' first
    | with_reducible exact Keeps.refl ..
    | extract_lets
    | ((with_reducible apply Keeps.when ?_ _ _ ?_); on_goal 2 => intro _)
    | ((with_reducible apply Keeps.step ?_ (State.zArm_keeps ..) ?_); on_goal 2 => decide)
    | ((with_reducible apply Keeps.step ?_ (State.posLoad_keeps ..) ?_); on_goal 2 => decide)
    | ((with_reducible apply Keeps.step ?_ (State.serTrig_keeps ..) ?_); on_goal 2 => decide)
    | ((with_reducible apply Keeps.step ?_ (State.emulRestart_keeps ..) ?_); on_goal 2 => decide)

theorem State.writeThr_keeps (k : Ax) (up dn : W) (s : State) : Keeps [.axis] s (State.writeThr k up dn s) := by
  unfold State.writeThr
  repeat' first
    | with_reducible exact Keeps.refl ..
    | extract_lets
    | ((with_reducible apply Keeps.step ?_ (State.modAxis_keeps ..) ?_); on_goal 2 => decide)
    | ((with_reducible apply Keeps.step ?_ (State.axCfgErr_keeps ..) ?_); on_goal 2 => decide)
    | with_reducible apply Keeps.ite

theorem State.writeAxis_keeps (k : Ax) (off : Nat) (w : W) (s : State) : Keeps [.guar, .ch, .axis, .cal, .pod] s (State.writeAxis k off w s) := by
  unfold State.writeAxis
  repeat' first
    | with_reducible exact Keeps.refl ..
    | extract_lets
    | ((with_reducible apply Keeps.when ?_ _ _ ?_); on_goal 2 => intro _)
    | ((with_reducible apply Keeps.step ?_ (State.modAxis_keeps ..) ?_); on_goal 2 => decide)
    | ((with_reducible apply Keeps.step ?_ (State.axCfgErr_keeps ..) ?_); on_goal 2 => decide)
    | ((with_reducible apply Keeps.step ?_ (State.writeAxCfg_keeps ..) ?_); on_goal 2 => decide)
    | ((with_reducible apply Keeps.step ?_ (State.writeAxCmd_keeps ..) ?_); on_goal 2 => decide)
    | ((with_reducible apply Keeps.step ?_ (State.axReeval_keeps ..) ?_); on_goal 2 => decide)
    | ((with_reducible apply Keeps.step ?_ (State.writeThr_keeps ..) ?_); on_goal 2 => decide)
    | ((with_reducible apply Keeps.step ?_ (State.writeEmulCfg_keeps ..) ?_); on_goal 2 => decide)
    | with_reducible apply Keeps.ite
    | split

theorem axisTake_keeps (m : Master) (k : Ax) (o : Nat) (s : State) : Keeps [.axis] s (axisTake m k o s) := by
  unfold axisTake
  repeat' first
    | with_reducible exact Keeps.refl ..
    | extract_lets
    | ((with_reducible apply Keeps.step ?_ (State.modAxis_keeps ..) ?_); on_goal 2 => decide)
    | with_reducible apply Keeps.ite
    | split

theorem podTake_keeps (p : Pod) (o : Nat) (s : State) : Keeps [.pod, .free] s (podTake p o s) := by
  unfold podTake
  repeat' first
    | with_reducible exact Keeps.refl ..
    | extract_lets
    | ((with_reducible apply Keeps.step ?_ (State.used_keeps ..) ?_); on_goal 2 => decide)
    | ((with_reducible apply Keeps.step ?_ (State.modPod_keeps ..) ?_); on_goal 2 => decide)
    | with_reducible apply Keeps.ite
    | split

theorem podWrite_keeps (p : Pod) (o : Nat) (w : W) (s : State) : Keeps [.pod] s (podWrite p o w s) := by
  unfold podWrite
  repeat' first
    | with_reducible exact Keeps.refl ..
    | extract_lets
    | ((with_reducible apply Keeps.step ?_ (State.modPod_keeps ..) ?_); on_goal 2 => decide)
    | ((with_reducible apply Keeps.step ?_ (State.writeResRd_keeps ..) ?_); on_goal 2 => decide)
    | ((with_reducible apply Keeps.step ?_ (State.writeFeeder_keeps ..) ?_); on_goal 2 => decide)
    | ((with_reducible apply Keeps.step ?_ (State.writeFeedWr_keeps ..) ?_); on_goal 2 => decide)
    | ((with_reducible apply Keeps.step ?_ (State.writeDrnRd_keeps ..) ?_); on_goal 2 => decide)
    | with_reducible apply Keeps.ite
    | split

theorem adcTake_keeps (o : Nat) (s : State) : Keeps [.adc, .free] s (adcTake o s) := by
  unfold adcTake
  repeat' first
    | with_reducible exact Keeps.refl ..
    | extract_lets
    | ((with_reducible apply Keeps.step ?_ (State.used_keeps ..) ?_); on_goal 2 => decide)
    | with_reducible apply Keeps.ite
    | split
    | (dsimp +zetaDelta only; split)
    | ((with_reducible apply Keeps.upd ?_); any_goals first | exact Or.inl (by decide) | exact Or.inr (Eq.refl _) | exact Or.inr (Or.inl ⟨by decide, Eq.refl _⟩) | exact Or.inr (Or.inr (Or.inl ⟨by decide, Eq.refl _⟩)) | exact Or.inr (Or.inr (Or.inr (Eq.refl _))))

theorem adcWrite_keeps (o : Nat) (w : W) (s : State) : Keeps [.adc] s (adcWrite o w s) := by
  unfold adcWrite
  repeat' first
    | with_reducible exact Keeps.refl ..
    | extract_lets
    | ((with_reducible apply Keeps.step ?_ (State.writeAdcCtrl_keeps ..) ?_); on_goal 2 => decide)
    | ((with_reducible apply Keeps.step ?_ (State.adcCfgErr_keeps ..) ?_); on_goal 2 => decide)
    | ((with_reducible apply Keeps.step ?_ (State.writeStrRd_keeps ..) ?_); on_goal 2 => decide)
    | ((with_reducible apply Keeps.step ?_ (State.writeAdcCfg_keeps ..) ?_); on_goal 2 => decide)
    | ((with_reducible apply Keeps.step ?_ (State.writeAdcSel_keeps ..) ?_); on_goal 2 => decide)
    | ((with_reducible apply Keeps.step ?_ (State.writeBand_keeps ..) ?_); on_goal 2 => decide)
    | ((with_reducible apply Keeps.step ?_ (State.modSlice_keeps ..) ?_); on_goal 2 => decide)
    | with_reducible apply Keeps.ite
    | split
    | (dsimp +zetaDelta only; split)
    | ((with_reducible apply Keeps.upd ?_); any_goals first | exact Or.inl (by decide) | exact Or.inr (Eq.refl _) | exact Or.inr (Or.inl ⟨by decide, Eq.refl _⟩) | exact Or.inr (Or.inr (Or.inl ⟨by decide, Eq.refl _⟩)) | exact Or.inr (Or.inr (Or.inr (Eq.refl _))))

theorem storeTake_keeps (o : Nat) (s : State) : Keeps [.store] s (storeTake o s) := by
  unfold storeTake
  repeat' first
    | with_reducible exact Keeps.refl ..
    | extract_lets
    | ((with_reducible apply Keeps.step ?_ (State.modArb_keeps ..) ?_); on_goal 2 => decide)
    | with_reducible apply Keeps.ite
    | split
    | (dsimp +zetaDelta only; split)
    | ((with_reducible apply Keeps.upd ?_); any_goals first | exact Or.inl (by decide) | exact Or.inr (Eq.refl _) | exact Or.inr (Or.inl ⟨by decide, Eq.refl _⟩) | exact Or.inr (Or.inr (Or.inl ⟨by decide, Eq.refl _⟩)) | exact Or.inr (Or.inr (Or.inr (Eq.refl _))))

theorem State.writePage_keeps (w : W) (s : State) : Keeps [.store] s (State.writePage w s) := by
  unfold State.writePage
  repeat' first
    | with_reducible exact Keeps.refl ..
    | extract_lets
    | ((with_reducible apply Keeps.step ?_ (State.storeCfgErr_keeps ..) ?_); on_goal 2 => decide)
    | with_reducible apply Keeps.ite
    | split
    | (dsimp +zetaDelta only; split)
    | ((with_reducible apply Keeps.upd ?_); any_goals first | exact Or.inl (by decide) | exact Or.inr (Eq.refl _) | exact Or.inr (Or.inl ⟨by decide, Eq.refl _⟩) | exact Or.inr (Or.inr (Or.inl ⟨by decide, Eq.refl _⟩)) | exact Or.inr (Or.inr (Or.inr (Eq.refl _))))

theorem storeWrite_keeps (o : Nat) (w : W) (s : State) : Keeps [.ch, .store] s (storeWrite o w s) := by
  unfold storeWrite
  repeat' first
    | with_reducible exact Keeps.refl ..
    | extract_lets
    | ((with_reducible apply Keeps.step ?_ (State.writePage_keeps ..) ?_); on_goal 2 => decide)
    | ((with_reducible apply Keeps.step ?_ (State.modArb_keeps ..) ?_); on_goal 2 => decide)
    | ((with_reducible apply Keeps.step ?_ (State.writeCapCfg_keeps ..) ?_); on_goal 2 => decide)
    | ((with_reducible apply Keeps.step ?_ (State.writeCapRd_keeps ..) ?_); on_goal 2 => decide)
    | with_reducible apply Keeps.ite
    | split
    | (dsimp +zetaDelta only; split)
    | ((with_reducible apply Keeps.upd ?_); any_goals first | exact Or.inl (by decide) | exact Or.inr (Eq.refl _) | exact Or.inr (Or.inl ⟨by decide, Eq.refl _⟩) | exact Or.inr (Or.inr (Or.inl ⟨by decide, Eq.refl _⟩)) | exact Or.inr (Or.inr (Or.inr (Eq.refl _))))

theorem eicTake_keeps (m : Master) (o : Nat) (s : State) : Keeps [.eic] s (eicTake m o s) := by
  unfold eicTake
  repeat' first
    | with_reducible exact Keeps.refl ..
    | extract_lets
    | ((with_reducible apply Keeps.step ?_ (State.modGrp_keeps ..) ?_); on_goal 2 => decide)
    | ((with_reducible apply Keeps.step ?_ (State.modTgt_keeps ..) ?_); on_goal 2 => decide)
    | with_reducible apply Keeps.ite

theorem State.writeMsix_keeps (v : Fin 32) (k : Nat) (w : W) (s : State) : Keeps [.eic] s (State.writeMsix v k w s) := by
  unfold State.writeMsix
  repeat' first
    | with_reducible exact Keeps.refl ..
    | extract_lets
    | ((with_reducible apply Keeps.step ?_ (State.msixUnmask_keeps ..) ?_); on_goal 2 => decide)
    | with_reducible apply Keeps.ite
    | split
    | (dsimp +zetaDelta only; split)
    | ((with_reducible apply Keeps.upd ?_); any_goals first | exact Or.inl (by decide) | exact Or.inr (Eq.refl _) | exact Or.inr (Or.inl ⟨by decide, Eq.refl _⟩) | exact Or.inr (Or.inr (Or.inl ⟨by decide, Eq.refl _⟩)) | exact Or.inr (Or.inr (Or.inr (Eq.refl _))))

theorem tgtWrite_keeps (m : Master) (t : Tgt) (k : Nat) (w : W) (s : State) : Keeps [.eic] s (tgtWrite m t k w s) := by
  unfold tgtWrite
  repeat' first
    | with_reducible exact Keeps.refl ..
    | extract_lets
    | ((with_reducible apply Keeps.step ?_ (State.writeTgt_keeps ..) ?_); on_goal 2 => decide)
    | ((with_reducible apply Keeps.step ?_ (State.eoi_keeps ..) ?_); on_goal 2 => decide)
    | ((with_reducible apply Keeps.step ?_ (State.modTgt_keeps ..) ?_); on_goal 2 => decide)
    | ((with_reducible apply Keeps.step ?_ (State.ownErr_keeps ..) ?_); on_goal 2 => decide)
    | with_reducible apply Keeps.ite
    | split

theorem eicWrite_keeps (m : Master) (o : Nat) (w : W) (s : State) : Keeps [.eic, .mbx, .fw, .health, .sur, .free] s (eicWrite m o w s) := by
  unfold eicWrite
  repeat' first
    | with_reducible exact Keeps.refl ..
    | extract_lets
    | ((with_reducible apply Keeps.step ?_ (State.writeGrp_keeps ..) ?_); on_goal 2 => decide)
    | ((with_reducible apply Keeps.step ?_ (State.clearPend_keeps ..) ?_); on_goal 2 => decide)
    | ((with_reducible apply Keeps.step ?_ (State.writePset_keeps ..) ?_); on_goal 2 => decide)
    | ((with_reducible apply Keeps.step ?_ (tgtWrite_keeps ..) ?_); on_goal 2 => decide)
    | ((with_reducible apply Keeps.step ?_ (State.writeSrc_keeps ..) ?_); on_goal 2 => decide)
    | ((with_reducible apply Keeps.step ?_ (State.writeMsix_keeps ..) ?_); on_goal 2 => decide)
    | with_reducible apply Keeps.ite
    | split
    | (dsimp +zetaDelta only; split)
    | ((with_reducible apply Keeps.upd ?_); any_goals first | exact Or.inl (by decide) | exact Or.inr (Eq.refl _) | exact Or.inr (Or.inl ⟨by decide, Eq.refl _⟩) | exact Or.inr (Or.inr (Or.inl ⟨by decide, Eq.refl _⟩)) | exact Or.inr (Or.inr (Or.inr (Eq.refl _))))

theorem State.ring_keeps (m : Master) (b : Mbx) (w : W) (s : State) : Keeps [.mbx, .fw] s (State.ring m b w s) := by
  unfold State.ring
  repeat' first
    | with_reducible exact Keeps.refl ..
    | extract_lets
    | ((with_reducible apply Keeps.step ?_ (State.doorbell_keeps ..) ?_); on_goal 2 => decide)
    | ((with_reducible apply Keeps.step ?_ (State.noticeAck_keeps ..) ?_); on_goal 2 => decide)
    | with_reducible apply Keeps.ite
    | split

theorem mbxWrite_keeps (m : Master) (o : Nat) (w : W) (s : State) : Keeps [.mbx, .fw] s (mbxWrite m o w s) := by
  unfold mbxWrite
  repeat' first
    | with_reducible exact Keeps.refl ..
    | extract_lets
    | ((with_reducible apply Keeps.step ?_ (State.lockWrite_keeps ..) ?_); on_goal 2 => decide)
    | ((with_reducible apply Keeps.step ?_ (State.postWrite_keeps ..) ?_); on_goal 2 => decide)
    | ((with_reducible apply Keeps.step ?_ (State.ring_keeps ..) ?_); on_goal 2 => decide)
    | ((with_reducible apply Keeps.step ?_ (State.modMbx_keeps ..) ?_); on_goal 2 => decide)
    | with_reducible apply Keeps.ite
    | split

theorem State.writeMask_keeps (m : Master) (o : Nat) (f : Abort → Abort) (s : State) : Keeps [.eic, .mbx, .abort, .fw, .health, .sur, .free] s (State.writeMask m o f s) := by
  unfold State.writeMask
  repeat' first
    | with_reducible exact Keeps.refl ..
    | extract_lets
    | ((with_reducible apply Keeps.step ?_ (State.watchViol_keeps ..) ?_); on_goal 2 => decide)
    | with_reducible apply Keeps.ite
    | split
    | ((with_reducible apply Keeps.upd ?_); any_goals first | exact Or.inl (by decide) | exact Or.inr (Eq.refl _) | exact Or.inr (Or.inl ⟨by decide, Eq.refl _⟩) | exact Or.inr (Or.inr (Or.inl ⟨by decide, Eq.refl _⟩)) | exact Or.inr (Or.inr (Or.inr (Eq.refl _))))

theorem abortWrite_keeps (m : Master) (o : Nat) (w : W) (s : State) : Keeps [.guar, .ch, .axis, .cal, .pod, .mem, .store, .eic, .mbx, .abort, .fw, .health, .pcie, .sur, .free] s (abortWrite m o w s) := by
  unfold abortWrite
  repeat' first
    | with_reducible exact Keeps.refl ..
    | extract_lets
    | ((with_reducible apply Keeps.step ?_ (State.writeAbortCtrl_keeps ..) ?_); on_goal 2 => decide)
    | ((with_reducible apply Keeps.step ?_ (State.writeMask_keeps ..) ?_); on_goal 2 => decide)
    | with_reducible apply Keeps.ite
    | split
    | (dsimp +zetaDelta only; split)
    | ((with_reducible apply Keeps.upd ?_); any_goals first | exact Or.inl (by decide) | exact Or.inr (Eq.refl _) | exact Or.inr (Or.inl ⟨by decide, Eq.refl _⟩) | exact Or.inr (Or.inr (Or.inl ⟨by decide, Eq.refl _⟩)) | exact Or.inr (Or.inr (Or.inr (Eq.refl _))))

theorem surTake_keeps (o : Nat) (s : State) : Keeps [.sur] s (surTake o s) := by
  unfold surTake
  repeat' first
    | with_reducible exact Keeps.refl ..
    | extract_lets
    | with_reducible apply Keeps.ite
    | split
    | (dsimp +zetaDelta only; split)
    | ((with_reducible apply Keeps.upd ?_); any_goals first | exact Or.inl (by decide) | exact Or.inr (Eq.refl _) | exact Or.inr (Or.inl ⟨by decide, Eq.refl _⟩) | exact Or.inr (Or.inr (Or.inl ⟨by decide, Eq.refl _⟩)) | exact Or.inr (Or.inr (Or.inr (Eq.refl _))))

theorem State.writeAlarm_keeps (w : W) (s : State) : Keeps [.sur, .free] s (State.writeAlarm w s) := by
  unfold State.writeAlarm
  repeat' first
    | with_reducible exact Keeps.refl ..
    | extract_lets
    | ((with_reducible apply Keeps.step ?_ (State.used_keeps ..) ?_); on_goal 2 => decide)
    | with_reducible apply Keeps.ite
    | split
    | (dsimp +zetaDelta only; split)
    | ((with_reducible apply Keeps.upd ?_); any_goals first | exact Or.inl (by decide) | exact Or.inr (Eq.refl _) | exact Or.inr (Or.inl ⟨by decide, Eq.refl _⟩) | exact Or.inr (Or.inr (Or.inl ⟨by decide, Eq.refl _⟩)) | exact Or.inr (Or.inr (Or.inr (Eq.refl _))))

theorem surWrite_keeps (o : Nat) (w : W) (s : State) : Keeps [.sur, .free] s (surWrite o w s) := by
  unfold surWrite
  repeat' first
    | with_reducible exact Keeps.refl ..
    | extract_lets
    | ((with_reducible apply Keeps.step ?_ (State.writeAlarm_keeps ..) ?_); on_goal 2 => decide)
    | ((with_reducible apply Keeps.step ?_ (State.writeAtb_keeps ..) ?_); on_goal 2 => decide)
    | with_reducible apply Keeps.ite
    | split
    | (dsimp +zetaDelta only; split)
    | ((with_reducible apply Keeps.upd ?_); any_goals first | exact Or.inl (by decide) | exact Or.inr (Eq.refl _) | exact Or.inr (Or.inl ⟨by decide, Eq.refl _⟩) | exact Or.inr (Or.inr (Or.inl ⟨by decide, Eq.refl _⟩)) | exact Or.inr (Or.inr (Or.inr (Eq.refl _))))

theorem busTake_keeps (m : Master) (a : Nat) (s : State) : Keeps [.time, .ch, .axis, .cal, .pod, .store, .eic, .abort, .health, .adc, .sur, .free] s (busTake m a s) := by
  unfold busTake
  repeat' first
    | with_reducible exact Keeps.refl ..
    | extract_lets
    | ((with_reducible apply Keeps.step ?_ (globalTake_keeps ..) ?_); on_goal 2 => decide)
    | ((with_reducible apply Keeps.step ?_ (eicTake_keeps ..) ?_); on_goal 2 => decide)
    | ((with_reducible apply Keeps.step ?_ (chanTake_keeps ..) ?_); on_goal 2 => decide)
    | ((with_reducible apply Keeps.step ?_ (axisTake_keeps ..) ?_); on_goal 2 => decide)
    | ((with_reducible apply Keeps.step ?_ (adcTake_keeps ..) ?_); on_goal 2 => decide)
    | ((with_reducible apply Keeps.step ?_ (podTake_keeps ..) ?_); on_goal 2 => decide)
    | ((with_reducible apply Keeps.step ?_ (storeTake_keeps ..) ?_); on_goal 2 => decide)
    | ((with_reducible apply Keeps.step ?_ (surTake_keeps ..) ?_); on_goal 2 => decide)
    | with_reducible apply Keeps.ite
    | split
    | (dsimp +zetaDelta only; split)
    | ((with_reducible apply Keeps.upd ?_); any_goals first | exact Or.inl (by decide) | exact Or.inr (Eq.refl _) | exact Or.inr (Or.inl ⟨by decide, Eq.refl _⟩) | exact Or.inr (Or.inr (Or.inl ⟨by decide, Eq.refl _⟩)) | exact Or.inr (Or.inr (Or.inr (Eq.refl _))))

theorem busSettle_keeps (a : Nat) (s : State) : Keeps [.ch, .pod, .free] s (busSettle a s) := by
  unfold busSettle
  repeat' first
    | with_reducible exact Keeps.refl ..
    | extract_lets
    | ((with_reducible apply Keeps.step ?_ (State.chNow_keeps ..) ?_); on_goal 2 => decide)
    | with_reducible apply Keeps.ite
    | split

theorem State.plainRead_keeps (m : Master) (a : Nat) (s : State) : Keeps [.time, .master, .ch, .axis, .cal, .pod, .store, .eic, .abort, .health, .adc, .sur, .free] s (State.plainRead m a s) := by
  unfold State.plainRead
  repeat' first
    | with_reducible exact Keeps.refl ..
    | extract_lets
    | ((with_reducible apply Keeps.step ?_ (busSettle_keeps ..) ?_); on_goal 2 => decide)
    | ((with_reducible apply Keeps.step ?_ (State.lowRead_keeps ..) ?_); on_goal 2 => decide)
    | ((with_reducible apply Keeps.step ?_ (busTake_keeps ..) ?_); on_goal 2 => decide)
    | ((with_reducible apply Keeps.step ?_ (State.highRead_keeps ..) ?_); on_goal 2 => decide)
    | ((with_reducible apply Keeps.step ?_ (State.ret_keeps ..) ?_); on_goal 2 => decide)
    | with_reducible apply Keeps.ite
    | split

theorem State.busRead_keeps (m : Master) (addr : Nat) (s : State) : Keeps [.time, .master, .ch, .axis, .cal, .pod, .store, .eic, .mbx, .abort, .fw, .health, .adc, .sur, .free] s (State.busRead m addr s) := by
  unfold State.busRead
  repeat' first
    | with_reducible exact Keeps.refl ..
    | extract_lets
    | ((with_reducible apply Keeps.step ?_ (State.watchViol_keeps ..) ?_); on_goal 2 => decide)
    | ((with_reducible apply Keeps.step ?_ (State.ret_keeps ..) ?_); on_goal 2 => decide)
    | ((with_reducible apply Keeps.step ?_ (State.lockRead_keeps ..) ?_); on_goal 2 => decide)
    | ((with_reducible apply Keeps.step ?_ (State.plainRead_keeps ..) ?_); on_goal 2 => decide)
    | ((with_reducible apply Keeps.step ?_ (State.claim_keeps ..) ?_); on_goal 2 => decide)
    | ((with_reducible apply Keeps.step ?_ (State.capPop_keeps ..) ?_); on_goal 2 => decide)
    | ((with_reducible apply Keeps.step ?_ (State.rxfPop_keeps ..) ?_); on_goal 2 => decide)
    | ((with_reducible apply Keeps.step ?_ (State.adcRead_keeps ..) ?_); on_goal 2 => decide)
    | with_reducible apply Keeps.ite
    | split

theorem State.plainWrite_keeps (m : Master) (a : Nat) (w : W) (s : State) : Keeps [.time, .master, .guar, .ch, .axis, .cal, .pod, .mem, .store, .eic, .mbx, .abort, .fw, .health, .pcie, .adc, .sur, .pwr, .boot, .free] s (State.plainWrite m a w s) := by
  unfold State.plainWrite
  repeat' first
    | with_reducible exact Keeps.refl ..
    | extract_lets
    | ((with_reducible apply Keeps.step ?_ (State.watchViol_keeps ..) ?_); on_goal 2 => decide)
    | ((with_reducible apply Keeps.step ?_ (globalWrite_keeps ..) ?_); on_goal 2 => decide)
    | ((with_reducible apply Keeps.step ?_ (mbxWrite_keeps ..) ?_); on_goal 2 => decide)
    | ((with_reducible apply Keeps.step ?_ (abortWrite_keeps ..) ?_); on_goal 2 => decide)
    | ((with_reducible apply Keeps.step ?_ (eicWrite_keeps ..) ?_); on_goal 2 => decide)
    | ((with_reducible apply Keeps.step ?_ (chanWrite_keeps ..) ?_); on_goal 2 => decide)
    | ((with_reducible apply Keeps.step ?_ (State.writeAxis_keeps ..) ?_); on_goal 2 => decide)
    | ((with_reducible apply Keeps.step ?_ (adcWrite_keeps ..) ?_); on_goal 2 => decide)
    | ((with_reducible apply Keeps.step ?_ (podWrite_keeps ..) ?_); on_goal 2 => decide)
    | ((with_reducible apply Keeps.step ?_ (storeWrite_keeps ..) ?_); on_goal 2 => decide)
    | ((with_reducible apply Keeps.step ?_ (surWrite_keeps ..) ?_); on_goal 2 => decide)
    | with_reducible apply Keeps.ite
    | split

theorem State.busWrite_keeps (m : Master) (addr : Nat) (w : W) (be : BitVec 4) (s : State) : Keeps [.time, .master, .guar, .ch, .axis, .cal, .pod, .mem, .store, .eic, .mbx, .abort, .fw, .health, .pcie, .adc, .sur, .pwr, .boot, .free] s (State.busWrite m addr w be s) := by
  unfold State.busWrite
  repeat' first
    | with_reducible exact Keeps.refl ..
    | extract_lets
    | ((with_reducible apply Keeps.step ?_ (State.hsum_keeps ..) ?_); on_goal 2 => decide)
    | ((with_reducible apply Keeps.step ?_ (State.plainWrite_keeps ..) ?_); on_goal 2 => decide)
    | with_reducible apply Keeps.ite

theorem State.wideRead_keeps (a : Nat) (s : State) : Keeps [.time, .master, .ch, .axis, .cal, .pod, .store, .eic, .mbx, .abort, .fw, .health, .adc, .sur, .free] s (State.wideRead a s) := by
  unfold State.wideRead
  repeat' first
    | with_reducible exact Keeps.refl ..
    | extract_lets
    | ((with_reducible apply Keeps.step ?_ (State.busRead_keeps ..) ?_); on_goal 2 => decide)
    | ((with_reducible apply Keeps.step ?_ (State.modMaster_keeps ..) ?_); on_goal 2 => decide)

theorem State.fwInfo_keeps (b : CmdMbx) (_body : List Byte) (s : State) : Keeps [.mbx] s (State.fwInfo b _body s) := by
  unfold State.fwInfo
  repeat' first
    | with_reducible exact Keeps.refl ..
    | extract_lets
    | ((with_reducible apply Keeps.step ?_ (State.answer_keeps ..) ?_); on_goal 2 => decide)

theorem State.healthQuery_keeps (b : CmdMbx) (_body : List Byte) (s : State) : Keeps [.mbx, .free] s (State.healthQuery b _body s) := by
  unfold State.healthQuery
  repeat' first
    | with_reducible exact Keeps.refl ..
    | extract_lets
    | ((with_reducible apply Keeps.step ?_ (State.answer_keeps ..) ?_); on_goal 2 => decide)
    | ((with_reducible apply Keeps.step ?_ (State.used_keeps ..) ?_); on_goal 2 => decide)

theorem State.chQuery_keeps (b : CmdMbx) (body : List Byte) (s : State) : Keeps [.ch, .pod, .mbx, .free] s (State.chQuery b body s) := by
  unfold State.chQuery
  repeat' first
    | with_reducible exact Keeps.refl ..
    | extract_lets
    | ((with_reducible apply Keeps.step ?_ (State.chNow_keeps ..) ?_); on_goal 2 => decide)
    | ((with_reducible apply Keeps.step ?_ (State.answer_keeps ..) ?_); on_goal 2 => decide)
    | with_reducible apply Keeps.ite
    | split

theorem Keeps.writePairs {l : List Part} (r : PairRules) (k : ∀ o v u, Keeps l u (r.write o v u)) (ps : List (Nat × W)) (s : State) :
    Keeps l s (writePairs r ps s) := by
  unfold Machine.writePairs
  exact Keeps.forAll _ (fun a u => k _ _ u) _ (Keeps.forAll _ (fun a u => k _ _ u) _ (Keeps.refl l s))

theorem Keeps.pairsCmd {l : List Part} (r : PairRules) (k : ∀ o v u, Keeps l u (r.write o v u)) (hm : ∀ p ∈ [Part.mbx], p ∈ l) (b : CmdMbx) (o : Nat)
    (body : List Byte) (s : State) : Keeps l s (State.pairsCmd r b o body s) := by
  unfold State.pairsCmd
  extract_lets n
  split
  · exact (State.answer_keeps ..).mono hm
  · split
    · exact (State.answer_keeps ..).mono hm
    · exact (Keeps.writePairs r k _ s).step (State.answer_keeps ..) hm

theorem State.chConfig_keeps (b : CmdMbx) (body : List Byte) (s : State) : Keeps [.master, .guar, .ch, .pod, .mbx, .sur, .free] s (State.chConfig b body s) := by
  unfold State.chConfig
  extract_lets c
  split
  · exact Keeps.pairsCmd _ (fun o v u => (chanWrite_keeps ..).mono (by decide)) (by decide) ..
  · exact (State.answer_keeps ..).mono (by decide)

theorem Keeps.axPairs {l : List Part} (rules : Ax → PairRules) (k : ∀ x o v u, Keeps l u ((rules x).write o v u)) (hm : ∀ p ∈ [Part.mbx], p ∈ l)
    (b : CmdMbx) (body : List Byte) (s : State) : Keeps l s (State.axPairs rules b body s) := by
  unfold State.axPairs
  extract_lets a
  split
  · exact Keeps.pairsCmd _ (k _) hm ..
  · exact (State.answer_keeps ..).mono hm

theorem State.pipLoad_keeps (b : CmdMbx) (body : List Byte) (s : State) : Keeps [.ch, .pod, .mbx] s (State.pipLoad b body s) := by
  unfold State.pipLoad
  repeat' first
    | with_reducible exact Keeps.refl ..
    | extract_lets
    | ((with_reducible apply Keeps.step ?_ (State.answer_keeps ..) ?_); on_goal 2 => decide)
    | ((with_reducible apply Keeps.step ?_ (State.pipNow_keeps ..) ?_); on_goal 2 => decide)
    | ((with_reducible apply Keeps.step ?_ (State.modPip_keeps ..) ?_); on_goal 2 => decide)
    | with_reducible apply Keeps.ite
    | split

theorem State.pipSwap_keeps (b : CmdMbx) (body : List Byte) (s : State) : Keeps [.ch, .pod, .mbx] s (State.pipSwap b body s) := by
  unfold State.pipSwap
  repeat' first
    | with_reducible exact Keeps.refl ..
    | extract_lets
    | ((with_reducible refine Keeps.forAll _ ?_ _ ?_); on_goal 1 => intro _ _)
    | ((with_reducible apply Keeps.step ?_ (State.pipNow_keeps ..) ?_); on_goal 2 => decide)
    | ((with_reducible apply Keeps.step ?_ (State.modPip_keeps ..) ?_); on_goal 2 => decide)
    | ((with_reducible apply Keeps.step ?_ (State.answer_keeps ..) ?_); on_goal 2 => decide)

theorem State.burstRead_keeps (a : Nat) (r : State × List Byte) : Keeps [.time, .master, .ch, .axis, .cal, .pod, .store, .eic, .mbx, .abort, .fw, .health, .adc, .sur, .free] r.1 (State.burstRead a r).1 := by
  unfold State.burstRead
  exact State.busRead_keeps ..

theorem burstReads_keeps : ∀ (l : List Nat) (r : State × List Byte), Keeps [.time, .master, .ch, .axis, .cal, .pod, .store, .eic, .mbx, .abort, .fw, .health, .adc, .sur, .free] r.1 (l.foldl (fun r x => State.burstRead x r) r).1
  | [], r => Keeps.refl _ r.1
  | a :: l, r => (State.burstRead_keeps a r).trans (burstReads_keeps l (State.burstRead a r))

theorem State.qspiRead_keeps (a n : Nat) (late : List Nat) (s : State) : Keeps [.time, .master, .ch, .axis, .cal, .pod, .store, .eic, .mbx, .abort, .fw, .health, .pcie, .adc, .sur, .pwr, .free] s (State.qspiRead a n late s) := by
  unfold State.qspiRead
  split
  · exact ((State.qspiOut_keeps ..).mono (by decide)).step (State.wakeIf_keeps ..) (by decide)
  split
  · extract_lets as closed t u
    split
    · refine Keeps.when ?_ _ _ ?_
      · exact ((State.winRead_keeps ..).mono (by decide)).step (State.qspiOut_keeps ..) (by decide)
      · intro v
        apply Keeps.upd (Keeps.refl _ v) <;> first | exact Or.inl (by decide) | exact Or.inr (Eq.refl _) | exact Or.inr (Or.inl ⟨by decide, Eq.refl _⟩) | exact Or.inr (Or.inr (Or.inl ⟨by decide, Eq.refl _⟩)) | exact Or.inr (Or.inr (Or.inr (Eq.refl _)))
    · apply Keeps.upd (t := forAll closed State.autoWake s) (Keeps.forAll _ (fun g v => (State.autoWake_keeps ..).mono (by decide)) _ (Keeps.refl _ s)) <;> first | exact Or.inl (by decide) | exact Or.inr (Eq.refl _) | exact Or.inr (Or.inl ⟨by decide, Eq.refl _⟩) | exact Or.inr (Or.inr (Or.inl ⟨by decide, Eq.refl _⟩)) | exact Or.inr (Or.inr (Or.inr (Eq.refl _)))
  · have h := burstReads_keeps (burstAddrs a n) (s, [])
    revert h
    generalize List.foldl (fun r x => State.burstRead x r) (s, []) (burstAddrs a n) = x
    intro h
    obtain ⟨t, bs⟩ := x
    exact (h.mono (by decide)).step (State.qspiOut_keeps ..) (by decide)

theorem State.burstWrite_keeps (a : Nat) (bs : List Byte) (s : State) : Keeps [.time, .master, .guar, .ch, .axis, .cal, .pod, .mem, .store, .eic, .mbx, .abort, .fw, .health, .pcie, .adc, .sur, .pwr, .boot, .free] s (State.burstWrite a bs s) := by
  unfold State.burstWrite
  repeat' first
    | with_reducible exact Keeps.refl ..
    | extract_lets
    | ((with_reducible apply Keeps.when ?_ _ _ ?_); on_goal 2 => intro _)
    | ((with_reducible refine Keeps.forAll _ ?_ _ ?_); on_goal 1 => intro _ _)
    | ((with_reducible apply Keeps.step ?_ (State.busWrite_keeps ..) ?_); on_goal 2 => decide)
    | ((with_reducible apply Keeps.step ?_ (State.hsum_keeps ..) ?_); on_goal 2 => decide)

theorem State.qspiWriteNow_keeps (a : Nat) (bs : List Byte) (s : State) : Keeps [.time, .master, .guar, .ch, .axis, .cal, .pod, .mem, .store, .eic, .mbx, .abort, .fw, .health, .pcie, .adc, .sur, .pwr, .boot, .free] s (State.qspiWriteNow a bs s) := by
  unfold State.qspiWriteNow
  repeat' first
    | with_reducible exact Keeps.refl ..
    | extract_lets
    | ((with_reducible apply Keeps.step ?_ (State.winWrite_keeps ..) ?_); on_goal 2 => decide)
    | ((with_reducible apply Keeps.step ?_ (State.burstWrite_keeps ..) ?_); on_goal 2 => decide)
    | with_reducible apply Keeps.ite

theorem State.qspiWrite_keeps (row : Instr) (a : Nat) (bs : List Byte) (s : State) : Keeps [.time, .master, .guar, .ch, .axis, .cal, .pod, .mem, .store, .eic, .mbx, .abort, .fw, .health, .pcie, .adc, .sur, .pwr, .boot, .free] s (State.qspiWrite row a bs s) := by
  unfold State.qspiWrite
  repeat' first
    | with_reducible exact Keeps.refl ..
    | extract_lets
    | ((with_reducible refine Keeps.forAll _ ?_ _ ?_); on_goal 1 => intro _ _)
    | ((with_reducible apply Keeps.step ?_ (State.wakeIf_keeps ..) ?_); on_goal 2 => decide)
    | ((with_reducible apply Keeps.step ?_ (State.qspiWriteNow_keeps ..) ?_); on_goal 2 => decide)
    | ((with_reducible apply Keeps.step ?_ (State.autoWake_keeps ..) ?_); on_goal 2 => decide)
    | with_reducible apply Keeps.ite
    | split
    | (dsimp +zetaDelta only; split)
    | ((with_reducible apply Keeps.upd ?_); any_goals first | exact Or.inl (by decide) | exact Or.inr (Eq.refl _) | exact Or.inr (Or.inl ⟨by decide, Eq.refl _⟩) | exact Or.inr (Or.inr (Or.inl ⟨by decide, Eq.refl _⟩)) | exact Or.inr (Or.inr (Or.inr (Eq.refl _))))

theorem rowNow_keeps (i : Instr) (s : State) : Keeps [.time, .master, .guar, .ch, .axis, .cal, .pod, .mem, .store, .eic, .mbx, .abort, .fw, .health, .pcie, .adc, .sur, .pwr, .boot, .free] s (rowNow i s) := by
  unfold rowNow
  split
  · exact (State.busWrite_keeps ..).mono (by decide)
  · exact (State.busWrite_keeps ..).mono (by decide)
  · exact (State.busWrite_keeps ..).mono (by decide)
  · exact (State.guarClear_keeps ..).mono (by decide)
  · exact (State.busRead_keeps ..).mono (by decide)
  · exact (State.busRead_keeps ..).mono (by decide)
  · exact (State.busRead_keeps ..).mono (by decide)
  · exact (State.wideRead_keeps ..).mono (by decide)
  · exact (State.commitTop_keeps ..).mono (by decide)
  · exact (State.hostCommit_keeps ..).mono (by decide)
  · exact (State.advCommit_keeps ..).mono (by decide)
  · exact (State.capPop_keeps ..).mono (by decide)
  · exact (State.rxfPop_keeps ..).mono (by decide)
  · exact (State.speedRead_keeps ..).mono (by decide)
  · exact (State.writePset_keeps ..).mono (by decide)
  · exact (State.clearPend_keeps ..).mono (by decide)
  · exact (State.claim_keeps ..).mono (by decide)
  · exact (State.eoi_keeps ..).mono (by decide)
  · exact (State.writeSrc_keeps ..).mono (by decide)
  · exact (State.groupLock_keeps ..).mono (by decide)
  · exact (State.writeAbortCtrl_keeps ..).mono (by decide)
  · exact (State.writeAbortCtrl_keeps ..).mono (by decide)
  · exact (State.adcRead_keeps ..).mono (by decide)
  · exact (State.lockRead_keeps ..).mono (by decide)
  · exact (State.lockWrite_keeps ..).mono (by decide)
  · exact (State.postWrite_keeps ..).mono (by decide)
  · exact (State.doorbell_keeps ..).mono (by decide)
  · exact (State.noticeAck_keeps ..).mono (by decide)
  · exact (State.bootLoad_keeps ..).mono (by decide)
  · exact (State.bootFlash_keeps ..).mono (by decide)
  · exact (State.config_keeps ..).mono (by decide)
  · exact (State.winAccess_keeps ..).mono (by decide)
  · exact (State.qspiWriteNow_keeps ..).mono (by decide)
  · exact (State.qspiWriteNow_keeps ..).mono (by decide)
  · exact Keeps.refl _ s

theorem serveHeld_keeps : ∀ (l : List Instr) (s : State), Keeps [.time, .master, .guar, .ch, .axis, .cal, .pod, .mem, .store, .eic, .mbx, .abort, .fw, .health, .pcie, .adc, .sur, .pwr, .boot, .free] s (serveHeld l s)
  | [], s => Keeps.refl _ s
  | x :: r, s => by
    have ih := serveHeld_keeps r
    unfold serveHeld
    extract_lets closed
    split
    · exact Keeps.trans (Keeps.trans ((Keeps.setStore s _ (by exact rfl)).mono (by decide)) (rowNow_keeps x _)) (ih _)
    · exact Keeps.forAll _ (fun g v => (State.autoWake_keeps ..).mono (by decide)) _ (Keeps.refl _ s)

theorem serveHeldQ_keeps : ∀ (l : List Instr) (s : State), Keeps [.time, .master, .guar, .ch, .axis, .cal, .pod, .mem, .store, .eic, .mbx, .abort, .fw, .health, .pcie, .adc, .sur, .pwr, .boot, .free] s (serveHeldQ l s)
  | [], s => Keeps.refl _ s
  | x :: r, s => by
    have ih := serveHeldQ_keeps r
    unfold serveHeldQ
    extract_lets closed
    split
    · exact Keeps.trans (Keeps.trans ((Keeps.setStore s _ (by exact rfl)).mono (by decide)) (rowNow_keeps x _)) (ih _)
    · exact Keeps.forAll _ (fun g v => (State.autoWake_keeps ..).mono (by decide)) _ (Keeps.refl _ s)

theorem State.serve_keeps (s : State) : Keeps [.time, .master, .guar, .ch, .axis, .cal, .pod, .mem, .store, .eic, .mbx, .abort, .fw, .health, .pcie, .adc, .sur, .pwr, .boot, .free] s (State.serve s) := by
  unfold State.serve
  repeat' first
    | with_reducible exact Keeps.refl ..
    | extract_lets
    | ((with_reducible apply Keeps.step ?_ (serveHeld_keeps ..) ?_); on_goal 2 => decide)
    | ((with_reducible apply Keeps.step ?_ (serveHeldQ_keeps ..) ?_); on_goal 2 => decide)

theorem State.rowAtRun_keeps (i : Instr) (s : State) : Keeps [.time, .master, .guar, .ch, .axis, .cal, .pod, .mem, .store, .eic, .mbx, .abort, .fw, .health, .pcie, .adc, .sur, .pwr, .boot, .free] s (State.rowAtRun i s) := by
  unfold State.rowAtRun
  split
  · exact (State.hostAccess_keeps ..).mono (by decide)
  · exact (State.config_keeps ..).mono (by decide)
  · exact Keeps.behindBar2 _ _ (Keeps.refl _ s) (by decide) (fun u => rowNow_keeps ..)

theorem State.runReached_keeps (s : State) : Keeps [.time, .master, .guar, .ch, .axis, .cal, .pod, .mem, .store, .eic, .mbx, .abort, .fw, .health, .pcie, .adc, .sur, .pwr, .boot, .free] s (State.runReached s) := by
  unfold State.runReached
  extract_lets t l
  have ht : Keeps [.time, .master, .guar, .ch, .axis, .cal, .pod, .mem, .store, .eic, .mbx, .abort, .fw, .health, .pcie, .adc, .sur, .pwr, .boot, .free] s t := ((State.toRun_keeps s).mono (by decide)).step (State.serve_keeps ..) (by decide)
  refine Keeps.forAll _ (fun i u => State.rowAtRun_keeps ..) _ ?_
  apply Keeps.upd ht <;> first | exact Or.inl (by decide) | exact Or.inr (Eq.refl _) | exact Or.inr (Or.inl ⟨by decide, Eq.refl _⟩) | exact Or.inr (Or.inr (Or.inl ⟨by decide, Eq.refl _⟩)) | exact Or.inr (Or.inr (Or.inr (Eq.refl _)))

end Sys2Proof.Machine
end

