-- ==== Sys2Proof/Laws/FrameExec.lean ====
section
/-!
SUPPORT. Every command answers, and what each leaves alone (`Keeps`).
-/
namespace Sys2Proof.Machine
-- One script is tried on every goal of this file, so on some goals a part of it has nothing to do.
set_option linter.unusedTactic false
set_option linter.unreachableTactic false

theorem execCntStart_keeps (n : Ch) (s : State) : ∃ s' : State, execCntStart n s = .next s' ∧ Keeps [.ch] s s' :=
  ⟨_, rfl, State.cntStart_keeps ..⟩

theorem execCntStop_keeps (n : Ch) (s : State) : ∃ s' : State, execCntStop n s = .next s' ∧ Keeps [.ch, .free] s s' :=
  ⟨_, rfl, State.cntStop_keeps ..⟩

theorem execCntClear_keeps (n : Ch) (s : State) : ∃ s' : State, execCntClear n s = .next s' ∧ Keeps [.ch, .free] s s' := by
  unfold execCntClear
  refine ⟨_, rfl, ?_⟩
  all_goals
    repeat' first
      | with_reducible exact Keeps.refl ..
      | extract_lets
      | ((with_reducible apply Keeps.step ?_ (State.cntClear_keeps ..) ?_); on_goal 2 => decide)
      | ((with_reducible apply Keeps.step ?_ (State.countNow_keeps ..) ?_); on_goal 2 => decide)
      | with_reducible apply Keeps.ite
      | split
      | (dsimp +zetaDelta only; split)

theorem execCntLoad_keeps (n : Ch) (s : State) : ∃ s' : State, execCntLoad n s = .next s' ∧ Keeps [.ch, .free] s s' := by
  unfold execCntLoad
  refine ⟨_, rfl, ?_⟩
  all_goals
    repeat' first
      | with_reducible exact Keeps.refl ..
      | extract_lets
      | ((with_reducible apply Keeps.step ?_ (State.cntLoad_keeps ..) ?_); on_goal 2 => decide)
      | ((with_reducible apply Keeps.step ?_ (State.countNow_keeps ..) ?_); on_goal 2 => decide)
      | with_reducible apply Keeps.ite
      | split
      | (dsimp +zetaDelta only; split)

theorem execCounterStep_keeps (n : Ch) (s : State) : ∃ s' : State, execCounterStep n s = .next s' ∧ Keeps [.ch, .free] s s' :=
  ⟨_, rfl, State.countNow_keeps ..⟩

theorem execTopCommit_keeps (m : Master) (n : Ch) (w : W) (s : State) : ∃ s' : State, execTopCommit m n w s = .next s' ∧ Keeps [.ch, .store, .pcie, .pwr, .free] s s' := by
  unfold execTopCommit
  refine ⟨_, rfl, ?_⟩
  all_goals
    repeat' first
      | with_reducible exact Keeps.refl ..
      | extract_lets
      | ((with_reducible refine Keeps.access _ _ _ ?_ ?_ ?_); (on_goal 2 => decide); on_goal 2 => intro _)
      | ((with_reducible apply Keeps.step ?_ (State.commitTop_keeps ..) ?_); on_goal 2 => decide)
      | with_reducible apply Keeps.ite
      | split
      | (dsimp +zetaDelta only; split)

theorem execCmpDisarm_keeps (n : Ch) (mask : BitVec 4) (s : State) : ∃ s' : State, execCmpDisarm n mask s = .next s' ∧ Keeps [.guar, .ch, .free] s s' :=
  ⟨_, rfl, State.hostDisarms_keeps ..⟩

theorem execCmpCommit_keeps (m : Master) (n : Ch) (u : Unit4) (w : W) (s : State) : ∃ s' : State, execCmpCommit m n u w s = .next s' ∧ Keeps [.guar, .ch, .pod, .store, .pcie, .pwr, .free] s s' := by
  unfold execCmpCommit
  refine ⟨_, rfl, ?_⟩
  all_goals
    repeat' first
      | with_reducible exact Keeps.refl ..
      | extract_lets
      | ((with_reducible refine Keeps.access _ _ _ ?_ ?_ ?_); (on_goal 2 => decide); on_goal 2 => intro _)
      | ((with_reducible apply Keeps.step ?_ (State.hostCommit_keeps ..) ?_); on_goal 2 => decide)
      | with_reducible apply Keeps.ite
      | split
      | (dsimp +zetaDelta only; split)

theorem execCmpRearm_keeps (n : Ch) (u : Unit4) (s : State) : ∃ s' : State, execCmpRearm n u s = .next s' ∧ Keeps [.guar, .ch, .pod, .free] s s' :=
  ⟨_, rfl, State.rearm_keeps ..⟩

theorem execCmpMatch_keeps (n : Ch) (s : State) : ∃ s' : State, execCmpMatch n s = .next s' ∧ Keeps [.ch, .pod, .free] s s' := by
  unfold execCmpMatch
  refine ⟨_, rfl, ?_⟩
  all_goals
    repeat' first
      | with_reducible exact Keeps.refl ..
      | extract_lets
      | ((with_reducible apply Keeps.step ?_ (State.applyMatches_keeps ..) ?_); on_goal 2 => decide)
      | with_reducible apply Keeps.ite
      | split
      | (dsimp +zetaDelta only; split)

theorem execPulseEnd_keeps (n : Ch) (s : State) : ∃ s' : State, execPulseEnd n s = .next s' ∧ Keeps [.ch, .pod, .free] s s' := by
  unfold execPulseEnd
  split <;> refine ⟨_, rfl, ?_⟩
  all_goals
    repeat' first
      | with_reducible exact Keeps.refl ..
      | extract_lets
      | ((with_reducible apply Keeps.when ?_ _ _ ?_); on_goal 2 => intro _)
      | ((with_reducible apply Keeps.step ?_ (State.trainEdge_keeps ..) ?_); on_goal 2 => decide)
      | with_reducible apply Keeps.ite
      | split
      | (dsimp +zetaDelta only; split)

theorem execBurstEdge_keeps (n : Ch) (s : State) : ∃ s' : State, execBurstEdge n s = .next s' ∧ Keeps [.ch, .pod, .free] s s' := by
  unfold execBurstEdge
  split <;> refine ⟨_, rfl, ?_⟩
  all_goals
    repeat' first
      | with_reducible exact Keeps.refl ..
      | extract_lets
      | ((with_reducible apply Keeps.when ?_ _ _ ?_); on_goal 2 => intro _)
      | ((with_reducible apply Keeps.step ?_ (State.trainEdge_keeps ..) ?_); on_goal 2 => decide)
      | with_reducible apply Keeps.ite
      | split
      | (dsimp +zetaDelta only; split)

theorem execOutForceSet_keeps (n : Ch) (s : State) : ∃ s' : State, execOutForceSet n s = .next s' ∧ Keeps [.guar, .ch] s s' :=
  ⟨_, rfl, State.force_keeps ..⟩

theorem execOutForceClr_keeps (n : Ch) (s : State) : ∃ s' : State, execOutForceClr n s = .next s' ∧ Keeps [.guar, .ch] s s' :=
  ⟨_, rfl, State.force_keeps ..⟩

theorem execOutForceTog_keeps (n : Ch) (s : State) : ∃ s' : State, execOutForceTog n s = .next s' ∧ Keeps [.guar, .ch] s s' :=
  ⟨_, rfl, State.force_keeps ..⟩

theorem execAdvCommit_keeps (m : Master) (n : Ch) (w : W) (s : State) : ∃ s' : State, execAdvCommit m n w s = .next s' ∧ Keeps [.ch, .pod, .store, .pcie, .sur, .pwr] s s' := by
  unfold execAdvCommit
  refine ⟨_, rfl, ?_⟩
  all_goals
    repeat' first
      | with_reducible exact Keeps.refl ..
      | extract_lets
      | ((with_reducible refine Keeps.access _ _ _ ?_ ?_ ?_); (on_goal 2 => decide); on_goal 2 => intro _)
      | ((with_reducible apply Keeps.step ?_ (State.advCommit_keeps ..) ?_); on_goal 2 => decide)
      | with_reducible apply Keeps.ite
      | split
      | (dsimp +zetaDelta only; split)

theorem execAdvEpochReached_keeps (n : Ch) (s : State) : ∃ s' : State, execAdvEpochReached n s = .next s' ∧ Keeps [.ch] s s' :=
  ⟨_, rfl, State.advNow_keeps ..⟩

theorem execDriveChangeApply_keeps (n : Ch) (s : State) : ∃ s' : State, execDriveChangeApply n s = .next s' ∧ Keeps [.ch] s s' := by
  unfold execDriveChangeApply
  refine ⟨_, rfl, ?_⟩
  all_goals
    repeat' first
      | with_reducible exact Keeps.refl ..
      | extract_lets
      | ((with_reducible apply Keeps.step ?_ (State.modCh_keeps ..) ?_); on_goal 2 => decide)
      | with_reducible apply Keeps.ite
      | split
      | (dsimp +zetaDelta only; split)

theorem execCapPop_keeps (m : Master) (n : Ch) (s : State) : ∃ s' : State, execCapPop m n s = .next s' ∧ Keeps [.master, .ch, .pod, .store, .pcie, .pwr] s s' := by
  unfold execCapPop
  refine ⟨_, rfl, ?_⟩
  all_goals
    repeat' first
      | with_reducible exact Keeps.refl ..
      | extract_lets
      | ((with_reducible refine Keeps.access _ _ _ ?_ ?_ ?_); (on_goal 2 => decide); on_goal 2 => intro _)
      | ((with_reducible apply Keeps.step ?_ (State.capPop_keeps ..) ?_); on_goal 2 => decide)
      | with_reducible apply Keeps.ite
      | split
      | (dsimp +zetaDelta only; split)

theorem execInputCrossing_keeps (p : InPin) (level : Bool) (frac : Fin 32) (s : State) : ∃ s' : State, execInputCrossing p level frac s = .next s' ∧ Keeps [.ch, .pod, .health, .free] s s' := by
  unfold execInputCrossing
  extract_lets
  split
  on_goal 2 => (extract_lets; split)
  all_goals refine ⟨_, rfl, ?_⟩
  all_goals
    repeat' first
      | with_reducible exact Keeps.refl ..
      | extract_lets
      | ((with_reducible apply Keeps.when ?_ _ _ ?_); on_goal 2 => intro _)
      | ((with_reducible apply Keeps.step ?_ (State.modCh_keeps ..) ?_); on_goal 2 => decide)
      | ((with_reducible apply Keeps.step ?_ (State.crossPin_keeps ..) ?_); on_goal 2 => decide)
      | ((with_reducible apply Keeps.step ?_ (State.acceptSpb_keeps ..) ?_); on_goal 2 => decide)
      | ((with_reducible apply Keeps.step ?_ (State.modHealth_keeps ..) ?_); on_goal 2 => decide)
      | with_reducible apply Keeps.ite
      | split
      | (dsimp +zetaDelta only; split)

theorem execFilterAccept_keeps (p : InPin) (s : State) : ∃ s' : State, execFilterAccept p s = .next s' ∧ Keeps [.ch, .pod, .health, .free] s s' := by
  unfold execFilterAccept
  split
  on_goal 1 => split
  all_goals refine ⟨_, rfl, ?_⟩
  all_goals
    repeat' first
      | with_reducible exact Keeps.refl ..
      | extract_lets
      | ((with_reducible apply Keeps.step ?_ (State.acceptPin_keeps ..) ?_); on_goal 2 => decide)
      | ((with_reducible apply Keeps.step ?_ (State.acceptSpb_keeps ..) ?_); on_goal 2 => decide)
      | with_reducible apply Keeps.ite
      | split
      | (dsimp +zetaDelta only; split)

theorem execRfxArm_keeps (n : Ch) (s : State) : ∃ s' : State, execRfxArm n s = .next s' ∧ Keeps [.ch] s s' := by
  unfold execRfxArm
  refine ⟨_, rfl, ?_⟩
  all_goals
    repeat' first
      | with_reducible exact Keeps.refl ..
      | extract_lets
      | ((with_reducible apply Keeps.step ?_ (State.rfxArm_keeps ..) ?_); on_goal 2 => decide)
      | ((with_reducible apply Keeps.step ?_ (State.settleRfx_keeps ..) ?_); on_goal 2 => decide)
      | with_reducible apply Keeps.ite
      | split
      | (dsimp +zetaDelta only; split)

theorem execRfxDisarm_keeps (n : Ch) (s : State) : ∃ s' : State, execRfxDisarm n s = .next s' ∧ Keeps [.ch] s s' := by
  unfold execRfxDisarm
  refine ⟨_, rfl, ?_⟩
  all_goals
    repeat' first
      | with_reducible exact Keeps.refl ..
      | extract_lets
      | ((with_reducible apply Keeps.step ?_ (State.rfxDisarm_keeps ..) ?_); on_goal 2 => decide)
      | ((with_reducible apply Keeps.step ?_ (State.settleRfx_keeps ..) ?_); on_goal 2 => decide)
      | with_reducible apply Keeps.ite
      | split
      | (dsimp +zetaDelta only; split)

theorem execReflexInputChange_keeps (n : Ch) (s : State) : ∃ s' : State, execReflexInputChange n s = .next s' ∧ Keeps [.ch] s s' :=
  ⟨_, rfl, State.reflexInput_keeps ..⟩

theorem execReadbackMismatchTick_keeps (n : Ch) (s : State) : ∃ s' : State, execReadbackMismatchTick n s = .next s' ∧ Keeps [.ch] s s' := by
  unfold execReadbackMismatchTick
  extract_lets
  split <;> refine ⟨_, rfl, ?_⟩
  all_goals
    repeat' first
      | with_reducible exact Keeps.refl ..
      | extract_lets
      | ((with_reducible apply Keeps.step ?_ (State.modCh_keeps ..) ?_); on_goal 2 => decide)
      | with_reducible apply Keeps.ite
      | split
      | (dsimp +zetaDelta only; split)

theorem execReadbackInterval_keeps (n : Ch) (s : State) : ∃ s' : State, execReadbackInterval n s = .next s' ∧ Keeps [.ch] s s' := by
  unfold execReadbackInterval
  refine ⟨_, rfl, ?_⟩
  all_goals
    repeat' first
      | with_reducible exact Keeps.refl ..
      | extract_lets
      | ((with_reducible apply Keeps.step ?_ (State.modCh_keeps ..) ?_); on_goal 2 => decide)
      | with_reducible apply Keeps.ite
      | split
      | (dsimp +zetaDelta only; split)

theorem execPipWaitcyc_keeps (n : Ch) (s : State) : ∃ s' : State, execPipWaitcyc n s = .next s' ∧ Keeps [.ch, .pod] s s' :=
  ⟨_, rfl, State.pipRun_keeps ..⟩

theorem execPipWaitpin_keeps (n : Ch) (s : State) : ∃ s' : State, execPipWaitpin n s = .next s' ∧ Keeps [.ch, .pod] s s' :=
  ⟨_, rfl, State.pipRun_keeps ..⟩

theorem execPipWaitflag_keeps (n : Ch) (s : State) : ∃ s' : State, execPipWaitflag n s = .next s' ∧ Keeps [.ch, .pod] s s' :=
  ⟨_, rfl, State.pipRun_keeps ..⟩

theorem execPipWaitirq_keeps (n : Ch) (s : State) : ∃ s' : State, execPipWaitirq n s = .next s' ∧ Keeps [.ch, .pod] s s' :=
  ⟨_, rfl, State.pipRun_keeps ..⟩

theorem execPipOut_keeps (n : Ch) (s : State) : ∃ s' : State, execPipOut n s = .next s' ∧ Keeps [.ch, .pod] s s' :=
  ⟨_, rfl, State.pipRun_keeps ..⟩

theorem execPipIn_keeps (n : Ch) (s : State) : ∃ s' : State, execPipIn n s = .next s' ∧ Keeps [.ch, .pod] s s' :=
  ⟨_, rfl, State.pipRun_keeps ..⟩

theorem execPipSet_keeps (n : Ch) (s : State) : ∃ s' : State, execPipSet n s = .next s' ∧ Keeps [.ch, .pod] s s' :=
  ⟨_, rfl, State.pipRun_keeps ..⟩

theorem execPipJmp_keeps (n : Ch) (s : State) : ∃ s' : State, execPipJmp n s = .next s' ∧ Keeps [.ch, .pod] s s' :=
  ⟨_, rfl, State.pipRun_keeps ..⟩

theorem execPipLoop_keeps (n : Ch) (s : State) : ∃ s' : State, execPipLoop n s = .next s' ∧ Keeps [.ch, .pod] s s' :=
  ⟨_, rfl, State.pipRun_keeps ..⟩

theorem execPipCmp_keeps (n : Ch) (s : State) : ∃ s' : State, execPipCmp n s = .next s' ∧ Keeps [.ch, .pod] s s' :=
  ⟨_, rfl, State.pipRun_keeps ..⟩

theorem execPipPush_keeps (n : Ch) (s : State) : ∃ s' : State, execPipPush n s = .next s' ∧ Keeps [.ch, .pod] s s' :=
  ⟨_, rfl, State.pipRun_keeps ..⟩

theorem execPipPull_keeps (n : Ch) (s : State) : ∃ s' : State, execPipPull n s = .next s' ∧ Keeps [.ch, .pod] s s' :=
  ⟨_, rfl, State.pipRun_keeps ..⟩

theorem execPipIrq_keeps (n : Ch) (s : State) : ∃ s' : State, execPipIrq n s = .next s' ∧ Keeps [.ch, .pod] s s' :=
  ⟨_, rfl, State.pipRun_keeps ..⟩

theorem execPipMov_keeps (n : Ch) (s : State) : ∃ s' : State, execPipMov n s = .next s' ∧ Keeps [.ch, .pod] s s' :=
  ⟨_, rfl, State.pipRun_keeps ..⟩

theorem execPipSwapInstr_keeps (n : Ch) (s : State) : ∃ s' : State, execPipSwapInstr n s = .next s' ∧ Keeps [.ch, .pod] s s' :=
  ⟨_, rfl, State.pipRun_keeps ..⟩

theorem execPipStopInstr_keeps (n : Ch) (s : State) : ∃ s' : State, execPipStopInstr n s = .next s' ∧ Keeps [.ch, .pod] s s' :=
  ⟨_, rfl, State.pipRun_keeps ..⟩

theorem execPipReservedOp_keeps (n : Ch) (s : State) : ∃ s' : State, execPipReservedOp n s = .next s' ∧ Keeps [.ch, .pod] s s' := by
  unfold execPipReservedOp
  refine ⟨_, rfl, ?_⟩
  all_goals
    repeat' first
      | with_reducible exact Keeps.refl ..
      | extract_lets
      | ((with_reducible apply Keeps.step ?_ (State.pipNow_keeps ..) ?_); on_goal 2 => decide)
      | ((with_reducible apply Keeps.step ?_ (State.modPip_keeps ..) ?_); on_goal 2 => decide)
      | with_reducible apply Keeps.ite
      | split
      | (dsimp +zetaDelta only; split)

theorem execPipWaitComplete_keeps (n : Ch) (s : State) : ∃ s' : State, execPipWaitComplete n s = .next s' ∧ Keeps [.ch, .pod] s s' :=
  ⟨_, rfl, State.pipWaitComplete_keeps ..⟩

theorem execPipWaitTimeout_keeps (n : Ch) (s : State) : ∃ s' : State, execPipWaitTimeout n s = .next s' ∧ Keeps [.ch, .pod] s s' :=
  ⟨_, rfl, State.pipWaitTimeout_keeps ..⟩

theorem execPipStart_keeps (n : Ch) (entry : Fin 32) (s : State) : ∃ s' : State, execPipStart n entry s = .next s' ∧ Keeps [.ch, .pod] s s' := by
  unfold execPipStart
  refine ⟨_, rfl, ?_⟩
  all_goals
    repeat' first
      | with_reducible exact Keeps.refl ..
      | extract_lets
      | ((with_reducible apply Keeps.step ?_ (State.pipStartAt_keeps ..) ?_); on_goal 2 => decide)
      | ((with_reducible apply Keeps.step ?_ (State.pipNow_keeps ..) ?_); on_goal 2 => decide)
      | with_reducible apply Keeps.ite
      | split
      | (dsimp +zetaDelta only; split)

theorem execPipStop_keeps (n : Ch) (s : State) : ∃ s' : State, execPipStop n s = .next s' ∧ Keeps [.ch, .pod] s s' := by
  unfold execPipStop
  refine ⟨_, rfl, ?_⟩
  all_goals
    repeat' first
      | with_reducible exact Keeps.refl ..
      | extract_lets
      | ((with_reducible apply Keeps.step ?_ (State.modPip_keeps ..) ?_); on_goal 2 => decide)
      | ((with_reducible apply Keeps.step ?_ (State.pipNow_keeps ..) ?_); on_goal 2 => decide)
      | with_reducible apply Keeps.ite
      | split
      | (dsimp +zetaDelta only; split)

theorem execPipResume_keeps (n : Ch) (s : State) : ∃ s' : State, execPipResume n s = .next s' ∧ Keeps [.ch, .pod] s s' := by
  unfold execPipResume
  refine ⟨_, rfl, ?_⟩
  all_goals
    repeat' first
      | with_reducible exact Keeps.refl ..
      | extract_lets
      | ((with_reducible apply Keeps.step ?_ (State.pipResume_keeps ..) ?_); on_goal 2 => decide)
      | ((with_reducible apply Keeps.step ?_ (State.pipNow_keeps ..) ?_); on_goal 2 => decide)
      | with_reducible apply Keeps.ite
      | split
      | (dsimp +zetaDelta only; split)

theorem execPipCmdSwap_keeps (n : Ch) (s : State) : ∃ s' : State, execPipCmdSwap n s = .next s' ∧ Keeps [.ch, .pod] s s' := by
  unfold execPipCmdSwap
  refine ⟨_, rfl, ?_⟩
  all_goals
    repeat' first
      | with_reducible exact Keeps.refl ..
      | extract_lets
      | ((with_reducible apply Keeps.step ?_ (State.modPip_keeps ..) ?_); on_goal 2 => decide)
      | ((with_reducible apply Keeps.step ?_ (State.pipNow_keeps ..) ?_); on_goal 2 => decide)
      | with_reducible apply Keeps.ite
      | split
      | (dsimp +zetaDelta only; split)

theorem execPipCmdForce_keeps (n : Ch) (s : State) : ∃ s' : State, execPipCmdForce n s = .next s' ∧ Keeps [.ch, .pod] s s' := by
  unfold execPipCmdForce
  refine ⟨_, rfl, ?_⟩
  all_goals
    repeat' first
      | with_reducible exact Keeps.refl ..
      | extract_lets
      | ((with_reducible apply Keeps.step ?_ (State.modPip_keeps ..) ?_); on_goal 2 => decide)
      | ((with_reducible apply Keeps.step ?_ (State.pipNow_keeps ..) ?_); on_goal 2 => decide)
      | with_reducible apply Keeps.ite
      | split
      | (dsimp +zetaDelta only; split)

theorem execPipRelease_keeps (n : Ch) (s : State) : ∃ s' : State, execPipRelease n s = .next s' ∧ Keeps [.ch, .pod] s s' := by
  unfold execPipRelease
  refine ⟨_, rfl, ?_⟩
  all_goals
    repeat' first
      | with_reducible exact Keeps.refl ..
      | extract_lets
      | ((with_reducible apply Keeps.step ?_ (State.releaseTier_keeps ..) ?_); on_goal 2 => decide)
      | ((with_reducible apply Keeps.step ?_ (State.pipNow_keeps ..) ?_); on_goal 2 => decide)
      | with_reducible apply Keeps.ite
      | split
      | (dsimp +zetaDelta only; split)

theorem execPipKick_keeps (n : Ch) (s : State) : ∃ s' : State, execPipKick n s = .next s' ∧ Keeps [.ch] s s' := by
  unfold execPipKick
  refine ⟨_, rfl, ?_⟩
  all_goals
    repeat' first
      | with_reducible exact Keeps.refl ..
      | extract_lets
      | ((with_reducible apply Keeps.step ?_ (State.modPip_keeps ..) ?_); on_goal 2 => decide)
      | with_reducible apply Keeps.ite
      | split
      | (dsimp +zetaDelta only; split)

theorem execPipReset_keeps (n : Ch) (s : State) : ∃ s' : State, execPipReset n s = .next s' ∧ Keeps [.ch, .pod] s s' := by
  unfold execPipReset
  refine ⟨_, rfl, ?_⟩
  all_goals
    repeat' first
      | with_reducible exact Keeps.refl ..
      | extract_lets
      | ((with_reducible apply Keeps.step ?_ (State.modPip_keeps ..) ?_); on_goal 2 => decide)
      | ((with_reducible apply Keeps.step ?_ (State.pipNow_keeps ..) ?_); on_goal 2 => decide)
      | with_reducible apply Keeps.ite
      | split
      | (dsimp +zetaDelta only; split)

theorem execPipValidate_keeps (n : Ch) (mask : BitVec 2) (s : State) : ∃ s' : State, execPipValidate n mask s = .next s' ∧ Keeps [.ch] s s' := by
  unfold execPipValidate
  refine ⟨_, rfl, ?_⟩
  all_goals
    repeat' first
      | with_reducible exact Keeps.refl ..
      | extract_lets
      | ((with_reducible apply Keeps.step ?_ (State.modPip_keeps ..) ?_); on_goal 2 => decide)
      | with_reducible apply Keeps.ite
      | split
      | (dsimp +zetaDelta only; split)

theorem execTxfFlush_keeps (n : Ch) (s : State) : ∃ s' : State, execTxfFlush n s = .next s' ∧ Keeps [.ch, .pod] s s' := by
  unfold execTxfFlush
  refine ⟨_, rfl, ?_⟩
  all_goals
    repeat' first
      | with_reducible exact Keeps.refl ..
      | extract_lets
      | ((with_reducible apply Keeps.step ?_ (State.modPip_keeps ..) ?_); on_goal 2 => decide)
      | ((with_reducible apply Keeps.step ?_ (State.pipNow_keeps ..) ?_); on_goal 2 => decide)
      | with_reducible apply Keeps.ite
      | split
      | (dsimp +zetaDelta only; split)

theorem execRxfFlush_keeps (n : Ch) (s : State) : ∃ s' : State, execRxfFlush n s = .next s' ∧ Keeps [.ch, .pod] s s' := by
  unfold execRxfFlush
  refine ⟨_, rfl, ?_⟩
  all_goals
    repeat' first
      | with_reducible exact Keeps.refl ..
      | extract_lets
      | ((with_reducible apply Keeps.step ?_ (State.modPip_keeps ..) ?_); on_goal 2 => decide)
      | ((with_reducible apply Keeps.step ?_ (State.pipNow_keeps ..) ?_); on_goal 2 => decide)
      | with_reducible apply Keeps.ite
      | split
      | (dsimp +zetaDelta only; split)

theorem execPipPrgWrite_keeps (n : Ch) (bank : Bool) (i : Fin 32) (w : W) (s : State) : ∃ s' : State, execPipPrgWrite n bank i w s = .next s' ∧ Keeps [.ch, .pod] s s' := by
  unfold execPipPrgWrite
  refine ⟨_, rfl, ?_⟩
  all_goals
    repeat' first
      | with_reducible exact Keeps.refl ..
      | extract_lets
      | ((with_reducible apply Keeps.step ?_ (State.modPip_keeps ..) ?_); on_goal 2 => decide)
      | ((with_reducible apply Keeps.step ?_ (State.pipNow_keeps ..) ?_); on_goal 2 => decide)
      | with_reducible apply Keeps.ite
      | split
      | (dsimp +zetaDelta only; split)

theorem execPipCtrlWrite_keeps (n : Ch) (w : W) (s : State) : ∃ s' : State, execPipCtrlWrite n w s = .next s' ∧ Keeps [.ch, .pod] s s' :=
  ⟨_, rfl, State.writePipCtrl_keeps ..⟩

theorem execPipPinsWrite_keeps (n : Ch) (w : W) (s : State) : ∃ s' : State, execPipPinsWrite n w s = .next s' ∧ Keeps [.ch, .pod] s s' :=
  ⟨_, rfl, State.writePipPins_keeps ..⟩

theorem execPipSrWrite_keeps (n : Ch) (w : W) (s : State) : ∃ s' : State, execPipSrWrite n w s = .next s' ∧ Keeps [.ch, .pod] s s' := by
  unfold execPipSrWrite
  refine ⟨_, rfl, ?_⟩
  all_goals
    repeat' first
      | with_reducible exact Keeps.refl ..
      | extract_lets
      | ((with_reducible apply Keeps.step ?_ (State.modPip_keeps ..) ?_); on_goal 2 => decide)
      | ((with_reducible apply Keeps.step ?_ (State.pipNow_keeps ..) ?_); on_goal 2 => decide)
      | with_reducible apply Keeps.ite
      | split
      | (dsimp +zetaDelta only; split)

theorem execPipLcWrite_keeps (n : Ch) (w : W) (s : State) : ∃ s' : State, execPipLcWrite n w s = .next s' ∧ Keeps [.ch, .pod] s s' := by
  unfold execPipLcWrite
  refine ⟨_, rfl, ?_⟩
  all_goals
    repeat' first
      | with_reducible exact Keeps.refl ..
      | extract_lets
      | ((with_reducible apply Keeps.step ?_ (State.modPip_keeps ..) ?_); on_goal 2 => decide)
      | ((with_reducible apply Keeps.step ?_ (State.pipNow_keeps ..) ?_); on_goal 2 => decide)
      | with_reducible apply Keeps.ite
      | split
      | (dsimp +zetaDelta only; split)

theorem execTxfWrite_keeps (n : Ch) (w : W) (s : State) : ∃ s' : State, execTxfWrite n w s = .next s' ∧ Keeps [.ch, .pod] s s' := by
  unfold execTxfWrite
  refine ⟨_, rfl, ?_⟩
  all_goals
    repeat' first
      | with_reducible exact Keeps.refl ..
      | extract_lets
      | ((with_reducible apply Keeps.step ?_ (State.modPip_keeps ..) ?_); on_goal 2 => decide)
      | ((with_reducible apply Keeps.step ?_ (State.pipNow_keeps ..) ?_); on_goal 2 => decide)
      | with_reducible apply Keeps.ite
      | split
      | (dsimp +zetaDelta only; split)

theorem execRxfRead_keeps (m : Master) (n : Ch) (s : State) : ∃ s' : State, execRxfRead m n s = .next s' ∧ Keeps [.master, .ch, .pod, .store, .pcie, .pwr] s s' := by
  unfold execRxfRead
  refine ⟨_, rfl, ?_⟩
  all_goals
    repeat' first
      | with_reducible exact Keeps.refl ..
      | extract_lets
      | ((with_reducible refine Keeps.access _ _ _ ?_ ?_ ?_); (on_goal 2 => decide); on_goal 2 => intro _)
      | ((with_reducible apply Keeps.step ?_ (State.rxfPop_keeps ..) ?_); on_goal 2 => decide)
      | with_reducible apply Keeps.ite
      | split
      | (dsimp +zetaDelta only; split)

theorem execBacklogDrain_keeps (p : Pod) (s : State) : ∃ s' : State, execBacklogDrain p s = .next s' ∧ Keeps [.pod, .mem, .store, .pcie] s s' :=
  ⟨_, rfl, State.backlogDrain_keeps ..⟩

theorem execResRdWrite_keeps (p : Pod) (w : W) (s : State) : ∃ s' : State, execResRdWrite p w s = .next s' ∧ Keeps [.pod] s s' :=
  ⟨_, rfl, State.writeResRd_keeps ..⟩

theorem execAxisStopDetect_keeps (k : Ax) (s : State) : ∃ s' : State, execAxisStopDetect k s = .next s' ∧ Keeps [.guar, .ch, .axis, .cal, .pod] s s' :=
  ⟨_, rfl, State.axReeval_keeps ..⟩

theorem execLagDetect_keeps (k : Ax) (s : State) : ∃ s' : State, execLagDetect k s = .next s' ∧ Keeps [.guar, .ch, .axis, .cal, .pod] s s' :=
  ⟨_, rfl, State.axReeval_keeps ..⟩

theorem execCountWindowEnd_keeps (k : Ax) (s : State) : ∃ s' : State, execCountWindowEnd k s = .next s' ∧ Keeps [.guar, .ch, .axis, .cal, .pod, .free] s s' :=
  ⟨_, rfl, State.windowEnd_keeps ..⟩

theorem execSpeedRead_keeps (m : Master) (k : Ax) (s : State) : ∃ s' : State, execSpeedRead m k s = .next s' ∧ Keeps [.master, .axis, .store, .pcie, .pwr] s s' := by
  unfold execSpeedRead
  refine ⟨_, rfl, ?_⟩
  all_goals
    repeat' first
      | with_reducible exact Keeps.refl ..
      | extract_lets
      | ((with_reducible refine Keeps.access _ _ _ ?_ ?_ ?_); (on_goal 2 => decide); on_goal 2 => intro _)
      | ((with_reducible apply Keeps.step ?_ (State.speedRead_keeps ..) ?_); on_goal 2 => decide)
      | with_reducible apply Keeps.ite
      | split
      | (dsimp +zetaDelta only; split)

theorem execPosLoad_keeps (k : Ax) (s : State) : ∃ s' : State, execPosLoad k s = .next s' ∧ Keeps [.guar, .ch, .axis, .cal, .pod] s s' :=
  ⟨_, rfl, State.posLoad_keeps ..⟩

theorem execZArm_keeps (k : Ax) (s : State) : ∃ s' : State, execZArm k s = .next s' ∧ Keeps [.axis] s s' :=
  ⟨_, rfl, State.zArm_keeps ..⟩

theorem execPosCommit_keeps (k : Ax) (n : Ch) (s : State) : ∃ s' : State, execPosCommit k n s = .next s' ∧ Keeps [.guar, .ch, .axis, .cal, .pod] s s' :=
  ⟨_, rfl, State.posCommit_keeps ..⟩

theorem execEmulOutputEdge_keeps (k : Ax) (s : State) : ∃ s' : State, execEmulOutputEdge k s = .next s' ∧ Keeps [.ch, .axis] s s' :=
  ⟨_, rfl, State.emulEdge_keeps ..⟩

theorem execEmulEnable_keeps (k : Ax) (w : W) (s : State) : ∃ s' : State, execEmulEnable k w s = .next s' ∧ Keeps [.ch, .axis] s s' :=
  ⟨_, rfl, State.writeEmulCfg_keeps ..⟩

theorem execEmulRestart_keeps (k : Ax) (s : State) : ∃ s' : State, execEmulRestart k s = .next s' ∧ Keeps [.axis] s s' :=
  ⟨_, rfl, State.emulRestart_keeps ..⟩

theorem execAxisFilterAccept_keeps (k : Ax) (p : AxPin) (level : Bool) (lt : Nat) (s : State) : ∃ s' : State, execAxisFilterAccept k p level lt s = .next s' ∧ Keeps [.ch, .axis] s s' :=
  ⟨_, rfl, State.axAccept_keeps ..⟩

theorem execAxisEdge_keeps (k : Ax) (s : State) : ∃ s' : State, execAxisEdge k s = .next s' ∧ Keeps [.guar, .ch, .axis, .cal, .pod, .free] s s' :=
  ⟨_, rfl, State.axEdge_keeps ..⟩

theorem execCalWrite_keeps (b : CmdMbx) (s : State) : ∃ s' : State, execCalWrite b s = .next s' ∧ Keeps [.mbx] s s' := by
  unfold execCalWrite
  refine ⟨_, rfl, ?_⟩
  all_goals
    repeat' first
      | with_reducible exact Keeps.refl ..
      | extract_lets
      | ((with_reducible refine Keeps.command _ _ _ _ ?_); intro _ _)
      | ((with_reducible apply Keeps.step ?_ (State.calWrite_keeps ..) ?_); on_goal 2 => decide)
      | with_reducible apply Keeps.ite
      | split
      | (dsimp +zetaDelta only; split)

theorem execCalWriteDma_keeps (b : CmdMbx) (s : State) : ∃ s' : State, execCalWriteDma b s = .next s' ∧ Keeps [.mbx] s s' := by
  unfold execCalWriteDma
  refine ⟨_, rfl, ?_⟩
  all_goals
    repeat' first
      | with_reducible exact Keeps.refl ..
      | extract_lets
      | ((with_reducible refine Keeps.command _ _ _ _ ?_); intro _ _)
      | ((with_reducible apply Keeps.step ?_ (State.calWriteDma_keeps ..) ?_); on_goal 2 => decide)
      | with_reducible apply Keeps.ite
      | split
      | (dsimp +zetaDelta only; split)

theorem execCalRecordAccept_keeps (b : CmdMbx) (s : State) : ∃ s' : State, execCalRecordAccept b s = .next s' ∧ Keeps [.guar, .ch, .axis, .cal, .pod, .mbx, .free] s s' :=
  ⟨_, rfl, State.calAccept_keeps ..⟩

theorem execBucketBoundary_keeps (s : State) : ∃ s' : State, execBucketBoundary s = .next s' ∧ Keeps [.guar, .ch, .cal, .pod] s s' := by
  unfold execBucketBoundary
  refine ⟨_, rfl, ?_⟩
  all_goals
    repeat' first
      | with_reducible exact Keeps.refl ..
      | extract_lets
      | ((with_reducible apply Keeps.step ?_ (State.bucketBoundary_keeps ..) ?_); on_goal 2 => decide)
      | with_reducible apply Keeps.ite
      | split
      | (dsimp +zetaDelta only; split)

theorem execHorizonSet_keeps (b : CmdMbx) (s : State) : ∃ s' : State, execHorizonSet b s = .next s' ∧ Keeps [.cal, .mbx] s s' := by
  unfold execHorizonSet
  refine ⟨_, rfl, ?_⟩
  all_goals
    repeat' first
      | with_reducible exact Keeps.refl ..
      | extract_lets
      | ((with_reducible refine Keeps.command _ _ _ _ ?_); intro _ _)
      | ((with_reducible apply Keeps.step ?_ (State.horizonSet_keeps ..) ?_); on_goal 2 => decide)
      | with_reducible apply Keeps.ite
      | split
      | (dsimp +zetaDelta only; split)

theorem execHorizonTakeEffect_keeps (s : State) : ∃ s' : State, execHorizonTakeEffect s = .next s' ∧ Keeps [.guar, .ch, .cal, .pod] s s' := by
  unfold execHorizonTakeEffect
  refine ⟨_, rfl, ?_⟩
  all_goals
    repeat' first
      | with_reducible exact Keeps.refl ..
      | extract_lets
      | ((with_reducible apply Keeps.step ?_ (State.horizonTake_keeps ..) ?_); on_goal 2 => decide)
      | with_reducible apply Keeps.ite
      | split
      | (dsimp +zetaDelta only; split)

theorem execCalConfig_keeps (b : CmdMbx) (s : State) : ∃ s' : State, execCalConfig b s = .next s' ∧ Keeps [.cal, .store, .mbx] s s' := by
  unfold execCalConfig
  refine ⟨_, rfl, ?_⟩
  all_goals
    repeat' first
      | with_reducible exact Keeps.refl ..
      | extract_lets
      | ((with_reducible refine Keeps.command _ _ _ _ ?_); intro _ _)
      | ((with_reducible apply Keeps.step ?_ (State.calConfig_keeps ..) ?_); on_goal 2 => decide)
      | with_reducible apply Keeps.ite
      | split
      | (dsimp +zetaDelta only; split)

theorem execCalCancel_keeps (b : CmdMbx) (s : State) : ∃ s' : State, execCalCancel b s = .next s' ∧ Keeps [.cal, .pod, .mbx] s s' := by
  unfold execCalCancel
  refine ⟨_, rfl, ?_⟩
  all_goals
    repeat' first
      | with_reducible exact Keeps.refl ..
      | extract_lets
      | ((with_reducible refine Keeps.command _ _ _ _ ?_); intro _ _)
      | ((with_reducible apply Keeps.step ?_ (State.calCancel_keeps ..) ?_); on_goal 2 => decide)
      | with_reducible apply Keeps.ite
      | split
      | (dsimp +zetaDelta only; split)

theorem execArmFast_keeps (p : Pod) (f : Fetch) (s : State) : ∃ s' : State, execArmFast p f s = .next s' ∧ Keeps [.guar, .ch, .cal, .pod, .mem, .store, .mbx, .pcie, .sur, .free] s s' := by
  unfold execArmFast
  refine ⟨_, rfl, ?_⟩
  all_goals
    repeat' first
      | with_reducible exact Keeps.refl ..
      | extract_lets
      | ((with_reducible apply Keeps.step ?_ (State.armFast_keeps ..) ?_); on_goal 2 => decide)
      | ((with_reducible apply Keeps.step ?_ (State.dispatch_keeps ..) ?_); on_goal 2 => decide)
      | with_reducible apply Keeps.ite
      | split
      | (dsimp +zetaDelta only; split)

theorem execArmStage_keeps (p : Pod) (f : Fetch) (s : State) : ∃ s' : State, execArmStage p f s = .next s' ∧ Keeps [.ch, .pod, .mem, .store, .mbx, .pcie, .sur, .free] s s' := by
  unfold execArmStage
  refine ⟨_, rfl, ?_⟩
  all_goals
    repeat' first
      | with_reducible exact Keeps.refl ..
      | extract_lets
      | ((with_reducible apply Keeps.step ?_ (State.armStage_keeps ..) ?_); on_goal 2 => decide)
      | ((with_reducible apply Keeps.step ?_ (State.dispatch_keeps ..) ?_); on_goal 2 => decide)
      | with_reducible apply Keeps.ite
      | split
      | (dsimp +zetaDelta only; split)

theorem execRetire_keeps (p : Pod) (f : Fetch) (s : State) : ∃ s' : State, execRetire p f s = .next s' ∧ Keeps [.pod, .mem, .store, .pcie, .free] s s' := by
  unfold execRetire
  refine ⟨_, rfl, ?_⟩
  all_goals
    repeat' first
      | with_reducible exact Keeps.refl ..
      | extract_lets
      | ((with_reducible apply Keeps.step ?_ (State.retire_keeps ..) ?_); on_goal 2 => decide)
      | ((with_reducible apply Keeps.step ?_ (State.dispatch_keeps ..) ?_); on_goal 2 => decide)
      | with_reducible apply Keeps.ite
      | split
      | (dsimp +zetaDelta only; split)

theorem execMissedAtDue_keeps (p : Pod) (s : State) : ∃ s' : State, execMissedAtDue p s = .next s' ∧ Keeps [.cal, .pod, .mem, .store, .pcie] s s' :=
  ⟨_, rfl, State.missedAtDue_keeps ..⟩

theorem execCapSpill_keeps (p : Pod) (s : State) : ∃ s' : State, execCapSpill p s = .next s' ∧ Keeps [.ch, .pod, .mem, .store, .free] s s' := by
  unfold execCapSpill
  refine ⟨_, rfl, ?_⟩
  all_goals
    repeat' first
      | with_reducible exact Keeps.refl ..
      | extract_lets
      | ((with_reducible apply Keeps.step ?_ (State.capSpill_keeps ..) ?_); on_goal 2 => decide)
      | ((with_reducible apply Keeps.step ?_ (State.dispatch_keeps ..) ?_); on_goal 2 => decide)
      | with_reducible apply Keeps.ite
      | split
      | (dsimp +zetaDelta only; split)

theorem execPipXfer_keeps (n : Ch) (drain : Bool) (s : State) : ∃ s' : State, execPipXfer n drain s = .next s' ∧ Keeps [.ch, .pod, .mem, .store, .free] s s' := by
  unfold execPipXfer
  refine ⟨_, rfl, ?_⟩
  all_goals
    repeat' first
      | with_reducible exact Keeps.refl ..
      | extract_lets
      | ((with_reducible apply Keeps.step ?_ (State.pipXfer_keeps ..) ?_); on_goal 2 => decide)
      | ((with_reducible apply Keeps.step ?_ (State.dispatch_keeps ..) ?_); on_goal 2 => decide)
      | with_reducible apply Keeps.ite
      | split
      | (dsimp +zetaDelta only; split)

theorem execFeedWrWrite_keeps (n : Ch) (w : W) (s : State) : ∃ s' : State, execFeedWrWrite n w s = .next s' ∧ Keeps [.pod] s s' :=
  ⟨_, rfl, State.writeFeedWr_keeps ..⟩

theorem execDrnRdWrite_keeps (n : Ch) (w : W) (s : State) : ∃ s' : State, execDrnRdWrite n w s = .next s' ∧ Keeps [.pod] s s' :=
  ⟨_, rfl, State.writeDrnRd_keeps ..⟩

theorem execPline_keeps (p : Pod) (s : State) : ∃ s' : State, execPline p s = .next s' ∧ Keeps [.pod, .free] s s' := by
  unfold execPline
  refine ⟨_, rfl, ?_⟩
  all_goals
    repeat' first
      | with_reducible exact Keeps.refl ..
      | extract_lets
      | ((with_reducible apply Keeps.step ?_ (State.pline_keeps ..) ?_); on_goal 2 => decide)
      | ((with_reducible apply Keeps.step ?_ (State.dispatch_keeps ..) ?_); on_goal 2 => decide)
      | with_reducible apply Keeps.ite
      | split
      | (dsimp +zetaDelta only; split)

theorem execResultRingSet_keeps (b : CmdMbx) (s : State) : ∃ s' : State, execResultRingSet b s = .next s' ∧ Keeps [.pod, .mbx] s s' := by
  unfold execResultRingSet
  refine ⟨_, rfl, ?_⟩
  all_goals
    repeat' first
      | with_reducible exact Keeps.refl ..
      | extract_lets
      | ((with_reducible refine Keeps.command _ _ _ _ ?_); intro _ _)
      | ((with_reducible apply Keeps.step ?_ (State.resultRingSet_keeps ..) ?_); on_goal 2 => decide)
      | with_reducible apply Keeps.ite
      | split
      | (dsimp +zetaDelta only; split)

theorem execCfg_keeps (p : Pod) (f : Fetch) (s : State) : ∃ s' : State, execCfg p f s = .next s' ∧ Keeps [.pod, .mem, .store, .mbx, .pcie, .free] s s' := by
  unfold execCfg
  refine ⟨_, rfl, ?_⟩
  all_goals
    repeat' first
      | with_reducible exact Keeps.refl ..
      | extract_lets
      | ((with_reducible apply Keeps.step ?_ (State.cfgJob_keeps ..) ?_); on_goal 2 => decide)
      | ((with_reducible apply Keeps.step ?_ (State.dispatch_keeps ..) ?_); on_goal 2 => decide)
      | with_reducible apply Keeps.ite
      | split
      | (dsimp +zetaDelta only; split)

theorem execCsRepair_keeps (p : Pod) (a : Fin 4096) (s : State) : ∃ s' : State, execCsRepair p a s = .next s' ∧ Keeps [.pod] s s' := by
  unfold execCsRepair
  refine ⟨_, rfl, ?_⟩
  all_goals
    repeat' first
      | with_reducible exact Keeps.refl ..
      | extract_lets
      | ((with_reducible apply Keeps.step ?_ (State.modPod_keeps ..) ?_); on_goal 2 => decide)
      | with_reducible apply Keeps.ite
      | split
      | (dsimp +zetaDelta only; split)

theorem execCsBackgroundPass_keeps (p : Pod) (s : State) : ∃ s' : State, execCsBackgroundPass p s = .next s' ∧ Keeps [.pod] s s' :=
  ⟨_, rfl, State.modPod_keeps ..⟩

theorem execStoreAccess_keeps (bank : Fin 96) (reqs : List StoreReq) (s : State) : ∃ s' : State, execStoreAccess bank reqs s = .next s' ∧ Keeps [.cal, .pod, .mem, .store, .mbx, .health, .free] s s' :=
  ⟨_, rfl, State.storeAccess_keeps ..⟩

theorem execCeWriteback_keeps (a : Nat) (s : State) : ∃ s' : State, execCeWriteback a s = .next s' ∧ Keeps [.store] s s' := by
  unfold execCeWriteback
  refine ⟨_, rfl, ?_⟩
  all_goals
    repeat' first
      | with_reducible exact Keeps.refl ..
      | extract_lets
      | with_reducible apply Keeps.ite
      | split
      | (dsimp +zetaDelta only; split)
      | ((with_reducible apply Keeps.upd ?_); any_goals first | exact Or.inl (by decide) | exact Or.inr (Eq.refl _) | exact Or.inr (Or.inl ⟨by decide, Eq.refl _⟩) | exact Or.inr (Or.inr (Or.inl ⟨by decide, Eq.refl _⟩)) | exact Or.inr (Or.inr (Or.inr (Eq.refl _))))

theorem execScrubPassStart_keeps (found : List (Nat × Ecc)) (s : State) : ∃ s' : State, execScrubPassStart found s = .next s' ∧ Keeps [.cal, .mem, .store, .mbx, .health, .free] s s' := by
  unfold execScrubPassStart
  refine ⟨_, rfl, ?_⟩
  all_goals
    repeat' first
      | with_reducible exact Keeps.refl ..
      | extract_lets
      | ((with_reducible apply Keeps.step ?_ (State.scrubPass_keeps ..) ?_); on_goal 2 => decide)
      | with_reducible apply Keeps.ite
      | split
      | (dsimp +zetaDelta only; split)
      | ((with_reducible apply Keeps.upd ?_); any_goals first | exact Or.inl (by decide) | exact Or.inr (Eq.refl _) | exact Or.inr (Or.inl ⟨by decide, Eq.refl _⟩) | exact Or.inr (Or.inr (Or.inl ⟨by decide, Eq.refl _⟩)) | exact Or.inr (Or.inr (Or.inr (Eq.refl _))))

theorem execScrubPassDone_keeps (s : State) : ∃ s' : State, execScrubPassDone s = .next s' ∧ Keeps [.cal, .mem, .store, .mbx, .health, .free] s s' := by
  unfold execScrubPassDone
  refine ⟨_, rfl, ?_⟩
  all_goals
    repeat' first
      | with_reducible exact Keeps.refl ..
      | extract_lets
      | ((with_reducible apply Keeps.when ?_ _ _ ?_); on_goal 2 => intro _)
      | ((with_reducible apply Keeps.step ?_ (State.scrubPass_keeps ..) ?_); on_goal 2 => decide)
      | with_reducible apply Keeps.ite
      | split
      | (dsimp +zetaDelta only; split)
      | ((with_reducible apply Keeps.upd ?_); any_goals first | exact Or.inl (by decide) | exact Or.inr (Eq.refl _) | exact Or.inr (Or.inl ⟨by decide, Eq.refl _⟩) | exact Or.inr (Or.inr (Or.inl ⟨by decide, Eq.refl _⟩)) | exact Or.inr (Or.inr (Or.inr (Eq.refl _))))

theorem execStoreRetain_keeps (b : CmdMbx) (s : State) : ∃ s' : State, execStoreRetain b s = .next s' ∧ Keeps [.store, .mbx, .free] s s' := by
  unfold execStoreRetain
  refine ⟨_, rfl, ?_⟩
  all_goals
    repeat' first
      | with_reducible exact Keeps.refl ..
      | extract_lets
      | ((with_reducible refine Keeps.command _ _ _ _ ?_); intro _ _)
      | ((with_reducible apply Keeps.step ?_ (State.storeRetain_keeps ..) ?_); on_goal 2 => decide)
      | with_reducible apply Keeps.ite
      | split
      | (dsimp +zetaDelta only; split)

theorem execRetentionDone_keeps (g : Seg) (s : State) : ∃ s' : State, execRetentionDone g s = .next s' ∧ Keeps [.store, .mbx] s s' :=
  ⟨_, rfl, State.retentionDone_keeps ..⟩

theorem execSegmentAutoWake_keeps (m : Fin 25) (g : Seg) (s : State) : ∃ s' : State, execSegmentAutoWake m g s = .next s' ∧ Keeps [.store] s s' := by
  unfold execSegmentAutoWake
  refine ⟨_, rfl, ?_⟩
  all_goals
    repeat' first
      | with_reducible exact Keeps.refl ..
      | extract_lets
      | ((with_reducible apply Keeps.step ?_ (State.autoWake_keeps ..) ?_); on_goal 2 => decide)
      | with_reducible apply Keeps.ite
      | split
      | (dsimp +zetaDelta only; split)

theorem execCapRingRdWrite_keeps (p : Pod) (w : W) (s : State) : ∃ s' : State, execCapRingRdWrite p w s = .next s' ∧ Keeps [.ch, .store] s s' :=
  ⟨_, rfl, State.writeCapRd_keeps ..⟩

theorem execCapRingConfigWrite_keeps (p : Pod) (size : Bool) (w : W) (s : State) : ∃ s' : State, execCapRingConfigWrite p size w s = .next s' ∧ Keeps [.store] s s' :=
  ⟨_, rfl, State.writeCapCfg_keeps ..⟩

theorem execWatchRestart_keeps (b : CmdMbx) (s : State) : ∃ s' : State, execWatchRestart b s = .next s' ∧ Keeps [.eic, .mbx, .fw, .health, .sur, .free] s s' := by
  unfold execWatchRestart
  refine ⟨_, rfl, ?_⟩
  all_goals
    repeat' first
      | with_reducible exact Keeps.refl ..
      | extract_lets
      | ((with_reducible refine Keeps.command _ _ _ _ ?_); intro _ _)
      | ((with_reducible apply Keeps.step ?_ (State.watchRestart_keeps ..) ?_); on_goal 2 => decide)
      | with_reducible apply Keeps.ite
      | split
      | (dsimp +zetaDelta only; split)

theorem execWatchViolation_keeps (core : Fin 4) (store : Bool) (addr : Nat) (s : State) : ∃ s' : State, execWatchViolation core store addr s = .next s' ∧ Keeps [.eic, .mbx, .fw, .health, .sur, .free] s s' :=
  ⟨_, rfl, State.watchViol_keeps ..⟩

theorem execHeartbeatWrite_keeps (core : Fin 4) (s : State) : ∃ s' : State, execHeartbeatWrite core s = .next s' ∧ Keeps [.fw] s s' :=
  ⟨_, rfl, State.heartbeat_keeps ..⟩

theorem execHeartbeatTimeout_keeps (core : Fin 4) (s : State) : ∃ s' : State, execHeartbeatTimeout core s = .next s' ∧ Keeps [.eic, .mbx, .fw, .health, .sur, .free] s s' := by
  unfold execHeartbeatTimeout
  refine ⟨_, rfl, ?_⟩
  all_goals
    repeat' first
      | with_reducible exact Keeps.refl ..
      | extract_lets
      | ((with_reducible apply Keeps.step ?_ (State.restartBegin_keeps ..) ?_); on_goal 2 => decide)
      | with_reducible apply Keeps.ite
      | split
      | (dsimp +zetaDelta only; split)

theorem execWatchCoreFault_keeps (core : Fin 4) (s : State) : ∃ s' : State, execWatchCoreFault core s = .next s' ∧ Keeps [.eic, .mbx, .fw, .health, .sur, .free] s s' := by
  unfold execWatchCoreFault
  refine ⟨_, rfl, ?_⟩
  all_goals
    repeat' first
      | with_reducible exact Keeps.refl ..
      | extract_lets
      | ((with_reducible apply Keeps.step ?_ (State.restartBegin_keeps ..) ?_); on_goal 2 => decide)
      | with_reducible apply Keeps.ite
      | split
      | (dsimp +zetaDelta only; split)

theorem execCodeDigestCheck_keeps (ok flashOk : Bool) (s : State) : ∃ s' : State, execCodeDigestCheck ok flashOk s = .next s' ∧ Keeps [.fw, .health] s s' :=
  ⟨_, rfl, State.digestCheck_keeps ..⟩

theorem execRestartDelayEnd_keeps (s : State) : ∃ s' : State, execRestartDelayEnd s = .next s' ∧ Keeps [.fw] s s' := by
  unfold execRestartDelayEnd
  refine ⟨_, rfl, ?_⟩
  all_goals
    repeat' first
      | with_reducible exact Keeps.refl ..
      | extract_lets
      | with_reducible apply Keeps.ite
      | split
      | (dsimp +zetaDelta only; split)
      | ((with_reducible apply Keeps.upd ?_); any_goals first | exact Or.inl (by decide) | exact Or.inr (Eq.refl _) | exact Or.inr (Or.inl ⟨by decide, Eq.refl _⟩) | exact Or.inr (Or.inr (Or.inl ⟨by decide, Eq.refl _⟩)) | exact Or.inr (Or.inr (Or.inr (Eq.refl _))))

theorem execRestartComplete_keeps (s : State) : ∃ s' : State, execRestartComplete s = .next s' ∧ Keeps [.mbx, .fw, .health, .free] s s' := by
  unfold execRestartComplete
  refine ⟨_, rfl, ?_⟩
  all_goals
    repeat' first
      | with_reducible exact Keeps.refl ..
      | extract_lets
      | ((with_reducible apply Keeps.step ?_ (State.restartComplete_keeps ..) ?_); on_goal 2 => decide)
      | with_reducible apply Keeps.ite
      | split
      | (dsimp +zetaDelta only; split)

theorem execKeeperWatchdog_keeps (s : State) : ∃ s' : State, execKeeperWatchdog s = .next s' ∧ Keeps [.fw] s s' := by
  unfold execKeeperWatchdog
  refine ⟨_, rfl, ?_⟩
  all_goals
    repeat' first
      | with_reducible exact Keeps.refl ..
      | extract_lets
      | with_reducible apply Keeps.ite
      | split
      | (dsimp +zetaDelta only; split)
      | ((with_reducible apply Keeps.upd ?_); any_goals first | exact Or.inl (by decide) | exact Or.inr (Eq.refl _) | exact Or.inr (Or.inl ⟨by decide, Eq.refl _⟩) | exact Or.inr (Or.inr (Or.inl ⟨by decide, Eq.refl _⟩)) | exact Or.inr (Or.inr (Or.inr (Eq.refl _))))

theorem execBuoySelfTestDone_keeps (p : Pod) (pass : Bool) (s : State) : ∃ s' : State, execBuoySelfTestDone p pass s = .next s' ∧ Keeps [.pod, .health] s s' :=
  ⟨_, rfl, State.buoyTest_keeps ..⟩

theorem execShadowPeriodEnd_keeps (p : Pod) (s : State) : ∃ s' : State, execShadowPeriodEnd p s = .next s' ∧ Keeps [.health] s s' := by
  unfold execShadowPeriodEnd
  refine ⟨_, rfl, ?_⟩
  all_goals
    repeat' first
      | with_reducible exact Keeps.refl ..
      | extract_lets
      | ((with_reducible apply Keeps.step ?_ (State.shadowOn_keeps ..) ?_); on_goal 2 => decide)
      | ((with_reducible apply Keeps.step ?_ (State.modHealth_keeps ..) ?_); on_goal 2 => decide)
      | with_reducible apply Keeps.ite
      | split
      | (dsimp +zetaDelta only; split)

theorem execShadowMismatch_keeps (p : Pod) (output forced : Bool) (ts : Nat) (s : State) : ∃ s' : State, execShadowMismatch p output forced ts s = .next s' ∧ Keeps [.pod, .mbx, .health, .free] s s' :=
  ⟨_, rfl, State.shadowMismatch_keeps ..⟩

theorem execSubstStep_keeps (p : Pod) (s : State) : ∃ s' : State, execSubstStep p s = .next s' ∧ Keeps [.ch, .pod, .mbx, .health, .free] s s' := by
  unfold execSubstStep
  refine ⟨_, rfl, ?_⟩
  all_goals
    repeat' first
      | with_reducible exact Keeps.refl ..
      | extract_lets
      | ((with_reducible apply Keeps.step ?_ (State.substStep_keeps ..) ?_); on_goal 2 => decide)
      | ((with_reducible apply Keeps.step ?_ (State.dispatch_keeps ..) ?_); on_goal 2 => decide)
      | with_reducible apply Keeps.ite
      | split
      | (dsimp +zetaDelta only; split)

theorem execQuarantineTestDone_keeps (p : Pod) (pass : Bool) (s : State) : ∃ s' : State, execQuarantineTestDone p pass s = .next s' ∧ Keeps [.pod, .health] s s' :=
  ⟨_, rfl, State.quarantineDone_keeps ..⟩

theorem execTakeoverSpacingEnd_keeps (p : Pod) (s : State) : ∃ s' : State, execTakeoverSpacingEnd p s = .next s' ∧ Keeps [.health] s s' := by
  unfold execTakeoverSpacingEnd
  refine ⟨_, rfl, ?_⟩
  all_goals
    repeat' first
      | with_reducible exact Keeps.refl ..
      | extract_lets
      | ((with_reducible apply Keeps.step ?_ (State.shadowOn_keeps ..) ?_); on_goal 2 => decide)
      | ((with_reducible apply Keeps.step ?_ (State.modHealth_keeps ..) ?_); on_goal 2 => decide)
      | with_reducible apply Keeps.ite
      | split
      | (dsimp +zetaDelta only; split)

theorem execSpareMove_keeps (n : Ch) (s : State) : ∃ s' : State, execSpareMove n s = .next s' ∧ Keeps [.ch, .pod, .mbx, .health, .free] s s' :=
  ⟨_, rfl, State.spareMove_keeps ..⟩

theorem execSpareMoveBack_keeps (n : Ch) (s : State) : ∃ s' : State, execSpareMoveBack n s = .next s' ∧ Keeps [.ch, .pod, .mbx, .health, .free] s s' :=
  ⟨_, rfl, State.spareBack_keeps ..⟩

theorem execSubstPolicy_keeps (b : CmdMbx) (s : State) : ∃ s' : State, execSubstPolicy b s = .next s' ∧ Keeps [.mbx, .health] s s' := by
  unfold execSubstPolicy
  refine ⟨_, rfl, ?_⟩
  all_goals
    repeat' first
      | with_reducible exact Keeps.refl ..
      | extract_lets
      | ((with_reducible refine Keeps.command _ _ _ _ ?_); intro _ _)
      | ((with_reducible apply Keeps.step ?_ (State.substPolicy_keeps ..) ?_); on_goal 2 => decide)
      | with_reducible apply Keeps.ite
      | split
      | (dsimp +zetaDelta only; split)

theorem execLtXchkCorrect_keeps (a b : Nat) (s : State) : ∃ s' : State, execLtXchkCorrect a b s = .next s' ∧ Keeps [.time, .health] s s' := by
  unfold execLtXchkCorrect
  refine ⟨_, rfl, ?_⟩
  all_goals
    repeat' first
      | with_reducible exact Keeps.refl ..
      | extract_lets
      | with_reducible apply Keeps.ite
      | split
      | (dsimp +zetaDelta only; split)
      | ((with_reducible apply Keeps.upd ?_); any_goals first | exact Or.inl (by decide) | exact Or.inr (Eq.refl _) | exact Or.inr (Or.inl ⟨by decide, Eq.refl _⟩) | exact Or.inr (Or.inr (Or.inl ⟨by decide, Eq.refl _⟩)) | exact Or.inr (Or.inr (Or.inr (Eq.refl _))))

theorem execEicLineEdge_keeps (i : Src) (s : State) : ∃ s' : State, execEicLineEdge i s = .next s' ∧ Keeps [.eic] s s' :=
  ⟨_, rfl, State.lineEdge_keeps ..⟩

theorem execEicPsetWrite_keeps (m : Master) (g : Grp) (w : W) (s : State) : ∃ s' : State, execEicPsetWrite m g w s = .next s' ∧ Keeps [.store, .eic, .pcie, .pwr] s s' := by
  unfold execEicPsetWrite
  refine ⟨_, rfl, ?_⟩
  all_goals
    repeat' first
      | with_reducible exact Keeps.refl ..
      | extract_lets
      | ((with_reducible refine Keeps.access _ _ _ ?_ ?_ ?_); (on_goal 2 => decide); on_goal 2 => intro _)
      | ((with_reducible apply Keeps.step ?_ (State.writePset_keeps ..) ?_); on_goal 2 => decide)
      | with_reducible apply Keeps.ite
      | split
      | (dsimp +zetaDelta only; split)

theorem execEicPendClear_keeps (m : Master) (g : Grp) (w : W) (s : State) : ∃ s' : State, execEicPendClear m g w s = .next s' ∧ Keeps [.store, .eic, .pcie, .pwr] s s' := by
  unfold execEicPendClear
  refine ⟨_, rfl, ?_⟩
  all_goals
    repeat' first
      | with_reducible exact Keeps.refl ..
      | extract_lets
      | ((with_reducible refine Keeps.access _ _ _ ?_ ?_ ?_); (on_goal 2 => decide); on_goal 2 => intro _)
      | ((with_reducible apply Keeps.step ?_ (State.clearPend_keeps ..) ?_); on_goal 2 => decide)
      | with_reducible apply Keeps.ite
      | split
      | (dsimp +zetaDelta only; split)

theorem execClaim_keeps (reads : List (Master × Tgt)) (s : State) : ∃ s' : State, execClaim reads s = .next s' ∧ Keeps [.master, .store, .eic, .pcie, .pwr] s s' := by
  unfold execClaim
  exact ⟨_, rfl, (Keeps.forAll _ (fun a u => Keeps.access _ _ _ (Keeps.refl _ u) (by decide) (fun v => Keeps.refl _ v)) _ (Keeps.refl _ s)).step
    (State.claim_keeps ..) (by decide)⟩

theorem execEoi_keeps (m : Master) (t : Tgt) (s : State) : ∃ s' : State, execEoi m t s = .next s' ∧ Keeps [.store, .eic, .pcie, .pwr] s s' := by
  unfold execEoi
  refine ⟨_, rfl, ?_⟩
  all_goals
    repeat' first
      | with_reducible exact Keeps.refl ..
      | extract_lets
      | ((with_reducible refine Keeps.access _ _ _ ?_ ?_ ?_); (on_goal 2 => decide); on_goal 2 => intro _)
      | ((with_reducible apply Keeps.step ?_ (State.eoi_keeps ..) ?_); on_goal 2 => decide)
      | with_reducible apply Keeps.ite
      | split
      | (dsimp +zetaDelta only; split)

theorem execHoldoffExpire_keeps (g : Grp) (s : State) : ∃ s' : State, execHoldoffExpire g s = .next s' ∧ Keeps [.eic] s s' := by
  unfold execHoldoffExpire
  refine ⟨_, rfl, ?_⟩
  all_goals
    repeat' first
      | with_reducible exact Keeps.refl ..
      | extract_lets
      | ((with_reducible apply Keeps.step ?_ (State.deliver_keeps ..) ?_); on_goal 2 => decide)
      | ((with_reducible apply Keeps.step ?_ (State.modGrp_keeps ..) ?_); on_goal 2 => decide)
      | with_reducible apply Keeps.ite
      | split
      | (dsimp +zetaDelta only; split)

theorem execSrcCfgWrite_keeps (m : Master) (i : Src) (w : W) (s : State) : ∃ s' : State, execSrcCfgWrite m i w s = .next s' ∧ Keeps [.store, .eic, .pcie, .pwr] s s' := by
  unfold execSrcCfgWrite
  refine ⟨_, rfl, ?_⟩
  all_goals
    repeat' first
      | with_reducible exact Keeps.refl ..
      | extract_lets
      | ((with_reducible refine Keeps.access _ _ _ ?_ ?_ ?_); (on_goal 2 => decide); on_goal 2 => intro _)
      | ((with_reducible apply Keeps.step ?_ (State.writeSrc_keeps ..) ?_); on_goal 2 => decide)
      | with_reducible apply Keeps.ite
      | split
      | (dsimp +zetaDelta only; split)

theorem execGroupLock_keeps (m : Master) (g : Grp) (s : State) : ∃ s' : State, execGroupLock m g s = .next s' ∧ Keeps [.store, .eic, .mbx, .fw, .health, .pcie, .sur, .pwr, .free] s s' := by
  unfold execGroupLock
  refine ⟨_, rfl, ?_⟩
  all_goals
    repeat' first
      | with_reducible exact Keeps.refl ..
      | extract_lets
      | ((with_reducible refine Keeps.access _ _ _ ?_ ?_ ?_); (on_goal 2 => decide); on_goal 2 => intro _)
      | ((with_reducible apply Keeps.step ?_ (State.groupLock_keeps ..) ?_); on_goal 2 => decide)
      | with_reducible apply Keeps.ite
      | split
      | (dsimp +zetaDelta only; split)

theorem execMsixUnmask_keeps (v : Fin 32) (s : State) : ∃ s' : State, execMsixUnmask v s = .next s' ∧ Keeps [.eic] s s' :=
  ⟨_, rfl, State.msixUnmask_keeps ..⟩

theorem execAbortGo_keeps (m : Master) (w : W) (s : State) : ∃ s' : State, execAbortGo m w s = .next s' ∧ Keeps [.guar, .ch, .axis, .cal, .pod, .mem, .store, .eic, .mbx, .abort, .fw, .health, .pcie, .sur, .pwr, .free] s s' := by
  unfold execAbortGo
  refine ⟨_, rfl, ?_⟩
  all_goals
    repeat' first
      | with_reducible exact Keeps.refl ..
      | extract_lets
      | ((with_reducible refine Keeps.access _ _ _ ?_ ?_ ?_); (on_goal 2 => decide); on_goal 2 => intro _)
      | ((with_reducible apply Keeps.step ?_ (State.writeAbortCtrl_keeps ..) ?_); on_goal 2 => decide)
      | with_reducible apply Keeps.ite
      | split
      | (dsimp +zetaDelta only; split)

theorem execAbortRelease_keeps (m : Master) (w : W) (s : State) : ∃ s' : State, execAbortRelease m w s = .next s' ∧ Keeps [.guar, .ch, .axis, .cal, .pod, .mem, .store, .eic, .mbx, .abort, .fw, .health, .pcie, .sur, .pwr, .free] s s' := by
  unfold execAbortRelease
  refine ⟨_, rfl, ?_⟩
  all_goals
    repeat' first
      | with_reducible exact Keeps.refl ..
      | extract_lets
      | ((with_reducible refine Keeps.access _ _ _ ?_ ?_ ?_); (on_goal 2 => decide); on_goal 2 => intro _)
      | ((with_reducible apply Keeps.step ?_ (State.writeAbortCtrl_keeps ..) ?_); on_goal 2 => decide)
      | with_reducible apply Keeps.ite
      | split
      | (dsimp +zetaDelta only; split)

theorem execAbortDone_keeps (s : State) : ∃ s' : State, execAbortDone s = .next s' ∧ Keeps [.ch, .cal, .pod, .mbx, .abort, .fw, .free] s s' := by
  unfold execAbortDone
  refine ⟨_, rfl, ?_⟩
  all_goals
    repeat' first
      | with_reducible exact Keeps.refl ..
      | extract_lets
      | ((with_reducible apply Keeps.step ?_ (State.abortDone_keeps ..) ?_); on_goal 2 => decide)
      | with_reducible apply Keeps.ite
      | split
      | (dsimp +zetaDelta only; split)

theorem execSafeNFall_keeps (width : SafePulse) (s : State) : ∃ s' : State, execSafeNFall width s = .next s' ∧ Keeps [.guar, .ch, .axis, .pod, .mem, .store, .mbx, .abort, .health, .pcie, .sur, .pwr, .free] s s' := by
  unfold execSafeNFall
  refine ⟨_, rfl, ?_⟩
  all_goals
    repeat' first
      | with_reducible exact Keeps.refl ..
      | extract_lets
      | ((with_reducible apply Keeps.step ?_ (State.safeFall_keeps ..) ?_); on_goal 2 => decide)
      | ((with_reducible apply Keeps.step ?_ (State.used_keeps ..) ?_); on_goal 2 => decide)
      | with_reducible apply Keeps.ite
      | split
      | (dsimp +zetaDelta only; split)

theorem execSafeNRise_keeps (s : State) : ∃ s' : State, execSafeNRise s = .next s' ∧ Keeps [.abort] s s' := by
  unfold execSafeNRise
  refine ⟨_, rfl, ?_⟩
  all_goals
    repeat' first
      | with_reducible exact Keeps.refl ..
      | extract_lets
      | with_reducible apply Keeps.ite
      | split
      | (dsimp +zetaDelta only; split)
      | ((with_reducible apply Keeps.upd ?_); any_goals first | exact Or.inl (by decide) | exact Or.inr (Eq.refl _) | exact Or.inr (Or.inl ⟨by decide, Eq.refl _⟩) | exact Or.inr (Or.inr (Or.inl ⟨by decide, Eq.refl _⟩)) | exact Or.inr (Or.inr (Or.inr (Eq.refl _))))

theorem execKeeperRebootDone_keeps (s : State) : ∃ s' : State, execKeeperRebootDone s = .next s' ∧ Keeps [.ch, .cal, .pod, .mbx, .abort, .fw, .health, .free] s s' := by
  unfold execKeeperRebootDone
  refine ⟨_, rfl, ?_⟩
  all_goals
    repeat' first
      | with_reducible exact Keeps.refl ..
      | extract_lets
      | ((with_reducible apply Keeps.step ?_ (State.keeperBack_keeps ..) ?_); on_goal 2 => decide)
      | with_reducible apply Keeps.ite
      | split
      | (dsimp +zetaDelta only; split)

theorem execFreezeRequest_keeps (m : Master) (n : Ch) (s : State) : ∃ s' : State, execFreezeRequest m n s = .next s' ∧ Keeps [.ch, .store, .pcie, .pwr] s s' := by
  unfold execFreezeRequest
  refine ⟨_, rfl, ?_⟩
  all_goals
    repeat' first
      | with_reducible exact Keeps.refl ..
      | extract_lets
      | ((with_reducible refine Keeps.access _ _ _ ?_ ?_ ?_); (on_goal 2 => decide); on_goal 2 => intro _)
      | ((with_reducible apply Keeps.step ?_ (State.modCh_keeps ..) ?_); on_goal 2 => decide)
      | with_reducible apply Keeps.ite
      | split
      | (dsimp +zetaDelta only; split)

theorem execThawRequest_keeps (m : Master) (n : Ch) (s : State) : ∃ s' : State, execThawRequest m n s = .next s' ∧ Keeps [.ch, .store, .pcie, .pwr] s s' := by
  unfold execThawRequest
  refine ⟨_, rfl, ?_⟩
  all_goals
    repeat' first
      | with_reducible exact Keeps.refl ..
      | extract_lets
      | ((with_reducible refine Keeps.access _ _ _ ?_ ?_ ?_); (on_goal 2 => decide); on_goal 2 => intro _)
      | ((with_reducible apply Keeps.step ?_ (State.modCh_keeps ..) ?_); on_goal 2 => decide)
      | with_reducible apply Keeps.ite
      | split
      | (dsimp +zetaDelta only; split)

theorem execFreezeEntry_keeps (n : Ch) (s : State) : ∃ s' : State, execFreezeEntry n s = .next s' ∧ Keeps [.guar, .ch, .pod, .mem, .store, .mbx, .health, .pcie, .sur, .free] s s' :=
  ⟨_, rfl, State.freeze_keeps ..⟩

theorem execThaw_keeps (n : Ch) (s : State) : ∃ s' : State, execThaw n s = .next s' ∧ Keeps [.ch] s s' := by
  unfold execThaw
  refine ⟨_, rfl, ?_⟩
  all_goals
    repeat' first
      | with_reducible exact Keeps.refl ..
      | extract_lets
      | ((with_reducible apply Keeps.step ?_ (State.modCh_keeps ..) ?_); on_goal 2 => decide)
      | with_reducible apply Keeps.ite
      | split
      | (dsimp +zetaDelta only; split)

theorem execAdcDataRead_keeps (m : Master) (i : Slice) (s : State) : ∃ s' : State, execAdcDataRead m i s = .next s' ∧ Keeps [.master, .store, .pcie, .adc, .pwr] s s' := by
  unfold execAdcDataRead
  refine ⟨_, rfl, ?_⟩
  all_goals
    repeat' first
      | with_reducible exact Keeps.refl ..
      | extract_lets
      | ((with_reducible refine Keeps.access _ _ _ ?_ ?_ ?_); (on_goal 2 => decide); on_goal 2 => intro _)
      | ((with_reducible apply Keeps.step ?_ (State.adcRead_keeps ..) ?_); on_goal 2 => decide)
      | with_reducible apply Keeps.ite
      | split
      | (dsimp +zetaDelta only; split)

theorem execAdcConversionEnd_keeps (i : Slice) (raw spareRaw : Int) (s : State) : ∃ s' : State, execAdcConversionEnd i raw spareRaw s = .next s' ∧ Keeps [.mem, .store, .mbx, .pcie, .adc] s s' :=
  ⟨_, rfl, State.conversionEnd_keeps ..⟩

theorem execAdcSelWrite_keeps (i : Slice) (w : W) (s : State) : ∃ s' : State, execAdcSelWrite i w s = .next s' ∧ Keeps [.adc] s s' :=
  ⟨_, rfl, State.writeAdcSel_keeps ..⟩

theorem execRefReady_keeps (s : State) : ∃ s' : State, execRefReady s = .next s' ∧ Keeps [.adc] s s' := by
  unfold execRefReady
  refine ⟨_, rfl, ?_⟩
  all_goals
    repeat' first
      | with_reducible exact Keeps.refl ..
      | extract_lets
      | with_reducible apply Keeps.ite
      | split
      | (dsimp +zetaDelta only; split)
      | ((with_reducible apply Keeps.upd ?_); any_goals first | exact Or.inl (by decide) | exact Or.inr (Eq.refl _) | exact Or.inr (Or.inl ⟨by decide, Eq.refl _⟩) | exact Or.inr (Or.inr (Or.inl ⟨by decide, Eq.refl _⟩)) | exact Or.inr (Or.inr (Or.inr (Eq.refl _))))

theorem execCalRotationStart_keeps (s : State) : ∃ s' : State, execCalRotationStart s = .next s' ∧ Keeps [.adc] s s' := by
  unfold execCalRotationStart
  refine ⟨_, rfl, ?_⟩
  all_goals
    repeat' first
      | with_reducible exact Keeps.refl ..
      | extract_lets
      | ((with_reducible apply Keeps.step ?_ (State.rotationStart_keeps ..) ?_); on_goal 2 => decide)
      | with_reducible apply Keeps.ite
      | split
      | (dsimp +zetaDelta only; split)

theorem execCalDone_keeps (z f : Int) (s : State) : ∃ s' : State, execCalDone z f s = .next s' ∧ Keeps [.adc] s s' :=
  ⟨_, rfl, State.calDone_keeps ..⟩

theorem execAdcStream_keeps (b : CmdMbx) (s : State) : ∃ s' : State, execAdcStream b s = .next s' ∧ Keeps [.mbx, .adc] s s' := by
  unfold execAdcStream
  refine ⟨_, rfl, ?_⟩
  all_goals
    repeat' first
      | with_reducible exact Keeps.refl ..
      | extract_lets
      | ((with_reducible refine Keeps.command _ _ _ _ ?_); intro _ _)
      | ((with_reducible apply Keeps.step ?_ (State.adcStream_keeps ..) ?_); on_goal 2 => decide)
      | with_reducible apply Keeps.ite
      | split
      | (dsimp +zetaDelta only; split)

theorem execAdcStrRdWrite_keeps (w : W) (s : State) : ∃ s' : State, execAdcStrRdWrite w s = .next s' ∧ Keeps [.adc] s s' :=
  ⟨_, rfl, State.writeStrRd_keeps ..⟩

theorem execSupplyFault_keeps (r : Rail) (s : State) : ∃ s' : State, execSupplyFault r s = .next s' ∧ Keeps [.ch, .mbx, .sur, .pwr, .free] s s' :=
  ⟨_, rfl, State.supplyFault_keeps ..⟩

theorem execSupplyFaultClear_keeps (r : Rail) (s : State) : ∃ s' : State, execSupplyFaultClear r s = .next s' ∧ Keeps [.ch, .sur] s s' :=
  ⟨_, rfl, State.supplyClear_keeps ..⟩

theorem execVioTrack_keeps (p : Pod) (mv : Nat) (s : State) : ∃ s' : State, execVioTrack p mv s = .next s' ∧ Keeps [.sur] s s' := by
  unfold execVioTrack
  refine ⟨_, rfl, ?_⟩
  all_goals
    repeat' first
      | with_reducible exact Keeps.refl ..
      | extract_lets
      | with_reducible apply Keeps.ite
      | split
      | (dsimp +zetaDelta only; split)
      | ((with_reducible apply Keeps.upd ?_); any_goals first | exact Or.inl (by decide) | exact Or.inr (Eq.refl _) | exact Or.inr (Or.inl ⟨by decide, Eq.refl _⟩) | exact Or.inr (Or.inr (Or.inl ⟨by decide, Eq.refl _⟩)) | exact Or.inr (Or.inr (Or.inr (Eq.refl _))))

theorem execTempMeasure_keeps (t : Int) (s : State) : ∃ s' : State, execTempMeasure t s = .next s' ∧ Keeps [.sur, .pwr] s s' :=
  ⟨_, rfl, State.tempMeasure_keeps ..⟩

theorem execMeasureCable_keeps (b : CmdMbx) (s : State) : ∃ s' : State, execMeasureCable b s = .next s' ∧ Keeps [.mbx, .sur] s s' := by
  unfold execMeasureCable
  refine ⟨_, rfl, ?_⟩
  all_goals
    repeat' first
      | with_reducible exact Keeps.refl ..
      | extract_lets
      | ((with_reducible refine Keeps.command _ _ _ _ ?_); intro _ _)
      | ((with_reducible apply Keeps.step ?_ (State.measureCable_keeps ..) ?_); on_goal 2 => decide)
      | with_reducible apply Keeps.ite
      | split
      | (dsimp +zetaDelta only; split)

theorem execMeasureLoad_keeps (b : CmdMbx) (s : State) : ∃ s' : State, execMeasureLoad b s = .next s' ∧ Keeps [.mbx, .sur] s s' := by
  unfold execMeasureLoad
  refine ⟨_, rfl, ?_⟩
  all_goals
    repeat' first
      | with_reducible exact Keeps.refl ..
      | extract_lets
      | ((with_reducible refine Keeps.command _ _ _ _ ?_); intro _ _)
      | ((with_reducible apply Keeps.step ?_ (State.measureLoad_keeps ..) ?_); on_goal 2 => decide)
      | with_reducible apply Keeps.ite
      | split
      | (dsimp +zetaDelta only; split)

theorem execMeasureStart_keeps (s : State) : ∃ s' : State, execMeasureStart s = .next s' ∧ Keeps [.pod, .mem, .store, .mbx, .pcie, .sur, .free] s s' := by
  unfold execMeasureStart
  refine ⟨_, rfl, ?_⟩
  all_goals
    repeat' first
      | with_reducible exact Keeps.refl ..
      | extract_lets
      | ((with_reducible apply Keeps.step ?_ (State.measStart_keeps ..) ?_); on_goal 2 => decide)
      | with_reducible apply Keeps.ite
      | split
      | (dsimp +zetaDelta only; split)

theorem execMeasureDone_keeps (r : MeasRaw) (s : State) : ∃ s' : State, execMeasureDone r s = .next s' ∧ Keeps [.pod, .mem, .store, .mbx, .pcie, .sur, .free] s s' :=
  ⟨_, rfl, State.measDone_keeps ..⟩

theorem execMeasureGapTimeout_keeps (s : State) : ∃ s' : State, execMeasureGapTimeout s = .next s' ∧ Keeps [.pod, .mem, .store, .mbx, .pcie, .sur, .free] s s' := by
  unfold execMeasureGapTimeout
  refine ⟨_, rfl, ?_⟩
  all_goals
    repeat' first
      | with_reducible exact Keeps.refl ..
      | extract_lets
      | ((with_reducible apply Keeps.step ?_ (State.measFail_keeps ..) ?_); on_goal 2 => decide)
      | with_reducible apply Keeps.ite
      | split
      | (dsimp +zetaDelta only; split)

theorem execPartnerRead_keeps (b : CmdMbx) (bytes : List Byte) (s : State) : ∃ s' : State, execPartnerRead b bytes s = .next s' ∧ Keeps [.mbx] s s' := by
  unfold execPartnerRead
  refine ⟨_, rfl, ?_⟩
  all_goals
    repeat' first
      | with_reducible exact Keeps.refl ..
      | extract_lets
      | ((with_reducible refine Keeps.command _ _ _ _ ?_); intro _ _)
      | ((with_reducible apply Keeps.step ?_ (State.partnerRead_keeps ..) ?_); on_goal 2 => decide)
      | with_reducible apply Keeps.ite
      | split
      | (dsimp +zetaDelta only; split)

theorem execAdaptSet_keeps (b : CmdMbx) (s : State) : ∃ s' : State, execAdaptSet b s = .next s' ∧ Keeps [.mbx, .sur] s s' := by
  unfold execAdaptSet
  refine ⟨_, rfl, ?_⟩
  all_goals
    repeat' first
      | with_reducible exact Keeps.refl ..
      | extract_lets
      | ((with_reducible refine Keeps.command _ _ _ _ ?_); intro _ _)
      | ((with_reducible apply Keeps.step ?_ (State.adaptSet_keeps ..) ?_); on_goal 2 => decide)
      | with_reducible apply Keeps.ite
      | split
      | (dsimp +zetaDelta only; split)

theorem execAdaptLock_keeps (b : CmdMbx) (s : State) : ∃ s' : State, execAdaptLock b s = .next s' ∧ Keeps [.mbx, .sur] s s' := by
  unfold execAdaptLock
  refine ⟨_, rfl, ?_⟩
  all_goals
    repeat' first
      | with_reducible exact Keeps.refl ..
      | extract_lets
      | ((with_reducible refine Keeps.command _ _ _ _ ?_); intro _ _)
      | ((with_reducible apply Keeps.step ?_ (State.adaptLock_keeps ..) ?_); on_goal 2 => decide)
      | with_reducible apply Keeps.ite
      | split
      | (dsimp +zetaDelta only; split)

theorem execAdaptDeclare_keeps (i : Fin 5) (n : Ch) (meas : Nat) (s : State) : ∃ s' : State, execAdaptDeclare i n meas s = .next s' ∧ Keeps [.ch, .pod, .mbx, .sur, .free] s s' :=
  ⟨_, rfl, State.adapt_keeps ..⟩

theorem execAdaptDeferRetry_keeps (i : Fin 5) (n : Ch) (s : State) : ∃ s' : State, execAdaptDeferRetry i n s = .next s' ∧ Keeps [.ch, .pod, .mbx, .sur, .free] s s' :=
  ⟨_, rfl, State.adaptRetry_keeps ..⟩

theorem execAdaptEpoch_keeps (i : Fin 5) (n : Ch) (s : State) : ∃ s' : State, execAdaptEpoch i n s = .next s' ∧ Keeps [.ch, .axis, .pod, .mem, .store, .pcie, .adc, .sur, .pwr] s s' :=
  ⟨_, rfl, State.adaptEpoch_keeps ..⟩

theorem execMbLockRead_keeps (b : Mbx) (readers : List Master) (s : State) : ∃ s' : State, execMbLockRead b readers s = .next s' ∧ Keeps [.master, .store, .mbx, .pcie, .pwr] s s' := by
  unfold execMbLockRead
  exact ⟨_, rfl, (Keeps.forAll _ (fun a u => Keeps.access _ _ _ (Keeps.refl _ u) (by decide) (fun v => Keeps.refl _ v)) _ (Keeps.refl _ s)).step
    (State.lockRead_keeps ..) (by decide)⟩

theorem execMbLockRelease_keeps (m : Master) (b : Mbx) (s : State) : ∃ s' : State, execMbLockRelease m b s = .next s' ∧ Keeps [.store, .mbx, .pcie, .pwr] s s' := by
  unfold execMbLockRelease
  refine ⟨_, rfl, ?_⟩
  all_goals
    repeat' first
      | with_reducible exact Keeps.refl ..
      | extract_lets
      | ((with_reducible refine Keeps.access _ _ _ ?_ ?_ ?_); (on_goal 2 => decide); on_goal 2 => intro _)
      | ((with_reducible apply Keeps.step ?_ (State.lockWrite_keeps ..) ?_); on_goal 2 => decide)
      | with_reducible apply Keeps.ite
      | split
      | (dsimp +zetaDelta only; split)

theorem execMbPostWrite_keeps (m : Master) (b : Mbx) (hi : Bool) (w : W) (s : State) : ∃ s' : State, execMbPostWrite m b hi w s = .next s' ∧ Keeps [.store, .mbx, .pcie, .pwr] s s' := by
  unfold execMbPostWrite
  refine ⟨_, rfl, ?_⟩
  all_goals
    repeat' first
      | with_reducible exact Keeps.refl ..
      | extract_lets
      | ((with_reducible refine Keeps.access _ _ _ ?_ ?_ ?_); (on_goal 2 => decide); on_goal 2 => intro _)
      | ((with_reducible apply Keeps.step ?_ (State.postWrite_keeps ..) ?_); on_goal 2 => decide)
      | with_reducible apply Keeps.ite
      | split
      | (dsimp +zetaDelta only; split)

theorem execMbDoorbell_keeps (m : Master) (b : CmdMbx) (w : W) (s : State) : ∃ s' : State, execMbDoorbell m b w s = .next s' ∧ Keeps [.store, .mbx, .fw, .pcie, .pwr] s s' := by
  unfold execMbDoorbell
  refine ⟨_, rfl, ?_⟩
  all_goals
    repeat' first
      | with_reducible exact Keeps.refl ..
      | extract_lets
      | ((with_reducible refine Keeps.access _ _ _ ?_ ?_ ?_); (on_goal 2 => decide); on_goal 2 => intro _)
      | ((with_reducible apply Keeps.step ?_ (State.doorbell_keeps ..) ?_); on_goal 2 => decide)
      | with_reducible apply Keeps.ite
      | split
      | (dsimp +zetaDelta only; split)

theorem execCommandStart_keeps (b : CmdMbx) (s : State) : ∃ s' : State, execCommandStart b s = .next s' ∧ Keeps [.store, .mbx, .health, .free] s s' :=
  ⟨_, rfl, State.commandStart_keeps ..⟩

theorem execCommandComplete_keeps (b : CmdMbx) (s : State) : ∃ s' : State, execCommandComplete b s = .next s' ∧ Keeps [.mem, .store, .mbx, .health, .pcie, .free] s s' :=
  ⟨_, rfl, State.commandComplete_keeps ..⟩

theorem execNoticePost_keeps (i : Fin 8) (s : State) : ∃ s' : State, execNoticePost i s = .next s' ∧ Keeps [.mem, .store, .mbx, .free] s s' :=
  ⟨_, rfl, State.noticePost_keeps ..⟩

theorem execMbNoticeAck_keeps (m : Master) (i : Fin 8) (w : W) (s : State) : ∃ s' : State, execMbNoticeAck m i w s = .next s' ∧ Keeps [.store, .mbx, .pcie, .pwr] s s' := by
  unfold execMbNoticeAck
  refine ⟨_, rfl, ?_⟩
  all_goals
    repeat' first
      | with_reducible exact Keeps.refl ..
      | extract_lets
      | ((with_reducible refine Keeps.access _ _ _ ?_ ?_ ?_); (on_goal 2 => decide); on_goal 2 => intro _)
      | ((with_reducible apply Keeps.step ?_ (State.noticeAck_keeps ..) ?_); on_goal 2 => decide)
      | with_reducible apply Keeps.ite
      | split
      | (dsimp +zetaDelta only; split)

theorem execPerstN_keeps (low : Bool) (s : State) : ∃ s' : State, execPerstN low s = .next s' ∧ Keeps [.store, .eic, .mbx, .pcie, .pwr] s s' :=
  ⟨_, rfl, State.perstPin_keeps ..⟩

theorem execHotReset_keeps (s : State) : ∃ s' : State, execHotReset s = .next s' ∧ Keeps [.store, .eic, .mbx, .pcie, .pwr] s s' := by
  unfold execHotReset
  refine ⟨_, rfl, ?_⟩
  all_goals
    repeat' first
      | with_reducible exact Keeps.refl ..
      | extract_lets
      | ((with_reducible apply Keeps.step ?_ (State.pcieReset_keeps ..) ?_); on_goal 2 => decide)
      | with_reducible apply Keeps.ite
      | split
      | (dsimp +zetaDelta only; split)

theorem execFunctionLevelReset_keeps (s : State) : ∃ s' : State, execFunctionLevelReset s = .next s' ∧ Keeps [.store, .eic, .mbx, .pcie, .pwr] s s' := by
  unfold execFunctionLevelReset
  refine ⟨_, rfl, ?_⟩
  all_goals
    repeat' first
      | with_reducible exact Keeps.refl ..
      | extract_lets
      | ((with_reducible apply Keeps.step ?_ (State.pcieReset_keeps ..) ?_); on_goal 2 => decide)
      | with_reducible apply Keeps.ite
      | split
      | (dsimp +zetaDelta only; split)

theorem execPeRailDrop_keeps (_vddh : Bool) (s : State) : ∃ s' : State, execPeRailDrop _vddh s = .next s' ∧ Keeps [.store, .eic, .mbx, .pcie, .pwr] s s' :=
  ⟨_, rfl, State.pcieReset_keeps ..⟩

theorem execLinkUp_keeps (width2 : Bool) (speed : LinkSpeed) (s : State) : ∃ s' : State, execLinkUp width2 speed s = .next s' ∧ Keeps [.eic, .pcie] s s' := by
  unfold execLinkUp
  refine ⟨_, rfl, ?_⟩
  all_goals
    repeat' first
      | with_reducible exact Keeps.refl ..
      | extract_lets
      | ((with_reducible apply Keeps.step ?_ (State.deliver_keeps ..) ?_); on_goal 2 => decide)
      | with_reducible apply Keeps.ite
      | split
      | (dsimp +zetaDelta only; split)
      | ((with_reducible apply Keeps.upd ?_); any_goals first | exact Or.inl (by decide) | exact Or.inr (Eq.refl _) | exact Or.inr (Or.inl ⟨by decide, Eq.refl _⟩) | exact Or.inr (Or.inr (Or.inl ⟨by decide, Eq.refl _⟩)) | exact Or.inr (Or.inr (Or.inr (Eq.refl _))))

theorem execLinkDown_keeps (s : State) : ∃ s' : State, execLinkDown s = .next s' ∧ Keeps [.eic, .pcie] s s' := by
  unfold execLinkDown
  refine ⟨_, rfl, ?_⟩
  all_goals
    repeat' first
      | with_reducible exact Keeps.refl ..
      | extract_lets
      | ((with_reducible apply Keeps.step ?_ (State.deliver_keeps ..) ?_); on_goal 2 => decide)
      | with_reducible apply Keeps.ite
      | split
      | (dsimp +zetaDelta only; split)
      | ((with_reducible apply Keeps.upd ?_); any_goals first | exact Or.inl (by decide) | exact Or.inr (Eq.refl _) | exact Or.inr (Or.inl ⟨by decide, Eq.refl _⟩) | exact Or.inr (Or.inr (Or.inl ⟨by decide, Eq.refl _⟩)) | exact Or.inr (Or.inr (Or.inr (Eq.refl _))))

theorem execConfigRequest_keeps (r : CfgReq) (s : State) : ∃ s' : State, execConfigRequest r s = .next s' ∧ Keeps [.master, .eic, .pcie, .pwr] s s' :=
  ⟨_, rfl, State.configRequest_keeps ..⟩

theorem execBar2Access_keeps (a : WinAccess) (s : State) : ∃ s' : State, execBar2Access a s = .next s' ∧ Keeps [.mem, .store, .mbx, .health, .pcie, .pwr, .free] s s' := by
  unfold execBar2Access
  refine ⟨_, rfl, ?_⟩
  all_goals
    repeat' first
      | with_reducible exact Keeps.refl ..
      | extract_lets
      | ((with_reducible refine Keeps.pcieReq _ _ ?_ ?_ ?_); (on_goal 2 => decide); on_goal 2 => intro _)
      | ((with_reducible apply Keeps.step ?_ (State.hostAccess_keeps ..) ?_); on_goal 2 => decide)
      | with_reducible apply Keeps.ite
      | split
      | (dsimp +zetaDelta only; split)

theorem execDmaCompletion_keeps (c : Fin 4) (data : List Byte) (s : State) : ∃ s' : State, execDmaCompletion c data s = .next s' ∧ Keeps [.mbx] s s' :=
  ⟨_, rfl, State.dmaData_keeps ..⟩

theorem execDmaCompletionTimeout_keeps (c : Fin 4) (s : State) : ∃ s' : State, execDmaCompletionTimeout c s = .next s' ∧ Keeps [.mbx, .pcie] s s' := by
  unfold execDmaCompletionTimeout
  refine ⟨_, rfl, ?_⟩
  all_goals
    repeat' first
      | with_reducible exact Keeps.refl ..
      | extract_lets
      | ((with_reducible apply Keeps.step ?_ (State.dmaFail_keeps ..) ?_); on_goal 2 => decide)
      | with_reducible apply Keeps.ite
      | split
      | (dsimp +zetaDelta only; split)

theorem execQspiStatus_keeps (s : State) : ∃ s' : State, execQspiStatus s = .next s' ∧ Keeps [.pcie] s s' :=
  ⟨_, rfl, State.qspiOut_keeps ..⟩

theorem execQspiBadOp_keeps (op : Byte) (s : State) : ∃ s' : State, execQspiBadOp op s = .next s' ∧ Keeps [.pcie, .pwr] s s' :=
  ⟨_, rfl, State.qspiBad_keeps ..⟩

theorem execSleep_keeps (b : CmdMbx) (s : State) : ∃ s' : State, execSleep b s = .next s' ∧ Keeps [.mbx, .pwr, .free] s s' := by
  unfold execSleep
  refine ⟨_, rfl, ?_⟩
  all_goals
    repeat' first
      | with_reducible exact Keeps.refl ..
      | extract_lets
      | ((with_reducible refine Keeps.command _ _ _ _ ?_); intro _ _)
      | ((with_reducible apply Keeps.step ?_ (State.sleep_keeps ..) ?_); on_goal 2 => decide)
      | with_reducible apply Keeps.ite
      | split
      | (dsimp +zetaDelta only; split)

theorem execWake_keeps (b : CmdMbx) (s : State) : ∃ s' : State, execWake b s = .next s' ∧ Keeps [.mbx] s s' := by
  unfold execWake
  refine ⟨_, rfl, ?_⟩
  all_goals
    repeat' first
      | with_reducible exact Keeps.refl ..
      | extract_lets
      | ((with_reducible refine Keeps.command _ _ _ _ ?_); intro _ _)
      | ((with_reducible apply Keeps.step ?_ (State.answer_keeps ..) ?_); on_goal 2 => decide)
      | with_reducible apply Keeps.ite
      | split
      | (dsimp +zetaDelta only; split)

theorem execSleepEntryDone_keeps (s : State) : ∃ s' : State, execSleepEntryDone s = .next s' ∧ Keeps [.time, .ch, .axis, .store, .mbx, .adc, .pwr, .free] s s' := by
  unfold execSleepEntryDone
  refine ⟨_, rfl, ?_⟩
  all_goals
    repeat' first
      | with_reducible exact Keeps.refl ..
      | extract_lets
      | ((with_reducible apply Keeps.step ?_ (State.sleepEntered_keeps ..) ?_); on_goal 2 => decide)
      | with_reducible apply Keeps.ite
      | split
      | (dsimp +zetaDelta only; split)

theorem execAutoWake_keeps (s : State) : ∃ s' : State, execAutoWake s = .next s' ∧ Keeps [.pwr] s s' := by
  unfold execAutoWake
  refine ⟨_, rfl, ?_⟩
  all_goals
    repeat' first
      | with_reducible exact Keeps.refl ..
      | extract_lets
      | ((with_reducible apply Keeps.step ?_ (State.wakeBy_keeps ..) ?_); on_goal 2 => decide)
      | with_reducible apply Keeps.ite
      | split
      | (dsimp +zetaDelta only; split)

theorem execWakeSource_keeps (w : WakeSrc) (s : State) : ∃ s' : State, execWakeSource w s = .next s' ∧ Keeps [.time, .pwr] s s' :=
  ⟨_, rfl, State.wakeSource_keeps ..⟩

theorem execXinOscStable_keeps (s : State) : ∃ s' : State, execXinOscStable s = .next s' ∧ Keeps [.time] s s' := by
  unfold execXinOscStable
  refine ⟨_, rfl, ?_⟩
  all_goals
    repeat' first
      | with_reducible exact Keeps.refl ..
      | extract_lets
      | ((with_reducible apply Keeps.step ?_ (State.xinStable_keeps ..) ?_); on_goal 2 => decide)
      | with_reducible apply Keeps.ite
      | split
      | (dsimp +zetaDelta only; split)

theorem execPllLock_keeps (s : State) : ∃ s' : State, execPllLock s = .next s' ∧ Keeps [.time] s s' := by
  unfold execPllLock
  refine ⟨_, rfl, ?_⟩
  all_goals
    repeat' first
      | with_reducible exact Keeps.refl ..
      | extract_lets
      | ((with_reducible apply Keeps.step ?_ (State.pllLocks_keeps ..) ?_); on_goal 2 => decide)
      | with_reducible apply Keeps.ite
      | split
      | (dsimp +zetaDelta only; split)

theorem execXinFail_keeps (s : State) : ∃ s' : State, execXinFail s = .next s' ∧ Keeps [.time, .guar, .health] s s' := by
  unfold execXinFail
  refine ⟨_, rfl, ?_⟩
  all_goals
    repeat' first
      | with_reducible exact Keeps.refl ..
      | extract_lets
      | ((with_reducible apply Keeps.step ?_ (State.xinFails_keeps ..) ?_); on_goal 2 => decide)
      | with_reducible apply Keeps.ite
      | split
      | (dsimp +zetaDelta only; split)

theorem execXinRestore_keeps (s : State) : ∃ s' : State, execXinRestore s = .next s' ∧ Keeps [.time] s s' := by
  unfold execXinRestore
  refine ⟨_, rfl, ?_⟩
  all_goals
    repeat' first
      | with_reducible exact Keeps.refl ..
      | extract_lets
      | with_reducible apply Keeps.ite
      | split
      | (dsimp +zetaDelta only; split)
      | ((with_reducible apply Keeps.upd ?_); any_goals first | exact Or.inl (by decide) | exact Or.inr (Eq.refl _) | exact Or.inr (Or.inl ⟨by decide, Eq.refl _⟩) | exact Or.inr (Or.inr (Or.inl ⟨by decide, Eq.refl _⟩)) | exact Or.inr (Or.inr (Or.inr (Eq.refl _))))

theorem execAonPor_keeps (cold : Bool) (s : State) : ∃ s' : State, execAonPor cold s = .next s' ∧ Keeps [.time, .master, .guar, .ch, .axis, .cal, .pod, .mem, .store, .eic, .mbx, .abort, .fw, .health, .pcie, .adc, .sur, .pwr, .boot, .jtag] s s' :=
  ⟨_, rfl, State.aonReset_keeps ..⟩

theorem execCoreReset_keeps (_avdd : Bool) (s : State) : ∃ s' : State, execCoreReset _avdd s = .next s' ∧ Keeps [.time, .master, .guar, .ch, .axis, .cal, .pod, .mem, .store, .eic, .mbx, .abort, .fw, .health, .pcie, .adc, .sur, .pwr, .boot, .jtag] s s' :=
  ⟨_, rfl, State.coreReset_keeps ..⟩

theorem execResetN_keeps (acts : Bool) (s : State) : ∃ s' : State, execResetN acts s = .next s' ∧ Keeps [.time, .master, .guar, .ch, .axis, .cal, .pod, .mem, .store, .eic, .mbx, .abort, .fw, .health, .pcie, .adc, .sur, .pwr, .boot, .jtag] s s' := by
  unfold execResetN
  refine ⟨_, rfl, ?_⟩
  all_goals
    repeat' first
      | with_reducible exact Keeps.refl ..
      | extract_lets
      | ((with_reducible apply Keeps.step ?_ (State.coreReset_keeps ..) ?_); on_goal 2 => decide)
      | with_reducible apply Keeps.ite
      | split
      | (dsimp +zetaDelta only; split)

theorem execTestmode_keeps (high : Bool) (s : State) : ∃ s' : State, execTestmode high s = .next s' ∧ Keeps [.time, .master, .guar, .ch, .axis, .cal, .pod, .mem, .store, .eic, .mbx, .abort, .fw, .health, .pcie, .adc, .sur, .pwr, .boot, .jtag] s s' := by
  unfold execTestmode
  refine ⟨_, rfl, ?_⟩
  all_goals
    repeat' first
      | with_reducible exact Keeps.refl ..
      | extract_lets
      | ((with_reducible apply Keeps.step ?_ (State.coreReset_keeps ..) ?_); on_goal 2 => decide)
      | with_reducible apply Keeps.ite
      | split
      | (dsimp +zetaDelta only; split)
      | ((with_reducible apply Keeps.upd ?_); any_goals first | exact Or.inl (by decide) | exact Or.inr (Eq.refl _) | exact Or.inr (Or.inl ⟨by decide, Eq.refl _⟩) | exact Or.inr (Or.inr (Or.inl ⟨by decide, Eq.refl _⟩)) | exact Or.inr (Or.inr (Or.inr (Eq.refl _))))

theorem execVioBrownout_keeps (p : Pod) (s : State) : ∃ s' : State, execVioBrownout p s = .next s' ∧ Keeps [.ch, .boot] s s' :=
  ⟨_, rfl, State.vioDrops_keeps ..⟩

theorem execVioReturn_keeps (p : Pod) (s : State) : ∃ s' : State, execVioReturn p s = .next s' ∧ Keeps [.ch, .boot] s s' := by
  unfold execVioReturn
  refine ⟨_, rfl, ?_⟩
  all_goals
    repeat' first
      | with_reducible exact Keeps.refl ..
      | extract_lets
      | ((with_reducible apply Keeps.step ?_ (State.vioFault_keeps ..) ?_); on_goal 2 => decide)
      | with_reducible apply Keeps.ite
      | split
      | (dsimp +zetaDelta only; split)
      | ((with_reducible apply Keeps.upd ?_); any_goals first | exact Or.inl (by decide) | exact Or.inr (Eq.refl _) | exact Or.inr (Or.inl ⟨by decide, Eq.refl _⟩) | exact Or.inr (Or.inr (Or.inl ⟨by decide, Eq.refl _⟩)) | exact Or.inr (Or.inr (Or.inr (Eq.refl _))))

theorem execCoreResetRelease_keeps (straps : BitVec 2) (primary alternate : ImageIn) (selfTest : List (BitVec 17)) (s : State) : ∃ s' : State, execCoreResetRelease straps primary alternate selfTest s = .next s' ∧ Keeps [.guar, .ch, .axis, .pod, .mem, .store, .mbx, .abort, .fw, .health, .pcie, .sur, .boot, .free] s s' :=
  ⟨_, rfl, State.resetRelease_keeps ..⟩

theorem execFwReady_keeps (s : State) : ∃ s' : State, execFwReady s = .next s' ∧ Keeps [.fw, .health] s s' := by
  unfold execFwReady
  refine ⟨_, rfl, ?_⟩
  all_goals
    repeat' first
      | with_reducible exact Keeps.refl ..
      | extract_lets
      | ((with_reducible apply Keeps.step ?_ (State.fwStarts_keeps ..) ?_); on_goal 2 => decide)
      | with_reducible apply Keeps.ite
      | split
      | (dsimp +zetaDelta only; split)

theorem execBootCmdLoad_keeps (m : Master) (image : ImageIn) (selfTest : List (BitVec 17)) (s : State) : ∃ s' : State, execBootCmdLoad m image selfTest s = .next s' ∧ Keeps [.pod, .mem, .store, .mbx, .fw, .health, .pcie, .pwr, .boot, .free] s s' := by
  unfold execBootCmdLoad
  refine ⟨_, rfl, ?_⟩
  all_goals
    repeat' first
      | with_reducible exact Keeps.refl ..
      | extract_lets
      | ((with_reducible refine Keeps.access _ _ _ ?_ ?_ ?_); (on_goal 2 => decide); on_goal 2 => intro _)
      | ((with_reducible apply Keeps.step ?_ (State.bootLoad_keeps ..) ?_); on_goal 2 => decide)
      | with_reducible apply Keeps.ite
      | split
      | (dsimp +zetaDelta only; split)

theorem execBootCmdFlash_keeps (m : Master) (image : ImageIn) (s : State) : ∃ s' : State, execBootCmdFlash m image s = .next s' ∧ Keeps [.store, .pcie, .pwr, .boot] s s' := by
  unfold execBootCmdFlash
  refine ⟨_, rfl, ?_⟩
  all_goals
    repeat' first
      | with_reducible exact Keeps.refl ..
      | extract_lets
      | ((with_reducible refine Keeps.access _ _ _ ?_ ?_ ?_); (on_goal 2 => decide); on_goal 2 => intro _)
      | ((with_reducible apply Keeps.step ?_ (State.bootFlash_keeps ..) ?_); on_goal 2 => decide)
      | with_reducible apply Keeps.ite
      | split
      | (dsimp +zetaDelta only; split)

theorem execAtbSelWrite_keeps (w : W) (s : State) : ∃ s' : State, execAtbSelWrite w s = .next s' ∧ Keeps [.sur] s s' :=
  ⟨_, rfl, State.writeAtb_keeps ..⟩

theorem execJtagReset_keeps (s : State) : ∃ s' : State, execJtagReset s = .next s' ∧ Keeps [.guar, .jtag] s s' :=
  ⟨_, rfl, State.jtagSelect_keeps ..⟩

theorem execExtest_keeps (s : State) : ∃ s' : State, execExtest s = .next s' ∧ Keeps [.guar, .jtag] s s' :=
  ⟨_, rfl, State.jtagSelect_keeps ..⟩

theorem execIdcode_keeps (s : State) : ∃ s' : State, execIdcode s = .next s' ∧ Keeps [.guar, .jtag] s s' :=
  ⟨_, rfl, State.jtagSelect_keeps ..⟩

theorem execClamp_keeps (s : State) : ∃ s' : State, execClamp s = .next s' ∧ Keeps [.guar, .jtag] s s' :=
  ⟨_, rfl, State.jtagSelect_keeps ..⟩

theorem execHighz_keeps (s : State) : ∃ s' : State, execHighz s = .next s' ∧ Keeps [.guar, .jtag] s s' :=
  ⟨_, rfl, State.jtagSelect_keeps ..⟩

theorem execDebug_keeps (s : State) : ∃ s' : State, execDebug s = .next s' ∧ Keeps [.guar, .jtag] s s' :=
  ⟨_, rfl, State.jtagSelect_keeps ..⟩

theorem execBypass_keeps (s : State) : ∃ s' : State, execBypass s = .next s' ∧ Keeps [.guar, .jtag] s s' :=
  ⟨_, rfl, State.jtagSelect_keeps ..⟩

theorem execSamplePreload_keeps (drive level : BitVec 128) (s : State) : ∃ s' : State, execSamplePreload drive level s = .next s' ∧ Keeps [.guar, .jtag] s s' :=
  ⟨_, rfl, State.samplePreload_keeps ..⟩

theorem execDebugUnlock_keeps (tokenOk : Bool) (s : State) : ∃ s' : State, execDebugUnlock tokenOk s = .next s' ∧ Keeps [.jtag] s s' := by
  unfold execDebugUnlock
  refine ⟨_, rfl, ?_⟩
  all_goals
    repeat' first
      | with_reducible exact Keeps.refl ..
      | extract_lets
      | with_reducible apply Keeps.ite
      | split
      | (dsimp +zetaDelta only; split)
      | ((with_reducible apply Keeps.upd ?_); any_goals first | exact Or.inl (by decide) | exact Or.inr (Eq.refl _) | exact Or.inr (Or.inl ⟨by decide, Eq.refl _⟩) | exact Or.inr (Or.inr (Or.inl ⟨by decide, Eq.refl _⟩)) | exact Or.inr (Or.inr (Or.inr (Eq.refl _))))

theorem execSerTrig_keeps (k : Ax) (s : State) : ∃ s' : State, execSerTrig k s = .next s' ∧ Keeps [.axis] s s' :=
  ⟨_, rfl, State.serTrig_keeps ..⟩

theorem execSerFrameStart_keeps (k : Ax) (s : State) : ∃ s' : State, execSerFrameStart k s = .next s' ∧ Keeps [.axis] s s' := by
  unfold execSerFrameStart
  refine ⟨_, rfl, ?_⟩
  all_goals
    repeat' first
      | with_reducible exact Keeps.refl ..
      | extract_lets
      | ((with_reducible apply Keeps.step ?_ (State.frameStart_keeps ..) ?_); on_goal 2 => decide)
      | with_reducible apply Keeps.ite
      | split
      | (dsimp +zetaDelta only; split)

theorem execSerTmo_keeps (k : Ax) (s : State) : ∃ s' : State, execSerTmo k s = .next s' ∧ Keeps [.axis] s s' := by
  unfold execSerTmo
  refine ⟨_, rfl, ?_⟩
  all_goals
    repeat' first
      | with_reducible exact Keeps.refl ..
      | extract_lets
      | ((with_reducible apply Keeps.step ?_ (State.modAxis_keeps ..) ?_); on_goal 2 => decide)
      | with_reducible apply Keeps.ite
      | split
      | (dsimp +zetaDelta only; split)

theorem execSerSample_keeps (k : Ax) (f : SerFrame) (s : State) : ∃ s' : State, execSerSample k f s = .next s' ∧ Keeps [.guar, .ch, .axis, .cal, .pod, .free] s s' :=
  ⟨_, rfl, State.serSample_keeps ..⟩

theorem execAxisCfgWrite_keeps (k : Ax) (off : Nat) (w : W) (s : State) : ∃ s' : State, execAxisCfgWrite k off w s = .next s' ∧ Keeps [.guar, .ch, .axis, .cal, .pod] s s' :=
  ⟨_, rfl, State.writeAxis_keeps ..⟩

theorem execRegisterWrite_keeps (m : Master) (a : Nat) (w : W) (be : BitVec 4) (s : State) : ∃ s' : State, execRegisterWrite m a w be s = .next s' ∧ Keeps [.time, .master, .guar, .ch, .axis, .cal, .pod, .mem, .store, .eic, .mbx, .abort, .fw, .health, .pcie, .adc, .sur, .pwr, .boot, .free] s s' := by
  unfold execRegisterWrite
  refine ⟨_, rfl, ?_⟩
  all_goals
    repeat' first
      | with_reducible exact Keeps.refl ..
      | extract_lets
      | ((with_reducible refine Keeps.access _ _ _ ?_ ?_ ?_); (on_goal 2 => decide); on_goal 2 => intro _)
      | ((with_reducible apply Keeps.step ?_ (State.busWrite_keeps ..) ?_); on_goal 2 => decide)
      | with_reducible apply Keeps.ite
      | split
      | (dsimp +zetaDelta only; split)

theorem execHoldingRegWrite_keeps (m : Master) (a : Nat) (w : W) (s : State) : ∃ s' : State, execHoldingRegWrite m a w s = .next s' ∧ Keeps [.time, .master, .guar, .ch, .axis, .cal, .pod, .mem, .store, .eic, .mbx, .abort, .fw, .health, .pcie, .adc, .sur, .pwr, .boot, .free] s s' := by
  unfold execHoldingRegWrite
  refine ⟨_, rfl, ?_⟩
  all_goals
    repeat' first
      | with_reducible exact Keeps.refl ..
      | extract_lets
      | ((with_reducible refine Keeps.access _ _ _ ?_ ?_ ?_); (on_goal 2 => decide); on_goal 2 => intro _)
      | ((with_reducible apply Keeps.step ?_ (State.busWrite_keeps ..) ?_); on_goal 2 => decide)
      | with_reducible apply Keeps.ite
      | split
      | (dsimp +zetaDelta only; split)

theorem execWideHighWrite_keeps (m : Master) (a : Nat) (w : W) (s : State) : ∃ s' : State, execWideHighWrite m a w s = .next s' ∧ Keeps [.time, .master, .guar, .ch, .axis, .cal, .pod, .mem, .store, .eic, .mbx, .abort, .fw, .health, .pcie, .adc, .sur, .pwr, .boot, .free] s s' := by
  unfold execWideHighWrite
  refine ⟨_, rfl, ?_⟩
  all_goals
    repeat' first
      | with_reducible exact Keeps.refl ..
      | extract_lets
      | ((with_reducible refine Keeps.access _ _ _ ?_ ?_ ?_); (on_goal 2 => decide); on_goal 2 => intro _)
      | ((with_reducible apply Keeps.step ?_ (State.busWrite_keeps ..) ?_); on_goal 2 => decide)
      | with_reducible apply Keeps.ite
      | split
      | (dsimp +zetaDelta only; split)

theorem execGuarStatClear_keeps (m : Master) (w : W) (s : State) : ∃ s' : State, execGuarStatClear m w s = .next s' ∧ Keeps [.guar, .store, .pcie, .pwr] s s' := by
  unfold execGuarStatClear
  refine ⟨_, rfl, ?_⟩
  all_goals
    repeat' first
      | with_reducible exact Keeps.refl ..
      | extract_lets
      | ((with_reducible refine Keeps.access _ _ _ ?_ ?_ ?_); (on_goal 2 => decide); on_goal 2 => intro _)
      | ((with_reducible apply Keeps.step ?_ (State.guarClear_keeps ..) ?_); on_goal 2 => decide)
      | with_reducible apply Keeps.ite
      | split
      | (dsimp +zetaDelta only; split)

theorem execRcRead_keeps (m : Master) (a : Nat) (s : State) : ∃ s' : State, execRcRead m a s = .next s' ∧ Keeps [.time, .master, .ch, .axis, .cal, .pod, .store, .eic, .mbx, .abort, .fw, .health, .pcie, .adc, .sur, .pwr, .free] s s' := by
  unfold execRcRead
  refine ⟨_, rfl, ?_⟩
  all_goals
    repeat' first
      | with_reducible exact Keeps.refl ..
      | extract_lets
      | ((with_reducible refine Keeps.access _ _ _ ?_ ?_ ?_); (on_goal 2 => decide); on_goal 2 => intro _)
      | ((with_reducible apply Keeps.step ?_ (State.busRead_keeps ..) ?_); on_goal 2 => decide)
      | with_reducible apply Keeps.ite
      | split
      | (dsimp +zetaDelta only; split)

theorem execLowWordRead_keeps (m : Master) (a : Nat) (s : State) : ∃ s' : State, execLowWordRead m a s = .next s' ∧ Keeps [.time, .master, .ch, .axis, .cal, .pod, .store, .eic, .mbx, .abort, .fw, .health, .pcie, .adc, .sur, .pwr, .free] s s' := by
  unfold execLowWordRead
  refine ⟨_, rfl, ?_⟩
  all_goals
    repeat' first
      | with_reducible exact Keeps.refl ..
      | extract_lets
      | ((with_reducible refine Keeps.access _ _ _ ?_ ?_ ?_); (on_goal 2 => decide); on_goal 2 => intro _)
      | ((with_reducible apply Keeps.step ?_ (State.busRead_keeps ..) ?_); on_goal 2 => decide)
      | with_reducible apply Keeps.ite
      | split
      | (dsimp +zetaDelta only; split)

theorem execHighWordRead_keeps (m : Master) (a : Nat) (s : State) : ∃ s' : State, execHighWordRead m a s = .next s' ∧ Keeps [.time, .master, .ch, .axis, .cal, .pod, .store, .eic, .mbx, .abort, .fw, .health, .pcie, .adc, .sur, .pwr, .free] s s' := by
  unfold execHighWordRead
  refine ⟨_, rfl, ?_⟩
  all_goals
    repeat' first
      | with_reducible exact Keeps.refl ..
      | extract_lets
      | ((with_reducible refine Keeps.access _ _ _ ?_ ?_ ?_); (on_goal 2 => decide); on_goal 2 => intro _)
      | ((with_reducible apply Keeps.step ?_ (State.busRead_keeps ..) ?_); on_goal 2 => decide)
      | with_reducible apply Keeps.ite
      | split
      | (dsimp +zetaDelta only; split)

theorem execWideRead8Byte_keeps (a : Nat) (s : State) : ∃ s' : State, execWideRead8Byte a s = .next s' ∧ Keeps [.time, .master, .ch, .axis, .cal, .pod, .store, .eic, .mbx, .abort, .fw, .health, .pcie, .adc, .sur, .pwr, .free] s s' := by
  unfold execWideRead8Byte
  refine ⟨_, rfl, ?_⟩
  all_goals
    repeat' first
      | with_reducible exact Keeps.refl ..
      | extract_lets
      | ((with_reducible refine Keeps.access _ _ _ ?_ ?_ ?_); (on_goal 2 => decide); on_goal 2 => intro _)
      | ((with_reducible apply Keeps.step ?_ (State.wideRead_keeps ..) ?_); on_goal 2 => decide)
      | with_reducible apply Keeps.ite
      | split
      | (dsimp +zetaDelta only; split)

theorem execNop_keeps (b : CmdMbx) (s : State) : ∃ s' : State, execNop b s = .next s' ∧ Keeps [.mbx] s s' := by
  unfold execNop
  refine ⟨_, rfl, ?_⟩
  all_goals
    repeat' first
      | with_reducible exact Keeps.refl ..
      | extract_lets
      | ((with_reducible refine Keeps.command _ _ _ _ ?_); intro _ _)
      | ((with_reducible apply Keeps.step ?_ (State.answer_keeps ..) ?_); on_goal 2 => decide)
      | with_reducible apply Keeps.ite
      | split
      | (dsimp +zetaDelta only; split)

theorem execFwInfo_keeps (b : CmdMbx) (s : State) : ∃ s' : State, execFwInfo b s = .next s' ∧ Keeps [.mbx] s s' := by
  unfold execFwInfo
  refine ⟨_, rfl, ?_⟩
  all_goals
    repeat' first
      | with_reducible exact Keeps.refl ..
      | extract_lets
      | ((with_reducible refine Keeps.command _ _ _ _ ?_); intro _ _)
      | ((with_reducible apply Keeps.step ?_ (State.fwInfo_keeps ..) ?_); on_goal 2 => decide)
      | with_reducible apply Keeps.ite
      | split
      | (dsimp +zetaDelta only; split)

theorem execHealthQuery_keeps (b : CmdMbx) (s : State) : ∃ s' : State, execHealthQuery b s = .next s' ∧ Keeps [.mbx, .free] s s' := by
  unfold execHealthQuery
  refine ⟨_, rfl, ?_⟩
  all_goals
    repeat' first
      | with_reducible exact Keeps.refl ..
      | extract_lets
      | ((with_reducible refine Keeps.command _ _ _ _ ?_); intro _ _)
      | ((with_reducible apply Keeps.step ?_ (State.healthQuery_keeps ..) ?_); on_goal 2 => decide)
      | with_reducible apply Keeps.ite
      | split
      | (dsimp +zetaDelta only; split)

theorem execChQuery_keeps (b : CmdMbx) (s : State) : ∃ s' : State, execChQuery b s = .next s' ∧ Keeps [.ch, .pod, .mbx, .free] s s' := by
  unfold execChQuery
  refine ⟨_, rfl, ?_⟩
  all_goals
    repeat' first
      | with_reducible exact Keeps.refl ..
      | extract_lets
      | ((with_reducible refine Keeps.command _ _ _ _ ?_); intro _ _)
      | ((with_reducible apply Keeps.step ?_ (State.chQuery_keeps ..) ?_); on_goal 2 => decide)
      | with_reducible apply Keeps.ite
      | split
      | (dsimp +zetaDelta only; split)

theorem execChConfig_keeps (b : CmdMbx) (s : State) : ∃ s' : State, execChConfig b s = .next s' ∧ Keeps [.master, .guar, .ch, .pod, .mbx, .sur, .free] s s' := by
  unfold execChConfig
  refine ⟨_, rfl, ?_⟩
  all_goals
    repeat' first
      | with_reducible exact Keeps.refl ..
      | extract_lets
      | ((with_reducible refine Keeps.command _ _ _ _ ?_); intro _ _)
      | ((with_reducible apply Keeps.step ?_ (State.chConfig_keeps ..) ?_); on_goal 2 => decide)
      | with_reducible apply Keeps.ite
      | split
      | (dsimp +zetaDelta only; split)

theorem execAxisConfig_keeps (b : CmdMbx) (s : State) : ∃ s' : State, execAxisConfig b s = .next s' ∧ Keeps [.guar, .ch, .axis, .cal, .pod, .mbx] s s' :=
  ⟨_, rfl, Keeps.command _ _ _ _ (fun _ _ => Keeps.axPairs _ (fun _ _ _ _ => (State.writeAxis_keeps ..).mono (by decide)) (by decide) ..)⟩

theorem execEmulConfig_keeps (b : CmdMbx) (s : State) : ∃ s' : State, execEmulConfig b s = .next s' ∧ Keeps [.guar, .ch, .axis, .cal, .pod, .mbx] s s' :=
  ⟨_, rfl, Keeps.command _ _ _ _ (fun _ _ => Keeps.axPairs _ (fun _ _ _ _ => (State.writeAxis_keeps ..).mono (by decide)) (by decide) ..)⟩

theorem execAdcConfig_keeps (b : CmdMbx) (s : State) : ∃ s' : State, execAdcConfig b s = .next s' ∧ Keeps [.mbx, .adc] s s' :=
  ⟨_, rfl, Keeps.command _ _ _ _ (fun _ _ => Keeps.pairsCmd _ (fun _ _ _ => (adcWrite_keeps ..).mono (by decide)) (by decide) ..)⟩

theorem execPipLoad_keeps (b : CmdMbx) (s : State) : ∃ s' : State, execPipLoad b s = .next s' ∧ Keeps [.ch, .pod, .mbx] s s' := by
  unfold execPipLoad
  refine ⟨_, rfl, ?_⟩
  all_goals
    repeat' first
      | with_reducible exact Keeps.refl ..
      | extract_lets
      | ((with_reducible refine Keeps.command _ _ _ _ ?_); intro _ _)
      | ((with_reducible apply Keeps.step ?_ (State.pipLoad_keeps ..) ?_); on_goal 2 => decide)
      | with_reducible apply Keeps.ite
      | split
      | (dsimp +zetaDelta only; split)

theorem execPipSwap_keeps (b : CmdMbx) (s : State) : ∃ s' : State, execPipSwap b s = .next s' ∧ Keeps [.ch, .pod, .mbx] s s' := by
  unfold execPipSwap
  refine ⟨_, rfl, ?_⟩
  all_goals
    repeat' first
      | with_reducible exact Keeps.refl ..
      | extract_lets
      | ((with_reducible refine Keeps.command _ _ _ _ ?_); intro _ _)
      | ((with_reducible apply Keeps.step ?_ (State.pipSwap_keeps ..) ?_); on_goal 2 => decide)
      | with_reducible apply Keeps.ite
      | split
      | (dsimp +zetaDelta only; split)

theorem execQspiRead_keeps (a n : Nat) (late : List Nat) (s : State) : ∃ s' : State, execQspiRead a n late s = .next s' ∧ Keeps [.time, .master, .ch, .axis, .cal, .pod, .store, .eic, .mbx, .abort, .fw, .health, .pcie, .adc, .sur, .pwr, .free] s s' :=
  ⟨_, rfl, State.qspiRead_keeps ..⟩

theorem execQspiQread_keeps (a n : Nat) (late : List Nat) (s : State) : ∃ s' : State, execQspiQread a n late s = .next s' ∧ Keeps [.time, .master, .ch, .axis, .cal, .pod, .store, .eic, .mbx, .abort, .fw, .health, .pcie, .adc, .sur, .pwr, .free] s s' :=
  ⟨_, rfl, State.qspiRead_keeps ..⟩

theorem execQspiWrite_keeps (a : Nat) (bs : List Byte) (s : State) : ∃ s' : State, execQspiWrite a bs s = .next s' ∧ Keeps [.time, .master, .guar, .ch, .axis, .cal, .pod, .mem, .store, .eic, .mbx, .abort, .fw, .health, .pcie, .adc, .sur, .pwr, .boot, .free] s s' :=
  ⟨_, rfl, State.qspiWrite_keeps ..⟩

theorem execQspiQwrite_keeps (a : Nat) (bs : List Byte) (s : State) : ∃ s' : State, execQspiQwrite a bs s = .next s' ∧ Keeps [.time, .master, .guar, .ch, .axis, .cal, .pod, .mem, .store, .eic, .mbx, .abort, .fw, .health, .pcie, .adc, .sur, .pwr, .boot, .free] s s' :=
  ⟨_, rfl, State.qspiWrite_keeps ..⟩

theorem execSegmentWakeDone_keeps (g : Seg) (s : State) : ∃ s' : State, execSegmentWakeDone g s = .next s' ∧ Keeps [.time, .master, .guar, .ch, .axis, .cal, .pod, .mem, .store, .eic, .mbx, .abort, .fw, .health, .pcie, .adc, .sur, .pwr, .boot, .free] s s' := by
  unfold execSegmentWakeDone
  refine ⟨_, rfl, ?_⟩
  all_goals
    repeat' first
      | with_reducible exact Keeps.refl ..
      | extract_lets
      | ((with_reducible apply Keeps.step ?_ (State.serve_keeps ..) ?_); on_goal 2 => decide)
      | ((with_reducible apply Keeps.step ?_ (State.segmentAwake_keeps ..) ?_); on_goal 2 => decide)
      | with_reducible apply Keeps.ite
      | split
      | (dsimp +zetaDelta only; split)

theorem execRunReached_keeps (s : State) : ∃ s' : State, execRunReached s = .next s' ∧ Keeps [.time, .master, .guar, .ch, .axis, .cal, .pod, .mem, .store, .eic, .mbx, .abort, .fw, .health, .pcie, .adc, .sur, .pwr, .boot, .free] s s' := by
  unfold execRunReached
  refine ⟨_, rfl, ?_⟩
  all_goals
    repeat' first
      | with_reducible exact Keeps.refl ..
      | extract_lets
      | ((with_reducible apply Keeps.step ?_ (State.runReached_keeps ..) ?_); on_goal 2 => decide)
      | with_reducible apply Keeps.ite
      | split
      | (dsimp +zetaDelta only; split)

end Sys2Proof.Machine
end

