-- ==== Sys2Proof/Laws/Memory.lean ====
section
/-!
SUPPORT. The store's contents: a read after a write, and the canonical form that every write keeps.
-/
namespace Sys2Proof.Machine

@[simp] theorem memRead_nil (a : Nat) : memRead a [] = 0 := rfl

/-- Below a list's least address every byte reads 0. -/
theorem memRead_of_memAbove {a b : Nat} (hb : b ≤ a) : ∀ {m : Memory}, memAbove a m = true → memRead b m = 0
  | [], _ => rfl
  | (x, v) :: r, h => by
    simp only [memAbove, Bool.and_eq_true, decide_eq_true_eq] at h
    have hx : x ≠ b := by omega
    simp only [memRead, hx, if_false]
    exact memRead_of_memAbove hb h.2

theorem memAbove_mono {a b : Nat} (hb : b ≤ a) : ∀ {m : Memory}, memAbove a m = true → memAbove b m = true
  | [], _ => rfl
  | (x, v) :: r, h => by
    simp only [memAbove, Bool.and_eq_true, decide_eq_true_eq] at h ⊢
    exact ⟨by omega, memAbove_mono hb h.2⟩

/-- A write above an address leaves the list above it. -/
theorem memAbove_memWrite {a b : Nat} (v : Byte) (hb : b < a) : ∀ {m : Memory}, memAbove b m = true → memAbove b (memWrite a v m) = true
  | [], _ => by
    unfold memWrite
    split
    · rfl
    · simp [memAbove, hb]
  | (x, w) :: r, h => by
    simp only [memAbove, Bool.and_eq_true, decide_eq_true_eq] at h
    have ih := memAbove_memWrite v hb h.2
    unfold memWrite
    repeat' split
    all_goals simp_all [memAbove]

/-- The read of the byte written gives it. -/
@[simp] theorem memRead_memWrite_same (a : Nat) (v : Byte) : ∀ {m : Memory}, Memory.wf m = true → memRead a (memWrite a v m) = v
  | [], _ => by
    unfold memWrite
    split <;> simp_all [memRead]
  | (x, w) :: r, h => by
    simp only [Memory.wf, Bool.and_eq_true, decide_eq_true_eq] at h
    have ih := memRead_memWrite_same a v h.2
    unfold memWrite
    split
    · have hx : x ≠ a := by omega
      simp only [memRead, hx, if_false]
      exact ih
    · split
      · rename_i h1 h2
        split
        · rename_i h3
          subst h2
          rw [h3]
          exact memRead_of_memAbove (Nat.le_refl _) h.1.2
        · simp [memRead]
      · rename_i h1 h2
        split
        · rename_i h3
          have hx : x ≠ a := h2
          simp only [memRead, hx, if_false]
          rw [h3]
          exact memRead_of_memAbove (by omega) h.1.2
        · simp [memRead]

/-- A write leaves every other byte as it was. -/
@[simp] theorem memRead_memWrite_other {a b : Nat} (v : Byte) (hb : b ≠ a) : ∀ {m : Memory}, Memory.wf m = true → memRead b (memWrite a v m) = memRead b m
  | [], _ => by
    unfold memWrite
    split
    · rfl
    · simp [memRead, Ne.symm hb]
  | (x, w) :: r, h => by
    simp only [Memory.wf, Bool.and_eq_true, decide_eq_true_eq] at h
    have ih := memRead_memWrite_other v hb h.2
    unfold memWrite
    split
    · simp only [memRead]
      split
      · rfl
      · exact ih
    · split
      · rename_i h1 h2
        subst h2
        split
        · simp [memRead, Ne.symm hb]
        · simp [memRead, Ne.symm hb]
      · split
        · rfl
        · simp [memRead, Ne.symm hb]

/-- A write keeps the canonical form. -/
theorem memWrite_wf (a : Nat) (v : Byte) : ∀ {m : Memory}, Memory.wf m = true → Memory.wf (memWrite a v m) = true
  | [], _ => by
    unfold memWrite
    split
    · rfl
    · simp_all [Memory.wf, memAbove]
  | (x, w) :: r, h => by
    simp only [Memory.wf, Bool.and_eq_true, decide_eq_true_eq] at h
    have ih := memWrite_wf a v h.2
    unfold memWrite
    split
    · rename_i h1
      simp only [Memory.wf, Bool.and_eq_true, decide_eq_true_eq]
      exact ⟨⟨h.1.1, memAbove_memWrite v h1 h.1.2⟩, ih⟩
    · split
      · rename_i h1 h2
        subst h2
        split
        · exact h.2
        · simp only [Memory.wf, Bool.and_eq_true, decide_eq_true_eq]
          exact ⟨⟨by assumption, h.1.2⟩, h.2⟩
      · split
        · simp only [Memory.wf, Bool.and_eq_true, decide_eq_true_eq]
          exact h
        · rename_i h1 h2 h3
          simp only [Memory.wf, memAbove, Bool.and_eq_true, decide_eq_true_eq]
          exact ⟨⟨h3, by omega, memAbove_mono (by omega) h.1.2⟩, h⟩

theorem memWrites_wf : ∀ (bs : List Byte) (a : Nat) {m : Memory}, Memory.wf m = true → Memory.wf (memWrites a bs m) = true
  | [], _, _, h => h
  | b :: bs, a, _, h => memWrites_wf bs (a + 1) (memWrite_wf a b h)

theorem memWriteSome_wf : ∀ (bs : List (Option Byte)) (a : Nat) {m : Memory}, Memory.wf m = true → Memory.wf (memWriteSome a bs m) = true
  | [], _, _, h => h
  | some b :: bs, a, _, h => memWriteSome_wf bs (a + 1) (memWrite_wf a b h)
  | none :: bs, a, _, h => memWriteSome_wf bs (a + 1) h

theorem memWriteCells_wf : ∀ (l : List (Nat × Byte)) {m : Memory}, Memory.wf m = true →
    Memory.wf (l.foldl (fun (mem : Memory) (c : Nat × Byte) => memWrite c.1 c.2 mem) m) = true
  | [], _, h => h
  | c :: l, _, h => memWriteCells_wf l (memWrite_wf c.1 c.2 h)

/-- Bytes written one after another leave the bytes below and above them. -/
theorem memRead_memWrites_other : ∀ (bs : List Byte) {a b : Nat} {m : Memory}, Memory.wf m = true → (b < a ∨ a + bs.length ≤ b) →
    memRead b (memWrites a bs m) = memRead b m
  | [], _, _, _, _, _ => rfl
  | v :: bs, a, b, m, h, hb => by
    simp only [List.length_cons] at hb
    have hne : b ≠ a := by omega
    rw [memWrites, memRead_memWrites_other bs (memWrite_wf a v h) (by omega), memRead_memWrite_other v hne h]

/-- Byte i of bytes written from a reads back. -/
theorem memRead_memWrites_at : ∀ (bs : List Byte) {a i : Nat} {m : Memory} (h : Memory.wf m = true) (hi : i < bs.length),
    memRead (a + i) (memWrites a bs m) = bs[i]
  | v :: bs, a, 0, m, h, _ => by
    have := memRead_memWrites_other bs (a := a + 1) (b := a) (memWrite_wf a v h) (by omega)
    simp only [Nat.add_zero, memWrites, this, memRead_memWrite_same a v h, List.getElem_cons_zero]
  | v :: bs, a, i + 1, m, h, hi => by
    simp only [List.length_cons] at hi
    have := memRead_memWrites_at bs (a := a + 1) (i := i) (memWrite_wf a v h) (by omega)
    have he : a + (i + 1) = a + 1 + i := by omega
    simp only [memWrites, he, this, List.getElem_cons_succ]

end Sys2Proof.Machine
end

