-- ==== Sys2Proof/Laws/Sound.lean ====
section
/-!
SUPPORT. What every operation but an always-on power-on reset keeps: the canonical form of the store's contents, and Line Time does not go back (`Sound`).
-/
namespace Sys2Proof.Machine

/-- From s to t the store's contents keep their form and Line Time does not go back. -/
def Sound (s t : State) : Prop := (s.memOk → t.memOk) ∧ LtForward s t

theorem Sound.refl (s : State) : Sound s s := ⟨id, Nat.le_refl _⟩

theorem Sound.trans {s t u : State} (h : Sound s t) (k : Sound t u) : Sound s u :=
  ⟨fun m => k.1 (h.1 m), Nat.le_trans h.2 k.2⟩

/-- An operation that touches neither. -/
theorem Sound.keeps {l : List Part} {s t u : State} (h : Sound s t) (k : Keeps l t u) (hm : Part.mem ∉ l) (ht : Part.time ∉ l) : Sound s u := by
  refine h.trans ⟨fun m => ?_, ?_⟩
  · have e : u.store.mem = t.store.mem := k.2 .mem hm
    unfold State.memOk
    rw [e]
    exact m
  · have e : u.time = t.time := k.2 .time ht
    unfold LtForward
    rw [e]

theorem Sound.of_keeps {l : List Part} {s t : State} (k : Keeps l s t) (hm : Part.mem ∉ l) (ht : Part.time ∉ l) : Sound s t :=
  (Sound.refl s).keeps k hm ht

theorem Sound.ite {s a b : State} {c : Prop} [Decidable c] (ha : Sound s a) (hb : Sound s b) : Sound s (if c then a else b) := by
  split <;> assumption

theorem Sound.when {s t : State} (h : Sound s t) (b : Bool) (f : State → State) (k : ∀ u, Sound u (f u)) : Sound s (State.when b f t) := by
  unfold State.when
  split
  · exact h.trans (k t)
  · exact h

theorem Sound.forAll {α : Type} (f : α → State → State) (k : ∀ a u, Sound u (f a u)) : ∀ (xs : List α) {s t : State}, Sound s t → Sound s (forAll xs f t)
  | [], _, _, h => h
  | a :: r, _, t, h => Sound.forAll f k r (h.trans (k a t))

/-- An update of a state as a whole. -/
theorem Sound.upd {s t : State} {x0 : Time} {x1 : Vector MasterSt 8} {x2 : Guar} {x3 : Vector Channel 128} {x4 : Vector Axis 8} {x5 : Calendar} {x6 : Vector PodSt 8} {x7 : Store} {x8 : Eic} {x9 : Vector Mailbox 32} {x10 : Abort} {x11 : Firmware} {x12 : Health} {x13 : Pcie} {x14 : Adc} {x15 : Sur} {x16 : Power} {x17 : Boot} {x18 : Fuses} {x19 : Jtag} {x20 : Nat}
    (h : Sound s t) (km : Memory.wf t.store.mem = true → Memory.wf x7.mem = true) (kt : t.time.lt ≤ x0.lt) : Sound s (State.mk x0 x1 x2 x3 x4 x5 x6 x7 x8 x9 x10 x11 x12 x13 x14 x15 x16 x17 x18 x19 x20 t.pending) :=
  h.trans ⟨km, kt⟩

/-- Bytes written to the store. -/
theorem Sound.setStore (t : State) (x : Store) (a : Nat) (bs : List Byte) (h : x.mem = memWrites a bs t.store.mem) :
    Sound t { t with store := x } := by
  refine ⟨fun k => ?_, Nat.le_refl _⟩
  show Memory.wf x.mem = true
  rw [h]
  exact memWrites_wf _ _ k

end Sys2Proof.Machine
end

