-- ==== Sys2Proof/Laws/SoundOps.lean ====
section
/-!
SUPPORT. The operations that write the store's contents or Line Time keep the one's form and do not turn the other back (`Sound`).
-/
namespace Sys2Proof.Machine
-- One script is tried on every goal of this file, so on some goals a part of it has nothing to do.
set_option linter.unusedTactic false
set_option linter.unreachableTactic false

theorem Sound.behindBar2 {s t : State} (row : Instr) (f : State → State) (h : Sound s t) (k : ∀ u, Sound u (f u)) :
    Sound s (State.behindBar2 row f t) := by
  unfold State.behindBar2
  split
  · exact h.keeps (Keeps.setStore t _ (by exact rfl)) (by decide) (by decide)
  · exact h.trans (k t)

theorem Sound.behindPage {s t : State} (row : Instr) (f : State → State) (h : Sound s t) (k : ∀ u, Sound u (f u)) :
    Sound s (State.behindPage row f t) := by
  unfold State.behindPage
  split
  · exact h.keeps (Keeps.setStore t _ (by exact rfl)) (by decide) (by decide)
  · exact h.trans (k t)

theorem Sound.pcieReq {s t : State} (row : Instr) (f : State → State) (h : Sound s t) (k : ∀ u, Sound u (f u)) : Sound s (State.pcieReq row f t) := by
  unfold State.pcieReq
  split
  · exact h
  · split
    · exact h.trans ⟨id, Nat.le_refl _⟩
    · extract_lets _ u
      have hu : Sound s u := h.trans ⟨id, Nat.le_refl _⟩
      split
      · refine Sound.keeps (l := [.pwr]) (t := { u with pwr := { u.pwr with held := u.pwr.held ++ [row] } }) (hu.trans ⟨id, Nat.le_refl _⟩) (State.wakeIf_keeps ..) (by decide) (by decide)
      · exact hu.trans (k u)

theorem Sound.access {s t : State} (m : Master) (row : Instr) (f : State → State) (h : Sound s t) (k : ∀ u, Sound u (f u)) :
    Sound s (State.access m row f t) := by
  unfold State.access
  split
  · exact Sound.pcieReq row _ h (fun u => Sound.behindBar2 row f (Sound.refl u) k)
  · split
    · exact h.keeps (State.wakeIf_keeps ..) (by decide) (by decide)
    · exact Sound.behindPage row f h k
  · split
    · exact h.trans (k t)
    · exact h
  · exact h.trans (k t)

theorem State.ringWrite_sound (base : BitVec 64) (off : Nat) (bs : List Byte) (s : State) : Sound s (State.ringWrite base off bs s) := by
  unfold State.ringWrite
  repeat' first
    | with_reducible exact Sound.refl ..
    | extract_lets
    | with_reducible apply Sound.ite
    | split
    | (dsimp +zetaDelta only; split)
    | ((with_reducible apply Sound.upd ?_ ?_ ?_); (on_goal 2 => first | with_reducible exact id | exact fun h => memWrites_wf _ _ h | exact fun h => memWriteCells_wf _ h); on_goal 2 => exact Nat.le_refl _)

theorem State.resPut_sound (p : Pod) (r : ResRec) (s : State) : Sound s (State.resPut p r s) := by
  unfold State.resPut
  repeat' first
    | with_reducible exact Sound.refl ..
    | extract_lets
    | with_reducible apply Sound.trans ?_ (State.ringWrite_sound ..)
    | ((with_reducible apply Sound.keeps ?_ (State.modPod_keeps ..) ?_ ?_); (on_goal 2 => decide); on_goal 2 => decide)

theorem State.resWrite_sound (p : Pod) (reserved : Bool) (r : ResRec) (s : State) : Sound s (State.resWrite p reserved r s) := by
  unfold State.resWrite
  repeat' first
    | with_reducible exact Sound.refl ..
    | extract_lets
    | ((with_reducible apply Sound.keeps ?_ (State.modPod_keeps ..) ?_ ?_); (on_goal 2 => decide); on_goal 2 => decide)
    | with_reducible apply Sound.trans ?_ (State.resPut_sound ..)
    | with_reducible apply Sound.ite

theorem drainBacklog_sound (p : Pod) : ∀ (k : Nat) (s : State), Sound s (drainBacklog p k s)
  | 0, s => Sound.refl s
  | k + 1, s => by
    have ih := drainBacklog_sound p k
    unfold drainBacklog
    extract_lets q
    split
    · exact Sound.refl s
    · split
      · refine Sound.trans ?_ (ih _)
        exact ((Sound.refl s).keeps (State.modPod_keeps ..) (by decide) (by decide)).trans (State.resPut_sound ..)
      · exact Sound.refl s

theorem State.backlogDrain_sound (p : Pod) (s : State) : Sound s (State.backlogDrain p s) := by
  unfold State.backlogDrain
  repeat' first
    | with_reducible exact Sound.refl ..
    | extract_lets
    | with_reducible apply Sound.trans ?_ (drainBacklog_sound ..)
    | ((with_reducible apply Sound.keeps ?_ (State.gapRecord_keeps ..) ?_ ?_); (on_goal 2 => decide); on_goal 2 => decide)

theorem State.report_sound (p : Pod) (o : Outcome) (s : State) : Sound s (State.report p o s) := by
  unfold State.report
  repeat' first
    | with_reducible exact Sound.refl ..
    | extract_lets
    | with_reducible apply Sound.trans ?_ (State.resWrite_sound ..)
    | with_reducible apply Sound.ite

theorem State.retire_sound (p : Pod) (s : State) : Sound s (State.retire p s) := by
  unfold State.retire
  repeat' first
    | with_reducible exact Sound.refl ..
    | extract_lets
    | ((with_reducible refine Sound.forAll _ ?_ _ ?_); on_goal 1 => intro _ _)
    | ((with_reducible apply Sound.keeps ?_ (State.modPod_keeps ..) ?_ ?_); (on_goal 2 => decide); on_goal 2 => decide)
    | with_reducible apply Sound.trans ?_ (State.report_sound ..)

theorem State.measEnd_sound (status detail : Nat) (reply : List Byte) (value : W) (kept : Option Nat) (s : State) : Sound s (State.measEnd status detail reply value kept s) := by
  unfold State.measEnd
  repeat' first
    | with_reducible exact Sound.refl ..
    | extract_lets
    | ((with_reducible apply Sound.keeps ?_ (State.used_keeps ..) ?_ ?_); (on_goal 2 => decide); on_goal 2 => decide)
    | with_reducible apply Sound.trans ?_ (State.resWrite_sound ..)
    | ((with_reducible apply Sound.keeps ?_ (State.notice_keeps ..) ?_ ?_); (on_goal 2 => decide); on_goal 2 => decide)
    | ((with_reducible apply Sound.keeps ?_ (State.measAnswer_keeps ..) ?_ ?_); (on_goal 2 => decide); on_goal 2 => decide)
    | ((with_reducible apply Sound.keeps ?_ (State.measKeep_keeps ..) ?_ ?_); (on_goal 2 => decide); on_goal 2 => decide)
    | with_reducible apply Sound.ite
    | split
    | (dsimp +zetaDelta only; split)
    | ((with_reducible apply Sound.upd ?_ ?_ ?_); (on_goal 2 => first | with_reducible exact id | exact fun h => memWrites_wf _ _ h | exact fun h => memWriteCells_wf _ h); on_goal 2 => exact Nat.le_refl _)

theorem State.measFail_sound (reason : Nat) (s : State) : Sound s (State.measFail reason s) := by
  unfold State.measFail
  repeat' first
    | with_reducible exact Sound.refl ..
    | extract_lets
    | with_reducible apply Sound.trans ?_ (State.measEnd_sound ..)

theorem State.measAbandon_sound (n : Ch) (s : State) : Sound s (State.measAbandon n s) := by
  unfold State.measAbandon
  repeat' first
    | with_reducible exact Sound.refl ..
    | extract_lets
    | with_reducible apply Sound.trans ?_ (State.measFail_sound ..)
    | with_reducible apply Sound.ite
    | split
    | (dsimp +zetaDelta only; split)
    | ((with_reducible apply Sound.upd ?_ ?_ ?_); (on_goal 2 => first | with_reducible exact id | exact fun h => memWrites_wf _ _ h | exact fun h => memWriteCells_wf _ h); on_goal 2 => exact Nat.le_refl _)

theorem State.measStop_sound (n : Ch) (s : State) : Sound s (State.measStop n s) := by
  unfold State.measStop
  repeat' first
    | with_reducible exact Sound.refl ..
    | extract_lets
    | with_reducible apply Sound.trans ?_ (State.measFail_sound ..)
    | with_reducible apply Sound.ite

theorem State.arm_sound (u : Unit4) (e : Ev) (s : State) : Sound s (State.arm u e s) := by
  unfold State.arm
  repeat' first
    | with_reducible exact Sound.refl ..
    | extract_lets
    | ((with_reducible apply Sound.when ?_ _ _ ?_); on_goal 2 => intro _)
    | ((with_reducible apply Sound.keeps ?_ (State.modPod_keeps ..) ?_ ?_); (on_goal 2 => decide); on_goal 2 => decide)
    | with_reducible apply Sound.trans ?_ (State.measAbandon_sound ..)
    | ((with_reducible apply Sound.keeps ?_ (State.commitUnit_keeps ..) ?_ ?_); (on_goal 2 => decide); on_goal 2 => decide)

theorem State.armUrgent_sound (e : Ev) (s : State) : Sound s (State.armUrgent e s) := by
  unfold State.armUrgent
  repeat' first
    | with_reducible exact Sound.refl ..
    | extract_lets
    | ((with_reducible apply Sound.keeps ?_ (State.stageEv_keeps ..) ?_ ?_); (on_goal 2 => decide); on_goal 2 => decide)
    | with_reducible apply Sound.trans ?_ (State.arm_sound ..)
    | ((with_reducible apply Sound.keeps ?_ (State.displace_keeps ..) ?_ ?_); (on_goal 2 => decide); on_goal 2 => decide)
    | with_reducible apply Sound.ite
    | split

theorem State.armFast_sound (p : Pod) (s : State) : Sound s (State.armFast p s) := by
  unfold State.armFast
  repeat' first
    | with_reducible exact Sound.refl ..
    | extract_lets
    | ((with_reducible apply Sound.when ?_ _ _ ?_); on_goal 2 => intro _)
    | ((with_reducible apply Sound.keeps ?_ (State.modPod_keeps ..) ?_ ?_); (on_goal 2 => decide); on_goal 2 => decide)
    | ((with_reducible apply Sound.keeps ?_ (State.freeSlots_keeps ..) ?_ ?_); (on_goal 2 => decide); on_goal 2 => decide)
    | ((with_reducible apply Sound.keeps ?_ (State.markAmbig_keeps ..) ?_ ?_); (on_goal 2 => decide); on_goal 2 => decide)
    | ((with_reducible apply Sound.keeps ?_ (State.noteHeld_keeps ..) ?_ ?_); (on_goal 2 => decide); on_goal 2 => decide)
    | ((with_reducible apply Sound.keeps ?_ (State.drainIf_keeps ..) ?_ ?_); (on_goal 2 => decide); on_goal 2 => decide)
    | with_reducible apply Sound.trans ?_ (State.armUrgent_sound ..)
    | with_reducible apply Sound.ite
    | split

theorem State.armStage_sound (p : Pod) (s : State) : Sound s (State.armStage p s) := by
  unfold State.armStage
  repeat' first
    | with_reducible exact Sound.refl ..
    | extract_lets
    | with_reducible apply Sound.trans ?_ (State.arm_sound ..)
    | ((with_reducible apply Sound.keeps ?_ (State.modPod_keeps ..) ?_ ?_); (on_goal 2 => decide); on_goal 2 => decide)
    | with_reducible apply Sound.ite
    | split

theorem State.missedAtDue_sound (p : Pod) (s : State) : Sound s (State.missedAtDue p s) := by
  unfold State.missedAtDue
  repeat' first
    | with_reducible exact Sound.refl ..
    | extract_lets
    | with_reducible apply Sound.trans ?_ (State.retire_sound ..)
    | ((with_reducible apply Sound.keeps ?_ (State.missLost_keeps ..) ?_ ?_); (on_goal 2 => decide); on_goal 2 => decide)
    | ((with_reducible apply Sound.keeps ?_ (State.missAborted_keeps ..) ?_ ?_); (on_goal 2 => decide); on_goal 2 => decide)

/-- A whole word written into a ring of captures keeps the form. -/
theorem State.memOk_putWord {s : State} (a : Nat) (bs : List Byte) (ring : Vector CapRing 8) (h : s.memOk) :
    State.memOk { s with store := { s.store.putWord a bs with ring := ring } } := by
  unfold State.memOk at h ⊢
  unfold Store.putWord
  dsimp only
  exact memWrites_wf _ _ h

theorem State.capSpill_sound (p : Pod) (s : State) : Sound s (State.capSpill p s) := by
  unfold State.capSpill
  extract_lets t q r at0 u
  refine Sound.forAll _ (fun a v => Sound.of_keeps (State.settleSpill_keeps ..) (by decide) (by decide)) _ ?_
  have ht : Sound s t := Sound.forAll _ (fun a v => Sound.of_keeps (State.settleCaps_keeps ..) (by decide) (by decide)) _ (Sound.refl s)
  clear_value t r
  simp only [u]
  generalize oldestCap q.capQ = o
  cases o with
  | none => exact ht
  | some x =>
    obtain ⟨n, e⟩ := x
    dsimp only
    split
    · exact (ht.keeps (State.modPod_keeps ..) (by decide) (by decide)).keeps (State.modCh_keeps ..) (by decide) (by decide)
    · refine Sound.keeps ?_ (State.modCh_keeps ..) (by decide) (by decide)
      have hv : ∀ f, Sound s (State.modPod p f t) := fun f => ht.keeps (State.modPod_keeps ..) (by decide) (by decide)
      generalize hw : State.modPod p (fun q_1 => { q_1 with capQ := dropFirst (n, e) q.capQ }) t = v
      have hs : Sound s v := hw ▸ hv _
      exact hs.trans ⟨fun h => State.memOk_putWord _ _ _ h, Nat.le_refl _⟩

theorem State.drainWord_sound (n : Ch) (s : State) : Sound s (State.drainWord n s) := by
  unfold State.drainWord
  repeat' first
    | with_reducible exact Sound.refl ..
    | extract_lets
    | ((with_reducible apply Sound.keeps ?_ (State.modPip_keeps ..) ?_ ?_); (on_goal 2 => decide); on_goal 2 => decide)
    | ((with_reducible apply Sound.keeps ?_ (State.modFeeder_keeps ..) ?_ ?_); (on_goal 2 => decide); on_goal 2 => decide)
    | with_reducible apply Sound.ite
    | split
    | (dsimp +zetaDelta only; split)
    | ((with_reducible apply Sound.upd ?_ ?_ ?_); (on_goal 2 => first | with_reducible exact id | exact fun h => memWrites_wf _ _ h | exact fun h => memWriteCells_wf _ h); on_goal 2 => exact Nat.le_refl _)

theorem State.pipXfer_sound (n : Ch) (drain : Bool) (s : State) : Sound s (State.pipXfer n drain s) := by
  unfold State.pipXfer
  repeat' first
    | with_reducible exact Sound.refl ..
    | extract_lets
    | ((with_reducible refine Sound.forAll _ ?_ _ ?_); on_goal 1 => intro _ _)
    | ((with_reducible apply Sound.keeps ?_ (State.pipNow_keeps ..) ?_ ?_); (on_goal 2 => decide); on_goal 2 => decide)
    | with_reducible apply Sound.trans ?_ (State.drainWord_sound ..)
    | ((with_reducible apply Sound.keeps ?_ (State.feedWord_keeps ..) ?_ ?_); (on_goal 2 => decide); on_goal 2 => decide)
    | with_reducible apply Sound.ite

theorem State.cfgJob_sound (p : Pod) (s : State) : Sound s (State.cfgJob p s) := by
  unfold State.cfgJob
  repeat' first
    | with_reducible exact Sound.refl ..
    | extract_lets
    | ((with_reducible apply Sound.keeps ?_ (State.modPod_keeps ..) ?_ ?_); (on_goal 2 => decide); on_goal 2 => decide)
    | ((with_reducible apply Sound.keeps ?_ (State.answer_keeps ..) ?_ ?_); (on_goal 2 => decide); on_goal 2 => decide)
    | with_reducible apply Sound.trans ?_ (State.backlogDrain_sound ..)
    | with_reducible apply Sound.ite
    | split

theorem State.calUe_sound (a : Nat) (inUse : Bool) (s : State) : Sound s (State.calUe a inUse s) := by
  have key : ∀ (bs : List Byte) (c : Calendar),
      Sound s { s with store := { s.store with mem := memWrites (a / 16 * 16) bs s.store.mem }, cal := c } :=
    fun bs _ => ⟨fun h => memWrites_wf bs _ h, Nat.le_refl _⟩
  unfold State.calUe
  extract_lets g fixable
  split
  · exact (key _ _).keeps (State.wordGood_keeps ..) (by decide) (by decide)
  · split
    · exact (key _ _).keeps (State.wordGood_keeps ..) (by decide) (by decide)
    · exact Sound.of_keeps (State.loseRecord_keeps ..) (by decide) (by decide)

theorem State.ueOutcome_sound (master a : Nat) (s : State) : Sound s (State.ueOutcome master a s) := by
  unfold State.ueOutcome
  repeat' first
    | with_reducible exact Sound.refl ..
    | extract_lets
    | ((with_reducible apply Sound.when ?_ _ _ ?_); on_goal 2 => intro _)
    | with_reducible apply Sound.trans ?_ (State.calUe_sound ..)
    | ((with_reducible apply Sound.keeps ?_ (State.loseStaged_keeps ..) ?_ ?_); (on_goal 2 => decide); on_goal 2 => decide)
    | with_reducible apply Sound.ite
    | split

theorem State.grant_sound (r : StoreReq) (s : State) : Sound s (State.grant r s) := by
  unfold State.grant
  extract_lets a old t
  have ht : Sound s t := Sound.of_keeps (State.modArb_keeps ..) (by decide) (by decide)
  clear_value t old a
  split
  · split
    · exact ht.keeps (State.modArb_keeps ..) (by decide) (by decide)
    · exact (ht.keeps (State.modArb_keeps ..) (by decide) (by decide)).keeps (State.ceSeen_keeps ..) (by decide) (by decide)
    · refine Sound.trans ?_ (State.ueOutcome_sound ..)
      refine Sound.keeps ?_ (State.ueSeen_keeps ..) (by decide) (by decide)
      refine Sound.keeps ?_ (State.used_keeps ..) (by decide) (by decide)
      exact ht.keeps (State.modArb_keeps ..) (by decide) (by decide)
  · refine Sound.keeps ?_ (State.wordGood_keeps ..) (by decide) (by decide)
    exact ht.trans (Sound.setStore t _ _ _ rfl)
  · have h2 : ∀ b, Sound s { t with store := { t.store with busy := b } } := fun b => ht.trans ⟨id, Nat.le_refl _⟩
    split
    · exact (h2 _).keeps (State.ueSeen_keeps ..) (by decide) (by decide)
    · refine Sound.keeps ?_ (State.wordGood_keeps ..) (by decide) (by decide)
      refine Sound.keeps ?_ (State.ceSeen_keeps ..) (by decide) (by decide)
      exact (h2 _).trans (Sound.setStore _ _ _ _ rfl)
    · exact (h2 _).trans (Sound.setStore _ _ _ _ rfl)

theorem State.storeAccess_sound (bank : Fin 96) (reqs : List StoreReq) (s : State) : Sound s (State.storeAccess bank reqs s) := by
  unfold State.storeAccess
  repeat' first
    | with_reducible exact Sound.refl ..
    | extract_lets
    | ((with_reducible refine Sound.forAll _ ?_ _ ?_); on_goal 1 => intro _ _)
    | ((with_reducible apply Sound.keeps ?_ (State.waitRmw_keeps ..) ?_ ?_); (on_goal 2 => decide); on_goal 2 => decide)
    | with_reducible apply Sound.trans ?_ (State.grant_sound ..)
    | ((with_reducible apply Sound.keeps ?_ (State.loseTry_keeps ..) ?_ ?_); (on_goal 2 => decide); on_goal 2 => decide)
    | with_reducible apply Sound.ite
    | split
    | (dsimp +zetaDelta only; split)
    | ((with_reducible apply Sound.upd ?_ ?_ ?_); (on_goal 2 => first | with_reducible exact id | exact fun h => memWrites_wf _ _ h | exact fun h => memWriteCells_wf _ h); on_goal 2 => exact Nat.le_refl _)

theorem State.scrubWord_sound (a : Nat) (e : Ecc) (s : State) : Sound s (State.scrubWord a e s) := by
  unfold State.scrubWord
  repeat' first
    | with_reducible exact Sound.refl ..
    | extract_lets
    | ((with_reducible apply Sound.keeps ?_ (State.ceSeen_keeps ..) ?_ ?_); (on_goal 2 => decide); on_goal 2 => decide)
    | with_reducible apply Sound.trans ?_ (State.calUe_sound ..)
    | ((with_reducible apply Sound.keeps ?_ (State.ueSeen_keeps ..) ?_ ?_); (on_goal 2 => decide); on_goal 2 => decide)
    | ((with_reducible apply Sound.keeps ?_ (State.used_keeps ..) ?_ ?_); (on_goal 2 => decide); on_goal 2 => decide)
    | with_reducible apply Sound.ite
    | split

theorem State.scrubPass_sound (found : List (Nat × Ecc)) (s : State) : Sound s (State.scrubPass found s) := by
  unfold State.scrubPass
  repeat' first
    | with_reducible exact Sound.refl ..
    | extract_lets
    | ((with_reducible refine Sound.forAll _ ?_ _ ?_); on_goal 1 => intro _ _)
    | with_reducible apply Sound.trans ?_ (State.scrubWord_sound ..)
    | with_reducible apply Sound.ite
    | split
    | (dsimp +zetaDelta only; split)
    | ((with_reducible apply Sound.upd ?_ ?_ ?_); (on_goal 2 => first | with_reducible exact id | exact fun h => memWrites_wf _ _ h | exact fun h => memWriteCells_wf _ h); on_goal 2 => exact Nat.le_refl _)

theorem State.winWord_sound (m : Fin 25) (cells : List (Nat × Byte)) (w : Nat) (s : State) : Sound s (State.winWord m cells w s) := by
  unfold State.winWord
  repeat' first
    | with_reducible exact Sound.refl ..
    | extract_lets
    | ((with_reducible apply Sound.when ?_ _ _ ?_); on_goal 2 => intro _)
    | ((with_reducible apply Sound.keeps ?_ (State.ueSeen_keeps ..) ?_ ?_); (on_goal 2 => decide); on_goal 2 => decide)
    | ((with_reducible apply Sound.keeps ?_ (State.wordGood_keeps ..) ?_ ?_); (on_goal 2 => decide); on_goal 2 => decide)
    | with_reducible apply Sound.ite
    | split
    | (dsimp +zetaDelta only; split)
    | ((with_reducible apply Sound.upd ?_ ?_ ?_); (on_goal 2 => first | with_reducible exact id | exact fun h => memWrites_wf _ _ h | exact fun h => memWriteCells_wf _ h); on_goal 2 => exact Nat.le_refl _)

theorem State.winWrite_sound (m : Fin 25) (cells : List (Nat × Byte)) (s : State) : Sound s (State.winWrite m cells s) := by
  unfold State.winWrite
  repeat' first
    | with_reducible exact Sound.refl ..
    | extract_lets
    | ((with_reducible apply Sound.when ?_ _ _ ?_); on_goal 2 => intro _)
    | ((with_reducible refine Sound.forAll _ ?_ _ ?_); on_goal 1 => intro _ _)
    | with_reducible apply Sound.trans ?_ (State.winWord_sound ..)
    | ((with_reducible apply Sound.keeps ?_ (State.winErr_keeps ..) ?_ ?_); (on_goal 2 => decide); on_goal 2 => decide)

theorem State.winAccess_sound (x : WinAccess) (s : State) : Sound s (State.winAccess x s) := by
  unfold State.winAccess
  repeat' first
    | with_reducible exact Sound.refl ..
    | extract_lets
    | ((with_reducible apply Sound.keeps ?_ (State.winRead_keeps ..) ?_ ?_); (on_goal 2 => decide); on_goal 2 => decide)
    | with_reducible apply Sound.trans ?_ (State.winWrite_sound ..)
    | with_reducible apply Sound.ite
    | split

theorem State.hostAccess_sound (x : WinAccess) (s : State) : Sound s (State.hostAccess x s) := by
  unfold State.hostAccess
  repeat' first
    | with_reducible exact Sound.refl ..
    | extract_lets
    | ((with_reducible refine Sound.forAll _ ?_ _ ?_); on_goal 1 => intro _ _)
    | ((with_reducible apply Sound.keeps ?_ (State.autoWake_keeps ..) ?_ ?_); (on_goal 2 => decide); on_goal 2 => decide)
    | with_reducible apply Sound.trans ?_ (State.winAccess_sound ..)
    | with_reducible apply Sound.ite
    | split
    | (dsimp +zetaDelta only; split)
    | ((with_reducible apply Sound.upd ?_ ?_ ?_); (on_goal 2 => first | with_reducible exact id | exact fun h => memWrites_wf _ _ h | exact fun h => memWriteCells_wf _ h); on_goal 2 => exact Nat.le_refl _)

theorem State.abortCh_sound (safe : Nat) (cut : Bool) (n : Ch) (s : State) : Sound s (State.abortCh safe cut n s) := by
  unfold State.abortCh
  repeat' first
    | with_reducible exact Sound.refl ..
    | extract_lets
    | ((with_reducible apply Sound.keeps ?_ (State.unarm_keeps ..) ?_ ?_); (on_goal 2 => decide); on_goal 2 => decide)
    | ((with_reducible apply Sound.keeps ?_ (State.applyMatches_keeps ..) ?_ ?_); (on_goal 2 => decide); on_goal 2 => decide)
    | with_reducible apply Sound.trans ?_ (State.measStop_sound ..)
    | ((with_reducible apply Sound.keeps ?_ (State.haltEmul_keeps ..) ?_ ?_); (on_goal 2 => decide); on_goal 2 => decide)
    | ((with_reducible apply Sound.keeps ?_ (State.pipHalt_keeps ..) ?_ ?_); (on_goal 2 => decide); on_goal 2 => decide)
    | ((with_reducible apply Sound.keeps ?_ (State.endShadow_keeps ..) ?_ ?_); (on_goal 2 => decide); on_goal 2 => decide)
    | ((with_reducible apply Sound.keeps ?_ (State.modCh_keeps ..) ?_ ?_); (on_goal 2 => decide); on_goal 2 => decide)

theorem State.abortScope_sound (scope : List Ch) (safe : Nat) (cut : Bool) (s : State) : Sound s (State.abortScope scope safe cut s) := by
  unfold State.abortScope
  repeat' first
    | with_reducible exact Sound.refl ..
    | extract_lets
    | ((with_reducible refine Sound.forAll _ ?_ _ ?_); on_goal 1 => intro _ _)
    | with_reducible apply Sound.trans ?_ (State.abortCh_sound ..)
    | ((with_reducible apply Sound.keeps ?_ (State.breach_keeps ..) ?_ ?_); (on_goal 2 => decide); on_goal 2 => decide)
    | with_reducible apply Sound.ite
    | split
    | (dsimp +zetaDelta only; split)
    | ((with_reducible apply Sound.upd ?_ ?_ ?_); (on_goal 2 => first | with_reducible exact id | exact fun h => memWrites_wf _ _ h | exact fun h => memWriteCells_wf _ h); on_goal 2 => exact Nat.le_refl _)

theorem State.writeAbortCtrl_sound (m : Master) (w : W) (s : State) : Sound s (State.writeAbortCtrl m w s) := by
  unfold State.writeAbortCtrl
  repeat' first
    | with_reducible exact Sound.refl ..
    | extract_lets
    | ((with_reducible apply Sound.when ?_ _ _ ?_); on_goal 2 => intro _)
    | ((with_reducible apply Sound.keeps ?_ (State.watchViol_keeps ..) ?_ ?_); (on_goal 2 => decide); on_goal 2 => decide)
    | ((with_reducible apply Sound.keeps ?_ (State.abortErr_keeps ..) ?_ ?_); (on_goal 2 => decide); on_goal 2 => decide)
    | with_reducible apply Sound.trans ?_ (State.abortScope_sound ..)
    | ((with_reducible apply Sound.keeps ?_ (State.releaseNow_keeps ..) ?_ ?_); (on_goal 2 => decide); on_goal 2 => decide)
    | with_reducible apply Sound.ite
    | split
    | (dsimp +zetaDelta only; split)
    | ((with_reducible apply Sound.upd ?_ ?_ ?_); (on_goal 2 => first | with_reducible exact id | exact fun h => memWrites_wf _ _ h | exact fun h => memWriteCells_wf _ h); on_goal 2 => exact Nat.le_refl _)

theorem State.safeFall_sound (s : State) : Sound s (State.safeFall s) := by
  unfold State.safeFall
  repeat' first
    | with_reducible exact Sound.refl ..
    | extract_lets
    | ((with_reducible apply Sound.keeps ?_ (State.wakeBy_keeps ..) ?_ ?_); (on_goal 2 => decide); on_goal 2 => decide)
    | with_reducible apply Sound.trans ?_ (State.abortScope_sound ..)
    | with_reducible apply Sound.ite
    | split
    | (dsimp +zetaDelta only; split)
    | ((with_reducible apply Sound.upd ?_ ?_ ?_); (on_goal 2 => first | with_reducible exact id | exact fun h => memWrites_wf _ _ h | exact fun h => memWriteCells_wf _ h); on_goal 2 => exact Nat.le_refl _)

theorem State.freeze_sound (n : Ch) (s : State) : Sound s (State.freeze n s) := by
  unfold State.freeze
  repeat' first
    | with_reducible exact Sound.refl ..
    | extract_lets
    | ((with_reducible apply Sound.keeps ?_ (State.pipHalt_keeps ..) ?_ ?_); (on_goal 2 => decide); on_goal 2 => decide)
    | ((with_reducible apply Sound.keeps ?_ (State.applyMatches_keeps ..) ?_ ?_); (on_goal 2 => decide); on_goal 2 => decide)
    | ((with_reducible apply Sound.keeps ?_ (State.pipNow_keeps ..) ?_ ?_); (on_goal 2 => decide); on_goal 2 => decide)
    | ((with_reducible apply Sound.keeps ?_ (State.modCh_keeps ..) ?_ ?_); (on_goal 2 => decide); on_goal 2 => decide)
    | with_reducible apply Sound.trans ?_ (State.measStop_sound ..)
    | ((with_reducible apply Sound.keeps ?_ (State.modPod_keeps ..) ?_ ?_); (on_goal 2 => decide); on_goal 2 => decide)
    | ((with_reducible apply Sound.keeps ?_ (State.breach_keeps ..) ?_ ?_); (on_goal 2 => decide); on_goal 2 => decide)
    | ((with_reducible apply Sound.keeps ?_ (State.endShadow_keeps ..) ?_ ?_); (on_goal 2 => decide); on_goal 2 => decide)
    | with_reducible apply Sound.ite

theorem State.stream_sound (i : Slice) (s : State) : Sound s (State.stream i s) := by
  unfold State.stream
  repeat' first
    | with_reducible exact Sound.refl ..
    | extract_lets
    | with_reducible apply Sound.trans ?_ (State.ringWrite_sound ..)
    | ((with_reducible apply Sound.keeps ?_ (State.noticeCode_keeps ..) ?_ ?_); (on_goal 2 => decide); on_goal 2 => decide)
    | with_reducible apply Sound.ite
    | split
    | (dsimp +zetaDelta only; split)
    | ((with_reducible apply Sound.upd ?_ ?_ ?_); (on_goal 2 => first | with_reducible exact id | exact fun h => memWrites_wf _ _ h | exact fun h => memWriteCells_wf _ h); on_goal 2 => exact Nat.le_refl _)

theorem State.deliverResult_sound (i : Slice) (b : Nat) (raw : Int) (s : State) : Sound s (State.deliverResult i b raw s) := by
  unfold State.deliverResult
  repeat' first
    | with_reducible exact Sound.refl ..
    | extract_lets
    | ((with_reducible apply Sound.keeps ?_ (State.modSlice_keeps ..) ?_ ?_); (on_goal 2 => decide); on_goal 2 => decide)
    | with_reducible apply Sound.trans ?_ (State.stream_sound ..)

theorem State.conversionEnd_sound (i : Slice) (raw spareRaw : Int) (s : State) : Sound s (State.conversionEnd i raw spareRaw s) := by
  unfold State.conversionEnd
  repeat' first
    | with_reducible exact Sound.refl ..
    | extract_lets
    | ((with_reducible apply Sound.keeps ?_ (State.modSlice_keeps ..) ?_ ?_); (on_goal 2 => decide); on_goal 2 => decide)
    | with_reducible apply Sound.trans ?_ (State.deliverResult_sound ..)
    | ((with_reducible apply Sound.keeps ?_ (State.selAt_keeps ..) ?_ ?_); (on_goal 2 => decide); on_goal 2 => decide)
    | ((with_reducible apply Sound.keeps ?_ (State.overlapAt_keeps ..) ?_ ?_); (on_goal 2 => decide); on_goal 2 => decide)
    | with_reducible apply Sound.ite

theorem State.measBegin_sound (s : State) : Sound s (State.measBegin s) := by
  unfold State.measBegin
  repeat' first
    | with_reducible exact Sound.refl ..
    | extract_lets
    | ((with_reducible apply Sound.keeps ?_ (State.measAnswer_keeps ..) ?_ ?_); (on_goal 2 => decide); on_goal 2 => decide)
    | ((with_reducible apply Sound.keeps ?_ (State.measKeep_keeps ..) ?_ ?_); (on_goal 2 => decide); on_goal 2 => decide)
    | with_reducible apply Sound.trans ?_ (State.measFail_sound ..)
    | ((with_reducible apply Sound.keeps ?_ (State.used_keeps ..) ?_ ?_); (on_goal 2 => decide); on_goal 2 => decide)
    | with_reducible apply Sound.ite
    | split
    | (dsimp +zetaDelta only; split)
    | ((with_reducible apply Sound.upd ?_ ?_ ?_); (on_goal 2 => first | with_reducible exact id | exact fun h => memWrites_wf _ _ h | exact fun h => memWriteCells_wf _ h); on_goal 2 => exact Nat.le_refl _)

theorem State.measStart_sound (s : State) : Sound s (State.measStart s) := by
  unfold State.measStart
  repeat' first
    | with_reducible exact Sound.refl ..
    | extract_lets
    | with_reducible apply Sound.trans ?_ (State.measBegin_sound ..)
    | with_reducible apply Sound.ite
    | split
    | (dsimp +zetaDelta only; split)
    | ((with_reducible apply Sound.upd ?_ ?_ ?_); (on_goal 2 => first | with_reducible exact id | exact fun h => memWrites_wf _ _ h | exact fun h => memWriteCells_wf _ h); on_goal 2 => exact Nat.le_refl _)

theorem State.cableDone_sound (j : MeasJob) (shots : List (Option Nat)) (s : State) : Sound s (State.cableDone j shots s) := by
  unfold State.cableDone
  repeat' first
    | with_reducible exact Sound.refl ..
    | extract_lets
    | with_reducible apply Sound.trans ?_ (State.measEnd_sound ..)

theorem State.loadEnd_sound (cls cap : Nat) (s : State) : Sound s (State.loadEnd cls cap s) := by
  unfold State.loadEnd
  repeat' first
    | with_reducible exact Sound.refl ..
    | extract_lets
    | with_reducible apply Sound.trans ?_ (State.measEnd_sound ..)

theorem State.loadDone_sound (j : MeasJob) (hi lo up down : Bool) (rise : Option Nat) (s : State) : Sound s (State.loadDone j hi lo up down rise s) := by
  unfold State.loadDone
  repeat' first
    | with_reducible exact Sound.refl ..
    | extract_lets
    | with_reducible apply Sound.trans ?_ (State.loadEnd_sound ..)
    | ((with_reducible apply Sound.keeps ?_ (State.used_keeps ..) ?_ ?_); (on_goal 2 => decide); on_goal 2 => decide)
    | with_reducible apply Sound.trans ?_ (State.measFail_sound ..)
    | with_reducible apply Sound.ite
    | split

theorem State.measDone_sound (r : MeasRaw) (s : State) : Sound s (State.measDone r s) := by
  unfold State.measDone
  repeat' first
    | with_reducible exact Sound.refl ..
    | extract_lets
    | with_reducible apply Sound.trans ?_ (State.cableDone_sound ..)
    | with_reducible apply Sound.trans ?_ (State.loadDone_sound ..)
    | with_reducible apply Sound.trans ?_ (State.measFail_sound ..)
    | with_reducible apply Sound.ite
    | split

theorem State.adaptEpoch_sound (i : Fin 5) (n : Ch) (s : State) : Sound s (State.adaptEpoch i n s) := by
  unfold State.adaptEpoch
  repeat' first
    | with_reducible exact Sound.refl ..
    | extract_lets
    | with_reducible apply Sound.trans ?_ (State.resWrite_sound ..)
    | ((with_reducible apply Sound.keeps ?_ (State.adaptApply_keeps ..) ?_ ?_); (on_goal 2 => decide); on_goal 2 => decide)
    | with_reducible apply Sound.ite
    | split
    | (dsimp +zetaDelta only; split)
    | ((with_reducible apply Sound.upd ?_ ?_ ?_); (on_goal 2 => first | with_reducible exact id | exact fun h => memWrites_wf _ _ h | exact fun h => memWriteCells_wf _ h); on_goal 2 => exact Nat.le_refl _)

theorem State.replyWrite_sound (b : CmdMbx) (cells : List (Nat × Byte)) (s : State) : Sound s (State.replyWrite b cells s) := by
  unfold State.replyWrite
  repeat' first
    | with_reducible exact Sound.refl ..
    | extract_lets
    | with_reducible apply Sound.trans ?_ (State.winWrite_sound ..)
    | ((with_reducible apply Sound.keeps ?_ (State.modMbx_keeps ..) ?_ ?_); (on_goal 2 => decide); on_goal 2 => decide)
    | with_reducible apply Sound.ite
    | split
    | (dsimp +zetaDelta only; split)
    | ((with_reducible apply Sound.upd ?_ ?_ ?_); (on_goal 2 => first | with_reducible exact id | exact fun h => memWrites_wf _ _ h | exact fun h => memWriteCells_wf _ h); on_goal 2 => exact Nat.le_refl _)

theorem State.completeNow_sound (b : CmdMbx) (s : State) : Sound s (State.completeNow b s) := by
  unfold State.completeNow
  repeat' first
    | with_reducible exact Sound.refl ..
    | extract_lets
    | ((with_reducible apply Sound.when ?_ _ _ ?_); on_goal 2 => intro _)
    | with_reducible apply Sound.trans ?_ (State.replyWrite_sound ..)
    | ((with_reducible apply Sound.keeps ?_ (State.modMbx_keeps ..) ?_ ?_); (on_goal 2 => decide); on_goal 2 => decide)
    | with_reducible apply Sound.ite
    | split

theorem State.commandComplete_sound (b : CmdMbx) (s : State) : Sound s (State.commandComplete b s) := by
  unfold State.commandComplete
  extract_lets closed
  split
  · exact Sound.refl s
  · split
    · exact State.completeNow_sound b s
    · exact Sound.forAll _ (fun g v => Sound.of_keeps (State.autoWake_keeps ..) (by decide) (by decide)) _ (Sound.refl s)

theorem State.noticeOut_sound (i : Fin 8) (n : Notice) (rest : List Notice) (s : State) : Sound s (State.noticeOut i n rest s) := by
  have h : Sound s s.used.used.used.used :=
    ((((Sound.refl s).keeps (State.used_keeps ..) (by decide) (by decide)).keeps (State.used_keeps ..) (by decide) (by decide)).keeps
      (State.used_keeps ..) (by decide) (by decide)).keeps (State.used_keeps ..) (by decide) (by decide)
  have aux : ∀ (a : Nat) (bytes : List Byte) (bad : List Nat),
      Sound s { s.used.used.used.used with store := { s.store with mem := memWrites a bytes s.store.mem, bad := bad } } :=
    fun a bytes bad => h.trans (Sound.setStore s.used.used.used.used _ a bytes rfl)
  unfold State.noticeOut
  refine Sound.keeps ?_ (State.modMbx_keeps ..) (by decide) (by decide)
  exact aux _ _ _

theorem State.noticePost_sound (i : Fin 8) (s : State) : Sound s (State.noticePost i s) := by
  unfold State.noticePost
  extract_lets x
  split
  · exact Sound.refl s
  · split
    · exact Sound.refl s
    · split
      · exact State.noticeOut_sound ..
      · exact Sound.of_keeps (State.autoWake_keeps ..) (by decide) (by decide)

theorem State.setRes_sound (r : BitVec 2) (s : State) : Sound s (State.setRes r s) := by
  unfold State.setRes
  repeat' first
    | with_reducible exact Sound.refl ..
    | extract_lets
    | with_reducible apply Sound.ite
    | split
    | (dsimp +zetaDelta only; split)
    | ((with_reducible apply Sound.upd ?_ ?_ ?_); (on_goal 2 => first | with_reducible exact id | exact fun h => memWrites_wf _ _ h | exact fun h => memWriteCells_wf _ h); on_goal 2 => exact Nat.le_refl _)

theorem State.sleepEntered_sound (s : State) : Sound s (State.sleepEntered s) := by
  unfold State.sleepEntered
  repeat' first
    | with_reducible exact Sound.refl ..
    | extract_lets
    | ((with_reducible refine Sound.forAll _ ?_ _ ?_); on_goal 1 => intro _ _)
    | ((with_reducible apply Sound.keeps ?_ (State.modCh_keeps ..) ?_ ?_); (on_goal 2 => decide); on_goal 2 => decide)
    | ((with_reducible apply Sound.keeps ?_ (State.countTo_keeps ..) ?_ ?_); (on_goal 2 => decide); on_goal 2 => decide)
    | with_reducible apply Sound.trans ?_ (State.setRes_sound ..)
    | ((with_reducible apply Sound.keeps ?_ (State.used_keeps ..) ?_ ?_); (on_goal 2 => decide); on_goal 2 => decide)
    | ((with_reducible apply Sound.keeps ?_ (State.notice_keeps ..) ?_ ?_); (on_goal 2 => decide); on_goal 2 => decide)
    | with_reducible apply Sound.ite
    | split
    | (dsimp +zetaDelta only; split)
    | ((with_reducible apply Sound.upd ?_ ?_ ?_); (on_goal 2 => first | with_reducible exact id | exact fun h => memWrites_wf _ _ h | exact fun h => memWriteCells_wf _ h); on_goal 2 => exact Nat.le_refl _)

theorem State.wakeSource_sound (w : WakeSrc) (s : State) : Sound s (State.wakeSource w s) := by
  unfold State.wakeSource
  repeat' first
    | with_reducible exact Sound.refl ..
    | extract_lets
    | ((with_reducible apply Sound.keeps ?_ (State.wakeName_keeps ..) ?_ ?_); (on_goal 2 => decide); on_goal 2 => decide)
    | ((with_reducible apply Sound.keeps ?_ (State.wakeBy_keeps ..) ?_ ?_); (on_goal 2 => decide); on_goal 2 => decide)
    | ((with_reducible apply Sound.keeps ?_ (State.wakeIf_keeps ..) ?_ ?_); (on_goal 2 => decide); on_goal 2 => decide)
    | with_reducible apply Sound.ite
    | split
    | (dsimp +zetaDelta only; split)
    | ((with_reducible apply Sound.upd ?_ ?_ ?_); (on_goal 2 => first | with_reducible exact id | exact fun h => memWrites_wf _ _ h | exact fun h => memWriteCells_wf _ h); on_goal 2 => exact Nat.le_refl _)

theorem State.ltTo_sound (v : Nat) (s : State) (h : s.time.lt ≤ v) : Sound s (State.ltTo v s) := ⟨id, h⟩

theorem State.xinStable_sound (s : State) : Sound s (State.xinStable s) := by
  unfold State.xinStable
  repeat' first
    | with_reducible exact Sound.refl ..
    | extract_lets
    | with_reducible apply Sound.trans ?_ (State.setRes_sound ..)
    | with_reducible apply Sound.ite
    | split
    | (dsimp +zetaDelta only; split)
    | ((with_reducible apply Sound.upd ?_ ?_ ?_); (on_goal 2 => first | with_reducible exact id | exact fun h => memWrites_wf _ _ h | exact fun h => memWriteCells_wf _ h); on_goal 2 => exact Nat.le_refl _)

theorem State.pllLocks_sound (s : State) : Sound s (State.pllLocks s) := by
  unfold State.pllLocks
  split
  · exact Sound.refl s
  · have h : s.time.lt ≤ (s.time.lt + 31) / 32 * 32 := by omega
    exact (State.ltTo_sound _ s h).trans ⟨id, Nat.le_refl _⟩

theorem State.xinFails_sound (s : State) : Sound s (State.xinFails s) := by
  unfold State.xinFails
  repeat' first
    | with_reducible exact Sound.refl ..
    | extract_lets
    | ((with_reducible apply Sound.keeps ?_ (State.breach_keeps ..) ?_ ?_); (on_goal 2 => decide); on_goal 2 => decide)
    | with_reducible apply Sound.ite
    | split
    | (dsimp +zetaDelta only; split)
    | ((with_reducible apply Sound.upd ?_ ?_ ?_); (on_goal 2 => first | with_reducible exact id | exact fun h => memWrites_wf _ _ h | exact fun h => memWriteCells_wf _ h); on_goal 2 => exact Nat.le_refl _)

theorem State.idle_sound (s : State) : Sound s (State.idle s) := by
  have hr : ∀ (r : BitVec 2) (u : State), Sound u (State.setRes r u) := fun r u => ⟨id, Nat.le_refl _⟩
  unfold State.idle
  split
  · split
    · exact Sound.refl s
    · exact Sound.when (State.ltTo_sound _ s (Nat.le_add_right _ _)) _ _ (hr _)
  · rename_i hres
    split
    · exact ⟨id, Nat.le_refl _⟩
    · refine State.ltTo_sound _ s ?_
      have hi : 31 ≤ ltIncr s := by
        unfold ltIncr
        split <;> omega
      omega

theorem State.coreReset_sound (cause : BitVec 4) (s : State) : Sound s (State.coreReset cause s) :=
  ⟨fun _ => rfl, Nat.le_refl _⟩

theorem State.startImage_sound (i : ImageIn) (selfTest : List (BitVec 17)) (s : State) : Sound s (State.startImage i selfTest s) := by
  unfold State.startImage
  extract_lets a b v c d e
  have ha : Sound s a := Sound.of_keeps (State.loadMicro_keeps ..) (by decide) (by decide)
  have hb : Sound s b := Sound.forAll _ (fun p u => Sound.of_keeps (State.modHealth_keeps ..) (by decide) (by decide)) _ ha
  have hc : Sound s b.used.used.used :=
    ((hb.keeps (State.used_keeps ..) (by decide) (by decide)).keeps (State.used_keeps ..) (by decide) (by decide)).keeps (State.used_keeps ..) (by decide) (by decide)
  exact hc.trans ⟨fun _ => rfl, Nat.le_refl _⟩

theorem State.flashBoot_sound (primary alternate : ImageIn) (selfTest : List (BitVec 17)) (s : State) : Sound s (State.flashBoot primary alternate selfTest s) := by
  unfold State.flashBoot
  repeat' first
    | with_reducible exact Sound.refl ..
    | extract_lets
    | with_reducible apply Sound.trans ?_ (State.startImage_sound ..)
    | ((with_reducible apply Sound.keeps ?_ (State.imageRefused_keeps ..) ?_ ?_); (on_goal 2 => decide); on_goal 2 => decide)
    | ((with_reducible apply Sound.keeps ?_ (State.bootFails_keeps ..) ?_ ?_); (on_goal 2 => decide); on_goal 2 => decide)
    | with_reducible apply Sound.ite
    | split
    | (dsimp +zetaDelta only; split)
    | ((with_reducible apply Sound.upd ?_ ?_ ?_); (on_goal 2 => first | with_reducible exact id | exact fun h => memWrites_wf _ _ h | exact fun h => memWriteCells_wf _ h); on_goal 2 => exact Nat.le_refl _)

theorem State.resetRelease_sound (straps : BitVec 2) (primary alternate : ImageIn) (selfTest : List (BitVec 17)) (s : State) : Sound s (State.resetRelease straps primary alternate selfTest s) := by
  unfold State.resetRelease
  repeat' first
    | with_reducible exact Sound.refl ..
    | extract_lets
    | ((with_reducible apply Sound.when ?_ _ _ ?_); on_goal 2 => intro _)
    | with_reducible apply Sound.trans ?_ (State.abortScope_sound ..)
    | with_reducible apply Sound.trans ?_ (State.flashBoot_sound ..)
    | with_reducible apply Sound.ite
    | split
    | (dsimp +zetaDelta only; split)
    | ((with_reducible apply Sound.upd ?_ ?_ ?_); (on_goal 2 => first | with_reducible exact id | exact fun h => memWrites_wf _ _ h | exact fun h => memWriteCells_wf _ h); on_goal 2 => exact Nat.le_refl _)

theorem State.bootLoad_sound (m : Master) (i : ImageIn) (selfTest : List (BitVec 17)) (s : State) : Sound s (State.bootLoad m i selfTest s) := by
  unfold State.bootLoad
  repeat' first
    | with_reducible exact Sound.refl ..
    | extract_lets
    | with_reducible apply Sound.trans ?_ (State.startImage_sound ..)
    | ((with_reducible apply Sound.keeps ?_ (State.bootFails_keeps ..) ?_ ?_); (on_goal 2 => decide); on_goal 2 => decide)
    | ((with_reducible apply Sound.keeps ?_ (State.imageRefused_keeps ..) ?_ ?_); (on_goal 2 => decide); on_goal 2 => decide)
    | with_reducible apply Sound.ite
    | split

theorem State.sampled_sound (s : State) : Sound s (State.sampled s) := by
  unfold State.sampled
  repeat' first
    | with_reducible exact Sound.refl ..
    | extract_lets
    | ((with_reducible apply Sound.keeps ?_ (State.used_keeps ..) ?_ ?_); (on_goal 2 => decide); on_goal 2 => decide)
    | with_reducible apply Sound.ite
    | split
    | (dsimp +zetaDelta only; split)
    | ((with_reducible apply Sound.upd ?_ ?_ ?_); (on_goal 2 => first | with_reducible exact id | exact fun h => memWrites_wf _ _ h | exact fun h => memWriteCells_wf _ h); on_goal 2 => exact Nat.le_refl _)

theorem globalTake_sound (a : Nat) (s : State) : Sound s (globalTake a s) := by
  unfold globalTake
  repeat' first
    | with_reducible exact Sound.refl ..
    | extract_lets
    | with_reducible apply Sound.trans ?_ (State.sampled_sound ..)
    | ((with_reducible apply Sound.keeps ?_ (State.used_keeps ..) ?_ ?_); (on_goal 2 => decide); on_goal 2 => decide)
    | ((with_reducible apply Sound.keeps ?_ (State.modHealth_keeps ..) ?_ ?_); (on_goal 2 => decide); on_goal 2 => decide)
    | with_reducible apply Sound.ite
    | split
    | (dsimp +zetaDelta only; split)
    | ((with_reducible apply Sound.upd ?_ ?_ ?_); (on_goal 2 => first | with_reducible exact id | exact fun h => memWrites_wf _ _ h | exact fun h => memWriteCells_wf _ h); on_goal 2 => exact Nat.le_refl _)

theorem State.setOfs_sound (v : Nat) (s : State) : Sound s (State.setOfs v s) := by
  unfold State.setOfs
  repeat' first
    | with_reducible exact Sound.refl ..
    | extract_lets
    | with_reducible apply Sound.ite
    | split
    | (dsimp +zetaDelta only; split)
    | ((with_reducible apply Sound.upd ?_ ?_ ?_); (on_goal 2 => first | with_reducible exact id | exact fun h => memWrites_wf _ _ h | exact fun h => memWriteCells_wf _ h); on_goal 2 => exact Nat.le_refl _)

theorem globalWrite_sound (m : Master) (a : Nat) (w : W) (s : State) : Sound s (globalWrite m a w s) := by
  unfold globalWrite
  repeat' first
    | with_reducible exact Sound.refl ..
    | extract_lets
    | ((with_reducible apply Sound.keeps ?_ (State.setHolding_keeps ..) ?_ ?_); (on_goal 2 => decide); on_goal 2 => decide)
    | with_reducible apply Sound.trans ?_ (State.setOfs_sound ..)
    | ((with_reducible apply Sound.keeps ?_ (State.modMaster_keeps ..) ?_ ?_); (on_goal 2 => decide); on_goal 2 => decide)
    | ((with_reducible apply Sound.keeps ?_ (State.guarClear_keeps ..) ?_ ?_); (on_goal 2 => decide); on_goal 2 => decide)
    | ((with_reducible apply Sound.keeps ?_ (State.writeAlertEn_keeps ..) ?_ ?_); (on_goal 2 => decide); on_goal 2 => decide)
    | ((with_reducible apply Sound.keeps ?_ (State.pwrCfgErr_keeps ..) ?_ ?_); (on_goal 2 => decide); on_goal 2 => decide)
    | ((with_reducible apply Sound.keeps ?_ (State.setWakeChs_keeps ..) ?_ ?_); (on_goal 2 => decide); on_goal 2 => decide)
    | ((with_reducible apply Sound.keeps ?_ (State.modHealth_keeps ..) ?_ ?_); (on_goal 2 => decide); on_goal 2 => decide)
    | with_reducible apply Sound.ite
    | split
    | (dsimp +zetaDelta only; split)
    | ((with_reducible apply Sound.upd ?_ ?_ ?_); (on_goal 2 => first | with_reducible exact id | exact fun h => memWrites_wf _ _ h | exact fun h => memWriteCells_wf _ h); on_goal 2 => exact Nat.le_refl _)

theorem abortWrite_sound (m : Master) (o : Nat) (w : W) (s : State) : Sound s (abortWrite m o w s) := by
  unfold abortWrite
  repeat' first
    | with_reducible exact Sound.refl ..
    | extract_lets
    | with_reducible apply Sound.trans ?_ (State.writeAbortCtrl_sound ..)
    | ((with_reducible apply Sound.keeps ?_ (State.writeMask_keeps ..) ?_ ?_); (on_goal 2 => decide); on_goal 2 => decide)
    | with_reducible apply Sound.ite
    | split
    | (dsimp +zetaDelta only; split)
    | ((with_reducible apply Sound.upd ?_ ?_ ?_); (on_goal 2 => first | with_reducible exact id | exact fun h => memWrites_wf _ _ h | exact fun h => memWriteCells_wf _ h); on_goal 2 => exact Nat.le_refl _)

theorem busTake_sound (m : Master) (a : Nat) (s : State) : Sound s (busTake m a s) := by
  unfold busTake
  repeat' first
    | with_reducible exact Sound.refl ..
    | extract_lets
    | with_reducible apply Sound.trans ?_ (globalTake_sound ..)
    | ((with_reducible apply Sound.keeps ?_ (eicTake_keeps ..) ?_ ?_); (on_goal 2 => decide); on_goal 2 => decide)
    | ((with_reducible apply Sound.keeps ?_ (chanTake_keeps ..) ?_ ?_); (on_goal 2 => decide); on_goal 2 => decide)
    | ((with_reducible apply Sound.keeps ?_ (axisTake_keeps ..) ?_ ?_); (on_goal 2 => decide); on_goal 2 => decide)
    | ((with_reducible apply Sound.keeps ?_ (adcTake_keeps ..) ?_ ?_); (on_goal 2 => decide); on_goal 2 => decide)
    | ((with_reducible apply Sound.keeps ?_ (podTake_keeps ..) ?_ ?_); (on_goal 2 => decide); on_goal 2 => decide)
    | ((with_reducible apply Sound.keeps ?_ (storeTake_keeps ..) ?_ ?_); (on_goal 2 => decide); on_goal 2 => decide)
    | ((with_reducible apply Sound.keeps ?_ (surTake_keeps ..) ?_ ?_); (on_goal 2 => decide); on_goal 2 => decide)
    | with_reducible apply Sound.ite
    | split
    | (dsimp +zetaDelta only; split)
    | ((with_reducible apply Sound.upd ?_ ?_ ?_); (on_goal 2 => first | with_reducible exact id | exact fun h => memWrites_wf _ _ h | exact fun h => memWriteCells_wf _ h); on_goal 2 => exact Nat.le_refl _)

theorem State.plainRead_sound (m : Master) (a : Nat) (s : State) : Sound s (State.plainRead m a s) := by
  unfold State.plainRead
  repeat' first
    | with_reducible exact Sound.refl ..
    | extract_lets
    | ((with_reducible apply Sound.keeps ?_ (busSettle_keeps ..) ?_ ?_); (on_goal 2 => decide); on_goal 2 => decide)
    | ((with_reducible apply Sound.keeps ?_ (State.lowRead_keeps ..) ?_ ?_); (on_goal 2 => decide); on_goal 2 => decide)
    | with_reducible apply Sound.trans ?_ (busTake_sound ..)
    | ((with_reducible apply Sound.keeps ?_ (State.highRead_keeps ..) ?_ ?_); (on_goal 2 => decide); on_goal 2 => decide)
    | ((with_reducible apply Sound.keeps ?_ (State.ret_keeps ..) ?_ ?_); (on_goal 2 => decide); on_goal 2 => decide)
    | with_reducible apply Sound.ite
    | split

theorem State.busRead_sound (m : Master) (addr : Nat) (s : State) : Sound s (State.busRead m addr s) := by
  unfold State.busRead
  repeat' first
    | with_reducible exact Sound.refl ..
    | extract_lets
    | ((with_reducible apply Sound.keeps ?_ (State.watchViol_keeps ..) ?_ ?_); (on_goal 2 => decide); on_goal 2 => decide)
    | ((with_reducible apply Sound.keeps ?_ (State.ret_keeps ..) ?_ ?_); (on_goal 2 => decide); on_goal 2 => decide)
    | ((with_reducible apply Sound.keeps ?_ (State.lockRead_keeps ..) ?_ ?_); (on_goal 2 => decide); on_goal 2 => decide)
    | with_reducible apply Sound.trans ?_ (State.plainRead_sound ..)
    | ((with_reducible apply Sound.keeps ?_ (State.claim_keeps ..) ?_ ?_); (on_goal 2 => decide); on_goal 2 => decide)
    | ((with_reducible apply Sound.keeps ?_ (State.capPop_keeps ..) ?_ ?_); (on_goal 2 => decide); on_goal 2 => decide)
    | ((with_reducible apply Sound.keeps ?_ (State.rxfPop_keeps ..) ?_ ?_); (on_goal 2 => decide); on_goal 2 => decide)
    | ((with_reducible apply Sound.keeps ?_ (State.adcRead_keeps ..) ?_ ?_); (on_goal 2 => decide); on_goal 2 => decide)
    | with_reducible apply Sound.ite
    | split

theorem State.plainWrite_sound (m : Master) (a : Nat) (w : W) (s : State) : Sound s (State.plainWrite m a w s) := by
  unfold State.plainWrite
  repeat' first
    | with_reducible exact Sound.refl ..
    | extract_lets
    | ((with_reducible apply Sound.keeps ?_ (State.watchViol_keeps ..) ?_ ?_); (on_goal 2 => decide); on_goal 2 => decide)
    | with_reducible apply Sound.trans ?_ (globalWrite_sound ..)
    | ((with_reducible apply Sound.keeps ?_ (mbxWrite_keeps ..) ?_ ?_); (on_goal 2 => decide); on_goal 2 => decide)
    | with_reducible apply Sound.trans ?_ (abortWrite_sound ..)
    | ((with_reducible apply Sound.keeps ?_ (eicWrite_keeps ..) ?_ ?_); (on_goal 2 => decide); on_goal 2 => decide)
    | ((with_reducible apply Sound.keeps ?_ (chanWrite_keeps ..) ?_ ?_); (on_goal 2 => decide); on_goal 2 => decide)
    | ((with_reducible apply Sound.keeps ?_ (State.writeAxis_keeps ..) ?_ ?_); (on_goal 2 => decide); on_goal 2 => decide)
    | ((with_reducible apply Sound.keeps ?_ (adcWrite_keeps ..) ?_ ?_); (on_goal 2 => decide); on_goal 2 => decide)
    | ((with_reducible apply Sound.keeps ?_ (podWrite_keeps ..) ?_ ?_); (on_goal 2 => decide); on_goal 2 => decide)
    | ((with_reducible apply Sound.keeps ?_ (storeWrite_keeps ..) ?_ ?_); (on_goal 2 => decide); on_goal 2 => decide)
    | ((with_reducible apply Sound.keeps ?_ (surWrite_keeps ..) ?_ ?_); (on_goal 2 => decide); on_goal 2 => decide)
    | with_reducible apply Sound.ite
    | split

theorem State.busWrite_sound (m : Master) (addr : Nat) (w : W) (be : BitVec 4) (s : State) : Sound s (State.busWrite m addr w be s) := by
  unfold State.busWrite
  repeat' first
    | with_reducible exact Sound.refl ..
    | extract_lets
    | ((with_reducible apply Sound.keeps ?_ (State.hsum_keeps ..) ?_ ?_); (on_goal 2 => decide); on_goal 2 => decide)
    | with_reducible apply Sound.trans ?_ (State.plainWrite_sound ..)
    | with_reducible apply Sound.ite

theorem State.wideRead_sound (a : Nat) (s : State) : Sound s (State.wideRead a s) := by
  unfold State.wideRead
  repeat' first
    | with_reducible exact Sound.refl ..
    | extract_lets
    | with_reducible apply Sound.trans ?_ (State.busRead_sound ..)
    | ((with_reducible apply Sound.keeps ?_ (State.modMaster_keeps ..) ?_ ?_); (on_goal 2 => decide); on_goal 2 => decide)

theorem State.burstRead_sound (a : Nat) (r : State × List Byte) : Sound r.1 (State.burstRead a r).1 := by
  unfold State.burstRead
  exact State.busRead_sound ..

theorem burstReads_sound : ∀ (l : List Nat) (r : State × List Byte), Sound r.1 (l.foldl (fun r x => State.burstRead x r) r).1
  | [], r => Sound.refl r.1
  | a :: l, r => (State.burstRead_sound a r).trans (burstReads_sound l (State.burstRead a r))

theorem State.qspiRead_sound (a n : Nat) (late : List Nat) (s : State) : Sound s (State.qspiRead a n late s) := by
  unfold State.qspiRead
  split
  · exact ((Sound.refl s).keeps (State.qspiOut_keeps ..) (by decide) (by decide)).keeps (State.wakeIf_keeps ..) (by decide) (by decide)
  split
  · extract_lets as closed t u
    split
    · refine Sound.when ?_ _ _ ?_
      · exact ((Sound.refl s).keeps (State.winRead_keeps ..) (by decide) (by decide)).keeps (State.qspiOut_keeps ..) (by decide) (by decide)
      · exact fun v => ⟨id, Nat.le_refl _⟩
    · exact (Sound.forAll _ (fun g v => Sound.of_keeps (State.autoWake_keeps ..) (by decide) (by decide)) _ (Sound.refl s)).trans ⟨id, Nat.le_refl _⟩
  · have h := burstReads_sound (burstAddrs a n) (s, [])
    revert h
    generalize List.foldl (fun r x => State.burstRead x r) (s, []) (burstAddrs a n) = x
    intro h
    obtain ⟨t, bs⟩ := x
    exact h.keeps (State.qspiOut_keeps ..) (by decide) (by decide)

theorem State.burstWrite_sound (a : Nat) (bs : List Byte) (s : State) : Sound s (State.burstWrite a bs s) := by
  unfold State.burstWrite
  repeat' first
    | with_reducible exact Sound.refl ..
    | extract_lets
    | ((with_reducible apply Sound.when ?_ _ _ ?_); on_goal 2 => intro _)
    | ((with_reducible refine Sound.forAll _ ?_ _ ?_); on_goal 1 => intro _ _)
    | with_reducible apply Sound.trans ?_ (State.busWrite_sound ..)
    | ((with_reducible apply Sound.keeps ?_ (State.hsum_keeps ..) ?_ ?_); (on_goal 2 => decide); on_goal 2 => decide)

theorem State.qspiWriteNow_sound (a : Nat) (bs : List Byte) (s : State) : Sound s (State.qspiWriteNow a bs s) := by
  unfold State.qspiWriteNow
  repeat' first
    | with_reducible exact Sound.refl ..
    | extract_lets
    | with_reducible apply Sound.trans ?_ (State.winWrite_sound ..)
    | with_reducible apply Sound.trans ?_ (State.burstWrite_sound ..)
    | with_reducible apply Sound.ite

theorem State.qspiWrite_sound (row : Instr) (a : Nat) (bs : List Byte) (s : State) : Sound s (State.qspiWrite row a bs s) := by
  unfold State.qspiWrite
  repeat' first
    | with_reducible exact Sound.refl ..
    | extract_lets
    | ((with_reducible refine Sound.forAll _ ?_ _ ?_); on_goal 1 => intro _ _)
    | ((with_reducible apply Sound.keeps ?_ (State.wakeIf_keeps ..) ?_ ?_); (on_goal 2 => decide); on_goal 2 => decide)
    | with_reducible apply Sound.trans ?_ (State.qspiWriteNow_sound ..)
    | ((with_reducible apply Sound.keeps ?_ (State.autoWake_keeps ..) ?_ ?_); (on_goal 2 => decide); on_goal 2 => decide)
    | with_reducible apply Sound.ite
    | split
    | (dsimp +zetaDelta only; split)
    | ((with_reducible apply Sound.upd ?_ ?_ ?_); (on_goal 2 => first | with_reducible exact id | exact fun h => memWrites_wf _ _ h | exact fun h => memWriteCells_wf _ h); on_goal 2 => exact Nat.le_refl _)

theorem rowNow_sound (i : Instr) (s : State) : Sound s (rowNow i s) := by
  unfold rowNow
  split
  · exact State.busWrite_sound ..
  · exact State.busWrite_sound ..
  · exact State.busWrite_sound ..
  · exact Sound.of_keeps (State.guarClear_keeps ..) (by decide) (by decide)
  · exact State.busRead_sound ..
  · exact State.busRead_sound ..
  · exact State.busRead_sound ..
  · exact State.wideRead_sound ..
  · exact Sound.of_keeps (State.commitTop_keeps ..) (by decide) (by decide)
  · exact Sound.of_keeps (State.hostCommit_keeps ..) (by decide) (by decide)
  · exact Sound.of_keeps (State.advCommit_keeps ..) (by decide) (by decide)
  · exact Sound.of_keeps (State.capPop_keeps ..) (by decide) (by decide)
  · exact Sound.of_keeps (State.rxfPop_keeps ..) (by decide) (by decide)
  · exact Sound.of_keeps (State.speedRead_keeps ..) (by decide) (by decide)
  · exact Sound.of_keeps (State.writePset_keeps ..) (by decide) (by decide)
  · exact Sound.of_keeps (State.clearPend_keeps ..) (by decide) (by decide)
  · exact Sound.of_keeps (State.claim_keeps ..) (by decide) (by decide)
  · exact Sound.of_keeps (State.eoi_keeps ..) (by decide) (by decide)
  · exact Sound.of_keeps (State.writeSrc_keeps ..) (by decide) (by decide)
  · exact Sound.of_keeps (State.groupLock_keeps ..) (by decide) (by decide)
  · exact State.writeAbortCtrl_sound ..
  · exact State.writeAbortCtrl_sound ..
  · exact Sound.of_keeps (State.adcRead_keeps ..) (by decide) (by decide)
  · exact Sound.of_keeps (State.lockRead_keeps ..) (by decide) (by decide)
  · exact Sound.of_keeps (State.lockWrite_keeps ..) (by decide) (by decide)
  · exact Sound.of_keeps (State.postWrite_keeps ..) (by decide) (by decide)
  · exact Sound.of_keeps (State.doorbell_keeps ..) (by decide) (by decide)
  · exact Sound.of_keeps (State.noticeAck_keeps ..) (by decide) (by decide)
  · exact State.bootLoad_sound ..
  · exact Sound.of_keeps (State.bootFlash_keeps ..) (by decide) (by decide)
  · exact Sound.of_keeps (State.config_keeps ..) (by decide) (by decide)
  · exact State.winAccess_sound ..
  · exact State.qspiWriteNow_sound ..
  · exact State.qspiWriteNow_sound ..
  · exact Sound.refl s

theorem serveHeld_sound : ∀ (l : List Instr) (s : State), Sound s (serveHeld l s)
  | [], s => Sound.refl s
  | x :: r, s => by
    have ih := serveHeld_sound r
    unfold serveHeld
    extract_lets closed
    split
    · refine Sound.trans (Sound.trans ?_ (rowNow_sound x _)) (ih _)
      exact ⟨id, Nat.le_refl _⟩
    · exact Sound.forAll _ (fun g v => Sound.of_keeps (State.autoWake_keeps ..) (by decide) (by decide)) _ (Sound.refl s)

theorem serveHeldQ_sound : ∀ (l : List Instr) (s : State), Sound s (serveHeldQ l s)
  | [], s => Sound.refl s
  | x :: r, s => by
    have ih := serveHeldQ_sound r
    unfold serveHeldQ
    extract_lets closed
    split
    · refine Sound.trans (Sound.trans ?_ (rowNow_sound x _)) (ih _)
      exact ⟨id, Nat.le_refl _⟩
    · exact Sound.forAll _ (fun g v => Sound.of_keeps (State.autoWake_keeps ..) (by decide) (by decide)) _ (Sound.refl s)

theorem State.serve_sound (s : State) : Sound s (State.serve s) := by
  unfold State.serve
  repeat' first
    | with_reducible exact Sound.refl ..
    | extract_lets
    | with_reducible apply Sound.trans ?_ (serveHeld_sound ..)
    | with_reducible apply Sound.trans ?_ (serveHeldQ_sound ..)

theorem State.rowAtRun_sound (i : Instr) (s : State) : Sound s (State.rowAtRun i s) := by
  unfold State.rowAtRun
  split
  · exact State.hostAccess_sound ..
  · exact Sound.of_keeps (State.config_keeps ..) (by decide) (by decide)
  · exact Sound.behindBar2 _ _ (Sound.refl s) (fun u => rowNow_sound ..)

theorem State.runReached_sound (s : State) : Sound s (State.runReached s) := by
  unfold State.runReached
  repeat' first
    | with_reducible exact Sound.refl ..
    | extract_lets
    | ((with_reducible refine Sound.forAll _ ?_ _ ?_); on_goal 1 => intro _ _)
    | with_reducible apply Sound.trans ?_ (State.serve_sound ..)
    | ((with_reducible apply Sound.keeps ?_ (State.toRun_keeps ..) ?_ ?_); (on_goal 2 => decide); on_goal 2 => decide)
    | with_reducible apply Sound.trans ?_ (State.rowAtRun_sound ..)
    | with_reducible apply Sound.ite
    | split
    | (dsimp +zetaDelta only; split)
    | ((with_reducible apply Sound.upd ?_ ?_ ?_); (on_goal 2 => first | with_reducible exact id | exact fun h => memWrites_wf _ _ h | exact fun h => memWriteCells_wf _ h); on_goal 2 => exact Nat.le_refl _)

end Sys2Proof.Machine
end

