-- ==== Sys2Proof/Laws/SoundExec.lean ====
section
/-!
SUPPORT. Every command but an always-on power-on reset keeps the form of the store's contents and does not take Line Time back (`Sound`).
-/
namespace Sys2Proof.Machine
-- One script is tried on every goal of this file, so on some goals a part of it has nothing to do.
set_option linter.unusedTactic false
set_option linter.unreachableTactic false

theorem Sound.command (b : CmdMbx) (op : Nat) (f : List Byte → State → State) (s : State) (k : ∀ body u, Sound u (f body u)) :
    Sound s (State.command b op f s) := by
  unfold State.command
  split
  · split
    · exact k _ s
    · exact Sound.refl s
  · exact Sound.refl s

theorem execCntStart_sound (n : Ch) (s : State) : ∃ s' : State, execCntStart n s = .next s' ∧ Sound s s' := by
  obtain ⟨s', e, k⟩ := execCntStart_keeps n s
  exact ⟨s', e, Sound.of_keeps k (by decide) (by decide)⟩

theorem execCntStop_sound (n : Ch) (s : State) : ∃ s' : State, execCntStop n s = .next s' ∧ Sound s s' := by
  obtain ⟨s', e, k⟩ := execCntStop_keeps n s
  exact ⟨s', e, Sound.of_keeps k (by decide) (by decide)⟩

theorem execCntClear_sound (n : Ch) (s : State) : ∃ s' : State, execCntClear n s = .next s' ∧ Sound s s' := by
  obtain ⟨s', e, k⟩ := execCntClear_keeps n s
  exact ⟨s', e, Sound.of_keeps k (by decide) (by decide)⟩

theorem execCntLoad_sound (n : Ch) (s : State) : ∃ s' : State, execCntLoad n s = .next s' ∧ Sound s s' := by
  obtain ⟨s', e, k⟩ := execCntLoad_keeps n s
  exact ⟨s', e, Sound.of_keeps k (by decide) (by decide)⟩

theorem execCounterStep_sound (n : Ch) (s : State) : ∃ s' : State, execCounterStep n s = .next s' ∧ Sound s s' := by
  obtain ⟨s', e, k⟩ := execCounterStep_keeps n s
  exact ⟨s', e, Sound.of_keeps k (by decide) (by decide)⟩

theorem execTopCommit_sound (m : Master) (n : Ch) (w : W) (s : State) : ∃ s' : State, execTopCommit m n w s = .next s' ∧ Sound s s' := by
  obtain ⟨s', e, k⟩ := execTopCommit_keeps m n w s
  exact ⟨s', e, Sound.of_keeps k (by decide) (by decide)⟩

theorem execCmpDisarm_sound (n : Ch) (mask : BitVec 4) (s : State) : ∃ s' : State, execCmpDisarm n mask s = .next s' ∧ Sound s s' := by
  obtain ⟨s', e, k⟩ := execCmpDisarm_keeps n mask s
  exact ⟨s', e, Sound.of_keeps k (by decide) (by decide)⟩

theorem execCmpCommit_sound (m : Master) (n : Ch) (u : Unit4) (w : W) (s : State) : ∃ s' : State, execCmpCommit m n u w s = .next s' ∧ Sound s s' := by
  obtain ⟨s', e, k⟩ := execCmpCommit_keeps m n u w s
  exact ⟨s', e, Sound.of_keeps k (by decide) (by decide)⟩

theorem execCmpRearm_sound (n : Ch) (u : Unit4) (s : State) : ∃ s' : State, execCmpRearm n u s = .next s' ∧ Sound s s' := by
  obtain ⟨s', e, k⟩ := execCmpRearm_keeps n u s
  exact ⟨s', e, Sound.of_keeps k (by decide) (by decide)⟩

theorem execCmpMatch_sound (n : Ch) (s : State) : ∃ s' : State, execCmpMatch n s = .next s' ∧ Sound s s' := by
  obtain ⟨s', e, k⟩ := execCmpMatch_keeps n s
  exact ⟨s', e, Sound.of_keeps k (by decide) (by decide)⟩

theorem execPulseEnd_sound (n : Ch) (s : State) : ∃ s' : State, execPulseEnd n s = .next s' ∧ Sound s s' := by
  obtain ⟨s', e, k⟩ := execPulseEnd_keeps n s
  exact ⟨s', e, Sound.of_keeps k (by decide) (by decide)⟩

theorem execBurstEdge_sound (n : Ch) (s : State) : ∃ s' : State, execBurstEdge n s = .next s' ∧ Sound s s' := by
  obtain ⟨s', e, k⟩ := execBurstEdge_keeps n s
  exact ⟨s', e, Sound.of_keeps k (by decide) (by decide)⟩

theorem execOutForceSet_sound (n : Ch) (s : State) : ∃ s' : State, execOutForceSet n s = .next s' ∧ Sound s s' := by
  obtain ⟨s', e, k⟩ := execOutForceSet_keeps n s
  exact ⟨s', e, Sound.of_keeps k (by decide) (by decide)⟩

theorem execOutForceClr_sound (n : Ch) (s : State) : ∃ s' : State, execOutForceClr n s = .next s' ∧ Sound s s' := by
  obtain ⟨s', e, k⟩ := execOutForceClr_keeps n s
  exact ⟨s', e, Sound.of_keeps k (by decide) (by decide)⟩

theorem execOutForceTog_sound (n : Ch) (s : State) : ∃ s' : State, execOutForceTog n s = .next s' ∧ Sound s s' := by
  obtain ⟨s', e, k⟩ := execOutForceTog_keeps n s
  exact ⟨s', e, Sound.of_keeps k (by decide) (by decide)⟩

theorem execAdvCommit_sound (m : Master) (n : Ch) (w : W) (s : State) : ∃ s' : State, execAdvCommit m n w s = .next s' ∧ Sound s s' := by
  obtain ⟨s', e, k⟩ := execAdvCommit_keeps m n w s
  exact ⟨s', e, Sound.of_keeps k (by decide) (by decide)⟩

theorem execAdvEpochReached_sound (n : Ch) (s : State) : ∃ s' : State, execAdvEpochReached n s = .next s' ∧ Sound s s' := by
  obtain ⟨s', e, k⟩ := execAdvEpochReached_keeps n s
  exact ⟨s', e, Sound.of_keeps k (by decide) (by decide)⟩

theorem execDriveChangeApply_sound (n : Ch) (s : State) : ∃ s' : State, execDriveChangeApply n s = .next s' ∧ Sound s s' := by
  obtain ⟨s', e, k⟩ := execDriveChangeApply_keeps n s
  exact ⟨s', e, Sound.of_keeps k (by decide) (by decide)⟩

theorem execCapPop_sound (m : Master) (n : Ch) (s : State) : ∃ s' : State, execCapPop m n s = .next s' ∧ Sound s s' := by
  obtain ⟨s', e, k⟩ := execCapPop_keeps m n s
  exact ⟨s', e, Sound.of_keeps k (by decide) (by decide)⟩

theorem execInputCrossing_sound (p : InPin) (level : Bool) (frac : Fin 32) (s : State) : ∃ s' : State, execInputCrossing p level frac s = .next s' ∧ Sound s s' := by
  obtain ⟨s', e, k⟩ := execInputCrossing_keeps p level frac s
  exact ⟨s', e, Sound.of_keeps k (by decide) (by decide)⟩

theorem execFilterAccept_sound (p : InPin) (s : State) : ∃ s' : State, execFilterAccept p s = .next s' ∧ Sound s s' := by
  obtain ⟨s', e, k⟩ := execFilterAccept_keeps p s
  exact ⟨s', e, Sound.of_keeps k (by decide) (by decide)⟩

theorem execRfxArm_sound (n : Ch) (s : State) : ∃ s' : State, execRfxArm n s = .next s' ∧ Sound s s' := by
  obtain ⟨s', e, k⟩ := execRfxArm_keeps n s
  exact ⟨s', e, Sound.of_keeps k (by decide) (by decide)⟩

theorem execRfxDisarm_sound (n : Ch) (s : State) : ∃ s' : State, execRfxDisarm n s = .next s' ∧ Sound s s' := by
  obtain ⟨s', e, k⟩ := execRfxDisarm_keeps n s
  exact ⟨s', e, Sound.of_keeps k (by decide) (by decide)⟩

theorem execReflexInputChange_sound (n : Ch) (s : State) : ∃ s' : State, execReflexInputChange n s = .next s' ∧ Sound s s' := by
  obtain ⟨s', e, k⟩ := execReflexInputChange_keeps n s
  exact ⟨s', e, Sound.of_keeps k (by decide) (by decide)⟩

theorem execReadbackMismatchTick_sound (n : Ch) (s : State) : ∃ s' : State, execReadbackMismatchTick n s = .next s' ∧ Sound s s' := by
  obtain ⟨s', e, k⟩ := execReadbackMismatchTick_keeps n s
  exact ⟨s', e, Sound.of_keeps k (by decide) (by decide)⟩

theorem execReadbackInterval_sound (n : Ch) (s : State) : ∃ s' : State, execReadbackInterval n s = .next s' ∧ Sound s s' := by
  obtain ⟨s', e, k⟩ := execReadbackInterval_keeps n s
  exact ⟨s', e, Sound.of_keeps k (by decide) (by decide)⟩

theorem execPipWaitcyc_sound (n : Ch) (s : State) : ∃ s' : State, execPipWaitcyc n s = .next s' ∧ Sound s s' := by
  obtain ⟨s', e, k⟩ := execPipWaitcyc_keeps n s
  exact ⟨s', e, Sound.of_keeps k (by decide) (by decide)⟩

theorem execPipWaitpin_sound (n : Ch) (s : State) : ∃ s' : State, execPipWaitpin n s = .next s' ∧ Sound s s' := by
  obtain ⟨s', e, k⟩ := execPipWaitpin_keeps n s
  exact ⟨s', e, Sound.of_keeps k (by decide) (by decide)⟩

theorem execPipWaitflag_sound (n : Ch) (s : State) : ∃ s' : State, execPipWaitflag n s = .next s' ∧ Sound s s' := by
  obtain ⟨s', e, k⟩ := execPipWaitflag_keeps n s
  exact ⟨s', e, Sound.of_keeps k (by decide) (by decide)⟩

theorem execPipWaitirq_sound (n : Ch) (s : State) : ∃ s' : State, execPipWaitirq n s = .next s' ∧ Sound s s' := by
  obtain ⟨s', e, k⟩ := execPipWaitirq_keeps n s
  exact ⟨s', e, Sound.of_keeps k (by decide) (by decide)⟩

theorem execPipOut_sound (n : Ch) (s : State) : ∃ s' : State, execPipOut n s = .next s' ∧ Sound s s' := by
  obtain ⟨s', e, k⟩ := execPipOut_keeps n s
  exact ⟨s', e, Sound.of_keeps k (by decide) (by decide)⟩

theorem execPipIn_sound (n : Ch) (s : State) : ∃ s' : State, execPipIn n s = .next s' ∧ Sound s s' := by
  obtain ⟨s', e, k⟩ := execPipIn_keeps n s
  exact ⟨s', e, Sound.of_keeps k (by decide) (by decide)⟩

theorem execPipSet_sound (n : Ch) (s : State) : ∃ s' : State, execPipSet n s = .next s' ∧ Sound s s' := by
  obtain ⟨s', e, k⟩ := execPipSet_keeps n s
  exact ⟨s', e, Sound.of_keeps k (by decide) (by decide)⟩

theorem execPipJmp_sound (n : Ch) (s : State) : ∃ s' : State, execPipJmp n s = .next s' ∧ Sound s s' := by
  obtain ⟨s', e, k⟩ := execPipJmp_keeps n s
  exact ⟨s', e, Sound.of_keeps k (by decide) (by decide)⟩

theorem execPipLoop_sound (n : Ch) (s : State) : ∃ s' : State, execPipLoop n s = .next s' ∧ Sound s s' := by
  obtain ⟨s', e, k⟩ := execPipLoop_keeps n s
  exact ⟨s', e, Sound.of_keeps k (by decide) (by decide)⟩

theorem execPipCmp_sound (n : Ch) (s : State) : ∃ s' : State, execPipCmp n s = .next s' ∧ Sound s s' := by
  obtain ⟨s', e, k⟩ := execPipCmp_keeps n s
  exact ⟨s', e, Sound.of_keeps k (by decide) (by decide)⟩

theorem execPipPush_sound (n : Ch) (s : State) : ∃ s' : State, execPipPush n s = .next s' ∧ Sound s s' := by
  obtain ⟨s', e, k⟩ := execPipPush_keeps n s
  exact ⟨s', e, Sound.of_keeps k (by decide) (by decide)⟩

theorem execPipPull_sound (n : Ch) (s : State) : ∃ s' : State, execPipPull n s = .next s' ∧ Sound s s' := by
  obtain ⟨s', e, k⟩ := execPipPull_keeps n s
  exact ⟨s', e, Sound.of_keeps k (by decide) (by decide)⟩

theorem execPipIrq_sound (n : Ch) (s : State) : ∃ s' : State, execPipIrq n s = .next s' ∧ Sound s s' := by
  obtain ⟨s', e, k⟩ := execPipIrq_keeps n s
  exact ⟨s', e, Sound.of_keeps k (by decide) (by decide)⟩

theorem execPipMov_sound (n : Ch) (s : State) : ∃ s' : State, execPipMov n s = .next s' ∧ Sound s s' := by
  obtain ⟨s', e, k⟩ := execPipMov_keeps n s
  exact ⟨s', e, Sound.of_keeps k (by decide) (by decide)⟩

theorem execPipSwapInstr_sound (n : Ch) (s : State) : ∃ s' : State, execPipSwapInstr n s = .next s' ∧ Sound s s' := by
  obtain ⟨s', e, k⟩ := execPipSwapInstr_keeps n s
  exact ⟨s', e, Sound.of_keeps k (by decide) (by decide)⟩

theorem execPipStopInstr_sound (n : Ch) (s : State) : ∃ s' : State, execPipStopInstr n s = .next s' ∧ Sound s s' := by
  obtain ⟨s', e, k⟩ := execPipStopInstr_keeps n s
  exact ⟨s', e, Sound.of_keeps k (by decide) (by decide)⟩

theorem execPipReservedOp_sound (n : Ch) (s : State) : ∃ s' : State, execPipReservedOp n s = .next s' ∧ Sound s s' := by
  obtain ⟨s', e, k⟩ := execPipReservedOp_keeps n s
  exact ⟨s', e, Sound.of_keeps k (by decide) (by decide)⟩

theorem execPipWaitComplete_sound (n : Ch) (s : State) : ∃ s' : State, execPipWaitComplete n s = .next s' ∧ Sound s s' := by
  obtain ⟨s', e, k⟩ := execPipWaitComplete_keeps n s
  exact ⟨s', e, Sound.of_keeps k (by decide) (by decide)⟩

theorem execPipWaitTimeout_sound (n : Ch) (s : State) : ∃ s' : State, execPipWaitTimeout n s = .next s' ∧ Sound s s' := by
  obtain ⟨s', e, k⟩ := execPipWaitTimeout_keeps n s
  exact ⟨s', e, Sound.of_keeps k (by decide) (by decide)⟩

theorem execPipStart_sound (n : Ch) (entry : Fin 32) (s : State) : ∃ s' : State, execPipStart n entry s = .next s' ∧ Sound s s' := by
  obtain ⟨s', e, k⟩ := execPipStart_keeps n entry s
  exact ⟨s', e, Sound.of_keeps k (by decide) (by decide)⟩

theorem execPipStop_sound (n : Ch) (s : State) : ∃ s' : State, execPipStop n s = .next s' ∧ Sound s s' := by
  obtain ⟨s', e, k⟩ := execPipStop_keeps n s
  exact ⟨s', e, Sound.of_keeps k (by decide) (by decide)⟩

theorem execPipResume_sound (n : Ch) (s : State) : ∃ s' : State, execPipResume n s = .next s' ∧ Sound s s' := by
  obtain ⟨s', e, k⟩ := execPipResume_keeps n s
  exact ⟨s', e, Sound.of_keeps k (by decide) (by decide)⟩

theorem execPipCmdSwap_sound (n : Ch) (s : State) : ∃ s' : State, execPipCmdSwap n s = .next s' ∧ Sound s s' := by
  obtain ⟨s', e, k⟩ := execPipCmdSwap_keeps n s
  exact ⟨s', e, Sound.of_keeps k (by decide) (by decide)⟩

theorem execPipCmdForce_sound (n : Ch) (s : State) : ∃ s' : State, execPipCmdForce n s = .next s' ∧ Sound s s' := by
  obtain ⟨s', e, k⟩ := execPipCmdForce_keeps n s
  exact ⟨s', e, Sound.of_keeps k (by decide) (by decide)⟩

theorem execPipRelease_sound (n : Ch) (s : State) : ∃ s' : State, execPipRelease n s = .next s' ∧ Sound s s' := by
  obtain ⟨s', e, k⟩ := execPipRelease_keeps n s
  exact ⟨s', e, Sound.of_keeps k (by decide) (by decide)⟩

theorem execPipKick_sound (n : Ch) (s : State) : ∃ s' : State, execPipKick n s = .next s' ∧ Sound s s' := by
  obtain ⟨s', e, k⟩ := execPipKick_keeps n s
  exact ⟨s', e, Sound.of_keeps k (by decide) (by decide)⟩

theorem execPipReset_sound (n : Ch) (s : State) : ∃ s' : State, execPipReset n s = .next s' ∧ Sound s s' := by
  obtain ⟨s', e, k⟩ := execPipReset_keeps n s
  exact ⟨s', e, Sound.of_keeps k (by decide) (by decide)⟩

theorem execPipValidate_sound (n : Ch) (mask : BitVec 2) (s : State) : ∃ s' : State, execPipValidate n mask s = .next s' ∧ Sound s s' := by
  obtain ⟨s', e, k⟩ := execPipValidate_keeps n mask s
  exact ⟨s', e, Sound.of_keeps k (by decide) (by decide)⟩

theorem execTxfFlush_sound (n : Ch) (s : State) : ∃ s' : State, execTxfFlush n s = .next s' ∧ Sound s s' := by
  obtain ⟨s', e, k⟩ := execTxfFlush_keeps n s
  exact ⟨s', e, Sound.of_keeps k (by decide) (by decide)⟩

theorem execRxfFlush_sound (n : Ch) (s : State) : ∃ s' : State, execRxfFlush n s = .next s' ∧ Sound s s' := by
  obtain ⟨s', e, k⟩ := execRxfFlush_keeps n s
  exact ⟨s', e, Sound.of_keeps k (by decide) (by decide)⟩

theorem execPipPrgWrite_sound (n : Ch) (bank : Bool) (i : Fin 32) (w : W) (s : State) : ∃ s' : State, execPipPrgWrite n bank i w s = .next s' ∧ Sound s s' := by
  obtain ⟨s', e, k⟩ := execPipPrgWrite_keeps n bank i w s
  exact ⟨s', e, Sound.of_keeps k (by decide) (by decide)⟩

theorem execPipCtrlWrite_sound (n : Ch) (w : W) (s : State) : ∃ s' : State, execPipCtrlWrite n w s = .next s' ∧ Sound s s' := by
  obtain ⟨s', e, k⟩ := execPipCtrlWrite_keeps n w s
  exact ⟨s', e, Sound.of_keeps k (by decide) (by decide)⟩

theorem execPipPinsWrite_sound (n : Ch) (w : W) (s : State) : ∃ s' : State, execPipPinsWrite n w s = .next s' ∧ Sound s s' := by
  obtain ⟨s', e, k⟩ := execPipPinsWrite_keeps n w s
  exact ⟨s', e, Sound.of_keeps k (by decide) (by decide)⟩

theorem execPipSrWrite_sound (n : Ch) (w : W) (s : State) : ∃ s' : State, execPipSrWrite n w s = .next s' ∧ Sound s s' := by
  obtain ⟨s', e, k⟩ := execPipSrWrite_keeps n w s
  exact ⟨s', e, Sound.of_keeps k (by decide) (by decide)⟩

theorem execPipLcWrite_sound (n : Ch) (w : W) (s : State) : ∃ s' : State, execPipLcWrite n w s = .next s' ∧ Sound s s' := by
  obtain ⟨s', e, k⟩ := execPipLcWrite_keeps n w s
  exact ⟨s', e, Sound.of_keeps k (by decide) (by decide)⟩

theorem execTxfWrite_sound (n : Ch) (w : W) (s : State) : ∃ s' : State, execTxfWrite n w s = .next s' ∧ Sound s s' := by
  obtain ⟨s', e, k⟩ := execTxfWrite_keeps n w s
  exact ⟨s', e, Sound.of_keeps k (by decide) (by decide)⟩

theorem execRxfRead_sound (m : Master) (n : Ch) (s : State) : ∃ s' : State, execRxfRead m n s = .next s' ∧ Sound s s' := by
  obtain ⟨s', e, k⟩ := execRxfRead_keeps m n s
  exact ⟨s', e, Sound.of_keeps k (by decide) (by decide)⟩

theorem execBacklogDrain_sound (p : Pod) (s : State) : ∃ s' : State, execBacklogDrain p s = .next s' ∧ Sound s s' :=
  ⟨_, rfl, State.backlogDrain_sound ..⟩

theorem execResRdWrite_sound (p : Pod) (w : W) (s : State) : ∃ s' : State, execResRdWrite p w s = .next s' ∧ Sound s s' := by
  obtain ⟨s', e, k⟩ := execResRdWrite_keeps p w s
  exact ⟨s', e, Sound.of_keeps k (by decide) (by decide)⟩

theorem execAxisStopDetect_sound (k : Ax) (s : State) : ∃ s' : State, execAxisStopDetect k s = .next s' ∧ Sound s s' := by
  obtain ⟨s', e, k⟩ := execAxisStopDetect_keeps k s
  exact ⟨s', e, Sound.of_keeps k (by decide) (by decide)⟩

theorem execLagDetect_sound (k : Ax) (s : State) : ∃ s' : State, execLagDetect k s = .next s' ∧ Sound s s' := by
  obtain ⟨s', e, k⟩ := execLagDetect_keeps k s
  exact ⟨s', e, Sound.of_keeps k (by decide) (by decide)⟩

theorem execCountWindowEnd_sound (k : Ax) (s : State) : ∃ s' : State, execCountWindowEnd k s = .next s' ∧ Sound s s' := by
  obtain ⟨s', e, k⟩ := execCountWindowEnd_keeps k s
  exact ⟨s', e, Sound.of_keeps k (by decide) (by decide)⟩

theorem execSpeedRead_sound (m : Master) (k : Ax) (s : State) : ∃ s' : State, execSpeedRead m k s = .next s' ∧ Sound s s' := by
  obtain ⟨s', e, k⟩ := execSpeedRead_keeps m k s
  exact ⟨s', e, Sound.of_keeps k (by decide) (by decide)⟩

theorem execPosLoad_sound (k : Ax) (s : State) : ∃ s' : State, execPosLoad k s = .next s' ∧ Sound s s' := by
  obtain ⟨s', e, k⟩ := execPosLoad_keeps k s
  exact ⟨s', e, Sound.of_keeps k (by decide) (by decide)⟩

theorem execZArm_sound (k : Ax) (s : State) : ∃ s' : State, execZArm k s = .next s' ∧ Sound s s' := by
  obtain ⟨s', e, k⟩ := execZArm_keeps k s
  exact ⟨s', e, Sound.of_keeps k (by decide) (by decide)⟩

theorem execPosCommit_sound (k : Ax) (n : Ch) (s : State) : ∃ s' : State, execPosCommit k n s = .next s' ∧ Sound s s' := by
  obtain ⟨s', e, k⟩ := execPosCommit_keeps k n s
  exact ⟨s', e, Sound.of_keeps k (by decide) (by decide)⟩

theorem execEmulOutputEdge_sound (k : Ax) (s : State) : ∃ s' : State, execEmulOutputEdge k s = .next s' ∧ Sound s s' := by
  obtain ⟨s', e, k⟩ := execEmulOutputEdge_keeps k s
  exact ⟨s', e, Sound.of_keeps k (by decide) (by decide)⟩

theorem execEmulEnable_sound (k : Ax) (w : W) (s : State) : ∃ s' : State, execEmulEnable k w s = .next s' ∧ Sound s s' := by
  obtain ⟨s', e, k⟩ := execEmulEnable_keeps k w s
  exact ⟨s', e, Sound.of_keeps k (by decide) (by decide)⟩

theorem execEmulRestart_sound (k : Ax) (s : State) : ∃ s' : State, execEmulRestart k s = .next s' ∧ Sound s s' := by
  obtain ⟨s', e, k⟩ := execEmulRestart_keeps k s
  exact ⟨s', e, Sound.of_keeps k (by decide) (by decide)⟩

theorem execAxisFilterAccept_sound (k : Ax) (p : AxPin) (level : Bool) (lt : Nat) (s : State) : ∃ s' : State, execAxisFilterAccept k p level lt s = .next s' ∧ Sound s s' := by
  obtain ⟨s', e, k⟩ := execAxisFilterAccept_keeps k p level lt s
  exact ⟨s', e, Sound.of_keeps k (by decide) (by decide)⟩

theorem execAxisEdge_sound (k : Ax) (s : State) : ∃ s' : State, execAxisEdge k s = .next s' ∧ Sound s s' := by
  obtain ⟨s', e, k⟩ := execAxisEdge_keeps k s
  exact ⟨s', e, Sound.of_keeps k (by decide) (by decide)⟩

theorem execCalWrite_sound (b : CmdMbx) (s : State) : ∃ s' : State, execCalWrite b s = .next s' ∧ Sound s s' := by
  obtain ⟨s', e, k⟩ := execCalWrite_keeps b s
  exact ⟨s', e, Sound.of_keeps k (by decide) (by decide)⟩

theorem execCalWriteDma_sound (b : CmdMbx) (s : State) : ∃ s' : State, execCalWriteDma b s = .next s' ∧ Sound s s' := by
  obtain ⟨s', e, k⟩ := execCalWriteDma_keeps b s
  exact ⟨s', e, Sound.of_keeps k (by decide) (by decide)⟩

theorem execCalRecordAccept_sound (b : CmdMbx) (s : State) : ∃ s' : State, execCalRecordAccept b s = .next s' ∧ Sound s s' := by
  obtain ⟨s', e, k⟩ := execCalRecordAccept_keeps b s
  exact ⟨s', e, Sound.of_keeps k (by decide) (by decide)⟩

theorem execBucketBoundary_sound (s : State) : ∃ s' : State, execBucketBoundary s = .next s' ∧ Sound s s' := by
  obtain ⟨s', e, k⟩ := execBucketBoundary_keeps s
  exact ⟨s', e, Sound.of_keeps k (by decide) (by decide)⟩

theorem execHorizonSet_sound (b : CmdMbx) (s : State) : ∃ s' : State, execHorizonSet b s = .next s' ∧ Sound s s' := by
  obtain ⟨s', e, k⟩ := execHorizonSet_keeps b s
  exact ⟨s', e, Sound.of_keeps k (by decide) (by decide)⟩

theorem execHorizonTakeEffect_sound (s : State) : ∃ s' : State, execHorizonTakeEffect s = .next s' ∧ Sound s s' := by
  obtain ⟨s', e, k⟩ := execHorizonTakeEffect_keeps s
  exact ⟨s', e, Sound.of_keeps k (by decide) (by decide)⟩

theorem execCalConfig_sound (b : CmdMbx) (s : State) : ∃ s' : State, execCalConfig b s = .next s' ∧ Sound s s' := by
  obtain ⟨s', e, k⟩ := execCalConfig_keeps b s
  exact ⟨s', e, Sound.of_keeps k (by decide) (by decide)⟩

theorem execCalCancel_sound (b : CmdMbx) (s : State) : ∃ s' : State, execCalCancel b s = .next s' ∧ Sound s s' := by
  obtain ⟨s', e, k⟩ := execCalCancel_keeps b s
  exact ⟨s', e, Sound.of_keeps k (by decide) (by decide)⟩

theorem execArmFast_sound (p : Pod) (f : Fetch) (s : State) : ∃ s' : State, execArmFast p f s = .next s' ∧ Sound s s' := by
  unfold execArmFast
  refine ⟨_, rfl, ?_⟩
  all_goals
    repeat' first
      | with_reducible exact Sound.refl ..
      | extract_lets
      | with_reducible apply Sound.trans ?_ (State.armFast_sound ..)
      | ((with_reducible apply Sound.keeps ?_ (State.dispatch_keeps ..) ?_ ?_); (on_goal 2 => decide); on_goal 2 => decide)
      | with_reducible apply Sound.ite
      | split
      | (dsimp +zetaDelta only; split)

theorem execArmStage_sound (p : Pod) (f : Fetch) (s : State) : ∃ s' : State, execArmStage p f s = .next s' ∧ Sound s s' := by
  unfold execArmStage
  refine ⟨_, rfl, ?_⟩
  all_goals
    repeat' first
      | with_reducible exact Sound.refl ..
      | extract_lets
      | with_reducible apply Sound.trans ?_ (State.armStage_sound ..)
      | ((with_reducible apply Sound.keeps ?_ (State.dispatch_keeps ..) ?_ ?_); (on_goal 2 => decide); on_goal 2 => decide)
      | with_reducible apply Sound.ite
      | split
      | (dsimp +zetaDelta only; split)

theorem execRetire_sound (p : Pod) (f : Fetch) (s : State) : ∃ s' : State, execRetire p f s = .next s' ∧ Sound s s' := by
  unfold execRetire
  refine ⟨_, rfl, ?_⟩
  all_goals
    repeat' first
      | with_reducible exact Sound.refl ..
      | extract_lets
      | with_reducible apply Sound.trans ?_ (State.retire_sound ..)
      | ((with_reducible apply Sound.keeps ?_ (State.dispatch_keeps ..) ?_ ?_); (on_goal 2 => decide); on_goal 2 => decide)
      | with_reducible apply Sound.ite
      | split
      | (dsimp +zetaDelta only; split)

theorem execMissedAtDue_sound (p : Pod) (s : State) : ∃ s' : State, execMissedAtDue p s = .next s' ∧ Sound s s' :=
  ⟨_, rfl, State.missedAtDue_sound ..⟩

theorem execCapSpill_sound (p : Pod) (s : State) : ∃ s' : State, execCapSpill p s = .next s' ∧ Sound s s' := by
  unfold execCapSpill
  refine ⟨_, rfl, ?_⟩
  all_goals
    repeat' first
      | with_reducible exact Sound.refl ..
      | extract_lets
      | with_reducible apply Sound.trans ?_ (State.capSpill_sound ..)
      | ((with_reducible apply Sound.keeps ?_ (State.dispatch_keeps ..) ?_ ?_); (on_goal 2 => decide); on_goal 2 => decide)
      | with_reducible apply Sound.ite
      | split
      | (dsimp +zetaDelta only; split)

theorem execPipXfer_sound (n : Ch) (drain : Bool) (s : State) : ∃ s' : State, execPipXfer n drain s = .next s' ∧ Sound s s' := by
  unfold execPipXfer
  refine ⟨_, rfl, ?_⟩
  all_goals
    repeat' first
      | with_reducible exact Sound.refl ..
      | extract_lets
      | with_reducible apply Sound.trans ?_ (State.pipXfer_sound ..)
      | ((with_reducible apply Sound.keeps ?_ (State.dispatch_keeps ..) ?_ ?_); (on_goal 2 => decide); on_goal 2 => decide)
      | with_reducible apply Sound.ite
      | split
      | (dsimp +zetaDelta only; split)

theorem execFeedWrWrite_sound (n : Ch) (w : W) (s : State) : ∃ s' : State, execFeedWrWrite n w s = .next s' ∧ Sound s s' := by
  obtain ⟨s', e, k⟩ := execFeedWrWrite_keeps n w s
  exact ⟨s', e, Sound.of_keeps k (by decide) (by decide)⟩

theorem execDrnRdWrite_sound (n : Ch) (w : W) (s : State) : ∃ s' : State, execDrnRdWrite n w s = .next s' ∧ Sound s s' := by
  obtain ⟨s', e, k⟩ := execDrnRdWrite_keeps n w s
  exact ⟨s', e, Sound.of_keeps k (by decide) (by decide)⟩

theorem execPline_sound (p : Pod) (s : State) : ∃ s' : State, execPline p s = .next s' ∧ Sound s s' := by
  obtain ⟨s', e, k⟩ := execPline_keeps p s
  exact ⟨s', e, Sound.of_keeps k (by decide) (by decide)⟩

theorem execResultRingSet_sound (b : CmdMbx) (s : State) : ∃ s' : State, execResultRingSet b s = .next s' ∧ Sound s s' := by
  obtain ⟨s', e, k⟩ := execResultRingSet_keeps b s
  exact ⟨s', e, Sound.of_keeps k (by decide) (by decide)⟩

theorem execCfg_sound (p : Pod) (f : Fetch) (s : State) : ∃ s' : State, execCfg p f s = .next s' ∧ Sound s s' := by
  unfold execCfg
  refine ⟨_, rfl, ?_⟩
  all_goals
    repeat' first
      | with_reducible exact Sound.refl ..
      | extract_lets
      | with_reducible apply Sound.trans ?_ (State.cfgJob_sound ..)
      | ((with_reducible apply Sound.keeps ?_ (State.dispatch_keeps ..) ?_ ?_); (on_goal 2 => decide); on_goal 2 => decide)
      | with_reducible apply Sound.ite
      | split
      | (dsimp +zetaDelta only; split)

theorem execCsRepair_sound (p : Pod) (a : Fin 4096) (s : State) : ∃ s' : State, execCsRepair p a s = .next s' ∧ Sound s s' := by
  obtain ⟨s', e, k⟩ := execCsRepair_keeps p a s
  exact ⟨s', e, Sound.of_keeps k (by decide) (by decide)⟩

theorem execCsBackgroundPass_sound (p : Pod) (s : State) : ∃ s' : State, execCsBackgroundPass p s = .next s' ∧ Sound s s' := by
  obtain ⟨s', e, k⟩ := execCsBackgroundPass_keeps p s
  exact ⟨s', e, Sound.of_keeps k (by decide) (by decide)⟩

theorem execStoreAccess_sound (bank : Fin 96) (reqs : List StoreReq) (s : State) : ∃ s' : State, execStoreAccess bank reqs s = .next s' ∧ Sound s s' :=
  ⟨_, rfl, State.storeAccess_sound ..⟩

theorem execCeWriteback_sound (a : Nat) (s : State) : ∃ s' : State, execCeWriteback a s = .next s' ∧ Sound s s' := by
  obtain ⟨s', e, k⟩ := execCeWriteback_keeps a s
  exact ⟨s', e, Sound.of_keeps k (by decide) (by decide)⟩

theorem execScrubPassStart_sound (found : List (Nat × Ecc)) (s : State) : ∃ s' : State, execScrubPassStart found s = .next s' ∧ Sound s s' := by
  unfold execScrubPassStart
  refine ⟨_, rfl, ?_⟩
  all_goals
    repeat' first
      | with_reducible exact Sound.refl ..
      | extract_lets
      | with_reducible apply Sound.trans ?_ (State.scrubPass_sound ..)
      | with_reducible apply Sound.ite
      | split
      | (dsimp +zetaDelta only; split)
      | ((with_reducible apply Sound.upd ?_ ?_ ?_); (on_goal 2 => first | with_reducible exact id | exact fun h => memWrites_wf _ _ h | exact fun h => memWriteCells_wf _ h); on_goal 2 => exact Nat.le_refl _)

theorem execScrubPassDone_sound (s : State) : ∃ s' : State, execScrubPassDone s = .next s' ∧ Sound s s' := by
  unfold execScrubPassDone
  refine ⟨_, rfl, ?_⟩
  all_goals
    repeat' first
      | with_reducible exact Sound.refl ..
      | extract_lets
      | ((with_reducible apply Sound.when ?_ _ _ ?_); on_goal 2 => intro _)
      | with_reducible apply Sound.trans ?_ (State.scrubPass_sound ..)
      | with_reducible apply Sound.ite
      | split
      | (dsimp +zetaDelta only; split)
      | ((with_reducible apply Sound.upd ?_ ?_ ?_); (on_goal 2 => first | with_reducible exact id | exact fun h => memWrites_wf _ _ h | exact fun h => memWriteCells_wf _ h); on_goal 2 => exact Nat.le_refl _)

theorem execStoreRetain_sound (b : CmdMbx) (s : State) : ∃ s' : State, execStoreRetain b s = .next s' ∧ Sound s s' := by
  obtain ⟨s', e, k⟩ := execStoreRetain_keeps b s
  exact ⟨s', e, Sound.of_keeps k (by decide) (by decide)⟩

theorem execRetentionDone_sound (g : Seg) (s : State) : ∃ s' : State, execRetentionDone g s = .next s' ∧ Sound s s' := by
  obtain ⟨s', e, k⟩ := execRetentionDone_keeps g s
  exact ⟨s', e, Sound.of_keeps k (by decide) (by decide)⟩

theorem execSegmentAutoWake_sound (m : Fin 25) (g : Seg) (s : State) : ∃ s' : State, execSegmentAutoWake m g s = .next s' ∧ Sound s s' := by
  obtain ⟨s', e, k⟩ := execSegmentAutoWake_keeps m g s
  exact ⟨s', e, Sound.of_keeps k (by decide) (by decide)⟩

theorem execCapRingRdWrite_sound (p : Pod) (w : W) (s : State) : ∃ s' : State, execCapRingRdWrite p w s = .next s' ∧ Sound s s' := by
  obtain ⟨s', e, k⟩ := execCapRingRdWrite_keeps p w s
  exact ⟨s', e, Sound.of_keeps k (by decide) (by decide)⟩

theorem execCapRingConfigWrite_sound (p : Pod) (size : Bool) (w : W) (s : State) : ∃ s' : State, execCapRingConfigWrite p size w s = .next s' ∧ Sound s s' := by
  obtain ⟨s', e, k⟩ := execCapRingConfigWrite_keeps p size w s
  exact ⟨s', e, Sound.of_keeps k (by decide) (by decide)⟩

theorem execWatchRestart_sound (b : CmdMbx) (s : State) : ∃ s' : State, execWatchRestart b s = .next s' ∧ Sound s s' := by
  obtain ⟨s', e, k⟩ := execWatchRestart_keeps b s
  exact ⟨s', e, Sound.of_keeps k (by decide) (by decide)⟩

theorem execWatchViolation_sound (core : Fin 4) (store : Bool) (addr : Nat) (s : State) : ∃ s' : State, execWatchViolation core store addr s = .next s' ∧ Sound s s' := by
  obtain ⟨s', e, k⟩ := execWatchViolation_keeps core store addr s
  exact ⟨s', e, Sound.of_keeps k (by decide) (by decide)⟩

theorem execHeartbeatWrite_sound (core : Fin 4) (s : State) : ∃ s' : State, execHeartbeatWrite core s = .next s' ∧ Sound s s' := by
  obtain ⟨s', e, k⟩ := execHeartbeatWrite_keeps core s
  exact ⟨s', e, Sound.of_keeps k (by decide) (by decide)⟩

theorem execHeartbeatTimeout_sound (core : Fin 4) (s : State) : ∃ s' : State, execHeartbeatTimeout core s = .next s' ∧ Sound s s' := by
  obtain ⟨s', e, k⟩ := execHeartbeatTimeout_keeps core s
  exact ⟨s', e, Sound.of_keeps k (by decide) (by decide)⟩

theorem execWatchCoreFault_sound (core : Fin 4) (s : State) : ∃ s' : State, execWatchCoreFault core s = .next s' ∧ Sound s s' := by
  obtain ⟨s', e, k⟩ := execWatchCoreFault_keeps core s
  exact ⟨s', e, Sound.of_keeps k (by decide) (by decide)⟩

theorem execCodeDigestCheck_sound (ok flashOk : Bool) (s : State) : ∃ s' : State, execCodeDigestCheck ok flashOk s = .next s' ∧ Sound s s' := by
  obtain ⟨s', e, k⟩ := execCodeDigestCheck_keeps ok flashOk s
  exact ⟨s', e, Sound.of_keeps k (by decide) (by decide)⟩

theorem execRestartDelayEnd_sound (s : State) : ∃ s' : State, execRestartDelayEnd s = .next s' ∧ Sound s s' := by
  obtain ⟨s', e, k⟩ := execRestartDelayEnd_keeps s
  exact ⟨s', e, Sound.of_keeps k (by decide) (by decide)⟩

theorem execRestartComplete_sound (s : State) : ∃ s' : State, execRestartComplete s = .next s' ∧ Sound s s' := by
  obtain ⟨s', e, k⟩ := execRestartComplete_keeps s
  exact ⟨s', e, Sound.of_keeps k (by decide) (by decide)⟩

theorem execKeeperWatchdog_sound (s : State) : ∃ s' : State, execKeeperWatchdog s = .next s' ∧ Sound s s' := by
  obtain ⟨s', e, k⟩ := execKeeperWatchdog_keeps s
  exact ⟨s', e, Sound.of_keeps k (by decide) (by decide)⟩

theorem execBuoySelfTestDone_sound (p : Pod) (pass : Bool) (s : State) : ∃ s' : State, execBuoySelfTestDone p pass s = .next s' ∧ Sound s s' := by
  obtain ⟨s', e, k⟩ := execBuoySelfTestDone_keeps p pass s
  exact ⟨s', e, Sound.of_keeps k (by decide) (by decide)⟩

theorem execShadowPeriodEnd_sound (p : Pod) (s : State) : ∃ s' : State, execShadowPeriodEnd p s = .next s' ∧ Sound s s' := by
  obtain ⟨s', e, k⟩ := execShadowPeriodEnd_keeps p s
  exact ⟨s', e, Sound.of_keeps k (by decide) (by decide)⟩

theorem execShadowMismatch_sound (p : Pod) (output forced : Bool) (ts : Nat) (s : State) : ∃ s' : State, execShadowMismatch p output forced ts s = .next s' ∧ Sound s s' := by
  obtain ⟨s', e, k⟩ := execShadowMismatch_keeps p output forced ts s
  exact ⟨s', e, Sound.of_keeps k (by decide) (by decide)⟩

theorem execSubstStep_sound (p : Pod) (s : State) : ∃ s' : State, execSubstStep p s = .next s' ∧ Sound s s' := by
  obtain ⟨s', e, k⟩ := execSubstStep_keeps p s
  exact ⟨s', e, Sound.of_keeps k (by decide) (by decide)⟩

theorem execQuarantineTestDone_sound (p : Pod) (pass : Bool) (s : State) : ∃ s' : State, execQuarantineTestDone p pass s = .next s' ∧ Sound s s' := by
  obtain ⟨s', e, k⟩ := execQuarantineTestDone_keeps p pass s
  exact ⟨s', e, Sound.of_keeps k (by decide) (by decide)⟩

theorem execTakeoverSpacingEnd_sound (p : Pod) (s : State) : ∃ s' : State, execTakeoverSpacingEnd p s = .next s' ∧ Sound s s' := by
  obtain ⟨s', e, k⟩ := execTakeoverSpacingEnd_keeps p s
  exact ⟨s', e, Sound.of_keeps k (by decide) (by decide)⟩

theorem execSpareMove_sound (n : Ch) (s : State) : ∃ s' : State, execSpareMove n s = .next s' ∧ Sound s s' := by
  obtain ⟨s', e, k⟩ := execSpareMove_keeps n s
  exact ⟨s', e, Sound.of_keeps k (by decide) (by decide)⟩

theorem execSpareMoveBack_sound (n : Ch) (s : State) : ∃ s' : State, execSpareMoveBack n s = .next s' ∧ Sound s s' := by
  obtain ⟨s', e, k⟩ := execSpareMoveBack_keeps n s
  exact ⟨s', e, Sound.of_keeps k (by decide) (by decide)⟩

theorem execSubstPolicy_sound (b : CmdMbx) (s : State) : ∃ s' : State, execSubstPolicy b s = .next s' ∧ Sound s s' := by
  obtain ⟨s', e, k⟩ := execSubstPolicy_keeps b s
  exact ⟨s', e, Sound.of_keeps k (by decide) (by decide)⟩

theorem execLtXchkCorrect_sound (a b : Nat) (s : State) : ∃ s' : State, execLtXchkCorrect a b s = .next s' ∧ Sound s s' := by
  unfold execLtXchkCorrect
  refine ⟨_, rfl, ?_⟩
  all_goals
    repeat' first
      | with_reducible exact Sound.refl ..
      | extract_lets
      | with_reducible apply Sound.ite
      | split
      | (dsimp +zetaDelta only; split)
      | ((with_reducible apply Sound.upd ?_ ?_ ?_); (on_goal 2 => first | with_reducible exact id | exact fun h => memWrites_wf _ _ h | exact fun h => memWriteCells_wf _ h); on_goal 2 => exact Nat.le_refl _)

theorem execEicLineEdge_sound (i : Src) (s : State) : ∃ s' : State, execEicLineEdge i s = .next s' ∧ Sound s s' := by
  obtain ⟨s', e, k⟩ := execEicLineEdge_keeps i s
  exact ⟨s', e, Sound.of_keeps k (by decide) (by decide)⟩

theorem execEicPsetWrite_sound (m : Master) (g : Grp) (w : W) (s : State) : ∃ s' : State, execEicPsetWrite m g w s = .next s' ∧ Sound s s' := by
  obtain ⟨s', e, k⟩ := execEicPsetWrite_keeps m g w s
  exact ⟨s', e, Sound.of_keeps k (by decide) (by decide)⟩

theorem execEicPendClear_sound (m : Master) (g : Grp) (w : W) (s : State) : ∃ s' : State, execEicPendClear m g w s = .next s' ∧ Sound s s' := by
  obtain ⟨s', e, k⟩ := execEicPendClear_keeps m g w s
  exact ⟨s', e, Sound.of_keeps k (by decide) (by decide)⟩

theorem execClaim_sound (reads : List (Master × Tgt)) (s : State) : ∃ s' : State, execClaim reads s = .next s' ∧ Sound s s' := by
  obtain ⟨s', e, k⟩ := execClaim_keeps reads s
  exact ⟨s', e, Sound.of_keeps k (by decide) (by decide)⟩

theorem execEoi_sound (m : Master) (t : Tgt) (s : State) : ∃ s' : State, execEoi m t s = .next s' ∧ Sound s s' := by
  obtain ⟨s', e, k⟩ := execEoi_keeps m t s
  exact ⟨s', e, Sound.of_keeps k (by decide) (by decide)⟩

theorem execHoldoffExpire_sound (g : Grp) (s : State) : ∃ s' : State, execHoldoffExpire g s = .next s' ∧ Sound s s' := by
  obtain ⟨s', e, k⟩ := execHoldoffExpire_keeps g s
  exact ⟨s', e, Sound.of_keeps k (by decide) (by decide)⟩

theorem execSrcCfgWrite_sound (m : Master) (i : Src) (w : W) (s : State) : ∃ s' : State, execSrcCfgWrite m i w s = .next s' ∧ Sound s s' := by
  obtain ⟨s', e, k⟩ := execSrcCfgWrite_keeps m i w s
  exact ⟨s', e, Sound.of_keeps k (by decide) (by decide)⟩

theorem execGroupLock_sound (m : Master) (g : Grp) (s : State) : ∃ s' : State, execGroupLock m g s = .next s' ∧ Sound s s' := by
  obtain ⟨s', e, k⟩ := execGroupLock_keeps m g s
  exact ⟨s', e, Sound.of_keeps k (by decide) (by decide)⟩

theorem execMsixUnmask_sound (v : Fin 32) (s : State) : ∃ s' : State, execMsixUnmask v s = .next s' ∧ Sound s s' := by
  obtain ⟨s', e, k⟩ := execMsixUnmask_keeps v s
  exact ⟨s', e, Sound.of_keeps k (by decide) (by decide)⟩

theorem execAbortGo_sound (m : Master) (w : W) (s : State) : ∃ s' : State, execAbortGo m w s = .next s' ∧ Sound s s' := by
  unfold execAbortGo
  refine ⟨_, rfl, ?_⟩
  all_goals
    repeat' first
      | with_reducible exact Sound.refl ..
      | extract_lets
      | ((with_reducible refine Sound.access _ _ _ ?_ ?_); on_goal 2 => intro _)
      | with_reducible apply Sound.trans ?_ (State.writeAbortCtrl_sound ..)
      | with_reducible apply Sound.ite
      | split
      | (dsimp +zetaDelta only; split)

theorem execAbortRelease_sound (m : Master) (w : W) (s : State) : ∃ s' : State, execAbortRelease m w s = .next s' ∧ Sound s s' := by
  unfold execAbortRelease
  refine ⟨_, rfl, ?_⟩
  all_goals
    repeat' first
      | with_reducible exact Sound.refl ..
      | extract_lets
      | ((with_reducible refine Sound.access _ _ _ ?_ ?_); on_goal 2 => intro _)
      | with_reducible apply Sound.trans ?_ (State.writeAbortCtrl_sound ..)
      | with_reducible apply Sound.ite
      | split
      | (dsimp +zetaDelta only; split)

theorem execAbortDone_sound (s : State) : ∃ s' : State, execAbortDone s = .next s' ∧ Sound s s' := by
  obtain ⟨s', e, k⟩ := execAbortDone_keeps s
  exact ⟨s', e, Sound.of_keeps k (by decide) (by decide)⟩

theorem execSafeNFall_sound (width : SafePulse) (s : State) : ∃ s' : State, execSafeNFall width s = .next s' ∧ Sound s s' := by
  unfold execSafeNFall
  refine ⟨_, rfl, ?_⟩
  all_goals
    repeat' first
      | with_reducible exact Sound.refl ..
      | extract_lets
      | with_reducible apply Sound.trans ?_ (State.safeFall_sound ..)
      | ((with_reducible apply Sound.keeps ?_ (State.used_keeps ..) ?_ ?_); (on_goal 2 => decide); on_goal 2 => decide)
      | with_reducible apply Sound.ite
      | split
      | (dsimp +zetaDelta only; split)

theorem execSafeNRise_sound (s : State) : ∃ s' : State, execSafeNRise s = .next s' ∧ Sound s s' := by
  obtain ⟨s', e, k⟩ := execSafeNRise_keeps s
  exact ⟨s', e, Sound.of_keeps k (by decide) (by decide)⟩

theorem execKeeperRebootDone_sound (s : State) : ∃ s' : State, execKeeperRebootDone s = .next s' ∧ Sound s s' := by
  obtain ⟨s', e, k⟩ := execKeeperRebootDone_keeps s
  exact ⟨s', e, Sound.of_keeps k (by decide) (by decide)⟩

theorem execFreezeRequest_sound (m : Master) (n : Ch) (s : State) : ∃ s' : State, execFreezeRequest m n s = .next s' ∧ Sound s s' := by
  obtain ⟨s', e, k⟩ := execFreezeRequest_keeps m n s
  exact ⟨s', e, Sound.of_keeps k (by decide) (by decide)⟩

theorem execThawRequest_sound (m : Master) (n : Ch) (s : State) : ∃ s' : State, execThawRequest m n s = .next s' ∧ Sound s s' := by
  obtain ⟨s', e, k⟩ := execThawRequest_keeps m n s
  exact ⟨s', e, Sound.of_keeps k (by decide) (by decide)⟩

theorem execFreezeEntry_sound (n : Ch) (s : State) : ∃ s' : State, execFreezeEntry n s = .next s' ∧ Sound s s' :=
  ⟨_, rfl, State.freeze_sound ..⟩

theorem execThaw_sound (n : Ch) (s : State) : ∃ s' : State, execThaw n s = .next s' ∧ Sound s s' := by
  obtain ⟨s', e, k⟩ := execThaw_keeps n s
  exact ⟨s', e, Sound.of_keeps k (by decide) (by decide)⟩

theorem execAdcDataRead_sound (m : Master) (i : Slice) (s : State) : ∃ s' : State, execAdcDataRead m i s = .next s' ∧ Sound s s' := by
  obtain ⟨s', e, k⟩ := execAdcDataRead_keeps m i s
  exact ⟨s', e, Sound.of_keeps k (by decide) (by decide)⟩

theorem execAdcConversionEnd_sound (i : Slice) (raw spareRaw : Int) (s : State) : ∃ s' : State, execAdcConversionEnd i raw spareRaw s = .next s' ∧ Sound s s' :=
  ⟨_, rfl, State.conversionEnd_sound ..⟩

theorem execAdcSelWrite_sound (i : Slice) (w : W) (s : State) : ∃ s' : State, execAdcSelWrite i w s = .next s' ∧ Sound s s' := by
  obtain ⟨s', e, k⟩ := execAdcSelWrite_keeps i w s
  exact ⟨s', e, Sound.of_keeps k (by decide) (by decide)⟩

theorem execRefReady_sound (s : State) : ∃ s' : State, execRefReady s = .next s' ∧ Sound s s' := by
  obtain ⟨s', e, k⟩ := execRefReady_keeps s
  exact ⟨s', e, Sound.of_keeps k (by decide) (by decide)⟩

theorem execCalRotationStart_sound (s : State) : ∃ s' : State, execCalRotationStart s = .next s' ∧ Sound s s' := by
  obtain ⟨s', e, k⟩ := execCalRotationStart_keeps s
  exact ⟨s', e, Sound.of_keeps k (by decide) (by decide)⟩

theorem execCalDone_sound (z f : Int) (s : State) : ∃ s' : State, execCalDone z f s = .next s' ∧ Sound s s' := by
  obtain ⟨s', e, k⟩ := execCalDone_keeps z f s
  exact ⟨s', e, Sound.of_keeps k (by decide) (by decide)⟩

theorem execAdcStream_sound (b : CmdMbx) (s : State) : ∃ s' : State, execAdcStream b s = .next s' ∧ Sound s s' := by
  obtain ⟨s', e, k⟩ := execAdcStream_keeps b s
  exact ⟨s', e, Sound.of_keeps k (by decide) (by decide)⟩

theorem execAdcStrRdWrite_sound (w : W) (s : State) : ∃ s' : State, execAdcStrRdWrite w s = .next s' ∧ Sound s s' := by
  obtain ⟨s', e, k⟩ := execAdcStrRdWrite_keeps w s
  exact ⟨s', e, Sound.of_keeps k (by decide) (by decide)⟩

theorem execSupplyFault_sound (r : Rail) (s : State) : ∃ s' : State, execSupplyFault r s = .next s' ∧ Sound s s' := by
  obtain ⟨s', e, k⟩ := execSupplyFault_keeps r s
  exact ⟨s', e, Sound.of_keeps k (by decide) (by decide)⟩

theorem execSupplyFaultClear_sound (r : Rail) (s : State) : ∃ s' : State, execSupplyFaultClear r s = .next s' ∧ Sound s s' := by
  obtain ⟨s', e, k⟩ := execSupplyFaultClear_keeps r s
  exact ⟨s', e, Sound.of_keeps k (by decide) (by decide)⟩

theorem execVioTrack_sound (p : Pod) (mv : Nat) (s : State) : ∃ s' : State, execVioTrack p mv s = .next s' ∧ Sound s s' := by
  obtain ⟨s', e, k⟩ := execVioTrack_keeps p mv s
  exact ⟨s', e, Sound.of_keeps k (by decide) (by decide)⟩

theorem execTempMeasure_sound (t : Int) (s : State) : ∃ s' : State, execTempMeasure t s = .next s' ∧ Sound s s' := by
  obtain ⟨s', e, k⟩ := execTempMeasure_keeps t s
  exact ⟨s', e, Sound.of_keeps k (by decide) (by decide)⟩

theorem execMeasureCable_sound (b : CmdMbx) (s : State) : ∃ s' : State, execMeasureCable b s = .next s' ∧ Sound s s' := by
  obtain ⟨s', e, k⟩ := execMeasureCable_keeps b s
  exact ⟨s', e, Sound.of_keeps k (by decide) (by decide)⟩

theorem execMeasureLoad_sound (b : CmdMbx) (s : State) : ∃ s' : State, execMeasureLoad b s = .next s' ∧ Sound s s' := by
  obtain ⟨s', e, k⟩ := execMeasureLoad_keeps b s
  exact ⟨s', e, Sound.of_keeps k (by decide) (by decide)⟩

theorem execMeasureStart_sound (s : State) : ∃ s' : State, execMeasureStart s = .next s' ∧ Sound s s' := by
  unfold execMeasureStart
  refine ⟨_, rfl, ?_⟩
  all_goals
    repeat' first
      | with_reducible exact Sound.refl ..
      | extract_lets
      | with_reducible apply Sound.trans ?_ (State.measStart_sound ..)
      | with_reducible apply Sound.ite
      | split
      | (dsimp +zetaDelta only; split)

theorem execMeasureDone_sound (r : MeasRaw) (s : State) : ∃ s' : State, execMeasureDone r s = .next s' ∧ Sound s s' :=
  ⟨_, rfl, State.measDone_sound ..⟩

theorem execMeasureGapTimeout_sound (s : State) : ∃ s' : State, execMeasureGapTimeout s = .next s' ∧ Sound s s' := by
  unfold execMeasureGapTimeout
  refine ⟨_, rfl, ?_⟩
  all_goals
    repeat' first
      | with_reducible exact Sound.refl ..
      | extract_lets
      | with_reducible apply Sound.trans ?_ (State.measFail_sound ..)
      | with_reducible apply Sound.ite
      | split
      | (dsimp +zetaDelta only; split)

theorem execPartnerRead_sound (b : CmdMbx) (bytes : List Byte) (s : State) : ∃ s' : State, execPartnerRead b bytes s = .next s' ∧ Sound s s' := by
  obtain ⟨s', e, k⟩ := execPartnerRead_keeps b bytes s
  exact ⟨s', e, Sound.of_keeps k (by decide) (by decide)⟩

theorem execAdaptSet_sound (b : CmdMbx) (s : State) : ∃ s' : State, execAdaptSet b s = .next s' ∧ Sound s s' := by
  obtain ⟨s', e, k⟩ := execAdaptSet_keeps b s
  exact ⟨s', e, Sound.of_keeps k (by decide) (by decide)⟩

theorem execAdaptLock_sound (b : CmdMbx) (s : State) : ∃ s' : State, execAdaptLock b s = .next s' ∧ Sound s s' := by
  obtain ⟨s', e, k⟩ := execAdaptLock_keeps b s
  exact ⟨s', e, Sound.of_keeps k (by decide) (by decide)⟩

theorem execAdaptDeclare_sound (i : Fin 5) (n : Ch) (meas : Nat) (s : State) : ∃ s' : State, execAdaptDeclare i n meas s = .next s' ∧ Sound s s' := by
  obtain ⟨s', e, k⟩ := execAdaptDeclare_keeps i n meas s
  exact ⟨s', e, Sound.of_keeps k (by decide) (by decide)⟩

theorem execAdaptDeferRetry_sound (i : Fin 5) (n : Ch) (s : State) : ∃ s' : State, execAdaptDeferRetry i n s = .next s' ∧ Sound s s' := by
  obtain ⟨s', e, k⟩ := execAdaptDeferRetry_keeps i n s
  exact ⟨s', e, Sound.of_keeps k (by decide) (by decide)⟩

theorem execAdaptEpoch_sound (i : Fin 5) (n : Ch) (s : State) : ∃ s' : State, execAdaptEpoch i n s = .next s' ∧ Sound s s' :=
  ⟨_, rfl, State.adaptEpoch_sound ..⟩

theorem execMbLockRead_sound (b : Mbx) (readers : List Master) (s : State) : ∃ s' : State, execMbLockRead b readers s = .next s' ∧ Sound s s' := by
  obtain ⟨s', e, k⟩ := execMbLockRead_keeps b readers s
  exact ⟨s', e, Sound.of_keeps k (by decide) (by decide)⟩

theorem execMbLockRelease_sound (m : Master) (b : Mbx) (s : State) : ∃ s' : State, execMbLockRelease m b s = .next s' ∧ Sound s s' := by
  obtain ⟨s', e, k⟩ := execMbLockRelease_keeps m b s
  exact ⟨s', e, Sound.of_keeps k (by decide) (by decide)⟩

theorem execMbPostWrite_sound (m : Master) (b : Mbx) (hi : Bool) (w : W) (s : State) : ∃ s' : State, execMbPostWrite m b hi w s = .next s' ∧ Sound s s' := by
  obtain ⟨s', e, k⟩ := execMbPostWrite_keeps m b hi w s
  exact ⟨s', e, Sound.of_keeps k (by decide) (by decide)⟩

theorem execMbDoorbell_sound (m : Master) (b : CmdMbx) (w : W) (s : State) : ∃ s' : State, execMbDoorbell m b w s = .next s' ∧ Sound s s' := by
  obtain ⟨s', e, k⟩ := execMbDoorbell_keeps m b w s
  exact ⟨s', e, Sound.of_keeps k (by decide) (by decide)⟩

theorem execCommandStart_sound (b : CmdMbx) (s : State) : ∃ s' : State, execCommandStart b s = .next s' ∧ Sound s s' := by
  obtain ⟨s', e, k⟩ := execCommandStart_keeps b s
  exact ⟨s', e, Sound.of_keeps k (by decide) (by decide)⟩

theorem execCommandComplete_sound (b : CmdMbx) (s : State) : ∃ s' : State, execCommandComplete b s = .next s' ∧ Sound s s' :=
  ⟨_, rfl, State.commandComplete_sound ..⟩

theorem execNoticePost_sound (i : Fin 8) (s : State) : ∃ s' : State, execNoticePost i s = .next s' ∧ Sound s s' :=
  ⟨_, rfl, State.noticePost_sound ..⟩

theorem execMbNoticeAck_sound (m : Master) (i : Fin 8) (w : W) (s : State) : ∃ s' : State, execMbNoticeAck m i w s = .next s' ∧ Sound s s' := by
  obtain ⟨s', e, k⟩ := execMbNoticeAck_keeps m i w s
  exact ⟨s', e, Sound.of_keeps k (by decide) (by decide)⟩

theorem execPerstN_sound (low : Bool) (s : State) : ∃ s' : State, execPerstN low s = .next s' ∧ Sound s s' := by
  obtain ⟨s', e, k⟩ := execPerstN_keeps low s
  exact ⟨s', e, Sound.of_keeps k (by decide) (by decide)⟩

theorem execHotReset_sound (s : State) : ∃ s' : State, execHotReset s = .next s' ∧ Sound s s' := by
  obtain ⟨s', e, k⟩ := execHotReset_keeps s
  exact ⟨s', e, Sound.of_keeps k (by decide) (by decide)⟩

theorem execFunctionLevelReset_sound (s : State) : ∃ s' : State, execFunctionLevelReset s = .next s' ∧ Sound s s' := by
  obtain ⟨s', e, k⟩ := execFunctionLevelReset_keeps s
  exact ⟨s', e, Sound.of_keeps k (by decide) (by decide)⟩

theorem execPeRailDrop_sound (_vddh : Bool) (s : State) : ∃ s' : State, execPeRailDrop _vddh s = .next s' ∧ Sound s s' := by
  obtain ⟨s', e, k⟩ := execPeRailDrop_keeps _vddh s
  exact ⟨s', e, Sound.of_keeps k (by decide) (by decide)⟩

theorem execLinkUp_sound (width2 : Bool) (speed : LinkSpeed) (s : State) : ∃ s' : State, execLinkUp width2 speed s = .next s' ∧ Sound s s' := by
  obtain ⟨s', e, k⟩ := execLinkUp_keeps width2 speed s
  exact ⟨s', e, Sound.of_keeps k (by decide) (by decide)⟩

theorem execLinkDown_sound (s : State) : ∃ s' : State, execLinkDown s = .next s' ∧ Sound s s' := by
  obtain ⟨s', e, k⟩ := execLinkDown_keeps s
  exact ⟨s', e, Sound.of_keeps k (by decide) (by decide)⟩

theorem execConfigRequest_sound (r : CfgReq) (s : State) : ∃ s' : State, execConfigRequest r s = .next s' ∧ Sound s s' := by
  obtain ⟨s', e, k⟩ := execConfigRequest_keeps r s
  exact ⟨s', e, Sound.of_keeps k (by decide) (by decide)⟩

theorem execBar2Access_sound (a : WinAccess) (s : State) : ∃ s' : State, execBar2Access a s = .next s' ∧ Sound s s' := by
  unfold execBar2Access
  refine ⟨_, rfl, ?_⟩
  all_goals
    repeat' first
      | with_reducible exact Sound.refl ..
      | extract_lets
      | ((with_reducible refine Sound.pcieReq _ _ ?_ ?_); on_goal 2 => intro _)
      | with_reducible apply Sound.trans ?_ (State.hostAccess_sound ..)
      | with_reducible apply Sound.ite
      | split
      | (dsimp +zetaDelta only; split)

theorem execDmaCompletion_sound (c : Fin 4) (data : List Byte) (s : State) : ∃ s' : State, execDmaCompletion c data s = .next s' ∧ Sound s s' := by
  obtain ⟨s', e, k⟩ := execDmaCompletion_keeps c data s
  exact ⟨s', e, Sound.of_keeps k (by decide) (by decide)⟩

theorem execDmaCompletionTimeout_sound (c : Fin 4) (s : State) : ∃ s' : State, execDmaCompletionTimeout c s = .next s' ∧ Sound s s' := by
  obtain ⟨s', e, k⟩ := execDmaCompletionTimeout_keeps c s
  exact ⟨s', e, Sound.of_keeps k (by decide) (by decide)⟩

theorem execQspiStatus_sound (s : State) : ∃ s' : State, execQspiStatus s = .next s' ∧ Sound s s' := by
  obtain ⟨s', e, k⟩ := execQspiStatus_keeps s
  exact ⟨s', e, Sound.of_keeps k (by decide) (by decide)⟩

theorem execQspiBadOp_sound (op : Byte) (s : State) : ∃ s' : State, execQspiBadOp op s = .next s' ∧ Sound s s' := by
  obtain ⟨s', e, k⟩ := execQspiBadOp_keeps op s
  exact ⟨s', e, Sound.of_keeps k (by decide) (by decide)⟩

theorem execSleep_sound (b : CmdMbx) (s : State) : ∃ s' : State, execSleep b s = .next s' ∧ Sound s s' := by
  obtain ⟨s', e, k⟩ := execSleep_keeps b s
  exact ⟨s', e, Sound.of_keeps k (by decide) (by decide)⟩

theorem execWake_sound (b : CmdMbx) (s : State) : ∃ s' : State, execWake b s = .next s' ∧ Sound s s' := by
  obtain ⟨s', e, k⟩ := execWake_keeps b s
  exact ⟨s', e, Sound.of_keeps k (by decide) (by decide)⟩

theorem execSleepEntryDone_sound (s : State) : ∃ s' : State, execSleepEntryDone s = .next s' ∧ Sound s s' := by
  unfold execSleepEntryDone
  refine ⟨_, rfl, ?_⟩
  all_goals
    repeat' first
      | with_reducible exact Sound.refl ..
      | extract_lets
      | with_reducible apply Sound.trans ?_ (State.sleepEntered_sound ..)
      | with_reducible apply Sound.ite
      | split
      | (dsimp +zetaDelta only; split)

theorem execAutoWake_sound (s : State) : ∃ s' : State, execAutoWake s = .next s' ∧ Sound s s' := by
  obtain ⟨s', e, k⟩ := execAutoWake_keeps s
  exact ⟨s', e, Sound.of_keeps k (by decide) (by decide)⟩

theorem execWakeSource_sound (w : WakeSrc) (s : State) : ∃ s' : State, execWakeSource w s = .next s' ∧ Sound s s' :=
  ⟨_, rfl, State.wakeSource_sound ..⟩

theorem execXinOscStable_sound (s : State) : ∃ s' : State, execXinOscStable s = .next s' ∧ Sound s s' := by
  unfold execXinOscStable
  refine ⟨_, rfl, ?_⟩
  all_goals
    repeat' first
      | with_reducible exact Sound.refl ..
      | extract_lets
      | with_reducible apply Sound.trans ?_ (State.xinStable_sound ..)
      | with_reducible apply Sound.ite
      | split
      | (dsimp +zetaDelta only; split)

theorem execPllLock_sound (s : State) : ∃ s' : State, execPllLock s = .next s' ∧ Sound s s' := by
  unfold execPllLock
  refine ⟨_, rfl, ?_⟩
  all_goals
    repeat' first
      | with_reducible exact Sound.refl ..
      | extract_lets
      | with_reducible apply Sound.trans ?_ (State.pllLocks_sound ..)
      | with_reducible apply Sound.ite
      | split
      | (dsimp +zetaDelta only; split)

theorem execXinFail_sound (s : State) : ∃ s' : State, execXinFail s = .next s' ∧ Sound s s' := by
  unfold execXinFail
  refine ⟨_, rfl, ?_⟩
  all_goals
    repeat' first
      | with_reducible exact Sound.refl ..
      | extract_lets
      | with_reducible apply Sound.trans ?_ (State.xinFails_sound ..)
      | with_reducible apply Sound.ite
      | split
      | (dsimp +zetaDelta only; split)

theorem execXinRestore_sound (s : State) : ∃ s' : State, execXinRestore s = .next s' ∧ Sound s s' := by
  unfold execXinRestore
  refine ⟨_, rfl, ?_⟩
  all_goals
    repeat' first
      | with_reducible exact Sound.refl ..
      | extract_lets
      | with_reducible apply Sound.ite
      | split
      | (dsimp +zetaDelta only; split)
      | ((with_reducible apply Sound.upd ?_ ?_ ?_); (on_goal 2 => first | with_reducible exact id | exact fun h => memWrites_wf _ _ h | exact fun h => memWriteCells_wf _ h); on_goal 2 => exact Nat.le_refl _)

theorem execCoreReset_sound (_avdd : Bool) (s : State) : ∃ s' : State, execCoreReset _avdd s = .next s' ∧ Sound s s' :=
  ⟨_, rfl, State.coreReset_sound ..⟩

theorem execResetN_sound (acts : Bool) (s : State) : ∃ s' : State, execResetN acts s = .next s' ∧ Sound s s' := by
  unfold execResetN
  refine ⟨_, rfl, ?_⟩
  all_goals
    repeat' first
      | with_reducible exact Sound.refl ..
      | extract_lets
      | with_reducible apply Sound.trans ?_ (State.coreReset_sound ..)
      | with_reducible apply Sound.ite
      | split
      | (dsimp +zetaDelta only; split)

theorem execTestmode_sound (high : Bool) (s : State) : ∃ s' : State, execTestmode high s = .next s' ∧ Sound s s' := by
  unfold execTestmode
  refine ⟨_, rfl, ?_⟩
  all_goals
    repeat' first
      | with_reducible exact Sound.refl ..
      | extract_lets
      | with_reducible apply Sound.trans ?_ (State.coreReset_sound ..)
      | with_reducible apply Sound.ite
      | split
      | (dsimp +zetaDelta only; split)
      | ((with_reducible apply Sound.upd ?_ ?_ ?_); (on_goal 2 => first | with_reducible exact id | exact fun h => memWrites_wf _ _ h | exact fun h => memWriteCells_wf _ h); on_goal 2 => exact Nat.le_refl _)

theorem execVioBrownout_sound (p : Pod) (s : State) : ∃ s' : State, execVioBrownout p s = .next s' ∧ Sound s s' := by
  obtain ⟨s', e, k⟩ := execVioBrownout_keeps p s
  exact ⟨s', e, Sound.of_keeps k (by decide) (by decide)⟩

theorem execVioReturn_sound (p : Pod) (s : State) : ∃ s' : State, execVioReturn p s = .next s' ∧ Sound s s' := by
  obtain ⟨s', e, k⟩ := execVioReturn_keeps p s
  exact ⟨s', e, Sound.of_keeps k (by decide) (by decide)⟩

theorem execCoreResetRelease_sound (straps : BitVec 2) (primary alternate : ImageIn) (selfTest : List (BitVec 17)) (s : State) : ∃ s' : State, execCoreResetRelease straps primary alternate selfTest s = .next s' ∧ Sound s s' :=
  ⟨_, rfl, State.resetRelease_sound ..⟩

theorem execFwReady_sound (s : State) : ∃ s' : State, execFwReady s = .next s' ∧ Sound s s' := by
  obtain ⟨s', e, k⟩ := execFwReady_keeps s
  exact ⟨s', e, Sound.of_keeps k (by decide) (by decide)⟩

theorem execBootCmdLoad_sound (m : Master) (image : ImageIn) (selfTest : List (BitVec 17)) (s : State) : ∃ s' : State, execBootCmdLoad m image selfTest s = .next s' ∧ Sound s s' := by
  unfold execBootCmdLoad
  refine ⟨_, rfl, ?_⟩
  all_goals
    repeat' first
      | with_reducible exact Sound.refl ..
      | extract_lets
      | ((with_reducible refine Sound.access _ _ _ ?_ ?_); on_goal 2 => intro _)
      | with_reducible apply Sound.trans ?_ (State.bootLoad_sound ..)
      | with_reducible apply Sound.ite
      | split
      | (dsimp +zetaDelta only; split)

theorem execBootCmdFlash_sound (m : Master) (image : ImageIn) (s : State) : ∃ s' : State, execBootCmdFlash m image s = .next s' ∧ Sound s s' := by
  obtain ⟨s', e, k⟩ := execBootCmdFlash_keeps m image s
  exact ⟨s', e, Sound.of_keeps k (by decide) (by decide)⟩

theorem execAtbSelWrite_sound (w : W) (s : State) : ∃ s' : State, execAtbSelWrite w s = .next s' ∧ Sound s s' := by
  obtain ⟨s', e, k⟩ := execAtbSelWrite_keeps w s
  exact ⟨s', e, Sound.of_keeps k (by decide) (by decide)⟩

theorem execJtagReset_sound (s : State) : ∃ s' : State, execJtagReset s = .next s' ∧ Sound s s' := by
  obtain ⟨s', e, k⟩ := execJtagReset_keeps s
  exact ⟨s', e, Sound.of_keeps k (by decide) (by decide)⟩

theorem execExtest_sound (s : State) : ∃ s' : State, execExtest s = .next s' ∧ Sound s s' := by
  obtain ⟨s', e, k⟩ := execExtest_keeps s
  exact ⟨s', e, Sound.of_keeps k (by decide) (by decide)⟩

theorem execIdcode_sound (s : State) : ∃ s' : State, execIdcode s = .next s' ∧ Sound s s' := by
  obtain ⟨s', e, k⟩ := execIdcode_keeps s
  exact ⟨s', e, Sound.of_keeps k (by decide) (by decide)⟩

theorem execClamp_sound (s : State) : ∃ s' : State, execClamp s = .next s' ∧ Sound s s' := by
  obtain ⟨s', e, k⟩ := execClamp_keeps s
  exact ⟨s', e, Sound.of_keeps k (by decide) (by decide)⟩

theorem execHighz_sound (s : State) : ∃ s' : State, execHighz s = .next s' ∧ Sound s s' := by
  obtain ⟨s', e, k⟩ := execHighz_keeps s
  exact ⟨s', e, Sound.of_keeps k (by decide) (by decide)⟩

theorem execDebug_sound (s : State) : ∃ s' : State, execDebug s = .next s' ∧ Sound s s' := by
  obtain ⟨s', e, k⟩ := execDebug_keeps s
  exact ⟨s', e, Sound.of_keeps k (by decide) (by decide)⟩

theorem execBypass_sound (s : State) : ∃ s' : State, execBypass s = .next s' ∧ Sound s s' := by
  obtain ⟨s', e, k⟩ := execBypass_keeps s
  exact ⟨s', e, Sound.of_keeps k (by decide) (by decide)⟩

theorem execSamplePreload_sound (drive level : BitVec 128) (s : State) : ∃ s' : State, execSamplePreload drive level s = .next s' ∧ Sound s s' := by
  obtain ⟨s', e, k⟩ := execSamplePreload_keeps drive level s
  exact ⟨s', e, Sound.of_keeps k (by decide) (by decide)⟩

theorem execDebugUnlock_sound (tokenOk : Bool) (s : State) : ∃ s' : State, execDebugUnlock tokenOk s = .next s' ∧ Sound s s' := by
  obtain ⟨s', e, k⟩ := execDebugUnlock_keeps tokenOk s
  exact ⟨s', e, Sound.of_keeps k (by decide) (by decide)⟩

theorem execSerTrig_sound (k : Ax) (s : State) : ∃ s' : State, execSerTrig k s = .next s' ∧ Sound s s' := by
  obtain ⟨s', e, k⟩ := execSerTrig_keeps k s
  exact ⟨s', e, Sound.of_keeps k (by decide) (by decide)⟩

theorem execSerFrameStart_sound (k : Ax) (s : State) : ∃ s' : State, execSerFrameStart k s = .next s' ∧ Sound s s' := by
  obtain ⟨s', e, k⟩ := execSerFrameStart_keeps k s
  exact ⟨s', e, Sound.of_keeps k (by decide) (by decide)⟩

theorem execSerTmo_sound (k : Ax) (s : State) : ∃ s' : State, execSerTmo k s = .next s' ∧ Sound s s' := by
  obtain ⟨s', e, k⟩ := execSerTmo_keeps k s
  exact ⟨s', e, Sound.of_keeps k (by decide) (by decide)⟩

theorem execSerSample_sound (k : Ax) (f : SerFrame) (s : State) : ∃ s' : State, execSerSample k f s = .next s' ∧ Sound s s' := by
  obtain ⟨s', e, k⟩ := execSerSample_keeps k f s
  exact ⟨s', e, Sound.of_keeps k (by decide) (by decide)⟩

theorem execAxisCfgWrite_sound (k : Ax) (off : Nat) (w : W) (s : State) : ∃ s' : State, execAxisCfgWrite k off w s = .next s' ∧ Sound s s' := by
  obtain ⟨s', e, k⟩ := execAxisCfgWrite_keeps k off w s
  exact ⟨s', e, Sound.of_keeps k (by decide) (by decide)⟩

theorem execRegisterWrite_sound (m : Master) (a : Nat) (w : W) (be : BitVec 4) (s : State) : ∃ s' : State, execRegisterWrite m a w be s = .next s' ∧ Sound s s' := by
  unfold execRegisterWrite
  refine ⟨_, rfl, ?_⟩
  all_goals
    repeat' first
      | with_reducible exact Sound.refl ..
      | extract_lets
      | ((with_reducible refine Sound.access _ _ _ ?_ ?_); on_goal 2 => intro _)
      | with_reducible apply Sound.trans ?_ (State.busWrite_sound ..)
      | with_reducible apply Sound.ite
      | split
      | (dsimp +zetaDelta only; split)

theorem execHoldingRegWrite_sound (m : Master) (a : Nat) (w : W) (s : State) : ∃ s' : State, execHoldingRegWrite m a w s = .next s' ∧ Sound s s' := by
  unfold execHoldingRegWrite
  refine ⟨_, rfl, ?_⟩
  all_goals
    repeat' first
      | with_reducible exact Sound.refl ..
      | extract_lets
      | ((with_reducible refine Sound.access _ _ _ ?_ ?_); on_goal 2 => intro _)
      | with_reducible apply Sound.trans ?_ (State.busWrite_sound ..)
      | with_reducible apply Sound.ite
      | split
      | (dsimp +zetaDelta only; split)

theorem execWideHighWrite_sound (m : Master) (a : Nat) (w : W) (s : State) : ∃ s' : State, execWideHighWrite m a w s = .next s' ∧ Sound s s' := by
  unfold execWideHighWrite
  refine ⟨_, rfl, ?_⟩
  all_goals
    repeat' first
      | with_reducible exact Sound.refl ..
      | extract_lets
      | ((with_reducible refine Sound.access _ _ _ ?_ ?_); on_goal 2 => intro _)
      | with_reducible apply Sound.trans ?_ (State.busWrite_sound ..)
      | with_reducible apply Sound.ite
      | split
      | (dsimp +zetaDelta only; split)

theorem execGuarStatClear_sound (m : Master) (w : W) (s : State) : ∃ s' : State, execGuarStatClear m w s = .next s' ∧ Sound s s' := by
  obtain ⟨s', e, k⟩ := execGuarStatClear_keeps m w s
  exact ⟨s', e, Sound.of_keeps k (by decide) (by decide)⟩

theorem execRcRead_sound (m : Master) (a : Nat) (s : State) : ∃ s' : State, execRcRead m a s = .next s' ∧ Sound s s' := by
  unfold execRcRead
  refine ⟨_, rfl, ?_⟩
  all_goals
    repeat' first
      | with_reducible exact Sound.refl ..
      | extract_lets
      | ((with_reducible refine Sound.access _ _ _ ?_ ?_); on_goal 2 => intro _)
      | with_reducible apply Sound.trans ?_ (State.busRead_sound ..)
      | with_reducible apply Sound.ite
      | split
      | (dsimp +zetaDelta only; split)

theorem execLowWordRead_sound (m : Master) (a : Nat) (s : State) : ∃ s' : State, execLowWordRead m a s = .next s' ∧ Sound s s' := by
  unfold execLowWordRead
  refine ⟨_, rfl, ?_⟩
  all_goals
    repeat' first
      | with_reducible exact Sound.refl ..
      | extract_lets
      | ((with_reducible refine Sound.access _ _ _ ?_ ?_); on_goal 2 => intro _)
      | with_reducible apply Sound.trans ?_ (State.busRead_sound ..)
      | with_reducible apply Sound.ite
      | split
      | (dsimp +zetaDelta only; split)

theorem execHighWordRead_sound (m : Master) (a : Nat) (s : State) : ∃ s' : State, execHighWordRead m a s = .next s' ∧ Sound s s' := by
  unfold execHighWordRead
  refine ⟨_, rfl, ?_⟩
  all_goals
    repeat' first
      | with_reducible exact Sound.refl ..
      | extract_lets
      | ((with_reducible refine Sound.access _ _ _ ?_ ?_); on_goal 2 => intro _)
      | with_reducible apply Sound.trans ?_ (State.busRead_sound ..)
      | with_reducible apply Sound.ite
      | split
      | (dsimp +zetaDelta only; split)

theorem execWideRead8Byte_sound (a : Nat) (s : State) : ∃ s' : State, execWideRead8Byte a s = .next s' ∧ Sound s s' := by
  unfold execWideRead8Byte
  refine ⟨_, rfl, ?_⟩
  all_goals
    repeat' first
      | with_reducible exact Sound.refl ..
      | extract_lets
      | ((with_reducible refine Sound.access _ _ _ ?_ ?_); on_goal 2 => intro _)
      | with_reducible apply Sound.trans ?_ (State.wideRead_sound ..)
      | with_reducible apply Sound.ite
      | split
      | (dsimp +zetaDelta only; split)

theorem execNop_sound (b : CmdMbx) (s : State) : ∃ s' : State, execNop b s = .next s' ∧ Sound s s' := by
  obtain ⟨s', e, k⟩ := execNop_keeps b s
  exact ⟨s', e, Sound.of_keeps k (by decide) (by decide)⟩

theorem execFwInfo_sound (b : CmdMbx) (s : State) : ∃ s' : State, execFwInfo b s = .next s' ∧ Sound s s' := by
  obtain ⟨s', e, k⟩ := execFwInfo_keeps b s
  exact ⟨s', e, Sound.of_keeps k (by decide) (by decide)⟩

theorem execHealthQuery_sound (b : CmdMbx) (s : State) : ∃ s' : State, execHealthQuery b s = .next s' ∧ Sound s s' := by
  obtain ⟨s', e, k⟩ := execHealthQuery_keeps b s
  exact ⟨s', e, Sound.of_keeps k (by decide) (by decide)⟩

theorem execChQuery_sound (b : CmdMbx) (s : State) : ∃ s' : State, execChQuery b s = .next s' ∧ Sound s s' := by
  obtain ⟨s', e, k⟩ := execChQuery_keeps b s
  exact ⟨s', e, Sound.of_keeps k (by decide) (by decide)⟩

theorem execChConfig_sound (b : CmdMbx) (s : State) : ∃ s' : State, execChConfig b s = .next s' ∧ Sound s s' := by
  obtain ⟨s', e, k⟩ := execChConfig_keeps b s
  exact ⟨s', e, Sound.of_keeps k (by decide) (by decide)⟩

theorem execAxisConfig_sound (b : CmdMbx) (s : State) : ∃ s' : State, execAxisConfig b s = .next s' ∧ Sound s s' := by
  obtain ⟨s', e, k⟩ := execAxisConfig_keeps b s
  exact ⟨s', e, Sound.of_keeps k (by decide) (by decide)⟩

theorem execEmulConfig_sound (b : CmdMbx) (s : State) : ∃ s' : State, execEmulConfig b s = .next s' ∧ Sound s s' := by
  obtain ⟨s', e, k⟩ := execEmulConfig_keeps b s
  exact ⟨s', e, Sound.of_keeps k (by decide) (by decide)⟩

theorem execAdcConfig_sound (b : CmdMbx) (s : State) : ∃ s' : State, execAdcConfig b s = .next s' ∧ Sound s s' := by
  obtain ⟨s', e, k⟩ := execAdcConfig_keeps b s
  exact ⟨s', e, Sound.of_keeps k (by decide) (by decide)⟩

theorem execPipLoad_sound (b : CmdMbx) (s : State) : ∃ s' : State, execPipLoad b s = .next s' ∧ Sound s s' := by
  obtain ⟨s', e, k⟩ := execPipLoad_keeps b s
  exact ⟨s', e, Sound.of_keeps k (by decide) (by decide)⟩

theorem execPipSwap_sound (b : CmdMbx) (s : State) : ∃ s' : State, execPipSwap b s = .next s' ∧ Sound s s' := by
  obtain ⟨s', e, k⟩ := execPipSwap_keeps b s
  exact ⟨s', e, Sound.of_keeps k (by decide) (by decide)⟩

theorem execQspiRead_sound (a n : Nat) (late : List Nat) (s : State) : ∃ s' : State, execQspiRead a n late s = .next s' ∧ Sound s s' :=
  ⟨_, rfl, State.qspiRead_sound ..⟩

theorem execQspiQread_sound (a n : Nat) (late : List Nat) (s : State) : ∃ s' : State, execQspiQread a n late s = .next s' ∧ Sound s s' :=
  ⟨_, rfl, State.qspiRead_sound ..⟩

theorem execQspiWrite_sound (a : Nat) (bs : List Byte) (s : State) : ∃ s' : State, execQspiWrite a bs s = .next s' ∧ Sound s s' :=
  ⟨_, rfl, State.qspiWrite_sound ..⟩

theorem execQspiQwrite_sound (a : Nat) (bs : List Byte) (s : State) : ∃ s' : State, execQspiQwrite a bs s = .next s' ∧ Sound s s' :=
  ⟨_, rfl, State.qspiWrite_sound ..⟩

theorem execSegmentWakeDone_sound (g : Seg) (s : State) : ∃ s' : State, execSegmentWakeDone g s = .next s' ∧ Sound s s' := by
  unfold execSegmentWakeDone
  refine ⟨_, rfl, ?_⟩
  all_goals
    repeat' first
      | with_reducible exact Sound.refl ..
      | extract_lets
      | with_reducible apply Sound.trans ?_ (State.serve_sound ..)
      | ((with_reducible apply Sound.keeps ?_ (State.segmentAwake_keeps ..) ?_ ?_); (on_goal 2 => decide); on_goal 2 => decide)
      | with_reducible apply Sound.ite
      | split
      | (dsimp +zetaDelta only; split)

theorem execRunReached_sound (s : State) : ∃ s' : State, execRunReached s = .next s' ∧ Sound s s' := by
  unfold execRunReached
  refine ⟨_, rfl, ?_⟩
  all_goals
    repeat' first
      | with_reducible exact Sound.refl ..
      | extract_lets
      | with_reducible apply Sound.trans ?_ (State.runReached_sound ..)
      | with_reducible apply Sound.ite
      | split
      | (dsimp +zetaDelta only; split)

end Sys2Proof.Machine
end

