-- ==== Sys2Proof/Laws/State.lean ====
section
/-!
SUPPORT. What each update of the state leaves and sets, one lemma per field per update.
-/
namespace Sys2Proof.Machine

variable (s : State)

@[simp] theorem State.modCh_time (n : Ch) (f : Channel → Channel) : (s.modCh n f).time = s.time := rfl
@[simp] theorem State.modCh_master (n : Ch) (f : Channel → Channel) : (s.modCh n f).master = s.master := rfl
@[simp] theorem State.modCh_guar (n : Ch) (f : Channel → Channel) : (s.modCh n f).guar = s.guar := rfl
@[simp] theorem State.modCh_axis (n : Ch) (f : Channel → Channel) : (s.modCh n f).axis = s.axis := rfl
@[simp] theorem State.modCh_cal (n : Ch) (f : Channel → Channel) : (s.modCh n f).cal = s.cal := rfl
@[simp] theorem State.modCh_pod (n : Ch) (f : Channel → Channel) : (s.modCh n f).pod = s.pod := rfl
@[simp] theorem State.modCh_store (n : Ch) (f : Channel → Channel) : (s.modCh n f).store = s.store := rfl
@[simp] theorem State.modCh_eic (n : Ch) (f : Channel → Channel) : (s.modCh n f).eic = s.eic := rfl
@[simp] theorem State.modCh_mbx (n : Ch) (f : Channel → Channel) : (s.modCh n f).mbx = s.mbx := rfl
@[simp] theorem State.modCh_abort (n : Ch) (f : Channel → Channel) : (s.modCh n f).abort = s.abort := rfl
@[simp] theorem State.modCh_fw (n : Ch) (f : Channel → Channel) : (s.modCh n f).fw = s.fw := rfl
@[simp] theorem State.modCh_health (n : Ch) (f : Channel → Channel) : (s.modCh n f).health = s.health := rfl
@[simp] theorem State.modCh_pcie (n : Ch) (f : Channel → Channel) : (s.modCh n f).pcie = s.pcie := rfl
@[simp] theorem State.modCh_adc (n : Ch) (f : Channel → Channel) : (s.modCh n f).adc = s.adc := rfl
@[simp] theorem State.modCh_sur (n : Ch) (f : Channel → Channel) : (s.modCh n f).sur = s.sur := rfl
@[simp] theorem State.modCh_pwr (n : Ch) (f : Channel → Channel) : (s.modCh n f).pwr = s.pwr := rfl
@[simp] theorem State.modCh_boot (n : Ch) (f : Channel → Channel) : (s.modCh n f).boot = s.boot := rfl
@[simp] theorem State.modCh_fuse (n : Ch) (f : Channel → Channel) : (s.modCh n f).fuse = s.fuse := rfl
@[simp] theorem State.modCh_jtag (n : Ch) (f : Channel → Channel) : (s.modCh n f).jtag = s.jtag := rfl
@[simp] theorem State.modCh_free (n : Ch) (f : Channel → Channel) : (s.modCh n f).free = s.free := rfl
@[simp] theorem State.modCh_pending (n : Ch) (f : Channel → Channel) : (s.modCh n f).pending = s.pending := rfl

@[simp] theorem State.modAxis_time (k : Ax) (f : Axis → Axis) : (s.modAxis k f).time = s.time := rfl
@[simp] theorem State.modAxis_master (k : Ax) (f : Axis → Axis) : (s.modAxis k f).master = s.master := rfl
@[simp] theorem State.modAxis_guar (k : Ax) (f : Axis → Axis) : (s.modAxis k f).guar = s.guar := rfl
@[simp] theorem State.modAxis_ch (k : Ax) (f : Axis → Axis) : (s.modAxis k f).ch = s.ch := rfl
@[simp] theorem State.modAxis_cal (k : Ax) (f : Axis → Axis) : (s.modAxis k f).cal = s.cal := rfl
@[simp] theorem State.modAxis_pod (k : Ax) (f : Axis → Axis) : (s.modAxis k f).pod = s.pod := rfl
@[simp] theorem State.modAxis_store (k : Ax) (f : Axis → Axis) : (s.modAxis k f).store = s.store := rfl
@[simp] theorem State.modAxis_eic (k : Ax) (f : Axis → Axis) : (s.modAxis k f).eic = s.eic := rfl
@[simp] theorem State.modAxis_mbx (k : Ax) (f : Axis → Axis) : (s.modAxis k f).mbx = s.mbx := rfl
@[simp] theorem State.modAxis_abort (k : Ax) (f : Axis → Axis) : (s.modAxis k f).abort = s.abort := rfl
@[simp] theorem State.modAxis_fw (k : Ax) (f : Axis → Axis) : (s.modAxis k f).fw = s.fw := rfl
@[simp] theorem State.modAxis_health (k : Ax) (f : Axis → Axis) : (s.modAxis k f).health = s.health := rfl
@[simp] theorem State.modAxis_pcie (k : Ax) (f : Axis → Axis) : (s.modAxis k f).pcie = s.pcie := rfl
@[simp] theorem State.modAxis_adc (k : Ax) (f : Axis → Axis) : (s.modAxis k f).adc = s.adc := rfl
@[simp] theorem State.modAxis_sur (k : Ax) (f : Axis → Axis) : (s.modAxis k f).sur = s.sur := rfl
@[simp] theorem State.modAxis_pwr (k : Ax) (f : Axis → Axis) : (s.modAxis k f).pwr = s.pwr := rfl
@[simp] theorem State.modAxis_boot (k : Ax) (f : Axis → Axis) : (s.modAxis k f).boot = s.boot := rfl
@[simp] theorem State.modAxis_fuse (k : Ax) (f : Axis → Axis) : (s.modAxis k f).fuse = s.fuse := rfl
@[simp] theorem State.modAxis_jtag (k : Ax) (f : Axis → Axis) : (s.modAxis k f).jtag = s.jtag := rfl
@[simp] theorem State.modAxis_free (k : Ax) (f : Axis → Axis) : (s.modAxis k f).free = s.free := rfl
@[simp] theorem State.modAxis_pending (k : Ax) (f : Axis → Axis) : (s.modAxis k f).pending = s.pending := rfl

@[simp] theorem State.modPod_time (p : Pod) (f : PodSt → PodSt) : (s.modPod p f).time = s.time := rfl
@[simp] theorem State.modPod_master (p : Pod) (f : PodSt → PodSt) : (s.modPod p f).master = s.master := rfl
@[simp] theorem State.modPod_guar (p : Pod) (f : PodSt → PodSt) : (s.modPod p f).guar = s.guar := rfl
@[simp] theorem State.modPod_ch (p : Pod) (f : PodSt → PodSt) : (s.modPod p f).ch = s.ch := rfl
@[simp] theorem State.modPod_axis (p : Pod) (f : PodSt → PodSt) : (s.modPod p f).axis = s.axis := rfl
@[simp] theorem State.modPod_cal (p : Pod) (f : PodSt → PodSt) : (s.modPod p f).cal = s.cal := rfl
@[simp] theorem State.modPod_store (p : Pod) (f : PodSt → PodSt) : (s.modPod p f).store = s.store := rfl
@[simp] theorem State.modPod_eic (p : Pod) (f : PodSt → PodSt) : (s.modPod p f).eic = s.eic := rfl
@[simp] theorem State.modPod_mbx (p : Pod) (f : PodSt → PodSt) : (s.modPod p f).mbx = s.mbx := rfl
@[simp] theorem State.modPod_abort (p : Pod) (f : PodSt → PodSt) : (s.modPod p f).abort = s.abort := rfl
@[simp] theorem State.modPod_fw (p : Pod) (f : PodSt → PodSt) : (s.modPod p f).fw = s.fw := rfl
@[simp] theorem State.modPod_health (p : Pod) (f : PodSt → PodSt) : (s.modPod p f).health = s.health := rfl
@[simp] theorem State.modPod_pcie (p : Pod) (f : PodSt → PodSt) : (s.modPod p f).pcie = s.pcie := rfl
@[simp] theorem State.modPod_adc (p : Pod) (f : PodSt → PodSt) : (s.modPod p f).adc = s.adc := rfl
@[simp] theorem State.modPod_sur (p : Pod) (f : PodSt → PodSt) : (s.modPod p f).sur = s.sur := rfl
@[simp] theorem State.modPod_pwr (p : Pod) (f : PodSt → PodSt) : (s.modPod p f).pwr = s.pwr := rfl
@[simp] theorem State.modPod_boot (p : Pod) (f : PodSt → PodSt) : (s.modPod p f).boot = s.boot := rfl
@[simp] theorem State.modPod_fuse (p : Pod) (f : PodSt → PodSt) : (s.modPod p f).fuse = s.fuse := rfl
@[simp] theorem State.modPod_jtag (p : Pod) (f : PodSt → PodSt) : (s.modPod p f).jtag = s.jtag := rfl
@[simp] theorem State.modPod_free (p : Pod) (f : PodSt → PodSt) : (s.modPod p f).free = s.free := rfl
@[simp] theorem State.modPod_pending (p : Pod) (f : PodSt → PodSt) : (s.modPod p f).pending = s.pending := rfl

@[simp] theorem State.modMbx_time (b : Mbx) (f : Mailbox → Mailbox) : (s.modMbx b f).time = s.time := rfl
@[simp] theorem State.modMbx_master (b : Mbx) (f : Mailbox → Mailbox) : (s.modMbx b f).master = s.master := rfl
@[simp] theorem State.modMbx_guar (b : Mbx) (f : Mailbox → Mailbox) : (s.modMbx b f).guar = s.guar := rfl
@[simp] theorem State.modMbx_ch (b : Mbx) (f : Mailbox → Mailbox) : (s.modMbx b f).ch = s.ch := rfl
@[simp] theorem State.modMbx_axis (b : Mbx) (f : Mailbox → Mailbox) : (s.modMbx b f).axis = s.axis := rfl
@[simp] theorem State.modMbx_cal (b : Mbx) (f : Mailbox → Mailbox) : (s.modMbx b f).cal = s.cal := rfl
@[simp] theorem State.modMbx_pod (b : Mbx) (f : Mailbox → Mailbox) : (s.modMbx b f).pod = s.pod := rfl
@[simp] theorem State.modMbx_store (b : Mbx) (f : Mailbox → Mailbox) : (s.modMbx b f).store = s.store := rfl
@[simp] theorem State.modMbx_eic (b : Mbx) (f : Mailbox → Mailbox) : (s.modMbx b f).eic = s.eic := rfl
@[simp] theorem State.modMbx_abort (b : Mbx) (f : Mailbox → Mailbox) : (s.modMbx b f).abort = s.abort := rfl
@[simp] theorem State.modMbx_fw (b : Mbx) (f : Mailbox → Mailbox) : (s.modMbx b f).fw = s.fw := rfl
@[simp] theorem State.modMbx_health (b : Mbx) (f : Mailbox → Mailbox) : (s.modMbx b f).health = s.health := rfl
@[simp] theorem State.modMbx_pcie (b : Mbx) (f : Mailbox → Mailbox) : (s.modMbx b f).pcie = s.pcie := rfl
@[simp] theorem State.modMbx_adc (b : Mbx) (f : Mailbox → Mailbox) : (s.modMbx b f).adc = s.adc := rfl
@[simp] theorem State.modMbx_sur (b : Mbx) (f : Mailbox → Mailbox) : (s.modMbx b f).sur = s.sur := rfl
@[simp] theorem State.modMbx_pwr (b : Mbx) (f : Mailbox → Mailbox) : (s.modMbx b f).pwr = s.pwr := rfl
@[simp] theorem State.modMbx_boot (b : Mbx) (f : Mailbox → Mailbox) : (s.modMbx b f).boot = s.boot := rfl
@[simp] theorem State.modMbx_fuse (b : Mbx) (f : Mailbox → Mailbox) : (s.modMbx b f).fuse = s.fuse := rfl
@[simp] theorem State.modMbx_jtag (b : Mbx) (f : Mailbox → Mailbox) : (s.modMbx b f).jtag = s.jtag := rfl
@[simp] theorem State.modMbx_free (b : Mbx) (f : Mailbox → Mailbox) : (s.modMbx b f).free = s.free := rfl
@[simp] theorem State.modMbx_pending (b : Mbx) (f : Mailbox → Mailbox) : (s.modMbx b f).pending = s.pending := rfl

@[simp] theorem State.modMaster_time (m : Master) (f : MasterSt → MasterSt) : (s.modMaster m f).time = s.time := rfl
@[simp] theorem State.modMaster_guar (m : Master) (f : MasterSt → MasterSt) : (s.modMaster m f).guar = s.guar := rfl
@[simp] theorem State.modMaster_ch (m : Master) (f : MasterSt → MasterSt) : (s.modMaster m f).ch = s.ch := rfl
@[simp] theorem State.modMaster_axis (m : Master) (f : MasterSt → MasterSt) : (s.modMaster m f).axis = s.axis := rfl
@[simp] theorem State.modMaster_cal (m : Master) (f : MasterSt → MasterSt) : (s.modMaster m f).cal = s.cal := rfl
@[simp] theorem State.modMaster_pod (m : Master) (f : MasterSt → MasterSt) : (s.modMaster m f).pod = s.pod := rfl
@[simp] theorem State.modMaster_store (m : Master) (f : MasterSt → MasterSt) : (s.modMaster m f).store = s.store := rfl
@[simp] theorem State.modMaster_eic (m : Master) (f : MasterSt → MasterSt) : (s.modMaster m f).eic = s.eic := rfl
@[simp] theorem State.modMaster_mbx (m : Master) (f : MasterSt → MasterSt) : (s.modMaster m f).mbx = s.mbx := rfl
@[simp] theorem State.modMaster_abort (m : Master) (f : MasterSt → MasterSt) : (s.modMaster m f).abort = s.abort := rfl
@[simp] theorem State.modMaster_fw (m : Master) (f : MasterSt → MasterSt) : (s.modMaster m f).fw = s.fw := rfl
@[simp] theorem State.modMaster_health (m : Master) (f : MasterSt → MasterSt) : (s.modMaster m f).health = s.health := rfl
@[simp] theorem State.modMaster_pcie (m : Master) (f : MasterSt → MasterSt) : (s.modMaster m f).pcie = s.pcie := rfl
@[simp] theorem State.modMaster_adc (m : Master) (f : MasterSt → MasterSt) : (s.modMaster m f).adc = s.adc := rfl
@[simp] theorem State.modMaster_sur (m : Master) (f : MasterSt → MasterSt) : (s.modMaster m f).sur = s.sur := rfl
@[simp] theorem State.modMaster_pwr (m : Master) (f : MasterSt → MasterSt) : (s.modMaster m f).pwr = s.pwr := rfl
@[simp] theorem State.modMaster_boot (m : Master) (f : MasterSt → MasterSt) : (s.modMaster m f).boot = s.boot := rfl
@[simp] theorem State.modMaster_fuse (m : Master) (f : MasterSt → MasterSt) : (s.modMaster m f).fuse = s.fuse := rfl
@[simp] theorem State.modMaster_jtag (m : Master) (f : MasterSt → MasterSt) : (s.modMaster m f).jtag = s.jtag := rfl
@[simp] theorem State.modMaster_free (m : Master) (f : MasterSt → MasterSt) : (s.modMaster m f).free = s.free := rfl
@[simp] theorem State.modMaster_pending (m : Master) (f : MasterSt → MasterSt) : (s.modMaster m f).pending = s.pending := rfl

@[simp] theorem State.modHealth_time (p : Pod) (f : PodHealth → PodHealth) : (s.modHealth p f).time = s.time := rfl
@[simp] theorem State.modHealth_master (p : Pod) (f : PodHealth → PodHealth) : (s.modHealth p f).master = s.master := rfl
@[simp] theorem State.modHealth_guar (p : Pod) (f : PodHealth → PodHealth) : (s.modHealth p f).guar = s.guar := rfl
@[simp] theorem State.modHealth_ch (p : Pod) (f : PodHealth → PodHealth) : (s.modHealth p f).ch = s.ch := rfl
@[simp] theorem State.modHealth_axis (p : Pod) (f : PodHealth → PodHealth) : (s.modHealth p f).axis = s.axis := rfl
@[simp] theorem State.modHealth_cal (p : Pod) (f : PodHealth → PodHealth) : (s.modHealth p f).cal = s.cal := rfl
@[simp] theorem State.modHealth_pod (p : Pod) (f : PodHealth → PodHealth) : (s.modHealth p f).pod = s.pod := rfl
@[simp] theorem State.modHealth_store (p : Pod) (f : PodHealth → PodHealth) : (s.modHealth p f).store = s.store := rfl
@[simp] theorem State.modHealth_eic (p : Pod) (f : PodHealth → PodHealth) : (s.modHealth p f).eic = s.eic := rfl
@[simp] theorem State.modHealth_mbx (p : Pod) (f : PodHealth → PodHealth) : (s.modHealth p f).mbx = s.mbx := rfl
@[simp] theorem State.modHealth_abort (p : Pod) (f : PodHealth → PodHealth) : (s.modHealth p f).abort = s.abort := rfl
@[simp] theorem State.modHealth_fw (p : Pod) (f : PodHealth → PodHealth) : (s.modHealth p f).fw = s.fw := rfl
@[simp] theorem State.modHealth_pcie (p : Pod) (f : PodHealth → PodHealth) : (s.modHealth p f).pcie = s.pcie := rfl
@[simp] theorem State.modHealth_adc (p : Pod) (f : PodHealth → PodHealth) : (s.modHealth p f).adc = s.adc := rfl
@[simp] theorem State.modHealth_sur (p : Pod) (f : PodHealth → PodHealth) : (s.modHealth p f).sur = s.sur := rfl
@[simp] theorem State.modHealth_pwr (p : Pod) (f : PodHealth → PodHealth) : (s.modHealth p f).pwr = s.pwr := rfl
@[simp] theorem State.modHealth_boot (p : Pod) (f : PodHealth → PodHealth) : (s.modHealth p f).boot = s.boot := rfl
@[simp] theorem State.modHealth_fuse (p : Pod) (f : PodHealth → PodHealth) : (s.modHealth p f).fuse = s.fuse := rfl
@[simp] theorem State.modHealth_jtag (p : Pod) (f : PodHealth → PodHealth) : (s.modHealth p f).jtag = s.jtag := rfl
@[simp] theorem State.modHealth_free (p : Pod) (f : PodHealth → PodHealth) : (s.modHealth p f).free = s.free := rfl
@[simp] theorem State.modHealth_pending (p : Pod) (f : PodHealth → PodHealth) : (s.modHealth p f).pending = s.pending := rfl

@[simp] theorem State.modSlice_time (i : Slice) (f : AdcSlice → AdcSlice) : (s.modSlice i f).time = s.time := rfl
@[simp] theorem State.modSlice_master (i : Slice) (f : AdcSlice → AdcSlice) : (s.modSlice i f).master = s.master := rfl
@[simp] theorem State.modSlice_guar (i : Slice) (f : AdcSlice → AdcSlice) : (s.modSlice i f).guar = s.guar := rfl
@[simp] theorem State.modSlice_ch (i : Slice) (f : AdcSlice → AdcSlice) : (s.modSlice i f).ch = s.ch := rfl
@[simp] theorem State.modSlice_axis (i : Slice) (f : AdcSlice → AdcSlice) : (s.modSlice i f).axis = s.axis := rfl
@[simp] theorem State.modSlice_cal (i : Slice) (f : AdcSlice → AdcSlice) : (s.modSlice i f).cal = s.cal := rfl
@[simp] theorem State.modSlice_pod (i : Slice) (f : AdcSlice → AdcSlice) : (s.modSlice i f).pod = s.pod := rfl
@[simp] theorem State.modSlice_store (i : Slice) (f : AdcSlice → AdcSlice) : (s.modSlice i f).store = s.store := rfl
@[simp] theorem State.modSlice_eic (i : Slice) (f : AdcSlice → AdcSlice) : (s.modSlice i f).eic = s.eic := rfl
@[simp] theorem State.modSlice_mbx (i : Slice) (f : AdcSlice → AdcSlice) : (s.modSlice i f).mbx = s.mbx := rfl
@[simp] theorem State.modSlice_abort (i : Slice) (f : AdcSlice → AdcSlice) : (s.modSlice i f).abort = s.abort := rfl
@[simp] theorem State.modSlice_fw (i : Slice) (f : AdcSlice → AdcSlice) : (s.modSlice i f).fw = s.fw := rfl
@[simp] theorem State.modSlice_health (i : Slice) (f : AdcSlice → AdcSlice) : (s.modSlice i f).health = s.health := rfl
@[simp] theorem State.modSlice_pcie (i : Slice) (f : AdcSlice → AdcSlice) : (s.modSlice i f).pcie = s.pcie := rfl
@[simp] theorem State.modSlice_sur (i : Slice) (f : AdcSlice → AdcSlice) : (s.modSlice i f).sur = s.sur := rfl
@[simp] theorem State.modSlice_pwr (i : Slice) (f : AdcSlice → AdcSlice) : (s.modSlice i f).pwr = s.pwr := rfl
@[simp] theorem State.modSlice_boot (i : Slice) (f : AdcSlice → AdcSlice) : (s.modSlice i f).boot = s.boot := rfl
@[simp] theorem State.modSlice_fuse (i : Slice) (f : AdcSlice → AdcSlice) : (s.modSlice i f).fuse = s.fuse := rfl
@[simp] theorem State.modSlice_jtag (i : Slice) (f : AdcSlice → AdcSlice) : (s.modSlice i f).jtag = s.jtag := rfl
@[simp] theorem State.modSlice_free (i : Slice) (f : AdcSlice → AdcSlice) : (s.modSlice i f).free = s.free := rfl
@[simp] theorem State.modSlice_pending (i : Slice) (f : AdcSlice → AdcSlice) : (s.modSlice i f).pending = s.pending := rfl

@[simp] theorem State.modTgt_time (t : Tgt) (f : Target → Target) : (s.modTgt t f).time = s.time := rfl
@[simp] theorem State.modTgt_master (t : Tgt) (f : Target → Target) : (s.modTgt t f).master = s.master := rfl
@[simp] theorem State.modTgt_guar (t : Tgt) (f : Target → Target) : (s.modTgt t f).guar = s.guar := rfl
@[simp] theorem State.modTgt_ch (t : Tgt) (f : Target → Target) : (s.modTgt t f).ch = s.ch := rfl
@[simp] theorem State.modTgt_axis (t : Tgt) (f : Target → Target) : (s.modTgt t f).axis = s.axis := rfl
@[simp] theorem State.modTgt_cal (t : Tgt) (f : Target → Target) : (s.modTgt t f).cal = s.cal := rfl
@[simp] theorem State.modTgt_pod (t : Tgt) (f : Target → Target) : (s.modTgt t f).pod = s.pod := rfl
@[simp] theorem State.modTgt_store (t : Tgt) (f : Target → Target) : (s.modTgt t f).store = s.store := rfl
@[simp] theorem State.modTgt_mbx (t : Tgt) (f : Target → Target) : (s.modTgt t f).mbx = s.mbx := rfl
@[simp] theorem State.modTgt_abort (t : Tgt) (f : Target → Target) : (s.modTgt t f).abort = s.abort := rfl
@[simp] theorem State.modTgt_fw (t : Tgt) (f : Target → Target) : (s.modTgt t f).fw = s.fw := rfl
@[simp] theorem State.modTgt_health (t : Tgt) (f : Target → Target) : (s.modTgt t f).health = s.health := rfl
@[simp] theorem State.modTgt_pcie (t : Tgt) (f : Target → Target) : (s.modTgt t f).pcie = s.pcie := rfl
@[simp] theorem State.modTgt_adc (t : Tgt) (f : Target → Target) : (s.modTgt t f).adc = s.adc := rfl
@[simp] theorem State.modTgt_sur (t : Tgt) (f : Target → Target) : (s.modTgt t f).sur = s.sur := rfl
@[simp] theorem State.modTgt_pwr (t : Tgt) (f : Target → Target) : (s.modTgt t f).pwr = s.pwr := rfl
@[simp] theorem State.modTgt_boot (t : Tgt) (f : Target → Target) : (s.modTgt t f).boot = s.boot := rfl
@[simp] theorem State.modTgt_fuse (t : Tgt) (f : Target → Target) : (s.modTgt t f).fuse = s.fuse := rfl
@[simp] theorem State.modTgt_jtag (t : Tgt) (f : Target → Target) : (s.modTgt t f).jtag = s.jtag := rfl
@[simp] theorem State.modTgt_free (t : Tgt) (f : Target → Target) : (s.modTgt t f).free = s.free := rfl
@[simp] theorem State.modTgt_pending (t : Tgt) (f : Target → Target) : (s.modTgt t f).pending = s.pending := rfl

@[simp] theorem State.modGrp_time (g : Grp) (f : Group → Group) : (s.modGrp g f).time = s.time := rfl
@[simp] theorem State.modGrp_master (g : Grp) (f : Group → Group) : (s.modGrp g f).master = s.master := rfl
@[simp] theorem State.modGrp_guar (g : Grp) (f : Group → Group) : (s.modGrp g f).guar = s.guar := rfl
@[simp] theorem State.modGrp_ch (g : Grp) (f : Group → Group) : (s.modGrp g f).ch = s.ch := rfl
@[simp] theorem State.modGrp_axis (g : Grp) (f : Group → Group) : (s.modGrp g f).axis = s.axis := rfl
@[simp] theorem State.modGrp_cal (g : Grp) (f : Group → Group) : (s.modGrp g f).cal = s.cal := rfl
@[simp] theorem State.modGrp_pod (g : Grp) (f : Group → Group) : (s.modGrp g f).pod = s.pod := rfl
@[simp] theorem State.modGrp_store (g : Grp) (f : Group → Group) : (s.modGrp g f).store = s.store := rfl
@[simp] theorem State.modGrp_mbx (g : Grp) (f : Group → Group) : (s.modGrp g f).mbx = s.mbx := rfl
@[simp] theorem State.modGrp_abort (g : Grp) (f : Group → Group) : (s.modGrp g f).abort = s.abort := rfl
@[simp] theorem State.modGrp_fw (g : Grp) (f : Group → Group) : (s.modGrp g f).fw = s.fw := rfl
@[simp] theorem State.modGrp_health (g : Grp) (f : Group → Group) : (s.modGrp g f).health = s.health := rfl
@[simp] theorem State.modGrp_pcie (g : Grp) (f : Group → Group) : (s.modGrp g f).pcie = s.pcie := rfl
@[simp] theorem State.modGrp_adc (g : Grp) (f : Group → Group) : (s.modGrp g f).adc = s.adc := rfl
@[simp] theorem State.modGrp_sur (g : Grp) (f : Group → Group) : (s.modGrp g f).sur = s.sur := rfl
@[simp] theorem State.modGrp_pwr (g : Grp) (f : Group → Group) : (s.modGrp g f).pwr = s.pwr := rfl
@[simp] theorem State.modGrp_boot (g : Grp) (f : Group → Group) : (s.modGrp g f).boot = s.boot := rfl
@[simp] theorem State.modGrp_fuse (g : Grp) (f : Group → Group) : (s.modGrp g f).fuse = s.fuse := rfl
@[simp] theorem State.modGrp_jtag (g : Grp) (f : Group → Group) : (s.modGrp g f).jtag = s.jtag := rfl
@[simp] theorem State.modGrp_free (g : Grp) (f : Group → Group) : (s.modGrp g f).free = s.free := rfl
@[simp] theorem State.modGrp_pending (g : Grp) (f : Group → Group) : (s.modGrp g f).pending = s.pending := rfl

@[simp] theorem State.ret_time (m : Master) (w : W) : (s.ret m w).time = s.time := rfl
@[simp] theorem State.ret_guar (m : Master) (w : W) : (s.ret m w).guar = s.guar := rfl
@[simp] theorem State.ret_ch (m : Master) (w : W) : (s.ret m w).ch = s.ch := rfl
@[simp] theorem State.ret_axis (m : Master) (w : W) : (s.ret m w).axis = s.axis := rfl
@[simp] theorem State.ret_cal (m : Master) (w : W) : (s.ret m w).cal = s.cal := rfl
@[simp] theorem State.ret_pod (m : Master) (w : W) : (s.ret m w).pod = s.pod := rfl
@[simp] theorem State.ret_store (m : Master) (w : W) : (s.ret m w).store = s.store := rfl
@[simp] theorem State.ret_eic (m : Master) (w : W) : (s.ret m w).eic = s.eic := rfl
@[simp] theorem State.ret_mbx (m : Master) (w : W) : (s.ret m w).mbx = s.mbx := rfl
@[simp] theorem State.ret_abort (m : Master) (w : W) : (s.ret m w).abort = s.abort := rfl
@[simp] theorem State.ret_fw (m : Master) (w : W) : (s.ret m w).fw = s.fw := rfl
@[simp] theorem State.ret_health (m : Master) (w : W) : (s.ret m w).health = s.health := rfl
@[simp] theorem State.ret_pcie (m : Master) (w : W) : (s.ret m w).pcie = s.pcie := rfl
@[simp] theorem State.ret_adc (m : Master) (w : W) : (s.ret m w).adc = s.adc := rfl
@[simp] theorem State.ret_sur (m : Master) (w : W) : (s.ret m w).sur = s.sur := rfl
@[simp] theorem State.ret_pwr (m : Master) (w : W) : (s.ret m w).pwr = s.pwr := rfl
@[simp] theorem State.ret_boot (m : Master) (w : W) : (s.ret m w).boot = s.boot := rfl
@[simp] theorem State.ret_fuse (m : Master) (w : W) : (s.ret m w).fuse = s.fuse := rfl
@[simp] theorem State.ret_jtag (m : Master) (w : W) : (s.ret m w).jtag = s.jtag := rfl
@[simp] theorem State.ret_free (m : Master) (w : W) : (s.ret m w).free = s.free := rfl
@[simp] theorem State.ret_pending (m : Master) (w : W) : (s.ret m w).pending = s.pending := rfl

@[simp] theorem State.setHolding_time (m : Master) (a : Nat) (w : W) : (s.setHolding m a w).time = s.time := rfl
@[simp] theorem State.setHolding_guar (m : Master) (a : Nat) (w : W) : (s.setHolding m a w).guar = s.guar := rfl
@[simp] theorem State.setHolding_ch (m : Master) (a : Nat) (w : W) : (s.setHolding m a w).ch = s.ch := rfl
@[simp] theorem State.setHolding_axis (m : Master) (a : Nat) (w : W) : (s.setHolding m a w).axis = s.axis := rfl
@[simp] theorem State.setHolding_cal (m : Master) (a : Nat) (w : W) : (s.setHolding m a w).cal = s.cal := rfl
@[simp] theorem State.setHolding_pod (m : Master) (a : Nat) (w : W) : (s.setHolding m a w).pod = s.pod := rfl
@[simp] theorem State.setHolding_store (m : Master) (a : Nat) (w : W) : (s.setHolding m a w).store = s.store := rfl
@[simp] theorem State.setHolding_eic (m : Master) (a : Nat) (w : W) : (s.setHolding m a w).eic = s.eic := rfl
@[simp] theorem State.setHolding_mbx (m : Master) (a : Nat) (w : W) : (s.setHolding m a w).mbx = s.mbx := rfl
@[simp] theorem State.setHolding_abort (m : Master) (a : Nat) (w : W) : (s.setHolding m a w).abort = s.abort := rfl
@[simp] theorem State.setHolding_fw (m : Master) (a : Nat) (w : W) : (s.setHolding m a w).fw = s.fw := rfl
@[simp] theorem State.setHolding_health (m : Master) (a : Nat) (w : W) : (s.setHolding m a w).health = s.health := rfl
@[simp] theorem State.setHolding_pcie (m : Master) (a : Nat) (w : W) : (s.setHolding m a w).pcie = s.pcie := rfl
@[simp] theorem State.setHolding_adc (m : Master) (a : Nat) (w : W) : (s.setHolding m a w).adc = s.adc := rfl
@[simp] theorem State.setHolding_sur (m : Master) (a : Nat) (w : W) : (s.setHolding m a w).sur = s.sur := rfl
@[simp] theorem State.setHolding_pwr (m : Master) (a : Nat) (w : W) : (s.setHolding m a w).pwr = s.pwr := rfl
@[simp] theorem State.setHolding_boot (m : Master) (a : Nat) (w : W) : (s.setHolding m a w).boot = s.boot := rfl
@[simp] theorem State.setHolding_fuse (m : Master) (a : Nat) (w : W) : (s.setHolding m a w).fuse = s.fuse := rfl
@[simp] theorem State.setHolding_jtag (m : Master) (a : Nat) (w : W) : (s.setHolding m a w).jtag = s.jtag := rfl
@[simp] theorem State.setHolding_free (m : Master) (a : Nat) (w : W) : (s.setHolding m a w).free = s.free := rfl
@[simp] theorem State.setHolding_pending (m : Master) (a : Nat) (w : W) : (s.setHolding m a w).pending = s.pending := rfl

@[simp] theorem State.chStat_time (n : Ch) (w : W) : (s.chStat n w).time = s.time := rfl
@[simp] theorem State.chStat_master (n : Ch) (w : W) : (s.chStat n w).master = s.master := rfl
@[simp] theorem State.chStat_guar (n : Ch) (w : W) : (s.chStat n w).guar = s.guar := rfl
@[simp] theorem State.chStat_axis (n : Ch) (w : W) : (s.chStat n w).axis = s.axis := rfl
@[simp] theorem State.chStat_cal (n : Ch) (w : W) : (s.chStat n w).cal = s.cal := rfl
@[simp] theorem State.chStat_pod (n : Ch) (w : W) : (s.chStat n w).pod = s.pod := rfl
@[simp] theorem State.chStat_store (n : Ch) (w : W) : (s.chStat n w).store = s.store := rfl
@[simp] theorem State.chStat_eic (n : Ch) (w : W) : (s.chStat n w).eic = s.eic := rfl
@[simp] theorem State.chStat_mbx (n : Ch) (w : W) : (s.chStat n w).mbx = s.mbx := rfl
@[simp] theorem State.chStat_abort (n : Ch) (w : W) : (s.chStat n w).abort = s.abort := rfl
@[simp] theorem State.chStat_fw (n : Ch) (w : W) : (s.chStat n w).fw = s.fw := rfl
@[simp] theorem State.chStat_health (n : Ch) (w : W) : (s.chStat n w).health = s.health := rfl
@[simp] theorem State.chStat_pcie (n : Ch) (w : W) : (s.chStat n w).pcie = s.pcie := rfl
@[simp] theorem State.chStat_adc (n : Ch) (w : W) : (s.chStat n w).adc = s.adc := rfl
@[simp] theorem State.chStat_sur (n : Ch) (w : W) : (s.chStat n w).sur = s.sur := rfl
@[simp] theorem State.chStat_pwr (n : Ch) (w : W) : (s.chStat n w).pwr = s.pwr := rfl
@[simp] theorem State.chStat_boot (n : Ch) (w : W) : (s.chStat n w).boot = s.boot := rfl
@[simp] theorem State.chStat_fuse (n : Ch) (w : W) : (s.chStat n w).fuse = s.fuse := rfl
@[simp] theorem State.chStat_jtag (n : Ch) (w : W) : (s.chStat n w).jtag = s.jtag := rfl
@[simp] theorem State.chStat_free (n : Ch) (w : W) : (s.chStat n w).free = s.free := rfl
@[simp] theorem State.chStat_pending (n : Ch) (w : W) : (s.chStat n w).pending = s.pending := rfl

@[simp] theorem State.breach_time (i : Nat) : (s.breach i).time = s.time := rfl
@[simp] theorem State.breach_master (i : Nat) : (s.breach i).master = s.master := rfl
@[simp] theorem State.breach_ch (i : Nat) : (s.breach i).ch = s.ch := rfl
@[simp] theorem State.breach_axis (i : Nat) : (s.breach i).axis = s.axis := rfl
@[simp] theorem State.breach_cal (i : Nat) : (s.breach i).cal = s.cal := rfl
@[simp] theorem State.breach_pod (i : Nat) : (s.breach i).pod = s.pod := rfl
@[simp] theorem State.breach_store (i : Nat) : (s.breach i).store = s.store := rfl
@[simp] theorem State.breach_eic (i : Nat) : (s.breach i).eic = s.eic := rfl
@[simp] theorem State.breach_mbx (i : Nat) : (s.breach i).mbx = s.mbx := rfl
@[simp] theorem State.breach_abort (i : Nat) : (s.breach i).abort = s.abort := rfl
@[simp] theorem State.breach_fw (i : Nat) : (s.breach i).fw = s.fw := rfl
@[simp] theorem State.breach_health (i : Nat) : (s.breach i).health = s.health := rfl
@[simp] theorem State.breach_pcie (i : Nat) : (s.breach i).pcie = s.pcie := rfl
@[simp] theorem State.breach_adc (i : Nat) : (s.breach i).adc = s.adc := rfl
@[simp] theorem State.breach_sur (i : Nat) : (s.breach i).sur = s.sur := rfl
@[simp] theorem State.breach_pwr (i : Nat) : (s.breach i).pwr = s.pwr := rfl
@[simp] theorem State.breach_boot (i : Nat) : (s.breach i).boot = s.boot := rfl
@[simp] theorem State.breach_fuse (i : Nat) : (s.breach i).fuse = s.fuse := rfl
@[simp] theorem State.breach_jtag (i : Nat) : (s.breach i).jtag = s.jtag := rfl
@[simp] theorem State.breach_free (i : Nat) : (s.breach i).free = s.free := rfl
@[simp] theorem State.breach_pending (i : Nat) : (s.breach i).pending = s.pending := rfl

@[simp] theorem State.used_time : (s.used).time = s.time := rfl
@[simp] theorem State.used_master : (s.used).master = s.master := rfl
@[simp] theorem State.used_guar : (s.used).guar = s.guar := rfl
@[simp] theorem State.used_ch : (s.used).ch = s.ch := rfl
@[simp] theorem State.used_axis : (s.used).axis = s.axis := rfl
@[simp] theorem State.used_cal : (s.used).cal = s.cal := rfl
@[simp] theorem State.used_pod : (s.used).pod = s.pod := rfl
@[simp] theorem State.used_store : (s.used).store = s.store := rfl
@[simp] theorem State.used_eic : (s.used).eic = s.eic := rfl
@[simp] theorem State.used_mbx : (s.used).mbx = s.mbx := rfl
@[simp] theorem State.used_abort : (s.used).abort = s.abort := rfl
@[simp] theorem State.used_fw : (s.used).fw = s.fw := rfl
@[simp] theorem State.used_health : (s.used).health = s.health := rfl
@[simp] theorem State.used_pcie : (s.used).pcie = s.pcie := rfl
@[simp] theorem State.used_adc : (s.used).adc = s.adc := rfl
@[simp] theorem State.used_sur : (s.used).sur = s.sur := rfl
@[simp] theorem State.used_pwr : (s.used).pwr = s.pwr := rfl
@[simp] theorem State.used_boot : (s.used).boot = s.boot := rfl
@[simp] theorem State.used_fuse : (s.used).fuse = s.fuse := rfl
@[simp] theorem State.used_jtag : (s.used).jtag = s.jtag := rfl
@[simp] theorem State.used_pending : (s.used).pending = s.pending := rfl

@[simp] theorem State.modCh_ch_same (n : Ch) (f : Channel → Channel) : (s.modCh n f).ch[n] = f s.ch[n] := by simp [State.modCh]
theorem State.modCh_ch_other (n m : Ch) (f : Channel → Channel) (h : m ≠ n) : (s.modCh n f).ch[m] = s.ch[m] := by
  have h : n.val ≠ m.val := fun e => h (Fin.ext e.symm)
  simp [State.modCh, h]
@[simp] theorem State.modAxis_axis_same (n : Ax) (f : Axis → Axis) : (s.modAxis n f).axis[n] = f s.axis[n] := by simp [State.modAxis]
theorem State.modAxis_axis_other (n m : Ax) (f : Axis → Axis) (h : m ≠ n) : (s.modAxis n f).axis[m] = s.axis[m] := by
  have h : n.val ≠ m.val := fun e => h (Fin.ext e.symm)
  simp [State.modAxis, h]
@[simp] theorem State.modPod_pod_same (n : Pod) (f : PodSt → PodSt) : (s.modPod n f).pod[n] = f s.pod[n] := by simp [State.modPod]
theorem State.modPod_pod_other (n m : Pod) (f : PodSt → PodSt) (h : m ≠ n) : (s.modPod n f).pod[m] = s.pod[m] := by
  have h : n.val ≠ m.val := fun e => h (Fin.ext e.symm)
  simp [State.modPod, h]
@[simp] theorem State.modMbx_mbx_same (n : Mbx) (f : Mailbox → Mailbox) : (s.modMbx n f).mbx[n] = f s.mbx[n] := by simp [State.modMbx]
theorem State.modMbx_mbx_other (n m : Mbx) (f : Mailbox → Mailbox) (h : m ≠ n) : (s.modMbx n f).mbx[m] = s.mbx[m] := by
  have h : n.val ≠ m.val := fun e => h (Fin.ext e.symm)
  simp [State.modMbx, h]
@[simp] theorem State.modMaster_master_same (m : Master) (f : MasterSt → MasterSt) : (s.modMaster m f).master[m.idx] = f s.master[m.idx] :=
  Vector.getElem_set_self m.idx.isLt
@[simp] theorem State.ret_rdata (m : Master) (w : W) : (s.ret m w).master[m.idx].rdata = w :=
  congrArg MasterSt.rdata (State.modMaster_master_same s m _)
@[simp] theorem State.used_free : s.used.free = s.free + 1 := rfl

end Sys2Proof.Machine
end

