-- ==== Sys2Proof/WellFormed.lean ====
section
/-!
DEFINITION. The well-formed commands: operands in the ranges that the spec gives them, where the types alone do not keep them there. The meanings are total; on
a command that is not well-formed they do what their functions happen to do.
-/
namespace Sys2Proof

/-- An address of BAR0: an aligned word in 16 MiB (R7, R247). -/
def busAddrOk (a : Nat) : Bool := a % 4 == 0 && decide (a < 2 ^ 24)

/-- The offset of a 16-byte word of the store (R206, R207). -/
def storeWordOk (a : Nat) : Bool := a % 16 == 0 && decide (a < 0x3000000)

/-- A store request: a word of the store, 16 bytes or 16 byte enables (R207). -/
def StoreReq.ok (r : StoreReq) : Bool :=
  storeWordOk r.offset && (match r.op with
    | .read => true
    | .write data => data.length == 16
    | .partialWrite bytes => bytes.length == 16)

/-- An access of BAR2: at least a byte, inside 64 MiB (R223). -/
def WinAccess.ok (x : WinAccess) : Bool :=
  match x with
  | .read a n => decide (0 < n) && decide (a + n ≤ 2 ^ 26)
  | .write a bs => !bs.isEmpty && decide (a + bs.length ≤ 2 ^ 26)

/-- A QSPI transaction: a 24-bit address and at least a byte (R253). -/
def qspiOk (a n : Nat) : Bool := decide (a < 2 ^ 24) && decide (0 < n)

/-- A patch record stays in the control store (R203). -/
def PatchRec.ok (r : PatchRec) : Bool := decide (r.start + r.words.length ≤ 4096)
def PatchIn.ok (x : PatchIn) : Bool := x.recs.all PatchRec.ok
def ImageIn.ok (x : ImageIn) : Bool := x.patch.all PatchIn.ok

/-- Sixteen shots are fired along a cable (R331). -/
def MeasRaw.ok (r : MeasRaw) : Bool :=
  match r with
  | .cable shots => shots.length == 16
  | .load .. => true
  | .failed _ => true

/-- At most 17 words are fetched for a dispatch (R200). -/
def Fetch.ok (f : Fetch) : Bool := decide (f.corr.length ≤ 17)

/-- The command's operands lie in their ranges. The rows not named have operands of which every value is in range. -/
def Instr.wf (i : Instr) : Bool :=
  match i with
  | .registerWrite _ a _ _ => busAddrOk a
  | .rcRead _ a => busAddrOk a
  | .lowWordRead _ a => busAddrOk a
  | .highWordRead _ a => busAddrOk a
  | .wideRead8Byte a => busAddrOk a && busAddrOk (a + 4)
  | .holdingRegWrite _ a _ => busAddrOk a
  | .wideHighWrite _ a _ => busAddrOk a
  | .axisCfgWrite _ o _ => o % 4 == 0 && decide (o < 0x1000)
  | .armFast _ f => f.ok
  | .armStage _ f => f.ok
  | .retire _ f => f.ok
  | .cfg _ f => f.ok
  | .storeAccess _ reqs => reqs.all StoreReq.ok && decide (reqs.map StoreReq.master).Nodup
  | .ceWriteback a => storeWordOk a
  | .scrubPassStart found => found.all (fun x => storeWordOk x.1)
  | .bar2Access x => x.ok
  | .claim reads => !reads.isEmpty && decide (reads.map Prod.fst).Nodup
  | .mbLockRead _ readers => !readers.isEmpty && decide readers.Nodup
  | .dmaCompletion _ data => !data.isEmpty
  | .qspiRead a n _ => qspiOk a n
  | .qspiQread a n _ => qspiOk a n
  | .qspiWrite a bs => qspiOk a bs.length
  | .qspiQwrite a bs => qspiOk a bs.length
  | .qspiBadOp op => !(([0x0B, 0x02, 0xEB, 0x38, 0x05] : List Byte).contains op)
  | .partnerRead _ bytes => decide (bytes.length ≤ 256)
  | .watchViolation _ _ a => decide (a < 2 ^ 26)
  | .measureDone r => r.ok
  | .coreResetRelease _ p a _ => p.ok && a.ok
  | .bootCmdLoad _ i _ => i.ok
  | .bootCmdFlash _ i => i.ok
  | _ => true

end Sys2Proof
end

