-- ==== Sys2Proof/Tests/Slice0.lean ====
section
/-!
SUPPORT. Tests of Slice 0: the WellFormed smoke, decoding, single steps, and for every obligation with hypotheses concrete states and operands that meet
them, clause by clause, at the edges of their ranges. The states are built from the reset state by the few helpers at the head of the file.
-/
namespace Sys2Proof.Tests
open Sys2Proof.Machine
set_option Elab.async false

/-! ### States -/

/-- The present tick of the states below. -/
def now : Nat := 1000000

/-- A block that runs: booted, its firmware ready, the PCI Express link up, the debug port open. -/
def live : State :=
  let r := State.reset
  { r with
    time := { r.time with lt := now * 32, ctrA := now * 32, ctrB := now * 32, pllLock := true, xinOk := true }
    boot := { r.boot with held := false, verified := true, alert := false }
    fw := { r.fw with ready := true, state := 1 }
    pcie := { r.pcie with up := true, perst := false }
    jtag := { r.jtag with unlocked := true, ir := .debug } }

def onCh (f : Channel → Channel) (s : State) : State := s.modCh 1 f
def onUnit (f : CmpUnit → CmpUnit) (s : State) : State := onCh (fun c => { c with unit := c.unit.set 1 (f c.unit[1]) }) s
def onCtr (f : Counter → Counter) (s : State) : State := onCh (fun c => { c with ctr := f c.ctr }) s
def onOut (f : OutStage → OutStage) (s : State) : State := onCh (fun c => { c with out := f c.out }) s
def onAdv (f : Advance → Advance) (s : State) : State := onCh (fun c => { c with adv := f c.adv }) s
def onFilt (f : InFilt → InFilt) (s : State) : State := onCh (fun c => { c with filt := f c.filt }) s
def onPip (f : Pip → Pip) (s : State) : State := onCh (fun c => { c with pip := f c.pip }) s
def onAx (f : Axis → Axis) (s : State) : State := { s with axis := s.axis.set 2 (f s.axis[2]) }
def onPod (f : PodSt → PodSt) (s : State) : State := { s with pod := s.pod.set 0 (f s.pod[0]) }
def onHealth (f : PodHealth → PodHealth) (s : State) : State := s.modHealth 0 f
def onMbx (b : Mbx) (f : Mailbox → Mailbox) (s : State) : State := { s with mbx := s.mbx.set b.val (f s.mbx[b]) }
def onStore (f : Store → Store) (s : State) : State := { s with store := f s.store }
def onPwr (f : Power → Power) (s : State) : State := { s with pwr := f s.pwr }

def onAbort (f : Abort → Abort) (s : State) : State := { s with abort := f s.abort }
def onFw (f : Firmware → Firmware) (s : State) : State := { s with fw := f s.fw }
def onTime (f : Time → Time) (s : State) : State := { s with time := f s.time }

/-- Channel 1 counts, captures and has a Pip program. -/
def chan : State := onCh (fun c => { c with
  en := true, oe := true
  ctr := { c.ctr with run := true, cnt := 5, top := 10, ld := 7, next := now + 3 }
  out := { c.out with level := true, configured := true, lastBall := 999000 }
  filt := { c.filt with raw := true, acc := true }
  rfx := { c.rfx with cfg := 0x40FD }
  pip := { c.pip with ctrl := 1, valid0 := true } }) live

/-- Axis 2 counts and has a speed. -/
def axis : State := onAx (fun a => { a with
  cfg := 0x199, pos := 0xFFFFFFFF, posLd := 77, edgeLt := (now - 50) * 32, edgePos := 0xFFFFFFFF, pins := 1, ref := 1, sect := some 0, stopped := false
  spd := { a.spd with speed := 5000, dp := 2, dt := 1000, valid := true, formed := true, winNet := 3, winLast := some ((now - 50) * 32)
                      before := some ((now - 5000) * 32), winAt := now - 4096 } }) live

/-- The Pip of channel 1 issues `op` now. -/
def pip (op : PipOp) (f : Pip → Pip := id) : State :=
  onCh (fun c => { c with pip := f { c.pip with
    run := true, t0 := now, cyc := 0, valid1 := true, prg0 := Vector.replicate 32 (pipEncode ⟨op, none⟩), tmo := 5, r := { c.pip.r with pc := 4, txf := [1, 2], rxf := [8] } } }) chan

/-- Mailbox b runs the command with an opcode and a body. -/
def runs (b : CmdMbx) (op : Nat) (body : List Byte) (s : State) : State :=
  onMbx (cmdMbx b) (fun x => { x with phase := .running op 9 4096 body, owner := 6, busy := true, poster := 6 }) s

/-- A body of u32 words. -/
def words (l : List Nat) : List Byte := l.flatMap (fun n => leBytes 4 n)

/-- The state a command answers. -/
def after (i : Instr) (s : State) : State := match exec i s with
  | .next t => t
  | _ => s

/-- A record of channel 1 whose DUE is d ticks from now. -/
def recAt (d : Nat) : Rec := { due := (now + d) * 32 + 5, param := 0, ch := 1, dom := 0, act := 1, behind := false, res := true, rsv := 0, seq := 7 }
/-- Its event. -/
def evAt (d ord : Nat) : Ev := { rec_ := recAt d, ord := ord, tAcc := 3, ball := (now + d) * 32 + 5, adv := 0 }

/-! ### Well-formed commands (WellFormed) -/

theorem test_wf_address : (Instr.rcRead .pcie 0x204).wf = true ∧ (Instr.rcRead .pcie 0x205).wf = false ∧ (Instr.lowWordRead .pcie 0x1000000).wf = false ∧
    (Instr.highWordRead .pcie 2).wf = false ∧ (Instr.wideRead8Byte 0xFFFFFC).wf = false ∧ (Instr.registerWrite .qspi 0x206 0 0xF).wf = false ∧
    (Instr.holdingRegWrite .pcie 1 0).wf = false ∧ (Instr.wideHighWrite .pcie 0x1000004 0).wf = false ∧ (Instr.axisCfgWrite 0 0x1000 0).wf = false ∧
    (Instr.axisCfgWrite 0 0xFFC 0).wf = true := by decide
theorem test_wf_store : (Instr.storeAccess 0 [⟨3, 0x2FFFFF0, .read, .clean⟩]).wf = true ∧ (Instr.storeAccess 0 [⟨3, 0x3000000, .read, .clean⟩]).wf = false ∧
    (Instr.storeAccess 0 [⟨3, 8, .read, .clean⟩]).wf = false ∧ (Instr.storeAccess 0 [⟨3, 0, .write [1], .clean⟩]).wf = false ∧ (Instr.storeAccess 0 [⟨3, 0, .partialWrite [], .clean⟩]).wf = false ∧
    (Instr.storeAccess 0 [⟨3, 0, .read, .clean⟩, ⟨3, 16, .read, .clean⟩]).wf = false ∧ (Instr.ceWriteback 8).wf = false ∧ (Instr.scrubPassStart [(0x2FFFFF1, .single)]).wf = false := by decide
theorem test_wf_window : (Instr.bar2Access (.read 0x3FFFFFF 1)).wf = true ∧ (Instr.bar2Access (.read 0x3FFFFFF 2)).wf = false ∧ (Instr.bar2Access (.write 0 [])).wf = false ∧
    (Instr.qspiRead 0x1000000 1 []).wf = false ∧ (Instr.qspiQread 0 0 []).wf = false ∧ (Instr.qspiWrite 0 []).wf = false ∧ (Instr.qspiQwrite 0x1000000 [1]).wf = false ∧
    (Instr.qspiBadOp 0x0B).wf = false ∧ (Instr.qspiBadOp 0x9F).wf = true := by decide
theorem test_wf_lists : (Instr.claim []).wf = false ∧ (Instr.claim [(.pcie, 0), (.pcie, 1)]).wf = false ∧ (Instr.claim [(.pcie, 0), (.qspi, 0)]).wf = true ∧
    (Instr.mbLockRead 3 []).wf = false ∧ (Instr.mbLockRead 3 [.qspi, .qspi]).wf = false ∧ (Instr.dmaCompletion 0 []).wf = false ∧
    (Instr.watchViolation 0 true 0x4000000).wf = false ∧ (Instr.measureDone (.cable [none])).wf = false ∧
    (Instr.measureDone (.cable (List.replicate 16 none))).wf = true ∧ (Instr.cfg 0 { corr := List.replicate 18 0 }).wf = false := by decide
theorem test_wf_partner : (Instr.partnerRead 3 (List.replicate 257 0)).wf = false ∧ (Instr.partnerRead 3 (List.replicate 256 0)).wf = true := by decide +kernel

/-- An image whose patch would run past the end of the control store (R203). -/
def longImage : ImageIn := ⟨true, true, 0x21, 0, true, true, true, true, 0, some ⟨true, 0x21, 0, true, true, true, [⟨1, 4095, [0, 0]⟩]⟩⟩
theorem test_wf_images : (Instr.bootCmdLoad .qspi longImage []).wf = false ∧ (Instr.bootCmdFlash .qspi longImage).wf = false ∧
    (Instr.coreResetRelease 0 longImage longImage []).wf = false ∧ (Instr.bootCmdLoad .qspi { longImage with patch := none } []).wf = true := by decide

/-- A command handed to mailbox 3 of a block that runs can be carried out, whatever its opcode and body (the hypothesis CmdRuns). -/
theorem runs_ok (op : Nat) (body : List Byte) (s : State) (h : s.fw.restarting = false) (h' : s.pwr.mode = 0) : CmdRuns 3 op 9 body (runs 3 op body s) :=
  ⟨⟨4096, by simp [runs, onMbx]⟩, h, h'⟩

/-! ### The machine as a whole, and the register bus -/

theorem test_EveryQueue : State.reset.pending = [] ∧ step { live with pending := [.bypass, .idcode] } = exec .bypass { live with pending := [.idcode] } := ⟨rfl, rfl⟩
/-- A store with two bytes listed. -/
def stored : State := onStore (fun x => { x with mem := [(3, 5), (9, 1)] }) live
theorem test_StoreFormKept : stored.memOk ∧ step { stored with pending := [.pllLock] } = .next stored.pllLocks := ⟨show Memory.wf _ = true by decide, rfl⟩
theorem test_LineTimeNeverDecreases : (∀ cold : Bool, Instr.pllLock ≠ .aonPor cold) ∧ exec .pllLock live = .next live.pllLocks := ⟨by decide, rfl⟩
theorem test_WideReads : (served .watch1 (.lowWordRead .watch1 0x100) live = true ∧ 0x100 % 4 = 0 ∧ readDenied .watch1 0x100 = none ∧ (∀ n : Ch, 0x100 ≠ chBase n + 0x108) ∧
      (busWide .watch1 0x100 (busSettle 0x100 (found .watch1 live))).isSome = true) ∧
    (served .pcie (.wideRead8Byte 0x40020) live = true ∧ 0x40020 % 4 = 0 ∧ (∀ n : Ch, 0x40020 ≠ chBase n + 0x108) ∧
      busWide .pcie 0x40020 (busSettle 0x40020 (found .pcie live)) = some 0) := by decide +kernel
/-- Watch core 1 has read the low word of LT. -/
def shadowed : State := { live with master := live.master.set 1 { live.master[1] with shadow := 77, addr := 0x100, valid := true } }
theorem test_HighWordReadUsesShadow : served .watch1 (.highWordRead .watch1 0x104) shadowed = true ∧ readDenied .watch1 0x104 = none ∧
    (busWide .watch1 0x100 (busSettle 0x104 (found .watch1 shadowed))).isSome = true ∧ shadowed.master[Master.watch1.idx].valid = true ∧
    shadowed.master[Master.watch1.idx].addr = BitVec.ofNat 24 0x100 := by decide +kernel
theorem test_ReadAndClearKeepsNew : served .qspi (.rcRead .qspi 0x21C) live = true ∧ served .qspi (.rcRead .qspi 0x11038) live = true ∧
    served .qspi (.rcRead .qspi 0x88054) live = true ∧ served .pcie (.rcRead .pcie (0x91028 + 0x2000 * 7)) live = true := by decide +kernel
theorem test_WideWrites : served .pcie (.holdingRegWrite .pcie 0x110 5) live = true ∧
    (served .qspi (.holdingRegWrite .qspi (unitBase 127 3 + 0xC) 5) live = true ∧ ∃ n : Ch, ∃ u : Unit4, unitBase 127 3 + 0xC = unitBase n u + 0xC) ∧
    served .pcie (.wideHighWrite .pcie 0x114 1) live = true ∧ served .pcie (.wideHighWrite .pcie (chBase 127 + 0x24) 1) live = true := by decide +kernel
theorem test_RegisterWriteByAccessCode : served .qspi (.registerWrite .qspi 0x820 800000 0xF) live = true ∧ (0xE : BitVec 4) ≠ 0xF ∧ (blockOf 0xB0000).1 = .none ∧
    0x83C = 0x830 + 4 * (3 : Fin 4).val ∧ 800000 ≤ (800000 : W).toNat ∧ (4000000000 : W).toNat ≤ 4000000000 ∧ (799999 : W).toNat < 800000 ∧
    4000000000 < (4000000001 : W).toNat := by decide +kernel
theorem test_GuaranteeClear : served .pcie (.guarStatClear .pcie 0x80) live = true ∧ (1 : W) &&& 0xFE = 0 ∧ (0x80 : W) &&& 0xFE ≠ 0 := by decide +kernel
theorem test_AccessNotServed : State.reset.pcie.up = false ∧
    (let s : State := { live with boot := { live.boot with verified := false }, fw := { live.fw with ready := false } }
     s.pcie.up = true ∧ cfgRetried s = true) ∧
    (let s : State := { live with pcie := { live.pcie with d3hot := true } }
     s.pcie.up = true ∧ s.pcie.d3hot = true) ∧
    (let s := onPwr (fun p => { p with mode := 2 }) live
     s.pcie.up = true ∧ cfgRetried s = false ∧ s.pcie.d3hot = false ∧ s.pwr.mode ≠ 0 ∧ bit s.pwr.cfg 0 = true ∧ bit s.pwr.cfg 1 = true) ∧
    (let s := onPwr (fun p => { p with mode := 1, cfg := 0 }) live
     s.pcie.up = true ∧ cfgRetried s = false ∧ s.pwr.mode ≠ 0 ∧ bit s.pwr.cfg 0 = false ∧ bit s.pwr.cfg 1 = false) ∧
    State.reset.jtag.unlocked = false := by decide +kernel

/-! ### Counters, compare units, outputs, inputs -/

theorem test_Counters_modes :
    ((onCtr (fun k => { k with run := false }) chan).ch[(1 : Ch)].ctr.run = false ∧ chan.ch[(1 : Ch)].ctr.run = true) ∧
    ((onCtr (fun k => { k with cfg := 0x805 }) chan).ch[(1 : Ch)].ctr.mode = 5) ∧
    (let k := (onCtr (fun k => { k with cfg := 0x802, ld := 11 }) chan).ch[(1 : Ch)].ctr
     k.mode = 2 ∧ k.top < k.ld) ∧
    (let k := (onCtr (fun k => { k with cfg := 0x802, ld := 10 }) chan).ch[(1 : Ch)].ctr
     k.mode = 2 ∧ ¬ k.top < k.ld ∧ k.ld = k.top) ∧
    ((onCtr (fun k => { k with cfg := 0x802, ld := 0 }) chan).ch[(1 : Ch)].ctr.ld = 0) := by decide +kernel
theorem test_Counters_steps :
    (let c := (onCtr (fun k => { k with cfg := 0x800, next := now, presc := 2 }) chan).ch[(1 : Ch)]
     c.ctr.run = true ∧ c.en = true ∧ c.ctr.mode = 0 ∧ (now - c.ctr.next) / c.ctr.div1 + 1 = 1) ∧
    (let c := (onCtr (fun k => { k with cfg := 0x801, cnt := 0, next := now - 5, presc := 1 }) chan).ch[(1 : Ch)]
     c.ctr.run = true ∧ c.en = true ∧ c.ctr.mode = 1 ∧ (now - c.ctr.next) / c.ctr.div1 + 1 = 3) ∧
    (let c := (onCtr (fun k => { k with cfg := 0x802, cnt := 10, next := now }) chan).ch[(1 : Ch)]
     c.ctr.run = true ∧ c.en = true ∧ c.ctr.mode = 2 ∧ (now - c.ctr.next) / c.ctr.div1 + 1 = 1 ∧ c.ctr.top ≠ 0 ∧ c.ctr.cnt ≤ c.ctr.top) ∧
    live.ch[(1 : Ch)].en = false ∧
    (let c := (onUnit (fun u => { u with live := true, active := { val := 6, act := 1 } }) (onCtr (fun k => { k with cfg := 0x800, next := now }) chan)).ch[(1 : Ch)]
     c.ctr.run = true ∧ c.en = true ∧ c.ctr.mode = 0 ∧ c.unit[(1 : Unit4)].live = true ∧ actLt c.unit[(1 : Unit4)].active.act = false ∧
       c.unit[(1 : Unit4)].active.val = c.ctr.cnt + 1) := by decide +kernel
theorem test_TopCommit : served .qspi (.topCommit .qspi 1 0) chan = true ∧
    (let c := (onCtr (fun k => { k with cfg := 0x802 }) chan).ch[(1 : Ch)].count now 0
     c.ctr.run = true ∧ c.ctr.mode = 2) := by decide +kernel
/-- The commit of unit 1 by REARM of a set aimed d ticks after the boundary of the write. -/
def aimed (d : Nat) (act : W) : State := onUnit (fun u => { u with cur := { val := lt48 (now + 1) + BitVec.ofNat 48 d, act := act } }) chan
theorem test_CompareCommit :
    (served .watch1 (.cmpCommit .watch1 1 1 0) chan = true) ∧
    ((onUnit (fun u => { u with owner := true }) (aimed 1 0x201)).ch[(1 : Ch)].unit[(1 : Unit4)].owner = true) ∧
    (let s : State := { (aimed 1 0x201) with axis := live.axis.set 0 { live.axis[0] with emul := { cfg := 3, run := true } } }
     s.ch[(1 : Ch)].unit[(1 : Unit4)].owner = false ∧ emulBusy 1 s = true) ∧
    (let s := aimed 1 11
     s.ch[(1 : Ch)].unit[(1 : Unit4)].owner = false ∧ emulBusy 1 s = false ∧ 11 ≤ actCode s.ch[(1 : Ch)].unit[(1 : Unit4)].cur.act) ∧
    (∀ d ∈ [1, 2 ^ 47 - 1, 0, 2 ^ 47], let s := aimed d 0x201
      let set := s.ch[(1 : Ch)].unit[(1 : Unit4)].cur
      s.ch[(1 : Ch)].unit[(1 : Unit4)].owner = false ∧ emulBusy 1 s = false ∧ actCode set.act < 11 ∧ actLt set.act = true ∧ (set.val - lt48 (s.tick + 1)).toNat = d ∧
        s.ch[(1 : Ch)].en = true) ∧
    (let ev : Ev := { rec_ := { due := 5, param := 0, ch := 1, dom := 0, act := 1, behind := false, res := false, rsv := 0, seq := 0 }, ord := 1, tAcc := 0, ball := 99999999, adv := 0 }
     sched 1 { (aimed 1 0x201) with cal := { live.cal with wheel := [ev] } } = true) ∧
    ((2 : BitVec 4).getLsbD (1 : Unit4).val = true ∧ (2 : BitVec 4).getLsbD (0 : Unit4).val = false) := by decide +kernel
theorem test_CompareMatch : (onPwr (fun p => { p with mode := 1 }) chan).pwr.mode ≠ 0 ∧
    (∀ a ∈ [0x200, 0x201, 0x202, 0x203], let s := onUnit (fun u => { u with live := true, active := { val := lt48 now, act := BitVec.ofNat 32 a } }) chan
      s.pwr.mode = 0 ∧ s.time.res = 0 ∧ s.ch[(1 : Ch)].en = true ∧ s.ch[(1 : Ch)].frz = false ∧ s.ch[(1 : Ch)].out.train = .none ∧ s.ch[(1 : Ch)].unit[(1 : Unit4)].live = true ∧
      s.ch[(1 : Ch)].unit[(1 : Unit4)].hit = none ∧ s.ch[(1 : Ch)].unit[(1 : Unit4)].ev = none ∧ actLt s.ch[(1 : Ch)].unit[(1 : Unit4)].active.act = true ∧
      s.ch[(1 : Ch)].unit[(1 : Unit4)].active.val = lt48 s.tick ∧
      (∀ v : Unit4, v ≠ 1 → s.ch[(1 : Ch)].unit[v].live = false ∧ s.ch[(1 : Ch)].unit[v].shadow = false ∧ s.ch[(1 : Ch)].unit[v].hit = none) ∧
      s.ch[(1 : Ch)].unit[(1 : Unit4)].shadow = false) := by decide +kernel
theorem test_ForcesAndTrains :
    (chan.ch[(1 : Ch)].frz = false ∧ chan.ch[(1 : Ch)].out.train = .none ∧ chan.ch[(1 : Ch)].out.pip = none ∧ chan.ch[(1 : Ch)].out.pipe = [] ∧ chan.ch[(1 : Ch)].out.mergeTick ≠ now + 5 ∧
      sched 1 chan = false ∧ chan.pwr.mode = 0 ∧ (∀ u : Unit4, chan.ch[(1 : Ch)].unit[u].live = false ∧ chan.ch[(1 : Ch)].unit[u].shadow = false ∧ chan.ch[(1 : Ch)].unit[u].hit = none)) ∧
    (onCh (fun c => { c with frz := true }) chan).ch[(1 : Ch)].frz = true ∧
    (∀ x ∈ [(now + 4) * 32 + 31, (now + 5) * 32], (onOut (fun o => { o with train := .pulse x }) chan).ch[(1 : Ch)].out.train = .pulse x) ∧
    (((now + 4) * 32 + 31) / 32 - 4 ≤ now ∧ now < (now + 5) * 32 / 32 - 4) ∧
    (onOut (fun o => { o with train := .burst ((now + 4) * 32) true 1 10 20 }) chan).ch[(1 : Ch)].out.train = .burst ((now + 4) * 32) true 1 10 20 := by decide +kernel
theorem test_AdvanceAndDriveChange :
    served .pcie (.advCommit .pcie 1 3) chan = true ∧
    (let p : AdvPair := { adv := 9, comp := none, epoch := now * 32 }
     (onAdv (fun a => { a with pend := some p }) chan).ch[(1 : Ch)].adv.pend = some p ∧ p.epoch ≤ chan.tick * 32 ∧ p.start ≤ chan.tick ∧ p.comp = none) ∧
    (let p : AdvPair := { adv := 9, comp := none, epoch := now * 32 + 1 }
     (onAdv (fun a => { a with pend := some p }) chan).ch[(1 : Ch)].adv.pend = some p ∧ chan.tick * 32 < p.epoch) ∧
    (let p : AdvPair := { adv := 9, comp := none, epoch := 50, start := now + 1 }
     (onAdv (fun a => { a with pend := some p }) chan).ch[(1 : Ch)].adv.pend = some p ∧ chan.tick < p.start) ∧
    chan.ch[(1 : Ch)].adv.pend = none ∧ chan.ch[(1 : Ch)].out.drivePend = none ∧
    (let s := onOut (fun o => { o with drivePend := some 0xD }) chan
     s.ch[(1 : Ch)].out.drivePend = some 0xD ∧ s.ch[(1 : Ch)].masked s.tick = false) ∧
    (let s := onOut (fun o => { o with drivePend := some 0xD, lastBall := now }) chan
     s.ch[(1 : Ch)].masked s.tick = true) := by decide +kernel
theorem test_FreezeAndThaw : Master.pcie ≠ .debug ∧ (chan.jtag.unlocked = true ∧ chan.jtag.ir = .debug) ∧
    (let s := onCh (fun c => { c with frzReq := true }) chan
     s.ch[(1 : Ch)].frzReq = true ∧ s.ch[(1 : Ch)].frz = false) ∧
    (let s := onCh (fun c => { c with frz := true }) chan
     s.ch[(1 : Ch)].frz = true ∧ s.ch[(1 : Ch)].frzReq = false) := by decide +kernel
theorem test_InputEdgesAndCaptures :
    (chan.time.res = 0 ∧ blind chan = false ∧ chan.ch[(1 : Ch)].spare = false ∧ chan.ch[(1 : Ch)].filt.cand = none ∧ true = chan.ch[(1 : Ch)].filt.raw ∧ false ≠ chan.ch[(1 : Ch)].filt.raw) ∧
    (chan.health.pod[(0 : Pod)].spareOn = none ∧ chan.health.pod[(0 : Pod)].spb.cand = none ∧ true ≠ chan.health.pod[(0 : Pod)].spb.raw) ∧
    (∀ x ∈ [((now - 5) * 32 + 3, true), ((now - 4) * 32, false)],
      let s := onFilt (fun f => { f with raw := false, acc := true, cand := some (x.1, 77) }) (onCh (fun c => { c with filter := 5, cap := { c.cap with cfg := 3 } }) chan)
      s.time.res = 0 ∧ blind s = false ∧ s.ch[(1 : Ch)].filt.cand = some (x.1, 77) ∧ (decide (x.1 / 32 + s.ch[(1 : Ch)].filter ≤ s.tick) = x.2) ∧
        s.ch[(1 : Ch)].en = true ∧ s.ch[(1 : Ch)].frz = false ∧ capSelects s.ch[(1 : Ch)].cap.cfg s.ch[(1 : Ch)].filt.raw = true ∧
        s.ch[(1 : Ch)].cap.accTick ≠ some (x.1 / 32 + s.ch[(1 : Ch)].filter)) ∧
    (onHealth (fun h => { h with spb := { raw := true, acc := false, cand := some (99, 0) } }) chan).health.pod[(0 : Pod)].spb.cand ≠ none ∧
    (served .watch1 (.capPop .watch1 1) chan = true ∧ chan.ch[(1 : Ch)].cap.waiting = [] ∧ chan.ch[(1 : Ch)].cap.spilling = false ∧ chan.ch[(1 : Ch)].cap.queue = []) ∧
    (let e : CapE := { lt := 0x300000001, cnt := 3, flags := 1 }
     (onCh (fun c => { c with cap := { c.cap with queue := [e] } }) chan).ch[(1 : Ch)].cap.queue = e :: []) := by decide +kernel
theorem test_ReadbackAndReflex :
    (let s := onCh (fun c => { c with rbEn := true, out := { c.out with lastBall := 990000, base := true }, filt := { c.filt with raw := false } }) chan
     s.ch[(1 : Ch)].expected s.tick = some true ∧ s.ch[(1 : Ch)].filt.raw ≠ true ∧ measuring 1 s = false ∧ scanning s = false) ∧
    live.ch[(1 : Ch)].expected now = none ∧ chan.ch[(1 : Ch)].rfx.pend = [] ∧
    (let s := onCh (fun c => { c with rb := { since := 995904, bad := true, consec := 2 }, out := { c.out with lastBall := 990000 } }) chan
     s.ch[(1 : Ch)].rb.since + 4096 ≤ s.tick ∧ s.ch[(1 : Ch)].rb.consec + 1 = 3 ∧ s.ch[(1 : Ch)].rb.bad = true) ∧
    (let s := onCh (fun c => { c with rb := { since := 998000 } }) chan
     s.ch[(1 : Ch)].rb.since < (s.ch[(1 : Ch)].out.drain s.tick).lastBall) ∧
    (let s := onCh (fun c => { c with rfx := { c.rfx with armed := true } }) chan
     s.ch[(1 : Ch)].rfx.armed = true ∧ s.ch[(1 : Ch)].frz = false) := by decide +kernel

/-! ### The Pip engines -/

/-- The Pip of channel 1 at the present tick. -/
def pipOf (s : State) : Pip := (s.pipNow 1).ch[(1 : Ch)].pip

theorem test_PipHostCommands :
    (let s := onPip (fun p => { p with valid1 := true }) chan
     (pipOf s).run = false ∧ (pipOf s).swap = none ∧ (pipOf s).activeValid = true ∧ (s.pipNow 1).ch[(1 : Ch)].frz = false ∧ (s.pipNow 1).ch[(1 : Ch)].en = true ∧ bit (pipOf s).ctrl 0 = true ∧
       (pipOf s).otherValid = true) ∧
    (pipOf chan).otherValid = false ∧
    (let s := pip (.waitcyc false 5) (fun p => { p with r := { p.r with bc := 5 } })
     (pipOf s).otherValid = true ∧ (pipOf s).run = true ∧ (pipOf s).r.bc ≠ 0) ∧
    (let s := onPip (fun p => { p with resum := true }) chan
     (pipOf s).resum = true ∧ (pipOf s).run = false) ∧
    (let s := onCh (fun c => { c with out := { c.out with pip := some true } }) chan
     (1 : Ch) ∈ tierOf 1 (s.pipNow 1)) := by decide +kernel
theorem test_PipHostData :
    served .watch2 (.rxfRead .watch2 1) chan = true ∧ (pipOf chan).rxPod = false ∧ (pipOf chan).r.rxf = [] ∧
    (pipOf (onPip (fun p => { p with r := { p.r with rxf := [8, 9] } }) chan)).r.rxf = 8 :: [9] ∧
    (pipOf (onPip (fun p => { p with ctrl := p.ctrl ||| 0x60000 }) chan)).rxPod = true ∧
    (bit (pipOf chan).ctrl 0 = true ∧ false = (pipOf chan).bank ∧ true ≠ (pipOf chan).bank) ∧
    ((pipOf chan).run = false ∧ bit (0 : W) 0 = false) ∧
    (let s := pip (.waitcyc false 5)
     (pipOf s).run = true ∧ bit (1 : W) 0 = true) ∧
    (let s := onCh (fun c => { c with out := { c.out with pip := some true } }) chan
     (s.pipNow 1).ch[(1 : Ch)].out.pip ≠ none) ∧
    (let w : W := 0x2F001F
     (pipOf chan).run = false ∧ (chan.pipNow 1).ch[(1 : Ch)].out.pip = none ∧ fld w 0 4 + fld w 4 2 = 16 ∧ fld (w &&& 0xF) 0 4 + fld (w &&& 0xF) 4 2 ≤ 15 ∧
       (pipOf chan).pins &&& 0xFF0E00C0 = 0) := by decide +kernel
theorem test_PipWaits :
    PipIssues 1 (.waitcyc true 511) (pip (.waitcyc true 511)) ∧ PipIssues 1 (.waitpin 0 1 true) (pip (.waitpin 0 1 true)) ∧ 0 < (pipOf (pip (.waitpin 0 1 true))).timeout true ∧
    PipIssues 1 (.waitpin 1 16 false) (pip (.waitpin 1 16 false)) ∧ (pipOf (pip (.waitpin 1 16 false))).timeout false = 0 ∧
    PipIssues 1 (.waitflag 3 true false true) (pip (.waitflag 3 true false true)) ∧ PipIssues 1 (.waitflag 3 false true true) (pip (.waitflag 3 false true true)) ∧
    ((pipOf (pip (.waitflag 3 false true true))).r.flags.fresh = 0 ∧ (pipOf (pip (.waitflag 3 false true true))).r.flags.get 3 = false) ∧
    PipIssues 1 (.waitflag 0 true true false) (pip (.waitflag 0 true true false)) ∧ (pipOf (pip (.waitflag 0 true true false))).r.flags.get 0 ≠ true ∧
    PipIssues 1 (.waitirq 0 7 true) (pip (.waitirq 0 7 true)) ∧ (pipOf (pip (.waitirq 0 7 true))).r.pendQ = [] := by
  unfold PipIssues; decide +kernel
theorem test_PipWaits_over : (pipOf chan).stalled = none ∧
    (let p := pipOf (pip (.pull false) (fun p => { p with t0 := now - 3, cyc := 2, stalled := some 1, r := { p.r with txf := [7, 8] } }))
     p.run = true ∧ p.swap = none ∧ p.stopAt = none ∧ p.stalled = some 1 ∧ 1 < p.lastCycle now ∧ p.instr.op = .pull false ∧ p.r.txf = 7 :: [8]) ∧
    (let p := pipOf (pip (.pull true) (fun p => { p with t0 := now - 6, cyc := 6, stalled := some 1, r := { p.r with txf := [] } }))
     p.run = true ∧ p.swap = none ∧ p.stopAt = none ∧ p.stalled = some 1 ∧ p.instr.op = .pull true ∧ p.r.txf = [] ∧ 0 < fld p.tmo 0 16 ∧ p.cycleTick (1 + fld p.tmo 0 16) = now) ∧
    (let p := pipOf (pip (.pull true) (fun p => { p with t0 := now - 5, cyc := 5, stalled := some 1, r := { p.r with txf := [] } }))
     p.stalled = some 1 ∧ now < p.cycleTick (1 + p.timeout p.instr.op.hasTimeout)) := by decide +kernel
theorem test_PipDataMoves_shifts :
    (∀ x ∈ [(0x1, false), (0x7C5, false), (0x7C5, true)], let s := pip (.out 3 31) (fun p => { p with ctrl := BitVec.ofNat 32 x.1, r := { p.r with loaded := false, txf := if x.2 then [] else [0x80000001] } })
      PipIssues 1 (.out 3 31) s ∧ ((pipOf s).chainTx = (x.1 != 1)) ∧ ((pipOf s).r.txf = []) = x.2 ∧ (pipOf s).r.loaded = false) ∧
    (∀ x ∈ [(0x1, 0), (0x7C9, 3), (0x7C9, 4)], let s := pip (.inp 1 31) (fun p => { p with ctrl := BitVec.ofNat 32 x.1, r := { p.r with rxf := List.replicate x.2 1 } })
      PipIssues 1 (.inp 1 31) s ∧ ((pipOf s).chainRx = (x.1 != 1)) ∧ (pipOf s).wlen ≤ (pipOf s).r.bc + 32 ∧ (pipOf s).r.rxf.length = x.2) := by
  unfold PipIssues; decide +kernel
theorem test_PipDataMoves_words :
    (∀ k ∈ [3, 4], let s := pip (.push true false) (fun p => { p with r := { p.r with rxf := List.replicate k 1 } })
      PipIssues 1 (.push true false) s ∧ (pipOf s).r.rxf.length = k ∧ (pipOf s).timeout false = 0) ∧
    (∀ k ∈ [1, 0], let s := pip (.pull false) (fun p => { p with r := { p.r with txf := List.replicate k 1 } })
      PipIssues 1 (.pull false) s ∧ (pipOf s).r.txf.length = k ∧ (pipOf s).timeout false = 0) ∧
    (∀ d ∈ [(0 : Fin 8), 1, 2, 3, 4, 5], PipIssues 1 (.mov d 3 2) (pip (.mov d 3 2)) ∧ (pipOf (pip (.mov d 3 2))).r.flags.fresh = 0) := by
  unfold PipIssues; decide +kernel
theorem test_PipControlFlow :
    (∀ op ∈ [PipOp.jmp 7 3 31, .loop true 31, .cmp 3 3 true, .setVal true 255, .setMask false 15 15, .setMask true 15 15, .irq 1 255, .irq 0 255, .stop true true],
      PipIssues 1 op (pip op) ∧ (pipOf (pip op)).r.flags.fresh = 0 ∧ (pipOf (pip op)).irq.get 0 = false) ∧
    (let s := pip (.irq 1 255) (fun p => { p with irq := { bits := 1 } })
     PipIssues 1 (.irq 1 255) s ∧ (pipOf s).irq.get 0 = true) := by
  unfold PipIssues; decide +kernel
theorem test_PipControlFlow_ends :
    PipIssues 1 (.swap false) (pip (.swap false) (fun p => { p with valid1 := false })) ∧ (pipOf (pip (.swap false) (fun p => { p with valid1 := false }))).otherValid = false ∧
    (∀ k ∈ [0, 4], let s := pip (.swap false) (fun p => { p with r := { p.r with bc := k } })
      PipIssues 1 (.swap false) s ∧ (pipOf s).otherValid = true ∧ (pipOf s).r.bc = k) ∧
    PipIssues 1 (.swap true) (pip (.swap true)) ∧
    (let p := pipOf (pip (.mov 6 0 0))
     p.run = true ∧ p.stalled = none ∧ p.waitLeft = 0 ∧ p.swap = none ∧ p.instr.op.reserved = true ∧ p.cycleTick p.cyc ≤ now) := by
  unfold PipIssues; decide +kernel

/-! ### Axes -/

/-- A position event of channel 1 on axis 2 that is predicted to arrive d ticks from now. -/
def posEv (d : Nat) : PosEv :=
  { ev := { rec_ := { due := 0x50, param := 0, ch := 1, dom := 3, act := 1, behind := false, res := true, rsv := 0, seq := 7 }, ord := 3, tAcc := 3, ball := 0, adv := 0 }
    axis := 2, ahead := true, pred := some ((now + d) * 32) }
def withPos (l : List PosEv) (s : State) : State := { s with cal := { s.cal with pos := l } }

theorem test_AxisConfiguration :
    (fld (399 : W) 0 24 < 400 ∧ 400 ≤ fld (400 : W) 0 24) ∧
    (bit axis.axis[(2 : Ax)].cfg 0 = true ∧ fld (0x19B : W) 1 2 ≠ fld axis.axis[(2 : Ax)].cfg 1 2 ∧ fld (0x1E1 : W) 3 4 ≠ fld axis.axis[(2 : Ax)].cfg 3 4) ∧
    (bit live.axis[(2 : Ax)].cfg 0 = false ∧ bit (1 : W) 0 = true ∧ bit (0 : W) 0 = false) ∧
    (axisHolds 2 (withPos [posEv 600] axis) = true ∧ axisHolds 2 axis = false) ∧
    (let s := onCtr (fun k => { k with cfg := 0x20805 }) axis
     s.ch[(1 : Ch)].ctr.mode = 5 ∧ axSel s.ch[(1 : Ch)].ctr.cfg = 2) ∧
    ¬ (axis.ch[(1 : Ch)].ctr.mode = 5 ∧ axSel axis.ch[(1 : Ch)].ctr.cfg = 2) := by decide +kernel
theorem test_AxisEdges_accept :
    axis.axis[(2 : Ax)].pins.getLsbD AxPin.a.idx = true ∧ axis.axis[(2 : Ax)].filterTicks = 3 ∧ now < (now - 2) * 32 / 32 + 3 ∧
    (axis.axis[(2 : Ax)].pins.getLsbD AxPin.b.idx ≠ true ∧ ((now - 3) * 32 + 31) / 32 + 3 ≤ axis.tick ∧ axis.boot.held = false ∧ axis.pwr.mode ≠ 2) ∧
    (onPwr (fun p => { p with mode := 2 }) axis).pwr.mode = 2 := by decide +kernel
theorem test_AxisEdges :
    (∀ x ∈ [((now - 5) * 32 + 31, true), ((now - 4) * 32, false)], let s := onAx (fun a => { a with accQ := [(.b, true, x.1)] }) axis
      let a := s.axis[(2 : Ax)]
      a.accQ = (.b, true, x.1) :: [] ∧ (decide (x.1 / 32 + a.filterTicks + 2 ≤ s.tick) = x.2) ∧ a.en = true ∧ a.mode = 0 ∧ AxPin.b ≠ .z ∧ a.ref.getLsbD AxPin.b.idx ≠ true ∧
        a.fastEdge (x.1 / 32) = false) ∧
    ((onAx (fun a => { a with lastTick := some (now - 6) }) axis).axis[(2 : Ax)].fastEdge (now - 5) = true) ∧
    (let s := onAx (fun a => { a with accQ := [(.z, true, (now - 5) * 32)], cfg := a.cfg ||| 0x600 }) axis
     fld s.axis[(2 : Ax)].cfg 9 2 = 3 ∧ bit s.axis[(2 : Ax)].cfg 11 = false ∧ axisHolds 2 s = false ∧ s.axis[(2 : Ax)].mode = 0) ∧
    (∀ up ∈ [true, false], let s := onAx (fun a => { a with accQ := [(if up then .b else .a, up, (now - 5) * 32)], cfg := a.cfg ||| 2, ref := if up then 1 else 3, sect := hallSector (if up then 1 else 3) }) axis
      let a := s.axis[(2 : Ax)]
      let h0 := (hallSector (if up then 1 else 3)).getD 9
      let h1 := (hallSector (set3 a.ref (if up then AxPin.b else .a).idx up)).getD 9
      a.mode = 1 ∧ a.sect = some h0 ∧ hallSector (set3 a.ref (if up then AxPin.b else .a).idx up) = some h1 ∧ set3 a.ref (if up then AxPin.b else .a).idx up ≠ a.ref ∧
        a.fastEdge (now - 5) = false ∧ (h1 + 6 - h0) % 6 = 1) ∧
    (∀ chk ∈ [true, false], let s := onAx (fun a => { a with accQ := [(.a, false, (now - 5) * 32 + 3), (.b, true, (now - 5) * 32 + 9)], cfg := if chk then a.cfg else a.cfg &&& 0xFF7F }) axis
      let a := s.axis[(2 : Ax)]
      (now - 5) + a.filterTicks + 2 ≤ s.tick ∧ a.en = true ∧ a.mode = 0 ∧ a.ref.getLsbD 0 ≠ false ∧ a.ref.getLsbD 1 ≠ true ∧ a.fastEdge (now - 5) = false ∧ bit a.cfg 7 = chk) := by decide +kernel
theorem test_AxisSpeed :
    (let a := axis.axis[(2 : Ax)]
     a.en = true ∧ a.spd.formed = true ∧ ¬ a.spd.speed.natAbs < a.stopSpd.toNat) ∧
    (let a := (onAx (fun a => { a with edgeLt := 100 }) axis).axis[(2 : Ax)]
     a.spd.dp ≠ 0 ∧ a.lagLim * a.spd.dt < (now * 32 - a.edgeLt) * a.spd.dp.natAbs ∧ 3276800000 < a.stopSpd.toNat * (now * 32 - a.edgeLt)) ∧
    (let s := onAx (fun a => { a with spdCfg := 0x10000010, spd := { a.spd with cntMode := true } }) axis
     let a := s.axis[(2 : Ax)]
     let tb := (s.tick - (a.filterTicks + 2)) / max 1 a.spd.gate * a.spd.gate
     a.en = true ∧ a.spd.winAt < tb ∧ a.mode = 0 ∧ fld a.spdCfg 3 2 = 2 ∧ a.spd.cntMode = true ∧ a.spd.winLast = some ((now - 50) * 32) ∧ a.spd.before = some ((now - 5000) * 32) ∧
       (now - 5000) * 32 < (now - 50) * 32 ∧ (now - 50) * 32 - (now - 5000) * 32 < 2 ^ 32 ∧ a.spd.winNet ≠ 0) ∧
    (live.axis[(2 : Ax)].en = false) ∧ served .pcie (.speedRead .pcie 2) axis = true := by decide +kernel
/-- Axis 2 as a serial axis: SSI of 24 bits, or BiSS-C. -/
def serial (biss : Bool) (f : Serial → Serial) : State := onAx (fun a => { a with cfg := if biss then 0x187 else 0x185, ser := f { a.ser with cfg := 0x18 } }) axis
theorem test_SerialAndEmulator_frames :
    (let s := serial false (fun x => { x with cfg := 0x1018 })
     s.axis[(2 : Ax)].en = true ∧ 2 ≤ s.axis[(2 : Ax)].mode ∧ s.pwr.mode = 0 ∧ bit s.axis[(2 : Ax)].ser.cfg 12 = true ∧ s.axis[(2 : Ax)].ser.busy = none) ∧
    (let s := serial false (fun x => { x with period := 1000, busy := some 99 })
     bit s.axis[(2 : Ax)].ser.cfg 12 = false ∧ fld s.axis[(2 : Ax)].ser.period 0 24 ≠ 0 ∧ s.tick % fld s.axis[(2 : Ax)].ser.period 0 24 = 0 ∧ s.axis[(2 : Ax)].ser.busy ≠ none) ∧
    ¬ 2 ≤ axis.axis[(2 : Ax)].mode := by decide +kernel
theorem test_SerialAndEmulator_samples :
    (let f : SerFrame := { pos := 5, crc := 0, nE := true, nW := true, delay := 9 }
     let s (lim : Nat) (p : Option Nat) := serial false (fun x => { x with cfg := 0x18 ||| BitVec.ofNat 32 (lim * 65536), busy := some (now - 300), prev := p })
     (s 2 (some 3)).axis[(2 : Ax)].ser.busy = some (now - 300) ∧ (s 2 (some 3)).axis[(2 : Ax)].frameOk f = true ∧ (s 2 (some 3)).axis[(2 : Ax)].mode = 2 ∧
       (s 2 none).axis[(2 : Ax)].ser.prev = none ∧ (serStep (s 2 (some 3)).axis[(2 : Ax)].ser.len 5 3).natAbs = 2 ∧ fld (s 2 (some 3)).axis[(2 : Ax)].ser.cfg 16 16 = 2 ∧
       fld (s 1 (some 3)).axis[(2 : Ax)].ser.cfg 16 16 = 1) ∧
    (let f : SerFrame := { pos := 5, crc := 0, nE := false, nW := true, delay := 9 }
     let a := (serial true (fun x => { x with busy := some (now - 300) })).axis[(2 : Ax)]
     a.mode = 3 ∧ f.nE = false ∧ (a.frameOk { f with crc := 1 } = false ∨ a.frameOk { f with crc := 2 } = false) ∧ (List.range 64).any (fun c => a.frameOk { f with crc := BitVec.ofNat 8 c }) = true) := by decide +kernel
theorem test_SerialAndEmulator_emul :
    (let s := axis
     let c : W := (0x20 ||| 1) &&& 0x3FFFF
     let e : Emul := { s.axis[(2 : Ax)].emul with cfg := c, run := true, acc := 0, out := 0, wait := [], lastX := none }
     bit s.axis[(2 : Ax)].emul.cfg 0 = false ∧ emulPinsOk c = true ∧ (emulChs { s.axis[(2 : Ax)] with emul := e }).all (emulFree s) = true ∧ s.axis[(2 : Ax)].emul.wait = []) ∧
    emulPinsOk 1 = false ∧
    (let s := onCh (fun c => { c with frz := true }) (onAx (fun a => { a with emul := { a.emul with wait := [⟨(now + 4) * 32 + 31, (now + 4) * 32, true⟩] } }) axis)
     s.axis[(2 : Ax)].emul.wait = ⟨(now + 4) * 32 + 31, (now + 4) * 32, true⟩ :: [] ∧ ((now + 4) * 32 + 31) / 32 - 4 ≤ s.tick ∧ s.ch[(1 : Ch)].frz = true) := by decide +kernel
/-- Axis 2 moves fast enough that a prediction stands. -/
def moving : State := onAx (fun a => { a with spd := { a.spd with dp := 2, dt := 100000 } }) axis
theorem test_PositionCommit :
    headOf 2 1 moving = none ∧
    (∀ x ∈ [(600, false), (100000, true)], let s := withPos [posEv x.1] moving
      headOf 2 1 s = some (posEv x.1) ∧ (posEv x.1).arr s.tick = some ((now + x.1) * 32) ∧ s.axis[(2 : Ax)].held s.tick = false ∧ s.ch[(1 : Ch)].aborted = false ∧ s.pwr.mode = 0 ∧
        decide (s.tick * 32 + fld s.axis[(2 : Ax)].predCfg 0 16 * 32 < (now + x.1) * 32 - s.ch[(1 : Ch)].adv.for_ ((now + x.1) * 32)) = x.2 ∧ withHead 2 (posEv x.1) s = [(posEv x.1).ev]) ∧
    (let s := withPos [posEv 600] moving
     s.tick * 32 + fld s.axis[(2 : Ax)].predCfg 0 16 * 16 ≤ (now + 600) * 32 ∧ fits (podEvs 0 s) 1 3 (now + 600 - 4) = true) ∧
    ({ posEv 600 with pred := none } : PosEv).arr now = none ∧ axis.axis[(2 : Ax)].held now = true := by decide +kernel

/-! ### The calendar, pods, rings and the store -/

/-- Mailbox 3 hands records to the calendar engine. -/
def handing (r : Rec) (done total : Nat) (s : State) : State :=
  onMbx 3 (fun x => { x with cal := { recs := [recBits r], total := total, done := done, first := 96, last := 96, active := true } }) (runs 3 0x20 [] s)

theorem test_CalendarRecords_commands :
    (∀ op ∈ [0x20, 0x21], ∀ body : List Byte, CmdRuns 3 op 9 body (runs 3 op body live)) ∧ live.mbx[(3 : Mbx)].cal.active = false ∧
    u32 0 (words [0, 0, 0, 0]) = 0 ∧ u32 0 (words [1, 0, 0, 0]) ≠ 0 ∧ u64 0 (words [8, 0, 1, 0]) % 16 ≠ 0 ∧
    (u64 0 (words [16, 0, 0, 0]) % 16 = 0 ∧ u32 8 (words [16, 0, 0, 0]) = 0) ∧ 16777216 < u32 8 (words [16, 0, 16777217, 0]) ∧
    (u32 8 (words [16, 0, 16777216, 0]) ≠ 0 ∧ u32 8 (words [16, 0, 16777216, 0]) ≤ 16777216) :=
  ⟨fun op _ body => runs_ok op body live rfl rfl, by decide +kernel⟩
theorem test_CalendarRecords_engine :
    (let s := handing (recAt 9000) 2 3 live
     s.mbx[(3 : Mbx)].phase = .running 0x20 9 4096 [] ∧ s.mbx[(3 : Mbx)].cal.recs = recBits (recAt 9000) :: [] ∧ s.mbx[(3 : Mbx)].cal.active = true ∧ s.cal.lastAcc = none ∧ s.pwr.mode = 0 ∧
       s.fw.restarting = false ∧ recOf (recBits (recAt 9000)) = recAt 9000 ∧ judgeRec (recAt 9000) s = .take) ∧
    ((9 : Nat) ≤ ({ recAt 9000 with dom := 9 } : Rec).dom.toNat) ∧
    (let r : Rec := { recAt 9000 with dom := 8, due := 2 ^ 32 }
     r.dom.toNat < 9 ∧ r.dom ≠ 0 ∧ 2 ^ 32 ≤ r.due) ∧
    judgeRec { recAt 9000 with act := 0xB } live = .refuse 0x13 ∧
    judgeRec (recAt 300) (onPod (fun q => { q with fast := (List.range 32).map (fun i => evAt (1000 + 50 * i) (100 + i)) }) live) = .wait := by decide +kernel
theorem test_CalendarRecords_places :
    (∀ x ∈ [(7999, true), (8000, false)], (timeEv (recAt x.1) live).late = x.2 ∧ judgeRec (recAt x.1) live = .take) ∧
    (toFast (timeEv (recAt 9000) live) live = false ∧ (now + 9000) / 512 ≤ now / 512 + 65535) ∧
    (toFast (timeEv (recAt 33554432) live) live = false ∧ now / 512 + 65535 < (now + 33554432) / 512 ∧ judgeRec (recAt 33554432) live = .take) ∧
    toFast (timeEv (recAt 300) live) live = true ∧
    (let r : Rec := { recAt 0 with dom := 3, due := 0x50 }
     r.dom ≠ 0 ∧ axis.axis[r.axis].isStopped now = false ∧ posClass axis.axis[r.axis].rev axis.axis[r.axis].pos r.target = .ahead ∧ judgeRec r axis = .take ∧
       (onAx (fun a => { a with cfg := 0 }) axis).axis[r.axis].isStopped now = true) := by decide +kernel
theorem test_CalendarCommands_bodies :
    (∀ op ∈ [0x22, 0x23, 0x24, 0x25], ∀ body : List Byte, CmdRuns 3 op 9 body (runs 3 op body live)) ∧
    (∀ x ∈ [(5120, 8, true), (5119, 8, false), (400000, 16, true), (400001, 16, false), (9216, 16, true), (9215, 16, false), (8704, 17, false), (5120, 0, false)],
      (let h := u32 0 (words [x.1, x.2.1])
       let w := u32 4 (words [x.1, x.2.1])
       decide (1 ≤ w ∧ w ≤ 16 ∧ (w + 2) * 512 ≤ h ∧ 5120 ≤ h ∧ h ≤ 400000) = x.2.2)) ∧
    (1 < u32 0 (words [2, 0]) ∧ u32 0 (words [1, 2]) ≤ 1 ∧ 1 < u32 4 (words [1, 2]) ∧ u32 4 (words [1, 1]) ≤ 1 ∧ calEmpty live = true ∧
      calEmpty { live with cal := { live.cal with wheel := [evAt 9000 5] } } = false) ∧
    (5 < u32 0 (words [6]) ∧ u32 0 (words [3, 128]) = 3 ∧ u32 0 (words [2, 127, 0, 0, 5, 0, 5, 0]) = 2 ∧ u32 4 (words [2, 127]) ≤ 127 ∧
      u64 24 (words [2, 127, 0, 0, 5, 0, 5, 0]) ≤ u64 16 (words [2, 127, 0, 0, 5, 0, 5, 0]) ∧ u64 16 (words [2, 1, 0, 0, 5, 0, 6, 0]) < u64 24 (words [2, 1, 0, 0, 5, 0, 6, 0])) ∧
    (7 < u32 0 (words [8, 8]) ∧ u32 4 (words [2, 7]) < 8 ∧ 20 < u32 4 (words [2, 21]) ∧
      (u32 0 (words [7, 8]) ≤ 7 ∧ 8 ≤ u32 4 (words [7, 8]) ∧ u32 4 (words [7, 8]) ≤ 20 ∧ ringPlaceOk 7 0x2000000 4096 live = false ∧ ringPlaceOk 7 0x2200000 4096 live = true ∧
        live.pod[(7 : Pod)].job = none ∧ u32 4 (words [7, 0]) = 0)) :=
  ⟨fun op _ body => runs_ok op body live rfl rfl, by decide +kernel⟩
theorem test_CalendarCommands_horizon : live.cal.pendHW = [] ∧
    ({ live with cal := { live.cal with pendHW := [(now - 5, 6000, 4), (now, 7000, 9)] } } : State).cal.pendHW = [(now - 5, 6000, 4)] ++ [(now, 7000, 9)] ∧ now ≤ live.tick := by decide +kernel
/-- Events of three buckets, two of them in the overflow area. -/
def filed : State := { live with cal := { live.cal with wheel := [evAt 2000 5, evAt 60000 7], ovfl := [evAt 33554432 8, evAt 99999999 9], bucket := now / 512 - 1 } }
theorem test_StagingAndArming_staging :
    (live.pwr.mode = 0 ∧ filed.cal.bucket < filed.tick / 512) ∧ (onPwr (fun p => { p with mode := 1 }) filed).pwr.mode ≠ 0 ∧ filed.tick / 512 ≤ (after .bucketBoundary filed).cal.bucket ∧
    (evAt 2000 5 ∈ filed.cal.wheel ∧ bucketOf ((evAt 2000 5).refresh filed).ball ≤ filed.tick / 512 + filed.cal.win - 1) := by decide +kernel
theorem test_StagingAndArming_arming :
    (let e : Ev := { evAt 300 5 with late := true }
     let s := onPod (fun q => { q with fast := [e] }) live
     s.pod[(0 : Pod)].armedAt < s.tick + 1 ∧ (sortBy (urgentBefore (s.pod[(0 : Pod)].fast ++ s.pod[(0 : Pod)].commits)) (s.pod[(0 : Pod)].fast ++ s.pod[(0 : Pod)].commits)).head? = some e ∧
       podOf e.rec_.ch = 0 ∧ s.ch[e.rec_.ch].aborted = false ∧ freeUnit e.rec_.ch s = some 0 ∧ (onCh (fun c => { c with aborted := true }) s).ch[e.rec_.ch].aborted = true) ∧
    (let s := onPod (fun q => { q with staging := [evAt 300 5] }) live
     stagedPick 0 s = some (evAt 300 5) ∧ podOf (evAt 300 5).rec_.ch = 0 ∧ freeUnit 1 s = some 0 ∧ s.tick + 1 < (evAt 300 5).actionTick ∧ (evAt 300 5).actionTick < s.tick + 2 ^ 47) := by decide +kernel
/-- Pod 0 has the outcomes l, and a ring. -/
def outcomes (l : List Outcome) (f : Results → Results) : State := onPod (fun q => { q with matched := l, res := f q.res }) live
theorem test_StagingAndArming_retire :
    (let o : Outcome := { ev := evAt 0 5, x := (now - 3) * 32, missed := none }
     let q : Outcome := { o with ev := { o.ev with rec_ := { o.ev.rec_ with res := false }, ball := o.x } }
     (outcomes [o] id).pod[(0 : Pod)].matched.filter (fun o => decide (o.actLt / 32 ≤ now)) = [o] ∧ o.wanted = true ∧ q.wanted = false ∧
       (outcomes [q] id).pod[(0 : Pod)].matched.filter (fun o => decide (o.actLt / 32 ≤ now)) = [q] ∧
       (∀ rd ∈ [(45, true), (44, false)], let r := (outcomes [o] (fun r => { r with log2 := 8, base := 0x2200000, wr := 300, rd := BitVec.ofNat 32 rd.1 })).pod[(0 : Pod)].res
         r.base.getLsbD 63 = false ∧ r.log2 ≠ 0 ∧ (decide ((r.wr - r.rd).toNat < 2 ^ r.log2) = rd.2) ∧ r.backlog = [] ∧ r.backlog.length + r.reserved < 4096)) ∧
    (let s := onCh (fun c => { c with aborted := true }) { live with cal := { live.cal with wheel := [evAt 0 5] } }
     s.cal.wheel = [evAt 0 5] ∧ (evAt 0 5).rec_.dom = 0 ∧ podOf (evAt 0 5).rec_.ch = 0 ∧ s.ch[(1 : Ch)].aborted = true ∧ (evAt 0 5).rec_.due / 32 ≤ s.tick ∧ s.cal.ovfl = [] ∧ s.cal.missed = [] ∧
       s.pod[(0 : Pod)].staging = [] ∧ s.pod[(0 : Pod)].spill = [] ∧ s.pod[(0 : Pod)].fast = [] ∧ s.pod[(0 : Pod)].commits = [] ∧ s.pod[(0 : Pod)].matched = [] ∧ s.pod[(0 : Pod)].res.log2 = 0 ∧
       s.pod[(0 : Pod)].res.backlog.length + s.pod[(0 : Pod)].res.reserved < 4096) := by decide +kernel
/-- A Pip whose FIFOs the pod serves, with rings of 16 words. -/
def fed : State := onPod (fun q => { q with feeder := q.feeder.set 1 { q.feeder[1] with feedBase := 0x2000100, drnBase := 0x2000200, size := 0x404, feedWr := 6, feedRd := 5, drnWr := 24, drnRd := 9 } })
  (onPip (fun p => { p with ctrl := p.ctrl ||| 0x60000, r := { p.r with rxf := [0xABCD] } }) chan)
theorem test_PodRoutines :
    (onPod (fun q => { q with plines := [3, 255] }) live).pod[(0 : Pod)].plines = 3 :: [255] ∧ live.pod[(0 : Pod)].plines = [] ∧
    (let s := runs 3 0x25 [] (onPod (fun q => { q with job := some (.ring 3 9 0x2300000) }) live)
     s.pod[(0 : Pod)].job = some (.ring 3 9 0x2300000) ∧ s.mbx[(3 : Mbx)].phase = .running 0x25 9 4096 [] ∧ s.pod[(0 : Pod)].res.backlog = [] ∧ s.pod[(0 : Pod)].res.gapNow = 0) ∧
    (let e : CapE := { lt := 0x123456789, cnt := 7, flags := 0x21 }
     let s := onPod (fun q => { q with capQ := [(1, e)] }) live
     (∀ m : Ch, podOf m = 0 → s.ch[m].cap.waiting = []) ∧ s.pod[(0 : Pod)].capQ = [(1, e)] ∧ podOf 1 = 0 ∧ (s.store.ring[(0 : Pod)].wr - s.store.ring[(0 : Pod)].rd).toNat < 2 ^ fld s.store.ring[(0 : Pod)].size 0 5 ∧
       (let t := onStore (fun x => { x with ring := x.ring.set 0 { x.ring[0] with wr := 4105, rd := 9 } }) s
        2 ^ fld t.store.ring[(0 : Pod)].size 0 5 = (t.store.ring[(0 : Pod)].wr - t.store.ring[(0 : Pod)].rd).toNat)) ∧
    (let p := (fed.pipNow 1).ch[(1 : Ch)].pip
     let d := feederOf 1 fed
     fed.ch[(1 : Ch)].aborted = false ∧ fed.ch[(1 : Ch)].frz = false ∧ p.rxPod = true ∧ p.r.rxf = [0xABCD] ∧ d.drnLog ≠ 0 ∧ (d.drnWr - d.drnRd).toNat < 2 ^ d.drnLog ∧ p.txPod = true ∧ p.r.txf.length < 4 ∧
       d.feedLog ≠ 0 ∧ d.feedWr = d.feedRd + 1 ∧ fed.store.isBad (d.drnBase.toNat + 4 * (d.drnWr.toNat % 2 ^ d.drnLog)) = false ∧
       fed.store.isBad (d.feedBase.toNat + 4 * (d.feedRd.toNat % 2 ^ d.feedLog)) = false) ∧
    (onCh (fun c => { c with aborted := true }) fed).ch[(1 : Ch)].aborted = true := by decide +kernel
theorem test_PodRoutines_steps :
    live.pod[(0 : Pod)].substReq = none ∧ (onPod (fun q => { q with substReq := some .quarantineTest }) live).pod[(0 : Pod)].substReq = some .quarantineTest ∧
    (let s := onHealth (fun h => { h with shadowEn := true }) (onPod (fun q => { q with substReq := some .shadowStart }) chan)
     s.pod[(0 : Pod)].substReq = some .shadowStart ∧ s.health.pod[(0 : Pod)].shadowEn = true ∧ s.health.pod[(0 : Pod)].buoy ≠ 31 ∧ nextShadow 0 s = some 1) ∧
    (let s := onHealth (fun h => { h with suspect := some 4 }) (onPod (fun q => { q with substReq := some .buoyReturn }) live)
     s.pod[(0 : Pod)].substReq = some .buoyReturn ∧ s.health.pod[(0 : Pod)].suspect = some 4) ∧
    (∀ d ∈ [1, 2], let s := onHealth (fun h => { h with shadowing := true, shadowCh := 1, takeover := some (now + d, true) }) (onPod (fun q => { q with substReq := some .takeover }) live)
      s.pod[(0 : Pod)].substReq = some .takeover ∧ s.health.pod[(0 : Pod)].takeover = some (now + d, true) ∧ decide (now + d ≤ s.tick + 1) = decide (d = 1) ∧ s.ch[(1 : Ch)].aborted = false ∧
        s.ch[(1 : Ch)].frz = false ∧ s.fw.keeperUp = true) := by decide +kernel
theorem test_RingPointers :
    (capIdle 0 live = true ∧ 8 ≤ fld (8 : W) 0 5 ∧ fld (16 : W) 0 5 ≤ 16 ∧ capPlaceOk live.store.ring[(0 : Pod)].base.toNat 8 = true ∧ capPlaceOk 0x2100000 16 = true ∧
      capPlaceOk ((0x2070000 : W) &&& 0x3FFFFF0).toNat (fld live.store.ring[(0 : Pod)].size 0 5) = true ∧
      capPlaceOk ((0x2070010 : W) &&& 0x3FFFFF0).toNat (fld live.store.ring[(0 : Pod)].size 0 5) = false) ∧
    (let s := onStore (fun x => { x with ring := x.ring.set 0 { x.ring[0] with wr := 9, rd := 5 } }) chan
     capIdle 0 s = false ∧ fld (9 : W) 0 5 ≠ fld s.store.ring[(0 : Pod)].size 0 5 ∧ ((9 : W) - 5).toNat ≤ (s.store.ring[(0 : Pod)].wr - s.store.ring[(0 : Pod)].rd).toNat ∧
       (s.store.ring[(0 : Pod)].wr - s.store.ring[(0 : Pod)].rd).toNat < ((10 : W) - 5).toNat) ∧
    (live.pod[(0 : Pod)].res.gapNow = 0 ∧ live.pod[(0 : Pod)].res.log2 = 0) ∧
    (let x : ResRec := { actLt := 5, word := 6, half := 7 }
     let r := (outcomes [] (fun r => { r with log2 := 8, base := 0x2300000, wr := 259, rd := 4, backlog := [x] })).pod[(0 : Pod)].res
     r.gapNow = 0 ∧ r.backlog = [x] ∧ r.log2 ≠ 0 ∧ (r.wr - r.rd).toNat < 2 ^ r.log2 ∧ r.base.getLsbD 63 = false) ∧
    (let r := (outcomes [] (fun r => { r with gapNow := 9 })).pod[(0 : Pod)].res
     r.gapNow ≠ 0 ∧ r.log2 = 0 ∧ r.backlog.length + r.reserved < 4096) := by decide +kernel
/-- A request for the word at the start of the host area, in bank 80. -/
def req (m : Fin 25) (op : StoreOp) (e : Ecc) : StoreReq := { master := m, offset := 0x2800000, op := op, ecc := e }
def hostBank : Fin 96 := ⟨bankOf 0x2800000 % 96, by omega⟩
theorem test_StoreAccesses :
    (∀ op ∈ [StoreOp.read, .write (List.replicate 16 1), .partialWrite (List.replicate 16 none)], ∀ e ∈ [Ecc.clean, .single, .double],
      reqOk hostBank live (req 22 op e) = true ∧ reqOk hostBank live (req 9 op e) = true) ∧ bankBusy hostBank.val live = false ∧ 9 ≤ (9 : Fin 25).val ∧ (9 : Fin 25) < 22 ∧
    live.store.arb[(9 : Fin 25)].guarded = none ∧ live.store.arb[(22 : Fin 25)].guarded = none ∧
    bankBusy hostBank.val (onStore (fun x => { x with busy := [(hostBank.val, now)] }) live) = true ∧
    (reaches .pcie live = true ∧ live.store.held = [] ∧ live.store.bad = [] ∧ closedSegs (winOffsets (.read 0x280FFFE 4)) live = [] ∧ closedSegs (winOffsets (.write 0x280FFFE [some 1, none, some 2])) live = [] ∧
      winWrites 0x280FFFF live = false ∧ winWrites 0x2810000 live = true ∧
      closedSegs (winOffsets (.read 0x2800000 4)) (onStore (fun x => { x with retained := 0x20 }) live) ≠ []) := by decide +kernel
theorem test_Retention_commands :
    (∀ body : List Byte, CmdRuns 3 0x58 9 body (runs 3 0x58 body live)) ∧ live.store.jobs.any (fun j => j.b == 3) = false ∧ 64 ≤ u32 0 (words [64, 0]) ∧ u32 0 (words [63, 64]) < 64 ∧
    64 ≤ u32 4 (words [63, 64]) ∧ (∀ x ∈ [(5, true), (4, false)], u32 0 (words [2 ^ x.1, 0]) = 2 ^ x.1 ∧ segOpen x.1 live = true) ∧
    (let s := runs 3 0x58 (words [32, 0]) live
     retainRefused 5 s = true ∧ retainRefused 5 (onMbx 3 (fun x => { x with postHi := 0x80000000 }) s) = false) :=
  ⟨fun body => runs_ok 0x58 body live rfl rfl, by decide +kernel⟩
theorem test_Retention_waits :
    (let x := (onStore (fun x => { x with transit := 0x20, jobs := [{ b := 3, wait := 0x20, refused := 0 }] }) (runs 3 0x58 [] live)).store
     x.transit.getLsbD (5 : Seg).val = true ∧ x.retained.getLsbD (5 : Seg).val = false ∧ x.waking.getLsbD (5 : Seg).val = false ∧ x.jobs = [{ b := 3, wait := BitVec.ofNat 6 (2 ^ (5 : Seg).val), refused := 0 }]) ∧
    (live.store.transit.getLsbD (5 : Seg).val = false ∧ (17 : Nat) ≤ (17 : Fin 25).val ∧ 2 ≤ (2 : Seg).val ∧ segOpen 5 live = true ∧ segOpen 5 (onStore (fun x => { x with retained := 0x20 }) live) = false) ∧
    (let x := (onStore (fun x => { x with transit := 0x20, retained := 0x20, waking := 0x20, held := [.bar2Access (.read 0x2FFFFFB 5)] }) live).store
     x.transit.getLsbD (5 : Seg).val = true ∧ x.retained.getLsbD (5 : Seg).val = true ∧ x.waking.getLsbD (5 : Seg).val = true ∧ x.jobs = [] ∧ x.heldQ = [] ∧ x.held = [.bar2Access (.read 0x2FFFFFB 5)] ∧
       (∀ i < 5, segOf (0x2FFFFFB + i) = (5 : Seg).val) ∧ x.bad = []) ∧
    (onStore (fun x => { x with scrubbing := true }) live).store.scrubbing = true ∧
    (live.store.scrubbing = false ∧ live.store.bad = [] ∧ 0x2FFFFF0 < 0x3000000 ∧ segOpen (segOf 0x2FFFFF0) live = true ∧ isCalSeg (segOf 0x2FFFFF0) live = false) := by decide +kernel

/-! ### Interrupts, the host link and mailboxes -/

/-- Sources 4 and 5 of channel 1 are pending, for the Watch cores and the Keeper; the target of the host takes messages. -/
def irqs (f : Eic → Eic) : State :=
  { live with eic := f { live.eic with pend := 0x30, src := (live.eic.src.set 5 0x20105).set 4 0x30F03 }, pcie := { live.pcie with msix := true } }
/-- Group 0 with a configuration and a hold-off. -/
def grp0 (w : W) (h : Option Nat) (e : Eic) : Eic := { e with grp := e.grp.set 0 { cfg := w, hold := h } }

theorem test_InterruptSources :
    (let s := { irqs id with abort := { live.abort with flags := ⟨1, 0, 0⟩ } }
     line s 768 = true ∧ s.eic.prev.getLsbD 768 = false ∧ s.eic.pend.getLsbD 768 = false ∧ line s 5 = false ∧
       ({ s with eic := { s.eic with pend := BitVec.ofNat 1024 (2 ^ 768) } } : State).eic.pend.getLsbD 768 = true) ∧
    (∀ m ∈ [Master.keeper, .watch1, .pcie], ∀ g ∈ [(0 : Grp), 31], served m (.eicPsetWrite m g 0x30) live = true ∧ served m (.eicPendClear m g 0x30) live = true ∧
      served m (.srcCfgWrite m 5 0x20105) live = true ∧ served m (.groupLock m g) live = true) ∧
    (bit (irqs (grp0 2 none)).eic.grp[(0 : Grp)].cfg 1 = true ∧ Master.watch1 ≠ .keeper ∧ bit live.eic.grp[(0 : Grp)].cfg 1 = false ∧ Master.watch1.watch = some 0 ∧ Master.pcie.watch = none) ∧
    (holding 0 (irqs (grp0 0 (some (now + 1)))) = true ∧ holding 0 (irqs (grp0 0 (some now))) = false) := by decide +kernel
theorem test_InterruptClaims :
    reaches .keeper live = true ∧ reaches .debug live = true ∧ Master.keeper.idx.val = (0 : Tgt).val ∧ (Master.debug).idx.val ≠ (0 : Tgt).val ∧
    offerTo 0 [] (irqs (grp0 0x10000 none)).deliver = some 5 ∧ fld (irqs (grp0 0x10000 none)).eic.grp[grpOf 5].cfg 16 16 = 1 ∧ (irqs id).eic.stamp ≠ (irqs id).tick ∧
    offerTo 0 [] (irqs (fun e => { e with pend := 0 })).deliver = none ∧ served .keeper (.eoi .keeper 0) live = true ∧ served .debug (.eoi .debug 0) live = true ∧
    (let e := (irqs (fun e => { e with tgt := e.tgt.set 0 { stack := [5, 2] } })).eic
     e.tgt[(0 : Tgt)].stack = 5 :: [2] ∧ e.tgt[(1 : Tgt)].stack = []) ∧
    (let s := irqs (fun e => { e with pba := 4, tgt := e.tgt.set 5 { offered := some 5 } })
     bit s.eic.pba (2 : Fin 32).val = true ∧ s.eic.tgt[(5 : Tgt)].offered = some (5 : Src).val ∧ fld s.eic.src[(5 : Src)] 16 5 = (2 : Fin 32).val ∧ s.pcie.msix = true ∧ bit s.eic.pba (31 : Fin 32).val = false) := by decide +kernel
/-- The link's state is changed. -/
def onPcie (f : Pcie → Pcie) (s : State) : State := { s with pcie := f s.pcie }
theorem test_PcieFunction :
    (live.pcie.perst = false ∧ live.boot.held = false ∧ State.reset.pcie.perst = true ∧ State.reset.boot.held = true ∧ live.pcie.up = true ∧ State.reset.pcie.up = false) ∧
    (let s := { live with fw := {} }
     cfgRetried s = true ∧ cfgRetried live = false ∧ (onPcie (fun p => { p with since := 5 }) { s with time := { s.time with lt := (360000005) * 32 } }).pcie.up = true ∧
       cfgRetried (onPcie (fun p => { p with since := 5 }) { s with time := { s.time with lt := 360000005 * 32 } }) = false ∧
       cfgRetried (onPcie (fun p => { p with since := 5 }) { s with time := { s.time with lt := 360000004 * 32 } }) = true) ∧
    live.pwr.mode = 0 ∧ (onPwr (fun p => { p with mode := 1 }) live).pwr.mode ≠ 0 := by decide +kernel
/-- A block that may master the bus, with a command that fetches records and one that fetches its block. -/
def fetching (got : List Byte) : State :=
  onMbx 4 (fun x => { x with phase := .fetching got, bell := 2 })
    (onMbx 3 (fun x => { x with cal := { total := 5, done := 1, active := true, dma := true }, bell := 1 }) (runs 3 0x21 [] (onPcie (fun p => { p with bme := true }) live)))
theorem test_DmaAndQspi :
    (dmaReads live = false ∧ 2 ≤ (2 : Fin 4).val ∧ dmaReads (fetching []) = true ∧ dmaOwner fetchesRecs (fetching []) = some 3 ∧ (fetching []).mbx[cmdMbx 3].phase = .running 0x21 9 4096 []) ∧
    (dmaOwner fetchesBlock (fetching [7]) = some 4 ∧ (fetching [7]).mbx[cmdMbx 4].phase = .fetching [7] ∧ ([7] ++ List.replicate 30 (0 : Byte)).length < 32 ∧
      (let h : List Byte := words [0x01, 9, 4, 64, 0, 0, 0, 0]
       32 + bodyLen (h ++ words [5]) (2 ^ 63) ≤ (h ++ words [5]).length ∧ 32 ≤ (h ++ words [5]).length)) ∧
    ((0x05 : Byte) ∈ qspiOps ∧ (0x9F : Byte) ∉ qspiOps) ∧
    (inWindow 0x800000 = true ∧ inWindow 0x7FFFFF = false ∧ closedSegs (pageOffsets 0xFFFFFF 2 live) live = [] ∧ live.store.bad = [] ∧ live.store.heldQ = [] ∧
      closedSegs (pageOffsets 0xFFFFFF 2 live) (onStore (fun x => { x with retained := 0x20 }) live) ≠ [] ∧ live.store.page.toNat = 5) ∧
    (onPwr (fun p => { p with mode := 2 }) live).pwr.mode ≠ 0 := by decide +kernel
theorem test_MailboxRegisters :
    (Master.watch1 ∈ [Master.pcie, .watch1] ∧ (∀ k ∈ [Master.pcie, .watch1], reaches k live = true ∧ Master.watch1.idx.val + 1 ≤ k.idx.val + 1) ∧ live.mbx[(3 : Mbx)].owner = 0) ∧
    (∀ m ∈ [Master.keeper, .pcie, .qspi], reaches m live = true ∧ served m (.mbLockRelease m 3) live = true ∧ (∀ hi : Bool, served m (.mbPostWrite m 3 hi 1) live = true) ∧
      served m (.mbDoorbell m 3 1) live = true ∧ served m (.mbNoticeAck m 7 1) live = true) ∧
    (∀ busy : Bool, let x := (onMbx 3 (fun x => { x with owner := 6, busy := busy }) live).mbx[(3 : Mbx)]
      x.owner = Master.pcie.idx.val + 1 ∧ x.owner ≠ Master.qspi.idx.val + 1 ∧ Master.qspi ≠ .keeper ∧ x.busy = busy) ∧
    (live.mbx[noticeMbx 7].shown = none ∧ (onMbx 31 (fun x => { x with shown := some ⟨7, 5, [1]⟩ }) live).mbx[noticeMbx 7].shown = some ⟨7, 5, [1]⟩) := by decide +kernel
/-- Mailbox 3 points at a block in the last 4 KiB of the store, with a header whose words are l. -/
def block (l : List Nat) (f : Mailbox → Mailbox := id) : State :=
  onMbx 3 (fun x => f { x with owner := 6, busy := true, poster := 6, phase := .posted, postLo := 0x2FFF000, bell := 4 }) (onStore (fun x => { x with mem := memWrites 0x2FFF000 (words l) [] }) live)
theorem test_CommandBlocks_start :
    (let s := block [0x01, 9, 0, 64]
     let x := s.mbx[cmdMbx 3]
     x.phase = .posted ∧ fwPicks s = true ∧ (∀ c : CmdMbx, c ≠ 3 → s.mbx[cmdMbx c].phase = .posted → x.bell < s.mbx[cmdMbx c].bell) ∧ ptrOk x s = true ∧ bit x.postHi 31 = false ∧ s.store.bad = [] ∧
       areaEnd x.ptr s = some 0x3000000 ∧ (∀ g : Seg, segOf x.ptr ≤ g.val → g.val ≤ segOf (0x3000000 - 1) → segOpen g.val s = true)) ∧
    ptrOk ((block [] (fun x => { x with postLo := 0x2FFF010 })).mbx[cmdMbx 3]) live = false ∧
    (let x := (block [] (fun x => { x with postHi := 0x80000000 })).mbx[cmdMbx 3]
     ptrOk x live = true ∧ bit x.postHi 31 = true) ∧ live.mbx[cmdMbx 3].phase ≠ .posted ∧ fwPicks State.reset = false := by decide +kernel
theorem test_CommandBlocks_judge :
    (let h := words [0x01, 0xFFFFFFFF, 0, 64, 0, 0, 0, 0]
     (List.range 32).map (fun i => memRead (0x2FFF000 + i) (block [0x01, 0xFFFFFFFF, 0, 64]).store.mem) = h ∧ leAt 4 4 h = 0xFFFFFFFF) ∧
    (let h := words [0x01, 9, 0, 64, 0, 0, 0, 0]
     BitVec.ofNat 32 (leAt 4 4 h) ≠ (0xFFFFFFFF : W) ∧ BitVec.ofNat 32 (leAt 4 4 h) = (block [] (fun x => { x with lastSeq := 9 })).mbx[cmdMbx 3].lastSeq ∧
       BitVec.ofNat 32 (leAt 4 4 h) ≠ (block []).mbx[cmdMbx 3].lastSeq ∧ cmdShape (leAt 0 2 h) [] = some (0, 64) ∧ leAt 2 2 h % 32768 = 0 ∧ leAt 8 4 h ≤ 1048576 ∧ leAt 8 4 h ≤ leAt 12 4 h ∧
       0x2FFF000 + 32 + leAt 12 4 h ≤ 0x3000000) ∧
    (leAt 2 2 (words [0x10001, 9]) % 32768 ≠ 0 ∧ leAt 2 2 (words [0x80000001, 9]) % 32768 = 0 ∧ cmdShape (leAt 0 2 (words [0xFFFF])) [] = none) ∧
    0x2FFF000 + 32 + leAt 12 4 (words [0x01, 9, 0, 4064]) ≤ 0x3000000 := by decide +kernel
theorem test_CommandBlocks_completion :
    (∀ hi ∈ [(0 : Nat), 0x80000000], let s := block [] (fun x => { x with postHi := BitVec.ofNat 32 hi, phase := .answered (some 9) true 5 4 (List.replicate 4064 1) })
      fwRuns s = true ∧ s.pwr.mode = 0 ∧ s.mbx[cmdMbx 3].phase = .answered (some 9) true 5 4 (List.replicate 4064 1) ∧ s.mbx[cmdMbx 3].ptr % 32 = 0 ∧
        (hi = 0 → areaEnd s.mbx[cmdMbx 3].ptr s = some 0x3000000 ∧ s.mbx[cmdMbx 3].ptr + 32 + 4064 ≤ 0x3000000) ∧ bit s.mbx[cmdMbx 3].postHi 31 = decide (hi ≠ 0)) ∧
    (let s := onStore (fun x => { x with retained := 0x20 }) (block [])
     winReads s.mbx[cmdMbx 3].ptr s = true ∧ segOpen (segOf s.mbx[cmdMbx 3].ptr) s = false) ∧
    (dmaReady (fetching []) = true ∧ (block []).mbx[cmdMbx 3].replyLost = false ∧ dmaReady live = false) ∧
    (let s := block [] (fun x => { x with phase := .repeated 9, lastSeq := 9 })
     s.mbx[cmdMbx 3].phase = .repeated 9 ∧ ∀ i : Fin 32, segOpen (segOf (s.mbx[cmdMbx 3].ptr + i.val)) s = true) ∧ (onPwr (fun p => { p with mode := 1 }) live).pwr.mode ≠ 0 := by decide +kernel
theorem test_CommandBlocks_notices :
    (∀ i ∈ [(0 : Fin 8), 7], let n : Notice := ⟨7, 5, [1]⟩
      let x := (onMbx (noticeMbx i) (fun x => { x with queue := [n, n], lost := 3 }) live).mbx[noticeMbx i]
      x.queue = n :: [n] ∧ x.shown = none ∧ x.owner = 0 ∧ noticeReady i live = true ∧ segOpen 5 live = true) ∧ live.mbx[noticeMbx 0].queue = [] := by decide +kernel

/-! ### The commands of the service firmware -/

/-- Axis 3 reads a serial sensor. -/
def sensor : State := { live with axis := live.axis.set 3 { live.axis[3] with cfg := 0x185 } }
/-- ¬ CmdRuns, of a mailbox that runs nothing. -/
theorem test_QueryCommands_idle : ∀ op ∈ [0, 1, 2, 0x11, 0x52], ∀ q : W, ∀ c : List Byte, ¬ CmdRuns 3 op q c live := by
  intro op _ q c h
  obtain ⟨⟨cap, h⟩, _⟩ := h
  have : live.mbx[cmdMbx 3].phase = .idle := by decide +kernel
  rw [this] at h; cases h
theorem test_QueryCommands :
    (∀ op ∈ [0, 1, 2, 0x11, 0x52], ∀ body : List Byte, CmdRuns 3 op 9 body (runs 3 op body live)) ∧ 128 ≤ leAt 0 4 (words [128]) ∧ leAt 0 4 (words [127]) = (127 : Ch).val ∧
    (∀ l ∈ [(257, false), (256, true), (1, true), (0, false)], decide (1 ≤ leAt 12 4 (words [1, 0, 0, l.1]) ∧ leAt 12 4 (words [1, 0, 0, l.1]) ≤ 256) = l.2) ∧ 1 < leAt 0 4 (words [2]) ∧
    ([1, 2] : List Byte).length < leAt 12 4 (words [1, 0, 0, 3]) ∧ leAt 12 4 (words [1, 0, 0, 2]) ≤ ([1, 2] : List Byte).length ∧ 8 ≤ leAt 4 4 (words [0, 8, 0, 1]) ∧ leAt 4 4 (words [0, 7, 0, 1]) = (7 : Ax).val ∧
    (live.axis[(7 : Ax)].en = false ∧ sensor.axis[(3 : Ax)].en = true ∧ 2 ≤ sensor.axis[(3 : Ax)].mode ∧ 16 < leAt 8 4 (words [0, 3, 9, 8]) + leAt 12 4 (words [0, 3, 9, 8]) ∧
      leAt 8 4 (words [0, 3, 8, 8]) + leAt 12 4 (words [0, 3, 8, 8]) ≤ 16) :=
  ⟨fun op _ body => runs_ok op body live rfl rfl, by decide +kernel⟩
theorem test_ConfigCommands_pairs :
    (∀ op ∈ [0x10, 0x30, 0x31, 0x38], ∀ body : List Byte, CmdRuns 3 op 9 body (runs 3 op body chan)) ∧
    (128 ≤ leAt 0 4 (words [128]) ∧ leAt 0 4 (words [1, 0]) = (1 : Ch).val ∧ leAt 4 4 (words [1, 0]) = 0 ∧ 64 < leAt 4 4 (words [1, 65]) ∧ leAt 4 4 (words [1, 64]) ≤ 64 ∧ 8 ≤ leAt 0 4 (words [8])) ∧
    (let r : PairRules := { bad := chPairBad 1, acting := chActs, write := chanWrite .watch1 1 }
     judgePairs r 0 [(0x100, 4), (0x400, 0)] chan = some (5, 1) ∧ judgePairs r 0 [(0x020, 7), (0x024, 0x12345)] chan = none ∧
       (leAt 4 4 (words [1, 1, 0x010, 5]) = 1 ∧ leAt 8 4 (words [1, 1, 0x010, 5]) = 0x010) ∧ leAt 4 4 (words [1, 2, 0x020, 7, 0x024, 1]) = 2) ∧
    judgePairs (axRules 2) 0 [(0x018, 0x200), (0x014, 0x9000)] axis = none ∧ judgePairs (axRules 2) 0 [(0x060, 4), (0x020, 0)] axis = some (5, 1) ∧
    judgePairs (emulRules 2) 0 [(0x0C4, 0x10001)] axis = none ∧ judgePairs (emulRules 2) 0 [(0x000, 0)] axis = some (5, 0) ∧
    judgePairs adcRules 0 [(0x014, 6)] live = none ∧ judgePairs adcRules 0 [(0x014, 6), (0x020, 1)] live = some (5, 1) :=
  ⟨fun op _ body => runs_ok op body chan rfl rfl, by decide +kernel⟩
theorem test_ConfigCommands_programs :
    (∀ op ∈ [0x39, 0x18, 0x19], ∀ body : List Byte, CmdRuns 3 op 9 body (runs 3 op body chan)) ∧
    (16 ≤ leAt 0 4 (words [16, 0]) ∧ leAt 0 4 (words [15, 7]) < 16 ∧ leAt 4 4 (words [15, 7]) < 8 ∧ 20 < leAt 4 4 (words [15, 21]) ∧ 8 ≤ leAt 4 4 (words [15, 8]) ∧ leAt 4 4 (words [15, 20]) ≤ 20 ∧
      2 ^ 63 ≤ leAt 8 8 (words [15, 8, 8, 0x80000000]) ∧ leAt 8 8 (words [15, 8, 8, 0x80000000]) % 16 ≠ 0 ∧ leAt 8 8 (words [15, 8, 16, 0x80000000]) % 16 = 0 ∧
      strPlaceOk 0x20FFFF0 (16 * 2 ^ 8) live = false ∧ strPlaceOk 0x2100000 (16 * 2 ^ 8) live = true ∧ strPlaceOk 0x27FF000 (16 * 2 ^ 8) live = true ∧ strPlaceOk 0x27FF010 (16 * 2 ^ 8) live = false ∧ leAt 4 4 (words [15, 0]) = 0) ∧
    (128 ≤ leAt 0 4 (words [128]) ∧ 1 < leAt 4 4 (words [1, 2]) ∧ leAt 4 4 (words [1, 1]) ≤ 1 ∧ 32 < leAt 8 4 (words [1, 1, 31, 2]) + leAt 12 4 (words [1, 1, 31, 2]) ∧
      leAt 8 4 (words [1, 1, 30, 2]) + leAt 12 4 (words [1, 1, 30, 2]) ≤ 32) ∧
    (let p := (chan.pipNow 1).ch[(1 : Ch)].pip
     bit p.ctrl 0 = true ∧ p.bank = (0 == 1) ∧ p.bank ≠ (1 == 1) ∧ p.otherValid = false ∧ ((onPip (fun p => { p with valid1 := true }) chan).pipNow 1).ch[(1 : Ch)].pip.otherValid = true) ∧
    (leAt 0 4 (words [2])).testBit 1 = true ∧ (leAt 0 4 (words [2])).testBit 0 = false :=
  ⟨fun op _ body => runs_ok op body chan rfl rfl, by decide +kernel⟩
/-- A pending event that is staged long after an entry. -/
def farEvent : State := { live with cal := { live.cal with ovfl := [evAt 33554432 8] } }
theorem test_PolicyCommands_policies :
    (∀ op ∈ [0x40, 0x48, 0x49], ∀ body : List Byte, CmdRuns 3 op 9 body (runs 3 op body live)) ∧
    (256 ≤ leAt 0 4 (words [256]) ∧ leAt 0 4 (words [255, 8]) < 256 ∧ 8 ≤ leAt 4 4 (words [255, 8]) ∧ leAt 4 4 (words [255, 7]) < 8 ∧
      (let l := words [3, 7, 0x0FF, 0]
       let m := words [3, 7, 0x10FF, 0]
       (leAt 0 4 l).testBit 0 = true ∧ (leAt 0 4 l).testBit 1 = true ∧ (leAt 0 4 l).testBit 7 = false ∧ leAt 8 1 l = 255 ∧ leAt 9 1 l < 16 ∧ ¬ (leAt 9 1 m < 16 ∨ leAt 9 1 m = 255))) ∧
    (5 ≤ leAt 0 4 (words [5]) ∧ leAt 0 4 (words [4]) = (4 : Fin 5).val ∧ live.sur.pol[(4 : Fin 5)].lock = false ∧ (after (.adaptLock 3) (runs 3 0x49 (words [16, 1]) live)).sur.pol[(4 : Fin 5)].lock = true ∧
      1 < leAt 4 4 (words [4, 2]) ∧ polTargets 0 128 = none ∧ polTargets 2 8 = none ∧ (polTargets 0 127).isSome = true ∧ (polTargets 2 0xFFFFFFFF).isSome = true ∧
      (255 < (polRange 2).1 ∧ (polRange 2).2 < 2147483648 ∧ (256 : Nat) ≤ 2147483647 ∧ polRange 2 = (256, 2147483647))) ∧
    (32 ≤ leAt 0 4 (words [32, 1]) ∧ leAt 0 4 (words [31, 2]) < 32 ∧ 1 < leAt 4 4 (words [31, 2]) ∧ leAt 4 4 (words [31, 1]) ≤ 1 ∧ (31 : Nat).testBit 4 = true) :=
  ⟨fun op _ body => runs_ok op body live rfl rfl, by decide +kernel⟩
theorem test_PolicyCommands_modes :
    (∀ op ∈ [0x50, 0x51, 0x03, 0x60, 0x61], ∀ body : List Byte, CmdRuns 3 op 9 body (runs 3 op body live)) ∧
    (live.sur.jobs = [] ∧ 128 ≤ leAt 0 4 (words [128]) ∧ leAt 0 4 (words [127, 6553]) = (127 : Ch).val ∧ leAt 4 4 (words [127, 6553]) < 6554 ∧ 65535 < leAt 4 4 (words [127, 65536]) ∧
      6554 ≤ leAt 4 4 (words [127, 6554]) ∧ leAt 4 4 (words [127, 65535]) ≤ 65535) ∧
    (leAt 0 4 (words [0x57525353]) ≠ 0x57525354 ∧ leAt 0 4 (words [0x57525354]) = 0x57525354 ∧ live.fw.keeperUp = true) ∧
    (leAt 0 4 (words [3, 0]) ≠ 1 ∧ leAt 0 4 (words [3, 0]) ≠ 2 ∧ sleepRefusal 3 1 false live = none ∧ sleepRefusal 3 2 true farEvent = none ∧ sleepRefusal 3 2 false farEvent = some 1 ∧
      sleepRefusal 3 1 true { live with cal := { live.cal with ovfl := [evAt 9000 8] } } = some 3 ∧ farEvent.cal.ovfl ≠ [] ∧ (leAt 4 4 (words [2, 1])).testBit 0 = true) :=
  ⟨fun op _ body => runs_ok op body live rfl rfl, by decide +kernel⟩

/-! ### Abort, the Watch cores, spares and clocks -/

theorem test_AbortControl :
    (∀ m ∈ [Master.keeper, .watch2, .pcie], served m (.abortGo m 1) live = true ∧ served m (.abortRelease m 2) live = true) ∧ Master.watch2.watch = some 1 ∧ Master.pcie.watch = none ∧
    (bit (3 : W) 0 = bit (3 : W) 1 ∧ bit (1 : W) 0 ≠ bit (1 : W) 1 ∧ fld (1 : W) 4 2 = 0 ∧ fld (0x31 : W) 4 2 = 3 ∧ bit (2 : W) 1 = true ∧ bit (0x25 : W) 0 = true ∧
      (let s := onAbort (fun a => { a with chMask := a.chMask.set 3 0x80000000 }) live
       bit s.abort.chMask[(⟨(127 : Ch).val / 32 % 4, by omega⟩ : Fin 4)] ((127 : Ch).val % 32) = true ∧ bit s.abort.podMask 0 = false)) ∧
    (live.abort.safeLow = false ∧ live.abort.going = 0 ∧ (onAbort (fun a => { a with safeLow := true, going := 1 }) live).abort.safeLow = true ∧
      (onFw (fun f => { f with keeperUp := false }) live).fw.keeperUp = false ∧ live.fw.keeperUp = true) ∧
    (let s := onCh (fun c => { c with aborted := true }) (onAbort (fun a => { a with going := 1, purge := 3, relPend := [(3, 1)] }) live)
     s.abort.going = 0 + 1 ∧ s.abort.relPend = [(3, 1)] ∧ s.ch[(1 : Ch)].aborted = true ∧ has s.abort.purge 1 = true ∧ has (3 : BitVec 128) 1 = true ∧ (onAbort (fun a => { a with relPend := [] }) s).abort.relPend = []) ∧
    State.reset.boot.held = true ∧ live.boot.held = false := by decide +kernel
/-- Much later, in a Watch restart that waits for its delay. -/
def later : State := { live with time := { live.time with lt := 90000000000 } }
def restartIn (f : Firmware → Firmware) : State := onFw (fun x => f { x with restarting := true, state := 2, delay := 40 }) later
theorem test_WatchAndKeeper :
    (∀ k ∈ [(16, true), (15, false)], let s := onFw (fun f => { f with viols := 1 :: List.replicate k.1 89999999999 }) later
      decide (16 ≤ (s.fw.viols.filter (fun x => decide (s.time.lt < x + 12800000000))).length) = k.2 ∧ s.fw.ready = true ∧ s.fw.restarting = false ∧ s.fw.keeperUp = true) ∧
    (live.fw.ready = true ∧ live.fw.restarting = false ∧ live.fw.state = 1 ∧ live.fw.beatMs ≠ live.tick / 400000 ∧ State.reset.fw.ready = false) ∧
    (∀ k ∈ [(2812500000 - 2000000, true), (2812500000 - 1999999, false)], let s := onFw (fun f => { f with lastBeat := f.lastBeat.set 2 k.1 }) later
      decide (s.fw.lastBeat[(2 : Fin 4)] + 2000000 ≤ s.tick) = k.2) ∧
    (∀ d ∈ [none, some 77199999999, some 77200000000], (onFw (fun f => { f with lastDone := d }) later).fw.lastDone = d) ∧
    ((restartIn id).fw.restarting = true ∧ (restartIn id).fw.state = 2 ∧ (restartIn id).fw.digestOk = false ∧ (restartIn id).fw.keeperUp = true) ∧
    (∀ k ∈ [(89488000000, true), (89488000001, false)], let s := restartIn (fun f => { f with delayed := true, rstLt := k.1 })
      s.fw.delayed = true ∧ decide (s.fw.rstLt + s.fw.delay * 12800000 ≤ s.time.lt) = k.2) ∧
    (let s := restartIn (fun f => { f with digestOk := true })
     s.fw.digestOk = true ∧ s.fw.delayed = false) ∧
    (let s := onHealth (fun h => { h with shadowing := true, takeover := some (2812500100, true) }) (restartIn (fun f => { f with keeperUp := false, deferred := [3] }))
     s.fw.keeperUp = false ∧ s.fw.deferred = [3] ∧ s.abort.safeLow = false ∧ s.fw.restarting = true ∧ s.fw.delay ≠ 0 ∧ s.health.pod[(0 : Pod)].takeover = some (2812500100, true)) := by decide +kernel
theorem test_SparesAndShadows :
    (live.health.pod[(0 : Pod)].testing = false ∧ (onHealth (fun h => { h with testing := true }) live).health.pod[(0 : Pod)].testing = true ∧
      (onHealth (fun h => { h with testing := true, suspect := some 3 }) live).health.pod[(0 : Pod)].suspect = some 3 ∧ live.health.pod[(0 : Pod)].suspect = none ∧ live.health.pod[(0 : Pod)].shadowing = false) ∧
    (let h := (onHealth (fun h => { h with shadowing := true, shadowEn := true }) live).health.pod[(0 : Pod)]
     h.shadowing = true ∧ h.takeover = none ∧ h.shadowEn = true ∧ h.buoy ≠ 31 ∧ h.spacing = false ∧ h.autoSubst = false ∧ live.pod[(0 : Pod)].substReq = none) ∧
    live.tick + 640 ≤ now + 640 ∧ now + 400000 ≤ live.tick + 400000 ∧ (onHealth (fun h => { h with shadowing := true, autoSubst := true }) live).health.pod[(0 : Pod)].autoSubst = true ∧
    (∀ k ∈ [(now * 32 + 128000000, true), (now * 32 + 127999999, false)], let s := onHealth (fun h => { h with spacing := true, lastTs := now * 32 }) { live with time := { live.time with lt := k.1 } }
      decide (s.health.pod[(0 : Pod)].lastTs / 32 + 4000000 ≤ s.tick) = k.2) ∧
    (let s := onCh (fun c => { c with fault := { bits := 2 } }) (onHealth (fun h => { h with named := true, spareCh := 1, substPin := true }) chan)
     let h := s.health.pod[podOf 1]
     h.named = true ∧ h.spareCh = (1 : Ch).val % 16 ∧ h.substPin = true ∧ h.spareOn = none ∧ s.ch[(1 : Ch)].fault.get 1 = true ∧ s.fw.keeperUp = true ∧ quietAt 1 s = true) ∧
    (let s := onHealth (fun h => { h with spareOn := some 1 }) chan
     s.health.pod[podOf 1].spareOn = some ((1 : Ch).val % 16) ∧ s.health.pod[podOf 1].substPin = false ∧ s.fw.keeperUp = true ∧ quietAt 1 s = true) := by decide +kernel
theorem test_ClockChanges :
    live.time.lt = now * 32 ∧ now * 32 + 1 ≠ live.time.lt ∧ live.time.xinOk = true ∧ live.time.backup = false ∧ (onTime (fun t => { t with backup := true }) live).time.backup = true ∧
    (State.reset.time.xinOk = false ∧ State.reset.time.backup = false ∧ live.time.res ≠ 2 ∧ live.pwr.mode = 0) ∧
    (let s := onPwr (fun p => { p with mode := 2 }) (onTime (fun t => { t with res := 2, rtcOk := true, pllLock := false }) live)
     s.pwr.mode = 2 ∧ s.pwr.waking = false ∧ s.time.res = 2 ∧ s.time.rtcOk = true ∧ s.time.xinOk = true ∧ s.time.pllLock = false ∧ (onPwr (fun p => { p with waking := true }) s).pwr.waking = true) ∧ live.time.res = 0 := by decide +kernel

/-! ### The converter and the surroundings -/

/-- Slice 1 converts with a period of 8192 ticks; its next boundary is d ticks away. -/
def slice (d : Nat) (f : AdcSlice → AdcSlice := id) (g : Adc → Adc := id) : State :=
  let a := live.adc
  { live with adc := g { a with slice := a.slice.set 1 (f { a.slice[1] with cfg := 3, last := now + d - 8192 }) } }
theorem test_Converter_conversions :
    (reaches .pcie live = true ∧ ∀ k ∈ [(0, true), (1, false)],
      let s := slice k.1
      let x := s.adc.slice[(1 : Slice)]
      bit x.cfg 0 = true ∧ s.pwr.mode = 0 ∧ decide (x.last + 8192 * max 1 (fld x.cfg 1 7) ≤ s.tick) = k.2 ∧ x.pendSel = none ∧ s.adc.overlap = none ∧ x.skip = 0) ∧
    (slice 0 (fun x => { x with skip := 2 })).adc.slice[(1 : Slice)].skip ≠ 0 ∧
    (∀ k ∈ [(260, true), (259, false)],
      let a := (slice 0 (fun x => { x with armed := true, high := 5 }) (fun a => { a with refReady := true, strLog2 := 8, strMask := 2, strBase := 0x2200000, strWr := BitVec.ofNat 32 k.1, strRd := 4 })).adc
      a.strLog2 ≠ 0 ∧ a.strMask.getLsbD (1 : Slice).val = true ∧ decide (2 ^ a.strLog2 ≤ (a.strWr - a.strRd).toNat) = k.2 ∧ a.strBase.getLsbD 63 = false ∧ a.refReady = true) ∧ live.adc.strLog2 = 0 ∧ live.adc.refReady = false ∧
    (∀ u : Fin 5, (live.adc.unit[u].value 8388607).1 = 8388607 ∧ (live.adc.unit[u].value (-5)).1 < 5 ∧ (5 : Int) ≤ (live.adc.unit[u].value 5).1) ∧
    (let x := (slice 0 (fun x => { x with pendSel := some (now - 1, 31), selAct := 3 })).adc.slice[(1 : Slice)]
     x.pendSel = some (now - 1, 31) ∧ now - 1 < now ∧ (31 : BitVec 6) ≠ x.selAct) ∧
    (let s := slice 0 (fun x => { x with skip := 1 }) (fun a => { a with overlap := some (now - 3 * 8192), calSlice := 1, tol := 0x10 })
     let x := s.adc.slice[(1 : Slice)]
     x.skip ≠ 0 ∧ x.pendSel = none ∧ s.adc.overlap = some (now - 3 * 8192) ∧ s.adc.calSlice = (1 : Slice).val ∧ s.adc.spare < 5 ∧ x.unit < 5 ∧ x.unit ≠ s.adc.spare ∧ fld s.adc.tol 0 24 < ((100 : Int) - 83).natAbs ∧
       now - 3 * 8192 + 3 * 8192 ≤ x.last + 8192) := by decide +kernel
theorem test_Converter_registers :
    (32 ≤ fld (0x20 : W) 0 6 ∧ fld (0x1F : W) 0 6 < 32 ∧ bit (slice 1).adc.slice[(1 : Slice)].cfg 0 = true ∧ (slice 1).adc.slice[(1 : Slice)].last < now + 1 ∧ bit live.adc.slice[(1 : Slice)].cfg 0 = false) ∧
    (∀ k ∈ [(200000, true), (200001, false)], let a := (slice 1 id (fun a => { a with ctrl := 3, refAt := k.1 })).adc
      bit a.ctrl 0 = true ∧ a.refReady = false ∧ decide (a.refAt + 800000 ≤ now) = k.2) ∧
    (∀ k ∈ [0, 1], let a := (slice 1 id (fun a => { a with ctrl := 3, refReady := true, nextSlice := k, due := now })).adc
      bit a.ctrl 1 = true ∧ a.refReady = true ∧ a.degraded = false ∧ a.overlap = none ∧ a.calUnit = none ∧ a.due ≤ now ∧ a.nextSlice = k ∧ a.spare < 5) ∧
    (∀ k ∈ [(38 * 65536, true), (38 * 65536 - 1, false)], let s := { slice 1 id (fun a => { a with calUnit := some 2 }) with time := { live.time with lt := k.1 * 32 } }
      s.adc.calUnit = some (2 : Fin 5).val ∧ s.pwr.mode = 0 ∧ decide (s.adc.calAt + 38 * 65536 ≤ s.tick) = k.2) ∧
    ((33554 : Int).natAbs ≤ 33554 ∧ calGain 33554 (33554 + 6291456) = some 4194304 ∧ 33554 < (33555 : Int).natAbs ∧ calGain 0 0 = none) ∧
    (((9 : W) - 5).toNat ≤ ((9 : W) - 5).toNat ∧ ¬ ((10 : W) - 5).toNat ≤ ((9 : W) - 5).toNat) := by decide +kernel
def onSur (f : Sur → Sur) (s : State) : State := { s with sur := f s.sur }
/-- A measurement of channel 1 asked for by mailbox 3. -/
def measure (load gap : Bool) (f : Sur → Sur := id) (g : State → State := id) : State :=
  g (onSur (fun u => f { u with jobs := [{ b := some 3, ch := 1, load := load, gap := gap, vf := 6554, since := 3 }] }) (runs 3 0x50 [] chan))
theorem test_Surroundings_events :
    bit live.sur.sup (railBit (.vio 7)) = false ∧ bit (onSur (fun u => { u with sup := 0x8000 }) live).sur.sup (railBit (.vio 7)) = true ∧ podOf 127 = 7 ∧ podOf 111 ≠ 7 ∧ live.boot.vioDown.getLsbD 7 = false ∧
    (live.sur.alarm.toNat : Int) ≤ 105 ∧ (100 : Int) ≤ (live.sur.alarm.toNat : Int) - 5 ∧ (live.sur.alarm.toNat : Int) - 5 < 101 ∧ (104 : Int) < (live.sur.alarm.toNat : Int) ∧ live.sur.running = false ∧ live.fw.restarting = false := by decide +kernel
theorem test_Surroundings_starts :
    (∃ j : MeasJob, (measure false false).sur.jobs = j :: [] ∧ j.b = some 3 ∧ j.load = false) ∧ (measure false false).mbx[cmdMbx 3].phase = .running 0x50 9 4096 [] ∧
    (∀ j ∈ (measure true true).sur.jobs, measRefused j (measure true true) = false ∧ (measure true true).ch[j.ch].oe = true ∧ (measure true true).ch[j.ch].vioFault = false ∧ idleGap j.ch (measure true true) = true ∧
      measRefused j (measure true true id (onCh (fun c => { c with frz := true }))) = true ∧ (measure true true id (onCh (fun c => { c with oe := false }))).ch[j.ch].oe = false ∧
      (measure true true id (onCh (fun c => { c with vioFault := true }))).ch[j.ch].vioFault = true ∧ measRefused j (measure true true id (onCh (fun c => { c with vioFault := true }))) = false ∧
      idleGap j.ch (measure true true id (onPod (fun q => { q with fast := [evAt 300 5] }))) = false ∧ measRefused j (measure true true id (onPod (fun q => { q with fast := [evAt 300 5] }))) = false) ∧
    (∀ k ∈ [(400000003, true), (400000002, false)], let s := measure false true id (fun s => { s with time := { s.time with lt := k.1 * 32 } })
      ∀ j ∈ s.sur.jobs, j.gap = true ∧ decide (j.since + 400000000 ≤ s.tick) = k.2) := by
  refine ⟨⟨_, rfl, rfl, rfl⟩, ?_⟩
  decide +kernel
theorem test_Surroundings_ends :
    (∀ load : Bool, let s := measure load false (fun u => { u with running := true, vio := Vector.replicate 8 3300 })
      s.sur.running = true ∧ (∀ j ∈ s.sur.jobs, j.load = load ∧ j.b = some 3 ∧ s.sur.vio[podOf j.ch] ≠ 0 ∧ s.fuse.cable[j.ch] + 128 ≤ s.fuse.cable[j.ch] + 128 ∧ s.fuse.cable[j.ch] + 127 < s.fuse.cable[j.ch] + 128) ∧
        s.mbx[cmdMbx 3].phase = .running 0x50 9 4096 []) ∧ none ∈ ([some 200, none] : List (Option Nat)) ∧ (262144 : Nat) ≤ 262144 := by decide +kernel
/-- Policy i is enabled for every target. -/
def policy (i : Fin 5) (f : Policy → Policy) : State :=
  onSur (fun u => { u with pol := u.pol.set i.val (f { u.pol[i] with enable := true, max := 100000, tgt := Vector.replicate 4 0xFFFFFFFF }), wakes := [2000000] }) chan
theorem test_Adaptation_declares :
    (∀ k ∈ [(4, true), (3, false)], let q := (policy 0 (fun p => { p with last := [{ idx := 1, value := some k.1, at_ := 5 }] })).advNow 1
      polOn 0 1 q = true ∧ q.fw.restarting = false ∧ q.ch[(1 : Ch)].vioFault = false ∧ q.ch[(1 : Ch)].adv.pend = none ∧ polNew 0 1 7 q = some k.1 ∧
        stepOk 0 (polOld 0 1 q) (max q.sur.pol[(0 : Fin 5)].min.toNat (min q.sur.pol[(0 : Fin 5)].max.toNat k.1)) = k.2 ∧ q.pod[polPod 0 1].res.roomFor false = true) ∧
    (let q := (policy 1 (fun p => { p with max := 3, last := [{ idx := 1, value := some 5000, at_ := 5 }] })).advNow 1
     polOn 1 1 q = true ∧ polNew 1 1 7 q = some 3 ∧ stepOk 1 (polOld 1 1 q) 3 = true) ∧
    (∀ i ∈ [(2 : Fin 5), 3, 4], let q := (policy i id).advNow 1
      polOn i 1 q = true ∧ ∃ raw ∈ (polNew i.val 1 7 q), stepOk i.val (polOld i.val 1 q) (max q.sur.pol[i].min.toNat (min q.sur.pol[i].max.toNat raw)) = true) ∧
    polOn 0 1 (live.advNow 1) = false ∧ polNew 0 1 7 ((policy 0 id).advNow 1) = none ∧
    ((onPod (fun q => { q with res := { q.res with reserved := 4096 } }) (policy 3 id)).advNow 1).pod[polPod 3 1].res.roomFor false = false := by decide +kernel
theorem test_Adaptation_epochs :
    (∀ d ∈ [(now, true), (now + 1, false)], let s := policy 2 (fun p => { p with deferred := [(1, 7, d.1)] })
      s.sur.pol[(2 : Fin 5)].deferred = [((1 : Ch).val, 7, d.1)] ∧ decide (d.1 ≤ s.tick) = d.2) ∧
    (∀ i : Fin 5, ∀ d ∈ [(999936, true), (1000448, false)], let x : Decl := { idx := 1, value := 77, epoch := d.1, clamped := true }
      (policy i (fun p => { p with decls := [x] })).sur.pol[i].decls = [x] ∧ x.idx = (1 : Ch).val ∧ decide (x.epoch ≤ live.tick) = d.2) := by decide +kernel

/-! ### Reset, boot, sleep and the test port -/

theorem test_Resets : State.reset.boot.held = true ∧ live.boot.held = false ∧ podOf 17 = 1 ∧ podOf 15 ≠ 1 ∧ ({ live with boot := { live.boot with vioDown := 2 } } : State).boot.vioDown.getLsbD 1 = true := by decide +kernel
/-- A good image, with a patch or without. -/
def image (p : Option PatchIn) : ImageIn := ⟨true, true, 0x21, 0, true, true, true, true, 0x77, p⟩
def patchOf (sig : Bool) : PatchIn := ⟨true, 0x21, 0, true, sig, true, [⟨3, 4094, [5, 6]⟩]⟩
def onBoot (f : Boot → Boot) (s : State) : State := { s with boot := f s.boot }
theorem test_BootAndLoad :
    (State.reset.boot.held = true ∧ State.reset.boot.testmode = false ∧ State.reset.boot.vioDown = 0 ∧ State.reset.abort.safeLow = false ∧ (onAbort (fun a => { a with safeLow := true }) State.reset).abort.safeLow = true) ∧
    imageFault State.reset.fuse.imageFloor (image none) = none ∧ imageFault State.reset.fuse.imageFloor { image none with present := false } = some 1 ∧
    (imageFault State.reset.fuse.imageFloor { image none with serviceOk := false }).isSome = true ∧ patchCode State.reset.fuse.patchFloor (patchOf true) = 0 ∧ patchCode State.reset.fuse.patchFloor (patchOf false) ≠ 0 ∧
    (let s := onFw (fun f => { f with ready := false }) live
     s.boot.verified = true ∧ s.fw.ready = false ∧ s.boot.held = false) ∧
    (∀ m ∈ [Master.keeper, .pcie, .qspi], served m (.bootCmdLoad m (image none) []) live = true ∧ served m (.bootCmdFlash m (image none)) live = true) ∧
    (∀ c ∈ [(1, Master.qspi), (2, .pcie), (3, .keeper)], let b := (onBoot (fun b => { b with verified := false, src := BitVec.ofNat 2 c.1 }) live).boot
      b.held = false ∧ b.verified = false ∧ ((b.src = 1 ∧ c.2 = .qspi) ∨ (b.src = 2 ∧ c.2 = .pcie) ∨ b.src = 3)) ∧ live.boot.verified = true := by decide +kernel
theorem test_SleepAndWake_replied : (onPwr (fun p => { p with entering := true, target := 2 }) live).pwr.entering = true ∧
    ∀ b : Mbx, match live.mbx[b].phase with | .answered .. => False | .repeated _ => False | _ => True := by
  refine ⟨rfl, fun b => ?_⟩
  have h : ∀ b : Mbx, live.mbx[b].phase = .idle := by decide +kernel
  rw [h b]; trivial
theorem test_SleepAndWake :
    (∀ k ∈ [(now * 32 + 511, true), (now * 32 + 512, false)], let s := onPwr (fun p => { p with mode := 1, autoWake := true, nextWake := k.1 }) (onTime (fun t => { t with res := 1 }) axis)
      s.pwr.mode ≠ 0 ∧ s.pwr.autoWake = true ∧ s.pwr.waking = false ∧ decide (s.pwr.nextWake < s.time.lt + 512) = k.2) ∧
    (let s := onAx (fun a => { a with cfg := 0x4199 }) axis
     bit s.axis[(2 : Ax)].cfg 14 = true ∧ bit s.pwr.cfg 4 = true ∧ bit live.axis[(2 : Ax)].cfg 14 = false) ∧
    (let s := onPwr (fun p => { p with chans := p.chans.set 3 0x80000000 }) live
     bit s.pwr.chans[(⟨(127 : Ch).val / 32 % 4, by omega⟩ : Fin 4)] ((127 : Ch).val % 32) = true ∧ bit s.pwr.cfg 3 = true ∧ bit s.pwr.cfg 0 = true ∧ bit s.pwr.cfg 1 = true ∧ bit s.pwr.cfg 2 = true) ∧
    ((onPwr (fun p => { p with mode := 2 }) live).pwr.mode = 2 ∧ live.pwr.mode ≠ 2 ∧ live.pwr.entering = false) ∧
    (let s := onAx (fun a => { a with moved := true }) (onPwr (fun p => { p with mode := 2, target := 2, waking := true, autoWake := true, stageAt := now - 1 }) axis)
     s.pwr.mode ≠ 0 ∧ s.pwr.waking = true ∧ s.time.pllLock = true ∧ s.time.res = 0 ∧ s.pwr.held = [] ∧ s.store.held = [] ∧ s.store.heldQ = [] ∧ s.axis[(2 : Ax)].moved = true ∧ s.pwr.stageAt < s.tick) := by decide +kernel
theorem test_TestPort :
    (live.boot.held = false ∧ live.boot.testmode = false ∧ live.boot.vioDown.getLsbD (podOf 127).val = false ∧ live.jtag.ir = .debug ∧ live.fw.keeperUp = true ∧ State.reset.boot.held = true) ∧
    (∀ ir ∈ [JtagInstr.highz, .extest, .clamp], ({ live with jtag := { live.jtag with ir := ir } } : State).jtag.ir = ir) ∧ live.abort.safeLow = false ∧
    (fld (25 : W) 0 6 ≤ 25 ∧ 25 < fld (31 : W) 0 6 ∧ fld (31 : W) 0 6 < 32 ∧ fld (0x2400 : W) 8 6 ≤ 36 ∧ 36 < fld (0x2500 : W) 8 6) ∧
    (let s := onHealth (fun h => { h with spareOn := some 1 }) (onCh (fun c => { c with spare := true }) chan)
     s.ch[(1 : Ch)].spare = true ∧ s.health.pod[podOf 1].spareOn = some 1 ∧ chOf (podOf 1) 1 = 1 ∧ live.health.pod[podOf 1].spareOn = none) := by decide +kernel

/-! ### Pip words written out from R100: the opcode, the side-set enable and value, then the operand -/

theorem test_pip_words :
    pipDecode 0b0000_0_0_1_000000101#16 = ⟨.waitcyc true 5, none⟩ ∧ pipDecode 0b0001_1_1_10_10000_1_00#16 = ⟨.waitpin 2 16 true, some true⟩ ∧
    pipDecode 0b0010_1_0_11_1_0_000_1_00#16 = ⟨.waitflag 3 true false true, some false⟩ ∧ pipDecode 0b0011_0_0_01_00_011_0_00#16 = ⟨.waitirq 1 3 false, none⟩ ∧
    pipDecode 0b0100_0_0_10_000_11111#16 = ⟨.out 2 31, none⟩ ∧ pipDecode 0b0101_0_0_11_000_00000#16 = ⟨.inp 3 0, none⟩ ∧
    pipDecode 0b0110_0_0_01_1010_0110#16 = ⟨.setMask true 10 6, none⟩ ∧ pipDecode 0b0110_0_0_11_10000001#16 = ⟨.setVal true 129, none⟩ ∧
    pipDecode 0b0111_0_0_010_11_10001#16 = ⟨.jmp 2 3 17, none⟩ ∧ pipDecode 0b1000_0_0_1_0000_11110#16 = ⟨.loop true 30, none⟩ ∧
    pipDecode 0b1001_0_0_01_10_1_00000#16 = ⟨.cmp 1 2 true, none⟩ ∧ pipDecode 0b1010_0_0_1_000000_1_00#16 = ⟨.push true true, none⟩ ∧
    pipDecode 0b1011_0_0_0000000_1_00#16 = ⟨.pull true, none⟩ ∧ pipDecode 0b1100_0_0_01_11000011#16 = ⟨.irq 1 195, none⟩ ∧
    pipDecode 0b1101_0_0_011_101_10_00#16 = ⟨.mov 3 5 2, none⟩ ∧ pipDecode 0b1110_0_0_000000000_1#16 = ⟨.swap true, none⟩ ∧ pipDecode 0b1111_0_0_00000000_1_0#16 = ⟨.stop false true, none⟩ := by decide
/-- No row of the table gives bits. -/
theorem test_table_words : ∀ n w, decodeTableWord n w = none := fun _ _ => rfl
/-- A block that idles stays as it is but for its clock. -/
theorem test_idle : State.reset.pending = [] ∧ (match step live with | .next t => t.tick | _ => 0) = now + 1 := by decide +kernel

end Sys2Proof.Tests
end

section
/-!
High-word reads of wide registers (R15): the word behind a wide register's low word lies in the same block and is no low word itself, so a read of it
reaches `State.highRead` with the register's live value.
-/
namespace Sys2Proof.Machine

/-! ### Addresses of a block -/

/-- The address at which a block begins. -/
def Block.base : Block → Nat
  | .global => 0
  | .mailbox => 0x10000
  | .abort => 0x11000
  | .eic => 0x20000
  | .chan n => chBase n
  | .axis k => 0x80000 + k.val * 0x1000
  | .adc => 0x88000
  | .pod p => 0x90000 + p.val * 0x2000
  | .store => 0xA0000
  | .sur => 0xC0000
  | .none => 0

/-- The bytes of a block; reserved addresses are in none. -/
def Block.size : Block → Nat
  | .mailbox | .chan _ => 0x800
  | .eic => 0x10000
  | .pod _ => 0x2000
  | .none => 0
  | _ => 0x1000

theorem base_add_blockOf (a : Nat) : (blockOf a).1.base + (blockOf a).2 = a := by
  unfold blockOf
  split_ifs <;> simp only [Block.base, chBase] <;> omega

theorem blockOf_of_eq_base_add {a o : Nat} {b : Block} (ha : a = b.base + o) (ho : o < b.size) : blockOf a = (b, o) := by
  unfold blockOf
  cases b <;> simp only [Block.base, Block.size, chBase] at ha ho
  case none => omega
  all_goals
    simp (disch := omega) only [if_neg, if_pos, Prod.mk.injEq, Block.chan.injEq, Block.axis.injEq, Block.pod.injEq, Fin.ext_iff, true_and]
    omega

/-! ### Where the wide registers lie -/

/-- The low word of a wide register lies at offset o of block b. -/
def WideLow : Block → Nat → Prop
  | .global, o => o = 0x100 ∨ o = 0x108 ∨ o = 0x110 ∨ o = 0x138 ∨ o = 0x140 ∨ o = 0x514 ∨ o = 0x808 ∨ o = 0x810 ∨ o = 0x818 ∨
      (0x600 ≤ o ∧ o < 0x700 ∧ o % 0x20 = 0x14)
  | .abort, o => o = 0x30
  | .chan _, o => o = 0x108 ∨ o = 0x10 ∨ o = 0x18 ∨ o = 0x20 ∨ o = 0x190 ∨ (0x40 ≤ o ∧ o < 0xC0 ∧ (o % 0x20 = 0 ∨ o % 0x20 = 0x14))
  | .axis _, o => o = 0x28 ∨ o = 0x30 ∨ o = 0x64
  | .adc, o => o = 0x44 ∨ (0x100 ≤ o ∧ o < 0x200 ∧ o % 0x40 = 0x0C)
  | .pod _, o => o = 0x1010
  | _, _ => False

theorem wideLow_of_globalWide {o v : Nat} {s : State} (h : globalWide o s = some v) : WideLow .global o := by
  unfold globalWide at h
  split at h
  case h_10 =>
    have range := (Option.ite_none_right_eq_some.mp h).1
    simp [WideLow, range]
  all_goals simp [WideLow]

theorem wideLow_of_chanWide {n : Ch} {o v : Nat} {s : State} (h : chanWide n o s = some v) : WideLow (.chan n) o := by
  unfold chanWide at h
  dsimp only at h
  split at h
  case h_5 =>
    obtain ⟨range, h⟩ := Option.ite_none_right_eq_some.mp h
    by_cases lo : o % 0x20 = 0
    · simp [WideLow, range, lo]
    · rw [if_neg lo] at h
      simp [WideLow, range, (Option.ite_none_right_eq_some.mp h).1]
  all_goals simp [WideLow]

theorem wideLow_of_axisWide {k : Ax} {o v : Nat} {s : State} (h : axisWide k o s = some v) : WideLow (.axis k) o := by
  unfold axisWide at h
  split at h
  case h_4 => cases h
  all_goals simp [WideLow]

theorem wideLow_of_adcWide {m : Master} {o v : Nat} {s : State} (h : adcWide m o s = some v) : WideLow .adc o := by
  unfold adcWide at h
  split at h
  · exact .inl ‹_›
  · split at h
    · exact .inr ‹_›
    · cases h

theorem wideLow_of_busWide {m : Master} {a v : Nat} {s : State} (h : busWide m a s = some v) :
    WideLow (blockOf a).1 (blockOf a).2 := by
  unfold busWide at h
  split at h
  case h_1 e => rw [e]; exact wideLow_of_globalWide h
  case h_2 e => rw [e]; exact (Option.ite_none_right_eq_some.mp h).1
  case h_3 e =>
    rw [e]
    split at h
    · exact .inl ‹_›
    · exact wideLow_of_chanWide h
  case h_4 e => rw [e]; exact wideLow_of_axisWide h
  case h_5 e => rw [e]; exact wideLow_of_adcWide h
  case h_6 e => rw [e]; exact (Option.ite_none_right_eq_some.mp h).1
  case h_7 => cases h

/-- No two wide registers overlap: where one has its high word, none has its low word. -/
theorem WideLow.not_add_four {b : Block} {o : Nat} (h : WideLow b o) : ¬ WideLow b (o + 4) := by
  cases b <;> simp only [WideLow] at h ⊢ <;> omega

theorem WideLow.add_four_lt_size {b : Block} {o : Nat} (h : WideLow b o) : o + 4 < b.size := by
  cases b <;> simp only [WideLow, Block.size] at h ⊢ <;> omega

/-- The high word of a wide register lies in the block of its low word. -/
theorem blockOf_add_four {a : Nat} (h : WideLow (blockOf a).1 (blockOf a).2) : blockOf (a + 4) = ((blockOf a).1, (blockOf a).2 + 4) := by
  refine blockOf_of_eq_base_add ?_ h.add_four_lt_size
  rw [← Nat.add_assoc, base_add_blockOf]

theorem busWide_high_word {m : Master} {a : Nat} (h : WideLow (blockOf a).1 (blockOf a).2) (s : State) : busWide m (a + 4) s = none := by
  refine Option.eq_none_iff_forall_ne_some.mpr fun v hv => h.not_add_four ?_
  simpa only [blockOf_add_four h] using wideLow_of_busWide hv

/-! ### A read of a high word -/

theorem Keeps.tick {l : List Part} {s t : State} (h : Keeps l s t) (hl : Part.time ∉ l) : t.tick = s.tick :=
  congrArg (fun x : Time => x.lt / 32) (h.2 .time hl)

theorem globalTake_tick (a : Nat) (s : State) : (globalTake a s).tick = s.tick := by
  unfold globalTake
  dsimp only
  split
  case h_11 => split <;> rfl
  all_goals rfl

@[simp] theorem busTake_tick (m : Master) (a : Nat) (s : State) : (busTake m a s).tick = s.tick := by
  unfold busTake
  split
  case h_1 => exact globalTake_tick _ s
  case h_2 => split <;> rfl
  case h_3 => exact (eicTake_keeps ..).tick (by decide)
  case h_4 => exact (chanTake_keeps ..).tick (by decide)
  case h_5 => exact (axisTake_keeps ..).tick (by decide)
  case h_6 => exact (adcTake_keeps ..).tick (by decide)
  case h_7 => exact (podTake_keeps ..).tick (by decide)
  case h_8 => exact (storeTake_keeps ..).tick (by decide)
  case h_9 => exact (surTake_keeps ..).tick (by decide)
  case h_10 => rfl

@[simp] theorem busTake_master (m : Master) (a : Nat) (s : State) : (busTake m a s).master = s.master :=
  (busTake_keeps m a s).2 .master (by decide)

@[simp] theorem busSettle_tick (a : Nat) (s : State) : (busSettle a s).tick = s.tick :=
  (busSettle_keeps a s).tick (by decide)

@[simp] theorem busSettle_master (a : Nat) (s : State) : (busSettle a s).master = s.master :=
  (busSettle_keeps a s).2 .master (by decide)

theorem State.modMaster_onlyMaster (m : Master) (f : MasterSt → MasterSt) (s : State) : OnlyMaster m s (s.modMaster m f) := by
  intro i hi
  have hi : m.idx.val ≠ i.val := fun e => hi (Fin.ext e.symm)
  simp [State.modMaster, hi]

theorem State.highRead_onlyMaster (m : Master) (a : Nat) (w : W) (s : State) : OnlyMaster m s (s.highRead m a w) := by
  unfold State.highRead State.ret
  dsimp only
  split <;> exact State.modMaster_onlyMaster m _ s

theorem State.highRead_master_same (m : Master) (a : Nat) (w : W) (s : State) :
    (s.highRead m a w).master[m.idx] =
      if s.master[m.idx].valid = true ∧ s.master[m.idx].addr = BitVec.ofNat 24 a then { s.master[m.idx] with rdata := s.master[m.idx].shadow }
      else { s.master[m.idx] with rdata := w, mism := s.master[m.idx].mism.raise s.tick 1 } := by
  have cond : (s.master[m.idx].valid && s.master[m.idx].addr == BitVec.ofNat 24 a) = true ↔
      s.master[m.idx].valid = true ∧ s.master[m.idx].addr = BitVec.ofNat 24 a := by simp
  unfold State.highRead State.ret
  simp only [cond]
  split <;> exact State.modMaster_master_same ..

theorem State.plainRead_high_word {m : Master} {a v : Nat} {s : State} (h : busWide m a (busSettle (a + 4) s) = some v) :
    s.plainRead m (a + 4) = (busTake m (a + 4) (busSettle (a + 4) s)).highRead m a (hi32 v) := by
  simp [State.plainRead, busWide_high_word (wideLow_of_busWide h), h]

/-- None of the registers whose read acts is the high word of a wide register. -/
theorem State.busRead_high_word {m : Master} {a : Nat} (s : State) (ha : a % 4 = 0) (hm : readDenied m (a + 4) = none)
    (hw : WideLow (blockOf a).1 (blockOf a).2) : s.busRead m (a + 4) = s.plainRead m (a + 4) := by
  have word : (a + 4) / 4 * 4 = a + 4 := by omega
  unfold State.busRead
  simp only [word, hm, blockOf_add_four hw]
  cases hb : (blockOf a).1 <;> rw [hb] at hw <;> simp only [WideLow] at hw ⊢
  case chan n => rw [if_neg (by omega), if_neg (by omega)]
  case adc => rw [if_neg (by omega)]

/-- Settles O8: the read reaches `State.highRead`, and what it does before (settling the channel, taking counts) touches neither a master nor the tick. -/
theorem highWordReadUsesShadow : Obligations.HighWordReadUsesShadow := by
  unfold Obligations.HighWordReadUsesShadow
  intro m a v s hs ha hd hv
  refine ⟨(busTake m (a + 4) (busSettle (a + 4) (found m s))).highRead m a (hi32 v), ?_, ?_, fun i hi => ?_⟩
  · show Host.Outcome.next (s.access m (.highWordRead m (a + 4)) (State.busRead m (a + 4))) = _
    rw [access_served hs, State.busRead_high_word _ ha hd (wideLow_of_busWide hv), State.plainRead_high_word hv]
  · rw [State.highRead_master_same]
    simp
  · rw [State.highRead_onlyMaster _ _ _ _ i hi]
    simp

end Sys2Proof.Machine
end

section
/-!
Host access to the Pip engines (R95, R96, R109, R112, R114, R117, R118): the host finds the engine brought up to date (`State.pipNow`), and each of its
writes is one change of the engine of that channel. A write of CTRL may also stop the engine, which reaches no channel outside the bank.
-/
namespace Sys2Proof.Machine

/-! ### Changes of one channel -/

theorem OnlyCh.refl (n : Ch) (s : State) : OnlyCh n s s := fun _ _ => rfl

theorem OnlyCh.trans {n : Ch} {s t u : State} (h : OnlyCh n s t) (k : OnlyCh n t u) : OnlyCh n s u :=
  fun m hm => (k m hm).trans (h m hm)

theorem State.modCh_onlyCh (n : Ch) (f : Channel → Channel) (s : State) : OnlyCh n s (s.modCh n f) :=
  fun m hm => State.modCh_ch_other s n m f hm

theorem State.modPip_onlyCh (n : Ch) (f : Pip → Pip) (s : State) : OnlyCh n s (s.modPip n f) :=
  State.modCh_onlyCh n _ s

theorem State.modPod_onlyCh (n : Ch) (p : Pod) (f : PodSt → PodSt) (s : State) : OnlyCh n s (s.modPod p f) := fun _ _ => rfl

@[simp] theorem State.modPip_ch_same (n : Ch) (f : Pip → Pip) (s : State) :
    (s.modPip n f).ch[n] = { s.ch[n] with pip := f s.ch[n].pip } :=
  State.modCh_ch_same ..

/-- An update is what it does to the engine at hand. -/
theorem State.modPip_congr {n : Ch} {f g : Pip → Pip} {s : State} (h : f s.ch[n].pip = g s.ch[n].pip) : s.modPip n f = s.modPip n g := by
  simp only [State.modPip, State.modCh, h]

@[simp] theorem State.modPip_tick (n : Ch) (f : Pip → Pip) (s : State) : (s.modPip n f).tick = s.tick := rfl

/-! ### The engine as of now -/

theorem enterAll_onlyCh (n : Ch) (lim : Nat) : ∀ (l : List (Nat × CapE)) (s : State), OnlyCh n s (enterAll n lim l s)
  | [], s => OnlyCh.refl n s
  | (b, e) :: r, s => by
    unfold enterAll
    split
    · dsimp only
      refine OnlyCh.trans ?_ (enterAll_onlyCh n lim r _)
      split
      · exact State.modCh_onlyCh n _ s
      · exact (State.modCh_onlyCh n _ s).trans (State.modPod_onlyCh n _ _ _)
    · exact OnlyCh.refl n s

theorem State.pipNow_onlyCh (n : Ch) (s : State) : OnlyCh n s (s.pipNow n) :=
  (enterAll_onlyCh n _ _ s).trans (State.modPip_onlyCh n _ _)

@[simp] theorem State.pipNow_tick (n : Ch) (s : State) : (s.pipNow n).tick = s.tick :=
  (State.pipNow_keeps n s).tick (by decide)

/-- What every host write of a Pip register does: it brings the engine of its channel up to date and changes it. -/
theorem State.pipNow_modPip_spec (n : Ch) (f : Pip → Pip) (s : State) :
    OnlyCh n s ((s.pipNow n).modPip n f) ∧ Keeps [.ch, .pod] s ((s.pipNow n).modPip n f) ∧
      ((s.pipNow n).modPip n f).ch[n] = { (s.pipNow n).ch[n] with pip := f (s.pipNow n).ch[n].pip } :=
  ⟨(State.pipNow_onlyCh n s).trans (State.modPip_onlyCh n f _), (State.pipNow_keeps n s).step (State.modPip_keeps ..) (by decide),
    State.modPip_ch_same ..⟩

/-! ### Bits of a register word -/

theorem getLsbD_mask (lo n i : Nat) : (mask lo n).getLsbD i = decide (lo ≤ i ∧ i < lo + n ∧ i < 32) := by
  rw [mask, BitVec.getLsbD_ofNat, Nat.testBit_mul_two_pow, Nat.testBit_two_pow_sub_one, Bool.eq_iff_iff]
  simp only [Bool.and_eq_true, decide_eq_true_eq]
  omega

theorem bit_setBit_self (w : W) {i : Nat} (hi : i < 32) (b : Bool) : bit (setBit w i b) i = b := by
  have isSet : (flag i true).getLsbD i = true := by
    rw [flag, if_pos rfl, BitVec.getLsbD_ofNat, Nat.testBit_two_pow_self, decide_eq_true hi, Bool.and_true]
  cases b
  · rw [bit, setBit, if_neg Bool.false_ne_true, BitVec.getLsbD_and, BitVec.getLsbD_not, isSet, Bool.not_true, Bool.and_false, Bool.and_false]
  · rw [bit, setBit, if_pos rfl, BitVec.getLsbD_or, isSet, Bool.or_true]

/-- A field taken from another word: its bits are that word's, the others stay. -/
theorem getLsbD_ins (w : W) (lo n : Nat) (v : W) {i : Nat} (hi : i < 32) :
    (ins w lo n v).getLsbD i = if lo ≤ i ∧ i < lo + n then v.getLsbD i else w.getLsbD i := by
  simp only [ins, BitVec.getLsbD_or, BitVec.getLsbD_and, BitVec.getLsbD_not, getLsbD_mask]
  by_cases h : lo ≤ i ∧ i < lo + n <;> simp [hi, h]

/-- A field is a number made of its bits. -/
theorem fld_congr {v w : W} {lo n : Nat} (h : ∀ i, i < n → v.getLsbD (i + lo) = w.getLsbD (i + lo)) : fld v lo n = fld w lo n := by
  refine Nat.eq_of_testBit_eq fun i => ?_
  simp only [fld, Nat.testBit_mod_two_pow, Nat.testBit_div_two_pow, BitVec.testBit_toNat]
  by_cases hi : i < n
  · rw [h i hi]
  · simp only [hi, decide_false, Bool.false_and]

/-! ### A pop of RXF -/

theorem modCh_found (m : Master) (n : Ch) (f : Channel → Channel) (s : State) : (found m s).modCh n f = found m (s.modCh n f) := by
  cases m <;> rfl

theorem modPod_found (m : Master) (p : Pod) (f : PodSt → PodSt) (s : State) : (found m s).modPod p f = found m (s.modPod p f) := by
  cases m <;> rfl

theorem enterAll_found (m : Master) (n : Ch) (lim : Nat) :
    ∀ (l : List (Nat × CapE)) (s : State), enterAll n lim l (found m s) = found m (enterAll n lim l s)
  | [], _ => rfl
  | (b, e) :: r, s => by
    unfold enterAll
    split
    · dsimp only
      rw [found_ch, found_pwr, modCh_found, ← enterAll_found m n lim r]
      split
      · rfl
      · rw [modPod_found]
    · rfl

/-- That the host's request is answered makes no difference to the engine. -/
theorem pipNow_found (m : Master) (n : Ch) (s : State) : (found m s).pipNow n = found m (s.pipNow n) := by
  unfold State.pipNow State.settleCaps State.modPip
  rw [found_tick, found_ch, enterAll_found, modCh_found]

/-- The engine after a host pop of RXF (R109). -/
def Pip.rxfOut (t : Nat) (p : Pip) : Pip :=
  if p.rxPod then p.error t 0x400
  else match p.r.rxf with
    | [] => p.error t 0x20
    | _ :: r => p.modR (fun x => { x with rxf := r })

/-- The word a host pop of RXF returns: 0 where there is none for the host. -/
def Pip.rxfHead (p : Pip) : W := if p.rxPod then 0 else p.r.rxf.headD 0

section
variable {p : Pip} (t : Nat)

theorem Pip.rxfOut_of_pod (pod : p.rxPod = true) : p.rxfOut t = p.error t 0x400 := if_pos pod

theorem Pip.rxfOut_of_nil (host : p.rxPod = false) (empty : p.r.rxf = []) : p.rxfOut t = p.error t 0x20 := by
  simp [Pip.rxfOut, host, empty]

theorem Pip.rxfOut_of_cons {v : W} {r : List W} (host : p.rxPod = false) (word : p.r.rxf = v :: r) :
    p.rxfOut t = p.modR (fun x => { x with rxf := r }) := by
  simp [Pip.rxfOut, host, word]

theorem Pip.rxfHead_of_pod (pod : p.rxPod = true) : p.rxfHead = 0 := if_pos pod

theorem Pip.rxfHead_of_host (host : p.rxPod = false) : p.rxfHead = p.r.rxf.headD 0 := by
  simp [Pip.rxfHead, host]

end

theorem State.rxfPop_eq (m : Master) (n : Ch) (s : State) :
    s.rxfPop m n = ((s.pipNow n).modPip n (Pip.rxfOut s.tick)).ret m (s.pipNow n).ch[n].pip.rxfHead := by
  unfold State.rxfPop
  dsimp only
  rw [State.pipNow_tick]
  split
  case isTrue pod => rw [State.modPip_congr (Pip.rxfOut_of_pod _ pod).symm, Pip.rxfHead_of_pod pod]
  case isFalse host =>
    have host := Bool.eq_false_of_not_eq_true host
    rw [Pip.rxfHead_of_host host]
    split
    case h_1 empty => rw [State.modPip_congr (Pip.rxfOut_of_nil _ host empty).symm, empty]; rfl
    case h_2 word => rw [State.modPip_congr (Pip.rxfOut_of_cons _ host word).symm, word]; rfl

theorem State.rxfPop_onlyMaster (m : Master) (n : Ch) (s : State) : OnlyMaster m s (s.rxfPop m n) := by
  have keeps := (State.pipNow_keeps n s).step (State.modPip_keeps n (Pip.rxfOut s.tick) _) (by decide)
  rw [State.rxfPop_eq]
  intro i hi
  rw [State.ret, State.modMaster_onlyMaster m _ _ i hi]
  exact congrArg (·[i]) (keeps.2 .master (by decide))

theorem State.rxfPop_found_ch (m : Master) (n k : Ch) (s : State) :
    ((found m s).rxfPop m n).ch[k] = ((s.pipNow n).modPip n (Pip.rxfOut s.tick)).ch[k] := by
  rw [State.rxfPop_eq, pipNow_found, State.modPip, modCh_found]
  simp [State.modPip]

theorem State.rxfPop_found_onlyCh (m : Master) (n : Ch) (s : State) : OnlyCh n s ((found m s).rxfPop m n) := by
  intro k hk
  rw [State.rxfPop_found_ch, (State.pipNow_modPip_spec n (Pip.rxfOut s.tick) s).1 k hk]

theorem State.rxfPop_found_ch_same (m : Master) (n : Ch) (s : State) :
    ((found m s).rxfPop m n).ch[n] = { (s.pipNow n).ch[n] with pip := (s.pipNow n).ch[n].pip.rxfOut s.tick } := by
  rw [State.rxfPop_found_ch, State.modPip_ch_same]

theorem State.rxfPop_found_rdata (m : Master) (n : Ch) (s : State) :
    ((found m s).rxfPop m n).master[m.idx].rdata = (s.pipNow n).ch[n].pip.rxfHead := by
  rw [State.rxfPop_eq, State.ret_rdata, pipNow_found, found_ch]

/-! ### Instructions -/

theorem Pip.writePrg_of_active {p : Pip} {b : Bool} (t : Nat) (i : Fin 32) (w : W) (en : bit p.ctrl 0 = true) (hb : b = p.bank) :
    p.writePrg t b i w = { p with err := p.err.raise t 2 } := by
  simp [Pip.writePrg, Pip.error, en, hb]

/-- A write that is not refused: the word, the bank's VALID, and a swap that waits for that bank (R112, R114). -/
theorem Pip.writePrg_of_open {p : Pip} {b : Bool} (t : Nat) (i : Fin 32) (w : W) (h : bit p.ctrl 0 = false ∨ b ≠ p.bank) :
    p.writePrg t b i w = { p with
      prg0 := if b then p.prg0 else p.prg0.set i.val (w.setWidth 16), prg1 := if b then p.prg1.set i.val (w.setWidth 16) else p.prg1
      valid0 := if b then p.valid0 else false, valid1 := if b then false else p.valid1
      swap := if b = p.bank then p.swap else none, err := p.err.raiseIf (b != p.bank && p.swap.isSome) t 4 } := by
  have taken : ¬ (bit p.ctrl 0 && b == p.bank) = true := by
    rcases h with h | h <;> simp [h]
  unfold Pip.writePrg
  rw [if_neg taken]
  by_cases active : b = p.bank
  · cases b <;> simp [← active, Sticky.raiseIf]
  · cases waits : p.swap <;> cases b <;> simp_all [Sticky.raiseIf]

/-! ### CTRL -/

section
variable (p : Pip) (t : Nat)

/-- A stop, with the swap it may take, leaves CTRL and ERR: only a forced swap sets an error (R91, R113, R114). -/
theorem Pip.halted_spec (why : BitVec 3) (resumable : Bool) :
    (p.halted t why resumable).ctrl = p.ctrl ∧ (p.halted t why resumable).err = p.err ∧ (p.halted t why resumable).run = false := by
  unfold Pip.halted
  split
  case isTrue => dsimp only; split <;> exact ⟨rfl, rfl, rfl⟩
  case isFalse stands => exact ⟨rfl, rfl, Bool.eq_false_of_not_eq_true stands⟩

@[simp] theorem Pip.halted_ctrl (why : BitVec 3) (resumable : Bool) : (p.halted t why resumable).ctrl = p.ctrl :=
  (p.halted_spec t why resumable).1
@[simp] theorem Pip.halted_err (why : BitVec 3) (resumable : Bool) : (p.halted t why resumable).err = p.err :=
  (p.halted_spec t why resumable).2.1
@[simp] theorem Pip.halted_run (why : BitVec 3) (resumable : Bool) : (p.halted t why resumable).run = false :=
  (p.halted_spec t why resumable).2.2

@[simp] theorem Pip.noteStalls_ctrl : (p.noteStalls t).ctrl = p.ctrl := by
  unfold Pip.noteStalls; split <;> rfl

@[simp] theorem Pip.noteStalls_err : (p.noteStalls t).err = p.err := by
  unfold Pip.noteStalls; split <;> rfl

/-- Cycles that pass, a swap and a stop leave CTRL and ERR. -/
theorem Pip.settle_ctrl_err : (p.settle t).ctrl = p.ctrl ∧ (p.settle t).err = p.err := by
  unfold Pip.settle
  split
  · exact ⟨rfl, rfl⟩
  · extract_lets begun kStop kSwap lim adv q ended stalls swapFirst swapped q'
    clear_value kStop kSwap
    have kept : q'.ctrl = p.ctrl ∧ q'.err = p.err := by
      subst q'
      split
      · split <;> exact ⟨rfl, rfl⟩
      · exact ⟨rfl, rfl⟩
    clear_value q'
    split
    · split
      · simp [kept]
      · exact kept
    · exact kept

@[simp] theorem Pip.settle_ctrl : (p.settle t).ctrl = p.ctrl := (p.settle_ctrl_err t).1
@[simp] theorem Pip.settle_err : (p.settle t).err = p.err := (p.settle_ctrl_err t).2

end

theorem Channel.change_pip (x : Nat) (f : OutStage → OutStage) (c : Channel) : (c.change x f).pip = c.pip := by
  unfold Channel.change Channel.settleMerge
  split <;> rfl

theorem podOf_of_mem_tierOf {n m : Ch} {s : State} (h : m ∈ tierOf n s) : podOf m = podOf n := by
  obtain ⟨i, -, rfl⟩ := List.mem_map.mp (List.mem_of_mem_filter h)
  refine Fin.ext ?_
  simp only [podOf, chOf]
  omega

theorem State.releaseTier_pip (t : Nat) (n k : Ch) (s : State) : (s.releaseTier t n).ch[k].pip = s.ch[k].pip := by
  refine List.foldlRecOn (motive := fun u : State => u.ch[k].pip = s.ch[k].pip) (tierOf n s) _ rfl fun u ih m _ => ?_
  by_cases h : k = m
  · subst h
    rw [State.modCh_ch_same, Channel.change_pip, ih]
  · rw [State.modCh_ch_other u m k _ h, ih]

theorem State.releaseTier_ch_other {n k : Ch} (t : Nat) (s : State) (hk : podOf k ≠ podOf n) : (s.releaseTier t n).ch[k] = s.ch[k] := by
  refine List.foldlRecOn (motive := fun u : State => u.ch[k] = s.ch[k]) (tierOf n s) _ rfl fun u ih m hm => ?_
  have h : k ≠ m := fun e => hk (e ▸ podOf_of_mem_tierOf hm)
  rw [State.modCh_ch_other u m k _ h, ih]

theorem State.pipHalt_pip (t : Nat) (why : BitVec 3) (resumable release : Bool) (n : Ch) (s : State) :
    (s.pipHalt t why resumable release n).ch[n].pip = ((s.ch[n].pip.settle t).noteStalls t).halted t why resumable := by
  unfold State.pipHalt State.when
  dsimp only
  split
  · rw [State.releaseTier_pip, State.modPip_ch_same]
  · rw [State.modPip_ch_same]

theorem State.pipHalt_ch_other {n k : Ch} (t : Nat) (why : BitVec 3) (resumable release : Bool) (s : State) (hk : podOf k ≠ podOf n) :
    (s.pipHalt t why resumable release n).ch[k] = s.ch[k] := by
  have hn : k ≠ n := fun e => hk (e ▸ rfl)
  unfold State.pipHalt State.when
  dsimp only
  split
  · rw [State.releaseTier_ch_other t _ hk, State.modPip_onlyCh n _ s k hn]
  · rw [State.modPip_onlyCh n _ s k hn]

/-- The engine after a host write of CTRL, before a stop (R117). -/
def Pip.writeCtrl (t : Nat) (w : W) (p : Pip) : Pip :=
  { p with
    ctrl := if p.run then setBit p.ctrl 0 (bit w 0) else w &&& 0x7FFFF
    err := p.err.raiseIf (p.run && decide ((w ^^^ p.ctrl) &&& 0x7FFFE ≠ 0)) t 0x80 }

theorem bit_and_ctrlMask (w : W) : bit (w &&& 0x7FFFF) 0 = bit w 0 := by
  simp [bit]

section
variable {p : Pip} (t : Nat) (w : W)

theorem Pip.writeCtrl_of_stands (stands : p.run = false) : p.writeCtrl t w = { p with ctrl := w &&& 0x7FFFF } := by
  simp [Pip.writeCtrl, stands, Sticky.raiseIf]

theorem Pip.writeCtrl_of_runs (runs : p.run = true) :
    p.writeCtrl t w = { p with
      ctrl := setBit p.ctrl 0 (bit w 0), err := if (w ^^^ p.ctrl) &&& 0x7FFFE = 0 then p.err else p.err.raise t 0x80 } := by
  simp [Pip.writeCtrl, runs, Sticky.raiseIf]

/-- EN written 0 is 0, whether or not the engine runs. -/
theorem Pip.writeCtrl_en (off : bit w 0 = false) : bit (p.writeCtrl t w).ctrl 0 = false := by
  cases runs : p.run
  · rw [Pip.writeCtrl_of_stands t w runs, bit_and_ctrlMask, off]
  · rw [Pip.writeCtrl_of_runs t w runs, bit_setBit_self _ (by omega), off]

end

/-- No other bit of CTRL reaches what the write is judged by. -/
theorem and_ctrlMask_xor_and (w c : W) : ((w &&& 0x7FFFF) ^^^ c) &&& 0x7FFFE = (w ^^^ c) &&& 0x7FFFE := by
  have wide : (0x7FFFF : W) = mask 0 19 := by decide
  have judged : (0x7FFFE : W) = mask 1 18 := by decide
  refine BitVec.eq_of_getLsbD_eq fun i _ => ?_
  simp only [wide, judged, BitVec.getLsbD_and, BitVec.getLsbD_xor, getLsbD_mask]
  by_cases h : 1 ≤ i ∧ i < 1 + 18 ∧ i < 32
  · have low : 0 ≤ i ∧ i < 0 + 19 ∧ i < 32 := by omega
    rw [decide_eq_true low, Bool.and_true]
  · rw [decide_eq_false h, Bool.and_false, Bool.and_false]

theorem State.writePipCtrl_eq (n : Ch) (w : W) (s : State) :
    s.writePipCtrl n w =
      if bit (s.pipNow n).ch[n].pip.ctrl 0 = true ∧ bit w 0 = false then ((s.pipNow n).modPip n (Pip.writeCtrl s.tick w)).pipHalt s.tw 5 false true n
      else (s.pipNow n).modPip n (Pip.writeCtrl s.tick w) := by
  unfold State.writePipCtrl
  dsimp only
  rw [bit_and_ctrlMask, and_ctrlMask_xor_and, State.pipNow_tick, State.modPip_congr (g := Pip.writeCtrl s.tick w)]
  · simp only [Bool.and_eq_true, Bool.not_eq_true', State.tw, State.modPip_tick, State.pipNow_tick]
  · rfl

/-- A write of CTRL, and the stop it may cause, leaves the channels of the other banks. -/
theorem State.writePipCtrl_ch_other {n k : Ch} (w : W) (s : State) (hk : podOf k ≠ podOf n) : (s.writePipCtrl n w).ch[k] = s.ch[k] := by
  have unwritten := (State.pipNow_modPip_spec n (Pip.writeCtrl s.tick w) s).1 k fun e => hk (e ▸ rfl)
  rw [State.writePipCtrl_eq]
  split
  · rw [State.pipHalt_ch_other _ _ _ _ _ hk, unwritten]
  · exact unwritten

theorem State.writePipCtrl_pip (n : Ch) (w : W) (s : State) :
    (s.writePipCtrl n w).ch[n].pip =
      if bit (s.pipNow n).ch[n].pip.ctrl 0 = true ∧ bit w 0 = false then
        ((((s.pipNow n).ch[n].pip.writeCtrl s.tick w).settle s.tw).noteStalls s.tw).halted s.tw 5 false
      else (s.pipNow n).ch[n].pip.writeCtrl s.tick w := by
  rw [State.writePipCtrl_eq]
  split
  · rw [State.pipHalt_pip, State.modPip_ch_same]
  · rw [State.modPip_ch_same]

/-! ### PINS -/

/-- The bits of PINS that a write can change: those of its fields. -/
theorem getLsbD_pinsMask {i : Nat} (hi : i < 32) : (0xF1FF3F : W).getLsbD i = decide (i < 6 ∨ (8 ≤ i ∧ i < 17) ∨ (20 ≤ i ∧ i < 24)) := by
  have fields : (0xF1FF3F : W) = mask 0 6 ||| mask 8 9 ||| mask 20 4 := by decide
  rw [fields, BitVec.getLsbD_or, BitVec.getLsbD_or, getLsbD_mask, getLsbD_mask, getLsbD_mask, Bool.eq_iff_iff]
  simp only [Bool.or_eq_true, decide_eq_true_eq]
  omega

section
variable {p : Pip} (t : Nat) (w : W)

/-- A running engine keeps its pin fields (R95, R96). -/
theorem writePins_pins_of_run (held : Bool) (run : p.run = true) : (writePins t held w p).pins &&& 0x1FFFF = p.pins &&& 0x1FFFF := by
  have pinFields : (0x1FFFF : W) = mask 0 17 := by decide
  refine BitVec.eq_of_getLsbD_eq fun i hi => ?_
  simp only [writePins, run, if_true, pinFields, BitVec.getLsbD_and, getLsbD_mask]
  by_cases h : 0 ≤ i ∧ i < 0 + 17 ∧ i < 32
  · have below : ¬ (20 ≤ i ∧ i < 20 + 4) := by omega
    cases held <;> simp [getLsbD_ins _ _ _ _ hi, below]
  · rw [decide_eq_false h, Bool.and_false, Bool.and_false]

/-- A pin in a Pip's tier keeps its owner (R96, R97). -/
theorem writePins_owner_of_held : fld (writePins t true w p).pins 20 4 = fld p.pins 20 4 := by
  refine fld_congr fun i hi => ?_
  have hi : i + 20 < 32 := by omega
  have same (v : W) (lo k : Nat) (h : lo + k ≤ 20) (x : W) : (ins x lo k v).getLsbD (i + 20) = x.getLsbD (i + 20) := by
    rw [getLsbD_ins _ _ _ _ hi, if_neg (by omega)]
  simp only [writePins, if_true]
  split
  · rfl
  · split
    · rw [same _ 12 5 (by omega), same _ 8 4 (by omega)]
    · rw [same _ 0 6 (by omega), same _ 12 5 (by omega), same _ 8 4 (by omega)]

/-- The fields of PINS that a write gives, in the four places that `writePins` writes, are all that it gives. -/
theorem ins_pinFields (rest : p.pins &&& 0xFF0E00C0 = 0) :
    ins (ins (ins (ins p.pins 8 4 (w &&& 0xF1FF3F)) 12 5 (w &&& 0xF1FF3F)) 0 6 (w &&& 0xF1FF3F)) 20 4 (w &&& 0xF1FF3F) = w &&& 0xF1FF3F := by
  refine BitVec.eq_of_getLsbD_eq fun i hi => ?_
  simp only [getLsbD_ins _ _ _ _ hi]
  split_ifs with h20 h0 h12 h8
  case neg =>
    have others : (0xFF0E00C0 : W) = ~~~0xF1FF3F := by decide
    have outside : (0xF1FF3F : W).getLsbD i = false := by
      rw [getLsbD_pinsMask hi]
      exact decide_eq_false (by omega)
    have clear : (p.pins &&& 0xFF0E00C0).getLsbD i = false := by rw [rest]; exact BitVec.getLsbD_zero
    rw [others] at clear
    simpa only [BitVec.getLsbD_and, BitVec.getLsbD_not, hi, decide_true, outside, Bool.not_false, Bool.and_true, Bool.and_false] using clear
  all_goals rfl

/-- A write that nothing stands against is taken as it is. -/
theorem writePins_of_ok (stands : p.run = false) (fits : fld w 0 4 + fld w 4 2 ≤ 15) (rest : p.pins &&& 0xFF0E00C0 = 0) :
    (writePins t false w p).pins = w &&& 0xF1FF3F ∧ (writePins t false w p).err = p.err := by
  have first (lo n : Nat) (h : lo + n ≤ 6) : fld (w &&& 0xF1FF3F) lo n = fld w lo n := by
    refine fld_congr fun i hi => ?_
    rw [BitVec.getLsbD_and, getLsbD_pinsMask (by omega), decide_eq_true (.inl (by omega)), Bool.and_true]
  have fits' : ¬ 15 < fld (w &&& 0xF1FF3F) 0 4 + fld (w &&& 0xF1FF3F) 4 2 := by
    rw [first 0 4 (by omega), first 4 2 (by omega)]
    omega
  simp only [writePins, stands, fits', Sticky.raiseIf, Bool.false_and, Bool.not_false, Bool.true_and, decide_false, Bool.or_false, Bool.false_eq_true, if_false]
  exact ⟨ins_pinFields w rest, trivial⟩

end

theorem State.writePipPins_eq (n : Ch) (w : W) (s : State) :
    s.writePipPins n w = (s.pipNow n).modPip n (writePins s.tick (s.pipNow n).ch[n].out.pip.isSome w) := by
  unfold State.writePipPins
  dsimp only
  rw [State.pipNow_tick]

/-! ### LC -/

theorem ofNat_fld_low (w : W) : BitVec.ofNat 16 (fld w 0 16) = w.setWidth 16 := by
  refine BitVec.eq_of_toNat_eq ?_
  simp [fld]

theorem ofNat_fld_high (w : W) : BitVec.ofNat 16 (fld w 16 16) = (w >>> 16).setWidth 16 := by
  refine BitVec.eq_of_toNat_eq ?_
  simp [fld, Nat.shiftRight_eq_div_pow]

theorem Pip.writeLc_eq (w : W) (p : Pip) :
    p.writeLc w = { p with r := { p.r with lcInit := (w >>> 16).setWidth 16, lc := if p.run then p.r.lc else w.setWidth 16 } } := by
  rw [Pip.writeLc, ofNat_fld_low, ofNat_fld_high, Pip.modR]

/-- Settles O24: each write changes the engine of its channel as the function of that name does (`State.pipNow_modPip_spec`), and so does a pop of RXF,
whose word is the engine's (`State.rxfPop_eq`). A write of CTRL that clears EN goes on to a stop, which leaves CTRL and ERR as written. -/
theorem pipHostData : Obligations.PipHostData := by
  unfold Obligations.PipHostData
  refine ⟨fun m n w s => ⟨?txf, ?rxf, ?flushTx, ?flushRx⟩, fun n w s => ⟨?prg, ?ctrl, ?pins, ?sr, ?lc⟩⟩
  case txf => exact ⟨_, rfl, State.pipNow_modPip_spec n (Pip.txfIn s.tick w) s⟩
  case flushTx => exact ⟨_, rfl, State.pipNow_modPip_spec n (Pip.flushTx s.tick) s⟩
  case flushRx => exact ⟨_, rfl, State.pipNow_modPip_spec n (Pip.flushRx s.tick) s⟩
  case rxf =>
    intro hs
    have took := State.rxfPop_found_ch_same m n s
    have returned := State.rxfPop_found_rdata m n s
    refine ⟨(found m s).rxfPop m n, congrArg Host.Outcome.next (access_served hs), State.rxfPop_found_onlyCh m n s, fun i hi => ?_,
      (State.rxfPop_keeps m n _).mono (by decide), ?_, fun pod => ⟨?_, ?_⟩, fun host empty => ⟨?_, ?_⟩, fun v r host word => ⟨?_, ?_⟩⟩
    · rw [State.rxfPop_onlyMaster m n _ i hi, found_master]
    · rw [took]
    · rw [took, Pip.rxfOut_of_pod _ pod]; rfl
    · rw [returned, Pip.rxfHead_of_pod pod]
    · rw [took, Pip.rxfOut_of_nil _ host empty]; rfl
    · rw [returned, Pip.rxfHead_of_host host, empty]; rfl
    · rw [took, Pip.rxfOut_of_cons _ host word]; rfl
    · rw [returned, Pip.rxfHead_of_host host, word]; rfl
  case prg =>
    intro bank i
    obtain ⟨only, keeps, same⟩ := State.pipNow_modPip_spec n (Pip.writePrg s.tick bank i w) s
    refine ⟨_, rfl, only, keeps, ?_, fun en active => ?_, fun taken => ?_⟩
    · rw [same]
    · rw [same, Pip.writePrg_of_active _ i w en active]
    · rw [same, Pip.writePrg_of_open _ i w taken]
      exact ⟨rfl, rfl, rfl, rfl, fun other => if_neg other, rfl, rfl⟩
  case ctrl =>
    have written := State.writePipCtrl_pip n w s
    generalize (s.pipNow n).ch[n].pip = p at written
    refine ⟨s.writePipCtrl n w, rfl, State.writePipCtrl_keeps n w s, fun k => State.writePipCtrl_ch_other w s,
      fun stands => ?_, fun runs => ?_, fun runs on => ?_, fun en off => ?_⟩
    · rw [written, Pip.writeCtrl_of_stands _ _ stands]
      split <;> simp [stands]
    · rw [written, Pip.writeCtrl_of_runs _ _ runs]
      split <;> simp
    · rw [written, if_neg (by simp [on]), Pip.writeCtrl_of_runs _ _ runs]
    · rw [written, if_pos ⟨en, off⟩, Pip.halted_ctrl, Pip.noteStalls_ctrl, Pip.settle_ctrl]
      exact ⟨Pip.halted_run .., Pip.writeCtrl_en _ _ off⟩
  case pins =>
    obtain ⟨only, keeps, same⟩ := State.pipNow_modPip_spec n (writePins s.tick (s.pipNow n).ch[n].out.pip.isSome w) s
    rw [← State.writePipPins_eq] at only keeps same
    refine ⟨s.writePipPins n w, rfl, only, keeps, ?_, fun runs => ?_, fun held => ?_, fun stands free fits rest => ?_⟩
    · rw [same]; rfl
    · rw [same]; exact writePins_pins_of_run _ w _ runs
    · rw [same, Option.isSome_iff_ne_none.mpr held]; exact writePins_owner_of_held _ w
    · rw [same, free]; exact writePins_of_ok _ w stands fits rest
  case sr => exact ⟨_, rfl, State.pipNow_modPip_spec n (Pip.writeSr s.tick w) s⟩
  case lc =>
    obtain ⟨only, keeps, same⟩ := State.pipNow_modPip_spec n (Pip.writeLc w) s
    exact ⟨_, rfl, only, keeps, by rw [same, Pip.writeLc_eq]⟩

end Sys2Proof.Machine
end

section
/-!
The machine as a whole: a case split over the commands, each arm what `Laws/FrameExec` and `Laws/SoundExec` say of that command.
-/
namespace Sys2Proof.Machine

/-- A command that leaves all but some parts leaves the queue. -/
theorem pending_of_keeps {o : Out} {l : List Part} {s : State} (h : ∃ t, o = .next t ∧ Keeps l s t) : ∃ t, o = .next t ∧ t.pending = s.pending :=
  h.imp fun _ k => ⟨k.1, k.2.1⟩

theorem exec_next_pending (c : Instr) (s : State) : ∃ t, exec c s = .next t ∧ t.pending = s.pending :=
  match c with
  | .registerWrite m addr w be => pending_of_keeps (execRegisterWrite_keeps m addr w be s)
  | .rcRead m addr => pending_of_keeps (execRcRead_keeps m addr s)
  | .lowWordRead m addr => pending_of_keeps (execLowWordRead_keeps m addr s)
  | .highWordRead m addr => pending_of_keeps (execHighWordRead_keeps m addr s)
  | .wideRead8Byte addr => pending_of_keeps (execWideRead8Byte_keeps addr s)
  | .holdingRegWrite m addr w => pending_of_keeps (execHoldingRegWrite_keeps m addr w s)
  | .wideHighWrite m addr w => pending_of_keeps (execWideHighWrite_keeps m addr w s)
  | .aonPor cold => pending_of_keeps (execAonPor_keeps cold s)
  | .guarStatClear m w => pending_of_keeps (execGuarStatClear_keeps m w s)
  | .cntStart n => pending_of_keeps (execCntStart_keeps n s)
  | .cntStop n => pending_of_keeps (execCntStop_keeps n s)
  | .cntClear n => pending_of_keeps (execCntClear_keeps n s)
  | .cntLoad n => pending_of_keeps (execCntLoad_keeps n s)
  | .cmpDisarm n mask => pending_of_keeps (execCmpDisarm_keeps n mask s)
  | .cmpRearm n u => pending_of_keeps (execCmpRearm_keeps n u s)
  | .rfxArm n => pending_of_keeps (execRfxArm_keeps n s)
  | .rfxDisarm n => pending_of_keeps (execRfxDisarm_keeps n s)
  | .counterStep n => pending_of_keeps (execCounterStep_keeps n s)
  | .topCommit m n w => pending_of_keeps (execTopCommit_keeps m n w s)
  | .cmpCommit m n u w => pending_of_keeps (execCmpCommit_keeps m n u w s)
  | .cmpMatch n => pending_of_keeps (execCmpMatch_keeps n s)
  | .pulseEnd n => pending_of_keeps (execPulseEnd_keeps n s)
  | .burstEdge n => pending_of_keeps (execBurstEdge_keeps n s)
  | .outForceSet n => pending_of_keeps (execOutForceSet_keeps n s)
  | .outForceClr n => pending_of_keeps (execOutForceClr_keeps n s)
  | .outForceTog n => pending_of_keeps (execOutForceTog_keeps n s)
  | .advCommit m n w => pending_of_keeps (execAdvCommit_keeps m n w s)
  | .advEpochReached n => pending_of_keeps (execAdvEpochReached_keeps n s)
  | .driveChangeApply n => pending_of_keeps (execDriveChangeApply_keeps n s)
  | .freezeRequest m n => pending_of_keeps (execFreezeRequest_keeps m n s)
  | .freezeEntry n => pending_of_keeps (execFreezeEntry_keeps n s)
  | .thawRequest m n => pending_of_keeps (execThawRequest_keeps m n s)
  | .thaw n => pending_of_keeps (execThaw_keeps n s)
  | .inputCrossing p level frac => pending_of_keeps (execInputCrossing_keeps p level frac s)
  | .filterAccept p => pending_of_keeps (execFilterAccept_keeps p s)
  | .capPop m n => pending_of_keeps (execCapPop_keeps m n s)
  | .readbackMismatchTick n => pending_of_keeps (execReadbackMismatchTick_keeps n s)
  | .readbackInterval n => pending_of_keeps (execReadbackInterval_keeps n s)
  | .reflexInputChange n => pending_of_keeps (execReflexInputChange_keeps n s)
  | .pipStart n entry => pending_of_keeps (execPipStart_keeps n entry s)
  | .pipStop n => pending_of_keeps (execPipStop_keeps n s)
  | .pipResume n => pending_of_keeps (execPipResume_keeps n s)
  | .pipCmdSwap n => pending_of_keeps (execPipCmdSwap_keeps n s)
  | .pipCmdForce n => pending_of_keeps (execPipCmdForce_keeps n s)
  | .pipRelease n => pending_of_keeps (execPipRelease_keeps n s)
  | .pipKick n => pending_of_keeps (execPipKick_keeps n s)
  | .pipReset n => pending_of_keeps (execPipReset_keeps n s)
  | .pipValidate n mask => pending_of_keeps (execPipValidate_keeps n mask s)
  | .txfFlush n => pending_of_keeps (execTxfFlush_keeps n s)
  | .rxfFlush n => pending_of_keeps (execRxfFlush_keeps n s)
  | .pipWaitcyc n => pending_of_keeps (execPipWaitcyc_keeps n s)
  | .pipWaitpin n => pending_of_keeps (execPipWaitpin_keeps n s)
  | .pipWaitflag n => pending_of_keeps (execPipWaitflag_keeps n s)
  | .pipWaitirq n => pending_of_keeps (execPipWaitirq_keeps n s)
  | .pipOut n => pending_of_keeps (execPipOut_keeps n s)
  | .pipIn n => pending_of_keeps (execPipIn_keeps n s)
  | .pipSet n => pending_of_keeps (execPipSet_keeps n s)
  | .pipJmp n => pending_of_keeps (execPipJmp_keeps n s)
  | .pipLoop n => pending_of_keeps (execPipLoop_keeps n s)
  | .pipCmp n => pending_of_keeps (execPipCmp_keeps n s)
  | .pipPush n => pending_of_keeps (execPipPush_keeps n s)
  | .pipPull n => pending_of_keeps (execPipPull_keeps n s)
  | .pipIrq n => pending_of_keeps (execPipIrq_keeps n s)
  | .pipMov n => pending_of_keeps (execPipMov_keeps n s)
  | .pipSwapInstr n => pending_of_keeps (execPipSwapInstr_keeps n s)
  | .pipStopInstr n => pending_of_keeps (execPipStopInstr_keeps n s)
  | .pipReservedOp n => pending_of_keeps (execPipReservedOp_keeps n s)
  | .pipWaitComplete n => pending_of_keeps (execPipWaitComplete_keeps n s)
  | .pipWaitTimeout n => pending_of_keeps (execPipWaitTimeout_keeps n s)
  | .pipPrgWrite n bank idx w => pending_of_keeps (execPipPrgWrite_keeps n bank idx w s)
  | .pipCtrlWrite n w => pending_of_keeps (execPipCtrlWrite_keeps n w s)
  | .pipPinsWrite n w => pending_of_keeps (execPipPinsWrite_keeps n w s)
  | .pipSrWrite n w => pending_of_keeps (execPipSrWrite_keeps n w s)
  | .pipLcWrite n w => pending_of_keeps (execPipLcWrite_keeps n w s)
  | .txfWrite n w => pending_of_keeps (execTxfWrite_keeps n w s)
  | .rxfRead m n => pending_of_keeps (execRxfRead_keeps m n s)
  | .axisCfgWrite k off w => pending_of_keeps (execAxisCfgWrite_keeps k off w s)
  | .axisFilterAccept k p level lt => pending_of_keeps (execAxisFilterAccept_keeps k p level lt s)
  | .axisEdge k => pending_of_keeps (execAxisEdge_keeps k s)
  | .countWindowEnd k => pending_of_keeps (execCountWindowEnd_keeps k s)
  | .axisStopDetect k => pending_of_keeps (execAxisStopDetect_keeps k s)
  | .lagDetect k => pending_of_keeps (execLagDetect_keeps k s)
  | .zArm k => pending_of_keeps (execZArm_keeps k s)
  | .posLoad k => pending_of_keeps (execPosLoad_keeps k s)
  | .serTrig k => pending_of_keeps (execSerTrig_keeps k s)
  | .emulRestart k => pending_of_keeps (execEmulRestart_keeps k s)
  | .serFrameStart k => pending_of_keeps (execSerFrameStart_keeps k s)
  | .serSample k f => pending_of_keeps (execSerSample_keeps k f s)
  | .serTmo k => pending_of_keeps (execSerTmo_keeps k s)
  | .speedRead m k => pending_of_keeps (execSpeedRead_keeps m k s)
  | .emulEnable k w => pending_of_keeps (execEmulEnable_keeps k w s)
  | .emulOutputEdge k => pending_of_keeps (execEmulOutputEdge_keeps k s)
  | .posCommit k n => pending_of_keeps (execPosCommit_keeps k n s)
  | .calWrite b => pending_of_keeps (execCalWrite_keeps b s)
  | .calWriteDma b => pending_of_keeps (execCalWriteDma_keeps b s)
  | .calRecordAccept b => pending_of_keeps (execCalRecordAccept_keeps b s)
  | .bucketBoundary => pending_of_keeps (execBucketBoundary_keeps s)
  | .horizonTakeEffect => pending_of_keeps (execHorizonTakeEffect_keeps s)
  | .armFast p f => pending_of_keeps (execArmFast_keeps p f s)
  | .armStage p f => pending_of_keeps (execArmStage_keeps p f s)
  | .retire p f => pending_of_keeps (execRetire_keeps p f s)
  | .substStep p => pending_of_keeps (execSubstStep_keeps p s)
  | .capSpill p => pending_of_keeps (execCapSpill_keeps p s)
  | .pipXfer n drain => pending_of_keeps (execPipXfer_keeps n drain s)
  | .pline p => pending_of_keeps (execPline_keeps p s)
  | .cfg p f => pending_of_keeps (execCfg_keeps p f s)
  | .csRepair p a => pending_of_keeps (execCsRepair_keeps p a s)
  | .csBackgroundPass p => pending_of_keeps (execCsBackgroundPass_keeps p s)
  | .missedAtDue p => pending_of_keeps (execMissedAtDue_keeps p s)
  | .backlogDrain p => pending_of_keeps (execBacklogDrain_keeps p s)
  | .resRdWrite p w => pending_of_keeps (execResRdWrite_keeps p w s)
  | .calCancel b => pending_of_keeps (execCalCancel_keeps b s)
  | .calConfig b => pending_of_keeps (execCalConfig_keeps b s)
  | .horizonSet b => pending_of_keeps (execHorizonSet_keeps b s)
  | .resultRingSet b => pending_of_keeps (execResultRingSet_keeps b s)
  | .feedWrWrite n w => pending_of_keeps (execFeedWrWrite_keeps n w s)
  | .drnRdWrite n w => pending_of_keeps (execDrnRdWrite_keeps n w s)
  | .storeAccess bank reqs => pending_of_keeps (execStoreAccess_keeps bank reqs s)
  | .ceWriteback a => pending_of_keeps (execCeWriteback_keeps a s)
  | .scrubPassStart found => pending_of_keeps (execScrubPassStart_keeps found s)
  | .scrubPassDone => pending_of_keeps (execScrubPassDone_keeps s)
  | .storeRetain b => pending_of_keeps (execStoreRetain_keeps b s)
  | .retentionDone g => pending_of_keeps (execRetentionDone_keeps g s)
  | .segmentWakeDone g => pending_of_keeps (execSegmentWakeDone_keeps g s)
  | .segmentAutoWake m g => pending_of_keeps (execSegmentAutoWake_keeps m g s)
  | .capRingRdWrite p w => pending_of_keeps (execCapRingRdWrite_keeps p w s)
  | .capRingConfigWrite p size w => pending_of_keeps (execCapRingConfigWrite_keeps p size w s)
  | .bar2Access a => pending_of_keeps (execBar2Access_keeps a s)
  | .eicLineEdge sl => pending_of_keeps (execEicLineEdge_keeps sl s)
  | .eicPsetWrite m g w => pending_of_keeps (execEicPsetWrite_keeps m g w s)
  | .eicPendClear m g w => pending_of_keeps (execEicPendClear_keeps m g w s)
  | .claim reads => pending_of_keeps (execClaim_keeps reads s)
  | .eoi m t => pending_of_keeps (execEoi_keeps m t s)
  | .holdoffExpire g => pending_of_keeps (execHoldoffExpire_keeps g s)
  | .srcCfgWrite m sl w => pending_of_keeps (execSrcCfgWrite_keeps m sl w s)
  | .groupLock m g => pending_of_keeps (execGroupLock_keeps m g s)
  | .msixUnmask v => pending_of_keeps (execMsixUnmask_keeps v s)
  | .linkUp width2 speed => pending_of_keeps (execLinkUp_keeps width2 speed s)
  | .configRequest r => pending_of_keeps (execConfigRequest_keeps r s)
  | .perstN low => pending_of_keeps (execPerstN_keeps low s)
  | .hotReset => pending_of_keeps (execHotReset_keeps s)
  | .functionLevelReset => pending_of_keeps (execFunctionLevelReset_keeps s)
  | .dmaCompletion c data => pending_of_keeps (execDmaCompletion_keeps c data s)
  | .dmaCompletionTimeout c => pending_of_keeps (execDmaCompletionTimeout_keeps c s)
  | .qspiRead addr len late => pending_of_keeps (execQspiRead_keeps addr len late s)
  | .qspiWrite addr data => pending_of_keeps (execQspiWrite_keeps addr data s)
  | .qspiQread addr len late => pending_of_keeps (execQspiQread_keeps addr len late s)
  | .qspiQwrite addr data => pending_of_keeps (execQspiQwrite_keeps addr data s)
  | .qspiStatus => pending_of_keeps (execQspiStatus_keeps s)
  | .qspiBadOp op => pending_of_keeps (execQspiBadOp_keeps op s)
  | .mbLockRead b readers => pending_of_keeps (execMbLockRead_keeps b readers s)
  | .mbLockRelease m b => pending_of_keeps (execMbLockRelease_keeps m b s)
  | .mbPostWrite m b hi w => pending_of_keeps (execMbPostWrite_keeps m b hi w s)
  | .mbDoorbell m b w => pending_of_keeps (execMbDoorbell_keeps m b w s)
  | .mbNoticeAck m b w => pending_of_keeps (execMbNoticeAck_keeps m b w s)
  | .commandStart b => pending_of_keeps (execCommandStart_keeps b s)
  | .commandComplete b => pending_of_keeps (execCommandComplete_keeps b s)
  | .noticePost b => pending_of_keeps (execNoticePost_keeps b s)
  | .nop b => pending_of_keeps (execNop_keeps b s)
  | .fwInfo b => pending_of_keeps (execFwInfo_keeps b s)
  | .healthQuery b => pending_of_keeps (execHealthQuery_keeps b s)
  | .watchRestart b => pending_of_keeps (execWatchRestart_keeps b s)
  | .chConfig b => pending_of_keeps (execChConfig_keeps b s)
  | .chQuery b => pending_of_keeps (execChQuery_keeps b s)
  | .pipLoad b => pending_of_keeps (execPipLoad_keeps b s)
  | .pipSwap b => pending_of_keeps (execPipSwap_keeps b s)
  | .axisConfig b => pending_of_keeps (execAxisConfig_keeps b s)
  | .emulConfig b => pending_of_keeps (execEmulConfig_keeps b s)
  | .adcConfig b => pending_of_keeps (execAdcConfig_keeps b s)
  | .adcStream b => pending_of_keeps (execAdcStream_keeps b s)
  | .substPolicy b => pending_of_keeps (execSubstPolicy_keeps b s)
  | .adaptSet b => pending_of_keeps (execAdaptSet_keeps b s)
  | .adaptLock b => pending_of_keeps (execAdaptLock_keeps b s)
  | .measureCable b => pending_of_keeps (execMeasureCable_keeps b s)
  | .measureLoad b => pending_of_keeps (execMeasureLoad_keeps b s)
  | .partnerRead b bytes => pending_of_keeps (execPartnerRead_keeps b bytes s)
  | .sleep b => pending_of_keeps (execSleep_keeps b s)
  | .wake b => pending_of_keeps (execWake_keeps b s)
  | .abortGo m w => pending_of_keeps (execAbortGo_keeps m w s)
  | .abortRelease m w => pending_of_keeps (execAbortRelease_keeps m w s)
  | .abortDone => pending_of_keeps (execAbortDone_keeps s)
  | .safeNFall width => pending_of_keeps (execSafeNFall_keeps width s)
  | .safeNRise => pending_of_keeps (execSafeNRise_keeps s)
  | .watchViolation core store addr => pending_of_keeps (execWatchViolation_keeps core store addr s)
  | .heartbeatWrite core => pending_of_keeps (execHeartbeatWrite_keeps core s)
  | .heartbeatTimeout core => pending_of_keeps (execHeartbeatTimeout_keeps core s)
  | .watchCoreFault core => pending_of_keeps (execWatchCoreFault_keeps core s)
  | .codeDigestCheck ok flashOk => pending_of_keeps (execCodeDigestCheck_keeps ok flashOk s)
  | .restartDelayEnd => pending_of_keeps (execRestartDelayEnd_keeps s)
  | .restartComplete => pending_of_keeps (execRestartComplete_keeps s)
  | .keeperWatchdog => pending_of_keeps (execKeeperWatchdog_keeps s)
  | .keeperRebootDone => pending_of_keeps (execKeeperRebootDone_keeps s)
  | .buoySelfTestDone p pass => pending_of_keeps (execBuoySelfTestDone_keeps p pass s)
  | .shadowMismatch p output forced ts => pending_of_keeps (execShadowMismatch_keeps p output forced ts s)
  | .shadowPeriodEnd p => pending_of_keeps (execShadowPeriodEnd_keeps p s)
  | .quarantineTestDone p pass => pending_of_keeps (execQuarantineTestDone_keeps p pass s)
  | .takeoverSpacingEnd p => pending_of_keeps (execTakeoverSpacingEnd_keeps p s)
  | .spareMove n => pending_of_keeps (execSpareMove_keeps n s)
  | .spareMoveBack n => pending_of_keeps (execSpareMoveBack_keeps n s)
  | .ltXchkCorrect a b => pending_of_keeps (execLtXchkCorrect_keeps a b s)
  | .xinFail => pending_of_keeps (execXinFail_keeps s)
  | .xinRestore => pending_of_keeps (execXinRestore_keeps s)
  | .adcConversionEnd sl raw spareRaw => pending_of_keeps (execAdcConversionEnd_keeps sl raw spareRaw s)
  | .adcSelWrite sl w => pending_of_keeps (execAdcSelWrite_keeps sl w s)
  | .adcDataRead m sl => pending_of_keeps (execAdcDataRead_keeps m sl s)
  | .refReady => pending_of_keeps (execRefReady_keeps s)
  | .calRotationStart => pending_of_keeps (execCalRotationStart_keeps s)
  | .calDone z f => pending_of_keeps (execCalDone_keeps z f s)
  | .adcStrRdWrite w => pending_of_keeps (execAdcStrRdWrite_keeps w s)
  | .supplyFault r => pending_of_keeps (execSupplyFault_keeps r s)
  | .supplyFaultClear r => pending_of_keeps (execSupplyFaultClear_keeps r s)
  | .vioTrack p mv => pending_of_keeps (execVioTrack_keeps p mv s)
  | .tempMeasure t => pending_of_keeps (execTempMeasure_keeps t s)
  | .measureStart => pending_of_keeps (execMeasureStart_keeps s)
  | .measureDone r => pending_of_keeps (execMeasureDone_keeps r s)
  | .measureGapTimeout => pending_of_keeps (execMeasureGapTimeout_keeps s)
  | .adaptDeclare pol idx meas => pending_of_keeps (execAdaptDeclare_keeps pol idx meas s)
  | .adaptDeferRetry pol idx => pending_of_keeps (execAdaptDeferRetry_keeps pol idx s)
  | .adaptEpoch pol idx => pending_of_keeps (execAdaptEpoch_keeps pol idx s)
  | .coreReset avdd => pending_of_keeps (execCoreReset_keeps avdd s)
  | .vioBrownout p => pending_of_keeps (execVioBrownout_keeps p s)
  | .vioReturn p => pending_of_keeps (execVioReturn_keeps p s)
  | .peRailDrop vddh => pending_of_keeps (execPeRailDrop_keeps vddh s)
  | .resetN acts => pending_of_keeps (execResetN_keeps acts s)
  | .coreResetRelease straps primary alternate selfTest => pending_of_keeps (execCoreResetRelease_keeps straps primary alternate selfTest s)
  | .fwReady => pending_of_keeps (execFwReady_keeps s)
  | .bootCmdLoad m image selfTest => pending_of_keeps (execBootCmdLoad_keeps m image selfTest s)
  | .bootCmdFlash m image => pending_of_keeps (execBootCmdFlash_keeps m image s)
  | .pllLock => pending_of_keeps (execPllLock_keeps s)
  | .sleepEntryDone => pending_of_keeps (execSleepEntryDone_keeps s)
  | .autoWake => pending_of_keeps (execAutoWake_keeps s)
  | .wakeSource w => pending_of_keeps (execWakeSource_keeps w s)
  | .runReached => pending_of_keeps (execRunReached_keeps s)
  | .testmode high => pending_of_keeps (execTestmode_keeps high s)
  | .atbSelWrite w => pending_of_keeps (execAtbSelWrite_keeps w s)
  | .jtagReset => pending_of_keeps (execJtagReset_keeps s)
  | .extest => pending_of_keeps (execExtest_keeps s)
  | .samplePreload drive level => pending_of_keeps (execSamplePreload_keeps drive level s)
  | .idcode => pending_of_keeps (execIdcode_keeps s)
  | .clamp => pending_of_keeps (execClamp_keeps s)
  | .highz => pending_of_keeps (execHighz_keeps s)
  | .debug => pending_of_keeps (execDebug_keeps s)
  | .bypass => pending_of_keeps (execBypass_keeps s)
  | .debugUnlock tokenOk => pending_of_keeps (execDebugUnlock_keeps tokenOk s)
  | .xinOscStable => pending_of_keeps (execXinOscStable_keeps s)
  | .linkDown => pending_of_keeps (execLinkDown_keeps s)

theorem exec_sound (c : Instr) (s : State) (hc : ∀ cold : Bool, c ≠ .aonPor cold) : ∃ t, exec c s = .next t ∧ Sound s t :=
  match c with
  | .registerWrite m addr w be => execRegisterWrite_sound m addr w be s
  | .rcRead m addr => execRcRead_sound m addr s
  | .lowWordRead m addr => execLowWordRead_sound m addr s
  | .highWordRead m addr => execHighWordRead_sound m addr s
  | .wideRead8Byte addr => execWideRead8Byte_sound addr s
  | .holdingRegWrite m addr w => execHoldingRegWrite_sound m addr w s
  | .wideHighWrite m addr w => execWideHighWrite_sound m addr w s
  | .aonPor cold => absurd rfl (hc cold)
  | .guarStatClear m w => execGuarStatClear_sound m w s
  | .cntStart n => execCntStart_sound n s
  | .cntStop n => execCntStop_sound n s
  | .cntClear n => execCntClear_sound n s
  | .cntLoad n => execCntLoad_sound n s
  | .cmpDisarm n mask => execCmpDisarm_sound n mask s
  | .cmpRearm n u => execCmpRearm_sound n u s
  | .rfxArm n => execRfxArm_sound n s
  | .rfxDisarm n => execRfxDisarm_sound n s
  | .counterStep n => execCounterStep_sound n s
  | .topCommit m n w => execTopCommit_sound m n w s
  | .cmpCommit m n u w => execCmpCommit_sound m n u w s
  | .cmpMatch n => execCmpMatch_sound n s
  | .pulseEnd n => execPulseEnd_sound n s
  | .burstEdge n => execBurstEdge_sound n s
  | .outForceSet n => execOutForceSet_sound n s
  | .outForceClr n => execOutForceClr_sound n s
  | .outForceTog n => execOutForceTog_sound n s
  | .advCommit m n w => execAdvCommit_sound m n w s
  | .advEpochReached n => execAdvEpochReached_sound n s
  | .driveChangeApply n => execDriveChangeApply_sound n s
  | .freezeRequest m n => execFreezeRequest_sound m n s
  | .freezeEntry n => execFreezeEntry_sound n s
  | .thawRequest m n => execThawRequest_sound m n s
  | .thaw n => execThaw_sound n s
  | .inputCrossing p level frac => execInputCrossing_sound p level frac s
  | .filterAccept p => execFilterAccept_sound p s
  | .capPop m n => execCapPop_sound m n s
  | .readbackMismatchTick n => execReadbackMismatchTick_sound n s
  | .readbackInterval n => execReadbackInterval_sound n s
  | .reflexInputChange n => execReflexInputChange_sound n s
  | .pipStart n entry => execPipStart_sound n entry s
  | .pipStop n => execPipStop_sound n s
  | .pipResume n => execPipResume_sound n s
  | .pipCmdSwap n => execPipCmdSwap_sound n s
  | .pipCmdForce n => execPipCmdForce_sound n s
  | .pipRelease n => execPipRelease_sound n s
  | .pipKick n => execPipKick_sound n s
  | .pipReset n => execPipReset_sound n s
  | .pipValidate n mask => execPipValidate_sound n mask s
  | .txfFlush n => execTxfFlush_sound n s
  | .rxfFlush n => execRxfFlush_sound n s
  | .pipWaitcyc n => execPipWaitcyc_sound n s
  | .pipWaitpin n => execPipWaitpin_sound n s
  | .pipWaitflag n => execPipWaitflag_sound n s
  | .pipWaitirq n => execPipWaitirq_sound n s
  | .pipOut n => execPipOut_sound n s
  | .pipIn n => execPipIn_sound n s
  | .pipSet n => execPipSet_sound n s
  | .pipJmp n => execPipJmp_sound n s
  | .pipLoop n => execPipLoop_sound n s
  | .pipCmp n => execPipCmp_sound n s
  | .pipPush n => execPipPush_sound n s
  | .pipPull n => execPipPull_sound n s
  | .pipIrq n => execPipIrq_sound n s
  | .pipMov n => execPipMov_sound n s
  | .pipSwapInstr n => execPipSwapInstr_sound n s
  | .pipStopInstr n => execPipStopInstr_sound n s
  | .pipReservedOp n => execPipReservedOp_sound n s
  | .pipWaitComplete n => execPipWaitComplete_sound n s
  | .pipWaitTimeout n => execPipWaitTimeout_sound n s
  | .pipPrgWrite n bank idx w => execPipPrgWrite_sound n bank idx w s
  | .pipCtrlWrite n w => execPipCtrlWrite_sound n w s
  | .pipPinsWrite n w => execPipPinsWrite_sound n w s
  | .pipSrWrite n w => execPipSrWrite_sound n w s
  | .pipLcWrite n w => execPipLcWrite_sound n w s
  | .txfWrite n w => execTxfWrite_sound n w s
  | .rxfRead m n => execRxfRead_sound m n s
  | .axisCfgWrite k off w => execAxisCfgWrite_sound k off w s
  | .axisFilterAccept k p level lt => execAxisFilterAccept_sound k p level lt s
  | .axisEdge k => execAxisEdge_sound k s
  | .countWindowEnd k => execCountWindowEnd_sound k s
  | .axisStopDetect k => execAxisStopDetect_sound k s
  | .lagDetect k => execLagDetect_sound k s
  | .zArm k => execZArm_sound k s
  | .posLoad k => execPosLoad_sound k s
  | .serTrig k => execSerTrig_sound k s
  | .emulRestart k => execEmulRestart_sound k s
  | .serFrameStart k => execSerFrameStart_sound k s
  | .serSample k f => execSerSample_sound k f s
  | .serTmo k => execSerTmo_sound k s
  | .speedRead m k => execSpeedRead_sound m k s
  | .emulEnable k w => execEmulEnable_sound k w s
  | .emulOutputEdge k => execEmulOutputEdge_sound k s
  | .posCommit k n => execPosCommit_sound k n s
  | .calWrite b => execCalWrite_sound b s
  | .calWriteDma b => execCalWriteDma_sound b s
  | .calRecordAccept b => execCalRecordAccept_sound b s
  | .bucketBoundary => execBucketBoundary_sound s
  | .horizonTakeEffect => execHorizonTakeEffect_sound s
  | .armFast p f => execArmFast_sound p f s
  | .armStage p f => execArmStage_sound p f s
  | .retire p f => execRetire_sound p f s
  | .substStep p => execSubstStep_sound p s
  | .capSpill p => execCapSpill_sound p s
  | .pipXfer n drain => execPipXfer_sound n drain s
  | .pline p => execPline_sound p s
  | .cfg p f => execCfg_sound p f s
  | .csRepair p a => execCsRepair_sound p a s
  | .csBackgroundPass p => execCsBackgroundPass_sound p s
  | .missedAtDue p => execMissedAtDue_sound p s
  | .backlogDrain p => execBacklogDrain_sound p s
  | .resRdWrite p w => execResRdWrite_sound p w s
  | .calCancel b => execCalCancel_sound b s
  | .calConfig b => execCalConfig_sound b s
  | .horizonSet b => execHorizonSet_sound b s
  | .resultRingSet b => execResultRingSet_sound b s
  | .feedWrWrite n w => execFeedWrWrite_sound n w s
  | .drnRdWrite n w => execDrnRdWrite_sound n w s
  | .storeAccess bank reqs => execStoreAccess_sound bank reqs s
  | .ceWriteback a => execCeWriteback_sound a s
  | .scrubPassStart found => execScrubPassStart_sound found s
  | .scrubPassDone => execScrubPassDone_sound s
  | .storeRetain b => execStoreRetain_sound b s
  | .retentionDone g => execRetentionDone_sound g s
  | .segmentWakeDone g => execSegmentWakeDone_sound g s
  | .segmentAutoWake m g => execSegmentAutoWake_sound m g s
  | .capRingRdWrite p w => execCapRingRdWrite_sound p w s
  | .capRingConfigWrite p size w => execCapRingConfigWrite_sound p size w s
  | .bar2Access a => execBar2Access_sound a s
  | .eicLineEdge sl => execEicLineEdge_sound sl s
  | .eicPsetWrite m g w => execEicPsetWrite_sound m g w s
  | .eicPendClear m g w => execEicPendClear_sound m g w s
  | .claim reads => execClaim_sound reads s
  | .eoi m t => execEoi_sound m t s
  | .holdoffExpire g => execHoldoffExpire_sound g s
  | .srcCfgWrite m sl w => execSrcCfgWrite_sound m sl w s
  | .groupLock m g => execGroupLock_sound m g s
  | .msixUnmask v => execMsixUnmask_sound v s
  | .linkUp width2 speed => execLinkUp_sound width2 speed s
  | .configRequest r => execConfigRequest_sound r s
  | .perstN low => execPerstN_sound low s
  | .hotReset => execHotReset_sound s
  | .functionLevelReset => execFunctionLevelReset_sound s
  | .dmaCompletion c data => execDmaCompletion_sound c data s
  | .dmaCompletionTimeout c => execDmaCompletionTimeout_sound c s
  | .qspiRead addr len late => execQspiRead_sound addr len late s
  | .qspiWrite addr data => execQspiWrite_sound addr data s
  | .qspiQread addr len late => execQspiQread_sound addr len late s
  | .qspiQwrite addr data => execQspiQwrite_sound addr data s
  | .qspiStatus => execQspiStatus_sound s
  | .qspiBadOp op => execQspiBadOp_sound op s
  | .mbLockRead b readers => execMbLockRead_sound b readers s
  | .mbLockRelease m b => execMbLockRelease_sound m b s
  | .mbPostWrite m b hi w => execMbPostWrite_sound m b hi w s
  | .mbDoorbell m b w => execMbDoorbell_sound m b w s
  | .mbNoticeAck m b w => execMbNoticeAck_sound m b w s
  | .commandStart b => execCommandStart_sound b s
  | .commandComplete b => execCommandComplete_sound b s
  | .noticePost b => execNoticePost_sound b s
  | .nop b => execNop_sound b s
  | .fwInfo b => execFwInfo_sound b s
  | .healthQuery b => execHealthQuery_sound b s
  | .watchRestart b => execWatchRestart_sound b s
  | .chConfig b => execChConfig_sound b s
  | .chQuery b => execChQuery_sound b s
  | .pipLoad b => execPipLoad_sound b s
  | .pipSwap b => execPipSwap_sound b s
  | .axisConfig b => execAxisConfig_sound b s
  | .emulConfig b => execEmulConfig_sound b s
  | .adcConfig b => execAdcConfig_sound b s
  | .adcStream b => execAdcStream_sound b s
  | .substPolicy b => execSubstPolicy_sound b s
  | .adaptSet b => execAdaptSet_sound b s
  | .adaptLock b => execAdaptLock_sound b s
  | .measureCable b => execMeasureCable_sound b s
  | .measureLoad b => execMeasureLoad_sound b s
  | .partnerRead b bytes => execPartnerRead_sound b bytes s
  | .sleep b => execSleep_sound b s
  | .wake b => execWake_sound b s
  | .abortGo m w => execAbortGo_sound m w s
  | .abortRelease m w => execAbortRelease_sound m w s
  | .abortDone => execAbortDone_sound s
  | .safeNFall width => execSafeNFall_sound width s
  | .safeNRise => execSafeNRise_sound s
  | .watchViolation core store addr => execWatchViolation_sound core store addr s
  | .heartbeatWrite core => execHeartbeatWrite_sound core s
  | .heartbeatTimeout core => execHeartbeatTimeout_sound core s
  | .watchCoreFault core => execWatchCoreFault_sound core s
  | .codeDigestCheck ok flashOk => execCodeDigestCheck_sound ok flashOk s
  | .restartDelayEnd => execRestartDelayEnd_sound s
  | .restartComplete => execRestartComplete_sound s
  | .keeperWatchdog => execKeeperWatchdog_sound s
  | .keeperRebootDone => execKeeperRebootDone_sound s
  | .buoySelfTestDone p pass => execBuoySelfTestDone_sound p pass s
  | .shadowMismatch p output forced ts => execShadowMismatch_sound p output forced ts s
  | .shadowPeriodEnd p => execShadowPeriodEnd_sound p s
  | .quarantineTestDone p pass => execQuarantineTestDone_sound p pass s
  | .takeoverSpacingEnd p => execTakeoverSpacingEnd_sound p s
  | .spareMove n => execSpareMove_sound n s
  | .spareMoveBack n => execSpareMoveBack_sound n s
  | .ltXchkCorrect a b => execLtXchkCorrect_sound a b s
  | .xinFail => execXinFail_sound s
  | .xinRestore => execXinRestore_sound s
  | .adcConversionEnd sl raw spareRaw => execAdcConversionEnd_sound sl raw spareRaw s
  | .adcSelWrite sl w => execAdcSelWrite_sound sl w s
  | .adcDataRead m sl => execAdcDataRead_sound m sl s
  | .refReady => execRefReady_sound s
  | .calRotationStart => execCalRotationStart_sound s
  | .calDone z f => execCalDone_sound z f s
  | .adcStrRdWrite w => execAdcStrRdWrite_sound w s
  | .supplyFault r => execSupplyFault_sound r s
  | .supplyFaultClear r => execSupplyFaultClear_sound r s
  | .vioTrack p mv => execVioTrack_sound p mv s
  | .tempMeasure t => execTempMeasure_sound t s
  | .measureStart => execMeasureStart_sound s
  | .measureDone r => execMeasureDone_sound r s
  | .measureGapTimeout => execMeasureGapTimeout_sound s
  | .adaptDeclare pol idx meas => execAdaptDeclare_sound pol idx meas s
  | .adaptDeferRetry pol idx => execAdaptDeferRetry_sound pol idx s
  | .adaptEpoch pol idx => execAdaptEpoch_sound pol idx s
  | .coreReset avdd => execCoreReset_sound avdd s
  | .vioBrownout p => execVioBrownout_sound p s
  | .vioReturn p => execVioReturn_sound p s
  | .peRailDrop vddh => execPeRailDrop_sound vddh s
  | .resetN acts => execResetN_sound acts s
  | .coreResetRelease straps primary alternate selfTest => execCoreResetRelease_sound straps primary alternate selfTest s
  | .fwReady => execFwReady_sound s
  | .bootCmdLoad m image selfTest => execBootCmdLoad_sound m image selfTest s
  | .bootCmdFlash m image => execBootCmdFlash_sound m image s
  | .pllLock => execPllLock_sound s
  | .sleepEntryDone => execSleepEntryDone_sound s
  | .autoWake => execAutoWake_sound s
  | .wakeSource w => execWakeSource_sound w s
  | .runReached => execRunReached_sound s
  | .testmode high => execTestmode_sound high s
  | .atbSelWrite w => execAtbSelWrite_sound w s
  | .jtagReset => execJtagReset_sound s
  | .extest => execExtest_sound s
  | .samplePreload drive level => execSamplePreload_sound drive level s
  | .idcode => execIdcode_sound s
  | .clamp => execClamp_sound s
  | .highz => execHighz_sound s
  | .debug => execDebug_sound s
  | .bypass => execBypass_sound s
  | .debugUnlock tokenOk => execDebugUnlock_sound tokenOk s
  | .xinOscStable => execXinOscStable_sound s
  | .linkDown => execLinkDown_sound s

theorem State.idle_memOk {s : State} (h : s.memOk) : s.idle.memOk := (State.idle_sound s).1 h

theorem State.aonReset_memOk (cold : Bool) (s : State) : (s.aonReset cold).memOk := rfl

theorem exec_memOk {c : Instr} {s t : State} (h : s.memOk) (e : exec c s = .next t) : t.memOk := by
  by_cases hc : ∃ cold, c = .aonPor cold
  · obtain ⟨cold, rfl⟩ := hc
    cases e
    exact State.aonReset_memOk cold s
  · obtain ⟨u, eu, sound⟩ := exec_sound c s fun cold e => hc ⟨cold, e⟩
    cases e.symm.trans eu
    exact sound.1 h

/-- Settles O1: the two branches of `step`; what time does on an empty queue leaves the queue. -/
theorem stepRunsFrontCommand : Obligations.StepRunsFrontCommand := by
  unfold Obligations.StepRunsFrontCommand
  refine ⟨fun c rest s => rfl, fun s empty => ⟨?_, ?_⟩⟩
  · rw [step, empty]
  · exact (State.idle_keeps s).1.trans empty

/-- Settles O2. -/
theorem everyCommandAnswers : Obligations.EveryCommandAnswers := exec_next_pending

/-- Settles O3: a command (`exec_memOk`) and the passing of time keep the form. -/
theorem storeFormKept : Obligations.StoreFormKept := by
  unfold Obligations.StoreFormKept
  intro s t ok e
  unfold step at e
  split at e
  case h_1 c rest _ =>
    have ok' : ({ s with pending := rest } : State).memOk := ok
    exact exec_memOk ok' e
  case h_2 =>
    cases e
    exact State.idle_memOk ok

/-- Settles O4: after reset the store lists no byte. -/
theorem storeFormAtReset : Obligations.StoreFormAtReset := ⟨rfl, fun _ => rfl⟩

/-- Settles O5: every command but the power-on reset is `Sound`, and so is the passing of time. -/
theorem lineTimeNeverDecreases : Obligations.LineTimeNeverDecreases := by
  unfold Obligations.LineTimeNeverDecreases
  refine ⟨fun c s t hc e => ?_, fun s => (State.idle_sound s).2⟩
  obtain ⟨u, eu, sound⟩ := exec_sound c s hc
  cases e.symm.trans eu
  exact sound.2

end Sys2Proof.Machine
end

section
/-!
The encoding of the Pip instructions (R100): opcode, operand fields and side-set are disjoint bits of the word, so each is read back as it was put.
-/
namespace Sys2Proof.Machine

theorem bn_eq_toNat_mul (lo : Nat) (b : Bool) : bn lo b = b.toNat * 2 ^ lo := by
  cases b <;> simp [bn]

theorem fin_eq_iff {k v : Nat} {x : Fin k} {h : 0 < k} : fin k h v = x ↔ v % k = x.val := Fin.ext_iff

theorem bitAt_eq_iff {w lo : Nat} {b : Bool} : bitAt w lo = b ↔ w / 2 ^ lo % 2 = b.toNat := by
  cases b <;> simp [bitAt]

/-- The number of an operation's row in the table of R100. -/
def PipOp.opcode : PipOp → Nat
  | .waitcyc .. => 0 | .waitpin .. => 1 | .waitflag .. => 2 | .waitirq .. => 3 | .out .. => 4 | .inp .. => 5 | .setMask .. => 6 | .setVal .. => 6
  | .jmp .. => 7 | .loop .. => 8 | .cmp .. => 9 | .push .. => 10 | .pull .. => 11 | .irq .. => 12 | .mov .. => 13 | .swap .. => 14 | .stop .. => 15

theorem bitsAt_pipOpBits_opcode (o : PipOp) {side : Nat} (hs : side < 4) : bitsAt (pipOpBits o + side * 0x400) 12 4 = o.opcode := by
  cases o <;> simp only [PipOp.opcode, bitsAt, pipOpBits, bn_eq_toNat_mul] <;> grind [Bool.toNat_le]

/-- The bits of the side-set (R102) do not touch those of the operation. -/
theorem pipOp_pipOpBits (o : PipOp) {side : Nat} (hs : side < 4) : pipOp (pipOpBits o + side * 0x400) = o := by
  have code := bitsAt_pipOpBits_opcode o hs
  unfold pipOp
  cases o <;> simp only [PipOp.opcode] at code <;> simp only [code]
  case setMask flags msk val =>
    have mode : bitAt (pipOpBits (.setMask flags msk val) + side * 0x400) 9 = false := by
      simp only [bitAt_eq_iff, pipOpBits, bn_eq_toNat_mul]; grind [Bool.toNat_le]
    rw [if_neg (by simp [mode])]
    simp only [PipOp.setMask.injEq, fin_eq_iff, bitAt_eq_iff, bitsAt, pipOpBits, bn_eq_toNat_mul]
    grind [Bool.toNat_le]
  case setVal cv val =>
    have mode : bitAt (pipOpBits (.setVal cv val) + side * 0x400) 9 = true := by
      simp only [bitAt_eq_iff, pipOpBits, bn_eq_toNat_mul]; grind [Bool.toNat_le]
    rw [if_pos mode]
    simp only [PipOp.setVal.injEq, fin_eq_iff, bitAt_eq_iff, bitsAt, pipOpBits, bn_eq_toNat_mul]
    grind [Bool.toNat_le]
  all_goals
    simp only [PipOp.waitcyc.injEq, PipOp.waitpin.injEq, PipOp.waitflag.injEq, PipOp.waitirq.injEq, PipOp.out.injEq, PipOp.inp.injEq, PipOp.jmp.injEq,
      PipOp.loop.injEq, PipOp.cmp.injEq, PipOp.push.injEq, PipOp.pull.injEq, PipOp.irq.injEq, PipOp.mov.injEq, PipOp.swap.injEq, PipOp.stop.injEq,
      fin_eq_iff, bitAt_eq_iff, bitsAt, pipOpBits, bn_eq_toNat_mul]
    grind [Bool.toNat_le]

/-- The two bits of the side-set: enable and value. -/
def sideBits : Option Bool → Nat
  | none => 0
  | some v => 2 + v.toNat

theorem sideBits_lt (v : Option Bool) : sideBits v < 4 := by
  rcases v with - | - | - <;> decide

theorem pipOpBits_lt (o : PipOp) : pipOpBits o < 0x10000 - 3 * 0x400 := by
  cases o <;> simp only [pipOpBits, bn_eq_toNat_mul] <;> grind [Bool.toNat_le]

theorem pipOpBits_side (o : PipOp) : pipOpBits o / 0x400 % 4 = 0 := by
  cases o <;> simp only [pipOpBits, bn_eq_toNat_mul] <;> grind [Bool.toNat_le]

theorem pipEncode_toNat (i : PipInstr) : (pipEncode i).toNat = pipOpBits i.op + sideBits i.side * 0x400 := by
  have operand := pipOpBits_lt i.op
  have enable := sideBits_lt i.side
  have word : pipEncode i = BitVec.ofNat 16 (pipOpBits i.op + sideBits i.side * 0x400) := by
    unfold pipEncode
    rcases i.side with - | - | - <;> rfl
  rw [word, BitVec.toNat_ofNat, Nat.mod_eq_of_lt (by omega)]

/-- Settles O6: the word is the operation's bits and the side-set's two (`pipEncode_toNat`), and each is read back from it. -/
theorem pipDecodeOfEncode : Obligations.PipDecodeOfEncode := by
  unfold Obligations.PipDecodeOfEncode
  intro i
  have between := pipOpBits_side i.op
  have bits (k : Nat) : (pipEncode i).getLsbD k = decide ((pipOpBits i.op + sideBits i.side * 0x400) / 2 ^ k % 2 = 1) := by
    rw [← pipEncode_toNat, ← Nat.testBit_eq_decide_div_mod_eq, BitVec.testBit_toNat]
  have side : (if (pipEncode i).getLsbD 11 then some ((pipEncode i).getLsbD 10) else none) = i.side := by
    have enable := sideBits_lt i.side
    have set : (pipOpBits i.op + sideBits i.side * 0x400) / 2 ^ 11 % 2 = sideBits i.side / 2 := by omega
    have value : (pipOpBits i.op + sideBits i.side * 0x400) / 2 ^ 10 % 2 = sideBits i.side % 2 := by omega
    rw [bits, bits, set, value]
    rcases i.side with - | - | - <;> rfl
  rw [pipDecode, side, pipEncode_toNat, pipOp_pipOpBits _ (sideBits_lt _)]

end Sys2Proof.Machine
end

section
/-!
Reads of the register bus (R4, R5, R14, R16): a low word, both words at once, and the counts that a read clears.
-/
namespace Sys2Proof.Machine

theorem OnlyMaster.refl (m : Master) (s : State) : OnlyMaster m s s := fun _ _ => rfl

theorem OnlyMaster.trans {m : Master} {s t u : State} (h : OnlyMaster m s t) (k : OnlyMaster m t u) : OnlyMaster m s u :=
  fun i hi => (k i hi).trans (h i hi)

theorem OnlyMaster.of_master_eq {m : Master} {s t : State} (h : t.master = s.master) : OnlyMaster m s t := fun i _ => by rw [h]

theorem OnlyMaster.of_keeps {m : Master} {l : List Part} {s t : State} (h : Keeps l s t) (hl : Part.master ∉ l) : OnlyMaster m s t :=
  .of_master_eq (h.2 .master hl)

/-! ### Which addresses hold a wide register does not depend on the state -/

theorem globalWide_isSome (o : Nat) (s t : State) : (globalWide o s).isSome = (globalWide o t).isSome := by
  unfold globalWide
  split
  case h_10 => split <;> rfl
  all_goals rfl

theorem chanWide_isSome (n : Ch) (o : Nat) (s t : State) : (chanWide n o s).isSome = (chanWide n o t).isSome := by
  unfold chanWide
  dsimp only
  split
  case h_5 => split_ifs <;> rfl
  all_goals rfl

theorem axisWide_isSome (k : Ax) (o : Nat) (s t : State) : (axisWide k o s).isSome = (axisWide k o t).isSome := by
  unfold axisWide
  split <;> simp only [Option.isSome_some, Option.isSome_none]

theorem busWide_isSome (m : Master) (a : Nat) (s t : State) : (busWide m a s).isSome = (busWide m a t).isSome := by
  unfold busWide
  rcases blockOf a with ⟨b, o⟩
  cases b
  case global => exact globalWide_isSome o s t
  case chan n => dsimp only; split; exacts [rfl, chanWide_isSome n o s t]
  case axis k => exact axisWide_isSome k o s t
  case abort => dsimp only; split <;> rfl
  case adc => unfold adcWide; dsimp only; split_ifs <;> rfl
  case pod p => unfold podWide; dsimp only; split_ifs <;> rfl
  all_goals rfl

/-! ### A read of a low word -/

/-- The address of a channel's CAP_TS_LO is its place in the block. -/
theorem eq_chBase_of_blockOf {a o : Nat} {n : Ch} (h : blockOf a = (.chan n, o)) : a = chBase n + o := by
  have e := base_add_blockOf a
  rw [h] at e
  exact e.symm

/-- But CHn_CAP_TS_LO none of the registers whose read acts is the low word of a wide register. -/
theorem State.busRead_low_word {m : Master} {a : Nat} (s : State) (ha : a % 4 = 0) (hm : readDenied m a = none)
    (hw : WideLow (blockOf a).1 (blockOf a).2) (hc : ∀ n : Ch, a ≠ chBase n + 0x108) : s.busRead m a = s.plainRead m a := by
  have word : a / 4 * 4 = a := by omega
  unfold State.busRead
  simp only [word, hm]
  rcases hb : blockOf a with ⟨b, o⟩
  rw [hb] at hw
  cases b <;> simp only [WideLow] at hw ⊢
  case chan n =>
    have ts : o ≠ 0x108 := fun e => hc n (e ▸ eq_chBase_of_blockOf hb)
    rw [if_neg ts, if_neg (by omega)]
  case adc => rw [if_neg (by omega)]

theorem State.plainRead_low_word {m : Master} {a v : Nat} {s : State} (h : busWide m a (busSettle a s) = some v) :
    s.plainRead m a = (busTake m a (busSettle a s)).lowRead m a v := by
  simp [State.plainRead, h]

/-- Line Time but for the largest value read. -/
def SameTimeButSeen (s t : State) : Prop := t.time = { s.time with seen := t.time.seen }

theorem SameTimeButSeen.of_eq {s t : State} (h : t.time = s.time) : SameTimeButSeen s t := by
  unfold SameTimeButSeen; rw [h]

/-- A read of the low word of a global register that is wide does no more than sample Line Time. -/
theorem globalTake_of_wideLow {o : Nat} (s : State) (h : WideLow .global o) : globalTake o s = s.sampled ∨ globalTake o s = s := by
  simp only [WideLow] at h
  rcases h with rfl | rfl | rfl | rfl | rfl | rfl | rfl | rfl | rfl | range
  case inr.inr.inr.inr.inr.inr.inr.inr.inr =>
    refine .inr ?_
    unfold globalTake
    dsimp only
    split
    case h_11 => rw [if_neg (by omega)]
    all_goals omega
  case inl | inr.inl => exact .inl rfl
  all_goals exact .inr rfl

theorem busTake_of_wideLow (m : Master) {a : Nat} (s : State) (h : WideLow (blockOf a).1 (blockOf a).2) :
    Keeps [.time, .ch, .axis, .pod, .free] s (busTake m a s) ∧ SameTimeButSeen s (busTake m a s) := by
  unfold busTake
  generalize blockOf a = x at h ⊢
  obtain ⟨b, o⟩ := x
  cases b <;> dsimp only at h ⊢
  case global =>
    rcases globalTake_of_wideLow s h with e | e <;> rw [e]
    · exact ⟨(State.sampled_keeps s).mono (by decide), rfl⟩
    · exact ⟨Keeps.refl _ s, .of_eq rfl⟩
  case chan n => exact ⟨(chanTake_keeps n o s).mono (by decide), .of_eq ((chanTake_keeps n o s).2 .time (by decide))⟩
  case axis k => exact ⟨(axisTake_keeps m k o s).mono (by decide), .of_eq ((axisTake_keeps m k o s).2 .time (by decide))⟩
  case pod p => exact ⟨(podTake_keeps p o s).mono (by decide), .of_eq ((podTake_keeps p o s).2 .time (by decide))⟩
  case abort =>
    simp only [WideLow] at h
    rw [if_neg (by omega)]
    exact ⟨Keeps.refl _ s, .of_eq rfl⟩
  case adc =>
    simp only [WideLow] at h
    have none : adcTake o s = s := by
      unfold adcTake
      dsimp only
      split
      case h_3 => rw [if_neg (by omega)]
      all_goals omega
    rw [none]
    exact ⟨Keeps.refl _ s, .of_eq rfl⟩
  all_goals exact h.elim

theorem State.lowRead_onlyMaster (m : Master) (a v : Nat) (s : State) : OnlyMaster m s (s.lowRead m a v) :=
  State.modMaster_onlyMaster m _ s

@[simp] theorem State.lowRead_master_same (m : Master) (a v : Nat) (s : State) : (s.lowRead m a v).master[m.idx] =
    { s.master[m.idx] with rdata := lo32 v, shadow := hi32 v, addr := BitVec.ofNat 24 a, valid := true } :=
  State.modMaster_master_same ..

/-- What a low-word read does (R14). -/
theorem State.busRead_low_word_spec {m : Master} {a v : Nat} {s : State} (ha : a % 4 = 0) (hd : readDenied m a = none)
    (hc : ∀ n : Ch, a ≠ chBase n + 0x108) (hv : busWide m a (busSettle a s) = some v) :
    (s.busRead m a).master[m.idx] = { s.master[m.idx] with rdata := lo32 v, shadow := hi32 v, addr := BitVec.ofNat 24 a, valid := true } ∧
      OnlyMaster m s (s.busRead m a) ∧ SameTimeButSeen s (s.busRead m a) ∧ Keeps [.master, .time, .ch, .axis, .pod, .free] s (s.busRead m a) := by
  have hw := wideLow_of_busWide hv
  have settled := busSettle_keeps a s
  obtain ⟨took, seen⟩ := busTake_of_wideLow m (busSettle a s) hw
  rw [State.busRead_low_word s ha hd hw hc, State.plainRead_low_word hv]
  refine ⟨?_, ?_, ?_, ?_⟩
  · rw [State.lowRead_master_same, busTake_master, busSettle_master]
  · exact (OnlyMaster.of_keeps settled (by decide)).trans ((OnlyMaster.of_keeps took (by decide)).trans (State.lowRead_onlyMaster m a v _))
  · exact seen.trans (by rw [settled.2 .time (by decide)]; rfl)
  · exact ((settled.mono (by decide)).step took (by decide)).step (State.lowRead_keeps ..) (by decide)

/-- The second read of an 8-byte read finds the shadow of the first (R15, R16). -/
theorem State.busRead_high_word_shadow {m : Master} {a v : Nat} {s : State} (ha : a % 4 = 0) (hd : readDenied m (a + 4) = none)
    (hv : busWide m a s = some v) (hs : s.master[m.idx].valid = true ∧ s.master[m.idx].addr = BitVec.ofNat 24 a) :
    (s.busRead m (a + 4)).master[m.idx] = { s.master[m.idx] with rdata := s.master[m.idx].shadow } ∧ OnlyMaster m s (s.busRead m (a + 4)) := by
  obtain ⟨w, hw⟩ : ∃ w, busWide m a (busSettle (a + 4) s) = some w := by
    rw [← Option.isSome_iff_exists, ← busWide_isSome m a s, hv, Option.isSome_some]
  rw [State.busRead_high_word s ha hd (wideLow_of_busWide hv), State.plainRead_high_word hw]
  refine ⟨?_, fun i hi => ?_⟩
  · rw [State.highRead_master_same, busTake_master, busSettle_master, if_pos hs]
  · rw [State.highRead_onlyMaster _ _ _ _ i hi, busTake_master, busSettle_master]

/-- Settles O7: the read reaches `State.lowRead`; the second half of an 8-byte read finds the shadow just loaded. -/
theorem wideReads : Obligations.WideReads := by
  unfold Obligations.WideReads
  refine ⟨fun m a v s hs ha hd hc hv => ?_, fun a v s hs ha hc hv => ?_⟩
  · obtain ⟨same, only, seen, keeps⟩ := State.busRead_low_word_spec ha hd hc hv
    refine ⟨(found m s).busRead m a, congrArg Host.Outcome.next (access_served hs), ?_, fun i hi => ?_, ?_, keeps⟩
    · rw [same, found_master]
    · rw [only i hi, found_master]
    · rw [← found_time m s]; exact seen
  · have denied (b : Nat) : readDenied .pcie b = none := by unfold readDenied; split <;> rfl
    obtain ⟨low, lowOnly, -, -⟩ := State.busRead_low_word_spec ha (denied a) hc hv
    obtain ⟨w, hw⟩ : ∃ w, busWide .pcie a ((found .pcie s).busRead .pcie a) = some w := by
      rw [← Option.isSome_iff_exists, busWide_isSome .pcie a _ (busSettle a (found .pcie s)), hv, Option.isSome_some]
    obtain ⟨high, highOnly⟩ := State.busRead_high_word_shadow ha (denied (a + 4)) hw (by rw [low]; exact ⟨rfl, rfl⟩)
    refine ⟨(found .pcie s).wideRead a, congrArg Host.Outcome.next (access_served hs), ?_, fun i hi => ?_⟩
    · unfold State.wideRead
      rw [State.modMaster_master_same, high, low, found_master]
    · unfold State.wideRead
      rw [State.modMaster_onlyMaster _ _ _ i hi, highOnly i hi, lowOnly i hi, found_master]

end Sys2Proof.Machine
end

section
/-!
What an update of one part of the state leaves alone, and how a command of a register-bus master that is served is carried out.
-/
namespace Sys2Proof.Machine

variable (s : State)

theorem Keeps.setTime (x : Time) : Keeps [.time] s { s with time := x } :=
  ⟨rfl, fun part other => by
    cases part
    case time => exact absurd (List.mem_singleton.mpr rfl) other
    all_goals exact Eq.refl _⟩

theorem Keeps.setGuar (x : Guar) : Keeps [.guar] s { s with guar := x } :=
  ⟨rfl, fun part other => by
    cases part
    case guar => exact absurd (List.mem_singleton.mpr rfl) other
    all_goals exact Eq.refl _⟩

theorem Keeps.setCal (x : Calendar) : Keeps [.cal] s { s with cal := x } :=
  ⟨rfl, fun part other => by
    cases part
    case cal => exact absurd (List.mem_singleton.mpr rfl) other
    all_goals exact Eq.refl _⟩

theorem Keeps.setEic (x : Eic) : Keeps [.eic] s { s with eic := x } :=
  ⟨rfl, fun part other => by
    cases part
    case eic => exact absurd (List.mem_singleton.mpr rfl) other
    all_goals exact Eq.refl _⟩

theorem Keeps.setAbort (x : Abort) : Keeps [.abort] s { s with abort := x } :=
  ⟨rfl, fun part other => by
    cases part
    case abort => exact absurd (List.mem_singleton.mpr rfl) other
    all_goals exact Eq.refl _⟩

theorem Keeps.setFw (x : Firmware) : Keeps [.fw] s { s with fw := x } :=
  ⟨rfl, fun part other => by
    cases part
    case fw => exact absurd (List.mem_singleton.mpr rfl) other
    all_goals exact Eq.refl _⟩

theorem Keeps.setHealth (x : Health) : Keeps [.health] s { s with health := x } :=
  ⟨rfl, fun part other => by
    cases part
    case health => exact absurd (List.mem_singleton.mpr rfl) other
    all_goals exact Eq.refl _⟩

theorem Keeps.setPcie (x : Pcie) : Keeps [.pcie] s { s with pcie := x } :=
  ⟨rfl, fun part other => by
    cases part
    case pcie => exact absurd (List.mem_singleton.mpr rfl) other
    all_goals exact Eq.refl _⟩

theorem Keeps.setAdc (x : Adc) : Keeps [.adc] s { s with adc := x } :=
  ⟨rfl, fun part other => by
    cases part
    case adc => exact absurd (List.mem_singleton.mpr rfl) other
    all_goals exact Eq.refl _⟩

theorem Keeps.setSur (x : Sur) : Keeps [.sur] s { s with sur := x } :=
  ⟨rfl, fun part other => by
    cases part
    case sur => exact absurd (List.mem_singleton.mpr rfl) other
    all_goals exact Eq.refl _⟩

theorem Keeps.setPwr (x : Power) : Keeps [.pwr] s { s with pwr := x } :=
  ⟨rfl, fun part other => by
    cases part
    case pwr => exact absurd (List.mem_singleton.mpr rfl) other
    all_goals exact Eq.refl _⟩

theorem Keeps.setBoot (x : Boot) : Keeps [.boot] s { s with boot := x } :=
  ⟨rfl, fun part other => by
    cases part
    case boot => exact absurd (List.mem_singleton.mpr rfl) other
    all_goals exact Eq.refl _⟩

theorem Keeps.setJtag (x : Jtag) : Keeps [.jtag] s { s with jtag := x } :=
  ⟨rfl, fun part other => by
    cases part
    case jtag => exact absurd (List.mem_singleton.mpr rfl) other
    all_goals exact Eq.refl _⟩

/-- A command of a master that is served does on the state it finds what it does. -/
theorem exec_served {m : Master} {row i : Instr} {f : State → State} {s : State} (run : exec i s = .next (s.access m row f)) (hs : served m row s = true) :
    exec i s = .next (f (found m s)) :=
  run.trans (congrArg Host.Outcome.next (access_served hs))

end Sys2Proof.Machine
end

section
/-!
Counts that a read clears, writes by access code and through holding registers, and accesses that are not served (R4 to R7, R18, R248, R250, R357, R366).
-/
namespace Sys2Proof.Machine

/-! ### Counts that a read clears -/

/-- A read of a register that is neither wide nor the high word of one, in a block whose reads do not act. -/
theorem State.busRead_word {m : Master} {a : Nat} {s : State} (ha : a % 4 = 0) (hd : readDenied m a = none)
    (hb : (∃ o, blockOf a = (.global, o)) ∨ (∃ o, blockOf a = (.abort, o)) ∨ (∃ p o, blockOf a = (.pod p, o)) ∨ (blockOf a = (.adc, 0x54)))
    (low : busWide m a s = none) (high : busWide m (a - 4) s = none) :
    s.busRead m a = (busTake m a s).ret m (busWord m a s) := by
  have word : a / 4 * 4 = a := by omega
  have plain : s.plainRead m a = (busTake m a s).ret m (busWord m a s) := by
    have settle : busSettle a s = s := by
      unfold busSettle
      rcases hb with ⟨o, e⟩ | ⟨o, e⟩ | ⟨p, o, e⟩ | e <;> rw [e]
    unfold State.plainRead
    simp only [settle, low, high, ite_self]
  unfold State.busRead
  simp only [word, hd]
  rcases hb with ⟨o, e⟩ | ⟨o, e⟩ | ⟨p, o, e⟩ | e <;> rw [e] <;> exact plain

theorem readDenied_of_not_health {m : Master} {a : Nat} (h : a < 0x600 ∨ 0x700 ≤ a) : readDenied m a = none :=
  if_neg (by omega)

/-- What a read that only takes a count of one part does. -/
theorem read_count_spec {m : Master} {l : List Part} {s t : State} (w : W) (keeps : Keeps l (found m s) t) (hl : Part.master ∉ l) :
    (t.ret m w).master[m.idx] = { s.master[m.idx] with rdata := w } ∧ OnlyMaster m s (t.ret m w) ∧ Keeps (.master :: l) (found m s) (t.ret m w) := by
  have same : t.master = s.master := (keeps.2 .master hl).trans (found_master m s)
  refine ⟨?_, ?_, ?_⟩
  · unfold State.ret
    rw [State.modMaster_master_same, same]
  · exact (OnlyMaster.of_master_eq same).trans (State.modMaster_onlyMaster m _ t)
  · exact (keeps.mono fun p hp => List.mem_cons_of_mem _ hp).step (State.ret_keeps ..) (by simp)

theorem blockOf_podRes (p : Pod) : blockOf (0x91028 + 0x2000 * p.val) = (.pod p, 0x1028) :=
  blockOf_of_eq_base_add (by simp only [Block.base]; omega) (by simp [Block.size])

theorem blockOf_podRes_sub_four (p : Pod) : blockOf (0x91028 + 0x2000 * p.val - 4) = (.pod p, 0x1024) :=
  blockOf_of_eq_base_add (by simp only [Block.base]; omega) (by simp [Block.size])

theorem State.modPod_onlyPod (p : Pod) (f : PodSt → PodSt) (s : State) : OnlyPod p s (s.modPod p f) :=
  fun m hm => State.modPod_pod_other s p m f hm

/-- Settles O9: each read is `State.busRead_word`; what it returns and leaves is `RcCnt.view` and `RcCnt.read`. -/
theorem readAndClearKeepsNew : Obligations.ReadAndClearKeepsNew := by
  unfold Obligations.ReadAndClearKeepsNew
  intro m s
  refine ⟨fun hs => ?_, fun hs => ?_, fun hs => ?_, fun p hs => ?_⟩
  · have read : (found m s).busRead m 0x21C = _ := State.busRead_word rfl (readDenied_of_not_health (by decide)) (.inl ⟨_, rfl⟩) rfl rfl
    obtain ⟨same, only, keeps⟩ := read_count_spec (busWord m 0x21C (found m s)) (Keeps.setCal (found m s) _) (by decide)
    refine ⟨_, (exec_served rfl hs).trans (congrArg _ read), ?_, only, ?_, ?_, keeps⟩
    · exact same.trans (by simp [busWord, blockOf, globalWord, RcCnt.view])
    · simp [busTake, blockOf, globalTake]
    · simp [busTake, blockOf, globalTake, RcCnt.read]
  · have read : (found m s).busRead m 0x11038 = _ := State.busRead_word rfl (readDenied_of_not_health (by decide)) (.inr (.inl ⟨_, rfl⟩)) rfl rfl
    obtain ⟨same, only, keeps⟩ := read_count_spec (busWord m 0x11038 (found m s)) (Keeps.setAbort (found m s) _) (by decide)
    refine ⟨_, (exec_served rfl hs).trans (congrArg _ read), ?_, only, ?_, ?_, keeps⟩
    · exact same.trans (by simp [busWord, blockOf, abortWord, RcCnt.view])
    · simp [busTake, blockOf]
    · simp [busTake, blockOf, RcCnt.read]
  · have read : (found m s).busRead m 0x88054 = _ := State.busRead_word rfl (readDenied_of_not_health (by decide)) (.inr (.inr (.inr rfl))) rfl rfl
    obtain ⟨same, only, keeps⟩ := read_count_spec (busWord m 0x88054 (found m s)) (Keeps.setAdc (found m s) _) (by decide)
    refine ⟨_, (exec_served rfl hs).trans (congrArg _ read), ?_, only, ?_, ?_, keeps⟩
    · exact same.trans (by simp [busWord, blockOf, adcWord, RcCnt.view])
    · simp [busTake, blockOf, adcTake]
    · simp [busTake, blockOf, adcTake, RcCnt.read]
  · have block := blockOf_podRes p
    have took : busTake m (0x91028 + 0x2000 * p.val) (found m s) =
        (found m s).modPod p (fun q => { q with res := { q.res with gap := q.res.gap.read s.tick } }) := by
      simp [busTake, block, podTake]
    have word : busWord m (0x91028 + 0x2000 * p.val) (found m s) = put 0 (s.pod[p].res.gap.view s.tick) := by
      simp [busWord, block, podWord]
    have read : (found m s).busRead m (0x91028 + 0x2000 * p.val) = _ :=
      State.busRead_word (by omega) (readDenied_of_not_health (by omega)) (.inr (.inr (.inl ⟨p, _, block⟩)))
        (by simp [busWide, block, podWide]) (by simp [busWide, blockOf_podRes_sub_four, podWide])
    rw [took, word] at read
    obtain ⟨same, only, keeps⟩ := read_count_spec (put 0 (s.pod[p].res.gap.view s.tick)) (State.modPod_keeps p _ (found m s)) (by decide)
    refine ⟨_, (exec_served rfl hs).trans (congrArg _ read), same, only, ?_, ?_, fun q hq => ?_, keeps⟩
    · rw [State.ret_pod, State.modPod_pod_same, found_pod]
    · rw [State.ret_pod, State.modPod_pod_same, found_pod, RcCnt.read]
    · rw [State.ret_pod, State.modPod_onlyPod p _ _ q hq, found_pod]

/-! ### Holding registers -/

section
variable {α : Type} (k : Nat) (v d : α) (l : List (Nat × α))

@[simp] theorem lookupD_upsert_same : lookupD k d (upsert k v l) = v := by
  induction l with
  | nil => simp [upsert, lookupD]
  | cons x l ih =>
    unfold upsert
    split_ifs with below same <;> simp only [lookupD]
    · rw [if_neg (by omega), ih]
    all_goals rw [if_pos trivial]

theorem lookupD_upsert_other {j : Nat} (h : j ≠ k) : lookupD j d (upsert k v l) = lookupD j d l := by
  have h' : ¬ k = j := fun e => h e.symm
  induction l with
  | nil => simp [upsert, lookupD, h']
  | cons x l ih =>
    unfold upsert
    split_ifs with below same <;> simp only [lookupD]
    · rw [ih]
    · rw [if_neg h', if_neg (by omega)]
    · rw [if_neg h']

end

theorem State.setHolding_master_same (m : Master) (a : Nat) (w : W) (s : State) :
    (s.setHolding m a w).master[m.idx] = { s.master[m.idx] with hold := upsert a w s.master[m.idx].hold } :=
  State.modMaster_master_same ..

/-- What a write to a holding register does (R18). -/
theorem State.setHolding_spec (m : Master) (a : Nat) (w : W) (s : State) :
    (s.setHolding m a w).holding m a = w ∧ (∀ b, b ≠ a → (s.setHolding m a w).holding m b = s.holding m b) ∧
      (s.setHolding m a w).master[m.idx] = { s.master[m.idx] with hold := (s.setHolding m a w).master[m.idx].hold } ∧
      OnlyMaster m s (s.setHolding m a w) ∧ Keeps [.master] s (s.setHolding m a w) := by
  refine ⟨?_, fun b hb => ?_, ?_, State.modMaster_onlyMaster m _ s, State.setHolding_keeps ..⟩
  · rw [State.holding, State.setHolding_master_same, lookupD_upsert_same]
  · rw [State.holding, State.setHolding_master_same, lookupD_upsert_other _ _ _ _ hb, State.holding]
  · rw [State.setHolding_master_same]

theorem blockOf_chan (n : Ch) {o : Nat} (ho : o < 0x800) : blockOf (chBase n + o) = (.chan n, o) :=
  blockOf_of_eq_base_add rfl ho

theorem State.busWrite_word {m : Master} {a : Nat} (w : W) (s : State) (ha : a % 4 = 0) : s.busWrite m a w 0xF = s.plainWrite m a w := by
  have word : a / 4 * 4 = a := by omega
  rw [State.busWrite, if_neg (by decide), word]

theorem State.busWrite_chan {m : Master} {n : Ch} {o : Nat} (w : W) (s : State) (ho : o < 0x800) (ha : o % 4 = 0) :
    s.busWrite m (chBase n + o) w 0xF = chanWrite m n o w s := by
  have allowed : writeDenied m (chBase n + o) = none := if_neg (by unfold chBase; omega)
  rw [State.busWrite_word w s (by unfold chBase; omega), State.plainWrite, allowed]
  simp only [blockOf_chan n ho]

/-- The registers of a compare unit lie at 0x40 + 0x20 u. -/
theorem chanWrite_unit (m : Master) (n : Ch) (u : Unit4) {k : Nat} (hk : k < 0x20) (w : W) (s : State) :
    chanWrite m n (0x40 + 0x20 * u.val + k) w s = unitWrite m n u k w s := by
  have unit : (⟨(0x40 + 0x20 * u.val + k - 0x40) / 0x20 % 4, Nat.mod_lt _ (by decide)⟩ : Unit4) = u := Fin.ext (by dsimp only; omega)
  have offset : (0x40 + 0x20 * u.val + k) % 0x20 = k := by omega
  generalize ho : 0x40 + 0x20 * u.val + k = o at unit offset ⊢
  unfold chanWrite
  dsimp only
  split
  case h_24 => rw [if_pos (by omega), unit, offset]
  all_goals omega

/-- A write to a register that is held goes to the writing master's holding register. -/
theorem State.busWrite_held {m : Master} {a : Nat} (w : W) (s : State)
    (h : a = 0x110 ∨ ∃ n : Ch, a = chBase n + 0x10 ∨ a = chBase n + 0x20 ∨ a = chBase n + 0x190 ∨
      ∃ u : Unit4, a = unitBase n u ∨ a = unitBase n u + 8 ∨ a = unitBase n u + 0xC) : s.busWrite m a w 0xF = s.setHolding m a w := by
  rcases h with rfl | ⟨n, rfl | rfl | rfl | ⟨u, h⟩⟩
  · rfl
  · exact State.busWrite_chan w s (by decide) rfl
  · exact State.busWrite_chan w s (by decide) rfl
  · exact State.busWrite_chan w s (by decide) rfl
  · obtain ⟨k, hk, rfl⟩ : ∃ k, (k = 0 ∨ k = 8 ∨ k = 0xC) ∧ a = chBase n + (0x40 + 0x20 * u.val + k) := by
      unfold unitBase at h
      rcases h with h | h | h
      exacts [⟨0, .inl rfl, by omega⟩, ⟨8, .inr (.inl rfl), by omega⟩, ⟨0xC, .inr (.inr rfl), by omega⟩]
    have place : chBase n + (0x40 + 0x20 * u.val + k) = unitBase n u + k := by unfold unitBase; omega
    rw [State.busWrite_chan w s (by omega) (by omega), chanWrite_unit m n u (by omega), place]
    rcases hk with rfl | rfl | rfl <;> rfl

theorem join_eq_append (h l : W) : BitVec.ofNat 64 (join h l) = h ++ l := by
  refine BitVec.eq_of_toNat_eq ?_
  rw [BitVec.toNat_append, ← Nat.shiftLeft_add_eq_or_of_lt l.isLt, BitVec.toNat_ofNat, join, Nat.shiftLeft_eq]
  have := h.isLt
  have := l.isLt
  omega

/-- The 48-bit value of a high word and its low word. -/
theorem ofNat48_eq_append (h l : W) : BitVec.ofNat 48 (fld h 0 16 * 2 ^ 32 + l.toNat) = (h ++ l).setWidth 48 := by
  refine BitVec.eq_of_toNat_eq ?_
  rw [BitVec.toNat_setWidth, BitVec.toNat_append, ← Nat.shiftLeft_add_eq_or_of_lt l.isLt, BitVec.toNat_ofNat, fld, Nat.shiftLeft_eq]
  have := h.isLt
  have := l.isLt
  omega

theorem holding_reset (m : Master) (b : Nat) : State.reset.holding m b = 0 := by
  unfold State.holding State.reset
  simp [lookupD]

/-- Settles O10: a held write is `State.setHolding`, and a high-word write commits its word joined with what is held. -/
theorem wideWrites : Obligations.WideWrites := by
  unfold Obligations.WideWrites
  refine ⟨fun m a w s hs ha => ?_, fun m w s => ⟨fun hs => ?_, fun n hs => ?_, holding_reset m⟩⟩
  · obtain ⟨this, others, same, only, keeps⟩ := State.setHolding_spec m a w (found m s)
    refine ⟨_, (exec_served rfl hs).trans (congrArg _ (State.busWrite_held w _ ha)), this, fun b hb => ?_, ?_, fun i hi => ?_, keeps⟩
    · rw [others b hb, found_holding]
    · rw [← found_master m s]; exact same
    · rw [only i hi, found_master]
  · have write : (found m s).busWrite m 0x114 w 0xF = (found m s).setOfs (join w ((found m s).holding m 0x110)) := rfl
    refine ⟨_, (exec_served rfl hs).trans (congrArg _ write), ?_, State.setOfs_keeps ..⟩
    simp [State.setOfs, join_eq_append, State.tw, ofsNow]
  · have write := State.busWrite_chan (m := m) (n := n) (o := 0x24) w (found m s) (by decide) rfl
    refine ⟨_, (exec_served rfl hs).trans (congrArg _ write), ?_, fun k hk => ?_, State.modCh_keeps ..⟩
    · refine (State.modCh_ch_same ..).trans ?_
      rw [found_ch, found_holding, ofNat48_eq_append]
    · refine (State.modCh_onlyCh n _ _ k hk).trans ?_
      rw [found_ch]

/-! ### Writes by access code -/

/-- A write to a reserved address is ignored (R6). -/
theorem State.plainWrite_reserved {m : Master} {a : Nat} (w : W) (s : State) (h : (blockOf a).1 = .none) : s.plainWrite m a w = s := by
  have global (lt : a < 0x1000) : False := by
    rw [blockOf, if_pos lt] at h
    cases h
  have allowed : writeDenied m a = none := if_neg fun d => global (by omega)
  unfold State.plainWrite
  rw [allowed]
  rcases hb : blockOf a with ⟨b, o⟩
  rw [hb] at h
  cases h
  rfl

/-- Settles O11: each clause is the register's own arm of `globalWrite`. -/
theorem registerWriteByAccessCode : Obligations.RegisterWriteByAccessCode := by
  unfold Obligations.RegisterWriteByAccessCode
  intro m a w be s hs
  refine ⟨(found m s).busWrite m a w be, exec_served rfl hs, fun partly => ?_, fun whole aligned reserved => ?_, fun whole i at_ => ?_, fun whole at_ => ?_,
    fun whole at_ low high => ?_, fun whole at_ out => ?_⟩
  · rw [State.busWrite, if_pos partly]
    exact ⟨by simp [State.hsum, flag], State.hsum_keeps ..⟩
  all_goals subst whole
  · rw [State.busWrite_word w _ aligned, State.plainWrite_reserved w _ reserved]
  all_goals subst at_
  · have write : (found m s).busWrite m (0x830 + 4 * i.val) w 0xF = (found m s).setWakeChs i w := by
      fin_cases i <;> rfl
    rw [write]
    exact ⟨by simp [State.setWakeChs], State.setWakeChs_keeps ..⟩
  · exact ⟨by simp [State.busWrite, State.plainWrite, writeDenied, blockOf, globalWrite], Keeps.setCal _ _⟩
  · have write : (found m s).busWrite m 0x820 w 0xF = { found m s with pwr := { (found m s).pwr with lead := w } } :=
      if_pos (c := 800000 ≤ w.toNat ∧ w.toNat ≤ 4000000000) ⟨low, high⟩
    rw [write]
    exact ⟨by simp, Keeps.setPwr _ _⟩
  · have write : (found m s).busWrite m 0x820 w 0xF = (found m s).pwrCfgErr :=
      if_neg (c := 800000 ≤ w.toNat ∧ w.toNat ≤ 4000000000) (by omega)
    rw [write]
    exact ⟨by simp [State.pwrCfgErr], State.pwrCfgErr_keeps ..⟩

/-! ### GUAR_STAT -/

/-- Settles O12. -/
theorem guaranteeClear : Obligations.GuaranteeClear := by
  unfold Obligations.GuaranteeClear
  intro m w s hs
  refine ⟨(found m s).guarClear w, exec_served rfl hs, State.guarClear_keeps .., fun none => ?_, fun some_ => ?_⟩
  · exact if_pos (by simpa [breachMask] using none)
  · have clears : (found m s).guarClear w = _ := if_neg (by simpa [breachMask] using some_)
    rw [clears]
    simp [breachMask]

/-! ### Accesses that are not served -/

theorem State.wakeIf_false (i : Nat) (s : State) : s.wakeIf false i = s := rfl

theorem State.wakeBy_waking (i : Nat) {s : State} (asleep : s.pwr.mode ≠ 0) : (s.wakeBy i).pwr.waking = true := by
  unfold State.wakeBy
  split
  · rfl
  · rename_i late
    cases begun : s.pwr.waking <;> simp_all [sleeping]

theorem State.wakeIf_held (on : Bool) (i : Nat) (s : State) : (s.wakeIf on i).pwr.held = s.pwr.held := by
  unfold State.wakeIf State.wakeBy
  split_ifs <;> rfl

/-- The request of the PCI Express host waits for RUN (R357). -/
def State.holdForRun (row : Instr) (s : State) : State :=
  { s with pcie := { s.pcie with unsupported := false }, pwr := { s.pwr with held := s.pwr.held ++ [row] } }

theorem State.holdForRun_keeps (row : Instr) (s : State) : Keeps [.pcie, .pwr] s (s.holdForRun row) :=
  ((Keeps.setPcie s { s.pcie with unsupported := false }).mono (by decide)).step (Keeps.setPwr _ _) (by decide)

/-- Settles O13: the branches of `State.access` in which the access is not made. -/
theorem accessNotServed : Obligations.AccessNotServed := by
  unfold Obligations.AccessNotServed
  intro a s
  refine ⟨fun down => ?_, fun up unsupported => ?_, fun up answered full asleep => ?_, fun asleep => ?_, fun closed => ?_⟩
  · exact congrArg Host.Outcome.next (if_pos (by simp [down]))
  · refine congrArg Host.Outcome.next ((if_neg (by simp [up])).trans (if_pos ?_))
    rcases unsupported with h | h <;> simp [h]
  · have waits : s.access .pcie (.rcRead .pcie a) (State.busRead .pcie a) = (s.holdForRun (.rcRead .pcie a)).wakeIf (bit s.pwr.cfg 0) wkPcie :=
      (if_neg (by simp [up])).trans ((if_neg (by simp [answered, full])).trans (if_pos (by simpa using asleep)))
    refine ⟨_, congrArg Host.Outcome.next waits, State.wakeIf_held .., fun on => ?_, fun off => ?_, ?_⟩
    · rw [on]; exact State.wakeBy_waking wkPcie (s := s.holdForRun _) asleep
    · rw [off]; rfl
    · exact (State.holdForRun_keeps _ s).step (State.wakeIf_keeps ..) (by decide)
  · have wakes : s.access .qspi (.rcRead .qspi a) (State.busRead .qspi a) = s.wakeIf (bit s.pwr.cfg 1) wkQspi := if_pos (by simpa using asleep)
    refine ⟨_, congrArg Host.Outcome.next wakes, fun on => ?_, fun off => ?_, State.wakeIf_held .., State.wakeIf_keeps ..⟩
    · rw [on]; exact State.wakeBy_waking wkQspi asleep
    · rw [off]; rfl
  · refine congrArg Host.Outcome.next (if_neg ?_)
    rcases closed with h | h <;> simp [h]

end Sys2Proof.Machine
end

section
/-!
The counters (R44 to R50): how many steps a tick mode makes up to a boundary, and what the commands do.
-/
namespace Sys2Proof.Machine

/-! ### A counter that does not run -/

section
variable (lim fv : Nat)

@[simp] theorem Channel.hitUnits_ctr (b : Nat) (sel : CmpUnit → Bool) (c : Channel) : (c.hitUnits b sel).ctr = c.ctr := rfl

theorem Channel.runGate_cnt_of_off : ∀ (l : List (Nat × Bool)) (c : Channel), (c.runGate lim fv false l).ctr.cnt = c.ctr.cnt
  | [], _ => rfl
  | (b, l) :: r, c => by
    unfold Channel.runGate
    split
    · exact (Channel.runGate_cnt_of_off r _).trans rfl
    · rfl

theorem Channel.runEdges_cnt_of_off : ∀ (last : Option Nat) (l : List (Nat × Bool)) (c : Channel),
    (c.runEdges lim fv false last l).ctr.cnt = c.ctr.cnt
  | _, [], _ => rfl
  | last, (b, l) :: r, c => by
    unfold Channel.runEdges
    split
    · exact (Channel.runEdges_cnt_of_off last r _).trans rfl
    · rfl

theorem Channel.runAxis_cnt_of_off : ∀ (l : List AxMove) (c : Channel), (c.runAxis lim false l).ctr.cnt = c.ctr.cnt
  | [], _ => rfl
  | m :: r, c => by
    unfold Channel.runAxis
    split
    · exact (Channel.runAxis_cnt_of_off r _).trans rfl
    · rfl

/-- A stopped or disabled counter holds (R45). -/
theorem Channel.count_cnt_of_off {c : Channel} (off : c.ctr.run = false ∨ c.en = false) : (c.count lim fv).ctr.cnt = c.ctr.cnt := by
  have on : (c.en && c.ctr.run) = false := by
    rcases off with h | h <;> simp [h]
  unfold Channel.count
  dsimp only
  rw [on]
  split
  · rfl
  · split
    · exact Channel.runGate_cnt_of_off ..
    · exact Channel.runEdges_cnt_of_off ..
    · exact Channel.runAxis_cnt_of_off ..
    · rfl

/-! ### The steps of a tick mode -/

/-- The steps at every div-th boundary from next on, up to lim (R45). -/
def stepsTo (next div : Nat) : Nat := if next ≤ lim then (lim - next) / div + 1 else 0

theorem stepsTo_of_lt {next div : Nat} (h : lim < next) : stepsTo lim next div = 0 := if_neg (by omega)

theorem stepsTo_succ {next div : Nat} (hd : 0 < div) (h : next ≤ lim) : stepsTo lim next div = stepsTo lim (next + div) div + 1 := by
  unfold stepsTo
  rw [if_pos h]
  by_cases more : next + div ≤ lim
  · have split : lim - next = lim - (next + div) + div := by omega
    rw [if_pos more, split, Nat.add_div_right _ hd]
  · rw [if_neg more, Nat.div_eq_of_lt (by omega)]

theorem stepsTo_le {next div : Nat} : stepsTo lim next div ≤ lim + 1 - next := by
  unfold stepsTo
  split
  · have := Nat.div_le_self (lim - next) div
    omega
  · omega

end

theorem Counter.div1_pos (k : Counter) : 0 < k.div1 := Nat.succ_pos _

/-- What one step of UP or DOWN mode adds to the count (R44). -/
def Counter.stepBy (k : Counter) : C48 := if k.mode = 1 then -1 else 1

section
variable (b fv : Nat)

/-- A step in UP or DOWN mode leaves the counter's setting. -/
theorem Channel.countStep_of_plain {c : Channel} (plain : c.ctr.mode ≠ 2) :
    (c.countStep b fv).ctr = { c.ctr with cnt := c.ctr.cnt + c.ctr.stepBy, wrap := (c.countStep b fv).ctr.wrap } := by
  unfold Channel.countStep Counter.stepBy
  dsimp only
  by_cases down : c.ctr.mode = 1
  · rw [if_pos down, if_pos down, BitVec.add_neg_eq_sub]; rfl
  · rw [if_neg down, if_neg down, if_neg plain]; rfl

/-- One round of `Channel.runTicks`: a step, and the next one DIV + 1 ticks later. -/
def Channel.tickStep (c : Channel) : Channel :=
  { c.countStep c.ctr.next fv with ctr := { (c.countStep c.ctr.next fv).ctr with next := c.ctr.next + c.ctr.div1 } }

theorem Channel.tickStep_ctr {c : Channel} (plain : c.ctr.mode ≠ 2) :
    (c.tickStep fv).ctr = { c.ctr with cnt := c.ctr.cnt + c.ctr.stepBy, wrap := (c.tickStep fv).ctr.wrap, next := c.ctr.next + c.ctr.div1 } := by
  have step : (c.tickStep fv).ctr = { (c.countStep c.ctr.next fv).ctr with next := c.ctr.next + c.ctr.div1 } := rfl
  rw [step, Channel.countStep_of_plain c.ctr.next fv plain]

theorem Channel.runTicks_of_due {lim fuel : Nat} {c : Channel} (due : c.ctr.next ≤ lim) :
    c.runTicks lim fv (fuel + 1) = (c.tickStep fv).runTicks lim fv fuel := if_pos due

theorem Channel.runTicks_of_not_due {lim : Nat} {c : Channel} (early : lim < c.ctr.next) : ∀ fuel : Nat, c.runTicks lim fv fuel = c
  | 0 => rfl
  | _ + 1 => if_neg (by omega)

/-- The steps of UP or DOWN mode up to a boundary: one every DIV + 1 ticks (R45). -/
theorem Channel.runTicks_of_plain (lim : Nat) : ∀ (fuel : Nat) (c : Channel), c.ctr.mode ≠ 2 → stepsTo lim c.ctr.next c.ctr.div1 ≤ fuel →
    (c.runTicks lim fv fuel).ctr.cnt = c.ctr.cnt + BitVec.ofNat 48 (stepsTo lim c.ctr.next c.ctr.div1) * c.ctr.stepBy ∧
      (c.runTicks lim fv fuel).ctr.next = c.ctr.next + stepsTo lim c.ctr.next c.ctr.div1 * c.ctr.div1 ∧ (c.runTicks lim fv fuel).ctr.run = c.ctr.run
  | 0, c, _, enough => by
    have none : stepsTo lim c.ctr.next c.ctr.div1 = 0 := by omega
    simp [Channel.runTicks, none]
  | fuel + 1, c, plain, enough => by
    by_cases due : c.ctr.next ≤ lim
    · have step := Channel.tickStep_ctr fv plain
      have more := stepsTo_succ lim c.ctr.div1_pos due
      rw [Channel.runTicks_of_due fv due]
      generalize c.tickStep fv = d at step ⊢
      have mode : d.ctr.mode = c.ctr.mode := by rw [step]; rfl
      have div : d.ctr.div1 = c.ctr.div1 := by rw [step]; rfl
      have by_ : d.ctr.stepBy = c.ctr.stepBy := by rw [step]; rfl
      have next : d.ctr.next = c.ctr.next + c.ctr.div1 := by rw [step]
      have cnt : d.ctr.cnt = c.ctr.cnt + c.ctr.stepBy := by rw [step]
      have run : d.ctr.run = c.ctr.run := by rw [step]
      obtain ⟨ihCnt, ihNext, ihRun⟩ := Channel.runTicks_of_plain lim fuel d (by rwa [mode]) (by rw [next, div]; omega)
      rw [ihCnt, ihNext, ihRun, div, by_, next, cnt, run, more]
      generalize stepsTo lim (c.ctr.next + c.ctr.div1) c.ctr.div1 = k
      refine ⟨?_, by rw [Nat.add_mul]; omega, rfl⟩
      rw [BitVec.ofNat_add, BitVec.add_mul, BitVec.one_mul, BitVec.add_assoc, BitVec.add_comm c.ctr.stepBy]
    · rw [Channel.runTicks_of_not_due fv (by omega), stepsTo_of_lt lim (by omega)]
      simp

end

/-- A tick mode's counter that runs makes the steps due. -/
theorem Channel.count_of_ticks {c : Channel} (lim fv : Nat) (run : c.ctr.run = true) (en : c.en = true) (mode : c.ctr.mode ≤ 2) :
    c.count lim fv = c.runTicks lim fv (lim + 1 - c.ctr.next) := by
  have valid : ctrReserved c.ctr.cfg = false := by
    unfold Counter.mode at mode
    simp [ctrReserved]
    omega
  unfold Channel.count
  dsimp only
  rw [run, en, valid]
  split
  · contradiction
  · split
    · omega
    · omega
    · omega
    · rfl

/-- Where one step is due, the channel makes that step. -/
theorem Channel.count_of_one_step {c : Channel} (lim fv : Nat) (run : c.ctr.run = true) (en : c.en = true) (mode : c.ctr.mode ≤ 2)
    (one : stepsTo lim c.ctr.next c.ctr.div1 = 1) : c.count lim fv = c.tickStep fv := by
  have due : c.ctr.next ≤ lim := by
    by_contra early
    rw [stepsTo_of_lt lim (by omega)] at one
    contradiction
  have last : lim < (c.tickStep fv).ctr.next := by
    show lim < c.ctr.next + c.ctr.div1
    rw [stepsTo_succ lim c.ctr.div1_pos due] at one
    by_contra again
    rw [stepsTo_succ lim c.ctr.div1_pos (by omega)] at one
    omega
  have fuel : lim + 1 - c.ctr.next = lim - c.ctr.next + 1 := by omega
  rw [Channel.count_of_ticks lim fv run en mode, fuel, Channel.runTicks_of_due fv due, Channel.runTicks_of_not_due fv last]

theorem Channel.countStep_of_updown {c : Channel} (b fv : Nat) (updown : c.ctr.mode = 2) : c.countStep b fv = c.stepUpDown b fv := by
  unfold Channel.countStep
  dsimp only
  rw [if_neg (by omega), if_pos updown]

theorem Channel.hitUnits_hit {c : Channel} (b : Nat) (sel : CmpUnit → Bool) (u : Unit4) :
    (c.hitUnits b sel).unit[u].hit =
      if (c.unit[u].live && !actLt c.unit[u].active.act && sel c.unit[u]) = true then some (b, c.unit[u].active) else c.unit[u].hit := by
  simp only [Channel.hitUnits, Fin.getElem_fin, Vector.getElem_map]
  split <;> rfl

theorem Channel.countStep_of_up_hit {c : Channel} (b fv : Nat) (up : c.ctr.mode = 0) {u : Unit4} (live : c.unit[u].live = true)
    (base : actLt c.unit[u].active.act = false) :
    (c.countStep b fv).unit[u].hit = if c.unit[u].active.val = c.ctr.cnt + 1 then some (b, c.unit[u].active) else c.unit[u].hit := by
  unfold Channel.countStep
  dsimp only
  rw [if_neg (by omega), if_neg (by omega), Channel.hitUnits_hit]
  simp only [live, base, Bool.not_false, Bool.true_and, beq_iff_eq]

/-- One step of an UPDOWN counter whose count is not above TOP (R48). -/
theorem Channel.stepUpDown_ctr {c : Channel} (b fv : Nat) (top : c.ctr.top ≠ 0) (below : c.ctr.cnt ≤ c.ctr.top) :
    (c.stepUpDown b fv).ctr.cnt = (if c.ctr.down then c.ctr.cnt - 1 else c.ctr.cnt + 1) ∧
      (c.stepUpDown b fv).ctr.down =
        (if (c.stepUpDown b fv).ctr.cnt = 0 then false else if (c.stepUpDown b fv).ctr.cnt = c.ctr.top then true else c.ctr.down) := by
  have within : ¬ c.ctr.top < c.ctr.cnt := BitVec.not_lt.mpr below
  have loaded (d : Channel) : d.loadShadow.ctr = d.ctr := rfl
  unfold Channel.stepUpDown
  dsimp only
  have stands : ¬ (c.ctr.top == 0 && c.ctr.cnt == 0) = true := fun h => top (by simpa using (Bool.and_eq_true_iff.mp h).1)
  rw [if_neg stands, if_neg within, Channel.hitUnits_ctr, apply_ite Channel.ctr, loaded, ite_self]
  simp

/-! ### Counting a channel of the machine -/

@[simp] theorem State.countNow_ch_same (n : Ch) (s : State) : (s.countNow n).ch[n] = s.ch[n].count s.tick (s.freeBelow (2 ^ 48)) :=
  State.modCh_ch_same ..

@[simp] theorem State.countTo_ch_same (n : Ch) (s : State) : (s.countTo n).ch[n] = s.ch[n].count s.tw (s.freeBelow (2 ^ 48)) :=
  State.modCh_ch_same ..

theorem State.countNow_onlyCh (n : Ch) (s : State) : OnlyCh n s (s.countNow n) := State.modCh_onlyCh n _ s

theorem State.countTo_onlyCh (n : Ch) (s : State) : OnlyCh n s (s.countTo n) := State.modCh_onlyCh n _ s

@[simp] theorem State.countNow_tick (n : Ch) (s : State) : (s.countNow n).tick = s.tick := rfl

theorem State.chCfgErr_onlyCh (n : Ch) (s : State) : OnlyCh n s (s.chCfgErr n) := State.modCh_onlyCh n _ s

@[simp] theorem State.chCfgErr_ch_same (n : Ch) (s : State) :
    (s.chCfgErr n).ch[n] = { s.ch[n] with stat := s.ch[n].stat.raise s.tick 1 } := State.modCh_ch_same ..

theorem State.cntClear_onlyCh (n : Ch) (s : State) : OnlyCh n s (s.cntClear n) := by
  unfold State.cntClear
  split
  · exact State.chCfgErr_onlyCh n s
  · exact State.modCh_onlyCh n _ s

theorem State.cntLoad_onlyCh (n : Ch) (s : State) : OnlyCh n s (s.cntLoad n) := by
  unfold State.cntLoad
  dsimp only
  split_ifs
  · exact State.chCfgErr_onlyCh n s
  · exact (State.modCh_onlyCh n _ s).trans (State.chCfgErr_onlyCh n _)
  all_goals exact State.modCh_onlyCh n _ s

theorem State.cntClear_ch_same (n : Ch) (s : State) : (s.cntClear n).ch[n] =
    if s.ch[n].ctr.mode = 5 then { s.ch[n] with stat := s.ch[n].stat.raise s.tick 1 } else s.ch[n].setCnt s.tw 0 false := by
  unfold State.cntClear
  split
  · exact State.chCfgErr_ch_same n s
  · exact State.modCh_ch_same ..

theorem State.cntLoad_ch_same (n : Ch) (s : State) : (s.cntLoad n).ch[n] =
    let k := s.ch[n].ctr
    if k.mode = 5 then { s.ch[n] with stat := s.ch[n].stat.raise s.tick 1 }
    else if k.mode = 2 ∧ k.top < k.ld then { s.ch[n].setCnt s.tw k.top true with stat := s.ch[n].stat.raise s.tick 1 }
    else if k.mode = 2 then s.ch[n].setCnt s.tw k.ld (if k.ld = 0 then false else if k.ld = k.top then true else k.down)
    else s.ch[n].setCnt s.tw k.ld k.down := by
  unfold State.cntLoad
  dsimp only
  by_cases axis : s.ch[n].ctr.mode = 5
  · rw [if_pos axis, if_pos axis, State.chCfgErr_ch_same]
  · rw [if_neg axis, if_neg axis]
    by_cases updown : s.ch[n].ctr.mode = 2
    · by_cases above : s.ch[n].ctr.top < s.ch[n].ctr.ld
      · rw [if_pos updown, if_pos above, if_pos ⟨updown, above⟩, State.chCfgErr_ch_same, State.modCh_ch_same]
        rfl
      · rw [if_pos updown, if_neg above, if_neg (c := _ ∧ _) (fun h => above h.2), if_pos updown, State.modCh_ch_same]
        simp only [beq_iff_eq]
    · rw [if_neg updown, if_neg (c := _ ∧ _) (fun h => updown h.1), if_neg updown, State.modCh_ch_same]

/-- A settled channel's command: what `f` does after the steps due. -/
theorem State.countNow_then_spec {n : Ch} {f : State → State} (only : ∀ s, OnlyCh n s (f s)) (keeps : ∀ s, Keeps [.ch] s (f s)) (s : State) :
    OnlyCh n s (f (s.countNow n)) ∧ Keeps [.ch, .free] s (f (s.countNow n)) :=
  ⟨(State.countNow_onlyCh n s).trans (only _), (State.countNow_keeps n s).step (keeps _) (by decide)⟩

theorem Channel.start_spec {tw : Nat} {gate : Bool} {pos : W} {c : Channel} : (c.start tw gate pos).ctr.run = true ∧
    (c.ctr.run = true → c.start tw gate pos = c) ∧
    (c.ctr.run = false → (c.start tw gate pos).ctr.next = tw + (fld c.ctr.presc 0 16 + 1) ∧
      (c.start tw gate pos).ctr.cnt = if c.ctr.mode = 5 then pos.setWidth 48 else c.ctr.cnt) ∧
    c.start tw gate pos = { c with ctr := (c.start tw gate pos).ctr } := by
  have wide : BitVec.ofNat 48 pos.toNat = pos.setWidth 48 := by rw [BitVec.ofNat_toNat]
  unfold Channel.start
  split
  case isTrue runs => exact ⟨runs, fun _ => rfl, fun stands => absurd (runs.symm.trans stands) (by decide), rfl⟩
  case isFalse stands => exact ⟨rfl, fun runs => absurd runs stands, fun _ => ⟨rfl, by rw [wide]⟩, rfl⟩

/-- Settles O14: START, STOP, CLEAR and LOAD change the counter as `Channel.start`, `Channel.stop` and `Channel.setCnt` do; the steps are
`Channel.runTicks_of_plain` in UP and DOWN mode, and a single step is one round of `Channel.runTicks`. -/
theorem counters : Obligations.Counters := by
  unfold Obligations.Counters
  refine ⟨fun n s => ⟨?start, ?stop, ?clear, ?load⟩, fun n s => ?step⟩
  case start =>
    obtain ⟨run, kept, fresh, rest⟩ := Channel.start_spec (tw := s.tw) (gate := srcLevel (podOf n) s.ch[n].ctr.srcSel s)
      (pos := s.axis[axSel s.ch[n].ctr.cfg].pos) (c := s.ch[n])
    refine ⟨s.cntStart n, rfl, ?_⟩
    have same : (s.cntStart n).ch[n] = _ := State.modCh_ch_same ..
    rw [same]
    exact ⟨run, kept, fresh, rest, State.modCh_onlyCh n _ s, State.cntStart_keeps n s⟩
  case stop =>
    refine ⟨s.cntStop n, rfl, ?_, (State.countTo_onlyCh n s).trans (State.modCh_onlyCh n _ _), State.cntStop_keeps n s⟩
    refine (State.modCh_ch_same ..).trans ?_
    rw [State.countTo_ch_same]
    rfl
  case clear =>
    refine ⟨(s.countNow n).cntClear n, rfl, ?_, State.countNow_then_spec (State.cntClear_onlyCh n) (State.cntClear_keeps n) s⟩
    rw [State.cntClear_ch_same, State.countNow_ch_same]
    dsimp only
    split <;> rfl
  case load =>
    refine ⟨(s.countNow n).cntLoad n, rfl, ?_, State.countNow_then_spec (State.cntLoad_onlyCh n) (State.cntLoad_keeps n) s⟩
    rw [State.cntLoad_ch_same, State.countNow_ch_same]
    dsimp only
    split_ifs <;> rfl
  case step =>
    refine ⟨s.countNow n, rfl, State.countNow_onlyCh n s, State.countNow_keeps n s, ?_⟩
    rw [State.countNow_ch_same]
    generalize s.ch[n] = c
    generalize s.freeBelow (2 ^ 48) = fv
    dsimp only
    have ticks (run : c.ctr.run = true) (en : c.en = true) (mode : c.ctr.mode ≤ 2) := Channel.count_of_ticks s.tick fv run en mode
    have steps : (if c.ctr.next ≤ s.tick then (s.tick - c.ctr.next) / c.ctr.div1 + 1 else 0) = stepsTo s.tick c.ctr.next c.ctr.div1 := rfl
    simp only [steps]
    refine ⟨fun off => Channel.count_cnt_of_off s.tick fv off, fun run en up => ?_, fun run en down => ?_, fun run en updown due top below => ?_,
      fun run en up due u live base => ?_⟩
    · obtain ⟨cnt, next, still⟩ := Channel.runTicks_of_plain fv s.tick _ c (by omega) (stepsTo_le s.tick)
      rw [ticks run en (by omega), cnt, next, still, Counter.stepBy, if_neg (by omega), mul_one]
      exact ⟨rfl, rfl, run⟩
    · obtain ⟨cnt, next, still⟩ := Channel.runTicks_of_plain fv s.tick _ c (by omega) (stepsTo_le s.tick)
      rw [ticks run en (by omega), cnt, next, still, Counter.stepBy, if_pos down, mul_neg, mul_one, ← sub_eq_add_neg]
      exact ⟨rfl, rfl, run⟩
    · rw [Channel.count_of_one_step s.tick fv run en (by omega) due]
      have step : (c.tickStep fv).ctr = { (c.stepUpDown c.ctr.next fv).ctr with next := c.ctr.next + c.ctr.div1 } := by
        rw [← Channel.countStep_of_updown _ _ updown]; rfl
      rw [step]
      exact Channel.stepUpDown_ctr c.ctr.next fv top below
    · rw [Channel.count_of_one_step s.tick fv run en (by omega) due]
      exact Channel.countStep_of_up_hit c.ctr.next fv up live base

/-! ### TOP -/

/-- Settles O15: the commit is `Channel.commitTop` of the channel as of now. -/
theorem topCommit : Obligations.TopCommit := by
  unfold Obligations.TopCommit
  intro m n w s hs
  refine ⟨(found m s).commitTop m n w, exec_served rfl hs, ?_, fun k hk => ?_, State.commitTop_keeps ..⟩
  · refine (State.modCh_ch_same ..).trans ?_
    rw [State.countNow_ch_same, found_ch, found_tick, found_holding, ofNat48_eq_append, State.freeBelow, State.freeBelow, found_free]
    unfold Channel.commitTop
    simp only [Bool.and_eq_true, beq_iff_eq]
  · refine (State.modCh_onlyCh n _ _ k hk).trans ((State.countNow_onlyCh n _ k hk).trans ?_)
    rw [found_ch]

end Sys2Proof.Machine
end

section
/-!
What counting, an action and a match leave of a channel (R44, R53 to R62): each of them changes a few of its fields.
-/
namespace Sys2Proof.Machine

/-! ### Flags -/

@[simp] theorem Sticky.raise_bits (t : Nat) (m : W) (f : Sticky) : (f.raise t m).bits = f.bits ||| m := by
  unfold Sticky.raise
  split <;> rfl

@[simp] theorem Sticky.get_raise (t : Nat) (m : W) (f : Sticky) (i : Nat) : (f.raise t m).get i = (f.get i || m.getLsbD i) := by
  simp [Sticky.get, bit]

@[simp] theorem Sticky.raiseIf_true (t : Nat) (m : W) (f : Sticky) : f.raiseIf true t m = f.raise t m := rfl
@[simp] theorem Sticky.raiseIf_false (t : Nat) (m : W) (f : Sticky) : f.raiseIf false t m = f := rfl

theorem Sticky.get_raiseIf_of_get {f : Sticky} {i : Nat} (h : f.get i = true) (b : Bool) (t : Nat) (m : W) : (f.raiseIf b t m).get i = true := by
  cases b
  · exact h
  · simp [h]

/-! ### Counting -/

/-- Whatever a new counter, a match of CNT-base units and a shadow load keep, counting keeps (R44 to R48). -/
theorem Channel.count_induction {P : Channel → Prop} (ctr : ∀ c k, P c → P { c with ctr := k }) (hit : ∀ b sel c, P c → P (c.hitUnits b sel))
    (load : ∀ c, P c → P c.loadShadow) (lim fv : Nat) {c : Channel} (h : P c) : P (c.count lim fv) := by
  have either {p : Prop} [Decidable p] {c d : Channel} (hc : P c) (hd : P d) : P (if p then c else d) := by
    split
    · exact hc
    · exact hd
  have upDown (b : Nat) {c : Channel} (h : P c) : P (c.stepUpDown b fv) := by
    unfold Channel.stepUpDown
    dsimp only
    split
    · split
      · exact h
      · split
        · exact ctr _ _ h
        · exact hit _ _ _ (load _ (ctr _ _ h))
    · exact hit _ _ _ (either (load _ (ctr _ _ h)) (ctr _ _ h))
  have step (b : Nat) {c : Channel} (h : P c) : P (c.countStep b fv) := by
    unfold Channel.countStep
    dsimp only
    split
    · exact hit _ _ _ (ctr _ _ h)
    · split
      · exact upDown b h
      · exact hit _ _ _ (ctr _ _ h)
  have ticks (lim : Nat) : ∀ (fuel : Nat) {c : Channel}, P c → P (c.runTicks lim fv fuel) := by
    intro fuel
    induction fuel with
    | zero => exact fun h => h
    | succ fuel ih =>
      intro c h
      unfold Channel.runTicks
      split
      · exact ih (ctr _ _ (step _ h))
      · exact h
  have gate (on : Bool) : ∀ (l : List (Nat × Bool)) {c : Channel}, P c → P (c.runGate lim fv on l) := by
    have gated (lim : Nat) {c : Channel} (h : P c) : P (if on && c.ctr.gateAct then c.ticksTo lim fv else c) :=
      either (ticks lim _ h) h
    intro l
    induction l with
    | nil => exact fun h => gated lim h
    | cons x r ih =>
      obtain ⟨b, l⟩ := x
      intro c h
      unfold Channel.runGate
      split
      · exact ih (ctr _ _ (ctr _ _ (gated b h)))
      · exact gated lim h
  have edges (on : Bool) : ∀ (l : List (Nat × Bool)) (last : Option Nat) {c : Channel}, P c → P (c.runEdges lim fv on last l) := by
    intro l
    induction l with
    | nil => exact fun _ _ h => h
    | cons x r ih =>
      obtain ⟨b, l⟩ := x
      intro last c h
      unfold Channel.runEdges
      split
      · dsimp only
        split
        · exact ih _ (either (ctr _ _ (step _ (ctr _ _ h))) (ctr _ _ (ctr _ _ h)))
        · exact ih _ (ctr _ _ h)
      · exact h
  have moves (on : Bool) : ∀ (l : List AxMove) {c : Channel}, P c → P (c.runAxis lim on l) := by
    intro l
    induction l with
    | nil => exact fun h => h
    | cons m r ih =>
      intro c h
      unfold Channel.runAxis
      split
      · refine ih ?_
        split
        · unfold Channel.axisMove
          dsimp only
          split
          · exact ctr _ _ (ctr _ _ h)
          · exact hit _ _ _ (ctr _ _ (ctr _ _ h))
        · exact ctr _ _ h
      · exact h
  unfold Channel.count
  dsimp only
  split
  · exact h
  · split
    · exact gate _ _ h
    · exact edges _ _ _ h
    · exact moves _ _ h
    · exact either (ticks lim _ h) h

/-- Nothing but the counter and the units differs. -/
def SameButCount (c d : Channel) : Prop := d = { c with ctr := d.ctr, unit := d.unit }

theorem SameButCount.trans {c d e : Channel} (h : SameButCount c d) (k : SameButCount d e) : SameButCount c e := by
  unfold SameButCount at h k ⊢
  rw [k, h]

theorem Channel.count_same (lim fv : Nat) (c : Channel) : SameButCount c (c.count lim fv) :=
  Channel.count_induction (P := SameButCount c) (fun _ _ h => h.trans rfl) (fun _ _ _ h => h.trans rfl) (fun _ h => h.trans rfl) lim fv rfl

@[simp] theorem Channel.count_en (lim fv : Nat) (c : Channel) : (c.count lim fv).en = c.en := by rw [Channel.count_same]
@[simp] theorem Channel.count_frz (lim fv : Nat) (c : Channel) : (c.count lim fv).frz = c.frz := by rw [Channel.count_same]
@[simp] theorem Channel.count_out (lim fv : Nat) (c : Channel) : (c.count lim fv).out = c.out := by rw [Channel.count_same]
@[simp] theorem Channel.count_stat (lim fv : Nat) (c : Channel) : (c.count lim fv).stat = c.stat := by rw [Channel.count_same]

/-- Counting leaves a unit to its owner. -/
theorem Channel.count_owner (lim fv : Nat) (c : Channel) (u : Unit4) : (c.count lim fv).unit[u].owner = c.unit[u].owner := by
  refine Channel.count_induction (P := fun d => d.unit[u].owner = c.unit[u].owner) (fun d k h => h) (fun b sel d h => ?_) (fun d h => ?_) lim fv rfl
  · simp only [Channel.hitUnits, Fin.getElem_fin, Vector.getElem_map] at h ⊢
    split <;> exact h
  · simp only [Channel.loadShadow, Fin.getElem_fin, Vector.getElem_map] at h ⊢
    split <;> exact h

/-- No unit compares the count, and none waits for a turn. -/
def Channel.noCntUnits (c : Channel) : Prop := ∀ u : Unit4, (c.unit[u].live = true → actLt c.unit[u].active.act = true) ∧ c.unit[u].shadow = false

theorem Channel.hitUnits_unit_of_noCntUnits {c : Channel} (h : c.noCntUnits) (b : Nat) (sel : CmpUnit → Bool) : (c.hitUnits b sel).unit = c.unit := by
  refine Vector.ext fun i hi => ?_
  simp only [Channel.hitUnits, Vector.getElem_map]
  rw [if_neg]
  intro hit
  simp only [Bool.and_eq_true, Bool.not_eq_true'] at hit
  obtain ⟨⟨live, base⟩, -⟩ := hit
  exact absurd ((h ⟨i, hi⟩).1 live) (by simp [base])

theorem Channel.loadShadow_unit_of_noCntUnits {c : Channel} (h : c.noCntUnits) : c.loadShadow.unit = c.unit := by
  refine Vector.ext fun i hi => ?_
  simp only [Channel.loadShadow, Vector.getElem_map]
  exact if_neg (by simpa using (h ⟨i, hi⟩).2)

theorem Channel.count_unit_of_noCntUnits {c : Channel} (h : c.noCntUnits) (lim fv : Nat) : (c.count lim fv).unit = c.unit := by
  have none {d : Channel} (e : d.unit = c.unit) : d.noCntUnits := by unfold Channel.noCntUnits; rw [e]; exact h
  refine Channel.count_induction (P := fun d => d.unit = c.unit) (fun d k e => e) (fun b sel d e => ?_) (fun d e => ?_) lim fv rfl
  · rw [Channel.hitUnits_unit_of_noCntUnits (none e), e]
  · rw [Channel.loadShadow_unit_of_noCntUnits (none e), e]

/-! ### Actions -/

/-- Nothing differs but what an action changes: its output, its flags, the reflex term, the Pip, and a capture on its way. -/
def SameButAction (c d : Channel) : Prop :=
  d = { c with stat := d.stat, out := d.out, safeEnd := d.safeEnd, pip := d.pip, rfx := d.rfx, cap := d.cap, filter := d.filter, filtNext := d.filtNext }

theorem SameButAction.refl (c : Channel) : SameButAction c c := rfl

theorem SameButAction.trans {c d e : Channel} (h : SameButAction c d) (k : SameButAction d e) : SameButAction c e := by
  unfold SameButAction at h k ⊢
  rw [k, h]

theorem SameButAction.unit {c d : Channel} (h : SameButAction c d) : d.unit = c.unit := by rw [h]
theorem SameButAction.en {c d : Channel} (h : SameButAction c d) : d.en = c.en := by rw [h]
theorem SameButAction.frz {c d : Channel} (h : SameButAction c d) : d.frz = c.frz := by rw [h]

theorem Channel.change_same (x : Nat) (upd : OutStage → OutStage) (c : Channel) : SameButAction c (c.change x upd) := by
  unfold Channel.change Channel.settleMerge
  split <;> rfl

theorem Channel.endTrain_same (t : Nat) (cut : Bool) (c : Channel) : SameButAction c (c.endTrain t cut) := rfl

theorem Channel.trainEdge_same (c : Channel) : SameButAction c c.trainEdge := by
  unfold Channel.trainEdge
  split
  · exact SameButAction.refl c
  · exact (Channel.change_same ..).trans rfl
  · exact (Channel.change_same ..).trans rfl

theorem Channel.trainTo_same (x : Nat) : ∀ (k : Nat) (c : Channel), SameButAction c (c.trainTo x k)
  | 0, c => SameButAction.refl c
  | k + 1, c => by
    unfold Channel.trainTo
    split
    · exact (Channel.trainEdge_same c).trans (Channel.trainTo_same x k _)
    · exact SameButAction.refl c

theorem Channel.trainBefore_of_none {c : Channel} (x : Nat) (h : c.out.train = .none) : c.trainBefore x = c := by
  have edges : max 1 c.out.train.left = 0 + 1 := by rw [h]; rfl
  unfold Channel.trainBefore
  rw [edges, Channel.trainTo, if_neg (by rw [h]; simp [Train.nextX])]

theorem State.modCh_same_action {n : Ch} {f : Channel → Channel} {s : State} (h : ∀ c, SameButAction c (f c)) :
    OnlyCh n s (s.modCh n f) ∧ SameButAction s.ch[n] (s.modCh n f).ch[n] :=
  ⟨State.modCh_onlyCh n f s, by rw [State.modCh_ch_same]; exact h _⟩

/-- A start, or its refusal, changes the engine. -/
theorem State.pipStartAt_eq (t : Nat) (entry : Fin 32) (frac : Option Nat) (n : Ch) (s : State) :
    ∃ f : Pip → Pip, s.pipStartAt t entry frac n = s.modPip n f := by
  unfold State.pipStartAt
  extract_lets c p q
  split <;> exact ⟨_, rfl⟩

/-- An action changes no more of its channel. -/
theorem State.act_same (t frac code : Nat) (param : W) (n : Ch) (s : State) :
    OnlyCh n s (s.act t frac code param n) ∧ SameButAction s.ch[n] (s.act t frac code param n).ch[n] := by
  unfold State.act
  dsimp only
  split
  · exact State.modCh_same_action fun c => Channel.change_same ..
  · exact State.modCh_same_action fun c => Channel.change_same ..
  · exact State.modCh_same_action fun c => Channel.change_same ..
  · refine State.modCh_same_action fun c => ?_
    exact ((Channel.endTrain_same t true c).trans (Channel.change_same ..)).trans rfl
  · refine State.modCh_same_action fun c => ?_
    exact ((Channel.endTrain_same t true c).trans (Channel.change_same ..)).trans rfl
  · obtain ⟨f, start⟩ := State.pipStartAt_eq t ⟨fld param 0 5 % 32, Nat.mod_lt _ (by decide)⟩ (some (s.placed frac)) n s
    rw [start]
    refine State.modCh_same_action fun c => ?_
    exact rfl
  · refine State.modCh_same_action fun c => ?_
    exact rfl
  · refine State.modCh_same_action fun c => ?_
    exact rfl
  · refine State.modCh_same_action fun c => ?_
    unfold Channel.takeFilter
    split
    · rfl
    · split <;> rfl
  · exact ⟨OnlyCh.refl n s, SameButAction.refl _⟩

/-! ### Matches -/

/-- The unit after its match (R54). -/
def CmpUnit.matched (t : Nat) (set : CmpSet) (late : Bool) (u : CmpUnit) : CmpUnit :=
  { u with flags := (u.flags.raise t 2).raiseIf late t 4, matchLt := (t + 4) * 32 + actFrac set.act, hit := none, owner := false, ev := none }

theorem Channel.matched_eq (t : Nat) (u : Unit4) (set : CmpSet) (late : Bool) (c : Channel) :
    c.matched t u set late = { c with
      stat := c.stat.raiseIf late t (flag 5 true), cmpLine := (c.matchLine t set).cmpLine, pip := c.pip.latch (t + 1) (flag (8 + u.val) true)
      unit := c.unit.set u.val (c.unit[u].matched t set late) } := by
  unfold Channel.matched Channel.matchLine
  dsimp only
  split <;> rfl

@[simp] theorem State.when_true (f : State → State) (s : State) : s.when true f = f s := rfl
@[simp] theorem State.when_false (f : State → State) (s : State) : s.when false f = s := rfl

theorem OnlyCh.when {n : Ch} {s t : State} {b : Bool} {f : State → State} (h : OnlyCh n s t) (k : ∀ r, OnlyCh n r (f r)) : OnlyCh n s (t.when b f) := by
  cases b
  · exact h
  · exact h.trans (k t)

section
variable {n : Ch} {u : Unit4} {s : State} (t : Nat) (set : CmpSet) (late : Bool)

/-- A match of no calendar event on an enabled channel: it is recorded, and its action applied unless the channel is frozen. -/
theorem State.fire_of_no_ev (en : s.ch[n].en = true) (ev : s.ch[n].unit[u].ev = none) : s.fire t u set late n =
    (s.modCh n (fun c => (c.trainBefore ((t + 4) * 32 + s.placed (actFrac set.act))).matched t u set late)).when (!s.ch[n].frz)
      (State.act t (actFrac set.act) (actCode set.act) set.param n) := by
  unfold State.fire
  dsimp only
  rw [en, ev]
  simp only [Bool.not_true, Bool.false_eq_true, if_false]

theorem State.fire_unit (en : s.ch[n].en = true) (ev : s.ch[n].unit[u].ev = none) :
    (s.fire t u set late n).ch[n].unit = s.ch[n].unit.set u.val (s.ch[n].unit[u].matched t set late) := by
  have before := (Channel.trainTo_same ((t + 4) * 32 + s.placed (actFrac set.act)) (max 1 s.ch[n].out.train.left) s.ch[n]).unit
  have acts (b : Bool) (r : State) (f : State → State) (h : (f r).ch[n].unit = r.ch[n].unit) : (r.when b f).ch[n].unit = r.ch[n].unit := by
    cases b
    · rfl
    · exact h
  rw [State.fire_of_no_ev t set late en ev, acts _ _ _ (State.act_same ..).2.unit, State.modCh_ch_same, Channel.matched_eq]
  unfold Channel.trainBefore
  dsimp only
  rw [before]

theorem State.fire_onlyCh_of_no_ev (en : s.ch[n].en = true) (ev : s.ch[n].unit[u].ev = none) :
    OnlyCh n s (s.fire t u set late n) ∧ Keeps [.ch] s (s.fire t u set late n) := by
  rw [State.fire_of_no_ev t set late en ev]
  refine ⟨OnlyCh.when (State.modCh_onlyCh n _ s) fun r => (State.act_same ..).1, (State.modCh_keeps ..).when _ _ fun r => State.act_keeps ..⟩

end

end Sys2Proof.Machine
end

section
/-!
Commits, re-arms and disarms of the compare units (R51 to R57).
-/
namespace Sys2Proof.Machine

theorem forAll_induction {α : Type} {P : State → Prop} {f : α → State → State} {l : List α} (step : ∀ a ∈ l, ∀ s, P s → P (f a s)) {s : State} (h : P s) :
    P (forAll l f s) := by
  unfold forAll
  induction l generalizing s with
  | nil => exact h
  | cons a l ih => exact ih (fun b hb => step b (List.mem_cons_of_mem a hb)) (step a List.mem_cons_self s h)

/-! ### What matches leave -/

/-- The channel is enabled as before. -/
def SameEn (n : Ch) (s t : State) : Prop := t.ch[n].en = s.ch[n].en

theorem SameEn.trans {n : Ch} {s t u : State} (h : SameEn n s t) (k : SameEn n t u) : SameEn n s u := Eq.trans k h

theorem State.modCh_sameEn {n : Ch} {f : Channel → Channel} {s : State} (h : (f s.ch[n]).en = s.ch[n].en) : SameEn n s (s.modCh n f) := by
  unfold SameEn
  rw [State.modCh_ch_same, h]

theorem State.fire_sameEn (t : Nat) (u : Unit4) (set : CmpSet) (late : Bool) (n : Ch) (s : State) : SameEn n s (s.fire t u set late n) := by
  have outcome (p : Pod) (o : Outcome) (r : State) : SameEn n r (r.outcome p o) := rfl
  have pass (p : Pod) (e : Ev) (r : State) : SameEn n r (r.modPod p (PodSt.pass e)) := rfl
  have matched (x : Nat) : SameEn n s (s.modCh n (fun c => (c.trainBefore x).matched t u set late)) := by
    refine State.modCh_sameEn ?_
    rw [Channel.matched_eq]
    exact (Channel.trainTo_same ..).en
  have acts (b : Bool) (r : State) : SameEn n r (r.when b (State.act t (actFrac set.act) (actCode set.act) set.param n)) := by
    cases b
    · rfl
    · exact (State.act_same ..).2.en
  unfold State.fire
  dsimp only
  split
  · split
    · exact State.modCh_sameEn rfl
    · exact SameEn.trans (State.modCh_sameEn rfl) (outcome _ _ _)
  · split
    · exact (matched _).trans (acts _ _)
    · exact (((matched _).trans (acts _ _)).trans (pass _ _ _)).trans (outcome _ _ _)

theorem State.applyMatches_sameEn (n : Ch) (s : State) : SameEn n s (s.applyMatches n) := by
  unfold State.applyMatches
  refine forAll_induction (fun x _ r h => ?_) ?_
  · refine h.trans ?_
    unfold State.applyMatch
    exact SameEn.trans (State.modCh_sameEn rfl) (State.fire_sameEn ..)
  · exact State.modCh_sameEn (Channel.count_en ..)

@[simp] theorem State.applyMatches_tick (n : Ch) (s : State) : (s.applyMatches n).tick = s.tick := (State.applyMatches_keeps n s).tick (by decide)

/-! ### The host's commit -/

/-- The committed value lies ahead of T_w (R56). -/
def LtAhead (tw : Nat) (v : C48) : Prop := 1 ≤ (v - lt48 tw).toNat ∧ (v - lt48 tw).toNat < 2 ^ 47

theorem judge_of_lt {tw : Nat} {set : CmpSet} (lt : actLt set.act = true) (c : Channel) (stepped down : Bool) :
    (LtAhead tw set.val → judge tw set c stepped down = .ahead) ∧ (¬ LtAhead tw set.val → judge tw set c stepped down = .passed) := by
  unfold judge
  rw [if_pos lt]
  exact ⟨fun h => if_pos h, fun h => if_neg h⟩

@[simp] theorem Channel.modUnit_unit_same (u : Unit4) (f : CmpUnit → CmpUnit) (c : Channel) : (c.modUnit u f).unit[u] = f c.unit[u] := by
  unfold Channel.modUnit
  simp

theorem Channel.modUnit_unit_other {u v : Unit4} (h : v ≠ u) (f : CmpUnit → CmpUnit) (c : Channel) : (c.modUnit u f).unit[v] = c.unit[v] := by
  unfold Channel.modUnit
  simp [Fin.val_ne_of_ne h.symm]

@[simp] theorem Channel.modUnit_en (u : Unit4) (f : CmpUnit → CmpUnit) (c : Channel) : (c.modUnit u f).en = c.en := rfl

section
variable {n : Ch} {u : Unit4} {set : CmpSet} {s : State} (lt : actLt set.act = true) (owner : Bool) (ev : Option Ev)
include lt

/-- A value of LT base that lies ahead arms the unit (R52, R56). -/
theorem State.commitUnit_ahead (h : LtAhead s.tw set.val) :
    s.commitUnit u set owner ev n = (s.countNow n).used.modCh n (Channel.modUnit u (CmpUnit.arm s.tick set owner ev false)) := by
  unfold State.commitUnit
  extract_lets s1 tw c stepped j s2 s3 s4 c'
  have ahead : j = .ahead := (judge_of_lt lt c stepped (countsDown s1 c)).1 h
  have plain : s3 = s2 := by simp [s3, lt]
  rw [ahead, plain]
  rfl

/-- A value of LT base that has passed is applied in the tick after T_w (R56). -/
theorem State.commitUnit_passed (h : ¬ LtAhead s.tw set.val) : ∃ r : State, s.commitUnit u set owner ev n = r.fire (s.tw + 1) u set true n ∧
    SameEn n s r ∧ r.ch[n].unit[u].cur = set ∧ r.ch[n].unit[u].ev = ev ∧ (s.ch[n].en = true → r.ch[n].unit[u].live = false) := by
  unfold State.commitUnit
  extract_lets s1 tw c stepped j s2 s3 s4 c'
  have passed : j = .passed := (judge_of_lt lt c stepped (countsDown s1 c)).2 h
  have unit : c'.unit[u] = { (c.unit[u].arm s3.tick set owner ev false) with live := keepsArmed set c.ctr || !c.en } := Channel.modUnit_unit_same ..
  have counted : SameEn n s s1 := State.modCh_sameEn (Channel.count_en ..)
  have en : c.en = s.ch[n].en := (Channel.count_en ..).trans counted
  have plain : s3 = s2 := by simp [s3, lt]
  have same : (s.ch[n].en = true → c'.unit[u].live = false) := fun h => by
    rw [unit]
    simp only [keepsArmed, lt, en, h, Bool.not_true, Bool.and_false, Bool.false_and, Bool.or_false]
  rw [passed]
  refine ⟨_, rfl, counted.trans ?_, ?_⟩
  · rw [plain]
    exact State.modCh_sameEn rfl
  · rw [State.modCh_ch_same]
    exact ⟨by rw [unit]; simp [CmpUnit.arm], by rw [unit]; simp [CmpUnit.arm], same⟩

end

/-- A match of no event leaves the committed set of its unit. -/
theorem State.fire_cur {n : Ch} {u : Unit4} {s : State} (t : Nat) (set : CmpSet) (late : Bool) (ev : s.ch[n].unit[u].ev = none) :
    (s.fire t u set late n).ch[n].unit[u].cur = s.ch[n].unit[u].cur := by
  cases en : s.ch[n].en
  · have off : s.fire t u set late n = s.modCh n (fun c => { c with unit := c.unit.set u.val { c.unit[u] with hit := none } }) := by
      unfold State.fire
      dsimp only
      rw [en, ev]
      rfl
    rw [off, State.modCh_ch_same]
    simp
  · rw [State.fire_unit t set late en ev]
    simp [CmpUnit.matched]

/-- What a commit of set into unit u leaves, where the host may write the unit and the action is of LT base (R51, R56). -/
def LtCommitted (n : Ch) (u : Unit4) (set : CmpSet) (s t : State) : Prop :=
  t.ch[n].unit[u].cur = set ∧
  (LtAhead (s.tick + 1) set.val → t.ch[n].unit[u].active = set ∧ t.ch[n].unit[u].live = true ∧ t.ch[n].unit[u].owner = false) ∧
  (¬ LtAhead (s.tick + 1) set.val → s.ch[n].en = true → t.ch[n].unit[u].live = false ∧ t.ch[n].unit[u].flags.get 1 = true ∧
    t.ch[n].unit[u].flags.get 2 = true ∧ t.ch[n].unit[u].matchLt = (s.tick + 2 + 4) * 32 + actFrac set.act)

theorem State.commitUnit_of_lt {n : Ch} {u : Unit4} {set : CmpSet} {s : State} (lt : actLt set.act = true) :
    LtCommitted n u set s (s.commitUnit u set false none n) := by
  by_cases h : LtAhead s.tw set.val
  · rw [State.commitUnit_ahead lt false none h]
    unfold LtCommitted
    rw [State.modCh_ch_same, Channel.modUnit_unit_same]
    exact ⟨rfl, fun _ => ⟨rfl, rfl, rfl⟩, fun k => absurd h k⟩
  · obtain ⟨r, run, en, cur, ev, live⟩ := State.commitUnit_passed (n := n) (u := u) lt false none h
    rw [run]
    refine ⟨(State.fire_cur _ _ _ ev).trans cur, fun k => absurd k h, fun _ hen => ?_⟩
    rw [State.fire_unit _ _ _ (Eq.trans en hen) ev]
    simp only [Fin.getElem_fin, Vector.getElem_set_self, CmpUnit.matched, Sticky.raiseIf_true, Sticky.get_raise]
    refine ⟨live hen, by simp, by simp, rfl⟩

/-- What a commit of set into unit u does on each state of the unit and of its channel (R51, R56, R57, R59, R144). -/
def Committed (n : Ch) (u : Unit4) (set : CmpSet) (s t : State) : Prop :=
  (s.ch[n].unit[u].owner = true →
    t.ch[n] = { s.ch[n] with stat := s.ch[n].stat.raise s.tick 2 } ∧ t.guar.flags = s.guar.flags.raise s.tick 0x20 ∧
      OnlyCh n s t ∧ Keeps [.ch, .guar] s t) ∧
  (s.ch[n].unit[u].owner = false → emulBusy n s = true →
    t.ch[n] = { s.ch[n] with stat := s.ch[n].stat.raise s.tick 2 } ∧ OnlyCh n s t ∧ Keeps [.ch] s t) ∧
  (s.ch[n].unit[u].owner = false → emulBusy n s = false → 11 ≤ actCode set.act →
    t.ch[n] = { s.ch[n] with stat := s.ch[n].stat.raise s.tick 1 } ∧ OnlyCh n s t ∧ Keeps [.ch] s t) ∧
  (s.ch[n].unit[u].owner = false → emulBusy n s = false → actCode set.act < 11 → actLt set.act = true →
    LtCommitted n u set s t ∧ (sched n s = true → t.guar.flags.get 5 = true) ∧ Keeps [.ch, .pod, .guar, .free] s t)

theorem State.directIf_breaches (b : Bool) (s : State) : b = true → (s.directIf b).guar.flags = s.guar.flags.raise s.tick 0x20 := by
  rintro rfl
  rfl

theorem State.directIf_ch (b : Bool) (s : State) : (s.directIf b).ch = s.ch := by cases b <;> rfl

theorem State.directIf_tick (b : Bool) (s : State) : (s.directIf b).tick = s.tick := (State.directIf_keeps b s).tick (by decide)

theorem State.collide_spec (n : Ch) (b : Bool) (s : State) :
    (s.collide n b).ch[n] = { s.ch[n] with stat := s.ch[n].stat.raise s.tick 2 } ∧ OnlyCh n s (s.collide n b) := by
  unfold State.collide State.chStat OnlyCh
  rw [State.directIf_ch]
  exact ⟨State.modCh_ch_same .., State.modCh_onlyCh n _ s⟩

theorem State.hostCommit_spec (n : Ch) (u : Unit4) (set : CmpSet) (s : State) : Committed n u set s (s.hostCommit u set n) := by
  unfold Committed
  have refused (h : hostMay u n s = false) : s.hostCommit u set n = s.collide n s.ch[n].unit[u].owner := by
    unfold State.hostCommit
    rw [h]
    rfl
  refine ⟨fun own => ?_, fun own busy => ?_, fun own busy res => ?_, fun own busy res lt => ?_⟩
  · obtain ⟨ch, only⟩ := State.collide_spec n true s
    rw [refused (by rw [hostMay, own]; rfl), own]
    exact ⟨ch, rfl, only, (State.collide_keeps ..).mono (by decide)⟩
  · obtain ⟨ch, only⟩ := State.collide_spec n false s
    rw [refused (by rw [hostMay, busy, Bool.not_true, Bool.and_false]), own]
    exact ⟨ch, only, State.chStat_keeps ..⟩
  · unfold State.hostCommit
    rw [if_neg (by rw [hostMay, own, busy]; decide), if_pos (by simpa [actReserved] using res)]
    exact ⟨State.chCfgErr_ch_same n s, State.chCfgErr_onlyCh n s, State.chCfgErr_keeps n s⟩
  · unfold State.hostCommit
    rw [if_neg (by rw [hostMay, own, busy]; decide), if_neg (by simpa [actReserved] using res)]
    have direct := State.directIf_keeps (sched n s) s
    have committed := (State.applyMatches_keeps n (s.directIf (sched n s))).step
      (State.commitUnit_keeps u set false none n ((s.directIf (sched n s)).applyMatches n)) (l := [.ch, .pod, .free]) (by decide)
    have now := State.commitUnit_of_lt (n := n) (u := u) (s := (s.directIf (sched n s)).applyMatches n) lt
    have en : SameEn n s ((s.directIf (sched n s)).applyMatches n) := by
      have := State.applyMatches_sameEn n (s.directIf (sched n s))
      unfold SameEn at this ⊢
      rw [this, State.directIf_ch]
    unfold LtCommitted at now ⊢
    rw [State.applyMatches_tick, State.directIf_tick, en] at now
    refine ⟨now, fun h => ?_, (direct.mono (by decide)).step committed (by decide)⟩
    rw [committed.2 .guar (by decide), State.directIf_breaches _ _ h]
    simp

/-! ### DISARM -/

/-- A collision with the pod has been told (R57). -/
def Collided (n : Ch) (s : State) : Prop := s.ch[n].stat.get 1 = true ∧ s.guar.flags.get 5 = true

theorem State.hostDisarm_of_owner {n : Ch} {u : Unit4} {s : State} (own : s.ch[n].unit[u].owner = true) :
    (s.hostDisarm u n).ch[n].unit = s.ch[n].unit ∧ Collided n (s.hostDisarm u n) ∧ OnlyCh n s (s.hostDisarm u n) := by
  obtain ⟨ch, only⟩ := State.collide_spec n true s
  have guar : (s.collide n true).guar.flags = s.guar.flags.raise s.tick 0x20 := rfl
  unfold State.hostDisarm Collided
  rw [if_pos own, ch, guar]
  exact ⟨rfl, ⟨by simp, by simp⟩, only⟩

theorem State.hostDisarm_of_free {n : Ch} {u : Unit4} {s : State} (own : s.ch[n].unit[u].owner = false) :
    s.hostDisarm u n = s.modCh n (Channel.modUnit u (CmpUnit.disarm s.tick)) := by
  unfold State.hostDisarm
  rw [own]
  rfl

theorem State.hostDisarm_onlyCh (u : Unit4) (n : Ch) (s : State) : OnlyCh n s (s.hostDisarm u n) := by
  cases own : s.ch[n].unit[u].owner
  · rw [State.hostDisarm_of_free own]
    exact State.modCh_onlyCh n _ s
  · exact (State.hostDisarm_of_owner own).2.2

theorem State.hostDisarm_unit_other {n : Ch} {u v : Unit4} (h : v ≠ u) (s : State) : (s.hostDisarm u n).ch[n].unit[v] = s.ch[n].unit[v] := by
  cases own : s.ch[n].unit[u].owner
  · rw [State.hostDisarm_of_free own, State.modCh_ch_same, Channel.modUnit_unit_other h]
  · rw [(State.hostDisarm_of_owner own).1]

theorem State.hostDisarm_collided (u : Unit4) {n : Ch} {s : State} (h : Collided n s) : Collided n (s.hostDisarm u n) := by
  cases own : s.ch[n].unit[u].owner
  · rw [State.hostDisarm_of_free own]
    unfold Collided
    rw [State.modCh_ch_same]
    exact h
  · exact (State.hostDisarm_of_owner own).2.1

/-- What DISARM makes of unit v, which is in its mask or not (R57). -/
def DisarmedTo (n : Ch) (v : Unit4) (named : Prop) (s t : State) : Prop :=
  (¬ named → t.ch[n].unit[v] = s.ch[n].unit[v]) ∧
  (s.ch[n].unit[v].owner = true → t.ch[n].unit[v] = s.ch[n].unit[v]) ∧
  (named → s.ch[n].unit[v].owner = true → Collided n t) ∧
  (named → s.ch[n].unit[v].owner = false → t.ch[n].unit[v].live = false ∧ t.ch[n].unit[v].shadow = false)

/-- One unit of a mask after the other. -/
theorem State.hostDisarm_each (n : Ch) (v : Unit4) (l : List Unit4) (s : State) : DisarmedTo n v (v ∈ l) s (forAll l (fun u => State.hostDisarm u n) s) := by
  induction l generalizing s with
  | nil => exact ⟨fun _ => rfl, fun _ => rfl, fun h => by simp at h, fun h => by simp at h⟩
  | cons a l ih =>
    obtain ⟨rest, owned, told, free⟩ := ih (s.hostDisarm a n)
    have later (h : Collided n (s.hostDisarm a n)) : Collided n (forAll l (fun u => State.hostDisarm u n) (s.hostDisarm a n)) :=
      forAll_induction (fun u _ _ h => State.hostDisarm_collided u h) h
    unfold DisarmedTo
    rw [show forAll (a :: l) (fun u => State.hostDisarm u n) s = forAll l (fun u => State.hostDisarm u n) (s.hostDisarm a n) from rfl, List.mem_cons, not_or]
    by_cases va : v = a
    · subst va
      cases own : s.ch[n].unit[v].owner
      · have off : (s.hostDisarm v n).ch[n].unit[v] = s.ch[n].unit[v].disarm s.tick := by
          rw [State.hostDisarm_of_free own, State.modCh_ch_same, Channel.modUnit_unit_same]
        refine ⟨fun h => absurd rfl h.1, nofun, nofun, fun _ _ => ?_⟩
        by_cases vl : v ∈ l
        · exact free vl (by rw [off]; rfl)
        · rw [rest vl, off]
          exact ⟨rfl, rfl⟩
      · obtain ⟨unit, collided, -⟩ := State.hostDisarm_of_owner own
        rw [unit] at owned
        exact ⟨fun h => absurd rfl h.1, fun _ => owned own, fun _ _ => later collided, nofun⟩
    · rw [State.hostDisarm_unit_other va] at rest owned told free
      have inRest (h : v = a ∨ v ∈ l) : v ∈ l := h.resolve_left va
      exact ⟨fun h => rest h.2, owned, fun h => told (inRest h), fun h => free (inRest h)⟩

theorem State.hostDisarms_onlyCh (mask : BitVec 4) (n : Ch) (s : State) : OnlyCh n s (s.hostDisarms mask n) :=
  forAll_induction (P := OnlyCh n s) (fun u _ r h => h.trans (State.hostDisarm_onlyCh u n r)) (State.countNow_onlyCh n s)

theorem State.hostDisarms_unit (mask : BitVec 4) (n : Ch) (v : Unit4) (s : State) :
    DisarmedTo n v (mask.getLsbD v.val = true) (s.countNow n) (s.hostDisarms mask n) := by
  have named := State.hostDisarm_each n v ((List.finRange 4).filter (fun u => mask.getLsbD u.val)) (s.countNow n)
  rwa [List.mem_filter, and_iff_right (List.mem_finRange v)] at named

/-! ### CompareCommit -/

theorem found_emulBusy (m : Master) (n : Ch) (s : State) : emulBusy n (found m s) = emulBusy n s := by cases m <;> rfl

theorem found_sched (m : Master) (n : Ch) (s : State) : sched n (found m s) = sched n s := by cases m <;> rfl

theorem found_commitSet (m k : Master) (n : Ch) (u : Unit4) (w : W) (s : State) : commitSet m n u w (found k s) = commitSet m n u w s := by cases k <;> rfl

theorem OnlyCh.of_found {m : Master} {n : Ch} {s t : State} (h : OnlyCh n (found m s) t) : OnlyCh n s t := by
  unfold OnlyCh at h ⊢
  rwa [found_ch] at h

/-- Settles O16: a host's commit is refused, or judged after the matches of the tick; DISARM goes through its mask unit by unit. -/
theorem compareCommit : Obligations.CompareCommit := by
  unfold Obligations.CompareCommit
  refine ⟨fun m n u w s set i hi => ?_, fun n mask s => ⟨_, rfl, State.hostDisarms_onlyCh mask n s, (State.hostDisarms_keeps mask n s).mono (by decide), ?_⟩⟩
  · have run : exec i s = .next ((found m s).hostCommit u set n) := by
      obtain ⟨rfl, hs, rfl⟩ | ⟨rfl, rfl, rfl⟩ := hi
      · refine (exec_served rfl hs).trans ?_
        rw [found_commitSet]
      · rfl
    refine ⟨_, run, ?_⟩
    obtain ⟨owned, busy, reserved, lt⟩ := State.hostCommit_spec n u set (found m s)
    unfold LtCommitted at lt
    rw [found_ch, found_tick] at lt
    rw [found_ch, found_guar, found_tick] at owned
    rw [found_ch, found_tick, found_emulBusy] at busy reserved
    rw [found_emulBusy, found_sched] at lt
    refine ⟨fun h => ?_, fun h k => ?_, fun h k r => ?_, fun h k r l => lt h k r l⟩
    · obtain ⟨ch, guar, only, keeps⟩ := owned h
      exact ⟨ch, guar, only.of_found, keeps⟩
    · obtain ⟨ch, only, keeps⟩ := busy h k
      exact ⟨ch, only.of_found, keeps⟩
    · obtain ⟨ch, only, keeps⟩ := reserved h k r
      exact ⟨ch, only.of_found, keeps⟩
  · have owner (v : Unit4) : (s.countNow n).ch[n].unit[v].owner = s.ch[n].unit[v].owner := by rw [State.countNow_ch_same, Channel.count_owner]
    have each (v : Unit4) := State.hostDisarms_unit mask n v s
    unfold DisarmedTo at each
    refine ⟨fun v named own => ?_, fun v named own => ?_, fun v h => ?_⟩
    · exact (each v).2.2.2 named ((owner v).trans own)
    · obtain ⟨-, same, told, -⟩ := each v
      obtain ⟨stat, guar⟩ := told named ((owner v).trans own)
      exact ⟨stat, guar, by rw [same ((owner v).trans own)]; exact (owner v).trans own⟩
    · rw [(each v).1 (by rw [h]; exact Bool.false_ne_true), State.countNow_ch_same]

end Sys2Proof.Machine
end

section
/-!
Matches, forced levels, trains, the advance and the drive (R53, R54, R59 to R71).
-/
namespace Sys2Proof.Machine

theorem State.modCh_eq_self {n : Ch} {f : Channel → Channel} {s : State} (h : f s.ch[n] = s.ch[n]) : s.modCh n f = s := by
  unfold State.modCh
  rw [h, show s.ch.set n.val s.ch[n] n.isLt = s.ch from Vector.set_getElem_self n.isLt]

/-! ### The level an action sets -/

theorem OutStage.change_level (x : Nat) {upd : OutStage → OutStage} {f : Bool → Bool} (h : ∀ o, (upd o).level = f o.level) (o : OutStage) :
    (o.change x upd).level = f o.level := by
  unfold OutStage.change
  dsimp only
  rw [h]
  split <;> rfl

theorem Channel.settleMerge_out (x : Nat) (c : Channel) : ∃ b : Bool, (c.settleMerge x).out = { c.out with mergeNow := b } := by
  unfold Channel.settleMerge
  split
  · exact ⟨false, rfl⟩
  · exact ⟨c.out.mergeNow, rfl⟩

/-- A change of the compare-and-calendar tier sets its level, and the train goes on. -/
theorem Channel.drive_level (x : Nat) (f : Bool → Bool) (c : Channel) : (c.drive x f).out.level = f c.out.level := by
  obtain ⟨b, out⟩ := Channel.settleMerge_out x c
  refine (OutStage.change_level x (f := f) (fun _ => rfl) _).trans ?_
  rw [out]

/-- A change on an empty pipeline, the Pip tier not held, makes one edge where the level changes, and none else (R62, R64). -/
theorem Channel.drive_pipe {x : Nat} (f : Bool → Bool) {c : Channel} (pip : c.out.pip = none) (pipe : c.out.pipe = []) (tick : c.out.mergeTick ≠ x / 32) :
    (c.drive x f).out.pipe = if f c.out.level = c.out.level then [] else [⟨x, f c.out.level⟩] := by
  obtain ⟨b, out⟩ := Channel.settleMerge_out x c
  unfold Channel.drive Channel.change
  dsimp only
  rw [out]
  unfold OutStage.change
  dsimp only
  rw [if_neg tick]
  simp only [OutStage.shown, pip, pipe, Option.getD_none, List.filter_nil, bne_iff_ne, ne_eq, ite_not, insertBy, max_self]

theorem Channel.trainBefore_level (x : Nat) {c : Channel} (h : c.out.train = .none) (f : Bool → Bool) : ((c.trainBefore x).drive x f).out.level = f c.out.level := by
  rw [Channel.trainBefore_of_none x h, Channel.drive_level]

theorem State.act_drive {code : Nat} {f : Bool → Bool} (h : (code = 1 ∧ f = fun _ => true) ∨ (code = 2 ∧ f = fun _ => false) ∨ (code = 3 ∧ f = fun l => !l))
    (t frac : Nat) (param : W) (n : Ch) (s : State) : (s.act t frac code param n).ch[n].out.level = f s.ch[n].out.level := by
  have run : s.act t frac code param n = s.modCh n (Channel.drive ((t + 4) * 32 + s.placed frac) f) := by
    obtain ⟨rfl, rfl⟩ | ⟨rfl, rfl⟩ | ⟨rfl, rfl⟩ := h <;> rfl
  rw [run, State.modCh_ch_same, Channel.drive_level]

/-! ### The matches that are due -/

/-- Nothing of a unit is due. -/
def CmpUnit.idle (u : CmpUnit) : Prop := u.live = false ∧ u.shadow = false ∧ u.hit = none

/-- The match of a unit in LT base whose value is the present tick. -/
def CmpUnit.ltMatch (t : Nat) (u : Unit4) (x : CmpUnit) : Match := { t := t, u := u, set := x.active, ev := x.ev, own := true }

theorem dueMatches_of_idle {n : Ch} {s : State} (h : ∀ u : Unit4, s.ch[n].unit[u].live = false ∧ s.ch[n].unit[u].hit = none) : dueMatches n s = [] := by
  unfold dueMatches
  refine List.flatMap_eq_nil_iff.mpr fun u _ => ?_
  obtain ⟨live, hit⟩ := h u
  dsimp only
  rw [live, hit]
  rfl

theorem dueMatches_of_lt {n : Ch} {u : Unit4} {s : State} (idle : ∀ v : Unit4, v ≠ u → s.ch[n].unit[v].live = false ∧ s.ch[n].unit[v].hit = none)
    (live : s.ch[n].unit[u].live = true) (hit : s.ch[n].unit[u].hit = none) (en : s.ch[n].en = true)
    (lt : actLt s.ch[n].unit[u].active.act = true) (now : s.ch[n].unit[u].active.val = lt48 s.tick) :
    dueMatches n s = [s.ch[n].unit[u].ltMatch s.tick u] := by
  have only (g : Unit4 → List Match) (m : Match) (here : g u = [m]) (there : ∀ v, v ≠ u → g v = []) : (List.finRange 4).flatMap g = [m] := by
    have shape : g = fun v => if v = u then [m] else [] := by
      funext v
      split
      · next h => rw [h, here]
      · next h => exact there v h
    rw [shape]
    fin_cases u <;> rfl
  unfold dueMatches
  refine only _ _ ?_ fun v hv => ?_
  · dsimp only
    rw [live, hit, lt, now, en, BitVec.sub_self]
    have step : 0 < ltStep s := by unfold ltStep; split <;> decide
    simp [CmpUnit.ltMatch, step]
  · obtain ⟨live, hit⟩ := idle v hv
    dsimp only
    rw [live, hit]
    rfl

/-- With no match due, applying the matches counts. -/
theorem State.applyMatches_of_idle {n : Ch} {s : State} (h : ∀ u : Unit4, s.ch[n].unit[u].idle) : s.applyMatches n = s.countNow n := by
  have none : s.ch[n].noCntUnits := fun u => ⟨fun live => absurd ((h u).1.symm.trans live) Bool.false_ne_true, (h u).2.1⟩
  have due : dueMatches n (s.countNow n) = [] := dueMatches_of_idle fun u => by
    rw [State.countNow_ch_same, Channel.count_unit_of_noCntUnits none]
    exact ⟨(h u).1, (h u).2.2⟩
  unfold State.applyMatches
  dsimp only
  rw [due]
  rfl

/-! ### CompareMatch -/

section
variable {n : Ch} {u : Unit4} {s : State}

/-- The match of an enabled channel's unit in LT base: it is disarmed, and fires. -/
theorem State.applyMatch_ltMatch (en : s.ch[n].en = true) (t : Nat) :
    s.applyMatch n (s.ch[n].unit[u].ltMatch t u) =
      (s.modCh n (Channel.modUnit u (fun x => { x with live := false }))).fire t u s.ch[n].unit[u].active false n := by
  unfold State.applyMatch CmpUnit.ltMatch
  dsimp only
  rw [en]
  rfl

/-- One match alone is due: counting, then that match. -/
theorem State.applyMatches_of_lt (idle : ∀ v : Unit4, v ≠ u → s.ch[n].unit[v].idle) (shadow : s.ch[n].unit[u].shadow = false)
    (live : s.ch[n].unit[u].live = true) (hit : s.ch[n].unit[u].hit = none) (en : s.ch[n].en = true)
    (lt : actLt s.ch[n].unit[u].active.act = true) (now : s.ch[n].unit[u].active.val = lt48 s.tick) :
    s.applyMatches n = ((s.countNow n).modCh n (Channel.modUnit u (fun x => { x with live := false }))).fire s.tick u s.ch[n].unit[u].active false n ∧
      (s.countNow n).ch[n].unit = s.ch[n].unit := by
  have none : s.ch[n].noCntUnits := fun v => by
    by_cases h : v = u
    · subst h
      exact ⟨fun _ => lt, shadow⟩
    · exact ⟨fun live => absurd ((idle v h).1.symm.trans live) Bool.false_ne_true, (idle v h).2.1⟩
  have unit : (s.countNow n).ch[n].unit = s.ch[n].unit := by rw [State.countNow_ch_same, Channel.count_unit_of_noCntUnits none]
  have en' : (s.countNow n).ch[n].en = true := by rw [State.countNow_ch_same, Channel.count_en, en]
  have due : dueMatches n (s.countNow n) = [(s.countNow n).ch[n].unit[u].ltMatch s.tick u] := by
    refine dueMatches_of_lt (fun v h => ?_) ?_ ?_ en' ?_ ?_
    · rw [unit]; exact ⟨(idle v h).1, (idle v h).2.2⟩
    all_goals rw [unit]
    · exact live
    · exact hit
    · exact lt
    · exact now
  refine ⟨?_, unit⟩
  unfold State.applyMatches
  dsimp only
  rw [due]
  refine (State.applyMatch_ltMatch en' s.tick).trans ?_
  rw [unit]

/-- What the match of unit u leaves: the unit as R54 has it, and the level its action sets. -/
theorem State.fire_level (t : Nat) (set : CmpSet) (late : Bool) (en : s.ch[n].en = true) (ev : s.ch[n].unit[u].ev = none) (frz : s.ch[n].frz = false)
    (train : s.ch[n].out.train = .none) :
    (∀ f : Bool → Bool, ((actCode set.act = 1 ∧ f = fun _ => true) ∨ (actCode set.act = 2 ∧ f = fun _ => false) ∨ (actCode set.act = 3 ∧ f = fun l => !l)) →
      (s.fire t u set late n).ch[n].out.level = f s.ch[n].out.level) ∧
    (actCode set.act = 0 → (s.fire t u set late n).ch[n].out.level = s.ch[n].out.level) := by
  have recorded (x : Nat) : (s.modCh n (fun c => (c.trainBefore x).matched t u set late)).ch[n].out = s.ch[n].out := by
    rw [State.modCh_ch_same, Channel.trainBefore_of_none x train, Channel.matched_eq]
  rw [State.fire_of_no_ev t set late en ev, frz, Bool.not_false, State.when_true]
  refine ⟨fun f h => ?_, fun h => ?_⟩
  · rw [State.act_drive h, recorded]
  · rw [h]
    exact congrArg OutStage.level (recorded _)

end

/-- Settles O17: the one match that is due is applied after the counting, which leaves units of LT base. -/
theorem compareMatch : Obligations.CompareMatch := by
  unfold Obligations.CompareMatch
  refine fun n u s => ⟨_, rfl, fun h => if_neg h, ?_⟩
  intro run _ en frz train live hit ev lt now others shadow
  have idle (v : Unit4) (h : v ≠ u) : s.ch[n].unit[v].idle := others v h
  obtain ⟨matches_, unit⟩ := State.applyMatches_of_lt idle shadow live hit en lt now
  rw [if_pos run, matches_]
  generalize hr : (s.countNow n).modCh n (Channel.modUnit u (fun x => { x with live := false })) = r
  have ch : r.ch[n] = ((s.ch[n].count s.tick (s.freeBelow (2 ^ 48))).modUnit u (fun x => { x with live := false })) := by
    rw [← hr, State.modCh_ch_same, State.countNow_ch_same]
  have en' : r.ch[n].en = true := by rw [ch, Channel.modUnit_en, Channel.count_en, en]
  have here : r.ch[n].unit[u] = { s.ch[n].unit[u] with live := false } := by
    rw [ch, Channel.modUnit_unit_same, ← State.countNow_ch_same, unit]
  have ev' : r.ch[n].unit[u].ev = none := by rw [here]; exact ev
  have frz' : r.ch[n].frz = false := by rw [ch]; exact (Channel.count_frz ..).trans frz
  have out : r.ch[n].out = s.ch[n].out := by rw [ch]; exact Channel.count_out ..
  obtain ⟨drives, stays⟩ := State.fire_level s.tick s.ch[n].unit[u].active false en' ev' frz' (by rw [out]; exact train)
  obtain ⟨only, keeps⟩ := State.fire_onlyCh_of_no_ev s.tick s.ch[n].unit[u].active false en' ev'
  have counted : OnlyCh n s r ∧ Keeps [.ch, .free] s r := by
    rw [← hr]
    exact ⟨(State.countNow_onlyCh n s).trans (State.modCh_onlyCh n _ _), (State.countNow_keeps n s).step (State.modCh_keeps ..) (by decide)⟩
  rw [out] at drives stays
  refine ⟨⟨?_, fun h => drives _ (.inl ⟨h, rfl⟩), fun h => drives _ (.inr (.inl ⟨h, rfl⟩)), fun h => drives _ (.inr (.inr ⟨h, rfl⟩)), stays⟩,
    counted.1.trans only, counted.2.step keeps (by decide)⟩
  rw [State.fire_unit s.tick s.ch[n].unit[u].active false en' ev', Fin.getElem_fin, Vector.getElem_set_self, here, CmpUnit.matched]
  rw [← ev, ← hit]
  rfl

/-! ### ForcesAndTrains -/

/-- What a forced level does (R62, R71, R86). -/
def Forced (f : Bool → Bool) (n : Ch) (s t : State) : Prop :=
  OnlyCh n s t ∧ Keeps [.ch, .guar] s t ∧
  (sched n s = true → t.guar.flags.get 5 = true) ∧ (sched n s = false → t.guar = s.guar) ∧
  (s.ch[n].frz = true → t.ch[n] = s.ch[n]) ∧
  (s.ch[n].frz = false → s.ch[n].out.train = .none → t.ch[n].out.level = f s.ch[n].out.level) ∧
  (s.ch[n].frz = false → s.ch[n].out.train = .none → s.ch[n].out.pip = none → s.ch[n].out.pipe = [] → s.ch[n].out.mergeTick ≠ s.tick + 5 →
    t.ch[n].out.pipe = if f s.ch[n].out.level = s.ch[n].out.level then [] else [⟨(s.tick + 5) * 32, f s.ch[n].out.level⟩])

theorem State.force_eq (f : Bool → Bool) (n : Ch) (s : State) : s.force f n =
    (s.directIf (sched n s)).when (!s.ch[n].frz) (State.modCh n (fun c => (c.trainBefore ((s.tick + 5) * 32)).drive ((s.tick + 5) * 32) f)) := by
  have tw : (s.directIf (sched n s)).tw = s.tick + 1 := congrArg (· + 1) (State.directIf_tick ..)
  unfold State.force
  dsimp only
  rw [tw]
  cases h : s.ch[n].frz
  · rw [if_neg (by rw [State.directIf_ch, h]; exact Bool.false_ne_true)]
    rfl
  · rw [if_pos (by rw [State.directIf_ch, h])]
    rfl

theorem State.force_spec (f : Bool → Bool) (n : Ch) (s : State) : Forced f n s (s.force f n) := by
  have only (r : State) : OnlyCh n r (State.modCh n (fun c => (c.trainBefore ((s.tick + 5) * 32)).drive ((s.tick + 5) * 32) f) r) := State.modCh_onlyCh n _ r
  have direct : OnlyCh n s (s.directIf (sched n s)) := fun m _ => by rw [State.directIf_ch]
  have guar : (s.force f n).guar = (s.directIf (sched n s)).guar := by
    rw [State.force_eq]
    cases s.ch[n].frz <;> rfl
  have moved (h : s.ch[n].frz = false) : (s.force f n).ch[n] = (s.ch[n].trainBefore ((s.tick + 5) * 32)).drive ((s.tick + 5) * 32) f := by
    rw [State.force_eq, h, Bool.not_false, State.when_true, State.modCh_ch_same, State.directIf_ch]
  refine ⟨?_, (State.force_keeps f n s).mono (by decide), fun h => ?_, fun h => ?_, fun h => ?_, fun h train => ?_, fun h train pip pipe tick => ?_⟩
  · rw [State.force_eq]
    exact direct.when only
  · rw [guar, State.directIf_breaches _ s h]
    simp
  · rw [guar, h]
    rfl
  · rw [State.force_eq, h, Bool.not_true, State.when_false, State.directIf_ch]
  · rw [moved h, Channel.trainBefore_level _ train]
  · rw [moved h, Channel.trainBefore_of_none _ train, Channel.drive_pipe f pip pipe (by omega)]

/-- The train edge of a channel with no match due, once it is due: counting, then the edge. -/
theorem State.trainEdge_of_idle {n : Ch} {s : State} (run : s.pwr.mode = 0) (idle : ∀ u : Unit4, s.ch[n].unit[u].idle) :
    s.trainEdge n = (s.countNow n).when (trainDue n s) (State.modCh n Channel.trainEdge) := by
  have due : trainDue n (s.countNow n) = trainDue n s := by
    unfold trainDue
    rw [State.countNow_ch_same, Channel.count_out]
    rfl
  unfold State.trainEdge
  dsimp only
  rw [run, beq_self_eq_true, State.when_true, State.applyMatches_of_idle idle, due]

/-- What PULSE_END and BURST_EDGE do with a train whose next edge is at x. -/
theorem State.trainEdge_spec {n : Ch} {s : State} {x : Nat} (run : s.pwr.mode = 0) (idle : ∀ u : Unit4, s.ch[n].unit[u].idle)
    (next : s.ch[n].out.train.nextX = some x) :
    OnlyCh n s (s.when (trainDue n s) (State.trainEdge n)) ∧ Keeps [.ch, .free] s (s.when (trainDue n s) (State.trainEdge n)) ∧
    (s.tick < x / 32 - 4 → s.when (trainDue n s) (State.trainEdge n) = s) ∧
    (x / 32 - 4 ≤ s.tick → ∃ c : Channel, c.out = s.ch[n].out ∧ (s.when (trainDue n s) (State.trainEdge n)).ch[n] = c.trainEdge) := by
  have due : trainDue n s = decide (x / 32 - 4 ≤ s.tick) := by
    unfold trainDue
    rw [next]
    rfl
  have edge (r : State) : OnlyCh n r (r.modCh n Channel.trainEdge) := State.modCh_onlyCh n _ r
  by_cases h : x / 32 - 4 ≤ s.tick
  · rw [due, decide_eq_true h, State.when_true, State.trainEdge_of_idle run idle, due, decide_eq_true h, State.when_true]
    refine ⟨(State.countNow_onlyCh n s).trans (edge _), (State.countNow_keeps n s).step (State.modCh_keeps ..) (by decide), fun k => by omega, fun _ => ?_⟩
    rw [State.modCh_ch_same, State.countNow_ch_same]
    exact ⟨_, Channel.count_out .., rfl⟩
  · rw [due, decide_eq_false h, State.when_false]
    exact ⟨OnlyCh.refl n s, Keeps.refl _ s, fun _ => rfl, fun k => absurd k h⟩

theorem Channel.trainEdge_of_pulse {c : Channel} {x : Nat} (h : c.out.train = .pulse x) : c.trainEdge.out.train = .none ∧ c.trainEdge.out.level = false := by
  unfold Channel.trainEdge
  rw [h]
  exact ⟨rfl, Channel.drive_level x (fun _ => false) c⟩

theorem Channel.trainEdge_of_burst {c : Channel} {x k w g : Nat} {l : Bool} (h : c.out.train = .burst x l k w g) :
    c.trainEdge.out.level = l ∧ c.trainEdge.out.train = if k ≤ 1 then .none else .burst (x + 32 * (if l then w else g)) (!l) (k - 1) w g := by
  unfold Channel.trainEdge
  rw [h]
  exact ⟨Channel.drive_level x (fun _ => l) c, rfl⟩

/-- Settles O18: a forced level drives the tier's level; a due edge of a train does so after the counting. -/
theorem forcesAndTrains : Obligations.ForcesAndTrains := by
  unfold Obligations.ForcesAndTrains
  refine ⟨fun n s i f hi => ⟨s.force f n, ?_, State.force_spec f n s⟩, fun n s run idle => ⟨fun x train => ?_, fun x k w g l train => ?_⟩⟩
  · obtain ⟨rfl, rfl⟩ | ⟨rfl, rfl⟩ | ⟨rfl, rfl⟩ := hi <;> rfl
  · have exec_ : exec (.pulseEnd n) s = .next (s.when (trainDue n s) (State.trainEdge n)) := by
      change execPulseEnd n s = _
      unfold execPulseEnd
      rw [train]
    obtain ⟨only, keeps, early, due⟩ := State.trainEdge_spec run idle (by rw [train]; rfl : s.ch[n].out.train.nextX = some x)
    refine ⟨_, exec_, only, keeps, early, fun h => ?_⟩
    obtain ⟨c, out, ch⟩ := due h
    rw [ch]
    exact Channel.trainEdge_of_pulse (by rw [out, train])
  · have exec_ : exec (.burstEdge n) s = .next (s.when (trainDue n s) (State.trainEdge n)) := by
      change execBurstEdge n s = _
      unfold execBurstEdge
      rw [train]
    obtain ⟨only, keeps, early, due⟩ := State.trainEdge_spec run idle (by rw [train]; rfl : s.ch[n].out.train.nextX = some x)
    refine ⟨_, exec_, only, keeps, early, fun h => ?_⟩
    obtain ⟨c, out, ch⟩ := due h
    rw [ch]
    exact Channel.trainEdge_of_burst (by rw [out, train])

/-! ### AdvanceAndDriveChange -/

theorem State.advNow_onlyCh (n : Ch) (s : State) : OnlyCh n s (s.advNow n) := State.modCh_onlyCh n _ s

theorem State.advNow_ch_same (n : Ch) (s : State) : (s.advNow n).ch[n] = { s.ch[n] with adv := s.ch[n].adv.takeAt s.tick } := State.modCh_ch_same ..

theorem State.cancelComp_ch (n : Ch) (s : State) : (s.cancelComp n).ch = s.ch := (State.cancelComp_keeps n s).2 .ch (by decide)

theorem Advance.takeAt_next (b : Nat) (a : Advance) : (a.takeAt b).next = a.next := by
  unfold Advance.takeAt
  split
  · split
    · next h _ => unfold Advance.take; rw [h]
    · rfl
  · rfl

theorem Advance.takeAt_of_none (b : Nat) {a : Advance} (h : a.pend = none) : a.takeAt b = a := by
  unfold Advance.takeAt
  rw [h]

theorem Advance.takeAt_of_later {b : Nat} {a : Advance} {p : AdvPair} (h : a.pend = some p) (later : b * 32 < p.epoch ∨ b < p.start) : a.takeAt b = a := by
  unfold Advance.takeAt
  rw [h]
  exact if_neg (by omega)

theorem Advance.takeAt_of_reached {b : Nat} {a : Advance} {p : AdvPair} (h : a.pend = some p) (epoch : p.epoch ≤ b * 32) (start : p.start ≤ b)
    (host : p.comp = none) : (a.takeAt b).pend = none ∧ (a.takeAt b).base = p.adv ∧ (a.takeAt b).since = p.epoch ∧ (a.takeAt b).prev = a.value := by
  unfold Advance.takeAt
  rw [h]
  dsimp only
  rw [if_pos ⟨epoch, start⟩, Advance.take, h]
  dsimp only
  rw [host]
  exact ⟨rfl, rfl, rfl, rfl⟩

/-- What a commit of the advance leaves waiting (R66). -/
theorem State.advCommit_ch_same (n : Ch) (epoch : Nat) (s : State) : ∃ whole : Bool, (s.advCommit n epoch).ch[n] =
    { s.ch[n] with adv := { s.ch[n].adv.takeAt s.tick with pend := some { adv := fld s.ch[n].adv.next 0 24, comp := none, epoch := epoch, whole := whole, start := s.tick + 1 } } } := by
  refine ⟨!adapts n (s.advNow n), ?_⟩
  unfold State.advCommit
  dsimp only
  rw [State.modCh_ch_same, State.cancelComp_ch, State.advNow_ch_same, Advance.takeAt_next]
  rfl

theorem State.advCommit_onlyCh (n : Ch) (epoch : Nat) (s : State) : OnlyCh n s (s.advCommit n epoch) := by
  have cancel (r : State) : OnlyCh n r (r.cancelComp n) := fun m _ => by rw [State.cancelComp_ch]
  exact ((State.advNow_onlyCh n s).trans (cancel _)).trans (State.modCh_onlyCh n _ _)

theorem join_eq_append_toNat (h l : W) : join h l = (h ++ l).toNat := by
  rw [← join_eq_append, BitVec.toNat_ofNat, join]
  have := h.isLt
  have := l.isLt
  omega

/-- Settles O19: the pair in force is taken at its epoch before another is put to wait; a change of the drive waits outside the mask. -/
theorem advanceAndDriveChange : Obligations.AdvanceAndDriveChange := by
  unfold Obligations.AdvanceAndDriveChange
  refine fun m n w s => ⟨fun hs => ?_, ?_, ?_⟩
  · refine ⟨_, exec_served rfl hs, ?_⟩
    rw [found_holding, join_eq_append_toNat]
    obtain ⟨whole, ch⟩ := State.advCommit_ch_same n (w ++ s.holding m (chBase n + 0x190)).toNat (found m s)
    rw [found_ch, found_tick] at ch
    rw [ch]
    exact ⟨OnlyCh.of_found (State.advCommit_onlyCh n _ _), ⟨_, rfl, rfl, rfl, rfl, rfl⟩, rfl, State.advCommit_keeps ..⟩
  · have same (h : s.ch[n].adv.takeAt s.tick = s.ch[n].adv) : s.advNow n = s := State.modCh_eq_self (by rw [h])
    refine ⟨_, rfl, State.advNow_onlyCh n s, State.advNow_keeps n s, by rw [State.advNow_ch_same], fun p pend epoch start host => ?_,
      fun p pend later => same (Advance.takeAt_of_later pend later), fun h => same (Advance.takeAt_of_none s.tick h)⟩
    rw [State.advNow_ch_same]
    exact Advance.takeAt_of_reached pend epoch start host
  · refine ⟨_, rfl, State.modCh_onlyCh n _ s, State.modCh_keeps .., fun h => State.modCh_eq_self ?_, fun d pend outside => (State.modCh_ch_same ..).trans ?_⟩
    · split
      · rfl
      · next w pend => exact if_pos (h.resolve_left (by rw [pend]; exact Option.some_ne_none w))
    · rw [pend]
      dsimp only
      rw [outside]
      rfl

end Sys2Proof.Machine
end

section
/-!
Input crossings, the filter and captures (R72 to R80), readback checking (R81, R82) and the reflex term (R83 to R86).
-/
namespace Sys2Proof.Machine

/-! ### ReadbackAndReflex -/

theorem execReadbackMismatchTick_spec (n : Ch) (s : State) : ∃ t : State, exec (.readbackMismatchTick n) s = .next t ∧
    (∀ l : Bool, s.ch[n].expected s.tick = some l → s.ch[n].filt.raw ≠ l → measuring n s = false → scanning s = false →
      t.ch[n] = { s.ch[n] with
        rb := { s.ch[n].rb with ticks := s.ch[n].rb.ticks.bump s.tick 1 65535, bad := true }, fault := s.ch[n].fault.raise s.tick 1 } ∧
      OnlyCh n s t ∧ Keeps [.ch] s t) ∧
    (s.ch[n].expected s.tick = none ∨ s.ch[n].expected s.tick = some s.ch[n].filt.raw ∨ measuring n s = true ∨ scanning s = true → t = s) := by
  change ∃ t : State, execReadbackMismatchTick n s = .next t ∧ _
  unfold execReadbackMismatchTick
  dsimp only
  split
  · next h => exact ⟨s, rfl, fun l hl => absurd (h.symm.trans hl) nofun, fun _ => rfl⟩
  · next l h =>
    refine ⟨_, rfl, fun k hk raw meas scan => ?_, fun none => if_pos ?_⟩
    · obtain rfl : l = k := Option.some.inj (h.symm.trans hk)
      rw [if_neg (by rw [meas, scan]; simpa using raw)]
      exact ⟨State.modCh_ch_same .., State.modCh_onlyCh n _ s, State.modCh_keeps ..⟩
    · simp only [Bool.or_eq_true, beq_iff_eq]
      obtain free | same | meas | scan := none
      · exact absurd (h.symm.trans free) (Option.some_ne_none l)
      · exact .inl (.inl (Option.some.inj (same.symm.trans h)))
      · exact .inl (.inr meas)
      · exact .inr scan

theorem execReadbackInterval_spec (n : Ch) (s : State) : ∃ t : State, exec (.readbackInterval n) s = .next t ∧ OnlyCh n s t ∧ Keeps [.ch] s t ∧
    (let o := s.ch[n].out.drain s.tick
     let k := if s.ch[n].rb.bad then min 3 (s.ch[n].rb.consec + 1) else 0
     if s.ch[n].rb.since < o.lastBall ∨ s.ch[n].rb.since + 4096 ≤ s.tick then
       t.ch[n] = { s.ch[n] with
         out := o, fault := if k = 3 then s.ch[n].fault.raise s.tick 2 else s.ch[n].fault
         rb := { s.ch[n].rb with consec := k, bad := false, since := if s.ch[n].rb.since < o.lastBall then o.lastBall else s.tick } }
     else t = s) := by
  refine ⟨_, rfl, State.modCh_onlyCh n _ s, State.modCh_keeps .., ?_⟩
  dsimp only
  split
  · next h =>
    refine (State.modCh_ch_same ..).trans ?_
    rw [if_pos (by simpa using h)]
    simp only [decide_eq_true_eq, Sticky.raiseIf, beq_iff_eq]
  · next h => exact State.modCh_eq_self (if_neg (by simpa using h))

theorem State.settleRfx_of_none {n : Ch} {s : State} (t : Nat) (h : s.ch[n].rfx.pend = []) : s.settleRfx t n = s := by
  unfold State.settleRfx
  rw [h]
  rfl

section
variable {n : Ch} {s : State} (pend : s.ch[n].rfx.pend = [])
include pend

theorem execRfxArm_spec : ∃ t : State, exec (.rfxArm n) s = .next t ∧ OnlyCh n s t ∧ Keeps [.ch] s t ∧ t.ch[n].rfx.armed = true ∧
    t.ch[n].rfx.out = (rfxFunc (fld s.ch[n].rfx.cfg 0 2) (rfxA n s) (rfxB n s) s.ch[n].out.level != bit s.ch[n].rfx.cfg 14) ∧
    t.ch[n] = { s.ch[n] with rfx := t.ch[n].rfx } := by
  refine ⟨s.rfxArm s.tw n, ?_, State.modCh_onlyCh n _ s, State.modCh_keeps .., ?_⟩
  · change execRfxArm n s = _
    rw [execRfxArm, State.settleRfx_of_none _ pend]
  · unfold State.rfxArm
    dsimp only
    rw [State.modCh_ch_same]
    exact ⟨rfl, rfl, rfl⟩

theorem execRfxDisarm_spec : ∃ t : State, exec (.rfxDisarm n) s = .next t ∧ OnlyCh n s t ∧ Keeps [.ch] s t ∧
    t.ch[n].rfx = { s.ch[n].rfx with armed := false } ∧ t.ch[n] = { s.ch[n] with rfx := t.ch[n].rfx, out := t.ch[n].out } ∧
    (s.ch[n].rfx.armed = false → t.ch[n].out = s.ch[n].out) := by
  refine ⟨s.rfxDisarm s.tw n, ?_, State.modCh_onlyCh n _ s, State.modCh_keeps .., ?_⟩
  · change execRfxDisarm n s = _
    rw [execRfxDisarm, State.settleRfx_of_none _ pend]
  · unfold State.rfxDisarm
    rw [State.modCh_ch_same]
    exact ⟨rfl, rfl, fun h => if_neg (by rw [h]; exact Bool.false_ne_true)⟩

theorem execReflexInputChange_spec : ∃ t : State, exec (.reflexInputChange n) s = .next t ∧ OnlyCh n s t ∧ Keeps [.ch] s t ∧
    t.ch[n].rfx.out = (rfxFunc (fld s.ch[n].rfx.cfg 0 2) (rfxA n s) (rfxB n s) s.ch[n].rfx.latch != bit s.ch[n].rfx.cfg 14) ∧
    t.ch[n].rfx.armed = s.ch[n].rfx.armed ∧ t.ch[n] = { s.ch[n] with rfx := t.ch[n].rfx, out := t.ch[n].out } ∧
    t.ch[n].rfx.flags = (if s.ch[n].rfx.armed = true ∧ s.ch[n].frz = false ∧ t.ch[n].rfx.out ≠ s.ch[n].rfx.out
      then s.ch[n].rfx.flags.raise s.tick 8 else s.ch[n].rfx.flags) ∧
    (s.ch[n].rfx.armed = false ∨ s.ch[n].frz = true → t.ch[n].out = s.ch[n].out) := by
  refine ⟨_, rfl, ?_⟩
  unfold State.reflexInput
  rw [State.settleRfx_of_none _ pend]
  dsimp only
  refine ⟨State.modCh_onlyCh n _ s, State.modCh_keeps .., ?_⟩
  rw [State.modCh_ch_same]
  cases armed : s.ch[n].rfx.armed
  · rw [Bool.not_false, if_pos rfl]
    exact ⟨rfl, rfl, rfl, by simp, fun _ => rfl⟩
  · rw [Bool.not_true, if_neg Bool.false_ne_true]
    refine ⟨rfl, armed, rfl, ?_, fun h => ?_⟩
    · simp only [Reflex.eval, Sticky.raiseIf, Bool.and_eq_true, bne_iff_ne, ne_eq, Bool.not_eq_true']
      grind
    · have frz := h.resolve_left nofun
      rw [frz]
      simp

end

/-- Settles O22: each readback command by its condition; the reflex term's commands on a term with no arming on its way. -/
theorem readbackAndReflex : Obligations.ReadbackAndReflex := by
  unfold Obligations.ReadbackAndReflex
  exact ⟨fun n s => ⟨execReadbackMismatchTick_spec n s, execReadbackInterval_spec n s⟩,
    fun n s pend => ⟨execRfxArm_spec pend, execRfxDisarm_spec pend, execReflexInputChange_spec pend⟩⟩

/-! ### Input crossings -/

@[simp] theorem State.modHealth_health_same (p : Pod) (f : PodHealth → PodHealth) (s : State) : (s.modHealth p f).health.pod[p] = f s.health.pod[p] :=
  Vector.getElem_set_self p.isLt

theorem State.modHealth_health_other {p q : Pod} (h : q ≠ p) (f : PodHealth → PodHealth) (s : State) : (s.modHealth p f).health.pod[q] = s.health.pod[q] :=
  Vector.getElem_set_ne p.isLt q.isLt (Fin.val_ne_of_ne h.symm)

theorem Channel.takeFilter_same (b : Nat) (c : Channel) : c.takeFilter b = { c with filter := (c.takeFilter b).filter, filtNext := (c.takeFilter b).filtNext } := by
  unfold Channel.takeFilter
  split
  · rfl
  · split <;> rfl

theorem Channel.count_filt (lim fv : Nat) (c : Channel) : (c.count lim fv).filt = c.filt := by rw [Channel.count_same]

theorem Channel.count_ownPin (lim fv : Nat) (c : Channel) : (c.count lim fv).ownPin = c.ownPin := by rw [Channel.count_same]

theorem lo32_toNat_48 (v : C48) : lo32 v.toNat = v.setWidth 32 := BitVec.eq_of_toNat_eq (by simp [lo32])

/-- A crossing that no filter of 0 ticks is to accept first is counted up to, and handed to the filter (R73, R74). -/
theorem State.crossPin_spec {n : Ch} {s : State} (seeing : blind s = false) (h : s.ch[n].filt.cand = none ∨ s.ch[n].filter ≠ 0) (x : Nat) (level : Bool) :
    OnlyCh n s (s.crossPin x level n) ∧ Keeps [.ch, .free] s (s.crossPin x level n) ∧ (s.crossPin x level n).ch[n].ownPin = s.ch[n].ownPin ∧
      (s.crossPin x level n).ch[n].filt = s.ch[n].filt.cross x ((s.crossPin x level n).ch[n].ctr.cnt.setWidth 32) level := by
  have pass : (s.ch[n].filter == 0 && s.ch[n].filt.cand.isSome && s.ch[n].filt.raw != level) = false := by
    obtain h | h := h
    · rw [h]; simp
    · rw [beq_false_of_ne h]; rfl
  unfold State.crossPin
  rw [seeing, if_neg Bool.false_ne_true, pass, State.when_false]
  dsimp only
  refine ⟨(State.countNow_onlyCh n s).trans (State.modCh_onlyCh n _ _), (State.countNow_keeps n s).step (State.modCh_keeps ..) (by decide), ?_⟩
  rw [State.modCh_ch_same, State.countNow_ch_same, State.countNow_tick, lo32_toNat_48, Channel.takeFilter_same]
  exact ⟨Channel.count_ownPin .., congrArg (InFilt.cross x _ level) (Channel.count_filt ..)⟩

theorem InFilt.cross_same {x : Nat} {cnt : W} {level : Bool} {f : InFilt} (h : level = f.raw) : f.cross x cnt level = f := if_pos (beq_iff_eq.mpr h.symm)

theorem InFilt.cross_edge {x : Nat} {cnt : W} {level : Bool} {f : InFilt} (h : level ≠ f.raw) :
    f.cross x cnt level = { f with raw := level, cand := if level = f.acc then none else some (x, cnt) } := by
  unfold InFilt.cross
  rw [if_neg (by simpa using h.symm)]
  simp

theorem State.placed_of_full {s : State} (h : s.time.res = 0) (frac : Nat) : s.placed frac = frac := if_neg (by rw [h]; decide)

section
variable {s : State} (full : s.time.res = 0) (seeing : blind s = false) (level : Bool) (frac : Fin 32)
include full seeing

theorem execInputCrossing_ch {n : Ch} (own : s.ch[n].spare = false) (h : s.ch[n].filt.cand = none ∨ s.ch[n].filter ≠ 0) :
    ∃ t : State, exec (.inputCrossing (.ch n) level frac) s = .next t ∧ OnlyCh n s t ∧ Keeps [.ch, .free] s t ∧ t.ch[n].ownPin = level ∧
      (level = s.ch[n].filt.raw → t.ch[n].filt = s.ch[n].filt) ∧
      (level ≠ s.ch[n].filt.raw → t.ch[n].filt = { s.ch[n].filt with
        raw := level, cand := if level = s.ch[n].filt.acc then none else some (s.tick * 32 + frac.val, t.ch[n].ctr.cnt.setWidth 32) }) := by
  generalize hr : s.modCh n (fun c => { c with ownPin := level }) = r
  have ch : r.ch[n] = { s.ch[n] with ownPin := level } := by rw [← hr, State.modCh_ch_same]
  have only : OnlyCh n s r := by rw [← hr]; exact State.modCh_onlyCh n _ s
  have keeps : Keeps [.ch] s r := by rw [← hr]; exact State.modCh_keeps ..
  have run : exec (.inputCrossing (.ch n) level frac) s = .next (r.crossPin (s.tick * 32 + frac.val) level n) := by
    change execInputCrossing (.ch n) level frac s = _
    unfold execInputCrossing
    dsimp only
    rw [hr, State.placed_of_full full, if_neg (by rw [ch, own]; exact Bool.false_ne_true)]
  obtain ⟨only', keeps', pin, filt⟩ := State.crossPin_spec (n := n) (s := r) (by rw [← hr]; exact seeing) (by rw [ch]; exact h) (s.tick * 32 + frac.val) level
  rw [ch] at pin filt
  refine ⟨_, run, only.trans only', (keeps.mono (by decide)).trans keeps', pin, fun h => ?_, fun h => ?_⟩
  · rw [filt, InFilt.cross_same h]
  · rw [filt, InFilt.cross_edge h]

theorem execInputCrossing_spb {p : Pod} (unmoved : s.health.pod[p].spareOn = none) (idle : s.health.pod[p].spb.cand = none) (edge : level ≠ s.health.pod[p].spb.raw) :
    ∃ t : State, exec (.inputCrossing (.spb p) level frac) s = .next t ∧ Keeps [.health] s t ∧
      t.health.pod[p].spb = { s.health.pod[p].spb with
        raw := level, cand := if level = s.health.pod[p].spb.acc then none else some (s.tick * 32 + frac.val, 0) } := by
  refine ⟨s.modHealth p (fun h => { h with spb := h.spb.cross (s.tick * 32 + frac.val) 0 level }), ?_, State.modHealth_keeps .., ?_⟩
  · change execInputCrossing (.spb p) level frac s = _
    unfold execInputCrossing movedCh
    dsimp only
    rw [State.placed_of_full full, idle, Option.isSome_none, Bool.false_and, State.when_false, seeing]
    simp only [Bool.false_eq_true, if_false]
    rw [State.modHealth_health_same]
    dsimp only
    rw [unmoved]
    rfl
  · rw [State.modHealth_health_same]
    exact InFilt.cross_edge edge

end

/-! ### The filter accepts -/

/-- Nothing differs but the entries of the capture queue and the Pip's latch of them. -/
def SameButEntries (c d : Channel) : Prop :=
  d = { c with cap := d.cap, pip := d.pip } ∧ d.cap.cfg = c.cap.cfg ∧ d.cap.accTick = c.cap.accTick ∧ d.cap.accMade = c.cap.accMade

theorem SameButEntries.refl (c : Channel) : SameButEntries c c := ⟨rfl, rfl, rfl, rfl⟩

theorem SameButEntries.trans {c d e : Channel} (h : SameButEntries c d) (k : SameButEntries d e) : SameButEntries c e := by
  obtain ⟨hc, cfg, tick, made⟩ := h
  obtain ⟨kc, cfg', tick', made'⟩ := k
  exact ⟨by rw [kc, hc], cfg'.trans cfg, tick'.trans tick, made'.trans made⟩

theorem Capture.enter_same (b : Nat) (pods : Bool) (e : CapE) (k : Capture) :
    (k.enter b pods e).1.cfg = k.cfg ∧ (k.enter b pods e).1.accTick = k.accTick ∧ (k.enter b pods e).1.accMade = k.accMade := by
  unfold Capture.enter
  split
  · exact ⟨rfl, rfl, rfl⟩
  · split
    · exact ⟨rfl, rfl, rfl⟩
    · split <;> exact ⟨rfl, rfl, rfl⟩

theorem enterAll_same (n : Ch) (lim : Nat) : ∀ (l : List (Nat × CapE)) (s : State), SameButEntries s.ch[n] (enterAll n lim l s).ch[n]
  | [], s => SameButEntries.refl _
  | (b, e) :: r, s => by
    have entered (kept : Bool) : SameButEntries s.ch[n] (s.modCh n (fun c => { c with
        cap := { (s.ch[n].cap.enter b (s.pwr.mode == 0) e).1 with waiting := r }, pip := if kept then c.pip.latch (b + 1) (flag 12 true) else c.pip })).ch[n] := by
      obtain ⟨cfg, tick, made⟩ := Capture.enter_same b (s.pwr.mode == 0) e s.ch[n].cap
      rw [State.modCh_ch_same]
      exact ⟨rfl, cfg, tick, made⟩
    unfold enterAll
    split
    · dsimp only
      refine SameButEntries.trans ?_ (enterAll_same n lim r _)
      split <;> exact entered _
    · exact SameButEntries.refl _

/-- Nothing differs of any channel but what its counter is to count. -/
def SameButSource (s t : State) : Prop := ∀ k : Ch, t.ch[k] = { s.ch[k] with ctr := { s.ch[k].ctr with srcQ := t.ch[k].ctr.srcQ } }

theorem SameButSource.trans {s t u : State} (h : SameButSource s t) (k : SameButSource t u) : SameButSource s u := fun m => by
  have hm := h m
  have km := k m
  rw [hm] at km
  exact km

theorem SameButSource.modCh {n : Ch} {f : Channel → Channel} {s : State} (h : f s.ch[n] = { s.ch[n] with ctr := { s.ch[n].ctr with srcQ := (f s.ch[n]).ctr.srcQ } }) :
    SameButSource s (s.modCh n f) := fun k => by
  by_cases hk : k = n
  · subst hk
    rw [State.modCh_ch_same]
    exact h
  · rw [State.modCh_onlyCh n f s k hk]

theorem feedSource_same (p : Pod) (sel ta : Nat) (level : Bool) (s : State) : SameButSource s (feedSource p sel ta level s) :=
  forAll_induction (P := SameButSource s) (fun _ _ _ h => h.trans (SameButSource.modCh rfl)) (fun _ => rfl)

theorem mem_insertBy {α : Type} (before : α → α → Bool) (x : α) : ∀ l : List α, x ∈ insertBy before x l
  | [] => List.mem_singleton_self x
  | y :: ys => by
    unfold insertBy
    split
    · exact List.mem_cons_self
    · exact List.mem_cons_of_mem y (mem_insertBy before x ys)

/-- The capture of a selected edge, the first accepted in its tick: its entry waits to enter (R74, R75). -/
theorem Channel.mem_capture {ta x : Nat} {cnt : W} {level : Bool} {lt : Nat} {c : Channel} (en : c.en = true) (frz : c.frz = false)
    (sel : capSelects c.cap.cfg level = true) (first : c.cap.accTick ≠ some ta) :
    (x / 32 + c.filter + 3, ({ lt := lt, cnt := cnt, flags := if level then 1 else 0 } : CapE)) ∈ (c.capture ta x cnt level false lt).cap.waiting := by
  unfold Channel.capture
  dsimp only
  rw [beq_false_of_ne first, en, frz, sel]
  have plain (b : Byte) : b ||| 0 ||| 0 ||| 0 = b := by simp
  simp only [Bool.false_and, Bool.false_eq_true, if_false, Bool.and_self, if_true, plain]
  exact mem_insertBy _ _ _

theorem State.acceptPin_of_cand {n : Ch} {s : State} {x : Nat} {cnt : W} (cand : s.ch[n].filt.cand = some (x, cnt)) (full : s.time.res = 0) :
    ∃ r : State, SameButEntries s.ch[n] r.ch[n] ∧ OnlyCh n s r ∧ ∃ lt : Nat, (s.ch[n].frz = false → lt = x) ∧ s.acceptPin n =
      feedSource (podOf n) (n.val % 16) (x / 32 + s.ch[n].filter) s.ch[n].filt.raw (r.modCh n (fun c =>
        { (c.capture (x / 32 + s.ch[n].filter) x cnt c.filt.raw false lt) with filt := c.filt.accept (x / 32 + s.ch[n].filter) })) := by
  refine ⟨(s.settleCaps (s.tick - 1) n).used, enterAll_same .., enterAll_onlyCh n _ _ s, if s.ch[n].frz then (x / 32 - s.freeBelow 16) * 32 else x, fun h => ?_, ?_⟩
  · rw [h]
    rfl
  · unfold State.acceptPin
    dsimp only
    rw [cand, full]
    rfl

section
variable {n : Ch} {s : State} (full : s.time.res = 0)
include full

theorem execFilterAccept_ch : ∃ t : State, exec (.filterAccept (.ch n)) s = .next t ∧
    (s.ch[n].filt.cand = none → t = s) ∧
    (∀ (x : Nat) (cnt : W), s.ch[n].filt.cand = some (x, cnt) →
      (s.tick < x / 32 + s.ch[n].filter → t = s) ∧
      (x / 32 + s.ch[n].filter ≤ s.tick → t.ch[n].filt.acc = s.ch[n].filt.raw ∧ t.ch[n].filt.cand = none ∧
        (s.ch[n].en = true → s.ch[n].frz = false → capSelects s.ch[n].cap.cfg s.ch[n].filt.raw = true → s.ch[n].cap.accTick ≠ some (x / 32 + s.ch[n].filter) →
          (x / 32 + s.ch[n].filter + 3, ({ lt := x, cnt := cnt, flags := if s.ch[n].filt.raw then 1 else 0 } : CapE)) ∈ t.ch[n].cap.waiting))) ∧
    (∀ k : Ch, k ≠ n → t.ch[k] = { s.ch[k] with ctr := { s.ch[k].ctr with srcQ := t.ch[k].ctr.srcQ } }) ∧ Keeps [.ch, .pod, .free] s t := by
  change ∃ t : State, execFilterAccept (.ch n) s = .next t ∧ _
  unfold execFilterAccept
  dsimp only
  cases cand : s.ch[n].filt.cand with
  | none => exact ⟨s, rfl, fun _ => rfl, nofun, fun _ _ => rfl, Keeps.refl _ s⟩
  | some v =>
    obtain ⟨x, cnt⟩ := v
    by_cases due : x / 32 + s.ch[n].filter ≤ s.tick
    · refine ⟨s.acceptPin n, congrArg Host.Outcome.next (if_pos due), nofun, fun y k h => ?_, ?_, State.acceptPin_keeps n s⟩
      all_goals obtain ⟨r, ⟨same, cfg, tick, -⟩, only, lt, hlt, accepted⟩ := State.acceptPin_of_cand cand full
      all_goals rw [accepted]
      · obtain ⟨rfl, rfl⟩ : x = y ∧ cnt = k := by simpa using h
        refine ⟨fun h => absurd h (by omega), fun _ => ?_⟩
        rw [feedSource_same .., State.modCh_ch_same]
        have filt : r.ch[n].filt = s.ch[n].filt := by rw [same]
        have filter : r.ch[n].filter = s.ch[n].filter := by rw [same]
        refine ⟨congrArg InFilt.raw filt, rfl, fun en frz sel first => ?_⟩
        have entry := Channel.mem_capture (c := r.ch[n]) (ta := x / 32 + s.ch[n].filter) (x := x) (cnt := cnt) (level := r.ch[n].filt.raw) (lt := lt)
          (by rw [same]; exact en) (by rw [same]; exact frz) (by rw [cfg, filt]; exact sel) (by rw [tick]; exact first)
        rw [hlt frz, filter, filt] at entry
        rw [hlt frz, filt]
        exact entry
      · intro k hk
        have fed := feedSource_same (podOf n) (n.val % 16) (x / 32 + s.ch[n].filter) s.ch[n].filt.raw (r.modCh n (fun c =>
          { (c.capture (x / 32 + s.ch[n].filter) x cnt c.filt.raw false lt) with filt := c.filt.accept (x / 32 + s.ch[n].filter) })) k
        rw [State.modCh_onlyCh n _ r k hk, only k hk] at fed
        exact fed
    · refine ⟨s, congrArg Host.Outcome.next (if_neg due), nofun, fun y k h => ?_, fun _ _ => rfl, Keeps.refl _ s⟩
      obtain ⟨rfl, rfl⟩ : x = y ∧ cnt = k := by simpa using h
      exact ⟨fun _ => rfl, fun h => absurd h due⟩

end

theorem execFilterAccept_spb (p : Pod) (s : State) : ∃ t : State, exec (.filterAccept (.spb p)) s = .next t ∧ Keeps [.ch, .health] s t ∧
    (s.health.pod[p].spb.cand = none → t = s) ∧
    (s.health.pod[p].spb.cand ≠ none → t.health.pod[p].spb.acc = s.health.pod[p].spb.raw ∧ t.health.pod[p].spb.cand = none) := by
  refine ⟨s.acceptSpb p, rfl, State.acceptSpb_keeps p s, fun h => ?_, fun h => ?_⟩
  · unfold State.acceptSpb
    dsimp only
    rw [h]
  · obtain ⟨⟨x, cnt⟩, cand⟩ := Option.ne_none_iff_exists'.mp h
    have health (q : Pod) (sel ta : Nat) (level : Bool) (r : State) : (feedSource q sel ta level r).health = r.health := (feedSource_keeps ..).2 .health (by decide)
    unfold State.acceptSpb
    dsimp only
    rw [cand]
    dsimp only
    rw [health, State.modHealth_health_same]
    exact ⟨rfl, rfl⟩

/-! ### CAP_POP -/

theorem State.settleCaps_of_none {n : Ch} {s : State} (lim : Nat) (h : s.ch[n].cap.waiting = []) : s.settleCaps lim n = s := by
  unfold State.settleCaps
  rw [h]
  rfl

theorem State.settleSpill_of_not_spilling {n : Ch} {s : State} (h : s.ch[n].cap.spilling = false) : s.settleSpill n = s := by
  unfold State.settleSpill
  dsimp only
  rw [if_neg]
  rw [h]
  simp

/-- A pop where no entry is about to enter, and the channel does not spill: the queue's head, or nothing (R76, R77). -/
theorem State.capPop_eq {m : Master} {n : Ch} {s : State} (waiting : s.ch[n].cap.waiting = []) (spilling : s.ch[n].cap.spilling = false) :
    s.capPop m n = match s.ch[n].cap.queue with
      | [] => (s.modCh n (fun c => { c with cap := { c.cap with latch := c.cap.latch.set m.idx.val {} } })).lowRead m (chBase n + 0x108) 0
      | e :: r => (s.modCh n (fun c => { c with cap := { c.cap with
          queue := r, latch := c.cap.latch.set m.idx.val { ts := e.lt, cnt := e.cnt, flags := e.flags ||| 0x80 } } })).lowRead m (chBase n + 0x108) e.lt := by
  unfold State.capPop
  rw [State.settleCaps_of_none _ waiting, State.settleSpill_of_not_spilling spilling]
  have settled (lim : Nat) (t : State) (h : t.ch[n].cap.waiting = [] ∧ t.ch[n].cap.spilling = false) : (t.settleCaps lim n).settleSpill n = t := by
    rw [State.settleCaps_of_none _ h.1, State.settleSpill_of_not_spilling h.2]
  have read (r : State) (a v : Nat) : (r.lowRead m a v).ch = r.ch := rfl
  dsimp only
  cases s.ch[n].cap.queue
  all_goals
    refine settled _ _ ?_
    rw [read, State.modCh_ch_same]
    exact ⟨waiting, spilling⟩

/-- Settles O21: a crossing goes to the filter; an acceptance makes the entry and feeds the counters of the bank; a pop takes the head. -/
theorem inputEdgesAndCaptures : Obligations.InputEdgesAndCaptures := by
  unfold Obligations.InputEdgesAndCaptures
  refine ⟨fun n p level frac s full seeing => ⟨execInputCrossing_ch full seeing level frac, execInputCrossing_spb full seeing level frac,
    execFilterAccept_ch full, execFilterAccept_spb p s⟩, fun m n s hs waiting spilling => ?_⟩
  refine ⟨_, exec_served rfl hs, ?_⟩
  rw [State.capPop_eq (by rw [found_ch]; exact waiting) (by rw [found_ch]; exact spilling), found_ch]
  have popped (f : Channel → Channel) (v : Nat) :
      OnlyMaster m s (((found m s).modCh n f).lowRead m (chBase n + 0x108) v) ∧ OnlyCh n s (((found m s).modCh n f).lowRead m (chBase n + 0x108) v) ∧
      Keeps [.master, .ch] (found m s) (((found m s).modCh n f).lowRead m (chBase n + 0x108) v) ∧
      (((found m s).modCh n f).lowRead m (chBase n + 0x108) v).master[m.idx] =
        { s.master[m.idx] with rdata := lo32 v, shadow := hi32 v, addr := BitVec.ofNat 24 (chBase n + 0x108), valid := true } ∧
      (((found m s).modCh n f).lowRead m (chBase n + 0x108) v).ch[n] = f s.ch[n] := by
    refine ⟨fun i hi => ?_, OnlyCh.of_found (State.modCh_onlyCh n f (found m s)), ((State.modCh_keeps ..).mono (by decide)).step (State.lowRead_keeps ..) (by decide), ?_, ?_⟩
    · rw [State.lowRead_onlyMaster m _ v _ i hi, State.modCh_master, found_master]
    · rw [State.lowRead_master_same, State.modCh_master, found_master]
    · refine (State.modCh_ch_same ..).trans ?_
      rw [found_ch]
  split
  · next empty =>
    obtain ⟨onlyM, only, keeps, master, ch⟩ := popped (fun c => { c with cap := { c.cap with latch := c.cap.latch.set m.idx.val {} } }) 0
    exact ⟨onlyM, only, keeps, fun _ => ⟨master, ch⟩, fun e r h => absurd (empty.symm.trans h) (List.cons_ne_nil e r).symm⟩
  · next e r head =>
    obtain ⟨onlyM, only, keeps, master, ch⟩ := popped (fun c => { c with cap := { c.cap with
      queue := r, latch := c.cap.latch.set m.idx.val { ts := e.lt, cnt := e.cnt, flags := e.flags ||| 0x80 } } }) e.lt
    refine ⟨onlyM, only, keeps, fun h => absurd (h.symm.trans head) (List.cons_ne_nil e r).symm, fun f l h => ?_⟩
    obtain ⟨rfl, rfl⟩ := List.cons.inj (head.symm.trans h)
    exact ⟨master, ch⟩

end Sys2Proof.Machine
end

section
/-!
The host's commands to a Pip (R91 to R93, R97, R106, R110 to R114).
-/
namespace Sys2Proof.Machine

/-! ### START and RESUME -/

/-- An engine that stands is settled (R91, R114). -/
theorem Pip.settle_of_stands {p : Pip} (h : p.run = false) (t : Nat) : p.settle t = p := by
  unfold Pip.settle
  rw [h]
  rfl

/-- The engine after a START that is accepted (R110, R111). -/
def Pip.started (t : Nat) (entry : Fin 32) (frac : Option Nat) (p : Pip) : Pip :=
  { p with
    err := p.err.raiseIf (p.r.bc != 0) t 1
    r := { p.r with pc := entry, bc := 0, loaded := false }
    waits := (p.noteStalls t).waits, waited := 0
    run := true, resum := false, t0 := t, cyc := 0, waitLeft := 0, stalled := none, stopAt := none
    efrac := frac, prevCyc := none }

/-- A START is accepted of an engine that stands (R110). -/
abbrev Channel.pipStartOk (c : Channel) : Prop := c.pip.activeValid = true ∧ c.frz = false ∧ c.en = true ∧ bit c.pip.ctrl 0 = true

/-- START of an engine that stands: it runs from the entry on, or is refused (R110, R111). -/
theorem State.pipStartAt_of_stands {n : Ch} {s : State} (stands : s.ch[n].pip.run = false) (swap : s.ch[n].pip.swap = none) (t : Nat) (entry : Fin 32)
    (frac : Option Nat) : (s.ch[n].pipStartOk → s.pipStartAt t entry frac n = s.modPip n (Pip.started t entry frac)) ∧
      (¬ s.ch[n].pipStartOk → s.pipStartAt t entry frac n = s.modPip n (Pip.error t 8)) := by
  have refused : (!s.ch[n].pip.activeValid || (s.ch[n].pip.run && !bit s.ch[n].pip.ctrl 1) || s.ch[n].frz || !(s.ch[n].en && bit s.ch[n].pip.ctrl 0)) = true ↔
      ¬ s.ch[n].pipStartOk := by
    rw [stands, Channel.pipStartOk]
    grind
  have unswapped : ¬ (none == some t) = true := Bool.false_ne_true
  unfold State.pipStartAt
  dsimp only
  rw [Pip.settle_of_stands stands, swap, if_neg unswapped]
  exact ⟨fun h => (if_neg (mt refused.mp (not_not.mpr h))).trans (State.modPip_congr rfl), fun h => (if_pos (refused.mpr h)).trans (State.modPip_congr rfl)⟩

/-- The engine after a RESUME that is accepted (R92, R93). -/
def Pip.resumed (t : Nat) (p : Pip) : Pip :=
  { p with run := true, resum := false, t0 := t, cyc := 0, stalled := none, stopAt := none, prevCyc := none }

/-- A RESUME is accepted (R92). -/
abbrev Channel.pipResumeOk (c : Channel) : Prop := c.pip.resum = true ∧ c.pip.run = false ∧ c.en = true ∧ bit c.pip.ctrl 0 = true ∧ c.frz = false

theorem State.pipResume_eq (n : Ch) (s : State) : (s.ch[n].pipResumeOk → s.pipResume n = s.modPip n (Pip.resumed s.tw)) ∧
    (¬ s.ch[n].pipResumeOk → s.pipResume n = s.modPip n (Pip.error s.tick 8)) := by
  have accepted : (s.ch[n].pip.resum && !s.ch[n].pip.run && s.ch[n].en && bit s.ch[n].pip.ctrl 0 && !s.ch[n].frz) = true ↔ s.ch[n].pipResumeOk := by
    simp only [Channel.pipResumeOk, Bool.and_eq_true, Bool.not_eq_true', and_assoc]
  exact ⟨fun h => if_pos (accepted.mpr h), fun h => if_neg (mt accepted.mp h)⟩

/-! ### Swaps -/

section
variable {p : Pip} (t : Nat)

theorem Pip.reqSwap_of_invalid (h : p.otherValid = false) (force : Bool) : p.reqSwap t force = p.error t 4 := by
  unfold Pip.reqSwap
  rw [h]
  rfl

theorem Pip.takeSwap_spec (p : Pip) (force : Bool) :
    (p.takeSwap t force).bank = !p.bank ∧ (p.takeSwap t force).r.pc = 0 ∧ (p.takeSwap t force).run = p.run ∧
      (force = true → p.r.bc ≠ 0 → (p.takeSwap t force).r.sr = 0 ∧ (p.takeSwap t force).r.bc = 0 ∧ (p.takeSwap t force).r.loaded = false ∧
        (p.takeSwap t force).err = p.err.raise t 1) := by
  unfold Pip.takeSwap
  dsimp only
  split
  · exact ⟨rfl, rfl, rfl, fun _ _ => ⟨rfl, rfl, rfl, rfl⟩⟩
  · next h => exact ⟨rfl, rfl, rfl, fun force bc => absurd (by rw [force]; simpa using bc) h⟩

theorem Pip.reqSwap_of_stands (valid : p.otherValid = true) (stands : p.run = false) (force : Bool) :
    p.reqSwap t force = { p.takeSwap t force with resum := false } := by
  unfold Pip.reqSwap
  rw [valid, stands]
  rfl

theorem Pip.reqSwap_of_runs (valid : p.otherValid = true) (runs : p.run = true) : p.reqSwap t false = { p with swap := some (p.swap.getD (t + 1)) } := by
  unfold Pip.reqSwap
  rw [valid, runs]
  rfl

theorem Pip.noteStalls_same (p : Pip) : p.noteStalls t = { p with waits := (p.noteStalls t).waits, waited := (p.noteStalls t).waited } := by
  unfold Pip.noteStalls
  split <;> rfl

theorem Pip.reqSwap_of_forced (valid : p.otherValid = true) : (p.reqSwap t true).bank = !p.bank ∧ (p.reqSwap t true).r.pc = 0 ∧ (p.reqSwap t true).run = p.run ∧
    (p.r.bc ≠ 0 → (p.reqSwap t true).r.sr = 0 ∧ (p.reqSwap t true).r.bc = 0 ∧ (p.reqSwap t true).r.loaded = false ∧ (p.reqSwap t true).err = p.err.raise t 1) := by
  cases runs : p.run
  · rw [Pip.reqSwap_of_stands t valid runs]
    obtain ⟨bank, pc, run, forced⟩ := Pip.takeSwap_spec t p true
    exact ⟨bank, pc, run.trans runs, forced rfl⟩
  · have at_ : ∃ k : Nat, p.reqSwap t true = { (p.noteStalls t).takeSwap t true with cyc := k } := by
      unfold Pip.reqSwap
      rw [valid, runs]
      exact ⟨_, rfl⟩
    obtain ⟨k, swapped⟩ := at_
    obtain ⟨bank, pc, run, forced⟩ := Pip.takeSwap_spec t (p.noteStalls t) true
    rw [swapped]
    rw [Pip.noteStalls_same] at bank pc run forced ⊢
    exact ⟨bank, pc, run.trans runs, forced rfl⟩

end

/-! ### RELEASE -/

theorem Channel.change_outPip (x : Nat) (c : Channel) : (c.change x (fun o => { o with pip := none })).out.pip = none := by
  unfold Channel.change OutStage.change
  rfl

/-- The tiers the engine holds are given up (R97). -/
theorem State.releaseTier_outPip {n k : Ch} {s : State} (h : k ∈ tierOf n s) (t : Nat) : (s.releaseTier t n).ch[k].out.pip = none := by
  have gone (m : Ch) (r : State) (h : r.ch[k].out.pip = none ∨ k = m) :
      (r.modCh m (Channel.change ((t + 4) * 32) (fun o => { o with pip := none }))).ch[k].out.pip = none := by
    by_cases hm : k = m
    · subst hm
      rw [State.modCh_ch_same, Channel.change_outPip]
    · rw [State.modCh_onlyCh m _ r k hm]
      exact h.resolve_right hm
  have each : ∀ (l : List Ch) (r : State), k ∈ l ∨ r.ch[k].out.pip = none →
      (forAll l (fun m => State.modCh m (Channel.change ((t + 4) * 32) (fun o => { o with pip := none }))) r).ch[k].out.pip = none := by
    intro l
    induction l with
    | nil => exact fun r h => h.resolve_left (List.not_mem_nil)
    | cons m l ih =>
      refine fun r h => ih _ ?_
      obtain h | h := h
      · obtain rfl | h := List.mem_cons.mp h
        · exact .inr (gone _ r (.inr rfl))
        · exact .inl h
      · exact .inr (gone m r (.inl h))
  exact each _ s (.inl h)

/-! ### PipHostCommands -/

/-- Settles O23: each command is a change of the engine brought up to date. -/
theorem pipHostCommands : Obligations.PipHostCommands := by
  unfold Obligations.PipHostCommands
  intro n s
  have tick : (s.pipNow n).tick = s.tick := State.pipNow_tick n s
  have tw : (s.pipNow n).tw = s.tick + 1 := congrArg (· + 1) tick
  have own {t : State} {f : Pip → Pip} (h : t.ch[n] = { (s.pipNow n).ch[n] with pip := f (s.pipNow n).ch[n].pip }) :
      t.ch[n] = { (s.pipNow n).ch[n] with pip := t.ch[n].pip } ∧ t.ch[n].pip = f (s.pipNow n).ch[n].pip := by rw [h]; exact ⟨rfl, rfl⟩
  have changed (f : Pip → Pip) : OnlyCh n s ((s.pipNow n).modPip n f) ∧ Keeps [.ch, .pod] s ((s.pipNow n).modPip n f) ∧
      ((s.pipNow n).modPip n f).ch[n] = { (s.pipNow n).ch[n] with pip := ((s.pipNow n).modPip n f).ch[n].pip } ∧
      ((s.pipNow n).modPip n f).ch[n].pip = f (s.pipNow n).ch[n].pip := by
    obtain ⟨only, keeps, ch⟩ := State.pipNow_modPip_spec n f s
    exact ⟨only, keeps, own ch⟩
  refine ⟨⟨fun entry stands swap => ?_, ?_, ?_, ?_, ?_, ?_, ?_⟩, ?_, fun mask => ?_⟩
  · obtain ⟨accepted, refused⟩ := State.pipStartAt_of_stands stands swap s.tw entry none
    by_cases h : (s.pipNow n).ch[n].pipStartOk
    · obtain ⟨only, keeps, ch, pip⟩ := changed (Pip.started s.tw entry none)
      refine ⟨_, congrArg Host.Outcome.next (accepted h), ch, only, keeps, ?_⟩
      rw [pip, if_pos h]
      exact ⟨rfl, rfl, rfl, rfl, rfl⟩
    · obtain ⟨only, keeps, ch, pip⟩ := changed (Pip.error s.tw 8)
      refine ⟨_, congrArg Host.Outcome.next (refused h), ch, only, keeps, ?_⟩
      rw [pip, if_neg h]
      rfl
  · obtain ⟨only, keeps, ch, pip⟩ := changed (Pip.reqStop s.tw)
    refine ⟨_, rfl, only, keeps, ch.trans ?_⟩
    rw [pip]
    simp only [Pip.reqStop, Bool.and_eq_true, Option.isNone_iff_eq_none, State.tw]
  · obtain ⟨accepted, refused⟩ := State.pipResume_eq n (s.pipNow n)
    by_cases h : (s.pipNow n).ch[n].pipResumeOk
    · obtain ⟨only, keeps, ch, pip⟩ := changed (Pip.resumed (s.pipNow n).tw)
      refine ⟨_, congrArg Host.Outcome.next (accepted h), ch, only, keeps, ?_⟩
      rw [pip, if_pos h]
      exact ⟨rfl, rfl, tw, rfl, rfl⟩
    · obtain ⟨only, keeps, ch, pip⟩ := changed (Pip.error (s.pipNow n).tick 8)
      refine ⟨_, congrArg Host.Outcome.next (refused h), ch, only, keeps, ?_⟩
      rw [pip, if_neg h, tick]
      rfl
  · obtain ⟨only, keeps, ch, pip⟩ := changed (Pip.reqSwap s.tick false)
    refine ⟨_, rfl, ch, only, keeps, ?_⟩
    rw [pip]
    refine ⟨fun h => Pip.reqSwap_of_invalid s.tick h false, fun valid stands => ?_, fun valid runs => Pip.reqSwap_of_runs s.tick valid runs⟩
    rw [Pip.reqSwap_of_stands s.tick valid stands]
    obtain ⟨bank, pc, -⟩ := Pip.takeSwap_spec s.tick (s.pipNow n).ch[n].pip false
    exact ⟨bank, pc, rfl⟩
  · obtain ⟨only, keeps, ch, pip⟩ := changed (Pip.reqSwap s.tick true)
    refine ⟨_, rfl, ch, only, keeps, ?_⟩
    rw [pip]
    exact ⟨fun h => Pip.reqSwap_of_invalid s.tick h true, fun valid => Pip.reqSwap_of_forced s.tick valid⟩
  · refine ⟨(s.pipNow n).releaseTier s.tw n, rfl, (State.pipNow_keeps n s).step (State.releaseTier_keeps ..) (by decide), fun k hk => ?_,
      fun k hk => State.releaseTier_outPip hk s.tw⟩
    rw [State.releaseTier_ch_other s.tw _ hk, State.pipNow_onlyCh n s k fun e => hk (e ▸ rfl)]
  · obtain ⟨only, keeps, ch, pip⟩ := changed (Pip.reset s.tick)
    exact ⟨_, rfl, ch, only, keeps, pip⟩
  · exact ⟨_, rfl, State.modPip_onlyCh n _ s, State.modPip_keeps .., State.modPip_ch_same ..⟩
  · exact ⟨_, rfl, State.modPip_onlyCh n _ s, State.modPip_keeps .., State.modPip_ch_same ..⟩

end Sys2Proof.Machine
end

section
/-!
One instruction of a Pip (R93, R94, R96 to R98): what its pin writes, its pod line and the end of its cycle leave of the engine.
-/
namespace Sys2Proof.Machine

/-! ### What a pin write and a pod line leave of an engine -/

/-- Nothing differs of the engine but errors that have come, and latches that are on their way. -/
def PipKept (p q : Pip) : Prop := q = { p with err := q.err, r := { p.r with pendQ := q.r.pendQ } } ∧ ∀ i, p.err.get i = true → q.err.get i = true

theorem PipKept.refl (p : Pip) : PipKept p p := ⟨rfl, fun _ h => h⟩

theorem PipKept.trans {p q r : Pip} (h : PipKept p q) (k : PipKept q r) : PipKept p r := by
  obtain ⟨hq, herr⟩ := h
  obtain ⟨kr, kerr⟩ := k
  exact ⟨by rw [kr, hq], fun i hi => kerr i (herr i hi)⟩

theorem PipKept.error (t : Nat) (m : W) (p : Pip) : PipKept p (p.error t m) := ⟨rfl, fun i h => by simp [Pip.error, h]⟩

theorem PipKept.latch (b : Nat) (m : W) (p : Pip) : PipKept p (p.latch b m) := ⟨rfl, fun _ h => h⟩

theorem PipKept.modPip {n m : Ch} {f : Pip → Pip} {s : State} (h : ∀ p, PipKept p (f p)) : PipKept s.ch[n].pip (s.modPip m f).ch[n].pip := by
  by_cases hm : n = m
  · subst hm
    rw [State.modPip_ch_same]
    exact h _
  · rw [State.modPip_onlyCh m f s n hm]
    exact PipKept.refl _

theorem PipKept.change {n m : Ch} {x : Nat} {f : OutStage → OutStage} {s : State} : PipKept s.ch[n].pip (s.modCh m (Channel.change x f)).ch[n].pip := by
  by_cases hm : n = m
  · subst hm
    rw [State.modCh_ch_same, Channel.change_pip]
    exact PipKept.refl _
  · rw [State.modCh_onlyCh m _ s n hm]
    exact PipKept.refl _

/-- No channel of another bank differs. -/
def OnlyBank (n : Ch) (s t : State) : Prop := ∀ k : Ch, podOf k ≠ podOf n → t.ch[k] = s.ch[k]

theorem OnlyBank.refl (n : Ch) (s : State) : OnlyBank n s s := fun _ _ => rfl

theorem OnlyBank.trans {n : Ch} {s t u : State} (h : OnlyBank n s t) (k : OnlyBank n t u) : OnlyBank n s u := fun m hm => (k m hm).trans (h m hm)

theorem OnlyCh.onlyBank {n m : Ch} {s t : State} (h : OnlyCh m s t) (bank : podOf m = podOf n) : OnlyBank n s t :=
  fun k hk => h k fun e => hk (by rw [e, bank])

theorem podOf_chOf (p : Pod) (i : Nat) : podOf (chOf p i) = p := by
  refine Fin.ext ?_
  simp only [podOf, chOf]
  omega

theorem State.pipPins_spec (n : Ch) (tk : Nat) (ws : List (Nat × Bool)) (s : State) :
    PipKept s.ch[n].pip (s.pipPins n tk ws).ch[n].pip ∧ OnlyBank n s (s.pipPins n tk ws) := by
  unfold State.pipPins
  refine forAll_induction (P := fun t => PipKept s.ch[n].pip t.ch[n].pip ∧ OnlyBank n s t) (fun w _ r h => ?_) ⟨PipKept.refl _, OnlyBank.refl n s⟩
  obtain ⟨kept, only⟩ := h
  dsimp only
  split
  · exact ⟨kept.trans PipKept.change, only.trans ((State.modCh_onlyCh (chOf (podOf n) w.1) _ r).onlyBank (podOf_chOf ..))⟩
  · exact ⟨kept.trans (PipKept.modPip (PipKept.error tk 0x40)), only.trans ((State.modPip_onlyCh n _ r).onlyBank rfl)⟩

theorem State.raisePline_spec (n : Ch) (tk i : Nat) (s : State) :
    PipKept s.ch[n].pip (s.raisePline (podOf n) tk i).ch[n].pip ∧ OnlyBank n s (s.raisePline (podOf n) tk i) ∧
      (s.raisePline (podOf n) tk i).pod[podOf n].plines = s.pod[podOf n].plines ++ [i] := by
  unfold State.raisePline
  refine forAll_induction (P := fun t => PipKept s.ch[n].pip t.ch[n].pip ∧ OnlyBank n s t ∧ t.pod[podOf n].plines = s.pod[podOf n].plines ++ [i])
    (fun m hm r h => ?_) ⟨PipKept.refl _, OnlyBank.refl n s, ?_⟩
  · obtain ⟨kept, only, lines⟩ := h
    obtain ⟨j, -, rfl⟩ := List.mem_map.mp hm
    exact ⟨kept.trans (PipKept.modPip (PipKept.latch (tk + 2) (flag i true))), only.trans ((State.modPip_onlyCh _ _ r).onlyBank (podOf_chOf ..)), lines⟩
  · rw [State.modPod_pod_same]

/-! ### The end of a cycle -/

/-- The engine at the end of a cycle with no swap and no stop (R94). -/
def Pip.nextCycle (cx : PipCx) (p : Pip) : Pip := { (p.settlePend cx.tk) with prevCyc := some cx.tk, cyc := cx.k + 1, stalled := none }

/-- The swap that an instruction, or its word's end, brings (R113). -/
def Pip.endSwap (cx : PipCx) (forced : Bool) (p : Pip) : Pip :=
  if forced then p.takeSwap cx.tk true
  else match p.swap with
    | some b => if b ≤ cx.tk && p.r.bc == 0 then p.takeSwap cx.tk false else p
    | none => p

/-- The host's stop that a cycle's end brings (R91). -/
def Pip.endStop (cx : PipCx) (p : Pip) : Pip :=
  match p.stopAt with
  | some b => if b ≤ cx.tk && p.waitLeft == 0 then p.halted cx.tk 2 true else p
  | none => p

theorem Pip.endCycle_eq (cx : PipCx) (forced : Bool) (p : Pip) : p.endCycle cx forced = ((p.nextCycle cx).endSwap cx forced).endStop cx := rfl

theorem Pip.endStop_of_none {cx : PipCx} {p : Pip} (h : p.stopAt = none) : p.endStop cx = p := by
  unfold Pip.endStop
  rw [h]

theorem Pip.endSwap_of_none {cx : PipCx} {p : Pip} (h : p.swap = none) : p.endSwap cx false = p := by
  unfold Pip.endSwap
  rw [if_neg Bool.false_ne_true, h]

theorem Pip.endCycle_of_plain {cx : PipCx} {p : Pip} (swap : p.swap = none) (stop : p.stopAt = none) : p.endCycle cx false = p.nextCycle cx := by
  rw [Pip.endCycle_eq, Pip.endSwap_of_none (p := p.nextCycle cx) swap, Pip.endStop_of_none (p := p.nextCycle cx) stop]

/-- The engine of an instruction that completes, on its way to the end of its cycle. -/
def PipRes.advanced (cx : PipCx) (r : PipRes) : Pip :=
  { r.p with r := { r.p.r with pc := r.branch.getD (r.p.r.pc + 1) }, waits := r.p.waits.bump cx.tk (cx.k - cx.k0 - r.p.waited) 0xFFFFFFFF, waited := 0 }

/-- The pins and the pod line of an instruction that completes (R97, R98, R106). -/
def State.pipEffects (cx : PipCx) (i : PipInstr) (issue : Bool) (r : PipRes) (s : State) : State :=
  match r.plines with
  | some l => ((s.modPip cx.n (fun _ => r.advanced cx)).pipPins cx.n cx.tk (r.pins ++ (if issue then sideWrite (r.advanced cx) i else []))).raisePline (podOf cx.n) cx.tk l
  | none => (s.modPip cx.n (fun _ => r.advanced cx)).pipPins cx.n cx.tk (r.pins ++ (if issue then sideWrite (r.advanced cx) i else []))

section
variable {cx : PipCx} {i : PipInstr} (issue : Bool) {r : PipRes} {s : State}

theorem State.pipComplete_eq (op : ∀ a b, i.op ≠ .stop a b) :
    s.pipComplete cx i issue r = (s.pipEffects cx i issue r).modPip cx.n (Pip.endCycle cx r.forced) := by
  unfold State.pipComplete
  dsimp only
  split
  · next a b h => exact absurd h (op a b)
  · rfl

theorem State.pipComplete_stop {rel irq : Bool} (op : i.op = .stop rel irq) : s.pipComplete cx i issue r =
    ((s.pipEffects cx i issue r).modPip cx.n (fun p => { p with irq := p.irq.raiseIf irq cx.tk 2, prevCyc := some cx.tk, cyc := cx.k + 1 })).pipHalt cx.tk 1 false rel cx.n := by
  unfold State.pipComplete
  dsimp only
  rw [op]
  rfl

theorem State.pipEffects_spec : PipKept (r.advanced cx) (s.pipEffects cx i issue r).ch[cx.n].pip ∧ OnlyBank cx.n s (s.pipEffects cx i issue r) ∧
    (∀ l, r.plines = some l → (s.pipEffects cx i issue r).pod[podOf cx.n].plines = s.pod[podOf cx.n].plines ++ [l]) := by
  have start : (s.modPip cx.n (fun _ => r.advanced cx)).ch[cx.n].pip = r.advanced cx := by rw [State.modPip_ch_same]
  have only : OnlyBank cx.n s (s.modPip cx.n (fun _ => r.advanced cx)) := (State.modPip_onlyCh cx.n _ s).onlyBank rfl
  obtain ⟨pins, bank⟩ := State.pipPins_spec cx.n cx.tk (r.pins ++ (if issue then sideWrite (r.advanced cx) i else [])) (s.modPip cx.n (fun _ => r.advanced cx))
  rw [start] at pins
  unfold State.pipEffects
  split
  · next l h =>
    obtain ⟨kept, bank', lines⟩ := State.raisePline_spec cx.n cx.tk l
      ((s.modPip cx.n (fun _ => r.advanced cx)).pipPins cx.n cx.tk (r.pins ++ (if issue then sideWrite (r.advanced cx) i else [])))
    refine ⟨pins.trans kept, (only.trans bank).trans bank', fun k hk => ?_⟩
    rw [lines, (State.pipPins_keeps cx.n cx.tk _ _).2 .pod (by decide), Option.some.inj (h.symm.trans hk)]
    rfl
  · next h => exact ⟨pins, only.trans bank, fun k hk => absurd (h.symm.trans hk) nofun⟩

end

/-! ### An instruction at issue -/

/-- The cycle in which the engine of channel n issues. -/
def State.pipCx (n : Ch) (s : State) : PipCx :=
  { n := n, k := (s.pipNow n).ch[n].pip.cyc, k0 := (s.pipNow n).ch[n].pip.cyc, tk := (s.pipNow n).ch[n].pip.cycleTick (s.pipNow n).ch[n].pip.cyc
    tp := (s.pipNow n).ch[n].pip.prevCyc }

/-- An instruction stalls: its side-set is written, and the engine waits in its cycle (R94, R102). -/
def State.pipStall (n : Ch) (s : State) : State :=
  ((s.pipNow n).pipPins n (s.pipCx n).tk (sideWrite (s.pipNow n).ch[n].pip (s.pipNow n).ch[n].pip.instr)).modPip n
    (fun p => { (p.settlePend (s.pipCx n).tk) with stalled := some p.cyc, waited := 0, cyc := p.cyc + 1, prevCyc := some (s.pipCx n).tk })

theorem State.pipRun_onlyBank (want : PipOp → Bool) (n : Ch) (s : State) : OnlyBank n s (s.pipRun want n) := by
  have now : OnlyBank n s (s.pipNow n) := (State.pipNow_onlyCh n s).onlyBank rfl
  have own (f : Pip → Pip) (r : State) : OnlyBank n r (r.modPip n f) := (State.modPip_onlyCh n f r).onlyBank rfl
  have halted (tk : Nat) (rel : Bool) (r : State) : OnlyBank n r (r.pipHalt tk 1 false rel n) := fun k hk => State.pipHalt_ch_other tk 1 false rel r hk
  have completes (cx : PipCx) (hn : cx.n = n) (i : PipInstr) (r : PipRes) : OnlyBank n (s.pipNow n) ((s.pipNow n).pipComplete cx i true r) := by
    subst hn
    have effects := (State.pipEffects_spec (cx := cx) (i := i) true (r := r) (s := s.pipNow cx.n)).2.1
    by_cases op : ∃ a b, i.op = .stop a b
    · obtain ⟨rel, irq, op⟩ := op
      rw [State.pipComplete_stop true op]
      exact (effects.trans (own _ _)).trans (halted _ _ _)
    · rw [State.pipComplete_eq true fun a b h => op ⟨a, b, h⟩]
      exact effects.trans (own _ _)
  unfold State.pipRun
  dsimp only
  split
  · exact now
  · split
    · exact now.trans (completes _ rfl _ _)
    · exact (now.trans (State.pipPins_spec n _ _ _).2).trans (own _ _)

section
variable {n : Ch} {op : PipOp} {s : State} {want : PipOp → Bool} (issues : PipIssues n op s) (named : want op = true)
include issues named

theorem State.pipRun_of_issue : s.pipRun want n =
    match pipEffect (s.pipCx n) op (s.pipNow n) (s.pipNow n).ch[n].pip with
    | some r => (s.pipNow n).pipComplete (s.pipCx n) (s.pipNow n).ch[n].pip.instr true r
    | none => s.pipStall n := by
  obtain ⟨run, stalled, left, hop, reserved, begun, -, -⟩ := issues
  have goes : ¬ (!(s.pipNow n).ch[n].pip.run || (s.pipNow n).ch[n].pip.stalled.isSome || (s.pipNow n).ch[n].pip.waitLeft != 0 || !want (s.pipNow n).ch[n].pip.instr.op ||
      (s.pipNow n).ch[n].pip.instr.op.reserved || decide ((s.pipNow n).tick < (s.pipNow n).ch[n].pip.cycleTick (s.pipNow n).ch[n].pip.cyc)) = true := by
    rw [run, stalled, left, hop, named, reserved, State.pipNow_tick, decide_eq_false (Nat.not_lt.mpr begun)]
    decide
  unfold State.pipRun
  dsimp only
  rw [if_neg goes, hop]
  rfl

theorem State.pipRun_stalls (effect : pipEffect (s.pipCx n) op (s.pipNow n) (s.pipNow n).ch[n].pip = none) : PipStalls n s (s.pipRun want n) := by
  rw [State.pipRun_of_issue issues named, effect]
  obtain ⟨run, -⟩ := issues
  obtain ⟨⟨kept, -⟩, -⟩ := State.pipPins_spec n (s.pipCx n).tk (sideWrite (s.pipNow n).ch[n].pip (s.pipNow n).ch[n].pip.instr) (s.pipNow n)
  unfold PipStalls State.pipStall
  dsimp only
  rw [State.modPip_ch_same]
  dsimp only
  rw [kept]
  exact ⟨rfl, rfl, rfl, run, rfl, rfl, rfl⟩

/-- What an instruction that completes makes of the engine, where no swap and no stop waits for it (R94). -/
theorem State.pipRun_completed {r : PipRes} (effect : pipEffect (s.pipCx n) op (s.pipNow n) (s.pipNow n).ch[n].pip = some r) (stop : ∀ a b, op ≠ .stop a b)
    (forced : r.forced = false) (swap : r.p.swap = none) (stopAt : r.p.stopAt = none) :
    (s.pipRun want n).ch[n].pip = { r.p with
      r := { r.p.r with pc := r.branch.getD (r.p.r.pc + 1), pend := (s.pipRun want n).ch[n].pip.r.pend, pendQ := (s.pipRun want n).ch[n].pip.r.pendQ }
      waits := (s.pipRun want n).ch[n].pip.waits, waited := 0, err := (s.pipRun want n).ch[n].pip.err
      prevCyc := some (s.pipCx n).tk, cyc := (s.pipNow n).ch[n].pip.cyc + 1, stalled := none } ∧
    (∀ i, r.p.err.get i = true → (s.pipRun want n).ch[n].pip.err.get i = true) ∧
    (∀ l, r.plines = some l → (s.pipRun want n).pod[podOf n].plines = (s.pipNow n).pod[podOf n].plines ++ [l]) := by
  have hop := issues.2.2.2.1
  generalize he : (s.pipNow n).pipEffects (s.pipCx n) (s.pipNow n).ch[n].pip.instr true r = e
  have complete : s.pipRun want n = e.modPip n (Pip.endCycle (s.pipCx n) false) := by
    rw [State.pipRun_of_issue issues named, effect, ← he, ← forced]
    exact State.pipComplete_eq true (by rw [hop]; exact stop)
  have spec : PipKept (r.advanced (s.pipCx n)) e.ch[n].pip ∧ OnlyBank n (s.pipNow n) e ∧
      (∀ l, r.plines = some l → e.pod[podOf n].plines = (s.pipNow n).pod[podOf n].plines ++ [l]) := by
    rw [← he]
    exact State.pipEffects_spec (cx := s.pipCx n) true
  obtain ⟨⟨kept, err⟩, -, lines⟩ := spec
  rw [complete]
  refine ⟨?_, fun i hi => ?_, lines⟩
  all_goals
    rw [State.modPip_ch_same, Pip.endCycle_of_plain (by rw [kept]; exact swap) (by rw [kept]; exact stopAt)]
  · rw [kept]
    rfl
  · exact err i hi

/-- Nothing differs of the engine but what its program works on, a wait, its interrupts and its errors. -/
def PipProgram (p q : Pip) : Prop := q = { p with r := q.r, waitLeft := q.waitLeft, irq := q.irq, code := q.code, err := q.err }

/-- An instruction that completes, whose result changes what the program works on (R94). -/
theorem State.pipRun_completes {r : PipRes} (effect : pipEffect (s.pipCx n) op (s.pipNow n) (s.pipNow n).ch[n].pip = some r) (stop : ∀ a b, op ≠ .stop a b)
    (forced : r.forced = false) (program : PipProgram (s.pipNow n).ch[n].pip r.p) :
    PipCompletes n s (s.pipRun want n) { r.p.r with pc := r.branch.getD (r.p.r.pc + 1) } ∧ (s.pipRun want n).ch[n].pip.r.flags = r.p.r.flags ∧
      (s.pipRun want n).ch[n].pip.waitLeft = r.p.waitLeft ∧ (s.pipRun want n).ch[n].pip.irq = r.p.irq ∧ (s.pipRun want n).ch[n].pip.code = r.p.code ∧
      (∀ i, r.p.err.get i = true → (s.pipRun want n).ch[n].pip.err.get i = true) ∧
      (∀ l, r.plines = some l → (s.pipRun want n).pod[podOf n].plines = (s.pipNow n).pod[podOf n].plines ++ [l]) := by
  obtain ⟨run, -, -, -, -, -, swap, stopAt⟩ := id issues
  obtain ⟨pip, err, lines⟩ := State.pipRun_completed issues named effect stop forced (by rw [program]; exact swap) (by rw [program]; exact stopAt)
  unfold PipCompletes
  refine ⟨⟨by rw [pip], by rw [pip], ?_, by rw [pip], ?_, ?_, ?_⟩, by rw [pip], by rw [pip], by rw [pip], by rw [pip], err, lines⟩
  all_goals rw [pip, program]
  exact run

end

/-- What an instruction completes with matters but for the latches. -/
theorem PipCompletes.of_eq {n : Ch} {s t : State} {r r' : PipRegs} (h : PipCompletes n s t r) (e : { r' with pend := r.pend, pendQ := r.pendQ } = r) :
    PipCompletes n s t r' := by
  obtain ⟨regs, rest⟩ := h
  refine ⟨regs.trans ?_, rest⟩
  rw [← e]

/-! ### Flags and waits -/

section
variable (cx : PipCx) (p : Pip)

/-- A Pip's write of a flag leaves the others, and all else (R107). -/
theorem Pip.setFlag_same (i : Nat) (v : Bool) : p.setFlag cx i v = { p with r := { p.r with flags := (p.setFlag cx i v).r.flags } } := rfl

@[simp] theorem Pip.setFlag_fresh (i : Nat) (v : Bool) : (p.setFlag cx i v).r.flags.fresh = p.r.flags.fresh := rfl

theorem getLsbD_setBit (w : W) (i j : Nat) (b : Bool) (hi : i < 32) : (setBit w i b).getLsbD j = if j = i then b else w.getLsbD j := by
  have isSet : (flag i true).getLsbD j = decide (j = i) := by
    rw [flag, if_pos rfl, BitVec.getLsbD_ofNat, Nat.testBit_two_pow]
    by_cases h : i = j
    · subst h; simp [hi]
    · simp [h, Ne.symm h]
  cases b
  · rw [setBit, if_neg Bool.false_ne_true, BitVec.getLsbD_and, BitVec.getLsbD_not, isSet]
    by_cases h : j = i
    · simp [h]
    · rw [decide_eq_false h, if_neg h, Bool.not_false, Bool.and_true]
      by_cases hj : j < 32
      · rw [decide_eq_true hj, Bool.and_true]
      · rw [BitVec.getLsbD_of_ge w j (by omega), Bool.false_and]
  · rw [setBit, if_pos rfl, BitVec.getLsbD_or, isSet]
    by_cases h : j = i <;> simp [h]

theorem Pip.setFlag_get {p : Pip} (fresh : p.r.flags.fresh = 0) {i : Nat} (hi : i < 32) (j : Nat) (v : Bool) :
    (p.setFlag cx i v).r.flags.get j = if j = i then v else p.r.flags.get j := by
  have held : (p.r.flags.fresh.getLsbD i && decide (p.r.flags.stamp ≤ cx.tk) && decide (cx.tp.getD 0 < p.r.flags.stamp)) = false := by rw [fresh]; simp
  have bits : (p.setFlag cx i v).r.flags.bits = setBit p.r.flags.bits i v := by
    unfold Pip.setFlag
    dsimp only [Pip.modR]
    rw [held]
    cases v <;> rfl
  rw [Sticky.get, bit, bits, getLsbD_setBit _ _ _ _ hi]
  rfl

theorem Pip.arrive_same (to_ : Bool) : p.arrive cx to_ = { p with r := { p.r with flags := (p.arrive cx to_).r.flags } } := by
  unfold Pip.arrive
  split <;> rfl

theorem Pip.arrive_of_no_timeout {to_ : Bool} (h : p.timeout to_ = 0) : p.arrive cx to_ = p := if_neg (by omega)

theorem Pip.arrive_of_timeout {to_ : Bool} (h : 0 < p.timeout to_) : p.arrive cx to_ = p.setFlag cx 3 false := if_pos h

@[simp] theorem Pip.arrive_fresh (to_ : Bool) : (p.arrive cx to_).r.flags.fresh = p.r.flags.fresh := by
  unfold Pip.arrive
  split <;> rfl

theorem waiting_of_hold {hold : Bool} (h : hold = true) (to_ : Bool) (f : Pip → Pip) : waiting cx p hold to_ f = some { p := f (p.arrive cx to_) } := by
  unfold waiting Pip.wait
  rw [h]
  rfl

/-- A wait that is not met does not expire in the cycle it was issued in (R105). -/
theorem waiting_of_not_hold {hold : Bool} (h : hold = false) (issue : cx.k = cx.k0) (to_ : Bool) (f : Pip → Pip) : waiting cx p hold to_ f = none := by
  unfold waiting Pip.wait
  rw [h, if_neg Bool.false_ne_true, if_neg (by omega)]

end

end Sys2Proof.Machine
end

section
/-!
Waits and stalls of a Pip (R94, R99, R100, R105, R106).
-/
namespace Sys2Proof.Machine

/-! ### Waits at issue -/

/-- What a wait at issue does: it completes where its condition holds, and stalls where it does not. -/
def WaitIssued (n : Ch) (s t : State) (hold to_ : Bool) : Prop :=
  (hold = true → PipCompletes n s t { (s.pipNow n).ch[n].pip.r with pc := (s.pipNow n).ch[n].pip.r.pc + 1, flags := t.ch[n].pip.r.flags } ∧
    ((s.pipNow n).ch[n].pip.timeout to_ = 0 → t.ch[n].pip.r.flags = (s.pipNow n).ch[n].pip.r.flags) ∧
    (0 < (s.pipNow n).ch[n].pip.timeout to_ → (s.pipNow n).ch[n].pip.r.flags.fresh = 0 → t.ch[n].pip.r.flags.get 3 = false)) ∧
  (hold = false → PipStalls n s t)

section
variable {n : Ch} {op : PipOp} {s : State} {want : PipOp → Bool} (issues : PipIssues n op s) (named : want op = true)
include issues named

/-- A wait that does no more than its timeout's flag, or what it does is of the latches alone. -/
theorem State.pipRun_waits {hold to_ : Bool} {f : Pip → Pip} (stop : ∀ a b, op ≠ .stop a b)
    (effect : pipEffect (s.pipCx n) op (s.pipNow n) (s.pipNow n).ch[n].pip = waiting (s.pipCx n) (s.pipNow n).ch[n].pip hold to_ f)
    (latches : ∀ p, f p = { p with r := { p.r with pend := (f p).r.pend, pendQ := (f p).r.pendQ } }) : WaitIssued n s (s.pipRun want n) hold to_ := by
  refine ⟨fun h => ?_, fun h => State.pipRun_stalls issues named (effect.trans (waiting_of_not_hold _ _ h rfl _ _))⟩
  have same := latches ((s.pipNow n).ch[n].pip.arrive (s.pipCx n) to_)
  have program : PipProgram (s.pipNow n).ch[n].pip (f ((s.pipNow n).ch[n].pip.arrive (s.pipCx n) to_)) := by
    rw [same, Pip.arrive_same]
    rfl
  obtain ⟨completes, flags, -⟩ := State.pipRun_completes issues named (effect.trans (waiting_of_hold _ _ h _ _)) stop rfl program
  rw [same] at flags
  refine ⟨completes.of_eq ?_, fun none => ?_, fun timeout fresh => ?_⟩
  · rw [flags, same, Pip.arrive_same]
    rfl
  · rw [flags, Pip.arrive_of_no_timeout _ _ none]
  · rw [flags, Pip.arrive_of_timeout _ _ timeout, Pip.setFlag_get _ fresh (by decide), if_pos rfl]

end

/-- Latches seen by no one yet are the latches there are. -/
theorem Pip.pends_of_none {p : Pip} (cx : PipCx) (h : p.r.pendQ = []) (b : Nat) : (bit (p.oldPend cx) b || bit (p.newPend cx) b) = bit p.r.pend b := by
  have none : bit (p.newPend cx) b = false := by
    unfold Pip.newPend
    rw [h]
    cases cx.tp <;> simp [latchedBy, bit]
  have old : p.oldPend cx = p.r.pend := by
    unfold Pip.oldPend
    rw [h]
    cases cx.tp <;> simp [latchedBy]
  rw [none, old, Bool.or_false]

/-- The engine after a WAITIRQ has taken latch b, which it keeps where one came in this cycle beside an older one (R107). -/
def Pip.takePend (cx : PipCx) (b : Nat) (keep : Bool) (p : Pip) : Pip :=
  if keep then p.settlePend cx.tk else (p.settlePend cx.tk).modR (fun r => { r with pend := setBit r.pend b false })

/-- What every instruction of a Pip leaves. -/
theorem State.pipRun_frame (want : PipOp → Bool) (n : Ch) (s : State) :
    Keeps [.ch, .pod] s (s.pipRun want n) ∧ ∀ k : Ch, podOf k ≠ podOf n → (s.pipRun want n).ch[k] = s.ch[k] :=
  ⟨State.pipRun_keeps want n s, State.pipRun_onlyBank want n s⟩

section
variable {n : Ch} {s : State}

theorem pipWaitcyc_spec {lc : Bool} {k : Fin 512} (issues : PipIssues n (.waitcyc lc k) s) :
    ∃ t : State, exec (.pipWaitcyc n) s = .next t ∧ Keeps [.ch, .pod] s t ∧ (∀ k : Ch, podOf k ≠ podOf n → t.ch[k] = s.ch[k]) ∧
      PipCompletes n s t { (s.pipNow n).ch[n].pip.r with pc := (s.pipNow n).ch[n].pip.r.pc + 1 } ∧
      t.ch[n].pip.waitLeft = if lc then (s.pipNow n).ch[n].pip.r.lc.toNat else k.val := by
  obtain ⟨keeps, other⟩ := State.pipRun_frame (fun | .waitcyc .. => true | _ => false) n s
  obtain ⟨completes, -, left, -⟩ := State.pipRun_completes (want := fun | .waitcyc .. => true | _ => false) issues rfl rfl nofun rfl rfl
  exact ⟨_, rfl, keeps, other, completes, left⟩

theorem pipWaitpin_spec {cond : Fin 4} {pin : Fin 32} {to_ : Bool} (issues : PipIssues n (.waitpin cond pin to_) s) :
    WaitIssued n s (s.pipRun (fun | .waitpin .. => true | _ => false) n)
      (cond = 0 && !pipSample (podOf n) pin.val (s.pipCx n).tk (s.pipNow n) || cond = 1 && pipSample (podOf n) pin.val (s.pipCx n).tk (s.pipNow n)) to_ := by
  refine State.pipRun_waits (f := id) issues rfl nofun ?_ (fun _ => rfl)
  change opWaitpin _ _ _ _ _ _ = _
  unfold opWaitpin
  dsimp only
  refine congrArg (fun h => waiting _ _ h to_ id) ?_
  have issue : decide ((s.pipCx n).k0 < (s.pipCx n).k) = false := decide_eq_false (Nat.lt_irrefl _)
  rw [issue]
  have cases_ : cond = 0 ∨ cond = 1 ∨ cond = 2 ∨ cond = 3 := by omega
  obtain rfl | rfl | rfl | rfl := cases_ <;> simp [State.pipCx]

theorem pipWaitflag_spec {f : Fin 4} {v to_ : Bool} (issues : PipIssues n (.waitflag f v false to_) s) :
    WaitIssued n s (s.pipRun (fun | .waitflag .. => true | _ => false) n) (bit (s.pipNow n).ch[n].pip.r.flags.bits f.val == v) to_ :=
  State.pipRun_waits issues rfl nofun rfl fun _ => rfl

theorem pipWaitirq_spec {cls : Fin 4} {i : Fin 8} {to_ : Bool} (issues : PipIssues n (.waitirq cls i to_) s) (none : (s.pipNow n).ch[n].pip.r.pendQ = []) :
    WaitIssued n s (s.pipRun (fun | .waitirq .. => true | _ => false) n) (bit (s.pipNow n).ch[n].pip.r.pend (pendBit cls i)) to_ := by
  rw [← Pip.pends_of_none (s.pipCx n) none]
  refine State.pipRun_waits (f := Pip.takePend (s.pipCx n) (pendBit cls i)
    (bit ((s.pipNow n).ch[n].pip.oldPend (s.pipCx n)) (pendBit cls i) && bit ((s.pipNow n).ch[n].pip.newPend (s.pipCx n)) (pendBit cls i)))
    issues rfl nofun rfl fun q => ?_
  unfold Pip.takePend
  split <;> rfl

/-- A wait for a flag that acknowledges it on arrival (R107). -/
theorem pipWaitflag_ack {f : Fin 4} {v to_ : Bool} (issues : PipIssues n (.waitflag f v true to_) s) (fresh : (s.pipNow n).ch[n].pip.r.flags.fresh = 0) :
    ∃ t : State, exec (.pipWaitflag n) s = .next t ∧ Keeps [.ch, .pod] s t ∧ (∀ k : Ch, podOf k ≠ podOf n → t.ch[k] = s.ch[k]) ∧
      ((s.pipNow n).ch[n].pip.r.flags.get f.val = v →
        PipCompletes n s t { (s.pipNow n).ch[n].pip.r with pc := (s.pipNow n).ch[n].pip.r.pc + 1, flags := t.ch[n].pip.r.flags } ∧
        t.ch[n].pip.r.flags.get f.val = (if f = 3 ∧ 0 < (s.pipNow n).ch[n].pip.timeout to_ then false else !v)) ∧
      ((s.pipNow n).ch[n].pip.r.flags.get f.val ≠ v → PipStalls n s t) := by
  obtain ⟨keeps, other⟩ := State.pipRun_frame (fun | .waitflag .. => true | _ => false) n s
  refine ⟨_, rfl, keeps, other, fun h => ?_, fun h => ?_⟩
  · have hold : (bit (s.pipNow n).ch[n].pip.r.flags.bits f.val == v) = true := by rw [beq_iff_eq]; exact h
    have hf : f.val < 32 := by omega
    have done (q : Pip) (effect : pipEffect (s.pipCx n) (.waitflag f v true to_) (s.pipNow n) (s.pipNow n).ch[n].pip = some { p := q })
        (same : q = { (s.pipNow n).ch[n].pip with r := { (s.pipNow n).ch[n].pip.r with flags := q.r.flags } }) (b : Bool) (get : q.r.flags.get f.val = b) :
        PipCompletes n s (s.pipRun (fun | .waitflag .. => true | _ => false) n)
          { (s.pipNow n).ch[n].pip.r with pc := (s.pipNow n).ch[n].pip.r.pc + 1
                                          flags := (s.pipRun (fun | .waitflag .. => true | _ => false) n).ch[n].pip.r.flags } ∧
        (s.pipRun (fun | .waitflag .. => true | _ => false) n).ch[n].pip.r.flags.get f.val = b := by
      obtain ⟨completes, flags, -⟩ := State.pipRun_completes (want := fun | .waitflag .. => true | _ => false) issues rfl effect nofun rfl
        (by rw [same]; rfl)
      refine ⟨completes.of_eq ?_, by rw [flags, get]⟩
      rw [flags, same]
      rfl
    have effect : pipEffect (s.pipCx n) (.waitflag f v true to_) (s.pipNow n) (s.pipNow n).ch[n].pip = _ := waiting_of_hold (s.pipCx n) (s.pipNow n).ch[n].pip hold to_ _
    by_cases timed : f = 3 ∧ 0 < (s.pipNow n).ch[n].pip.timeout to_
    · obtain ⟨rfl, timeout⟩ := timed
      rw [if_pos ⟨rfl, timeout⟩]
      rw [if_neg (by rw [decide_eq_true timeout]; decide)] at effect
      refine done _ effect (Pip.arrive_same ..) _ ?_
      rw [Pip.arrive_of_timeout _ _ timeout]
      exact (Pip.setFlag_get _ fresh hf 3 false).trans (if_pos rfl)
    · rw [if_neg timed]
      rw [if_pos (by simpa [imp_iff_not_or] using timed)] at effect
      refine done _ effect (by rw [Pip.setFlag_same, Pip.arrive_same]) _ ?_
      rw [Pip.setFlag_get _ (by rw [Pip.arrive_fresh, fresh]) hf, if_pos rfl]
  · have hold : (bit (s.pipNow n).ch[n].pip.r.flags.bits f.val == v) = false := beq_false_of_ne h
    exact State.pipRun_stalls issues rfl (waiting_of_not_hold _ _ hold rfl _ _)

end

/-! ### Stalls that end -/

/-- The cycle k in which an instruction that stalled in cycle k0 is tried. -/
def Pip.retryCx (n : Ch) (k k0 : Nat) (p : Pip) : PipCx := { n := n, k := k, k0 := k0, tk := p.cycleTick k, tp := some (p.cycleTick (k - 1)) }

theorem State.pipRetry_eq {n : Ch} {s : State} {k0 : Nat} (k : Nat) (h : s.ch[n].pip.stalled = some k0) :
    s.pipRetry k n = (pipEffect (s.ch[n].pip.retryCx n k k0) s.ch[n].pip.instr.op s s.ch[n].pip).map (fun r => s.pipComplete (s.ch[n].pip.retryCx n k k0) s.ch[n].pip.instr false r) := by
  unfold State.pipRetry
  dsimp only
  rw [h]
  rfl

theorem Pip.expire_spec (cx : PipCx) (p : Pip) :
    (p.expire cx).r.pc = p.r.pc ∧ (p.expire cx).r.flags.get 3 = true ∧ (p.expire cx).err.get 9 = true ∧ (p.expire cx).r.sr = p.r.sr := by
  refine ⟨rfl, ?_, ?_, rfl⟩
  · simp [Pip.expire, Pip.error, Pip.setFlag, Pip.modR, Sticky.get, bit, flag]
  · simp [Pip.expire, Pip.error, flag]

section
variable {n : Ch} {s : State}

theorem State.pipWaitComplete_of_running (h : (s.pipNow n).ch[n].pip.stalled = none) : s.pipWaitComplete n = s.pipNow n := by
  unfold State.pipWaitComplete
  dsimp only
  rw [h]

theorem State.pipWaitTimeout_of_running (h : (s.pipNow n).ch[n].pip.stalled = none) : s.pipWaitTimeout n = s.pipNow n := by
  unfold State.pipWaitTimeout
  dsimp only
  rw [h]

/-- A stalled instruction that completes without a pin write, a pod line or a swap changes its own engine alone. -/
theorem State.pipComplete_plain {cx : PipCx} {i : PipInstr} {q : Pip} {r : State} (op : ∀ a b, i.op ≠ .stop a b) (swap : q.swap = none) (stop : q.stopAt = none) :
    r.pipComplete cx i false { p := q } = r.modPip cx.n (fun _ => (PipRes.advanced cx { p := q }).nextCycle cx) := by
  have moved : r.pipEffects cx i false { p := q } = r.modPip cx.n (fun _ => PipRes.advanced cx { p := q }) := rfl
  have twice (f g : Pip → Pip) : (r.modPip cx.n f).modPip cx.n g = r.modPip cx.n (fun p => g (f p)) := by
    unfold State.modPip State.modCh
    simp
  rw [State.pipComplete_eq false op, moved, twice]
  exact State.modPip_congr (Pip.endCycle_of_plain swap stop)

end

/-- The engine after an instruction without a branch completed in a cycle, where no swap and no stop waits. -/
def Pip.afterCycle (cx : PipCx) (p : Pip) : Pip := (PipRes.advanced cx { p := p }).nextCycle cx

theorem Pip.afterCycle_spec (cx : PipCx) (p : Pip) : (p.afterCycle cx).r = { p.r with
      pc := p.r.pc + 1, pend := (p.afterCycle cx).r.pend, pendQ := (p.afterCycle cx).r.pendQ } ∧
    (p.afterCycle cx).stalled = none ∧ (p.afterCycle cx).cyc = cx.k + 1 ∧ (p.afterCycle cx).err = p.err := ⟨rfl, rfl, rfl, rfl⟩

/-- The engine after a PULL that completed (R104). -/
def Pip.pulled (p : Pip) : Pip := p.modR (fun x => { x with sr := x.txf.headD 0, txf := x.txf.tail, bc := 0, loaded := true })

section
variable {n : Ch} {r : State} {k k0 : Nat} (stalled : r.ch[n].pip.stalled = some k0) (swap : r.ch[n].pip.swap = none) (stop : r.ch[n].pip.stopAt = none)
include stalled swap stop

/-- A retry that changes its own engine alone. -/
theorem State.pipRetry_plain {q : Pip} (op : ∀ a b, r.ch[n].pip.instr.op ≠ .stop a b)
    (effect : pipEffect (r.ch[n].pip.retryCx n k k0) r.ch[n].pip.instr.op r r.ch[n].pip = some { p := q })
    (kept : q.swap = r.ch[n].pip.swap ∧ q.stopAt = r.ch[n].pip.stopAt) :
    r.pipRetry k n = some (r.modPip n (fun _ => q.afterCycle (r.ch[n].pip.retryCx n k k0))) := by
  rw [State.pipRetry_eq k stalled, effect, Option.map_some, State.pipComplete_plain op (kept.1.trans swap) (kept.2.trans stop)]
  rfl

theorem State.pipRetry_pull_word (op : r.ch[n].pip.instr.op = .pull false) (word : r.ch[n].pip.r.txf ≠ []) :
    r.pipRetry k n = some (r.modPip n (fun _ => r.ch[n].pip.pulled.afterCycle (r.ch[n].pip.retryCx n k k0))) := by
  have has : (!r.ch[n].pip.r.txf.isEmpty) = true := by simpa using word
  refine State.pipRetry_plain stalled swap stop (by rw [op]; exact nofun) ?_ ⟨rfl, rfl⟩
  rw [op]
  change opPull _ _ _ = _
  unfold opPull
  rw [waiting_of_hold _ _ has, Pip.arrive_of_no_timeout _ _ rfl]
  rfl

theorem State.pipRetry_pull_expired (op : r.ch[n].pip.instr.op = .pull true) (empty : r.ch[n].pip.r.txf = []) (timeout : 0 < fld r.ch[n].pip.tmo 0 16) :
    r.pipRetry (k0 + fld r.ch[n].pip.tmo 0 16) n = some (r.modPip n (fun _ =>
      (r.ch[n].pip.expire (r.ch[n].pip.retryCx n (k0 + fld r.ch[n].pip.tmo 0 16) k0)).afterCycle (r.ch[n].pip.retryCx n (k0 + fld r.ch[n].pip.tmo 0 16) k0))) := by
  have expired : r.ch[n].pip.wait (r.ch[n].pip.retryCx n (k0 + fld r.ch[n].pip.tmo 0 16) k0) false true = .expired := by
    unfold Pip.wait Pip.timeout
    rw [if_neg Bool.false_ne_true, if_pos rfl]
    exact if_pos ⟨timeout, le_refl _⟩
  refine State.pipRetry_plain stalled swap stop (by rw [op]; exact nofun) ?_ ⟨rfl, rfl⟩
  rw [op]
  change opPull _ _ _ = _
  unfold opPull waiting
  rw [empty, List.isEmpty_nil, Bool.not_true, expired]

end

section
variable {n : Ch} {s : State}

/-- A stalled PULL completes in the cycle in which TXF has a word (R105). -/
theorem pipWaitComplete_pull {k0 : Nat} {w : W} {r : List W} (swap : (s.pipNow n).ch[n].pip.swap = none) (stop : (s.pipNow n).ch[n].pip.stopAt = none)
    (stalled : (s.pipNow n).ch[n].pip.stalled = some k0) (later : k0 < (s.pipNow n).ch[n].pip.lastCycle s.tick) (op : (s.pipNow n).ch[n].pip.instr.op = .pull false)
    (word : (s.pipNow n).ch[n].pip.r.txf = w :: r) :
    ∃ t : State, exec (.pipWaitComplete n) s = .next t ∧ OnlyCh n s t ∧ Keeps [.ch, .pod] s t ∧
      t.ch[n].pip.r = { (s.pipNow n).ch[n].pip.r with
        pc := (s.pipNow n).ch[n].pip.r.pc + 1, sr := w, txf := r, bc := 0, loaded := true, pend := t.ch[n].pip.r.pend, pendQ := t.ch[n].pip.r.pendQ } ∧
      t.ch[n].pip.stalled = none ∧ t.ch[n].pip.cyc = (s.pipNow n).ch[n].pip.lastCycle s.tick + 1 := by
  have none : (s.pipNow n).ch[n].pip.timeout (s.pipNow n).ch[n].pip.instr.op.hasTimeout = 0 := by rw [op]; rfl
  have goes : ¬ (decide ((s.pipNow n).ch[n].pip.lastCycle s.tick ≤ k0) || (decide (0 < 0) && decide (k0 + 0 < (s.pipNow n).ch[n].pip.lastCycle s.tick))) = true := by
    rw [decide_eq_false (by omega)]
    simp
  have run : exec (.pipWaitComplete n) s = .next ((s.pipNow n).modPip n (fun _ =>
      (s.pipNow n).ch[n].pip.pulled.afterCycle ((s.pipNow n).ch[n].pip.retryCx n ((s.pipNow n).ch[n].pip.lastCycle s.tick) k0))) := by
    change Host.Outcome.next (s.pipWaitComplete n) = _
    unfold State.pipWaitComplete
    dsimp only
    rw [stalled]
    dsimp only
    rw [none, State.pipNow_tick, if_neg goes, State.pipRetry_pull_word stalled swap stop op (by rw [word]; exact List.cons_ne_nil w r)]
    rfl
  obtain ⟨only, keeps, ch⟩ := State.pipNow_modPip_spec n
    (fun _ => (s.pipNow n).ch[n].pip.pulled.afterCycle ((s.pipNow n).ch[n].pip.retryCx n ((s.pipNow n).ch[n].pip.lastCycle s.tick) k0)) s
  refine ⟨_, run, only, keeps, ?_⟩
  rw [ch]
  obtain ⟨regs, stalled', cyc, -⟩ := Pip.afterCycle_spec ((s.pipNow n).ch[n].pip.retryCx n ((s.pipNow n).ch[n].pip.lastCycle s.tick) k0) (s.pipNow n).ch[n].pip.pulled
  refine ⟨regs.trans ?_, stalled', cyc⟩
  rw [Pip.pulled, Pip.modR, word]
  rfl

/-- A PULL whose timeout is over expires (R30, R105). -/
theorem pipWaitTimeout_pull {k0 : Nat} (swap : (s.pipNow n).ch[n].pip.swap = none) (stop : (s.pipNow n).ch[n].pip.stopAt = none)
    (stalled : (s.pipNow n).ch[n].pip.stalled = some k0) (op : (s.pipNow n).ch[n].pip.instr.op = .pull true) (empty : (s.pipNow n).ch[n].pip.r.txf = [])
    (timeout : 0 < fld (s.pipNow n).ch[n].pip.tmo 0 16) (past : (s.pipNow n).ch[n].pip.cycleTick (k0 + fld (s.pipNow n).ch[n].pip.tmo 0 16) ≤ s.tick) :
    ∃ t : State, exec (.pipWaitTimeout n) s = .next t ∧ OnlyCh n s t ∧ Keeps [.ch, .pod] s t ∧
      t.ch[n].pip.r.pc = (s.pipNow n).ch[n].pip.r.pc + 1 ∧ t.ch[n].pip.r.flags.get 3 = true ∧ t.ch[n].pip.err.get 9 = true ∧ t.ch[n].pip.stalled = none ∧
      t.ch[n].pip.r.sr = (s.pipNow n).ch[n].pip.r.sr := by
  have time : (s.pipNow n).ch[n].pip.timeout (s.pipNow n).ch[n].pip.instr.op.hasTimeout = fld (s.pipNow n).ch[n].pip.tmo 0 16 := by rw [op]; rfl
  have goes : ¬ (fld (s.pipNow n).ch[n].pip.tmo 0 16 == 0 || decide (s.tick < (s.pipNow n).ch[n].pip.cycleTick (k0 + fld (s.pipNow n).ch[n].pip.tmo 0 16))) = true := by
    rw [decide_eq_false (by omega), beq_false_of_ne (by omega)]
    decide
  have run := State.pipRetry_pull_expired stalled swap stop op empty timeout
  generalize hcx : (s.pipNow n).ch[n].pip.retryCx n (k0 + fld (s.pipNow n).ch[n].pip.tmo 0 16) k0 = cx at run
  have run : exec (.pipWaitTimeout n) s = .next ((s.pipNow n).modPip n (fun _ => ((s.pipNow n).ch[n].pip.expire cx).afterCycle cx)) := by
    change Host.Outcome.next (s.pipWaitTimeout n) = _
    unfold State.pipWaitTimeout
    dsimp only
    rw [stalled]
    dsimp only
    rw [time, State.pipNow_tick, if_neg goes, run]
    rfl
  obtain ⟨only, keeps, ch⟩ := State.pipNow_modPip_spec n (fun _ => ((s.pipNow n).ch[n].pip.expire cx).afterCycle cx) s
  refine ⟨_, run, only, keeps, ?_⟩
  rw [ch]
  obtain ⟨regs, stalled', -, err⟩ := Pip.afterCycle_spec cx ((s.pipNow n).ch[n].pip.expire cx)
  obtain ⟨pc, flag3, err9, sr⟩ := Pip.expire_spec cx (s.pipNow n).ch[n].pip
  dsimp only
  rw [regs, err]
  exact ⟨congrArg (· + 1) pc, flag3, err9, stalled', sr⟩

/-- A timeout that is not over, or none, changes nothing. -/
theorem State.pipWaitTimeout_early {k0 : Nat} (stalled : (s.pipNow n).ch[n].pip.stalled = some k0)
    (early : (s.pipNow n).ch[n].pip.timeout (s.pipNow n).ch[n].pip.instr.op.hasTimeout = 0 ∨
      s.tick < (s.pipNow n).ch[n].pip.cycleTick (k0 + (s.pipNow n).ch[n].pip.timeout (s.pipNow n).ch[n].pip.instr.op.hasTimeout)) :
    s.pipWaitTimeout n = s.pipNow n := by
  unfold State.pipWaitTimeout
  dsimp only
  rw [stalled]
  exact if_pos (by simpa using early)

end

/-- Settles O25: a wait at issue completes or stalls by its condition; a stalled PULL is tried again in its cycle. -/
theorem pipWaits : Obligations.PipWaits := by
  unfold Obligations.PipWaits
  refine ⟨fun n s => ⟨fun lc k issues => pipWaitcyc_spec issues, fun cond pin to_ issues => ?_, fun f v to_ issues => ?_, fun f v to_ issues fresh => pipWaitflag_ack issues fresh,
    fun cls i to_ issues none => ?_⟩, fun n s => ⟨fun h => ?_, fun k0 w r _ swap stop stalled later op word => pipWaitComplete_pull swap stop stalled later op word,
    fun k0 _ swap stop stalled op empty timeout past => pipWaitTimeout_pull swap stop stalled op empty timeout past,
    fun k0 stalled early => congrArg Host.Outcome.next (State.pipWaitTimeout_early stalled early)⟩⟩
  · exact ⟨_, rfl, State.pipRun_keeps _ n s, State.pipRun_onlyBank _ n s, pipWaitpin_spec issues⟩
  · exact ⟨_, rfl, State.pipRun_keeps _ n s, State.pipRun_onlyBank _ n s, pipWaitflag_spec issues⟩
  · exact ⟨_, rfl, State.pipRun_keeps _ n s, State.pipRun_onlyBank _ n s, pipWaitirq_spec issues none⟩
  · exact ⟨congrArg Host.Outcome.next (State.pipWaitComplete_of_running h), congrArg Host.Outcome.next (State.pipWaitTimeout_of_running h)⟩

end Sys2Proof.Machine
end

section
/-!
A MOV from the counter reads the count brought up to its cycle (R100), not the count as it was last brought up to date.
-/
namespace Sys2Proof.Machine

/-- The Pip of channel 0 is about to issue MOV SR, CNT, and the counter of the channel, which runs, steps in this very tick. -/
def movCountState : State :=
  State.reset.modCh 0 (fun c => { c with
    en := true
    ctr := { c.ctr with run := true, cfg := 0, presc := 0, next := 0 }
    pip := { c.pip with run := true, prg0 := c.pip.prg0.set 0 (pipEncode { op := .mov 0 4 0, side := none }) } })

theorem movCountState_issues : PipIssues 0 (.mov 0 4 0) movCountState := by
  unfold PipIssues
  decide +kernel

/-- The MOV writes the stepped count. -/
theorem movCountState_sr : (match exec (.pipMov 0) movCountState with | .next t => t.ch[(0 : Ch)].pip.r.sr | _ => 0) = 1 := by decide +kernel

/-- The count was last brought up to date before the step. -/
theorem movCountState_cnt : (movCountState.pipNow 0).ch[(0 : Ch)].ctr.cnt = 0 := by decide +kernel

/-- Refutes O26: MOV of the counter takes the count of its cycle, 1 here, where the statement takes the count as last brought up to date, 0 here. -/
theorem not_pipDataMoves : ¬ Obligations.PipDataMoves := by
  unfold Obligations.PipDataMoves
  intro h
  obtain ⟨-, -, -, -, mov⟩ := h 0 movCountState
  obtain ⟨t, run, -, -, sr, -⟩ := mov 0 4 0 movCountState_issues
  obtain ⟨regs, -⟩ := sr rfl
  have wrong : t.ch[(0 : Ch)].pip.r.sr = movOp 0 ((movCountState.pipNow 0).ch[(0 : Ch)].ctr.cnt.setWidth 32) := congrArg PipRegs.sr regs
  have right := movCountState_sr
  rw [run, movCountState_cnt] at *
  exact absurd (right.symm.trans wrong) (by decide)

end Sys2Proof.Machine
end

section
/-!
Branches, settings, interrupts, SWAP, STOP and reserved encodings of a Pip (R91, R100, R101, R107, R113, R115).
-/
namespace Sys2Proof.Machine

section
variable {n : Ch} {s : State}

/-- What the statements of a Pip's instruction leave open of the other banks and parts. -/
theorem exec_of_pipRun {i : Instr} {want : PipOp → Bool} {Q : State → Prop} (run : exec i s = .next (s.pipRun want n)) (h : Q (s.pipRun want n)) :
    ∃ t : State, exec i s = .next t ∧ (Keeps [.ch, .pod] s t ∧ ∀ j : Ch, podOf j ≠ podOf n → t.ch[j] = s.ch[j]) ∧ Q t :=
  ⟨_, run, State.pipRun_frame want n s, h⟩

/-! ### Branches -/

theorem pipJmp_spec {cond : Fin 8} {x : Fin 4} {a : Fin 32} (issues : PipIssues n (.jmp cond x a) s) :
    let p := (s.pipNow n).ch[n].pip
    let take : Bool := if cond = 0 then true else if cond = 1 then bit p.r.flags.bits x.val else if cond = 2 then !bit p.r.flags.bits x.val else if cond = 3 then p.r.lc != 0
      else if cond = 4 then pipSample (podOf n) (fld p.pins 12 5) (p.cycleTick p.cyc) (s.pipNow n) else if cond = 5 then !p.r.txf.isEmpty else if cond = 6 then decide (p.r.rxf.length < 4) else p.r.bc == 0
    PipCompletes n s (s.pipRun (fun | .jmp .. => true | _ => false) n) { p.r with pc := if take then a else p.r.pc + 1 } := by
  intro p take
  have effect : pipEffect (s.pipCx n) (.jmp cond x a) (s.pipNow n) p = some { p := p, branch := if take then some a else none } := by
    refine congrArg (fun b : Bool => some ({ p := p, branch := if b then some a else none } : PipRes)) ?_
    fin_cases cond <;> rfl
  have completes := (State.pipRun_completes (want := fun | .jmp .. => true | _ => false) issues rfl effect nofun rfl rfl).1
  refine completes.of_eq ?_
  cases take <;> rfl

theorem pipLoop_spec {reload : Bool} {a : Fin 32} (issues : PipIssues n (.loop reload a) s) :
    let p := (s.pipNow n).ch[n].pip
    PipCompletes n s (s.pipRun (fun | .loop .. => true | _ => false) n)
      (if p.r.lc ≠ 0 then { p.r with lc := p.r.lc - 1, pc := a } else { p.r with pc := p.r.pc + 1, lc := if reload then p.r.lcInit else p.r.lc }) := by
  intro p
  by_cases h : p.r.lc = 0
  · have effect : pipEffect (s.pipCx n) (.loop reload a) (s.pipNow n) p = some { p := if reload then p.modR (fun r => { r with lc := r.lcInit }) else p } :=
      if_neg (by simpa using h)
    have completes := (State.pipRun_completes (want := fun | .loop .. => true | _ => false) issues rfl effect nofun rfl (by cases reload <;> rfl)).1
    rw [if_neg (not_not.mpr h)]
    refine completes.of_eq ?_
    cases reload <;> rfl
  · have effect : pipEffect (s.pipCx n) (.loop reload a) (s.pipNow n) p = some { p := p.modR (fun r => { r with lc := r.lc - 1 }), branch := some a } :=
      if_pos (by simpa using h)
    have completes := (State.pipRun_completes (want := fun | .loop .. => true | _ => false) issues rfl effect nofun rfl rfl).1
    rw [if_pos h]
    exact completes.of_eq rfl

/-! ### Flags and registers -/

/-- An instruction that writes flags alone. -/
theorem pipFlags_spec {op : PipOp} {want : PipOp → Bool} {q : Pip} (issues : PipIssues n op s) (named : want op = true) (stop : ∀ a b, op ≠ .stop a b)
    (effect : pipEffect (s.pipCx n) op (s.pipNow n) (s.pipNow n).ch[n].pip = some { p := q })
    (same : q = { (s.pipNow n).ch[n].pip with r := { (s.pipNow n).ch[n].pip.r with flags := q.r.flags } }) :
    PipCompletes n s (s.pipRun want n) { (s.pipNow n).ch[n].pip.r with pc := (s.pipNow n).ch[n].pip.r.pc + 1, flags := (s.pipRun want n).ch[n].pip.r.flags } ∧
      (s.pipRun want n).ch[n].pip.r.flags = q.r.flags := by
  obtain ⟨completes, flags, -⟩ := State.pipRun_completes issues named effect stop rfl (by rw [same]; rfl)
  refine ⟨completes.of_eq ?_, flags⟩
  rw [flags, same]
  rfl

/-- The flags of a mask, written one after the other (R107). -/
theorem Pip.setFlags_spec (cx : PipCx) (msk v : Nat) (p : Pip) (fresh : p.r.flags.fresh = 0) :
    let q := (List.range 4).foldl (fun q i => if bitAt msk i then q.setFlag cx i (bitAt v i) else q) p
    q = { p with r := { p.r with flags := q.r.flags } } ∧ ∀ g : Fin 4, q.r.flags.get g.val = if bitAt msk g.val then bitAt v g.val else p.r.flags.get g.val := by
  have each (k : Nat) (hk : k ≤ 4) :
      let q := (List.range k).foldl (fun q i => if bitAt msk i then q.setFlag cx i (bitAt v i) else q) p
      q = { p with r := { p.r with flags := q.r.flags } } ∧ q.r.flags.fresh = 0 ∧
        ∀ g : Fin 4, q.r.flags.get g.val = if g.val < k ∧ bitAt msk g.val = true then bitAt v g.val else p.r.flags.get g.val := by
    induction k with
    | zero => exact ⟨rfl, fresh, fun g => (if_neg (by omega)).symm⟩
    | succ k ih =>
      obtain ⟨same, fresh', get⟩ := ih (by omega)
      rw [List.range_succ, List.foldl_append, List.foldl_cons, List.foldl_nil]
      generalize (List.range k).foldl (fun q i => if bitAt msk i then q.setFlag cx i (bitAt v i) else q) p = q at same fresh' get ⊢
      dsimp only
      split
      · next h =>
        refine ⟨by rw [Pip.setFlag_same, same], fresh', fun g => ?_⟩
        rw [Pip.setFlag_get cx fresh' (by omega), get]
        grind
      · next h =>
        refine ⟨same, fresh', fun g => ?_⟩
        rw [get]
        grind
  obtain ⟨same, -, get⟩ := each 4 (by omega)
  exact ⟨same, fun g => (get g).trans (by simp)⟩

theorem pipCmp_spec {o f : Fin 4} {inv : Bool} (issues : PipIssues n (.cmp o f inv) s) (fresh : (s.pipNow n).ch[n].pip.r.flags.fresh = 0) :
    let p := (s.pipNow n).ch[n].pip
    let t := s.pipRun (fun | .cmp .. => true | _ => false) n
    PipCompletes n s t { p.r with pc := p.r.pc + 1, flags := t.ch[n].pip.r.flags } ∧ (∀ g : Fin 4, g ≠ f → t.ch[n].pip.r.flags.get g.val = p.r.flags.get g.val) ∧
      t.ch[n].pip.r.flags.get f.val = ((if o = 0 then p.r.sr == p.r.cv else if o = 1 then p.r.sr.ult p.r.cv else if o = 2 then p.r.sr &&& p.r.cv != 0 else p.r.lc == p.r.cv.setWidth 16) != inv) := by
  intro p t
  have low : BitVec.ofNat 16 p.r.cv.toNat = p.r.cv.setWidth 16 := BitVec.eq_of_toNat_eq (by simp)
  have effect : pipEffect (s.pipCx n) (.cmp o f inv) (s.pipNow n) p = some { p := p.setFlag (s.pipCx n) f.val ((if o = 0 then p.r.sr == p.r.cv
      else if o = 1 then p.r.sr.ult p.r.cv else if o = 2 then p.r.sr &&& p.r.cv != 0 else p.r.lc == p.r.cv.setWidth 16) != inv) } := by
    refine congrArg (fun b : Bool => some ({ p := p.setFlag (s.pipCx n) f.val (b != inv) } : PipRes)) ?_
    rw [← low]
    fin_cases o <;> rfl
  obtain ⟨completes, flags⟩ := pipFlags_spec (want := fun | .cmp .. => true | _ => false) issues rfl nofun effect (Pip.setFlag_same ..)
  refine ⟨completes, fun g hg => ?_, ?_⟩
  · rw [flags, Pip.setFlag_get _ fresh (by omega), if_neg (Fin.val_ne_of_ne hg)]
  · rw [flags, Pip.setFlag_get _ fresh (by omega), if_pos rfl]

theorem pipSetVal_spec {cv : Bool} {v : Fin 256} (issues : PipIssues n (.setVal cv v) s) :
    let p := (s.pipNow n).ch[n].pip
    PipCompletes n s (s.pipRun (fun | .setMask .. => true | .setVal .. => true | _ => false) n)
      (if cv then { p.r with pc := p.r.pc + 1, cv := BitVec.ofNat 32 v.val } else { p.r with pc := p.r.pc + 1, lc := BitVec.ofNat 16 v.val }) := by
  intro p
  have completes := (State.pipRun_completes (want := fun | .setMask .. => true | .setVal .. => true | _ => false) issues rfl
    (rfl : pipEffect (s.pipCx n) (.setVal cv v) (s.pipNow n) p = _) nofun rfl rfl).1
  refine completes.of_eq ?_
  cases cv <;> rfl

theorem pipSetPins_spec {msk v : Fin 16} (issues : PipIssues n (.setMask false msk v) s) :
    PipCompletes n s (s.pipRun (fun | .setMask .. => true | .setVal .. => true | _ => false) n) { (s.pipNow n).ch[n].pip.r with pc := (s.pipNow n).ch[n].pip.r.pc + 1 } :=
  (State.pipRun_completes (want := fun | .setMask .. => true | .setVal .. => true | _ => false) issues rfl
    (rfl : pipEffect (s.pipCx n) (.setMask false msk v) (s.pipNow n) (s.pipNow n).ch[n].pip = _) nofun rfl rfl).1

theorem pipSetFlags_spec {msk v : Fin 16} (issues : PipIssues n (.setMask true msk v) s) (fresh : (s.pipNow n).ch[n].pip.r.flags.fresh = 0) :
    let p := (s.pipNow n).ch[n].pip
    let t := s.pipRun (fun | .setMask .. => true | .setVal .. => true | _ => false) n
    PipCompletes n s t { p.r with pc := p.r.pc + 1, flags := t.ch[n].pip.r.flags } ∧
      ∀ g : Fin 4, t.ch[n].pip.r.flags.get g.val = if bitAt msk.val g.val then bitAt v.val g.val else p.r.flags.get g.val := by
  intro p t
  obtain ⟨same, get⟩ := Pip.setFlags_spec (s.pipCx n) msk.val v.val p fresh
  obtain ⟨completes, flags⟩ := pipFlags_spec (want := fun | .setMask .. => true | .setVal .. => true | _ => false) issues rfl nofun
    (rfl : pipEffect (s.pipCx n) (.setMask true msk v) (s.pipNow n) p = _) same
  exact ⟨completes, fun g => by rw [flags]; exact get g⟩

/-! ### Interrupts -/

theorem pipIrqHost_spec {c : Fin 256} (issues : PipIssues n (.irq 1 c) s) :
    let p := (s.pipNow n).ch[n].pip
    let t := s.pipRun (fun | .irq .. => true | _ => false) n
    (p.irq.get 0 = true → PipStalls n s t) ∧
      (p.irq.get 0 = false → PipCompletes n s t { p.r with pc := p.r.pc + 1 } ∧ t.ch[n].pip.irq.get 0 = true ∧ t.ch[n].pip.code = BitVec.ofNat 8 c.val) := by
  intro p t
  refine ⟨fun h => State.pipRun_stalls issues rfl (if_pos h), fun h => ?_⟩
  have effect : pipEffect (s.pipCx n) (.irq 1 c) (s.pipNow n) p = some { p := { p with irq := p.irq.raise (s.pipCx n).tk 1, code := BitVec.ofNat 8 c.val } } :=
    if_neg (by rw [h]; exact Bool.false_ne_true)
  obtain ⟨completes, -, -, irq, code, -⟩ := State.pipRun_completes (want := fun | .irq .. => true | _ => false) issues rfl effect nofun rfl rfl
  exact ⟨completes, by rw [irq]; simp, code⟩

theorem pipIrqLine_spec {c : Fin 256} (issues : PipIssues n (.irq 0 c) s) :
    let p := (s.pipNow n).ch[n].pip
    let t := s.pipRun (fun | .irq .. => true | _ => false) n
    PipCompletes n s t { p.r with pc := p.r.pc + 1 } ∧ t.pod[podOf n].plines = (s.pipNow n).pod[podOf n].plines ++ [c.val % 8] := by
  intro p t
  obtain ⟨completes, -, -, -, -, -, lines⟩ := State.pipRun_completes (want := fun | .irq .. => true | _ => false) issues rfl
    (rfl : pipEffect (s.pipCx n) (.irq 0 c) (s.pipNow n) p = some { p := p, plines := some (c.val % 8) }) nofun rfl rfl
  exact ⟨completes, lines _ rfl⟩

/-! ### SWAP -/

/-- The engine at the end of the cycle of a SWAP: forced, or at a word boundary (R113). -/
theorem Pip.endCycle_swaps {cx : PipCx} {forced : Bool} {p : Pip} (stop : p.stopAt = none) (run : p.run = true)
    (now : (forced = true) ∨ (forced = false ∧ p.swap = some cx.tk ∧ p.r.bc = 0)) :
    (p.endCycle cx forced).bank = !p.bank ∧ (p.endCycle cx forced).r.pc = 0 ∧ (p.endCycle cx forced).r.bc = 0 ∧ (p.endCycle cx forced).swap = none ∧
      (p.endCycle cx forced).run = true := by
  have taken : (p.nextCycle cx).endSwap cx forced = (p.nextCycle cx).takeSwap cx.tk forced := by
    obtain rfl | ⟨rfl, swap, bc⟩ := now
    · rfl
    · have swap' : (p.nextCycle cx).swap = some cx.tk := swap
      have bc' : (p.nextCycle cx).r.bc = 0 := bc
      unfold Pip.endSwap
      rw [if_neg Bool.false_ne_true, swap']
      exact if_pos (by rw [bc']; simp)
  have stop' : ((p.nextCycle cx).takeSwap cx.tk forced).stopAt = none := by
    unfold Pip.takeSwap
    dsimp only
    split <;> exact stop
  rw [Pip.endCycle_eq, taken, Pip.endStop_of_none stop']
  unfold Pip.takeSwap
  dsimp only
  split
  · exact ⟨rfl, rfl, rfl, rfl, run⟩
  · next h =>
    refine ⟨rfl, rfl, ?_, rfl, run⟩
    obtain rfl | ⟨-, -, bc⟩ := now
    · simpa using h
    · exact bc

/-- A swap that waits for a word boundary waits on (R113). -/
theorem Pip.endCycle_waits {cx : PipCx} {p : Pip} {b : Nat} (stop : p.stopAt = none) (swap : p.swap = some b) (bc : p.r.bc ≠ 0) : p.endCycle cx false = p.nextCycle cx := by
  have swap' : (p.nextCycle cx).swap = some b := swap
  have bc' : (p.nextCycle cx).r.bc ≠ 0 := bc
  have waits : (p.nextCycle cx).endSwap cx false = p.nextCycle cx := by
    unfold Pip.endSwap
    rw [if_neg Bool.false_ne_true, swap']
    exact if_neg (by simpa using fun _ => bc')
  rw [Pip.endCycle_eq, waits, Pip.endStop_of_none (p := p.nextCycle cx) stop]

/-- What completes of a swap that was noted alone (R94, R113). -/
theorem Pip.nextCycle_noted {cx : PipCx} {p q : Pip} {b : Nat}
    (kept : q = { PipRes.advanced cx { p := { p with swap := some b } } with
      err := q.err, r := { (PipRes.advanced cx { p := { p with swap := some b } }).r with pendQ := q.r.pendQ } })
    (cyc : cx.k = p.cyc) (run : p.run = true) :
    (let q := q.nextCycle cx
     q.r = { p.r with pc := p.r.pc + 1, pend := q.r.pend, pendQ := q.r.pendQ } ∧ q.cyc = p.cyc + 1 ∧ q.run = true ∧ q.stalled = none ∧ q.bank = p.bank ∧
       q.prg0 = p.prg0 ∧ q.prg1 = p.prg1) ∧ (q.nextCycle cx).swap = some b := by
  rw [kept, ← cyc]
  exact ⟨⟨rfl, rfl, run, rfl, rfl, rfl, rfl⟩, rfl⟩

/-- The engine of an instruction that completes and is no STOP stands at the end of its cycle (R94). -/
theorem State.pipRun_ends {op : PipOp} {want : PipOp → Bool} {r : PipRes} (issues : PipIssues n op s) (named : want op = true) (stop : ∀ a b, op ≠ .stop a b)
    (effect : pipEffect (s.pipCx n) op (s.pipNow n) (s.pipNow n).ch[n].pip = some r) :
    ∃ q : Pip, PipKept (r.advanced (s.pipCx n)) q ∧ (s.pipRun want n).ch[n].pip = q.endCycle (s.pipCx n) r.forced := by
  have hop := issues.2.2.2.1
  refine ⟨_, (State.pipEffects_spec (cx := s.pipCx n) (i := (s.pipNow n).ch[n].pip.instr) true (r := r) (s := s.pipNow n)).1, ?_⟩
  rw [State.pipRun_of_issue issues named, effect]
  dsimp only
  rw [State.pipComplete_eq true (by rw [hop]; exact stop)]
  exact congrArg Channel.pip (State.modPip_ch_same ..)

theorem pipSwap_spec {force : Bool} (issues : PipIssues n (.swap force) s) :
    let p := (s.pipNow n).ch[n].pip
    let t := s.pipRun (fun | .swap .. => true | _ => false) n
    (p.otherValid = false → PipCompletes n s t { p.r with pc := p.r.pc + 1 } ∧ t.ch[n].pip.err.get 2 = true) ∧
    (p.otherValid = true → (force = true ∨ p.r.bc = 0) → t.ch[n].pip.bank = !p.bank ∧ t.ch[n].pip.r.pc = 0 ∧ t.ch[n].pip.r.bc = 0 ∧ t.ch[n].pip.swap = none ∧ t.ch[n].pip.run = true) ∧
    (p.otherValid = true → force = false → p.r.bc ≠ 0 → PipCompletes n s t { p.r with pc := p.r.pc + 1 } ∧ t.ch[n].pip.swap = some (p.cycleTick p.cyc)) := by
  intro p t
  obtain ⟨run, -, -, -, -, -, noSwap, noStop⟩ := id issues
  have refused (h : p.otherValid = false) : pipEffect (s.pipCx n) (.swap force) (s.pipNow n) p = some { p := p.error (s.pipCx n).tk 4 } :=
    if_pos (by rw [h]; rfl)
  have forced (h : p.otherValid = true) (hf : force = true) : pipEffect (s.pipCx n) (.swap force) (s.pipNow n) p = some { p := p, forced := true } :=
    (if_neg (by rw [h]; decide)).trans (if_pos hf)
  have noted (h : p.otherValid = true) (hf : force = false) : pipEffect (s.pipCx n) (.swap force) (s.pipNow n) p =
      some { p := { p with swap := some (s.pipCx n).tk } } := by
    refine (if_neg (by rw [h]; decide)).trans ((if_neg (by rw [hf]; decide)).trans ?_)
    rw [noSwap, Option.getD_none, min_self]
  refine ⟨fun h => ?_, fun h now => ?_, fun h hf bc => ?_⟩
  · obtain ⟨completes, -, -, -, -, err, -⟩ := State.pipRun_completes (want := fun | .swap .. => true | _ => false) issues rfl (refused h) nofun rfl rfl
    exact ⟨completes, err 2 (by simp [Pip.error])⟩
  · cases force with
    | true =>
      obtain ⟨q, ⟨kept, -⟩, ends⟩ := State.pipRun_ends (want := fun | .swap .. => true | _ => false) issues rfl nofun (forced h rfl)
      obtain ⟨bank, rest⟩ := Pip.endCycle_swaps (cx := s.pipCx n) (p := q) (by rw [kept]; exact noStop) (by rw [kept]; exact run) (.inl rfl)
      rw [show t.ch[n].pip = q.endCycle (s.pipCx n) true from ends]
      exact ⟨bank.trans (by rw [kept]; rfl), rest⟩
    | false =>
      have bc : p.r.bc = 0 := now.resolve_left Bool.false_ne_true
      obtain ⟨q, ⟨kept, -⟩, ends⟩ := State.pipRun_ends (want := fun | .swap .. => true | _ => false) issues rfl nofun (noted h rfl)
      obtain ⟨bank, rest⟩ := Pip.endCycle_swaps (cx := s.pipCx n) (p := q) (by rw [kept]; exact noStop) (by rw [kept]; exact run)
        (.inr ⟨rfl, by rw [kept]; rfl, by rw [kept]; exact bc⟩)
      rw [show t.ch[n].pip = q.endCycle (s.pipCx n) false from ends]
      exact ⟨bank.trans (by rw [kept]; rfl), rest⟩
  · obtain ⟨q, ⟨kept, -⟩, ends⟩ := State.pipRun_ends (want := fun | .swap .. => true | _ => false) issues rfl nofun (noted h hf)
    rw [Pip.endCycle_waits (by rw [kept]; exact noStop) (by rw [kept]; rfl) (by rw [kept]; exact bc)] at ends
    obtain ⟨done, swap⟩ := Pip.nextCycle_noted kept rfl run
    rw [← ends] at done swap
    exact ⟨done, swap⟩

/-! ### STOP and reserved encodings -/

/-- Cycles that pass with no swap and no stop waiting leave the engine but its waits (R91). -/
theorem Pip.settle_of_unasked {t : Nat} {p : Pip} (swap : p.swap = none) (stop : p.stopAt = none) :
    p.settle t = { p with waitLeft := (p.settle t).waitLeft, cyc := (p.settle t).cyc } := by
  by_cases run : p.run = true
  · unfold Pip.settle
    rw [run, swap, stop]
    dsimp only [Option.map_none]
    rw [ite_self]
    rfl
  · rw [Pip.settle_of_stands (Bool.eq_false_of_not_eq_true run)]

/-- An engine that runs, and of which no swap is asked, halts (R91). -/
theorem Pip.halted_of_runs {p : Pip} (run : p.run = true) (swap : p.swap = none) (t : Nat) (why : BitVec 3) (resumable : Bool) :
    p.halted t why resumable = { p with run := false, halt := why, resum := resumable, stalled := none, stopAt := none } := by
  unfold Pip.halted
  rw [if_pos run]
  dsimp only
  rw [swap]

/-- A STOP's halt: what stands of the engine (R91). -/
theorem Pip.stopped_spec {p : Pip} (run : p.run = true) (swap : p.swap = none) (stop : p.stopAt = none) (t : Nat) :
    (((p.settle t).noteStalls t).halted t 1 false).run = false ∧ (((p.settle t).noteStalls t).halted t 1 false).halt = 1 ∧
      (((p.settle t).noteStalls t).halted t 1 false).resum = false ∧ (((p.settle t).noteStalls t).halted t 1 false).irq = p.irq := by
  have settled := Pip.settle_of_unasked (t := t) swap stop
  have run' : ((p.settle t).noteStalls t).run = true := by
    rw [Pip.noteStalls_same, settled]
    exact run
  have swap' : ((p.settle t).noteStalls t).swap = none := by
    rw [Pip.noteStalls_same, settled]
    exact swap
  rw [Pip.halted_of_runs run' swap']
  refine ⟨rfl, rfl, rfl, ?_⟩
  rw [Pip.noteStalls_same, settled]

/-- An instruction that completes: the pins and the pod line of a STOP leave its engine (R91, R97). -/
theorem State.pipRun_stop {rel irq : Bool} {want : PipOp → Bool} (issues : PipIssues n (.stop rel irq) s) (named : want (.stop rel irq) = true) :
    ∃ q : Pip, PipKept (PipRes.advanced (s.pipCx n) { p := (s.pipNow n).ch[n].pip }) q ∧
      (s.pipRun want n).ch[n].pip = ((({ q with irq := q.irq.raiseIf irq (s.pipCx n).tk 2, prevCyc := some (s.pipCx n).tk, cyc := (s.pipCx n).k + 1 } : Pip).settle
        (s.pipCx n).tk).noteStalls (s.pipCx n).tk).halted (s.pipCx n).tk 1 false := by
  have hop := issues.2.2.2.1
  refine ⟨_, (State.pipEffects_spec (cx := s.pipCx n) (i := (s.pipNow n).ch[n].pip.instr) true (r := { p := (s.pipNow n).ch[n].pip }) (s := s.pipNow n)).1, ?_⟩
  rw [State.pipRun_of_issue issues named]
  dsimp only [pipEffect]
  rw [State.pipComplete_stop true hop]
  refine (State.pipHalt_pip ..).trans ?_
  exact congrArg (fun p : Pip => ((p.settle (s.pipCx n).tk).noteStalls (s.pipCx n).tk).halted (s.pipCx n).tk 1 false) (congrArg Channel.pip (State.modPip_ch_same ..))

theorem pipStop_spec {rel irq : Bool} (issues : PipIssues n (.stop rel irq) s) :
    let t := s.pipRun (fun | .stop .. => true | _ => false) n
    t.ch[n].pip.run = false ∧ t.ch[n].pip.halt = 1 ∧ t.ch[n].pip.resum = false ∧ (irq = true → t.ch[n].pip.irq.get 1 = true) := by
  intro t
  obtain ⟨run, -, -, -, -, -, noSwap, noStop⟩ := id issues
  obtain ⟨q, ⟨kept, -⟩, ends⟩ := State.pipRun_stop (want := fun | .stop .. => true | _ => false) issues rfl
  obtain ⟨stands, halt, resum, irq'⟩ := Pip.stopped_spec
    (p := { q with irq := q.irq.raiseIf irq (s.pipCx n).tk 2, prevCyc := some (s.pipCx n).tk, cyc := (s.pipCx n).k + 1 })
    (by rw [kept]; exact run) (by rw [kept]; exact noSwap) (by rw [kept]; exact noStop) (s.pipCx n).tk
  rw [← ends] at stands halt resum irq'
  refine ⟨stands, halt, resum, ?_⟩
  rintro rfl
  rw [show t.ch[n].pip.irq = _ from irq']
  simp

/-- A reserved encoding stops the engine, without any other effect (R101). -/
theorem pipReservedOp_spec (run : (s.pipNow n).ch[n].pip.run = true) (stalled : (s.pipNow n).ch[n].pip.stalled = none) (left : (s.pipNow n).ch[n].pip.waitLeft = 0)
    (swap : (s.pipNow n).ch[n].pip.swap = none) (reserved : (s.pipNow n).ch[n].pip.instr.op.reserved = true)
    (begun : (s.pipNow n).ch[n].pip.cycleTick (s.pipNow n).ch[n].pip.cyc ≤ s.tick) :
    ∃ t : State, exec (.pipReservedOp n) s = .next t ∧ OnlyCh n s t ∧ Keeps [.ch, .pod] s t ∧
      t.ch[n].pip = { (s.pipNow n).ch[n].pip with
        run := false, halt := 6, resum := false, stopAt := none
        err := (s.pipNow n).ch[n].pip.err.raise ((s.pipNow n).ch[n].pip.cycleTick (s.pipNow n).ch[n].pip.cyc) 0x100 } := by
  obtain ⟨only, keeps, ch⟩ := State.pipNow_modPip_spec n (fun p => (p.error (p.cycleTick p.cyc) 0x100).halted (p.cycleTick p.cyc) 6 false) s
  have goes : ¬ (!(s.pipNow n).ch[n].pip.run || (s.pipNow n).ch[n].pip.stalled.isSome || (s.pipNow n).ch[n].pip.waitLeft != 0 || !(s.pipNow n).ch[n].pip.instr.op.reserved ||
      decide ((s.pipNow n).tick < (s.pipNow n).ch[n].pip.cycleTick (s.pipNow n).ch[n].pip.cyc)) = true := by
    rw [run, stalled, left, reserved, State.pipNow_tick, decide_eq_false (Nat.not_lt.mpr begun)]
    decide
  refine ⟨_, congrArg Host.Outcome.next (if_neg goes), only, keeps, ?_⟩
  rw [ch]
  dsimp only
  rw [Pip.halted_of_runs (p := (s.pipNow n).ch[n].pip.error _ 0x100) run swap, ← stalled]
  rfl

end

/-- Settles O27: each instruction of a Pip that issues, by what its operation makes of the engine. -/
theorem pipControlFlow : Obligations.PipControlFlow := by
  unfold Obligations.PipControlFlow
  intro n s
  exact ⟨fun cond x a issues => exec_of_pipRun rfl (pipJmp_spec issues), fun reload a issues => exec_of_pipRun rfl (pipLoop_spec issues),
    fun o f inv issues fresh => exec_of_pipRun rfl (pipCmp_spec issues fresh), fun cv v issues => exec_of_pipRun rfl (pipSetVal_spec issues),
    fun msk v issues => exec_of_pipRun rfl (pipSetPins_spec issues), fun msk v issues fresh => exec_of_pipRun rfl (pipSetFlags_spec issues fresh),
    fun c issues => exec_of_pipRun rfl (pipIrqHost_spec issues), fun c issues => exec_of_pipRun rfl (pipIrqLine_spec issues),
    fun force issues => exec_of_pipRun rfl (pipSwap_spec issues), fun rel irq issues => exec_of_pipRun rfl (pipStop_spec issues),
    fun run stalled left swap reserved begun => pipReservedOp_spec run stalled left swap reserved begun⟩

end Sys2Proof.Machine
end

section
/-!
SUPPORT. What judging, committing and losing position events does to an axis block: it moves the counts of AXk_PRED_CNT and sets events, and a new
evaluation takes STOPPED and LAGGING; nothing else of the axis differs, and no other axis.
-/
namespace Sys2Proof.Machine

/-! ### One axis alone -/

theorem OnlyAxis.refl (k : Ax) (s : State) : OnlyAxis k s s := fun _ _ => rfl

theorem OnlyAxis.trans {k : Ax} {s t u : State} (h : OnlyAxis k s t) (j : OnlyAxis k t u) : OnlyAxis k s u :=
  fun m hm => (j m hm).trans (h m hm)

theorem OnlyAxis.of_axis_eq {k : Ax} {s t : State} (h : t.axis = s.axis) : OnlyAxis k s t := fun _ _ => by rw [h]

theorem OnlyAxis.of_keeps {k : Ax} {l : List Part} {s t : State} (h : Keeps l s t) (hl : Part.axis ∉ l) : OnlyAxis k s t :=
  .of_axis_eq (h.2 .axis hl)

theorem State.modAxis_onlyAxis (k : Ax) (f : Axis → Axis) (s : State) : OnlyAxis k s (s.modAxis k f) :=
  fun m hm => State.modAxis_axis_other s k m f hm

theorem OnlyAxis.when {k : Ax} {s t : State} {b : Bool} {f : State → State} (h : OnlyAxis k s t) (j : ∀ r, OnlyAxis k r (f r)) : OnlyAxis k s (t.when b f) := by
  cases b
  · exact h
  · exact h.trans (j t)

theorem State.modAxis_congr {k : Ax} {f g : Axis → Axis} {s : State} (h : f s.axis[k] = g s.axis[k]) : s.modAxis k f = s.modAxis k g := by
  unfold State.modAxis
  rw [h]

/-! ### The two relations -/

/-- Axis b is axis a after judgements of its position events: at most the counts of AXk_PRED_CNT and the events seen differ, and none is unseen. -/
structure AxisCounted (a b : Axis) : Prop where
  only : b = { a with evt := b.evt, missedBehind := b.missedBehind, lateShort := b.lateShort, lateReached := b.lateReached, outBound := b.outBound }
  seen : ∀ i, a.evt.get i = true → b.evt.get i = true

/-- The same, with STOPPED, LAGGING and the emulation taken anew besides. -/
structure AxisFollowed (a b : Axis) : Prop where
  only : b = { a with
    evt := b.evt, missedBehind := b.missedBehind, lateShort := b.lateShort, lateReached := b.lateReached, outBound := b.outBound
    stopped := b.stopped, lagging := b.lagging, emul := b.emul }
  seen : ∀ i, a.evt.get i = true → b.evt.get i = true

theorem AxisCounted.refl (a : Axis) : AxisCounted a a := ⟨rfl, fun _ h => h⟩
theorem AxisFollowed.refl (a : Axis) : AxisFollowed a a := ⟨rfl, fun _ h => h⟩

theorem AxisCounted.trans {a b c : Axis} (h : AxisCounted a b) (j : AxisCounted b c) : AxisCounted a c :=
  ⟨by rw [j.only, h.only], fun i hi => j.seen i (h.seen i hi)⟩

theorem AxisFollowed.trans {a b c : Axis} (h : AxisFollowed a b) (j : AxisFollowed b c) : AxisFollowed a c :=
  ⟨by rw [j.only, h.only], fun i hi => j.seen i (h.seen i hi)⟩

theorem AxisCounted.followed {a b : Axis} (h : AxisCounted a b) : AxisFollowed a b := ⟨by rw [h.only], h.seen⟩

/-- Axis k is judged, and no other axis differs. -/
structure CountedOn (k : Ax) (s t : State) : Prop where
  alone : OnlyAxis k s t
  axis : AxisCounted s.axis[k] t.axis[k]

/-- Axis k has followed what moved it, and no other axis differs. -/
structure FollowedOn (k : Ax) (s t : State) : Prop where
  alone : OnlyAxis k s t
  axis : AxisFollowed s.axis[k] t.axis[k]

theorem CountedOn.refl (k : Ax) (s : State) : CountedOn k s s := ⟨.refl k s, .refl _⟩
theorem FollowedOn.refl (k : Ax) (s : State) : FollowedOn k s s := ⟨.refl k s, .refl _⟩

theorem CountedOn.trans {k : Ax} {s t u : State} (h : CountedOn k s t) (j : CountedOn k t u) : CountedOn k s u :=
  ⟨h.alone.trans j.alone, h.axis.trans j.axis⟩

theorem FollowedOn.trans {k : Ax} {s t u : State} (h : FollowedOn k s t) (j : FollowedOn k t u) : FollowedOn k s u :=
  ⟨h.alone.trans j.alone, h.axis.trans j.axis⟩

theorem CountedOn.followed {k : Ax} {s t : State} (h : CountedOn k s t) : FollowedOn k s t := ⟨h.alone, h.axis.followed⟩

theorem CountedOn.of_keeps {k : Ax} {l : List Part} {s t : State} (h : Keeps l s t) (hl : Part.axis ∉ l) : CountedOn k s t := by
  have same : t.axis = s.axis := h.2 .axis hl
  exact ⟨.of_axis_eq same, by rw [same]; exact .refl _⟩

theorem CountedOn.when {k : Ax} {s t : State} {b : Bool} {f : State → State} (h : CountedOn k s t) (j : ∀ r, CountedOn k r (f r)) : CountedOn k s (t.when b f) := by
  cases b
  · exact h
  · exact h.trans (j t)

theorem FollowedOn.when {k : Ax} {s t : State} {b : Bool} {f : State → State} (h : FollowedOn k s t) (j : ∀ r, FollowedOn k r (f r)) : FollowedOn k s (t.when b f) := by
  cases b
  · exact h
  · exact h.trans (j t)

theorem CountedOn.modAxis {k : Ax} {f : Axis → Axis} {s : State} (h : AxisCounted s.axis[k] (f s.axis[k])) : CountedOn k s (s.modAxis k f) :=
  ⟨State.modAxis_onlyAxis k f s, by rw [State.modAxis_axis_same]; exact h⟩

theorem FollowedOn.modAxis {k : Ax} {f : Axis → Axis} {s : State} (h : AxisFollowed s.axis[k] (f s.axis[k])) : FollowedOn k s (s.modAxis k f) :=
  ⟨State.modAxis_onlyAxis k f s, by rw [State.modAxis_axis_same]; exact h⟩

/-! ### Judging, committing and losing events -/

/-- A count that touches nothing but one of the four counts of AXk_PRED_CNT. -/
theorem State.predCount_counted {k : Ax} {f : Axis → Axis} {s : State} (h : AxisCounted s.axis[k] (f s.axis[k])) : CountedOn k s (s.predCount k f) := by
  refine .modAxis ⟨by rw [h.only], fun i hi => ?_⟩
  rw [Sticky.get_raise, hi, Bool.true_or]

/-- The event that a commit with a ball time, an advance and a reason makes of e, among the pod's events l (R150, R174). -/
def commitEv (l : List Ev) (e : Ev) (ball adv reason : Nat) : Ev :=
  let e0 : Ev := { e with ball := ball, adv := adv, committed := true }
  let fit := firstFit l e.rec_.ch e.ord (fitSteps l) e0.actionTick
  let moved := fit != e0.actionTick
  let why := if moved then firstReason reason rsDense else reason
  { (if moved then e0.moveTo fit else e0) with late := why != 0, reason := why }

/-- The event with order number o leaves its axis list for the commit path of its pod, as e (R173). -/
def State.toCommits (o : Nat) (e : Ev) (s : State) : State :=
  let r := (s.unlist o).markAmbig e
  ((r.1.modPod (podOf e.rec_.ch) (fun q => { q with commits := q.commits ++ [r.2] })).freeSlots 1).drainIf (podOf e.rec_.ch) r.2

theorem commitEv_rec (l : List Ev) (e : Ev) (ball adv reason : Nat) : (commitEv l e ball adv reason).rec_ = e.rec_ := by
  unfold commitEv Ev.moveTo
  dsimp only
  split <;> rfl

theorem State.toCommits_keeps (o : Nat) (e : Ev) (s : State) : Keeps [.guar, .ch, .cal, .pod] s (s.toCommits o e) :=
  (((((State.unlist_keeps o s).mono (by decide)).step (State.markAmbig_keeps e _) (by decide)).step (State.modPod_keeps ..) (by decide)).step
    (State.freeSlots_keeps 1 _) (by decide)).step (State.drainIf_keeps ..) (by decide)

/-- A commit counts, and then hands the event to the pod. -/
theorem State.commitPos_split (k : Ax) (e : Ev) (ball adv reason : Nat) (s : State) : ∃ r : State, CountedOn k s r ∧ Keeps [.guar, .axis] s r ∧
    s.commitPos k e ball adv reason = r.toCommits e.ord (commitEv (podEvs (podOf e.rec_.ch) s) e ball adv reason) := by
  unfold State.commitPos
  extract_lets a p l e0 fit moved why e1' e1 spd out s1 s2 s3 s4
  have same : e1 = commitEv l e ball adv reason := rfl
  have named : podOf e1.rec_.ch = p := by rw [same, commitEv_rec]
  have h1 : CountedOn k s s1 ∧ Keeps [.guar, .axis] s s1 :=
    ⟨(CountedOn.refl k s).when fun r => .of_keeps (State.breach_keeps brPos r) (by decide),
      (Keeps.refl _ s).when _ _ fun r => (State.breach_keeps brPos r).mono (by decide)⟩
  have count {r : State} (h : CountedOn k s r ∧ Keeps [.guar, .axis] s r) (b : Bool) (f : Nat → Axis → Axis) (ok : ∀ t a, AxisCounted a (f t a)) :
      CountedOn k s (r.when b (State.predCount k (f r.tick))) ∧ Keeps [.guar, .axis] s (r.when b (State.predCount k (f r.tick))) :=
    ⟨h.1.when fun u => State.predCount_counted (ok _ _), h.2.when _ _ fun u => (State.predCount_keeps k _ u).mono (by decide)⟩
  have h2 := count h1 (reason == rsShortLead) (fun t a => { a with lateShort := a.lateShort.bump t 1 255 }) fun _ _ => ⟨rfl, fun _ h => h⟩
  have h3 := count h2 (reason == rsReached) (fun t a => { a with lateReached := a.lateReached.bump t 1 255 }) fun _ _ => ⟨rfl, fun _ h => h⟩
  have h4 := count h3 out (fun t a => { a with outBound := a.outBound.bump t 1 255 }) fun _ _ => ⟨rfl, fun _ h => h⟩
  refine ⟨s4, h4.1, h4.2, ?_⟩
  unfold State.toCommits
  rw [← same, named]

theorem State.commitPos_counted (k : Ax) (e : Ev) (ball adv reason : Nat) (s : State) : CountedOn k s (s.commitPos k e ball adv reason) := by
  obtain ⟨r, counted, -, eq⟩ := State.commitPos_split k e ball adv reason s
  rw [eq]
  exact counted.trans (.of_keeps (State.toCommits_keeps ..) (by decide))

theorem State.losePos_counted (k : Ax) (e : Ev) (reason lt : Nat) (s : State) : CountedOn k s (s.losePos e reason lt) :=
  .of_keeps (State.losePos_keeps e reason lt s) (by decide)

theorem State.posBehind_counted (k : Ax) (e : Ev) (s : State) : CountedOn k s (s.posBehind k e) := by
  unfold State.posBehind
  extract_lets r
  have seen : CountedOn k s (s.breach brPos) := .of_keeps (State.breach_keeps brPos s) (by decide)
  split
  · split
    · exact seen.trans (State.losePos_counted ..)
    · exact seen.trans (State.commitPos_counted ..)
  · exact (seen.trans (State.predCount_counted ⟨rfl, fun _ h => h⟩)).trans (State.losePos_counted ..)

theorem State.posRange_counted (k : Ax) (e : Ev) (s : State) : CountedOn k s (s.posRange k e) := by
  unfold State.posRange
  have seen : CountedOn k s (s.breach brPos) := .of_keeps (State.breach_keeps brPos s) (by decide)
  exact (seen.trans (State.predCount_counted ⟨rfl, fun _ h => h⟩)).trans (State.losePos_counted ..)

theorem State.keepHeads_counted (k j : Ax) (s : State) : CountedOn k s (s.keepHeads j) := .of_keeps (State.keepHeads_keeps j s) (by decide)
theorem State.dropPreds_counted (k j : Ax) (s : State) : CountedOn k s (s.dropPreds j) := .of_keeps (State.dropPreds_keeps j s) (by decide)

theorem State.judgeWaiting_counted (k : Ax) (s : State) : CountedOn k s (s.judgeWaiting k) := by
  unfold State.judgeWaiting
  refine CountedOn.trans ?_ (State.keepHeads_counted ..)
  refine forAll_induction (P := CountedOn k s) (fun x _ r h => h.trans ?_) (.refl k s)
  dsimp only
  split
  · exact ⟨fun _ _ => rfl, .refl _⟩
  · exact State.posRange_counted ..
  · exact State.posBehind_counted ..

theorem State.reach_counted (k : Ax) (p : W) (d : Int) (s : State) : CountedOn k s (s.reach k p d) := by
  unfold State.reach
  refine forAll_induction (P := CountedOn k s) (fun e _ r h => h.trans ?_) (.refl k s)
  split
  · exact State.losePos_counted ..
  · exact State.commitPos_counted ..

/-! ### STOPPED and LAGGING taken anew -/

/-- The block of an axis once STOPPED and LAGGING are taken anew at tick t (R139). -/
def Axis.reeval (t : Nat) (a : Axis) : Axis :=
  { a with stopped := a.isStopped t, lagging := a.isLagging t, evt := a.evt.raiseIf (a.isStopped t != a.stopped) t evMotion }

theorem Axis.reeval_followed (t : Nat) (a : Axis) : AxisFollowed a (a.reeval t) := ⟨rfl, fun _ h => Sticky.get_raiseIf_of_get h ..⟩

theorem State.axReeval_counted (k : Ax) (s : State) : CountedOn k (s.modAxis k (Axis.reeval s.tick)) (s.axReeval k) := by
  unfold State.axReeval
  extract_lets a st s1 s2
  have same : s1 = s.modAxis k (Axis.reeval s.tick) := State.modAxis_congr rfl
  rw [← same]
  exact ((CountedOn.refl k _).when (State.dropPreds_counted k k)).when (State.judgeWaiting_counted k)

theorem State.axReeval_followed (k : Ax) (s : State) : FollowedOn k s (s.axReeval k) :=
  (FollowedOn.modAxis (Axis.reeval_followed s.tick _)).trans (State.axReeval_counted k s).followed

theorem State.axReeval_axis (k : Ax) (s : State) : AxisCounted (s.axis[k].reeval s.tick) (s.axReeval k).axis[k] := by
  have h := (State.axReeval_counted k s).axis
  rwa [State.modAxis_axis_same] at h

theorem State.axReeval_stopped (k : Ax) (s : State) : (s.axReeval k).axis[k].stopped = s.axis[k].isStopped s.tick := by
  rw [(State.axReeval_axis k s).only]; rfl

theorem State.axReeval_lagging (k : Ax) (s : State) : (s.axReeval k).axis[k].lagging = s.axis[k].isLagging s.tick := by
  rw [(State.axReeval_axis k s).only]; rfl

theorem State.axReeval_motion (k : Ax) (s : State) (h : s.axis[k].isStopped s.tick ≠ s.axis[k].stopped) : (s.axReeval k).axis[k].evt.get 5 = true := by
  refine (State.axReeval_axis k s).seen 5 ?_
  unfold Axis.reeval
  rw [bne_iff_ne.mpr h, Sticky.raiseIf_true, Sticky.get_raise]
  exact (Bool.or_eq_true _ _).mpr (Or.inr (by decide))

/-! ### A count's consequences -/

theorem State.axMoved_followed (k : Ax) (p0 : W) (rev0 : Bool) (d : Int) (s : State) : FollowedOn k s (s.axMoved k p0 rev0 d) := by
  unfold State.axMoved
  extract_lets s1 s2 s3 c s4 s5 s6
  have h1 : FollowedOn k s s1 := by
    by_cases h : d = 0
    · simp only [s1, h, if_pos]; exact .refl k s
    · simp only [s1, if_neg h]; exact (State.reach_counted k p0 d s).followed
  have h2 : FollowedOn k s s2 := h1.when fun r => (State.dropPreds_counted k k r).followed
  have h3 : FollowedOn k s s3 := (h2.trans (State.axReeval_followed k s2)).trans (State.keepHeads_counted k k _).followed
  have h4 : FollowedOn k s s4 := h3.trans ⟨fun _ _ => rfl, .refl _⟩
  have h5 : FollowedOn k s s5 := h4.trans (CountedOn.of_keeps (State.repredict_keeps k _ s4) (by decide)).followed
  have h6 : FollowedOn k s s6 := by
    by_cases h : d = 0
    · simp only [s6, h, if_pos]; exact h5
    · simp only [s6, if_neg h]; exact h5.trans (CountedOn.of_keeps (State.tellCounters_keeps k _ s5) (by decide)).followed
  exact h6.trans (.modAxis ⟨rfl, fun _ h => h⟩)

/-- The block of an axis that takes a count, before what follows from it. -/
def Axis.counted (t fv : Nat) (d : Int) (x : Nat) (a : Axis) : Axis := (a.step t d x).rateEdge fv x d

theorem State.axCount_followed (k : Ax) (d : Int) (x : Nat) (s : State) :
    FollowedOn k (s.modAxis k (Axis.counted s.tick (s.freeBelow (2 ^ 32)) d x)) (s.axCount k d x) :=
  (CountedOn.of_keeps (State.used_keeps _) (by decide)).followed.trans (State.axMoved_followed ..)

theorem State.axCount_onlyAxis (k : Ax) (d : Int) (x : Nat) (s : State) : OnlyAxis k s (s.axCount k d x) :=
  (State.modAxis_onlyAxis k _ s).trans (State.axCount_followed k d x s).alone

theorem State.axCount_axis (k : Ax) (d : Int) (x : Nat) (s : State) :
    AxisFollowed (s.axis[k].counted s.tick (s.freeBelow (2 ^ 32)) d x) (s.axCount k d x).axis[k] := by
  have h := (State.axCount_followed k d x s).axis
  rwa [State.modAxis_axis_same] at h

/-! ### A pair formed, and a count taken, touch the speed measurement alone -/

theorem Axis.form_only (fv : Nat) (dp : Int) (x0 x1 : Nat) (a : Axis) : a.form fv dp x0 x1 = { a with spd := (a.form fv dp x0 x1).spd } := by
  unfold Axis.form
  dsimp only
  split
  · rfl
  · rfl

theorem Axis.rateEdge_only (fv x : Nat) (d : Int) (a : Axis) : a.rateEdge fv x d = { a with spd := (a.rateEdge fv x d).spd } := by
  unfold Axis.rateEdge
  dsimp only
  split
  · rfl
  · split
    · rfl
    · rw [Axis.form_only]

/-- What a count leaves and what it moves (R134): POS, the edge with its time, the recognised direction, the events and WRAP_NET; and the speed
measurement. -/
theorem Axis.counted_only (t fv : Nat) (d : Int) (x : Nat) (a : Axis) : a.counted t fv d x =
    { a with
      pos := BitVec.ofInt 32 (a.pos.toNat + d), edgeLt := x, edgePos := BitVec.ofInt 32 (a.pos.toNat + d), rev := (a.step t d x).rev
      revRun := (a.step t d x).revRun, evt := (a.step t d x).evt, wrapNet := (a.step t d x).wrapNet, spd := (a.counted t fv d x).spd } := by
  unfold Axis.counted
  rw [Axis.rateEdge_only]
  rfl

theorem Axis.counted_seen (t fv : Nat) (d : Int) (x : Nat) (a : Axis) (i : Nat) (h : a.evt.get i = true) : (a.counted t fv d x).evt.get i = true := by
  rw [Axis.counted_only]
  change (a.step t d x).evt.get i = true
  exact Sticky.get_raiseIf_of_get (Sticky.get_raiseIf_of_get (Sticky.get_raiseIf_of_get h _ _ _) _ _ _) _ _ _

end Sys2Proof.Machine
end

section
/-!
Writes of an axis block, POS_LOAD and the axis configuration statement.
-/
namespace Sys2Proof.Machine

/-! ### A write field by field (R120) -/

/-- A field of a write is refused: a change of an idle-only field while enabled, or a value it does not take. -/
def AxField.refuses (en : Bool) (old w : W) (f : AxField) : Bool := (f.idle && en && fld w f.lo f.n != fld old f.lo f.n) || !f.ok (fld w f.lo f.n)

/-- One field of a write (R120). -/
def AxField.apply (en : Bool) (old w : W) (r : W × Bool) (f : AxField) : W × Bool :=
  if f.refuses en old w then (r.1, true) else (ins r.1 f.lo f.n w, r.2)

theorem applyFields_eq (en : Bool) (old w : W) (l : List AxField) : applyFields en old w l = l.foldl (AxField.apply en old w) (old, false) := rfl

section
variable (en : Bool) (old w : W) {i : Nat} (hi : i < 32)
include hi

theorem AxField.apply_bit_out (f : AxField) (out : ¬ (f.lo ≤ i ∧ i < f.lo + f.n)) (r : W × Bool) : (f.apply en old w r).1.getLsbD i = r.1.getLsbD i := by
  unfold AxField.apply
  split
  · rfl
  · rw [getLsbD_ins _ _ _ _ hi, if_neg out]

theorem AxField.apply_bit_in (f : AxField) (inside : f.lo ≤ i ∧ i < f.lo + f.n) (r : W × Bool) :
    (f.apply en old w r).1.getLsbD i = if f.refuses en old w then r.1.getLsbD i else w.getLsbD i := by
  unfold AxField.apply
  split
  · rfl
  · rw [getLsbD_ins _ _ _ _ hi, if_pos inside]

theorem foldl_apply_bit_out : ∀ (l : List AxField) (r : W × Bool), (∀ g ∈ l, ¬ (g.lo ≤ i ∧ i < g.lo + g.n)) →
    (l.foldl (AxField.apply en old w) r).1.getLsbD i = r.1.getLsbD i
  | [], _, _ => rfl
  | g :: l, r, out => by
    rw [List.foldl_cons, foldl_apply_bit_out l _ (fun x hx => out x (List.mem_cons_of_mem g hx)), AxField.apply_bit_out en old w hi g (out g List.mem_cons_self)]

/-- A bit of a field among fields that do not overlap is taken from what is written, unless the field is refused. -/
theorem applyFields_bit (l1 l2 : List AxField) (f : AxField) (inside : f.lo ≤ i ∧ i < f.lo + f.n) (before : ∀ g ∈ l1, ¬ (g.lo ≤ i ∧ i < g.lo + g.n))
    (after : ∀ g ∈ l2, ¬ (g.lo ≤ i ∧ i < g.lo + g.n)) :
    (applyFields en old w (l1 ++ f :: l2)).1.getLsbD i = if f.refuses en old w then old.getLsbD i else w.getLsbD i := by
  rw [applyFields_eq, List.foldl_append, List.foldl_cons, foldl_apply_bit_out en old w hi l2 _ after, AxField.apply_bit_in en old w hi f inside,
    foldl_apply_bit_out en old w hi l1 _ before]

end

theorem foldl_apply_refused (en : Bool) (old w : W) : ∀ (l : List AxField) (r : W × Bool),
    (l.foldl (AxField.apply en old w) r).2 = (r.2 || l.any (AxField.refuses en old w))
  | [], r => by simp
  | f :: l, r => by
    rw [List.foldl_cons, foldl_apply_refused en old w l, List.any_cons, AxField.apply]
    cases h : f.refuses en old w <;> simp

/-- A write sets CFG_ERR where one of its fields is refused. -/
theorem applyFields_refused (en : Bool) (old w : W) (l : List AxField) : (applyFields en old w l).2 = l.any (AxField.refuses en old w) := by
  rw [applyFields_eq, foldl_apply_refused, Bool.false_or]

/-! ### AXk_CFG -/

/-- The fields MODE and FILTER, both idle only (R120). -/
def cfgMode : AxField := { lo := 1, n := 2, idle := true }
def cfgFilter : AxField := { lo := 3, n := 4, idle := true }

section
variable (en : Bool) (old w : W)

theorem axCfg_en : bit (applyFields en old w (axFields 0)).1 0 = bit w 0 :=
  (applyFields_bit en old w (by decide) [] _ { lo := 0, n := 1 } (by decide) (by decide) (by decide)).trans (if_neg (by simp [AxField.refuses]))

theorem axCfg_mode : fld (applyFields en old w (axFields 0)).1 1 2 = if cfgMode.refuses en old w then fld old 1 2 else fld w 1 2 := by
  rw [← apply_ite (fun v : W => fld v 1 2)]
  refine fld_congr fun i hi => ?_
  have at1 : (applyFields en old w (axFields 0)).1.getLsbD (i + 1) = _ :=
    applyFields_bit en old w (by omega) [_] _ cfgMode (by simp only [cfgMode]; omega) (by simp) (by simp; omega)
  rw [at1]
  split <;> rfl

theorem axCfg_filter : fld (applyFields en old w (axFields 0)).1 3 4 = if cfgFilter.refuses en old w then fld old 3 4 else fld w 3 4 := by
  rw [← apply_ite (fun v : W => fld v 3 4)]
  refine fld_congr fun i hi => ?_
  have at3 : (applyFields en old w (axFields 0)).1.getLsbD (i + 3) = _ :=
    applyFields_bit en old w (by omega) [_, _] _ cfgFilter (by simp only [cfgFilter]; omega) (by simp) (by simp; omega)
  rw [at3]
  split <;> rfl

theorem axCfg_refused_of_mode (h : cfgMode.refuses en old w = true) : (applyFields en old w (axFields 0)).2 = true := by
  rw [applyFields_refused]
  exact List.any_eq_true.mpr ⟨cfgMode, .tail _ (.head _), h⟩

theorem axCfg_refused_of_filter (h : cfgFilter.refuses en old w = true) : (applyFields en old w (axFields 0)).2 = true := by
  rw [applyFields_refused]
  exact List.any_eq_true.mpr ⟨cfgFilter, .tail _ (.tail _ (.head _)), h⟩

/-- No field of AXk_CFG refuses a value, and none is idle only while the axis is disabled. -/
theorem axCfg_disabled : (applyFields false old w (axFields 0)).2 = false := by
  rw [applyFields_refused]
  simp [axFields, AxField.refuses]

end

/-- The block of an axis whose CFG becomes v at boundary tw (R120, R139, R384). -/
def Axis.withCfg (tw : Nat) (v : W) (a : Axis) : Axis :=
  if bit v 0 && !a.en then { a with cfg := v }.enable tw else if !bit v 0 && a.en then { a with cfg := v }.disable else { a with cfg := v }

theorem Axis.withCfg_cfg (tw : Nat) (v : W) (a : Axis) : (a.withCfg tw v).cfg = v := by
  unfold Axis.withCfg
  split
  · rfl
  · split <;> rfl

theorem Axis.withCfg_pos (tw : Nat) (v : W) (a : Axis) : (a.withCfg tw v).pos = a.pos := by
  unfold Axis.withCfg
  split
  · rfl
  · split <;> rfl

theorem Axis.withCfg_err (tw : Nat) (v : W) (a : Axis) : (a.withCfg tw v).err = a.err := by
  unfold Axis.withCfg
  split
  · rfl
  · split <;> rfl

theorem Axis.withCfg_of_enable (tw : Nat) (v : W) (a : Axis) (on : bit v 0 = true) (off : bit a.cfg 0 = false) : a.withCfg tw v = { a with cfg := v }.enable tw := by
  unfold Axis.withCfg
  rw [on, show a.en = false from off]
  rfl

theorem Axis.isStopped_of_off {a : Axis} (off : bit a.cfg 0 = false) (t : Nat) : a.isStopped t = true := by
  unfold Axis.isStopped
  rw [show a.en = false from off]
  rfl

theorem Axis.isStopped_of_unformed {a : Axis} (unformed : a.spd.formed = false) (t : Nat) : a.isStopped t = true := by
  unfold Axis.isStopped
  rw [unformed, Bool.not_false, Bool.or_true, Bool.true_or, Bool.true_or]

theorem State.writeAxCfg_eq (k : Ax) (w : W) (s : State) : s.writeAxCfg k w =
    (let r := applyFields s.axis[k].en s.axis[k].cfg w (axFields 0)
     let u := s.when r.2 (State.axCfgErr k)
     (u.modAxis k (Axis.withCfg u.tw r.1)).axReeval k) := rfl

/-- A write of AXk_CFG leaves the block it makes, with STOPPED and LAGGING taken anew. -/
theorem State.writeAxCfg_axis (k : Ax) (w : W) (s : State) : OnlyAxis k s (s.writeAxCfg k w) ∧
    ∃ b : Axis, AxisCounted (b.reeval s.tick) (s.writeAxCfg k w).axis[k] ∧
      b = (if (applyFields s.axis[k].en s.axis[k].cfg w (axFields 0)).2 then s.axis[k].fail s.tick (flag 12 true) else s.axis[k]).withCfg s.tw
        (applyFields s.axis[k].en s.axis[k].cfg w (axFields 0)).1 := by
  rw [State.writeAxCfg_eq]
  generalize applyFields s.axis[k].en s.axis[k].cfg w (axFields 0) = r
  dsimp only
  have noted : ∀ b : Bool, OnlyAxis k s (s.when b (State.axCfgErr k)) ∧ (s.when b (State.axCfgErr k)).tick = s.tick ∧
      (s.when b (State.axCfgErr k)).axis[k] = if b then s.axis[k].fail s.tick (flag 12 true) else s.axis[k] := by
    intro b
    cases b
    · exact ⟨.refl k s, rfl, rfl⟩
    · exact ⟨State.modAxis_onlyAxis k _ _, rfl, State.modAxis_axis_same ..⟩
  obtain ⟨only, tick, axis⟩ := noted r.2
  generalize s.when r.2 (State.axCfgErr k) = u at only tick axis ⊢
  have put : OnlyAxis k u (u.modAxis k (Axis.withCfg u.tw r.1)) := State.modAxis_onlyAxis k _ _
  refine ⟨(only.trans put).trans (State.axReeval_followed ..).alone, _, ?_, rfl⟩
  have h := State.axReeval_axis k (u.modAxis k (Axis.withCfg u.tw r.1))
  have tick' : (u.modAxis k (Axis.withCfg u.tw r.1)).tick = s.tick := tick
  have tw : u.tw = s.tw := congrArg (· + 1) tick
  rw [State.modAxis_axis_same, axis, tick', tw] at h
  rwa [tw]

/-! ### An axis without position events -/

theorem map_ite_of_none {α : Type} {l : List α} {p : α → Bool} {f : α → α} (h : ∀ x ∈ l, p x = false) : l.map (fun x => if p x then f x else x) = l :=
  (List.map_congr_left fun x hx => if_neg (by rw [h x hx]; exact Bool.false_ne_true)).trans (List.map_id _)

section
variable {k : Ax} {s : State} (empty : ∀ x ∈ s.cal.pos, x.axis ≠ k)
include empty

theorem State.dropPreds_of_empty : s.dropPreds k = s := by
  unfold State.dropPreds
  rw [map_ite_of_none fun x hx => beq_false_of_ne (empty x hx)]

theorem State.keepHeads_of_empty : s.keepHeads k = s := by
  unfold State.keepHeads
  rw [map_ite_of_none fun x hx => by rw [beq_false_of_ne (empty x hx), Bool.false_and]]

theorem State.judgeWaiting_of_empty : s.judgeWaiting k = s := by
  have none_ : s.cal.pos.filter (fun x => x.axis == k && !x.ahead) = [] :=
    List.filter_eq_nil_iff.mpr fun x hx => by simp [empty x hx]
  unfold State.judgeWaiting
  rw [none_]
  exact State.keepHeads_of_empty empty

theorem State.axReeval_of_empty : s.axReeval k = s.modAxis k (Axis.reeval s.tick) := by
  unfold State.axReeval
  extract_lets a st s1 s2
  have same : s1 = s.modAxis k (Axis.reeval s.tick) := State.modAxis_congr rfl
  have dropped : s2 = s1 := by
    simp only [s2, State.when]
    split
    · exact State.dropPreds_of_empty (s := s1) empty
    · rfl
  rw [dropped, ← same, State.when]
  split
  · exact State.judgeWaiting_of_empty (s := s1) empty
  · rfl

end

theorem pos_ne_of_not_holds {k : Ax} {s : State} (h : axisHolds k s = false) : ∀ x ∈ s.cal.pos, x.axis ≠ k := by
  intro x hx e
  obtain ⟨list, -⟩ := Bool.or_eq_false_iff.mp h
  exact Bool.false_ne_true ((list.symm.trans (List.any_eq_true.mpr ⟨x, hx, beq_iff_eq.mpr e⟩)))

/-! ### Counters that follow an axis (R47) -/

/-- What is done to each channel of a list without repetition. -/
theorem forAll_modCh_ch {l : List Ch} (once : l.Nodup) (f : Channel → Channel) (s : State) (n : Ch) :
    (forAll l (fun m => State.modCh m f) s).ch[n] = if n ∈ l then f s.ch[n] else s.ch[n] := by
  unfold forAll
  induction l generalizing s with
  | nil => rfl
  | cons m l ih =>
    obtain ⟨notIn, once'⟩ := List.nodup_cons.mp once
    rw [List.foldl_cons, ih once']
    by_cases h : n = m
    · subst h
      rw [if_neg notIn, if_pos List.mem_cons_self, State.modCh_ch_same]
    · rw [State.modCh_ch_other s m n f h]
      simp only [List.mem_cons, h, false_or]

theorem State.tellCounters_ch (k : Ax) (m : AxMove) (s : State) (n : Ch) : (s.tellCounters k m).ch[n] =
    if s.ch[n].ctr.mode = 5 ∧ axSel s.ch[n].ctr.cfg = k then { s.ch[n] with ctr := { s.ch[n].ctr with axQ := s.ch[n].ctr.axQ ++ [m] } } else s.ch[n] := by
  unfold State.tellCounters
  refine (forAll_modCh_ch (List.Nodup.filter _ (List.nodup_finRange 128)) _ s n).trans ?_
  simp

/-! ### O28 -/

section
variable (k : Ax) (w : W) (s : State)

theorem axisCfgWrite_sets {off : Nat} {f : Axis → Axis} (h : s.writeAxis k off w = s.modAxis k f) :
    ∃ t : State, exec (.axisCfgWrite k off w) s = .next t ∧ t.axis[k] = f s.axis[k] ∧ OnlyAxis k s t ∧ Keeps [.axis] s t :=
  ⟨_, congrArg Host.Outcome.next h, State.modAxis_axis_same .., State.modAxis_onlyAxis k _ _, State.modAxis_keeps ..⟩

theorem toNat_mask31 : (w &&& 0x7FFFFFFF).toNat = w.toNat % 2 ^ 31 := by
  rw [BitVec.toNat_and]
  exact Nat.and_two_pow_sub_one_eq_mod w.toNat 31

theorem axisThresholds_spec : 
    (∃ t : State, exec (.axisCfgWrite k 0x10 w) s = .next t ∧ OnlyAxis k s t ∧ Keeps [.axis] s t ∧
      t.axis[k] = if s.axis[k].dnThr.toNat < w.toNat % 2 ^ 31 then { s.axis[k] with upThr := w &&& 0x7FFFFFFF }
        else { s.axis[k] with err := s.axis[k].err.raise s.tick 0x1000 }) ∧
    (∃ t : State, exec (.axisCfgWrite k 0x14 w) s = .next t ∧ OnlyAxis k s t ∧ Keeps [.axis] s t ∧
      t.axis[k] = if w.toNat % 2 ^ 31 < s.axis[k].upThr.toNat then { s.axis[k] with dnThr := w &&& 0x7FFFFFFF }
        else { s.axis[k] with err := s.axis[k].err.raise s.tick 0x1000 }) := by
  rw [← toNat_mask31]
  constructor
  · by_cases h : s.axis[k].dnThr.toNat < (w &&& 0x7FFFFFFF).toNat
    · obtain ⟨t, ht, axis, only, keeps⟩ := axisCfgWrite_sets k w s (off := 0x10) (if_pos h)
      exact ⟨t, ht, only, keeps, by rw [axis, if_pos h]⟩
    · obtain ⟨t, ht, axis, only, keeps⟩ := axisCfgWrite_sets k w s (off := 0x10) (if_neg h)
      exact ⟨t, ht, only, keeps, by rw [axis, if_neg h]; rfl⟩
  · by_cases h : (w &&& 0x7FFFFFFF).toNat < s.axis[k].upThr.toNat
    · obtain ⟨t, ht, axis, only, keeps⟩ := axisCfgWrite_sets k w s (off := 0x14) (if_pos h)
      exact ⟨t, ht, only, keeps, by rw [axis, if_pos h]⟩
    · obtain ⟨t, ht, axis, only, keeps⟩ := axisCfgWrite_sets k w s (off := 0x14) (if_neg h)
      exact ⟨t, ht, only, keeps, by rw [axis, if_neg h]; rfl⟩

theorem serPeriod_spec : ∃ t : State, exec (.axisCfgWrite k 0x88 w) s = .next t ∧ OnlyAxis k s t ∧ Keeps [.axis] s t ∧
    (fld w 0 24 < 400 → t.axis[k] = { s.axis[k] with err := s.axis[k].err.raise s.tick 0x1000 }) ∧
    (400 ≤ fld w 0 24 → t.axis[k] = { s.axis[k] with ser := { s.axis[k].ser with period := t.axis[k].ser.period } } ∧ fld t.axis[k].ser.period 0 24 = fld w 0 24) := by
  by_cases h : 400 ≤ fld w 0 24
  · have taken : applyFields s.axis[k].en s.axis[k].ser.period w (axFields 0x88) = (ins s.axis[k].ser.period 0 24 w, false) := by
      simp [axFields, applyFields, h]
    have eq : s.writeAxis k 0x88 w = s.modAxis k (fun a => { a with ser := { a.ser with period := ins s.axis[k].ser.period 0 24 w } }) := by
      unfold State.writeAxis
      simp only [taken, State.when_false]
    obtain ⟨t, ht, axis, only, keeps⟩ := axisCfgWrite_sets k w s eq
    refine ⟨t, ht, only, keeps, fun lt => absurd h (by omega), fun _ => ⟨by rw [axis], ?_⟩⟩
    rw [axis]
    refine fld_congr fun i hi => ?_
    rw [getLsbD_ins _ _ _ _ (by omega), if_pos (by omega)]
  · have refused : applyFields s.axis[k].en s.axis[k].ser.period w (axFields 0x88) = (s.axis[k].ser.period, true) := by
      simp [axFields, applyFields, h]
    have eq : s.writeAxis k 0x88 w = (s.axCfgErr k).modAxis k (fun a => { a with ser := { a.ser with period := s.axis[k].ser.period } }) := by
      unfold State.writeAxis
      simp only [refused, State.when_true]
    refine ⟨_, congrArg Host.Outcome.next eq, (State.modAxis_onlyAxis k _ _).trans (State.modAxis_onlyAxis k _ _),
      (State.modAxis_keeps ..).step (State.modAxis_keeps ..) (by decide), fun _ => ?_, fun ge => absurd ge h⟩
    rw [State.modAxis_axis_same, State.axCfgErr, State.modAxis_axis_same]
    rfl

theorem axCfgWrite_spec : ∃ t : State, exec (.axisCfgWrite k 0 w) s = .next t ∧ OnlyAxis k s t ∧ Keeps [.guar, .ch, .axis, .cal, .pod] s t ∧
    bit t.axis[k].cfg 0 = bit w 0 ∧ t.axis[k].pos = s.axis[k].pos ∧
    (bit s.axis[k].cfg 0 = true → fld w 1 2 ≠ fld s.axis[k].cfg 1 2 → fld t.axis[k].cfg 1 2 = fld s.axis[k].cfg 1 2 ∧ t.axis[k].err.get 12 = true) ∧
    (bit s.axis[k].cfg 0 = true → fld w 3 4 ≠ fld s.axis[k].cfg 3 4 → fld t.axis[k].cfg 3 4 = fld s.axis[k].cfg 3 4 ∧ t.axis[k].err.get 12 = true) ∧
    (bit s.axis[k].cfg 0 = false → fld t.axis[k].cfg 1 2 = fld w 1 2 ∧ fld t.axis[k].cfg 3 4 = fld w 3 4 ∧ t.axis[k].err = s.axis[k].err) ∧
    (bit w 0 = false → t.axis[k].stopped = true) ∧
    (bit w 0 = true → bit s.axis[k].cfg 0 = false → t.axis[k].ref = s.axis[k].pins ∧ t.axis[k].accQ = [] ∧ t.axis[k].spd.valid = false ∧
      t.axis[k].ser.prev = none ∧ t.axis[k].stopped = true) := by
  obtain ⟨only, b, counted, made⟩ := State.writeAxCfg_axis k w s
  generalize ht : s.writeAxCfg k w = t at only counted
  have keeps : Keeps [.guar, .ch, .axis, .cal, .pod] s t := ht ▸ State.writeAxCfg_keeps k w s
  generalize s.axis[k] = a at made ⊢
  have en := axCfg_en a.en a.cfg w
  have mode := axCfg_mode a.en a.cfg w
  have filter := axCfg_filter a.en a.cfg w
  have modeErr := axCfg_refused_of_mode a.en a.cfg w
  have filterErr := axCfg_refused_of_filter a.en a.cfg w
  have noErr : bit a.cfg 0 = false → (applyFields a.en a.cfg w (axFields 0)).2 = false := fun off => by
    rw [show a.en = false from off]; exact axCfg_disabled a.cfg w
  generalize applyFields a.en a.cfg w (axFields 0) = r at made en mode filter modeErr filterErr noErr
  have cfg : t.axis[k].cfg = r.1 := by rw [counted.only, made]; exact Axis.withCfg_cfg ..
  have err : t.axis[k].err = if r.2 then (a.fail s.tick (flag 12 true)).err else a.err := by
    rw [counted.only, made, ← apply_ite Axis.err]; exact Axis.withCfg_err ..
  have pos : t.axis[k].pos = a.pos := by
    rw [counted.only, made]
    refine (Axis.withCfg_pos ..).trans ?_
    split <;> rfl
  have raised (h : r.2 = true) : t.axis[k].err.get 12 = true := by
    rw [err, if_pos h, Axis.fail, Sticky.get_raise]
    exact (Bool.or_eq_true _ _).mpr (Or.inr (by decide))
  have stopped : t.axis[k].stopped = b.isStopped s.tick := by rw [counted.only]; rfl
  have made' (off : bit a.cfg 0 = false) : b = a.withCfg s.tw r.1 := by rw [made, noErr off]; rfl
  refine ⟨t, congrArg Host.Outcome.next ht, only, keeps, by rw [cfg, en], pos, fun on change => ?_, fun on change => ?_, fun off => ?_, fun off => ?_, fun on off => ?_⟩
  · have refused : cfgMode.refuses a.en a.cfg w = true := by
      simp [AxField.refuses, cfgMode, show a.en = true from on, change]
    exact ⟨by rw [cfg, mode, if_pos refused], raised (modeErr refused)⟩
  · have refused : cfgFilter.refuses a.en a.cfg w = true := by
      simp [AxField.refuses, cfgFilter, show a.en = true from on, change]
    exact ⟨by rw [cfg, filter, if_pos refused], raised (filterErr refused)⟩
  · have open_ (f : AxField) (any : ∀ v, f.ok v = true) : ¬ f.refuses a.en a.cfg w = true := by
      simp [AxField.refuses, show a.en = false from off, any]
    exact ⟨by rw [cfg, mode, if_neg (open_ _ fun _ => rfl)], by rw [cfg, filter, if_neg (open_ _ fun _ => rfl)], by rw [err, noErr off]; rfl⟩
  · rw [stopped]
    refine Axis.isStopped_of_off ?_ _
    rw [made, Axis.withCfg_cfg, en, off]
  · have enabled : b = { a with cfg := r.1 }.enable s.tw := by rw [made' off, Axis.withCfg_of_enable _ _ _ (en.trans on) off]
    rw [enabled] at counted stopped
    refine ⟨by rw [counted.only]; rfl, by rw [counted.only]; rfl, by rw [counted.only]; rfl, by rw [counted.only]; rfl, ?_⟩
    rw [stopped]
    exact Axis.isStopped_of_unformed rfl _

theorem posLoad_spec (free : axisHolds k s = false) : ∃ t : State, exec (.posLoad k) s = .next t ∧ OnlyAxis k s t ∧ Keeps [.ch, .axis] s t ∧
    t.axis[k].pos = s.axis[k].posLd ∧ t.axis[k].edgeLt = s.axis[k].edgeLt ∧ t.axis[k].edgePos = s.axis[k].edgePos ∧ t.axis[k].wrapNet = s.axis[k].wrapNet ∧
    t.axis[k].spd = { s.axis[k].spd with valid := false, dp := 0, dt := 0, pairs := [], edges := [] } ∧
    (∀ n : Ch, (s.ch[n].ctr.mode = 5 ∧ axSel s.ch[n].ctr.cfg = k) →
      t.ch[n] = { s.ch[n] with ctr := { s.ch[n].ctr with axQ := s.ch[n].ctr.axQ ++ [{ at_ := s.tick + 1, delta := 0, pos := s.axis[k].posLd, load := true }] } }) ∧
    (∀ n : Ch, ¬ (s.ch[n].ctr.mode = 5 ∧ axSel s.ch[n].ctr.cfg = k) → t.ch[n] = s.ch[n]) := by
  have keeps := State.loadPos_keeps k s
  have loaded : (s.loadPos k).axis[k] = { s.axis[k] with
      pos := s.axis[k].posLd, spd := { s.axis[k].spd with valid := false, dp := 0, dt := 0, pairs := [], edges := [] } } := by
    unfold State.loadPos
    have told := (State.tellCounters_keeps k { at_ := s.tick + 1, delta := 0, pos := s.axis[k].posLd, load := true } (s.modAxis k fun a => { a with
      pos := s.axis[k].posLd, spd := { a.spd with valid := false, dp := 0, dt := 0, pairs := [], edges := [] } })).2 .axis (by decide)
    dsimp only [Part.same] at told ⊢
    rw [told, State.modAxis_axis_same]
  have alone : OnlyAxis k s (s.loadPos k) :=
    (State.modAxis_onlyAxis k _ s).trans (.of_keeps (State.tellCounters_keeps ..) (by decide))
  have ch (n : Ch) : (s.loadPos k).ch[n] = _ := State.tellCounters_ch k _ _ n
  have cal : (s.loadPos k).cal = s.cal := keeps.2 .cal (by decide)
  generalize hr : s.loadPos k = r at keeps loaded alone ch cal
  have eq : s.posLoad k = r.modAxis k (Axis.reeval r.tick) := by
    unfold State.posLoad
    rw [free, if_neg Bool.false_ne_true, hr]
    exact State.axReeval_of_empty (by rw [cal]; exact pos_ne_of_not_holds free)
  refine ⟨_, congrArg Host.Outcome.next eq, alone.trans (State.modAxis_onlyAxis k _ _), keeps.step (State.modAxis_keeps ..) (by decide), ?_, ?_, ?_, ?_, ?_,
    fun n h => ?_, fun n h => ?_⟩
  · rw [State.modAxis_axis_same, loaded]; rfl
  · rw [State.modAxis_axis_same, loaded]; rfl
  · rw [State.modAxis_axis_same, loaded]; rfl
  · rw [State.modAxis_axis_same, loaded]; rfl
  · rw [State.modAxis_axis_same, loaded]; rfl
  · exact (ch n).trans (if_pos h)
  · exact (ch n).trans (if_neg h)

end

/-- Settles O28: a field that is refused stays and sets CFG_ERR; EN and POS_LOAD go through the new evaluation of STOPPED, which with no position event
on the axis touches its block alone. -/
theorem axisConfiguration : Obligations.AxisConfiguration := by
  unfold Obligations.AxisConfiguration
  intro k w s
  obtain ⟨up, down⟩ := axisThresholds_spec k w s
  refine ⟨axisCfgWrite_sets k w s (off := 0x24) (f := fun a => { a with posLd := w }) rfl, axisCfgWrite_sets k w s (off := 0x98) (f := fun a => { a with ser := { a.ser with lat := w &&& 0xFFFF } }) rfl,
    axisCfgWrite_sets k w s (off := 0x54) (f := fun a => { a with err := a.err.w1c s.tick w }) rfl, serPeriod_spec k w s,
    up, down, axCfgWrite_spec k w s, ⟨_, rfl, State.modAxis_axis_same .., State.modAxis_onlyAxis k _ _, State.modAxis_keeps ..⟩, fun holds => ?_, posLoad_spec k s⟩
  have eq : s.posLoad k = s.modAxis k (fun a => a.fail s.tick (flag 11 true)) := if_pos holds
  exact ⟨_, congrArg Host.Outcome.next eq, State.modAxis_axis_same .., State.modAxis_onlyAxis k _ _, State.modAxis_keeps ..⟩

end Sys2Proof.Machine
end

section
/-!
What a commit does to the position events, and the speed of an axis: STOPPED, LAGGING, the count window and the read of SPEED.
-/
namespace Sys2Proof.Machine

/-! ### The lists of position events -/

theorem State.unlist_pos (o : Nat) (s : State) : (s.unlist o).cal.pos = s.cal.pos.filter (fun x => x.ev.ord != o) := rfl

theorem State.markAmbig_pos (e : Ev) (s : State) : (s.markAmbig e).1.cal.pos = s.cal.pos := by
  unfold State.markAmbig
  dsimp only
  split
  · rfl
  · rfl

theorem State.toCommits_pos (o : Nat) (e : Ev) (s : State) : (s.toCommits o e).cal.pos = s.cal.pos.filter (fun x => x.ev.ord != o) := by
  unfold State.toCommits
  extract_lets r
  generalize hu : State.freeSlots 1 _ = u
  have drained : (u.drainIf (podOf e.rec_.ch) r.2).cal = u.cal := (State.drainIf_keeps (podOf e.rec_.ch) r.2 u).2 .cal (by decide)
  have kept : u.cal.pos = r.1.cal.pos := by rw [← hu]; rfl
  rw [drained, kept]
  exact (State.markAmbig_pos e _).trans (State.unlist_pos o s)

/-- A commit takes its event off the axis lists, and leaves the others (R164, R173). -/
theorem State.commitPos_pos (k : Ax) (e : Ev) (ball adv reason : Nat) (s : State) :
    (s.commitPos k e ball adv reason).cal.pos = s.cal.pos.filter (fun x => x.ev.ord != e.ord) := by
  obtain ⟨r, -, keeps, eq⟩ := State.commitPos_split k e ball adv reason s
  rw [eq, State.toCommits_pos, show r.cal = s.cal from keeps.2 .cal (by decide)]

theorem State.losePos_pos (e : Ev) (reason lt : Nat) (s : State) : (s.losePos e reason lt).cal.pos = s.cal.pos.filter (fun x => x.ev.ord != e.ord) := rfl

/-! ### Heads without a prediction (R147) -/

/-- No position event of axis k has a prediction. -/
def NoPreds (k : Ax) (s : State) : Prop := ∀ x ∈ s.cal.pos, x.axis = k → x.pred = none ∧ x.soon = []

theorem NoPreds.of_subset {k : Ax} {s t : State} (h : NoPreds k s) (sub : ∀ x ∈ t.cal.pos, x ∈ s.cal.pos) : NoPreds k t := fun x hx => h x (sub x hx)

theorem NoPreds.of_pos_eq {k : Ax} {s t : State} (h : NoPreds k s) (eq : t.cal.pos = s.cal.pos) : NoPreds k t := h.of_subset fun _ hx => eq ▸ hx

theorem NoPreds.of_filter {k : Ax} {s t : State} {p : PosEv → Bool} (h : NoPreds k s) (eq : t.cal.pos = s.cal.pos.filter p) : NoPreds k t :=
  h.of_subset fun _ hx => List.mem_of_mem_filter (eq ▸ hx)

theorem NoPreds.of_map {k : Ax} {s t : State} {f : PosEv → PosEv} (h : NoPreds k s) (eq : t.cal.pos = s.cal.pos.map f)
    (same : ∀ x, (f x).axis = x.axis) (none_ : ∀ x, x.pred = none ∧ x.soon = [] → (f x).pred = none ∧ (f x).soon = []) : NoPreds k t := by
  intro y hy hk
  rw [eq] at hy
  obtain ⟨x, hx, rfl⟩ := List.mem_map.mp hy
  exact none_ x (h x hx ((same x).symm.trans hk))

theorem State.dropPreds_noPreds (k : Ax) (s : State) : NoPreds k (s.dropPreds k) := by
  intro y hy hk
  obtain ⟨x, -, rfl⟩ := List.mem_map.mp (show y ∈ s.cal.pos.map _ from hy)
  split
  · exact ⟨rfl, rfl⟩
  · next no => rw [if_neg no] at hk; exact absurd (beq_iff_eq.mpr hk) no

theorem NoPreds.keepHeads {k : Ax} {s : State} (j : Ax) (h : NoPreds k s) : NoPreds k (s.keepHeads j) := by
  refine h.of_map rfl (fun x => ?_) fun x hx => ?_
  · split <;> rfl
  · split
    · exact ⟨rfl, rfl⟩
    · exact hx

theorem NoPreds.posBehind {k : Ax} {s : State} (h : NoPreds k s) (j : Ax) (e : Ev) : NoPreds k (s.posBehind j e) := by
  unfold State.posBehind
  extract_lets r
  split
  · split
    · exact h.of_filter (State.losePos_pos ..)
    · exact h.of_filter (State.commitPos_pos ..)
  · exact h.of_filter (State.losePos_pos ..)

theorem NoPreds.judgeWaiting {k : Ax} {s : State} (h : NoPreds k s) (j : Ax) : NoPreds k (s.judgeWaiting j) := by
  unfold State.judgeWaiting
  refine NoPreds.keepHeads j (forAll_induction (P := NoPreds k) (fun x _ r hr => ?_) h)
  dsimp only
  split
  · refine hr.of_map rfl (fun y => ?_) fun y hy => ?_
    · split <;> rfl
    · split <;> exact hy
  · exact hr.of_filter (State.losePos_pos ..)
  · exact hr.posBehind j x.ev

theorem State.axReeval_noPreds (k : Ax) (s : State) (held : s.axis[k].held s.tick = true) : NoPreds k (s.axReeval k) := by
  unfold State.axReeval
  extract_lets a st s1 s2
  have dropped : NoPreds k s2 := by
    simp only [s2, show a.held s.tick = true from held, State.when_true]
    exact State.dropPreds_noPreds k s1
  unfold State.when
  split
  · exact dropped.judgeWaiting k
  · exact dropped

/-! ### The count window (R136, R137) -/

theorem Axis.setMethod_only (t : Nat) (cnt : Bool) (a : Axis) : a.setMethod t cnt = { a with spd := (a.setMethod t cnt).spd, evt := (a.setMethod t cnt).evt } := by
  unfold Axis.setMethod
  split <;> rfl

theorem Axis.form_of_pair {fv : Nat} {dp : Int} {x0 x1 : Nat} (a : Axis) (moves : dp ≠ 0) (later : x0 < x1) (fits : x1 - x0 < 2 ^ 32) :
    (a.form fv dp x0 x1).spd.dp = dp ∧ (a.form fv dp x0 x1).spd.dt = x1 - x0 ∧ (a.form fv dp x0 x1).spd.valid = true ∧
      (a.form fv dp x0 x1).spd.speed = sat31 (roundAway (dp * spdK) (x1 - x0)) ∧ (a.form fv dp x0 x1).spd.winLast = a.spd.winLast := by
  unfold Axis.form
  dsimp only
  rw [if_neg (by omega)]
  exact ⟨rfl, rfl, rfl, rfl, rfl⟩

/-- The pair of a count window that has ended. -/
def Axis.windowPair (fv : Nat) (a : Axis) : Axis :=
  match a.spd.cntMode && decide (a.mode = 0), a.spd.winLast, a.spd.before with
  | true, some x1, some x0 => a.form fv a.spd.winNet x0 x1
  | _, _, _ => a

/-- The method that automatic selection takes at the end of a count window. -/
def Axis.windowMethod (t : Nat) (a : Axis) : Axis :=
  if a.mode = 0 ∧ a.spdMode = 0 then
    if !a.spd.cntMode && decide (a.upThr.toNat < a.spd.speed.natAbs) then a.setMethod t true
    else if a.spd.cntMode && (a.spd.winLast.isNone || decide (a.spd.speed.natAbs < a.dnThr.toNat)) then a.setMethod t false
    else a
  else a

/-- A pair that is new is told as a sample. -/
def Axis.windowSample (t : Nat) (p0 : List RatePair) (a : Axis) : Axis := if a.spd.pairs != p0 then a.happen t evSample else a

/-- The block of an axis whose count window ends at tb. -/
def Axis.window (t fv tb : Nat) (a : Axis) : Axis :=
  let a2 := (a.windowPair fv).windowSample t a.spd.pairs
  let a3 := a2.windowMethod t
  { a3 with spd := { a3.spd with
      before := if a2.spd.winLast.isNone then a3.spd.before else a3.spd.winLast
      winNet := 0, winLast := none, winAt := tb, avg := fld a3.spdCfg 0 3, gate := fld a3.spdCfg 16 16 } }

theorem Axis.windowPair_only (fv : Nat) (a : Axis) : a.windowPair fv = { a with spd := (a.windowPair fv).spd } := by
  unfold Axis.windowPair
  split
  · rw [Axis.form_only]
  · rfl

theorem Axis.windowSample_only (t : Nat) (p0 : List RatePair) (a : Axis) : a.windowSample t p0 = { a with evt := (a.windowSample t p0).evt } := by
  unfold Axis.windowSample
  split <;> rfl

theorem Axis.windowMethod_only (t : Nat) (a : Axis) : a.windowMethod t = { a with spd := (a.windowMethod t).spd, evt := (a.windowMethod t).evt } := by
  unfold Axis.windowMethod
  split
  · split
    · rw [Axis.setMethod_only]
    · split
      · rw [Axis.setMethod_only]
      · rfl
  · rfl

/-- The end of a count window touches the speed measurement and the events alone. -/
theorem Axis.window_only (t fv tb : Nat) (a : Axis) : a.window t fv tb = { a with spd := (a.window t fv tb).spd, evt := (a.window t fv tb).evt } := by
  unfold Axis.window
  dsimp only
  rw [Axis.windowMethod_only, Axis.windowSample_only, Axis.windowPair_only]

theorem Axis.window_times (t fv tb : Nat) (a : Axis) : (a.window t fv tb).spd.winAt = tb ∧ (a.window t fv tb).spd.winNet = 0 ∧
    (a.window t fv tb).spd.winLast = none ∧ (a.window t fv tb).spd.avg = fld a.spdCfg 0 3 ∧ (a.window t fv tb).spd.gate = fld a.spdCfg 16 16 := by
  have cfg : (((a.windowPair fv).windowSample t a.spd.pairs).windowMethod t).spdCfg = a.spdCfg := by
    rw [Axis.windowMethod_only, Axis.windowSample_only, Axis.windowPair_only]
  exact ⟨rfl, rfl, rfl, congrArg (fun w => fld w 0 3) cfg, congrArg (fun w => fld w 16 16) cfg⟩

/-- The pair of the count method of SPD_MODE 2. -/
theorem Axis.window_pair (t fv tb : Nat) {a : Axis} {x0 x1 : Nat} (quad : a.mode = 0) (count : fld a.spdCfg 3 2 = 2) (on : a.spd.cntMode = true)
    (last : a.spd.winLast = some x1) (before : a.spd.before = some x0) (later : x0 < x1) (fits : x1 - x0 < 2 ^ 32) (moves : a.spd.winNet ≠ 0) :
    (a.window t fv tb).spd.dp = a.spd.winNet ∧ (a.window t fv tb).spd.dt = x1 - x0 ∧ (a.window t fv tb).spd.valid = true ∧
      (a.window t fv tb).spd.before = some x1 ∧ (a.window t fv tb).spd.speed = sat31 (roundAway (a.spd.winNet * spdK) (x1 - x0)) := by
  have pair : a.windowPair fv = a.form fv a.spd.winNet x0 x1 := by
    unfold Axis.windowPair
    rw [on, quad, last, before]
    rfl
  obtain ⟨dp, dt, valid, speed, kept⟩ := Axis.form_of_pair (fv := fv) a moves later fits
  have method (b : Axis) (hb : b.spdCfg = a.spdCfg) : b.windowMethod t = b := by
    unfold Axis.windowMethod
    exact if_neg fun h => absurd h.2 (by rw [Axis.spdMode, hb, count]; decide)
  have spd : ((a.windowPair fv).windowSample t a.spd.pairs).windowMethod t = (a.form fv a.spd.winNet x0 x1).windowSample t a.spd.pairs := by
    rw [method _ (by rw [Axis.windowSample_only, Axis.windowPair_only]), pair]
  have sample : ((a.form fv a.spd.winNet x0 x1).windowSample t a.spd.pairs).spd = (a.form fv a.spd.winNet x0 x1).spd := by rw [Axis.windowSample_only]
  unfold Axis.window
  dsimp only
  rw [spd, pair, sample, kept, last]
  exact ⟨dp, dt, valid, rfl, speed⟩

/-! ### O30 -/

theorem Axis.isStopped_iff (t : Nat) (a : Axis) : a.isStopped t = true ↔
    a.en = false ∨ a.spd.formed = false ∨ a.spd.speed.natAbs < a.stopSpd.toNat ∨ 3276800000 < a.stopSpd.toNat * (t * 32 - a.edgeLt) := by
  simp only [Axis.isStopped, Bool.or_eq_true, Bool.not_eq_true', decide_eq_true_eq, or_assoc]
  rfl

theorem Axis.isLagging_iff (t : Nat) (a : Axis) : a.isLagging t = true ↔
    a.en = true ∧ a.spd.formed = true ∧ a.spd.dp ≠ 0 ∧ a.lagLim * a.spd.dt < (t * 32 - a.edgeLt) * a.spd.dp.natAbs := by
  simp only [Axis.isLagging, Bool.and_eq_true, bne_iff_ne, decide_eq_true_eq, and_assoc]
  rfl

/-- STOPPED and LAGGING taken anew. -/
theorem State.axReeval_judged (k : Ax) (s : State) : let a := s.axis[k]; let t := s.axReeval k
    (t.axis[k].stopped = true ↔ a.isStopped s.tick = true) ∧ (t.axis[k].lagging = true ↔ a.isLagging s.tick = true) ∧
      (t.axis[k].stopped ≠ a.stopped → t.axis[k].evt.get 5 = true) ∧ t.axis[k].pos = a.pos ∧ OnlyAxis k s t ∧ Keeps [.guar, .ch, .axis, .cal, .pod] s t ∧
      (a.isStopped s.tick = true ∨ a.isLagging s.tick = true → NoPreds k t) ∧ t.axis[k].spd = a.spd := by
  dsimp only
  rw [State.axReeval_stopped, State.axReeval_lagging]
  refine ⟨.rfl, .rfl, State.axReeval_motion k s, ?_, (State.axReeval_followed k s).alone, State.axReeval_keeps k s, fun h => State.axReeval_noPreds k s ?_, ?_⟩
  · rw [(State.axReeval_followed k s).axis.only]
  · unfold Axis.held
    rw [(Bool.or_eq_true _ _).mpr h, Bool.true_or]
  · rw [(State.axReeval_followed k s).axis.only]

theorem countWindowEnd_spec (k : Ax) (s : State) (tb : Nat) (htb : tb = (s.tick - (s.axis[k].filterTicks + 2)) / max 1 s.axis[k].spd.gate * s.axis[k].spd.gate)
    (on : s.axis[k].en = true) (ended : s.axis[k].spd.winAt < tb) : ∃ t : State, exec (.countWindowEnd k) s = .next t ∧ OnlyAxis k s t ∧
      Keeps [.guar, .ch, .axis, .cal, .pod, .free] s t ∧ AxisFollowed (s.axis[k].window s.tick (s.freeBelow (2 ^ 32)) tb) t.axis[k] := by
  have eq : s.windowEnd k = ((s.modAxis k (Axis.window s.tick (s.freeBelow (2 ^ 32)) tb)).used).axReeval k := by
    unfold State.windowEnd
    dsimp only
    rw [← htb, on, decide_eq_false (by omega : ¬ tb ≤ s.axis[k].spd.winAt), if_neg (by decide)]
    rfl
  have used := State.used_keeps (s.modAxis k (Axis.window s.tick (s.freeBelow (2 ^ 32)) tb))
  refine ⟨_, congrArg Host.Outcome.next eq, ((State.modAxis_onlyAxis k _ s).trans (.of_keeps used (by decide))).trans (State.axReeval_followed ..).alone, ?_, ?_⟩
  · exact (((State.modAxis_keeps k _ s).mono (by decide)).step used (by decide)).step (State.axReeval_keeps ..) (by decide)
  · have followed := (State.axReeval_followed k (s.modAxis k (Axis.window s.tick (s.freeBelow (2 ^ 32)) tb)).used).axis
    rwa [used.2 .axis (by decide), State.modAxis_axis_same] at followed

/-- What a read of SPEED latches for a master (R138). -/
def Axis.latchSpeed (m : Master) (a : Axis) : Axis :=
  { a with latch := a.latch.set m.idx.val { a.latch[m.idx] with accel := a.spd.accel, dp := a.spd.dp, dt := a.spd.dt } }

theorem State.speedRead_eq (m : Master) (k : Ax) (s : State) : s.speedRead m k = (s.modAxis k (Axis.latchSpeed m)).ret m (ofInt s.axis[k].spd.speed) := rfl

/-- A read of SPEED (R138). -/
theorem State.speedRead_spec (m : Master) (k : Ax) (s : State) : let a := s.axis[k]; let t := s.speedRead m k
    t.master[m.idx] = { s.master[m.idx] with rdata := BitVec.ofInt 32 a.spd.speed } ∧ OnlyMaster m s t ∧ OnlyAxis k s t ∧
      t.axis[k] = { a with latch := t.axis[k].latch } ∧
      t.axis[k].latch[m.idx] = { a.latch[m.idx] with accel := a.spd.accel, dp := a.spd.dp, dt := a.spd.dt } ∧
      (∀ i : Fin 8, i ≠ m.idx → t.axis[k].latch[i] = a.latch[i]) ∧ Keeps [.master, .axis] s t := by
  have axis : (s.speedRead m k).axis[k] = s.axis[k].latchSpeed m := State.modAxis_axis_same s k (Axis.latchSpeed m)
  have only : OnlyAxis k s (s.speedRead m k) := State.modAxis_onlyAxis k (Axis.latchSpeed m) s
  dsimp only
  rw [axis]
  refine ⟨State.modMaster_master_same .., State.modMaster_onlyMaster m _ _, only, rfl, ?_, fun i hi => ?_, ?_⟩
  · exact Vector.getElem_set_self _
  · exact Vector.getElem_set_ne m.idx.isLt i.isLt (fun e => hi (Fin.ext e.symm))
  · exact ((State.modAxis_keeps k (Axis.latchSpeed m) s).mono (by decide)).step (State.ret_keeps m _ _) (by decide)

/-- Settles O30: one new evaluation stands behind STOPPED, LAGGING and the end of a window, and it only takes predictions away. -/
theorem axisSpeed : Obligations.AxisSpeed := by
  unfold Obligations.AxisSpeed
  intro k s
  dsimp only
  simp only [← Axis.isStopped_iff, ← Axis.isLagging_iff]
  obtain ⟨stopped, lagging, motion, pos, only, keeps, preds, spd⟩ := State.axReeval_judged k s
  refine ⟨⟨_, rfl, ⟨stopped, lagging, motion, pos, only, keeps, preds⟩, spd⟩, ⟨_, rfl, ⟨stopped, lagging, motion, pos, only, keeps, preds⟩, spd⟩,
    ⟨fun h => ?_, fun on ended => ?_⟩, fun m hs => ?_⟩
  · have idle : s.windowEnd k = s := by
      unfold State.windowEnd
      dsimp only
      refine if_pos ?_
      rcases h with off | early
      · rw [off]; rfl
      · rw [decide_eq_true early, Bool.or_true]
    exact congrArg Host.Outcome.next idle
  · obtain ⟨t, ht, only, keeps, followed⟩ := countWindowEnd_spec k s _ rfl on ended
    generalize (s.tick - (s.axis[k].filterTicks + 2)) / max 1 s.axis[k].spd.gate * s.axis[k].spd.gate = tb at followed ended ⊢
    have spd : t.axis[k].spd = (s.axis[k].window s.tick (s.freeBelow (2 ^ 32)) tb).spd := by rw [followed.only]
    obtain ⟨winAt, winNet, winLast, avg, gate⟩ := Axis.window_times s.tick (s.freeBelow (2 ^ 32)) tb s.axis[k]
    refine ⟨t, ht, only, keeps, spd ▸ winAt, spd ▸ winNet, spd ▸ winLast, spd ▸ avg, spd ▸ gate, ?_, ?_, fun x0 x1 quad count mode last before later fits moves => ?_⟩
    · rw [followed.only, Axis.window_only]
    · rw [followed.only, Axis.window_only]
    · rw [spd]
      exact Axis.window_pair _ _ _ quad count mode last before later fits moves
  · refine ⟨_, exec_served rfl hs, ?_⟩
    have h := State.speedRead_spec m k (found m s)
    dsimp only at h
    rw [found_axis, found_master] at h
    obtain ⟨rdata, master, only, axis, latch, others, keeps⟩ := h
    exact ⟨rdata, fun i hi => by rw [master i hi, found_master], fun j hj => by rw [only j hj, found_axis], axis, latch, others, keeps⟩

end Sys2Proof.Machine
end

section
/-!
Axis pins, decoded edges, Hall states and the index (R121 to R128).
-/
namespace Sys2Proof.Machine

/-! ### Three lines -/

theorem getLsbD_set3 (v : BitVec 3) (l : Bool) (p q : AxPin) : (set3 v p.idx l).getLsbD q.idx = if q = p then l else v.getLsbD q.idx := by
  revert v
  cases l <;> cases p <;> cases q <;> decide

theorem set3_pin_ne {v : BitVec 3} {l : Bool} {p : AxPin} (flips : v.getLsbD p.idx ≠ l) : set3 v p.idx l ≠ v := by
  intro e
  have h := getLsbD_set3 v l p p
  rw [e, if_pos rfl] at h
  exact flips h

/-- A line whose level differs after one of them is set is the one that was set. -/
theorem set3_ne {v : BitVec 3} {l : Bool} {p : AxPin} (moves : set3 v p.idx l ≠ v) : v.getLsbD p.idx ≠ l := by
  revert v
  cases l <;> cases p <;> decide

/-! ### One edge alone, and two in one tick -/

theorem firstSample_single {p : AxPin} {l : Bool} {x : Nat} {rest : List (AxPin × Bool × Nat)} (later : ∀ e ∈ rest, e.2.2 / 32 ≠ x / 32) :
    firstSample ((p, l, x) :: rest) = ([(p, l, x)], rest) := by
  have none_ : rest.filter (fun e => e.2.2 / 32 == x / 32) = [] := List.filter_eq_nil_iff.mpr fun e he => by simpa using later e he
  have all : rest.filter (fun e => e.2.2 / 32 != x / 32) = rest := List.filter_eq_self.mpr fun e he => by simpa using later e he
  simp [firstSample, none_, all]

theorem firstSample_pair {e f : AxPin × Bool × Nat} (same : e.2.2 / 32 = f.2.2 / 32) : firstSample [e, f] = ([e, f], []) := by
  simp [firstSample, same]

/-! ### What a decoder leaves -/

/-- The decoder has worked on axis k: its pins, its configuration and the edges that wait are as before, and so is every other axis. -/
structure DecodedOn (k : Ax) (s t : State) : Prop where
  alone : OnlyAxis k s t
  pins : t.axis[k].pins = s.axis[k].pins
  cfg : t.axis[k].cfg = s.axis[k].cfg
  accQ : t.axis[k].accQ = s.axis[k].accQ

theorem DecodedOn.refl (k : Ax) (s : State) : DecodedOn k s s := ⟨.refl k s, rfl, rfl, rfl⟩

theorem DecodedOn.trans {k : Ax} {s t u : State} (h : DecodedOn k s t) (j : DecodedOn k t u) : DecodedOn k s u :=
  ⟨h.alone.trans j.alone, j.pins.trans h.pins, j.cfg.trans h.cfg, j.accQ.trans h.accQ⟩

theorem FollowedOn.decoded {k : Ax} {s t : State} (h : FollowedOn k s t) : DecodedOn k s t :=
  ⟨h.alone, by rw [h.axis.only], by rw [h.axis.only], by rw [h.axis.only]⟩

theorem DecodedOn.modAxis {k : Ax} {f : Axis → Axis} {s : State} (pins : (f s.axis[k]).pins = s.axis[k].pins) (cfg : (f s.axis[k]).cfg = s.axis[k].cfg)
    (accQ : (f s.axis[k]).accQ = s.axis[k].accQ) : DecodedOn k s (s.modAxis k f) :=
  ⟨State.modAxis_onlyAxis k f s, by rw [State.modAxis_axis_same, pins], by rw [State.modAxis_axis_same, cfg], by rw [State.modAxis_axis_same, accQ]⟩

theorem State.axCount_decoded (k : Ax) (d : Int) (x : Nat) (s : State) : DecodedOn k s (s.axCount k d x) := by
  refine DecodedOn.trans (.modAxis ?_ ?_ ?_) (State.axCount_followed k d x s).decoded
  · rw [Axis.counted_only]
  · rw [Axis.counted_only]
  · rw [Axis.counted_only]

/-- The block of an axis whose POS takes POS_LD (R127). -/
def Axis.loaded (a : Axis) : Axis :=
  { a with pos := a.posLd, spd := { a.spd with valid := false, dp := 0, dt := 0, pairs := [], edges := [] } }

theorem State.loadPos_onlyAxis (k : Ax) (s : State) : OnlyAxis k s (s.loadPos k) :=
  (State.modAxis_onlyAxis k Axis.loaded s).trans (.of_keeps (State.tellCounters_keeps ..) (by decide))

theorem State.loadPos_axis (k : Ax) (s : State) : (s.loadPos k).axis[k] = s.axis[k].loaded := by
  have told := (State.tellCounters_keeps k { at_ := s.tick + 1, delta := 0, pos := s.axis[k].posLd, load := true } (s.modAxis k Axis.loaded)).2 .axis (by decide)
  have eq : s.loadPos k = (s.modAxis k Axis.loaded).tellCounters k { at_ := s.tick + 1, delta := 0, pos := s.axis[k].posLd, load := true } := by
    unfold State.loadPos
    exact congrArg (State.tellCounters k _) (State.modAxis_congr rfl)
  dsimp only [Part.same] at told
  rw [eq, told, State.modAxis_axis_same]

theorem State.loadPos_decoded (k : Ax) (s : State) : DecodedOn k s (s.loadPos k) :=
  ⟨State.loadPos_onlyAxis k s, by rw [State.loadPos_axis]; rfl, by rw [State.loadPos_axis]; rfl, by rw [State.loadPos_axis]; rfl⟩

theorem State.quadSample_decoded (k : Ax) (es : List (AxPin × Bool × Nat)) (s : State) : DecodedOn k s (s.quadSample k es) := by
  unfold State.quadSample
  extract_lets a new chA chB t fast ill x r
  split
  · exact .modAxis rfl rfl rfl
  · have noted : DecodedOn k s r := by
      refine .modAxis ?_ ?_ ?_
      all_goals dsimp only; split <;> split <;> rfl
    split
    · exact noted
    · exact noted.trans (State.axCount_decoded ..)

theorem State.indexSample_decoded (k : Ax) (p0 : W) (es : List (AxPin × Bool × Nat)) (s : State) : DecodedOn k s (s.indexSample k p0 es) := by
  unfold State.indexSample
  extract_lets a zm
  split
  · exact .refl k s
  · next e _ =>
    split
    · exact .refl k s
    · extract_lets r
      have taken : DecodedOn k s r := .modAxis rfl rfl rfl
      split
      · split
        · exact taken.trans (.modAxis rfl rfl rfl)
        · exact ((taken.trans (State.loadPos_decoded k r)).trans (.modAxis rfl rfl rfl)).trans (State.axReeval_followed ..).decoded
      · exact taken

theorem State.hallSample_decoded (k : Ax) (es : List (AxPin × Bool × Nat)) (s : State) : DecodedOn k s (s.hallSample k es) := by
  unfold State.hallSample
  extract_lets a new t x fast hallErr r
  split
  · exact .refl k s
  · have noted : DecodedOn k s r := by
      refine .modAxis ?_ ?_ ?_
      all_goals dsimp only; split <;> rfl
    split
    · exact noted.trans (.modAxis rfl rfl rfl)
    · next h _ =>
      extract_lets r1
      have sector : DecodedOn k s r1 := noted.trans (.modAxis rfl rfl rfl)
      split
      · exact sector
      · extract_lets d
        split
        · exact sector
        · split
          · exact sector.trans (State.axCount_decoded ..)
          · split
            · exact sector.trans (State.axCount_decoded ..)
            · exact sector.trans (.modAxis rfl rfl rfl)

/-! ### Samples of the decoders -/

theorem Axis.dirOf_eq (a : Axis) (up : Bool) : a.dirOf (if up then 1 else -1) = if up != bit a.cfg 12 then 1 else -1 := by
  unfold Axis.dirOf
  cases up <;> cases bit a.cfg 12 <;> rfl

theorem edgeTime_single {i x : Nat} {p : AxPin} {l : Bool} {new : BitVec 3} (line : p.idx = i) (level : new.getLsbD i = l) : edgeTime i new [(p, l, x)] = x := by
  subst line level
  simp [edgeTime]

/-- The block of an axis whose decoder has taken an edge of one line. -/
def Axis.sampled (new : BitVec 3) (t : Nat) (a : Axis) : Axis := { a with ref := new, lastTick := some t }

/-- The same, with what an illegal transition is told by (R124). -/
def Axis.sampledAll (tick : Nat) (new : BitVec 3) (t : Nat) (ill : Bool) (a : Axis) : Axis :=
  if ill && bit a.cfg 7 then { a.sampled new t with err := a.err.raise tick 0x201, illegal := a.illegal.bump tick 1 255 } else a.sampled new t

/-- The same, with a fast edge noted (R125). -/
def Axis.quadTaken (tick : Nat) (new : BitVec 3) (t : Nat) (ill fast : Bool) (a : Axis) : Axis :=
  if fast then (a.sampledAll tick new t ill).noteFast tick else a.sampledAll tick new t ill

/-- A sample of the quadrature decoder with the state it ends in, its tick, its time, which of A and B changed and whether it is fast (R123 to R125). -/
def State.quadStep (k : Ax) (new : BitVec 3) (t x : Nat) (chA chB fast : Bool) (s : State) : State :=
  let r := s.modAxis k (Axis.quadTaken s.tick new t (chA && chB) fast)
  if !chA && !chB then s.modAxis k (fun a => { a with ref := new })
  else if (chA && chB) || fast then r
  else r.axCount k (s.axis[k].dirOf (if (quadIdx new + 4 - quadIdx s.axis[k].ref) % 4 = 1 then 1 else -1)) x

theorem State.quadSample_eq (k : Ax) (e : AxPin × Bool × Nat) (es : List (AxPin × Bool × Nat)) (s : State) : s.quadSample k (e :: es) =
    s.quadStep k (applyEdges s.axis[k].ref (e :: es)) (e.2.2 / 32)
      (if (applyEdges s.axis[k].ref (e :: es)).getLsbD 0 != s.axis[k].ref.getLsbD 0 then edgeTime 0 (applyEdges s.axis[k].ref (e :: es)) (e :: es)
        else edgeTime 1 (applyEdges s.axis[k].ref (e :: es)) (e :: es))
      ((applyEdges s.axis[k].ref (e :: es)).getLsbD 0 != s.axis[k].ref.getLsbD 0) ((applyEdges s.axis[k].ref (e :: es)).getLsbD 1 != s.axis[k].ref.getLsbD 1)
      (s.axis[k].fastEdge (e.2.2 / 32)) := rfl

section
variable {k : Ax} {s : State} {p : AxPin} {l : Bool} {x : Nat}

/-- An edge of A or of B alone (R123, R125). -/
theorem State.quadSample_single (line : p ≠ .z) (flips : s.axis[k].ref.getLsbD p.idx ≠ l) : s.quadSample k [(p, l, x)] =
    if s.axis[k].fastEdge (x / 32) = true then s.modAxis k (fun a => (a.sampled (set3 s.axis[k].ref p.idx l) (x / 32)).noteFast s.tick)
    else (s.modAxis k (Axis.sampled (set3 s.axis[k].ref p.idx l) (x / 32))).axCount k
      (s.axis[k].dirOf (if (quadIdx (set3 s.axis[k].ref p.idx l) + 4 - quadIdx s.axis[k].ref) % 4 = 1 then 1 else -1)) x := by
  have bits (q : AxPin) := getLsbD_set3 s.axis[k].ref l p q
  have new : applyEdges s.axis[k].ref [(p, l, x)] = set3 s.axis[k].ref p.idx l := rfl
  rw [State.quadSample_eq, new]
  generalize set3 s.axis[k].ref p.idx l = v at bits ⊢
  have taken (fast : Bool) : s.modAxis k (Axis.quadTaken s.tick v (x / 32) false fast) =
      s.modAxis k (fun a => if fast then (a.sampled v (x / 32)).noteFast s.tick else a.sampled v (x / 32)) := rfl
  cases p with
  | z => exact absurd rfl line
  | a =>
    have at0 : v.getLsbD 0 = l := bits .a
    have chA : (v.getLsbD 0 != s.axis[k].ref.getLsbD 0) = true := bne_iff_ne.mpr fun e => flips (e.symm.trans at0)
    have chB : (v.getLsbD 1 != s.axis[k].ref.getLsbD 1) = false := bne_eq_false_iff_eq.mpr (bits .b)
    rw [chA, chB, if_pos rfl, edgeTime_single (i := 0) (p := .a) rfl at0, State.quadStep, Bool.and_false, taken]
    cases s.axis[k].fastEdge (x / 32) <;> rfl
  | b =>
    have at1 : v.getLsbD 1 = l := bits .b
    have chA : (v.getLsbD 0 != s.axis[k].ref.getLsbD 0) = false := bne_eq_false_iff_eq.mpr (bits .a)
    have chB : (v.getLsbD 1 != s.axis[k].ref.getLsbD 1) = true := bne_iff_ne.mpr fun e => flips (e.symm.trans at1)
    rw [chA, chB, if_neg Bool.false_ne_true, edgeTime_single (i := 1) (p := .b) rfl at1, State.quadStep, Bool.false_and, taken]
    cases s.axis[k].fastEdge (x / 32) <;> rfl

/-- An edge of the index line moves neither A nor B. -/
theorem State.quadSample_index : s.quadSample k [(.z, l, x)] = s.modAxis k (fun a => { a with ref := set3 s.axis[k].ref 2 l }) := by
  have at0 := getLsbD_set3 s.axis[k].ref l .z .a
  have at1 := getLsbD_set3 s.axis[k].ref l .z .b
  have new : applyEdges s.axis[k].ref [(.z, l, x)] = set3 s.axis[k].ref 2 l := rfl
  rw [State.quadSample_eq, new, bne_eq_false_iff_eq.mpr (show (set3 s.axis[k].ref 2 l).getLsbD 0 = s.axis[k].ref.getLsbD 0 from at0),
    bne_eq_false_iff_eq.mpr (show (set3 s.axis[k].ref 2 l).getLsbD 1 = s.axis[k].ref.getLsbD 1 from at1)]
  rfl

/-- Edges of A and B in one tick (R124). -/
theorem State.quadSample_illegal {la lb : Bool} {y : Nat} (flipA : s.axis[k].ref.getLsbD 0 ≠ la) (flipB : s.axis[k].ref.getLsbD 1 ≠ lb)
    (slow : s.axis[k].fastEdge (x / 32) = false) : ∃ new : BitVec 3, s.quadSample k [(.a, la, x), (.b, lb, y)] =
      s.modAxis k (fun a => a.sampledAll s.tick new (x / 32) true) := by
  have at0 : (set3 (set3 s.axis[k].ref 0 la) 1 lb).getLsbD 0 = la := (getLsbD_set3 (set3 s.axis[k].ref 0 la) lb .b .a).trans (getLsbD_set3 s.axis[k].ref la .a .a)
  have at1 : (set3 (set3 s.axis[k].ref 0 la) 1 lb).getLsbD 1 = lb := getLsbD_set3 (set3 s.axis[k].ref 0 la) lb .b .b
  have new : applyEdges s.axis[k].ref [(.a, la, x), (.b, lb, y)] = set3 (set3 s.axis[k].ref 0 la) 1 lb := rfl
  refine ⟨set3 (set3 s.axis[k].ref 0 la) 1 lb, ?_⟩
  rw [State.quadSample_eq, new, bne_iff_ne.mpr fun e => flipA (e.symm.trans at0), bne_iff_ne.mpr fun e => flipB (e.symm.trans at1), slow]
  rfl

theorem State.indexSample_of_no_index {p0 : W} {es : List (AxPin × Bool × Nat)} (none_ : es.find? (fun e => e.1 == .z && e.2.1) = none) (s : State) :
    s.indexSample k p0 es = s := by
  unfold State.indexSample
  dsimp only
  rw [none_]

/-- An index pulse in mode 3 of an axis without position events (R126, R127). -/
theorem State.indexSample_load {p0 : W} (mode : fld s.axis[k].cfg 9 2 = 3) (any : bit s.axis[k].cfg 11 = false) (free : axisHolds k s = false) :
    ∃ r : State, r.axis[k] = { (({ s.axis[k] with zLt := x, zPos := p0 }.happen s.tick evIndex).loaded) with zArmed := s.axis[k].zArmed } ∧
      s.indexSample k p0 [(.z, true, x)] = r.axReeval k := by
  have found_ : [(AxPin.z, true, x)].find? (fun e => e.1 == .z && e.2.1) = some (.z, true, x) := rfl
  have eq : s.indexSample k p0 [(.z, true, x)] = State.axReeval k (((s.modAxis k (fun a => { a with zLt := x, zPos := p0 }.happen s.tick evIndex)).loadPos k).modAxis k
      (fun a => { a with zArmed := a.zArmed && (3 : Nat) != 2 })) := by
    have free' : axisHolds k (s.modAxis k (fun a => { a with zLt := x, zPos := p0 }.happen s.tick evIndex)) = false := free
    unfold State.indexSample
    dsimp only
    rw [found_, mode, any]
    dsimp only
    rw [free']
    rfl
  refine ⟨_, ?_, eq⟩
  rw [State.modAxis_axis_same, State.loadPos_axis, State.modAxis_axis_same]
  simp only [Axis.loaded, Axis.happen]
  simp

/-- A Hall state of a neighbouring sector, or of another valid one (R128). -/
theorem State.hallSample_single {h0 h1 : Nat} (was : s.axis[k].sect = some h0) (now : hallSector (set3 s.axis[k].ref p.idx l) = some h1)
    (moves : set3 s.axis[k].ref p.idx l ≠ s.axis[k].ref) (slow : s.axis[k].fastEdge (x / 32) = false) :
    ∃ r : State, r.axis[k].pos = s.axis[k].pos ∧ r.axis[k].sect = some h1 ∧ s.hallSample k [(p, l, x)] = (if (h1 + 6 - h0) % 6 = 0 then r else if (h1 + 6 - h0) % 6 = 1 then r.axCount k (s.axis[k].dirOf 1) x
        else if (h1 + 6 - h0) % 6 = 5 then r.axCount k (s.axis[k].dirOf (-1)) x else r.modAxis k (fun a => a.fail r.tick (flag 2 true ||| erSuspect))) := by
  have new : applyEdges s.axis[k].ref [(p, l, x)] = set3 s.axis[k].ref p.idx l := rfl
  have level := getLsbD_set3 s.axis[k].ref l p p
  have flips := set3_ne moves
  rw [if_pos rfl] at level
  refine ⟨((s.modAxis k (fun a => { a with
    ref := set3 s.axis[k].ref p.idx l, lastTick := some (x / 32), hall := BitVec.ofNat 3 h1 })).modAxis k (fun a => { a with sect := some h1 })),
    ?_, ?_, ?_⟩
  · rw [State.modAxis_axis_same, State.modAxis_axis_same]
  · rw [State.modAxis_axis_same]
  · have time : [(p, l, x)].find? (fun e => (set3 s.axis[k].ref p.idx l).getLsbD e.1.idx != s.axis[k].ref.getLsbD e.1.idx &&
        e.2.1 == (set3 s.axis[k].ref p.idx l).getLsbD e.1.idx) = some (p, l, x) :=
      List.find?_cons_of_pos (by dsimp only; rw [level, bne_iff_ne.mpr (Ne.symm flips), beq_self_eq_true]; rfl)
    unfold State.hallSample
    dsimp only
    rw [new, beq_false_of_ne moves, if_neg Bool.false_ne_true, time, now, slow, was]
    simp

end

/-! ### O29 -/

section
variable (k : Ax) (s : State)

theorem axAccept_spec (p : AxPin) (level : Bool) (x : Nat) :
    (s.axis[k].pins.getLsbD p.idx = level ∨ s.tick < x / 32 + s.axis[k].filterTicks → exec (.axisFilterAccept k p level x) s = .next s) ∧
    (s.axis[k].pins.getLsbD p.idx ≠ level → x / 32 + s.axis[k].filterTicks ≤ s.tick → s.boot.held = false → ∃ t : State,
      exec (.axisFilterAccept k p level x) s = .next t ∧ OnlyAxis k s t ∧ Keeps [.ch, .axis] s t ∧
      (s.pwr.mode = 2 → t.axis[k] = { s.axis[k] with pins := set3 s.axis[k].pins p.idx level, moved := true } ∧ t.ch = s.ch) ∧
      (s.pwr.mode ≠ 2 → t.axis[k] = { s.axis[k] with
        pins := set3 s.axis[k].pins p.idx level
        accQ := if s.axis[k].en = true ∧ s.axis[k].mode ≤ 1 then
          s.axis[k].accQ ++ [(p, level, if s.axis[k].coarse = true ∨ s.time.res ≠ 0 then x / 32 * 32 else x)] else s.axis[k].accQ } ∧
        SameButSource s t)) := by
  refine ⟨fun h => ?_, fun flips held notReset => ?_⟩
  · have idle : s.axAccept k p level x = s := by
      unfold State.axAccept
      refine if_pos ?_
      rcases h with same | young
      · rw [beq_iff_eq.mpr same]; rfl
      · rw [decide_eq_true young, Bool.or_true]
    exact congrArg Host.Outcome.next idle
  · have taken : (s.axis[k].pins.getLsbD p.idx == level || decide (s.tick < x / 32 + s.axis[k].filterTicks)) = false := by
      rw [beq_false_of_ne flips, decide_eq_false (by omega)]; rfl
    by_cases sleeps : s.pwr.mode = 2
    · have eq : s.axAccept k p level x = s.modAxis k (fun a => { a with pins := set3 a.pins p.idx level, moved := true }) := by
        unfold State.axAccept
        dsimp only
        rw [taken, notReset, if_neg Bool.false_ne_true, if_neg Bool.false_ne_true, if_pos sleeps]
      exact ⟨_, congrArg Host.Outcome.next eq, State.modAxis_onlyAxis k _ s, (State.modAxis_keeps k _ s).mono (by decide),
        fun _ => ⟨State.modAxis_axis_same .., rfl⟩, fun wakes => absurd sleeps wakes⟩
    · have eq : s.axAccept k p level x = feedAxis k p.idx ((if s.axis[k].coarse || s.time.res != 0 then x / 32 * 32 else x) / 32 + s.axis[k].filterTicks) level
          (s.modAxis k (fun a => { a with
            pins := set3 a.pins p.idx level
            accQ := if a.en && a.edgeMode then a.accQ ++ [(p, level, if s.axis[k].coarse || s.time.res != 0 then x / 32 * 32 else x)] else a.accQ })) := by
        unfold State.axAccept
        dsimp only
        rw [taken, notReset, if_neg Bool.false_ne_true, if_neg Bool.false_ne_true, if_neg sleeps]
      generalize hr : State.modAxis k _ s = r at eq
      have fed := feedAxis_keeps k p.idx ((if s.axis[k].coarse || s.time.res != 0 then x / 32 * 32 else x) / 32 + s.axis[k].filterTicks) level r
      have toR : OnlyAxis k s r := hr ▸ State.modAxis_onlyAxis k _ s
      have keepsR : Keeps [.axis] s r := hr ▸ State.modAxis_keeps k _ s
      refine ⟨_, congrArg Host.Outcome.next eq, toR.trans (.of_keeps fed (by decide)), (keepsR.mono (by decide)).step fed (by decide),
        fun h => absurd h sleeps, fun _ => ⟨?_, ?_⟩⟩
      · rw [show (feedAxis k p.idx _ level r).axis = r.axis from fed.2 .axis (by decide), ← hr, State.modAxis_axis_same]
        simp only [Bool.and_eq_true, Bool.or_eq_true, bne_iff_ne, Axis.edgeMode, decide_eq_true_eq]
      · have sameCh : r.ch = s.ch := by rw [← hr]; rfl
        have source : SameButSource r (feedAxis k p.idx ((if s.axis[k].coarse || s.time.res != 0 then x / 32 * 32 else x) / 32 + s.axis[k].filterTicks) level r) :=
          forAll_induction (P := SameButSource r) (fun q _ u h => h.trans (feedSource_same q _ _ level u)) (fun _ => rfl)
        intro n
        rw [← sameCh]
        exact source n

/-- The decoder takes its oldest sample. -/
theorem axisEdge_taken {e : AxPin × Bool × Nat} {es rest : List (AxPin × Bool × Nat)} (sample : firstSample s.axis[k].accQ = (e :: es, rest))
    (due : e.2.2 / 32 + s.axis[k].filterTicks + 2 ≤ s.tick) (on : s.axis[k].en = true) :
    s.axEdge k = (if s.axis[k].mode = 0 then ((s.modAxis k (fun a => { a with accQ := rest })).quadSample k (e :: es)).indexSample k s.axis[k].pos (e :: es)
      else if s.axis[k].mode = 1 then (s.modAxis k (fun a => { a with accQ := rest })).hallSample k (e :: es) else s.modAxis k (fun a => { a with accQ := rest })) := by
  unfold State.axEdge
  dsimp only
  rw [sample]
  dsimp only
  rw [if_neg (Nat.not_lt.mpr due), on]
  rfl

/-- What every edge of an enabled axis leaves. -/
theorem axisEdge_frame {e : AxPin × Bool × Nat} {es rest : List (AxPin × Bool × Nat)} (sample : firstSample s.axis[k].accQ = (e :: es, rest))
    (due : e.2.2 / 32 + s.axis[k].filterTicks + 2 ≤ s.tick) (on : s.axis[k].en = true) :
    (OnlyAxis k s (s.axEdge k) ∧ Keeps [.guar, .ch, .axis, .cal, .pod, .free] s (s.axEdge k) ∧ (s.axEdge k).axis[k].pins = s.axis[k].pins ∧
      (s.axEdge k).axis[k].cfg = s.axis[k].cfg) ∧ (s.axEdge k).axis[k].accQ = rest := by
  have keeps : Keeps [.guar, .ch, .axis, .cal, .pod, .free] s (s.axEdge k) := by
    obtain ⟨t, ht, keeps⟩ := execAxisEdge_keeps k s
    cases ht
    exact keeps
  have decoded : DecodedOn k (s.modAxis k (fun a => { a with accQ := rest })) (s.axEdge k) := by
    rw [axisEdge_taken k s sample due on]
    split
    · exact (State.quadSample_decoded ..).trans (State.indexSample_decoded ..)
    · split
      · exact State.hallSample_decoded ..
      · exact .refl ..
  obtain ⟨alone, pins, cfg, accQ⟩ := decoded
  rw [State.modAxis_axis_same] at pins cfg accQ
  exact ⟨⟨(State.modAxis_onlyAxis k _ s).trans alone, keeps, pins, cfg⟩, accQ⟩

/-- A count moves POS, with its edge time (R134). -/
theorem State.axCount_moved (d : Int) (x : Nat) : (s.axCount k d x).axis[k].pos = BitVec.ofInt 32 (s.axis[k].pos.toNat + d) ∧
    (s.axCount k d x).axis[k].edgeLt = x ∧ (s.axCount k d x).axis[k].edgePos = (s.axCount k d x).axis[k].pos := by
  have followed := State.axCount_axis k d x s
  refine ⟨?_, ?_, ?_⟩
  · rw [followed.only, Axis.counted_only]
  · rw [followed.only, Axis.counted_only]
  · rw [followed.only, Axis.counted_only]

/-- What a count leaves of the decoder's block. -/
theorem State.axCount_decoder (d : Int) (x : Nat) : (s.axCount k d x).axis[k].ref = s.axis[k].ref ∧ (s.axCount k d x).axis[k].lastTick = s.axis[k].lastTick ∧
    (s.axCount k d x).axis[k].sect = s.axis[k].sect := by
  have followed := State.axCount_axis k d x s
  refine ⟨?_, ?_, ?_⟩
  · rw [followed.only, Axis.counted_only]
  · rw [followed.only, Axis.counted_only]
  · rw [followed.only, Axis.counted_only]

end

section
variable {k : Ax} {s : State} {p : AxPin} {level : Bool} {x : Nat} {rest : List (AxPin × Bool × Nat)}
  (sample : firstSample s.axis[k].accQ = ([(p, level, x)], rest)) (due : x / 32 + s.axis[k].filterTicks + 2 ≤ s.tick) (on : s.axis[k].en = true)
include sample due on

theorem axisEdge_quad (quad : s.axis[k].mode = 0) (line : p ≠ .z) (flips : s.axis[k].ref.getLsbD p.idx ≠ level) :
    (s.axEdge k).axis[k].ref = set3 s.axis[k].ref p.idx level ∧ (s.axEdge k).axis[k].lastTick = some (x / 32) ∧
    (s.axis[k].fastEdge (x / 32) = false → (s.axEdge k).axis[k].pos = BitVec.ofInt 32 (s.axis[k].pos.toNat +
        (if decide ((quadIdx (set3 s.axis[k].ref p.idx level) + 4 - quadIdx s.axis[k].ref) % 4 = 1) != bit s.axis[k].cfg 12 then 1 else -1)) ∧
      (s.axEdge k).axis[k].edgeLt = x ∧ (s.axEdge k).axis[k].edgePos = (s.axEdge k).axis[k].pos) ∧
    (s.axis[k].fastEdge (x / 32) = true → (s.axEdge k).axis[k].pos = s.axis[k].pos ∧ (s.axEdge k).axis[k].edgeLt = s.axis[k].edgeLt ∧
      (s.axEdge k).axis[k].err = s.axis[k].err.raise s.tick 0x202 ∧ (s.axEdge k).axis[k].fast = s.axis[k].fast.bump s.tick 1 255) := by
  have noIndex : [(p, level, x)].find? (fun e => e.1 == .z && e.2.1) = none := by simp [line]
  generalize hr : s.modAxis k (fun a => { a with accQ := rest }) = r
  have axis : r.axis[k] = { s.axis[k] with accQ := rest } := by rw [← hr, State.modAxis_axis_same]
  have tick : r.tick = s.tick := by rw [← hr]; rfl
  have eq := axisEdge_taken k s sample due on
  rw [if_pos quad, State.indexSample_of_no_index noIndex, hr, State.quadSample_single line (by rw [axis]; exact flips), axis] at eq
  have fastEq : Axis.fastEdge (x / 32) { s.axis[k] with accQ := rest } = s.axis[k].fastEdge (x / 32) := rfl
  have dirEq (d : Int) : Axis.dirOf d { s.axis[k] with accQ := rest } = s.axis[k].dirOf d := rfl
  rw [fastEq, dirEq] at eq
  cases fast : s.axis[k].fastEdge (x / 32) with
  | false =>
    rw [fast, if_neg Bool.false_ne_true] at eq
    obtain ⟨ref, lastTick, -⟩ := State.axCount_decoder k (r.modAxis k (Axis.sampled (set3 s.axis[k].ref p.idx level) (x / 32)))
      (s.axis[k].dirOf (if (quadIdx (set3 s.axis[k].ref p.idx level) + 4 - quadIdx s.axis[k].ref) % 4 = 1 then 1 else -1)) x
    have moved := State.axCount_moved k (r.modAxis k (Axis.sampled (set3 s.axis[k].ref p.idx level) (x / 32)))
      (s.axis[k].dirOf (if (quadIdx (set3 s.axis[k].ref p.idx level) + 4 - quadIdx s.axis[k].ref) % 4 = 1 then 1 else -1)) x
    rw [State.modAxis_axis_same, axis] at ref lastTick moved
    rw [← eq] at ref lastTick moved
    refine ⟨ref, lastTick, fun _ => ?_, fun h => absurd h Bool.false_ne_true⟩
    rw [← Axis.dirOf_eq]
    simp only [decide_eq_true_eq]
    exact moved
  | true =>
    rw [fast, if_pos rfl] at eq
    have after : (s.axEdge k).axis[k] = ({ s.axis[k] with accQ := rest }.sampled (set3 s.axis[k].ref p.idx level) (x / 32)).noteFast s.tick := by
      rw [eq, State.modAxis_axis_same, axis, tick]
    rw [after]
    exact ⟨rfl, rfl, fun h => absurd h.symm Bool.false_ne_true, fun _ => ⟨rfl, rfl, rfl, rfl⟩⟩

theorem axisEdge_index (quad : s.axis[k].mode = 0) (line : p = .z) (high : level = true) (zMode : fld s.axis[k].cfg 9 2 = 3) (any : bit s.axis[k].cfg 11 = false)
    (free : axisHolds k s = false) : (s.axEdge k).axis[k].pos = s.axis[k].posLd ∧ (s.axEdge k).axis[k].zLt = x ∧ (s.axEdge k).axis[k].zPos = s.axis[k].pos ∧
      (s.axEdge k).axis[k].evt.get 3 = true ∧ (s.axEdge k).axis[k].edgeLt = s.axis[k].edgeLt := by
  subst line high
  have eq := axisEdge_taken k s sample due on
  generalize hr : s.modAxis k (fun a => { a with accQ := rest }) = r at eq
  have axis : r.axis[k] = { s.axis[k] with accQ := rest } := by rw [← hr, State.modAxis_axis_same]
  rw [if_pos quad, State.quadSample_index, axis] at eq
  generalize hu : r.modAxis k (fun a => { a with ref := set3 s.axis[k].ref 2 true }) = u at eq
  have axisU : u.axis[k] = { s.axis[k] with accQ := rest, ref := set3 s.axis[k].ref 2 true } := by rw [← hu, State.modAxis_axis_same, axis]
  have freeU : axisHolds k u = false := by rw [← hu, ← hr]; exact free
  obtain ⟨v, axisV, loaded⟩ := State.indexSample_load (k := k) (s := u) (x := x) (p0 := s.axis[k].pos) (by rw [axisU]; exact zMode) (by rw [axisU]; exact any) freeU
  have followed := (State.axReeval_followed k v).axis
  rw [loaded] at eq
  rw [← eq, axisV, axisU] at followed
  have index : (Sticky.raise u.tick evIndex s.axis[k].evt).get 3 = true := by
    rw [Sticky.get_raise]
    exact (Bool.or_eq_true _ _).mpr (Or.inr (by decide))
  exact ⟨by rw [followed.only]; rfl, by rw [followed.only]; rfl, by rw [followed.only]; rfl, followed.seen 3 index, by rw [followed.only]; rfl⟩

theorem axisEdge_hall {h0 h1 : Nat} (hall : s.axis[k].mode = 1) (was : s.axis[k].sect = some h0) (now : hallSector (set3 s.axis[k].ref p.idx level) = some h1)
    (moves : set3 s.axis[k].ref p.idx level ≠ s.axis[k].ref) (slow : s.axis[k].fastEdge (x / 32) = false) :
    (s.axEdge k).axis[k].sect = some h1 ∧
    ((h1 + 6 - h0) % 6 = 1 → (s.axEdge k).axis[k].pos = BitVec.ofInt 32 (s.axis[k].pos.toNat + (if true != bit s.axis[k].cfg 12 then 1 else -1)) ∧
      (s.axEdge k).axis[k].edgeLt = x ∧ (s.axEdge k).axis[k].edgePos = (s.axEdge k).axis[k].pos) ∧
    ((h1 + 6 - h0) % 6 = 5 → (s.axEdge k).axis[k].pos = BitVec.ofInt 32 (s.axis[k].pos.toNat + (if false != bit s.axis[k].cfg 12 then 1 else -1)) ∧
      (s.axEdge k).axis[k].edgeLt = x ∧ (s.axEdge k).axis[k].edgePos = (s.axEdge k).axis[k].pos) := by
  have eq := axisEdge_taken k s sample due on
  generalize hr : s.modAxis k (fun a => { a with accQ := rest }) = r at eq
  have axis : r.axis[k] = { s.axis[k] with accQ := rest } := by rw [← hr, State.modAxis_axis_same]
  obtain ⟨u, pos, sect, step⟩ := State.hallSample_single (k := k) (s := r) (p := p) (l := level) (x := x) (h0 := h0) (h1 := h1) (by rw [axis]; exact was)
    (by rw [axis]; exact now) (by rw [axis]; exact moves) (by rw [axis]; exact slow)
  rw [if_neg (by rw [hall]; decide), if_pos hall, step, axis] at eq
  have dirEq (d : Int) : Axis.dirOf d { s.axis[k] with accQ := rest } = s.axis[k].dirOf d := rfl
  rw [dirEq, dirEq] at eq
  rw [axis] at pos
  rw [← Axis.dirOf_eq, ← Axis.dirOf_eq, eq]
  have counted (d : Int) := State.axCount_moved k u d x
  have kept (d : Int) : (u.axCount k d x).axis[k].sect = some h1 := (State.axCount_decoder k u d x).2.2.trans sect
  rw [pos] at counted
  split
  · next stays => exact ⟨sect, fun h => by omega, fun h => by omega⟩
  · split
    · next forward => exact ⟨kept _, fun _ => counted _, fun h => by omega⟩
    · split
      · next back => exact ⟨kept _, fun h => by omega, fun _ => counted _⟩
      · next n1 n5 => exact ⟨by rw [State.modAxis_axis_same]; exact sect, fun h => absurd h n1, fun h => absurd h n5⟩

end

theorem axisEdge_illegal {k : Ax} {s : State} {la lb : Bool} {x y : Nat} (waits : s.axis[k].accQ = [(.a, la, x), (.b, lb, y)]) (same : x / 32 = y / 32)
    (due : x / 32 + s.axis[k].filterTicks + 2 ≤ s.tick) (on : s.axis[k].en = true) (quad : s.axis[k].mode = 0) (flipA : s.axis[k].ref.getLsbD 0 ≠ la)
    (flipB : s.axis[k].ref.getLsbD 1 ≠ lb) (slow : s.axis[k].fastEdge (x / 32) = false) :
    (s.axEdge k).axis[k].pos = s.axis[k].pos ∧ (s.axEdge k).axis[k].edgeLt = s.axis[k].edgeLt ∧
      (bit s.axis[k].cfg 7 = true → (s.axEdge k).axis[k].err = s.axis[k].err.raise s.tick 0x201 ∧ (s.axEdge k).axis[k].illegal = s.axis[k].illegal.bump s.tick 1 255) ∧
      (bit s.axis[k].cfg 7 = false → (s.axEdge k).axis[k].err = s.axis[k].err) := by
  have sample : firstSample s.axis[k].accQ = ([(.a, la, x), (.b, lb, y)], []) := by rw [waits]; exact firstSample_pair same
  have eq := axisEdge_taken k s sample due on
  generalize hr : s.modAxis k (fun a => { a with accQ := [] }) = r at eq
  have axis : r.axis[k] = { s.axis[k] with accQ := [] } := by rw [← hr, State.modAxis_axis_same]
  have tick : r.tick = s.tick := by rw [← hr]; rfl
  obtain ⟨new, step⟩ := State.quadSample_illegal (k := k) (s := r) (la := la) (lb := lb) (x := x) (y := y) (by rw [axis]; exact flipA) (by rw [axis]; exact flipB)
    (by rw [axis]; exact slow)
  rw [if_pos quad, State.indexSample_of_no_index rfl, step, tick] at eq
  have after : (s.axEdge k).axis[k] = { s.axis[k] with accQ := [] }.sampledAll s.tick new (x / 32) true := by rw [eq, State.modAxis_axis_same, axis]
  rw [after, Axis.sampledAll, Bool.true_and, show bit ({ s.axis[k] with accQ := [] } : Axis).cfg 7 = bit s.axis[k].cfg 7 from rfl]
  cases bit s.axis[k].cfg 7
  · exact ⟨rfl, rfl, fun h => absurd h Bool.false_ne_true, fun _ => rfl⟩
  · exact ⟨rfl, rfl, fun _ => ⟨rfl, rfl⟩, fun h => absurd h.symm Bool.false_ne_true⟩

/-- Settles O29: the decoder takes one sample; what a decoder leaves, and what each kind of sample does, are lemmas of their own. -/
theorem axisEdges : Obligations.AxisEdges := by
  unfold Obligations.AxisEdges
  intro k s
  refine ⟨axAccept_spec k s, fun p level x rest waits later => ?_, fun la lb x y waits same due on quad flipA flipB slow => ?_⟩
  · have sample : firstSample s.axis[k].accQ = ([(p, level, x)], rest) := by rw [waits]; exact firstSample_single later
    refine ⟨fun early => ?_, fun due on => ?_⟩
    · have idle : s.axEdge k = s := by
        unfold State.axEdge
        dsimp only
        rw [sample]
        exact if_pos early
      exact congrArg Host.Outcome.next idle
    · obtain ⟨frame, accQ⟩ := axisEdge_frame k s sample due on
      exact ⟨_, rfl, frame, accQ, axisEdge_quad sample due on, axisEdge_index sample due on, fun h0 h1 hall was now moves slow =>
        axisEdge_hall sample due on hall was now moves slow⟩
  · obtain ⟨frame, accQ⟩ := axisEdge_frame k s (e := (.a, la, x)) (es := [(.b, lb, y)]) (rest := []) (by rw [waits]; exact firstSample_pair same) due on
    obtain ⟨pos, edge, told, untold⟩ := axisEdge_illegal waits same due on quad flipA flipB slow
    exact ⟨_, rfl, frame, pos, edge, accQ, told, untold⟩

end Sys2Proof.Machine
end

section
/-!
Serial frames and their samples, and the encoder emulation (R129 to R133, R142 to R144).
-/
namespace Sys2Proof.Machine

/-! ### Frames -/

theorem serialOn_iff (k : Ax) (s : State) : serialOn k s = true ↔ s.axis[k].en = true ∧ 2 ≤ s.axis[k].mode ∧ s.pwr.mode = 0 := by
  simp [serialOn, and_assoc]

section
variable (k : Ax) (s : State)

/-- A frame starts, or is skipped while one runs (R129). -/
theorem State.frameStart_spec (b : Nat) : OnlyAxis k s (s.frameStart k b) ∧ Keeps [.axis] s (s.frameStart k b) ∧ (s.frameStart k b).axis[k] =
    if s.axis[k].ser.busy = none then { s.axis[k] with ser := { s.axis[k].ser with busy := some b } }
    else { s.axis[k] with err := s.axis[k].err.raise s.tick 0x100 } := by
  refine ⟨State.modAxis_onlyAxis k _ s, State.frameStart_keeps k b s, ?_⟩
  unfold State.frameStart
  rw [State.modAxis_axis_same]
  cases s.axis[k].ser.busy <;> rfl

theorem serStarts_spec (on : s.axis[k].en = true ∧ 2 ≤ s.axis[k].mode ∧ s.pwr.mode = 0) :
    (bit s.axis[k].ser.cfg 12 = true → s.serTrig k = s.frameStart k s.tw) ∧
    (bit s.axis[k].ser.cfg 12 = false → fld s.axis[k].ser.period 0 24 ≠ 0 → s.tick % fld s.axis[k].ser.period 0 24 = 0 →
      execSerFrameStart k s = .next (s.frameStart k s.tick)) := by
  have runs := (serialOn_iff k s).mpr on
  refine ⟨fun trig => ?_, fun trig some_ due => ?_⟩
  · unfold State.serTrig
    rw [runs, trig]
    rfl
  · unfold execSerFrameStart
    rw [runs, trig, show max 1 (fld s.axis[k].ser.period 0 24) = fld s.axis[k].ser.period 0 24 by omega, decide_eq_true due]
    rfl

theorem serStarts_off (off : ¬ (s.axis[k].en = true ∧ 2 ≤ s.axis[k].mode ∧ s.pwr.mode = 0)) : s.serTrig k = s ∧ execSerFrameStart k s = .next s := by
  have stands : serialOn k s = false := Bool.eq_false_iff.mpr fun h => off ((serialOn_iff k s).mp h)
  unfold State.serTrig execSerFrameStart
  rw [stands]
  exact ⟨rfl, rfl⟩

theorem serTmo_spec : (s.axis[k].ser.busy = none → exec (.serTmo k) s = .next s) ∧
    (s.axis[k].ser.busy ≠ none → ∃ t : State, exec (.serTmo k) s = .next t ∧ OnlyAxis k s t ∧ Keeps [.axis] s t ∧
      t.axis[k] = { s.axis[k] with
        ser := { s.axis[k].ser with busy := none, errs := s.axis[k].ser.errs + 1 }
        serErr := s.axis[k].serErr.bump s.tick 1 255, err := s.axis[k].err.raise s.tick 8 }) := by
  refine ⟨fun idle => ?_, fun runs => ?_⟩
  · change execSerTmo k s = _
    unfold execSerTmo
    rw [idle]
    rfl
  · have eq : execSerTmo k s = .next (s.modAxis k (fun a => { a with
        ser := { a.ser with busy := none, errs := a.ser.errs + 1 }, serErr := a.serErr.bump s.tick 1 255, err := a.err.raise s.tick (flag 3 true) })) := by
      unfold execSerTmo
      rw [Option.isSome_iff_ne_none.mpr runs]
      rfl
    exact ⟨_, eq, State.modAxis_onlyAxis k _ s, State.modAxis_keeps k _ s, State.modAxis_axis_same ..⟩

/-! ### A sample -/

/-- The block of an axis that takes its first good sample (R133). -/
def Axis.firstGood (t fv v x : Nat) (a : Axis) : Axis :=
  ({ a with pos := BitVec.ofNat 32 v, edgeLt := x, edgePos := BitVec.ofNat 32 v, ser := { a.ser with prev := some v } }.happen t evSample).rateEdge fv x 0

theorem State.serGood_first (v x : Nat) (first : s.axis[k].ser.prev = none) :
    OnlyAxis k s (s.serGood k v x) ∧ (s.serGood k v x).axis[k].pos = BitVec.ofNat 32 v ∧ (s.serGood k v x).axis[k].edgeLt = x ∧
      (s.serGood k v x).axis[k].ser = { s.axis[k].ser with prev := some v } := by
  have eq : s.serGood k v x = State.axMoved k s.axis[k].pos s.axis[k].rev 0
      (((s.modAxis k (Axis.firstGood s.tick (s.freeBelow (2 ^ 32)) v x)).used).tellCounters k { at_ := s.tick + 1, delta := 0, pos := BitVec.ofNat 32 v, load := true }) := by
    unfold State.serGood
    dsimp only
    rw [first]
    rfl
  generalize hr : s.modAxis k (Axis.firstGood s.tick (s.freeBelow (2 ^ 32)) v x) = r at eq
  have axisR : r.axis[k] = s.axis[k].firstGood s.tick (s.freeBelow (2 ^ 32)) v x := by rw [← hr, State.modAxis_axis_same]
  have toR : OnlyAxis k s r := hr ▸ State.modAxis_onlyAxis k _ s
  have told : FollowedOn k r (s.serGood k v x) := eq ▸ ((CountedOn.of_keeps (State.used_keeps r) (by decide)).trans
    (.of_keeps (State.tellCounters_keeps k _ r.used) (by decide))).followed.trans (State.axMoved_followed ..)
  have only := told.axis.only
  rw [axisR, Axis.firstGood, Axis.rateEdge_only] at only
  exact ⟨toR.trans told.alone, by rw [only]; rfl, by rw [only]; rfl, by rw [only]; rfl⟩

/-- A later good sample within the jump limit moves POS by its step (R133). -/
theorem State.serGood_step {p : Nat} (v x : Nat) (later : s.axis[k].ser.prev = some p)
    (near : fld s.axis[k].ser.cfg 16 16 = 0 ∨ (serStep s.axis[k].ser.len v p).natAbs ≤ fld s.axis[k].ser.cfg 16 16) :
    OnlyAxis k s (s.serGood k v x) ∧ (s.serGood k v x).axis[k].pos = BitVec.ofInt 32 (s.axis[k].pos.toNat + serStep s.axis[k].ser.len v p) ∧
      (s.serGood k v x).axis[k].edgeLt = x ∧ (s.serGood k v x).axis[k].ser = { s.axis[k].ser with prev := some v } := by
  have eq : s.serGood k v x =
      (s.modAxis k (fun a => { a with ser := { a.ser with prev := some v } }.happen s.tick evSample)).axCount k (serStep s.axis[k].ser.len v p) x := by
    unfold State.serGood
    dsimp only
    rw [later]
    refine if_neg fun h => ?_
    obtain ⟨some_, far⟩ := (Bool.and_eq_true _ _).mp h
    rcases near with zero | near
    · exact (bne_iff_ne.mp some_) zero
    · exact absurd (of_decide_eq_true far) (by omega)
  generalize hr : s.modAxis k (fun a => { a with ser := { a.ser with prev := some v } }.happen s.tick evSample) = r at eq
  have axisR : r.axis[k] = { s.axis[k] with ser := { s.axis[k].ser with prev := some v } }.happen s.tick evSample := by rw [← hr, State.modAxis_axis_same]
  have toR : OnlyAxis k s r := hr ▸ State.modAxis_onlyAxis k _ s
  have only := (State.axCount_axis k (serStep s.axis[k].ser.len v p) x r).only
  rw [Axis.counted_only, axisR, ← eq] at only
  exact ⟨toR.trans (eq ▸ State.axCount_onlyAxis k _ x r), by rw [only]; rfl, by rw [only], by rw [only]; rfl⟩

/-- A step beyond the jump limit is refused (R133). -/
theorem State.serGood_jump {p : Nat} (v x : Nat) (later : s.axis[k].ser.prev = some p) (limit : fld s.axis[k].ser.cfg 16 16 ≠ 0)
    (far : fld s.axis[k].ser.cfg 16 16 < (serStep s.axis[k].ser.len v p).natAbs) :
    s.serGood k v x = s.modAxis k (fun a => a.fail s.tick (flag 7 true)) := by
  unfold State.serGood
  dsimp only
  rw [later]
  exact if_pos (by rw [bne_iff_ne.mpr limit, decide_eq_true far]; rfl)

/-- Whatever a good sample does, of the serial interface it takes the sample alone. -/
theorem State.serGood_frame (v x : Nat) : OnlyAxis k s (s.serGood k v x) ∧
    (s.serGood k v x).axis[k].ser = { s.axis[k].ser with prev := (s.serGood k v x).axis[k].ser.prev } := by
  cases last : s.axis[k].ser.prev with
  | none =>
    obtain ⟨only, -, -, ser⟩ := State.serGood_first k s v x last
    exact ⟨only, by rw [ser]⟩
  | some p =>
    by_cases near : fld s.axis[k].ser.cfg 16 16 = 0 ∨ (serStep s.axis[k].ser.len v p).natAbs ≤ fld s.axis[k].ser.cfg 16 16
    · obtain ⟨only, -, -, ser⟩ := State.serGood_step k s v x last near
      exact ⟨only, by rw [ser]⟩
    · rw [not_or] at near
      rw [State.serGood_jump k s v x last near.1 (by omega)]
      exact ⟨State.modAxis_onlyAxis k _ s, by rw [State.modAxis_axis_same]; rfl⟩

end

/-! ### A complete frame (R131 to R133) -/

/-- The block of an axis whose frame is complete. -/
def Axis.frameDone (raw : Nat) (a : Axis) : Axis := { a with ser := { a.ser with busy := none, raw := BitVec.ofNat 32 raw } }

/-- The block of an axis whose frame failed its check. -/
def Axis.frameBad (t : Nat) (a : Axis) : Axis :=
  { a with err := a.err.raise t (flag 4 true), serErr := a.serErr.bump t 1 255, ser := { a.ser with bad := if a.mode = 2 then a.ser.bad + 1 else a.ser.bad } }

/-- The block of an axis whose BiSS-C frame carries the error bit. -/
def Axis.frameErr (t : Nat) (a : Axis) : Axis := { a with err := a.err.raise t (flag 5 true), ser := { a.ser with errs := a.ser.errs + 1 } }

/-- The block of an axis whose BiSS-C frame carries the warning bit. -/
def Axis.frameWarn (t : Nat) (a : Axis) : Axis := { a with err := a.err.raise t (flag 6 true), ser := { a.ser with bad := a.ser.bad + 1 } }

/-- The block of an axis whose frame is good. -/
def Axis.frameGood (n delay : Nat) (a : Axis) : Axis := { a with ser := { a.ser with good := a.ser.good + 1, bits := n, delay := delay } }

section
variable {k : Ax} {s : State} {f : SerFrame} {tf : Nat} (runs : s.axis[k].ser.busy = some tf) (on : serialOn k s = true)
include runs on

theorem State.serSample_bad (bad : s.axis[k].frameOk f = false) : s.serSample k f =
    (s.modAxis k (Axis.frameDone (f.pos.toNat % 2 ^ s.axis[k].ser.len))).modAxis k (Axis.frameBad s.tick) := by
  have on' : serialOn k (s.modAxis k (Axis.frameDone (f.pos.toNat % 2 ^ s.axis[k].ser.len))) = true := by
    rw [serialOn, State.modAxis_axis_same]; exact on
  unfold State.serSample
  dsimp only
  rw [runs]
  dsimp only
  rw [show serialOn k (State.modAxis k (fun a => { a with ser := { a.ser with busy := none, raw := BitVec.ofNat 32 (f.pos.toNat % 2 ^ s.axis[k].ser.len) } }) s) = true
    from on', bad]
  rfl

theorem State.serSample_ok (ok : s.axis[k].frameOk f = true) : s.serSample k f =
    (let r := s.modAxis k (Axis.frameDone (f.pos.toNat % 2 ^ s.axis[k].ser.len))
     let u := r.when (s.axis[k].mode == 3 && !f.nW) (State.modAxis k (Axis.frameWarn s.tick))
     if s.axis[k].mode == 3 && !f.nE then u.modAxis k (Axis.frameErr u.tick)
     else (u.modAxis k (Axis.frameGood s.axis[k].ser.len f.delay)).serGood k (if bit s.axis[k].ser.cfg 6 then grayToBin s.axis[k].ser.len (f.pos.toNat % 2 ^ s.axis[k].ser.len)
       else f.pos.toNat % 2 ^ s.axis[k].ser.len) (s.axis[k].sampleLt tf)) := by
  have on' : serialOn k (s.modAxis k (Axis.frameDone (f.pos.toNat % 2 ^ s.axis[k].ser.len))) = true := by
    rw [serialOn, State.modAxis_axis_same]; exact on
  unfold State.serSample
  dsimp only
  rw [runs]
  dsimp only
  rw [show serialOn k (State.modAxis k (fun a => { a with ser := { a.ser with busy := none, raw := BitVec.ofNat 32 (f.pos.toNat % 2 ^ s.axis[k].ser.len) } }) s) = true
    from on', ok]
  rfl

/-- A complete frame ends the transfer and gives the raw sample, whatever becomes of it. -/
theorem State.serSample_frame : OnlyAxis k s (s.serSample k f) ∧ (s.serSample k f).axis[k].ser.busy = none ∧
    (s.serSample k f).axis[k].ser.raw = BitVec.ofNat 32 (f.pos.toNat % 2 ^ s.axis[k].ser.len) := by
  generalize hr : s.modAxis k (Axis.frameDone (f.pos.toNat % 2 ^ s.axis[k].ser.len)) = r
  have toR : OnlyAxis k s r := hr ▸ State.modAxis_onlyAxis k _ s
  have axisR : r.axis[k] = s.axis[k].frameDone (f.pos.toNat % 2 ^ s.axis[k].ser.len) := by rw [← hr, State.modAxis_axis_same]
  cases ok : s.axis[k].frameOk f with
  | false =>
    rw [State.serSample_bad runs on ok, hr]
    refine ⟨toR.trans (State.modAxis_onlyAxis k _ r), ?_, ?_⟩
    · rw [State.modAxis_axis_same, axisR]; rfl
    · rw [State.modAxis_axis_same, axisR]; rfl
  | true =>
    rw [State.serSample_ok runs on ok, hr]
    dsimp only
    generalize hu : r.when (s.axis[k].mode == 3 && !f.nW) (State.modAxis k (Axis.frameWarn s.tick)) = u
    have toU : OnlyAxis k s u ∧ u.axis[k].ser.busy = none ∧ u.axis[k].ser.raw = BitVec.ofNat 32 (f.pos.toNat % 2 ^ s.axis[k].ser.len) := by
      rw [← hu]
      cases s.axis[k].mode == 3 && !f.nW
      · exact ⟨toR, by rw [State.when_false, axisR]; rfl, by rw [State.when_false, axisR]; rfl⟩
      · rw [State.when_true]
        refine ⟨toR.trans (State.modAxis_onlyAxis k _ r), ?_, ?_⟩
        · rw [State.modAxis_axis_same, axisR]; rfl
        · rw [State.modAxis_axis_same, axisR]; rfl
    obtain ⟨only, busy, raw⟩ := toU
    split
    · refine ⟨only.trans (State.modAxis_onlyAxis k _ u), ?_, ?_⟩
      · rw [State.modAxis_axis_same]; exact busy
      · rw [State.modAxis_axis_same]; exact raw
    · have put : OnlyAxis k u (u.modAxis k (Axis.frameGood s.axis[k].ser.len f.delay)) := State.modAxis_onlyAxis k _ u
      have good := State.serGood_frame k (u.modAxis k (Axis.frameGood s.axis[k].ser.len f.delay))
        (if bit s.axis[k].ser.cfg 6 then grayToBin s.axis[k].ser.len (f.pos.toNat % 2 ^ s.axis[k].ser.len) else f.pos.toNat % 2 ^ s.axis[k].ser.len)
        (s.axis[k].sampleLt tf)
      obtain ⟨alone, ser⟩ := good
      rw [State.modAxis_axis_same] at ser
      exact ⟨(only.trans put).trans alone, by rw [ser]; exact busy, by rw [ser]; exact raw⟩

/-- A frame that carries the error bit moves nothing (R132). -/
theorem State.serSample_biss (ok : s.axis[k].frameOk f = true) (biss : s.axis[k].mode = 3) (err : f.nE = false) :
    (s.serSample k f).axis[k].pos = s.axis[k].pos ∧ (s.serSample k f).axis[k].err.get 5 = true ∧ (s.serSample k f).axis[k].ser.prev = s.axis[k].ser.prev := by
  rw [State.serSample_ok runs on ok, biss, err]
  dsimp only
  refine ⟨?_, ?_, ?_⟩
  · rw [if_pos (by decide), State.modAxis_axis_same]
    cases f.nW
    · simp only [beq_self_eq_true, Bool.not_false, Bool.and_self, State.when_true, State.modAxis_axis_same]; rfl
    · simp only [Bool.not_true, Bool.and_false, State.when_false, State.modAxis_axis_same]; rfl
  · rw [if_pos (by decide), State.modAxis_axis_same, Axis.frameErr, Sticky.get_raise]
    exact (Bool.or_eq_true _ _).mpr (Or.inr (by decide))
  · rw [if_pos (by decide), State.modAxis_axis_same]
    cases f.nW
    · simp only [beq_self_eq_true, Bool.not_false, Bool.and_self, State.when_true, State.modAxis_axis_same]; rfl
    · simp only [Bool.not_true, Bool.and_false, State.when_false, State.modAxis_axis_same]; rfl

/-- A good frame without a warning is a good sample (R133). -/
theorem State.serSample_good (ok : s.axis[k].frameOk f = true) (clean : s.axis[k].mode = 2 ∨ (f.nE = true ∧ f.nW = true)) :
    ∃ r : State, r.axis[k] = (s.axis[k].frameDone (f.pos.toNat % 2 ^ s.axis[k].ser.len)).frameGood s.axis[k].ser.len f.delay ∧
      s.serSample k f = r.serGood k (if bit s.axis[k].ser.cfg 6 then grayToBin s.axis[k].ser.len (f.pos.toNat % 2 ^ s.axis[k].ser.len)
        else f.pos.toNat % 2 ^ s.axis[k].ser.len) (s.axis[k].sampleLt tf) := by
  have noWarn : (s.axis[k].mode == 3 && !f.nW) = false := by
    rcases clean with ssi | ⟨-, w⟩
    · rw [ssi]; rfl
    · rw [w, Bool.not_true, Bool.and_false]
  have noErr : (s.axis[k].mode == 3 && !f.nE) = false := by
    rcases clean with ssi | ⟨e, -⟩
    · rw [ssi]; rfl
    · rw [e, Bool.not_true, Bool.and_false]
  refine ⟨(s.modAxis k (Axis.frameDone (f.pos.toNat % 2 ^ s.axis[k].ser.len))).modAxis k (Axis.frameGood s.axis[k].ser.len f.delay), ?_, ?_⟩
  · rw [State.modAxis_axis_same, State.modAxis_axis_same]
  · rw [State.serSample_ok runs on ok]
    dsimp only
    rw [noWarn, noErr, State.when_false, if_neg Bool.false_ne_true]

end

theorem serSample_spec (k : Ax) (s : State) (f : SerFrame) (tf : Nat) (runs : s.axis[k].ser.busy = some tf)
    (on : s.axis[k].en = true ∧ 2 ≤ s.axis[k].mode ∧ s.pwr.mode = 0) (v x : Nat)
    (hv : v = if bit s.axis[k].ser.cfg 6 then grayToBin s.axis[k].ser.len (f.pos.toNat % 2 ^ s.axis[k].ser.len) else f.pos.toNat % 2 ^ s.axis[k].ser.len)
    (hx : x = s.axis[k].sampleLt tf) :
    ∃ t : State, exec (.serSample k f) s = .next t ∧ OnlyAxis k s t ∧ Keeps [.guar, .ch, .axis, .cal, .pod, .free] s t ∧ t.axis[k].ser.busy = none ∧
      t.axis[k].ser.raw = BitVec.ofNat 32 (f.pos.toNat % 2 ^ s.axis[k].ser.len) ∧
      (s.axis[k].frameOk f = false → t.axis[k].pos = s.axis[k].pos ∧ t.axis[k].edgeLt = s.axis[k].edgeLt ∧ t.axis[k].err = s.axis[k].err.raise s.tick 0x10 ∧
        t.axis[k].serErr = s.axis[k].serErr.bump s.tick 1 255 ∧ t.axis[k].ser.prev = s.axis[k].ser.prev) ∧
      (s.axis[k].frameOk f = true → s.axis[k].mode = 3 → f.nE = false → t.axis[k].pos = s.axis[k].pos ∧ t.axis[k].err.get 5 = true ∧
        t.axis[k].ser.prev = s.axis[k].ser.prev) ∧
      (s.axis[k].frameOk f = true → s.axis[k].mode = 2 ∨ (f.nE = true ∧ f.nW = true) → t.axis[k].ser.good = s.axis[k].ser.good + 1 ∧
        (s.axis[k].ser.prev = none → t.axis[k].pos = BitVec.ofNat 32 v ∧ t.axis[k].edgeLt = x ∧ t.axis[k].ser.prev = some v) ∧
        (∀ p : Nat, s.axis[k].ser.prev = some p →
          (fld s.axis[k].ser.cfg 16 16 = 0 ∨ (serStep s.axis[k].ser.len v p).natAbs ≤ fld s.axis[k].ser.cfg 16 16 →
            t.axis[k].pos = BitVec.ofInt 32 (s.axis[k].pos.toNat + serStep s.axis[k].ser.len v p) ∧ t.axis[k].edgeLt = x ∧ t.axis[k].ser.prev = some v) ∧
          (fld s.axis[k].ser.cfg 16 16 ≠ 0 → fld s.axis[k].ser.cfg 16 16 < (serStep s.axis[k].ser.len v p).natAbs →
            t.axis[k].pos = s.axis[k].pos ∧ t.axis[k].err.get 7 = true ∧ t.axis[k].ser.prev = some p))) := by
  have serial := (serialOn_iff k s).mpr on
  obtain ⟨only, busy, raw⟩ := State.serSample_frame runs serial (f := f)
  refine ⟨_, rfl, only, State.serSample_keeps k f s, busy, raw, fun bad => ?_, State.serSample_biss runs serial, fun ok clean => ?_⟩
  · rw [State.serSample_bad runs serial bad, State.modAxis_axis_same, State.modAxis_axis_same]
    exact ⟨rfl, rfl, rfl, rfl, rfl⟩
  · obtain ⟨r, axis, eq⟩ := State.serSample_good runs serial ok clean
    rw [← hv, ← hx] at eq
    rw [eq]
    have cfg : r.axis[k].ser.cfg = s.axis[k].ser.cfg := by rw [axis]; rfl
    have len : r.axis[k].ser.len = s.axis[k].ser.len := congrArg (fun w => fld w 0 6) cfg
    have pos : r.axis[k].pos = s.axis[k].pos := by rw [axis]; rfl
    have prev : r.axis[k].ser.prev = s.axis[k].ser.prev := by rw [axis]; rfl
    have good : r.axis[k].ser.good = s.axis[k].ser.good + 1 := by rw [axis]; rfl
    refine ⟨?_, fun first => ?_, fun p later => ⟨fun near => ?_, fun limit far => ?_⟩⟩
    · rw [(State.serGood_frame k r v x).2]
      exact good
    · obtain ⟨-, pos', edge, ser⟩ := State.serGood_first k r v x (prev.trans first)
      exact ⟨pos', edge, by rw [ser]⟩
    · rw [← cfg, ← len] at near
      obtain ⟨-, pos', edge, ser⟩ := State.serGood_step k r v x (prev.trans later) near
      exact ⟨by rw [pos', pos, len], edge, by rw [ser]⟩
    · rw [← cfg] at limit
      rw [← cfg, ← len] at far
      rw [State.serGood_jump k r v x (prev.trans later) limit far, State.modAxis_axis_same]
      refine ⟨pos, ?_, prev.trans later⟩
      rw [Axis.fail, Sticky.get_raise]
      exact (Bool.or_eq_true _ _).mpr (Or.inr (by decide))

/-! ### The encoder emulation -/

/-- An emulator drives its own channels alone, and none that is frozen (R86, R144). -/
theorem State.emulDrive_ch (k : Ax) (x : Nat) (s : State) :
    (∀ n : Ch, n ∉ emulChs s.axis[k] → (s.emulDrive k x).ch[n] = s.ch[n]) ∧ (∀ n : Ch, s.ch[n].frz = true → (s.emulDrive k x).ch[n] = s.ch[n]) := by
  unfold State.emulDrive
  refine forAll_induction (P := fun t => (∀ n : Ch, n ∉ emulChs s.axis[k] → t.ch[n] = s.ch[n]) ∧ (∀ n : Ch, s.ch[n].frz = true → t.ch[n] = s.ch[n]))
    (fun e he r hr => ?_) ⟨fun _ _ => rfl, fun _ _ => rfl⟩
  obtain ⟨other, frozen⟩ := hr
  have mine : e.1 ∈ emulChs s.axis[k] := (List.of_mem_zip (a := e.1) (b := e.2) he).1
  dsimp only
  split
  · exact ⟨other, frozen⟩
  · next thaws =>
    refine ⟨fun n hn => ?_, fun n hn => ?_⟩
    · rw [State.modCh_ch_other r e.1 n _ (fun h => hn (h ▸ mine)), other n hn]
    · have ne : n ≠ e.1 := fun h => thaws (by rw [← h, frozen n hn]; exact hn)
      rw [State.modCh_ch_other r e.1 n _ ne, frozen n hn]

section
variable (k : Ax) (s : State)

/-- The emulation that EMUL_ENABLE starts from zero. -/
def Emul.started (c : W) (e : Emul) : Emul := { e with cfg := c, run := true, acc := 0, out := 0, wait := [], lastX := none }

theorem emulEnable_spec (w c : W) (hc : c = (w ||| 1) &&& 0x3FFFF) (off : bit s.axis[k].emul.cfg 0 = false) :
    ∃ t : State, exec (.emulEnable k w) s = .next t ∧ OnlyAxis k s t ∧ Keeps [.ch, .axis] s t ∧
      (emulPinsOk c = true → (emulChs { s.axis[k] with emul := s.axis[k].emul.started c }).all (emulFree s) = true →
        t.axis[k] = { s.axis[k] with emul := s.axis[k].emul.started c } ∧ ∀ n : Ch, n ∉ emulChs t.axis[k] → t.ch[n] = s.ch[n]) ∧
      (emulPinsOk c = false ∨ (emulChs { s.axis[k] with emul := s.axis[k].emul.started c }).all (emulFree s) = false →
        t.axis[k] = { s.axis[k] with err := s.axis[k].err.raise s.tick 0x1000 } ∧ t.ch = s.ch) := by
  have on : bit c 0 = true := by
    rw [hc, bit, BitVec.getLsbD_and, BitVec.getLsbD_or]
    rw [show (1 : W).getLsbD 0 = true by decide, show (0x3FFFF : W).getLsbD 0 = true by decide, Bool.or_true]
    rfl
  have refusedEq : State.axCfgErr k s = s.modAxis k (fun a => a.fail s.tick (flag 12 true)) := rfl
  generalize hr : s.modAxis k (fun a => { a with emul := a.emul.started c }) = r
  have axisR : r.axis[k] = { s.axis[k] with emul := s.axis[k].emul.started c } := by rw [← hr, State.modAxis_axis_same]
  have eq : s.writeEmulCfg k (w ||| 1) = if emulPinsOk c = true ∧ (emulChs { s.axis[k] with emul := s.axis[k].emul.started c }).all (emulFree s) = true then
      r.emulDrive k ((s.tw + 4) * 32) else s.axCfgErr k := by
    unfold State.writeEmulCfg
    dsimp only
    rw [← hc, off, on, if_neg Bool.false_ne_true]
    cases pins : emulPinsOk c with
    | false => exact (if_pos rfl).trans (if_neg fun h => Bool.false_ne_true h.1).symm
    | true =>
      rw [← axisR, ← hr]
      simp only [Bool.not_true, Bool.false_and, Bool.false_eq_true, if_false, if_true, true_and]
      rfl
  by_cases starts : emulPinsOk c = true ∧ (emulChs { s.axis[k] with emul := s.axis[k].emul.started c }).all (emulFree s) = true
  · rw [if_pos starts] at eq
    have toR : OnlyAxis k s r := hr ▸ State.modAxis_onlyAxis k _ s
    have keepsR : Keeps [.axis] s r := hr ▸ State.modAxis_keeps k _ s
    have chR : r.ch = s.ch := keepsR.2 .ch (by decide)
    have drive := State.emulDrive_keeps k ((s.tw + 4) * 32) r
    have axisT : (r.emulDrive k ((s.tw + 4) * 32)).axis[k] = r.axis[k] := by rw [show (r.emulDrive k ((s.tw + 4) * 32)).axis = r.axis from drive.2 .axis (by decide)]
    refine ⟨_, congrArg Host.Outcome.next eq, toR.trans (.of_keeps drive (by decide)), (keepsR.mono (by decide)).step drive (by decide),
      fun _ _ => ⟨axisT.trans axisR, fun n hn => ?_⟩, fun h => ?_⟩
    · rw [axisT] at hn
      rw [(State.emulDrive_ch k _ r).1 n hn, chR]
    · rcases h with pins | chs
      · exact absurd (pins.symm.trans starts.1) Bool.false_ne_true
      · exact absurd (chs.symm.trans starts.2) Bool.false_ne_true
  · rw [if_neg starts, refusedEq] at eq
    exact ⟨_, congrArg Host.Outcome.next eq, State.modAxis_onlyAxis k _ s, (State.modAxis_keeps k _ s).mono (by decide),
      fun pins chs => absurd ⟨pins, chs⟩ starts, fun _ => ⟨State.modAxis_axis_same .., rfl⟩⟩

theorem emulRestart_spec : ∃ t : State, exec (.emulRestart k) s = .next t ∧ OnlyAxis k s t ∧ Keeps [.axis] s t ∧
    t.axis[k] = { s.axis[k] with emul := { s.axis[k].emul with run := s.axis[k].emul.run || bit s.axis[k].emul.cfg 0 } } := by
  refine ⟨_, rfl, State.modAxis_onlyAxis k _ s, State.emulRestart_keeps k s, ?_⟩
  unfold State.emulRestart
  rw [State.modAxis_axis_same]
  generalize s.axis[k] = a
  cases hc : bit a.emul.cfg 0 <;> cases hr : a.emul.run <;> simp [← hr]

theorem emulEdge_spec (c : EmulEdge) (r : List EmulEdge) (waits : s.axis[k].emul.wait = c :: r) :
    (s.tick < c.x / 32 - 4 → exec (.emulOutputEdge k) s = .next s) ∧
    (c.x / 32 - 4 ≤ s.tick → ∃ t : State, exec (.emulOutputEdge k) s = .next t ∧ OnlyAxis k s t ∧ Keeps [.ch, .axis] s t ∧
      t.axis[k] = { s.axis[k] with emul := { s.axis[k].emul with wait := r, out := if c.up then s.axis[k].emul.out + 1 else s.axis[k].emul.out - 1 } } ∧
      (∀ n : Ch, n ∉ emulChs s.axis[k] → t.ch[n] = s.ch[n]) ∧ (∀ n : Ch, s.ch[n].frz = true → t.ch[n] = s.ch[n])) := by
  refine ⟨fun early => ?_, fun due => ?_⟩
  · have eq : s.emulEdge k = s := by
      unfold State.emulEdge
      rw [waits]
      exact if_neg (Nat.not_le.mpr early)
    exact congrArg Host.Outcome.next eq
  · generalize hu : s.modAxis k (fun a => { a with emul := { a.emul with wait := r, out := if c.up then a.emul.out + 1 else a.emul.out - 1 } }) = u
    have eq : s.emulEdge k = u.emulDrive k c.x := by
      unfold State.emulEdge
      rw [waits, ← hu]
      exact if_pos due
    have axisU : u.axis[k] = { s.axis[k] with emul := { s.axis[k].emul with wait := r, out := if c.up then s.axis[k].emul.out + 1 else s.axis[k].emul.out - 1 } } := by
      rw [← hu, State.modAxis_axis_same]
    have toU : OnlyAxis k s u := hu ▸ State.modAxis_onlyAxis k _ s
    have keepsU : Keeps [.axis] s u := hu ▸ State.modAxis_keeps k _ s
    have chU : u.ch = s.ch := keepsU.2 .ch (by decide)
    have drive := State.emulDrive_keeps k c.x u
    have chs : emulChs u.axis[k] = emulChs s.axis[k] := by rw [axisU]; rfl
    obtain ⟨other, frozen⟩ := State.emulDrive_ch k c.x u
    rw [chs, chU] at other
    rw [chU] at frozen
    refine ⟨_, congrArg Host.Outcome.next eq, toU.trans (.of_keeps drive (by decide)), (keepsU.mono (by decide)).step drive (by decide), ?_, other, frozen⟩
    rw [show (u.emulDrive k c.x).axis = u.axis from drive.2 .axis (by decide), axisU]

end

/-- Settles O31: a frame ends in one of three ways, and a good one goes through the same count as an edge; the emulator drives its channels alone. -/
theorem serialAndEmulator : Obligations.SerialAndEmulator := by
  unfold Obligations.SerialAndEmulator
  refine ⟨fun k s => ?_, fun k s => ?_⟩
  · obtain ⟨idle, abandons⟩ := serTmo_spec k s
    refine ⟨fun on trig => ?_, fun on trig some_ due => ?_, fun off => ?_, idle, abandons, fun f free => ?_, fun f tf runs on =>
      serSample_spec k s f tf runs on _ _ rfl rfl⟩
    · exact ⟨_, congrArg Host.Outcome.next ((serStarts_spec k s on).1 trig), State.frameStart_spec k s _⟩
    · exact ⟨_, (serStarts_spec k s on).2 trig some_ due, State.frameStart_spec k s _⟩
    · obtain ⟨trig, period⟩ := serStarts_off k s off
      exact ⟨congrArg Host.Outcome.next trig, period⟩
    · have eq : s.serSample k f = s := by
        unfold State.serSample
        dsimp only
        rw [free]
      exact congrArg Host.Outcome.next eq
  · refine ⟨fun w off => emulEnable_spec k s w _ rfl off, emulRestart_spec k s, fun none_ => ?_, fun c r waits => emulEdge_spec k s c r waits⟩
    have eq : s.emulEdge k = s := by
      unfold State.emulEdge
      rw [none_]
    exact congrArg Host.Outcome.next eq

end Sys2Proof.Machine
end

section
/-!
The commit of an axis head (R147 to R153).
-/
namespace Sys2Proof.Machine

theorem firstFit_of_fits {l : List Ev} {n : Ch} {o a : Nat} (h : fits l n o a = true) : firstFit l n o (fitSteps l) a = a := by
  rw [show fitSteps l = (128 * l.length + 127) + 1 by unfold fitSteps; omega, firstFit, if_pos h]

/-- What a commit makes of an event, whatever the density does to its ball time. -/
theorem commitEv_spec (l : List Ev) (e : Ev) (ball adv reason : Nat) : (commitEv l e ball adv reason).ord = e.ord ∧ (commitEv l e ball adv reason).committed = true ∧
    (commitEv l e ball adv reason).adv = adv := by
  unfold commitEv
  dsimp only
  split <;> exact ⟨rfl, rfl, rfl⟩

/-- A commit on time, within the density limits, keeps its ball time and is not late (R150, R174). -/
theorem commitEv_on_time {l : List Ev} {e : Ev} {ball adv : Nat} (fit : fits l e.rec_.ch e.ord (ball / 32 - 4) = true) :
    (commitEv l e ball adv 0).ball = ball ∧ (commitEv l e ball adv 0).late = false := by
  have stays : firstFit l e.rec_.ch e.ord (fitSteps l) (Ev.actionTick { e with ball := ball, adv := adv, committed := true }) =
      Ev.actionTick { e with ball := ball, adv := adv, committed := true } := firstFit_of_fits fit
  unfold commitEv
  dsimp only
  rw [stays, bne_self_eq_false, if_neg Bool.false_ne_true, if_neg Bool.false_ne_true]
  exact ⟨rfl, rfl⟩

/-- The mark SEQ_AMBIG is all that an event may gain among those of its channel (R175). -/
theorem State.markAmbig_ev (e : Ev) (s : State) : ∃ b : Bool, (s.markAmbig e).2 = { e with ambig := b } := by
  unfold State.markAmbig
  dsimp only
  split
  · exact ⟨true, rfl⟩
  · exact ⟨e.ambig, rfl⟩

theorem State.drainIf_commits (p q : Pod) (e : Ev) (s : State) : (s.drainIf p e).pod[q].commits = s.pod[q].commits := by
  have counted (b : Nat) (r : State) : (r.modPod p (fun x => { x with winMax := x.winMax.peak r.tick b })).pod[q].commits = r.pod[q].commits := by
    by_cases h : q = p
    · subst h; rw [State.modPod_pod_same]
    · rw [State.modPod_pod_other r p q _ h]
  unfold State.drainIf State.when
  split
  · unfold State.drainCheck State.when
    dsimp only
    split
    · exact counted _ s
    · exact counted _ s
  · rfl

/-- The event that is handed to a pod waits in its commit path (R173). -/
theorem State.toCommits_mem (o : Nat) (e : Ev) (s : State) {p : Pod} (hp : podOf e.rec_.ch = p) :
    ∃ b : Bool, { e with ambig := b } ∈ (s.toCommits o e).pod[p].commits := by
  subst hp
  obtain ⟨b, marked⟩ := State.markAmbig_ev e (s.unlist o)
  refine ⟨b, ?_⟩
  unfold State.toCommits
  extract_lets r
  rw [State.drainIf_commits]
  have put : (State.freeSlots 1 (r.1.modPod (podOf e.rec_.ch) (fun q => { q with commits := q.commits ++ [r.2] }))).pod[podOf e.rec_.ch].commits =
      r.1.pod[podOf e.rec_.ch].commits ++ [r.2] := by
    change (r.1.modPod (podOf e.rec_.ch) (fun q => { q with commits := q.commits ++ [r.2] })).pod[podOf e.rec_.ch].commits = _
    rw [State.modPod_pod_same]
  rw [put, ← marked]
  exact List.mem_append_right _ (List.mem_singleton_self _)

theorem State.keepHeads_ord (k : Ax) (s : State) : ∀ x ∈ (s.keepHeads k).cal.pos, ∃ y ∈ s.cal.pos, y.ev = x.ev := by
  intro x hx
  obtain ⟨y, hy, rfl⟩ := List.mem_map.mp (show x ∈ s.cal.pos.map _ from hx)
  refine ⟨y, hy, ?_⟩
  split <;> rfl

section
variable (k : Ax) (n : Ch) (s : State) {h : PosEv} {arr : Nat} (head : headOf k n s = some h) (predicted : h.arr s.tick = some arr)
include head predicted

theorem State.posCommit_waits (waits : s.axis[k].held s.tick = true ∨ s.ch[n].aborted = true ∨ s.pwr.mode ≠ 0 ∨
    s.tick * 32 + s.axis[k].cl * 32 < arr - s.ch[n].adv.for_ arr) : s.posCommit k n = s := by
  unfold State.posCommit
  rw [head]
  dsimp only
  rw [predicted]
  refine if_pos ?_
  simpa only [Bool.or_eq_true, bne_iff_ne, decide_eq_true_eq, or_assoc] using waits

theorem State.posCommit_commits (ready : ¬ (s.axis[k].held s.tick = true ∨ s.ch[n].aborted = true ∨ s.pwr.mode ≠ 0 ∨
    s.tick * 32 + s.axis[k].cl * 32 < arr - s.ch[n].adv.for_ arr)) (alone : withHead k h s = [h.ev]) : s.posCommit k n =
      (s.commitPos k h.ev (commitBall (arr - s.ch[n].adv.for_ arr) s.axis[k].cl s).1 (s.ch[n].adv.for_ arr)
        (commitBall (arr - s.ch[n].adv.for_ arr) s.axis[k].cl s).2).keepHeads k := by
  unfold State.posCommit
  rw [head]
  dsimp only
  rw [predicted]
  dsimp only
  rw [alone]
  rw [if_neg fun h => ready (by simpa only [Bool.or_eq_true, bne_iff_ne, decide_eq_true_eq, or_assoc] using h)]
  generalize commitBall (arr - s.ch[n].adv.for_ arr) s.axis[k].cl s = r
  obtain ⟨ball, why⟩ := r
  dsimp only [forAll, List.foldl]

end

theorem posCommit_spec (k : Ax) (n : Ch) (s : State) (h : PosEv) (arr : Nat) (head : headOf k n s = some h) (predicted : h.arr s.tick = some arr)
    (ready : ¬ (s.axis[k].held s.tick = true ∨ s.ch[n].aborted = true ∨ s.pwr.mode ≠ 0 ∨ s.tick * 32 + s.axis[k].cl * 32 < arr - s.ch[n].adv.for_ arr))
    (alone : withHead k h s = [h.ev]) : ∃ t : State, exec (.posCommit k n) s = .next t ∧ OnlyAxis k s t ∧ Keeps [.guar, .ch, .axis, .cal, .pod] s t ∧
      (∀ x ∈ t.cal.pos, x.ev.ord ≠ h.ev.ord) ∧
      (∃ e ∈ t.pod[podOf h.ev.rec_.ch].commits, e.ord = h.ev.ord ∧ e.rec_ = h.ev.rec_ ∧ e.committed = true ∧ e.adv = s.ch[n].adv.for_ arr ∧
        (s.tick * 32 + s.axis[k].cl * 16 ≤ arr - s.ch[n].adv.for_ arr →
          fits (podEvs (podOf h.ev.rec_.ch) s) h.ev.rec_.ch h.ev.ord ((arr - s.ch[n].adv.for_ arr) / 32 - 4) = true →
          e.ball = arr - s.ch[n].adv.for_ arr ∧ e.late = false)) := by
  have eq := State.posCommit_commits k n s head predicted ready alone
  have onTime (early : s.tick * 32 + s.axis[k].cl * 16 ≤ arr - s.ch[n].adv.for_ arr) :
      commitBall (arr - s.ch[n].adv.for_ arr) s.axis[k].cl s = (arr - s.ch[n].adv.for_ arr, 0) := if_pos early
  generalize commitBall (arr - s.ch[n].adv.for_ arr) s.axis[k].cl s = r at eq onTime
  have heads := State.keepHeads_keeps k (s.commitPos k h.ev r.1 (s.ch[n].adv.for_ arr) r.2)
  have podSame : (s.posCommit k n).pod = (s.commitPos k h.ev r.1 (s.ch[n].adv.for_ arr) r.2).pod := by
    rw [eq]; exact heads.2 .pod (by decide)
  have counted := State.commitPos_counted k h.ev r.1 (s.ch[n].adv.for_ arr) r.2 s
  refine ⟨_, congrArg Host.Outcome.next eq, counted.alone.trans (.of_keeps heads (by decide)), (State.commitPos_keeps ..).step heads (by decide), fun x hx => ?_, ?_⟩
  · obtain ⟨y, hy, same⟩ := State.keepHeads_ord k _ x hx
    rw [State.commitPos_pos] at hy
    rw [← same]
    exact bne_iff_ne.mp (List.mem_filter.mp hy).2
  · obtain ⟨u, -, -, path⟩ := State.commitPos_split k h.ev r.1 (s.ch[n].adv.for_ arr) r.2 s
    obtain ⟨ord, committed, adv⟩ := commitEv_spec (podEvs (podOf h.ev.rec_.ch) s) h.ev r.1 (s.ch[n].adv.for_ arr) r.2
    have rec_ := commitEv_rec (podEvs (podOf h.ev.rec_.ch) s) h.ev r.1 (s.ch[n].adv.for_ arr) r.2
    obtain ⟨b, mem⟩ := State.toCommits_mem h.ev.ord (commitEv (podEvs (podOf h.ev.rec_.ch) s) h.ev r.1 (s.ch[n].adv.for_ arr) r.2) u
      (congrArg (fun x : Rec => podOf x.ch) rec_)
    rw [← path, ← podSame, eq] at mem
    refine ⟨_, mem, ord, rec_, committed, adv, fun early fit => ?_⟩
    rw [onTime early]
    exact commitEv_on_time fit

/-- Settles O32: a head commits by the one operation that all commits go through, whose event is what `commitEv` makes of it. -/
theorem positionCommit : Obligations.PositionCommit := by
  unfold Obligations.PositionCommit
  refine fun k n s => ⟨fun none_ => ?_, fun h head => ⟨fun none_ => ?_, fun arr predicted => ⟨fun waits => ?_, fun ready alone => ?_⟩⟩⟩
  · have eq : s.posCommit k n = s := by
      unfold State.posCommit
      rw [none_]
    exact congrArg Host.Outcome.next eq
  · have eq : s.posCommit k n = s := by
      unfold State.posCommit
      rw [head]
      dsimp only
      rw [none_]
    exact congrArg Host.Outcome.next eq
  · exact congrArg Host.Outcome.next (State.posCommit_waits k n s head predicted waits)
  · exact posCommit_spec k n s h arr head predicted ready alone

end Sys2Proof.Machine
end

section
/-!
SUPPORT. Mailboxes: one mailbox alone, a command that is carried out, and its answer (R261 to R264).
-/
namespace Sys2Proof.Machine

theorem OnlyMbx.refl (b : Mbx) (s : State) : OnlyMbx b s s := fun _ _ => rfl

theorem OnlyMbx.trans {b : Mbx} {s t u : State} (h : OnlyMbx b s t) (k : OnlyMbx b t u) : OnlyMbx b s u := fun m hm => (k m hm).trans (h m hm)

theorem OnlyMbx.of_mbx_eq {b : Mbx} {s t : State} (h : t.mbx = s.mbx) : OnlyMbx b s t := fun _ _ => by rw [h]

theorem OnlyMbx.of_keeps {b : Mbx} {l : List Part} {s t : State} (h : Keeps l s t) (hl : Part.mbx ∉ l) : OnlyMbx b s t := .of_mbx_eq (h.2 .mbx hl)

theorem State.modMbx_onlyMbx (b : Mbx) (f : Mailbox → Mailbox) (s : State) : OnlyMbx b s (s.modMbx b f) := fun m hm => State.modMbx_mbx_other s b m f hm

theorem State.answer_onlyMbx (b : CmdMbx) (status detail : Nat) (reply : List Byte) (s : State) : OnlyMbx (cmdMbx b) s (s.answer b status detail reply) :=
  State.modMbx_onlyMbx _ _ s

/-- A command that the firmware can carry out is carried out. -/
theorem State.command_of_runs {b : CmdMbx} {op : Nat} {seq : W} {body : List Byte} {s : State} (h : CmdRuns b op seq body s) (f : List Byte → State → State) :
    s.command b op f = f body s := by
  obtain ⟨⟨cap, phase⟩, up, awake⟩ := h
  unfold State.command
  rw [phase]
  exact if_pos (by rw [decide_eq_true rfl, up, awake]; rfl)

section
variable {b : CmdMbx} {op cap : Nat} {seq : W} {body : List Byte} {s r : State} (phase : s.mbx[cmdMbx b].phase = .running op seq cap body)
include phase

theorem State.answer_mbx (status detail : Nat) (reply : List Byte) :
    (s.answer b status detail reply).mbx[cmdMbx b] = { s.mbx[cmdMbx b] with phase := .answered (some seq) true status detail reply } := by
  unfold State.answer
  rw [State.modMbx_mbx_same]
  dsimp only
  rw [phase]

/-- An answer is the outcome of the command, where nothing of the mailboxes has changed before it. -/
theorem State.answer_answered (same : r.mbx = s.mbx) (status detail : Nat) (reply : List Byte) : Answered b seq status detail reply s (r.answer b status detail reply) := by
  have phaseR : r.mbx[cmdMbx b].phase = .running op seq cap body := by rw [same]; exact phase
  refine ⟨?_, (OnlyMbx.of_mbx_eq same).trans (State.answer_onlyMbx b status detail reply r)⟩
  rw [State.answer_mbx phaseR, same]

end

theorem CmdRuns.answered {b : CmdMbx} {op : Nat} {seq : W} {body : List Byte} {s r : State} (h : CmdRuns b op seq body s) (same : r.mbx = s.mbx)
    (status detail : Nat) (reply : List Byte) : Answered b seq status detail reply s (r.answer b status detail reply) := by
  obtain ⟨⟨cap, phase⟩, -⟩ := h
  exact State.answer_answered phase same status detail reply

end Sys2Proof.Machine
end

section
/-!
Calendar records, from the command to their acceptance (R157 to R172, R271).
-/
namespace Sys2Proof.Machine

/-! ### What filing a record leaves of the calendar's counts -/

/-- The order number and the count of accepted records are as before. -/
def SameCounts (s t : State) : Prop := t.cal.ord = s.cal.ord ∧ t.cal.accCnt = s.cal.accCnt

theorem SameCounts.refl (s : State) : SameCounts s s := ⟨rfl, rfl⟩
theorem SameCounts.trans {s t u : State} (h : SameCounts s t) (k : SameCounts t u) : SameCounts s u := ⟨k.1.trans h.1, k.2.trans h.2⟩
theorem SameCounts.of_keeps {l : List Part} {s t : State} (h : Keeps l s t) (hl : Part.cal ∉ l) : SameCounts s t := by
  have same : t.cal = s.cal := h.2 .cal hl
  exact ⟨by rw [same], by rw [same]⟩

theorem State.markAmbig_sameCounts (e : Ev) (s : State) : SameCounts s (s.markAmbig e).1 := by
  unfold State.markAmbig
  dsimp only
  split
  · exact ⟨rfl, rfl⟩
  · exact .refl s

theorem State.toCommits_sameCounts (o : Nat) (e : Ev) (s : State) : SameCounts s (s.toCommits o e) := by
  have marked : SameCounts s ((s.unlist o).markAmbig e).1 := SameCounts.trans (t := s.unlist o) ⟨rfl, rfl⟩ (State.markAmbig_sameCounts e _)
  unfold State.toCommits
  extract_lets r
  have freed : SameCounts r.1 ((r.1.modPod (podOf e.rec_.ch) fun q => { q with commits := q.commits ++ [r.2] }).freeSlots 1) := ⟨rfl, rfl⟩
  exact (marked.trans freed).trans (.of_keeps (State.drainIf_keeps (podOf e.rec_.ch) r.2 _) (by decide))

theorem State.posBehind_sameCounts (k : Ax) (e : Ev) (s : State) : SameCounts s (s.posBehind k e) := by
  unfold State.posBehind
  extract_lets r
  have seen : SameCounts s r := ⟨rfl, rfl⟩
  split
  · split
    · exact ⟨rfl, rfl⟩
    · obtain ⟨u, -, keeps, eq⟩ := State.commitPos_split k e r.shortBall (advInForce e.rec_.ch r) rsShortLead r
      rw [eq]
      exact (seen.trans (.of_keeps keeps (by decide))).trans (State.toCommits_sameCounts ..)
  · exact ⟨rfl, rfl⟩

theorem State.acceptPos_sameCounts (r : Rec) (s : State) : SameCounts s (s.acceptPos r) := by
  unfold State.acceptPos
  extract_lets a e cls stopped c u
  have listed : SameCounts s u := ⟨rfl, rfl⟩
  clear_value u cls stopped
  cases stopped
  · rw [if_neg Bool.false_ne_true]
    cases cls
    · exact listed.trans ⟨rfl, rfl⟩
    · exact listed.trans ⟨rfl, rfl⟩
    · exact listed.trans (State.posBehind_sameCounts ..)
  · exact listed

/-! ### A time record -/

/-- The event a time record is filed as: moved where the fast lane finds another action tick (R171). -/
def filedEv (r : Rec) (s : State) : Ev :=
  if toFast (timeEv r s) s && decide ((timeEv r s).ball < nearLimit s.tick) && nearFit (timeEv r s) s != (timeEv r s).actionTick then
    (timeEv r s).moveTo (nearFit (timeEv r s) s) else timeEv r s

/-- An event enters the fast lane, the wheel or the overflow area (R166). -/
def State.fileEv (p : Pod) (fast : Bool) (e : Ev) (s : State) : State :=
  if fast then s.modPod p (fun q => { q with fast := q.fast ++ [e] })
  else if bucketOf e.ball ≤ s.tick / 512 + 65535 then { s with cal := { s.cal with wheel := s.cal.wheel ++ [e] } }
  else { s with cal := { s.cal with ovfl := s.cal.ovfl ++ [e] } }

/-- Late records are counted. -/
def State.countLate (late : Bool) (s : State) : State :=
  { s with cal := { s.cal with lateCnt := if late then s.cal.lateCnt.bump s.tick 1 0xFFFFFFFF else s.cal.lateCnt } }

theorem State.acceptTime_eq (r : Rec) (s : State) : s.acceptTime r =
    (let m := (s.when (filedEv r s).late (State.breach brLate)).markAmbig (filedEv r s)
     (m.1.countLate m.2.late).fileEv (podOf r.ch) (toFast (timeEv r s) s) m.2) := by
  unfold State.acceptTime filedEv
  dsimp only
  generalize State.markAmbig _ _ = m
  rfl

theorem filedEv_rec (r : Rec) (s : State) : (filedEv r s).rec_ = r ∧ (filedEv r s).ord = s.cal.ord ∧ (filedEv r s).late = (timeEv r s).late ∧ (filedEv r s).tAcc = s.tick := by
  unfold filedEv
  split <;> exact ⟨rfl, rfl, rfl, rfl⟩

theorem filedEv_of_slow {r : Rec} {s : State} (slow : toFast (timeEv r s) s = false) : filedEv r s = timeEv r s := by
  unfold filedEv
  rw [slow]
  rfl

theorem markAmbig_late (e : Ev) (s : State) : (s.markAmbig e).2.late = e.late := by
  obtain ⟨b, h⟩ := State.markAmbig_ev e s
  rw [h]

theorem State.markAmbig_lateCnt (e : Ev) (s : State) : (s.markAmbig e).1.cal.lateCnt = s.cal.lateCnt := by
  unfold State.markAmbig
  dsimp only
  split <;> rfl

theorem State.breach_get (i : Nat) (s : State) : (s.breach i).guar.flags = s.guar.flags.raise s.tick (flag i true) := rfl

theorem State.fileEv_keeps (p : Pod) (fast : Bool) (e : Ev) (s : State) : Keeps [.cal, .pod] s (s.fileEv p fast e) := by
  unfold State.fileEv
  split
  · exact (State.modPod_keeps ..).mono (by decide)
  · split
    · exact (Keeps.setCal s _).mono (by decide)
    · exact (Keeps.setCal s _).mono (by decide)

theorem State.fileEv_counts (p : Pod) (fast : Bool) (e : Ev) (s : State) : SameCounts s (s.fileEv p fast e) ∧ (s.fileEv p fast e).cal.lateCnt = s.cal.lateCnt := by
  unfold State.fileEv
  split
  · exact ⟨⟨rfl, rfl⟩, rfl⟩
  · split <;> exact ⟨⟨rfl, rfl⟩, rfl⟩

/-- Where an accepted time record is filed, and what a late one sets (R158, R161, R166). -/
theorem State.acceptTime_spec (r : Rec) (s : State) : SameCounts s (s.acceptTime r) ∧
    ((timeEv r s).late = true → (s.acceptTime r).guar.flags.get 1 = true ∧ (s.acceptTime r).cal.lateCnt = s.cal.lateCnt.bump s.tick 1 0xFFFFFFFF) ∧
    ∃ b : Bool,
      (toFast (timeEv r s) s = false → bucketOf (timeEv r s).ball ≤ s.tick / 512 + 65535 → { timeEv r s with ambig := b } ∈ (s.acceptTime r).cal.wheel) ∧
      (toFast (timeEv r s) s = false → s.tick / 512 + 65535 < bucketOf (timeEv r s).ball → { timeEv r s with ambig := b } ∈ (s.acceptTime r).cal.ovfl) ∧
      (toFast (timeEv r s) s = true → { filedEv r s with ambig := b } ∈ (s.acceptTime r).pod[podOf r.ch].fast) := by
  rw [State.acceptTime_eq]
  obtain ⟨-, -, late, -⟩ := filedEv_rec r s
  rw [late]
  have noted : Keeps [.guar] s (s.when (timeEv r s).late (State.breach brLate)) := (Keeps.refl _ s).when _ _ fun u => State.breach_keeps brLate u
  have breached : (timeEv r s).late = true → (s.when (timeEv r s).late (State.breach brLate)).guar.flags = s.guar.flags.raise s.tick 2 := fun h => by
    rw [h, State.when_true, State.breach_get]; rfl
  generalize s.when (timeEv r s).late (State.breach brLate) = u at noted breached ⊢
  have cal : u.cal = s.cal := noted.2 .cal (by decide)
  have marked := State.markAmbig_keeps (filedEv r s) u
  have counts := State.markAmbig_sameCounts (filedEv r s) u
  have lateCnt := State.markAmbig_lateCnt (filedEv r s) u
  have lateM := (markAmbig_late (filedEv r s) u).trans late
  obtain ⟨b, ev⟩ := State.markAmbig_ev (filedEv r s) u
  generalize u.markAmbig (filedEv r s) = m at marked counts lateCnt lateM ev ⊢
  dsimp only
  rw [lateM]
  have tickM : m.1.tick = s.tick := (marked.tick (by decide)).trans (noted.tick (by decide))
  have guarM : m.1.guar = u.guar := marked.2 .guar (by decide)
  obtain ⟨filed, lateF⟩ := State.fileEv_counts (podOf r.ch) (toFast (timeEv r s) s) m.2 (m.1.countLate (timeEv r s).late)
  have guarF := (State.fileEv_keeps (podOf r.ch) (toFast (timeEv r s) s) m.2 (m.1.countLate (timeEv r s).late)).2 .guar (by decide)
  dsimp only [Part.same] at guarF
  have tickL : (m.1.countLate (timeEv r s).late).tick = s.tick := tickM
  refine ⟨?_, fun isLate => ⟨?_, ?_⟩, b, fun slow near => ?_, fun slow far => ?_, fun fast => ?_⟩
  · exact ((SameCounts.of_keeps noted (by decide)).trans counts).trans (SameCounts.trans ⟨rfl, rfl⟩ filed)
  · rw [guarF, show (m.1.countLate (timeEv r s).late).guar = u.guar from guarM, breached isLate, Sticky.get_raise]
    exact (Bool.or_eq_true _ _).mpr (Or.inr (by decide))
  · rw [lateF, State.countLate, if_pos isLate, lateCnt, tickM, cal]
  · rw [filedEv_of_slow slow] at ev
    rw [slow, State.fileEv, if_neg Bool.false_ne_true, tickL, ev, if_pos near]
    exact List.mem_append_right _ (List.mem_singleton_self _)
  · rw [filedEv_of_slow slow] at ev
    rw [slow, State.fileEv, if_neg Bool.false_ne_true, tickL, ev, if_neg (Nat.not_le.mpr far)]
    exact List.mem_append_right _ (List.mem_singleton_self _)
  · rw [fast, State.fileEv, if_pos rfl, State.modPod_pod_same, ev]
    exact List.mem_append_right _ (List.mem_singleton_self _)

/-! ### A position record -/

/-- The event a position record becomes (R145). -/
def posEv (r : Rec) (s : State) : Ev := { rec_ := r, ord := s.cal.ord, tAcc := s.tick, ball := 0, adv := 0 }

theorem State.acceptPos_stopped {r : Rec} {s : State} (stopped : s.axis[r.axis].isStopped s.tick = true) :
    { ev := posEv r s, axis := r.axis, ahead := false } ∈ (s.acceptPos r).cal.pos := by
  unfold State.acceptPos
  dsimp only
  rw [stopped, if_pos rfl]
  exact List.mem_append_right _ (List.mem_singleton_self _)

theorem State.acceptPos_ahead {r : Rec} {s : State} (moves : s.axis[r.axis].isStopped s.tick = false)
    (ahead : posClass s.axis[r.axis].rev s.axis[r.axis].pos r.target = .ahead) : ∃ x ∈ (s.acceptPos r).cal.pos, x.ev = posEv r s ∧ x.axis = r.axis ∧ x.ahead = true := by
  unfold State.acceptPos
  dsimp only
  rw [moves, ahead, if_neg Bool.false_ne_true]
  dsimp only
  refine ⟨_, List.mem_map.mpr ⟨{ ev := posEv r s, axis := r.axis, ahead := true }, List.mem_append_right _ (List.mem_singleton_self _), rfl⟩, ?_⟩
  split <;> exact ⟨rfl, rfl, rfl⟩

/-! ### An accepted record -/

theorem State.acceptRec_counts (r : Rec) (s : State) : (s.acceptRec r).cal.ord = s.cal.ord + 1 ∧ (s.acceptRec r).cal.lastAcc = some s.tick ∧
    (s.acceptRec r).cal.accCnt = s.cal.accCnt.bump s.tick 1 0xFFFFFFFF := by
  unfold State.acceptRec
  extract_lets u
  have counts : SameCounts s u ∧ u.tick = s.tick := by
    by_cases timed : r.timed = true
    · simp only [u, if_pos timed]
      exact ⟨(State.acceptTime_spec r s).1, (State.acceptTime_keeps r s).tick (by decide)⟩
    · simp only [u, if_neg timed]
      exact ⟨State.acceptPos_sameCounts r s, (State.acceptPos_keeps r s).tick (by decide)⟩
  obtain ⟨⟨ord, acc⟩, tick⟩ := counts
  dsimp only
  rw [ord, acc, tick]
  exact ⟨rfl, rfl, rfl⟩

theorem State.acceptRec_same (r : Rec) (s : State) : let u := if r.timed then s.acceptTime r else s.acceptPos r
    (s.acceptRec r).guar = u.guar ∧ (s.acceptRec r).pod = u.pod ∧ (s.acceptRec r).cal.wheel = u.cal.wheel ∧ (s.acceptRec r).cal.ovfl = u.cal.ovfl ∧
      (s.acceptRec r).cal.pos = u.cal.pos ∧ (s.acceptRec r).cal.lateCnt = u.cal.lateCnt := ⟨rfl, rfl, rfl, rfl, rfl, rfl⟩

/-! ### The reply of a command that carries records -/

/-- The reply of R271. -/
def calReply (j : CalJob) (s : State) : List Byte :=
  leBytes 4 j.done ++ leBytes 4 (calFree s) ++ leBytes 8 (if j.done = 0 then 0 else j.first) ++ leBytes 8 (if j.done = 0 then 0 else j.last)

theorem State.calFinish_onlyMbx (b : CmdMbx) (status detail : Nat) (s : State) : OnlyMbx (cmdMbx b) s (s.calFinish b status detail) :=
  (State.modMbx_onlyMbx (cmdMbx b) _ s).trans (State.answer_onlyMbx b _ _ _ _)

theorem State.calFinish_mbx {b : CmdMbx} {op cap : Nat} {seq : W} {body : List Byte} {s : State} (phase : s.mbx[cmdMbx b].phase = .running op seq cap body)
    (status detail : Nat) : (s.calFinish b status detail).mbx[cmdMbx b] =
      { s.mbx[cmdMbx b] with cal := {}, phase := .answered (some seq) true status detail (calReply s.mbx[cmdMbx b].cal s) } := by
  have phaseC : (s.modMbx (cmdMbx b) (fun m => { m with cal := {} })).mbx[cmdMbx b].phase = .running op seq cap body := by
    rw [State.modMbx_mbx_same]; exact phase
  unfold State.calFinish
  dsimp only
  rw [State.answer_mbx phaseC, State.modMbx_mbx_same]
  rfl

/-! ### O33 -/

section
variable {b : CmdMbx} {seq : W} {body : List Byte} {s : State}

theorem calWrite_spec (h : CmdRuns b 0x20 seq body s) (free : s.mbx[cmdMbx b].cal.active = false) : ∃ t : State, exec (.calWrite b) s = .next t ∧ Keeps [.mbx] s t ∧
    (u32 0 body = 0 → t.mbx[cmdMbx b] = { s.mbx[cmdMbx b] with
      cal := {}, phase := .answered (some seq) true 0 0 (leBytes 4 0 ++ leBytes 4 (calFree s) ++ leBytes 8 0 ++ leBytes 8 0) }) ∧
    (u32 0 body ≠ 0 → t.mbx[cmdMbx b] = { s.mbx[cmdMbx b] with cal := { recs := recsOf (body.drop 16) (u32 0 body), total := u32 0 body, active := true } }) ∧
    OnlyMbx (cmdMbx b) s t := by
  have run : s.command b 0x20 (fun body s => if s.mbx[cmdMbx b].cal.active then s else s.calWrite b body) = s.calWrite b body := by
    rw [State.command_of_runs h, free, if_neg Bool.false_ne_true]
  obtain ⟨⟨cap, phase⟩, -⟩ := h
  generalize hr : s.modMbx (cmdMbx b) (fun m => { m with cal := { recs := recsOf (body.drop 16) (u32 0 body), total := u32 0 body, active := true } }) = r
  have boxR : r.mbx[cmdMbx b] = { s.mbx[cmdMbx b] with cal := { recs := recsOf (body.drop 16) (u32 0 body), total := u32 0 body, active := true } } := by
    rw [← hr, State.modMbx_mbx_same]
  have onlyR : OnlyMbx (cmdMbx b) s r := hr ▸ State.modMbx_onlyMbx (cmdMbx b) _ s
  have keepsR : Keeps [.mbx] s r := hr ▸ State.modMbx_keeps (cmdMbx b) _ s
  have freeR : calFree r = calFree s := by rw [← hr]; rfl
  have eq : s.calWrite b body = if u32 0 body = 0 then r.calFinish b stOk 0 else r := by rw [← hr]; rfl
  by_cases zero : u32 0 body = 0
  · rw [if_pos zero] at eq
    refine ⟨_, congrArg Host.Outcome.next (run.trans eq), keepsR.step (State.calFinish_keeps ..) (by decide), fun _ => ?_, fun some_ => absurd zero some_,
      onlyR.trans (State.calFinish_onlyMbx b _ _ r)⟩
    rw [State.calFinish_mbx (by rw [boxR]; exact phase), boxR, calReply, freeR]
    rfl
  · rw [if_neg zero] at eq
    exact ⟨_, congrArg Host.Outcome.next (run.trans eq), keepsR, fun none_ => absurd none_ zero, fun _ => boxR, onlyR⟩

theorem calWriteDma_spec (h : CmdRuns b 0x21 seq body s) (free : s.mbx[cmdMbx b].cal.active = false) : ∃ t : State, exec (.calWriteDma b) s = .next t ∧
    Keeps [.mbx] s t ∧
    (u64 0 body % 16 ≠ 0 → Answered b seq 5 0 [] s t) ∧
    (u64 0 body % 16 = 0 → u32 8 body = 0 ∨ 16777216 < u32 8 body → Answered b seq 5 8 [] s t) ∧
    (u64 0 body % 16 = 0 → u32 8 body ≠ 0 → u32 8 body ≤ 16777216 →
      t.mbx[cmdMbx b] = { s.mbx[cmdMbx b] with cal := { total := u32 8 body, dma := true, addr := u64 0 body, active := true } } ∧ OnlyMbx (cmdMbx b) s t) := by
  have run : s.command b 0x21 (fun body s => if s.mbx[cmdMbx b].cal.active then s else s.calWriteDma b body) = s.calWriteDma b body := by
    rw [State.command_of_runs h, free, if_neg Bool.false_ne_true]
  by_cases aligned : u64 0 body % 16 = 0
  · have word : (u64 0 body % 16 != 0) = false := bne_eq_false_iff_eq.mpr aligned
    by_cases bad : u32 8 body = 0 ∨ 16777216 < u32 8 body
    · have eq : s.calWriteDma b body = s.answer b stBadField 8 [] := by
        unfold State.calWriteDma
        dsimp only
        rw [word, if_neg Bool.false_ne_true, if_pos bad]
      exact ⟨_, congrArg Host.Outcome.next (run.trans eq), State.answer_keeps .., fun odd => absurd aligned odd, fun _ _ => h.answered rfl _ _ _,
        fun _ some_ fits => by omega⟩
    · have eq : s.calWriteDma b body =
          s.modMbx (cmdMbx b) (fun m => { m with cal := { total := u32 8 body, dma := true, addr := u64 0 body, active := true } }) := by
        unfold State.calWriteDma
        dsimp only
        rw [word, if_neg Bool.false_ne_true, if_neg bad]
      exact ⟨_, congrArg Host.Outcome.next (run.trans eq), State.modMbx_keeps .., fun odd => absurd aligned odd, fun _ h => absurd h bad,
        fun _ _ _ => ⟨State.modMbx_mbx_same .., State.modMbx_onlyMbx (cmdMbx b) _ s⟩⟩
  · have eq : s.calWriteDma b body = s.answer b stBadField 0 [] := by
      unfold State.calWriteDma
      exact if_pos (bne_iff_ne.mpr aligned)
    exact ⟨_, congrArg Host.Outcome.next (run.trans eq), State.answer_keeps .., fun _ => h.answered rfl _ _ _, fun even => absurd even aligned,
      fun even => absurd even aligned⟩

/-- The first two reasons of R157. -/
theorem judgeRec_domain (r : Rec) (s : State) : (9 ≤ r.dom.toNat → judgeRec r s = .refuse 0x11) ∧
    (r.dom.toNat < 9 → r.dom ≠ 0 → 2 ^ 32 ≤ r.due → judgeRec r s = .refuse 0x12) := by
  refine ⟨fun far => ?_, fun known position big => ?_⟩
  · unfold judgeRec
    exact if_pos far
  · unfold judgeRec
    rw [if_neg (by omega), if_pos]
    · rfl
    · rw [Rec.timed, beq_false_of_ne position, decide_eq_true big]
      rfl

end

section
variable {b : CmdMbx} {op cap : Nat} {seq : W} {body : List Byte} {s : State} {w : BitVec 128} {rest : List (BitVec 128)}
  (phase : s.mbx[cmdMbx b].phase = .running op seq cap body) (recs : s.mbx[cmdMbx b].cal.recs = w :: rest)

/-- The engine is free to take the next record of the mailbox (R158). -/
structure CalReady (b : CmdMbx) (s : State) : Prop where
  active : s.mbx[cmdMbx b].cal.active = true
  spaced : ∀ l : Nat, s.cal.lastAcc = some l → l + 8 ≤ s.tick
  awake : s.pwr.mode = 0
  up : s.fw.restarting = false

include recs in
/-- The engine does with the next record what its judgement says. -/
theorem State.calAccept_of_ready (ready : CalReady b s) : s.calAccept b =
    match judgeRec (recOf w) s with
    | .wait => { s with cal := { s.cal with flags := s.cal.flags.raise s.tick (flag 4 true) } }
    | .refuse st => ({ s with cal := { s.cal with
        flags := s.cal.flags.raise s.tick (flag 5 true), refCnt := s.cal.refCnt.bump s.tick 1 0xFFFFFFFF } } : State).calFinish b st
          (if st = stFull then 0 else s.mbx[cmdMbx b].cal.done % 65536)
    | .take =>
      let u := (s.acceptRec (recOf w)).modMbx (cmdMbx b) (fun m => { m with cal := { s.mbx[cmdMbx b].cal with
        recs := rest, done := s.mbx[cmdMbx b].cal.done + 1
        first := if s.mbx[cmdMbx b].cal.done = 0 then s.tick * 32 else s.mbx[cmdMbx b].cal.first, last := s.tick * 32 } })
      if s.mbx[cmdMbx b].cal.done + 1 = s.mbx[cmdMbx b].cal.total then u.calFinish b stOk 0 else u := by
  obtain ⟨active, spaced, awake, up⟩ := ready
  unfold State.calAccept
  dsimp only
  rw [recs, active, awake, up]
  cases last : s.cal.lastAcc with
  | none => rfl
  | some l =>
    have due : decide (l + 8 ≤ s.tick) = true := decide_eq_true (spaced l last)
    exact (if_neg (by simp [due])).trans rfl

include phase in
/-- A refused record ends its command (R159). -/
theorem calRefused_spec (st : Nat) (r : State)
    (hr : r = { s with cal := { s.cal with flags := s.cal.flags.raise s.tick (flag 5 true), refCnt := s.cal.refCnt.bump s.tick 1 0xFFFFFFFF } })
    (t : State) (ht : t = r.calFinish b st (if st = stFull then 0 else s.mbx[cmdMbx b].cal.done % 65536)) :
    t.cal = { s.cal with flags := s.cal.flags.raise s.tick 0x20, refCnt := s.cal.refCnt.bump s.tick 1 0xFFFFFFFF } ∧ t.pod = s.pod ∧ t.ch = s.ch ∧
      t.mbx[cmdMbx b].cal = {} ∧ t.mbx[cmdMbx b].phase = .answered (some seq) true st (if st = 0x10 then 0 else s.mbx[cmdMbx b].cal.done % 65536)
        (calReply s.mbx[cmdMbx b].cal s) := by
  have box : r.mbx = s.mbx := by rw [hr]
  have reply : calReply s.mbx[cmdMbx b].cal r = calReply s.mbx[cmdMbx b].cal s := by rw [hr]; rfl
  have done := State.calFinish_keeps b st (if st = stFull then 0 else s.mbx[cmdMbx b].cal.done % 65536) r
  have boxT := State.calFinish_mbx (s := r) (by rw [box]; exact phase) st (if st = stFull then 0 else s.mbx[cmdMbx b].cal.done % 65536)
  rw [← ht] at done boxT
  rw [box, reply] at boxT
  refine ⟨(done.2 .cal (by decide)).trans (by rw [hr]; rfl), (done.2 .pod (by decide)).trans (by rw [hr]), (done.2 .ch (by decide)).trans (by rw [hr]), ?_, ?_⟩
  · rw [boxT]
  · rw [boxT]
    rfl

include phase in
/-- An accepted record moves the command on, and ends it where it was the last (R158, R271). -/
theorem calTaken_spec (v : State) (keeps : Keeps [.guar, .ch, .axis, .cal, .pod] s v) (j : CalJob) :
    let u := v.modMbx (cmdMbx b) (fun m => { m with cal := j })
    let t := if s.mbx[cmdMbx b].cal.done + 1 = s.mbx[cmdMbx b].cal.total then u.calFinish b stOk 0 else u
    Keeps [.mbx] v t ∧ OnlyMbx (cmdMbx b) s t ∧ (s.mbx[cmdMbx b].cal.done + 1 ≠ s.mbx[cmdMbx b].cal.total → t.mbx[cmdMbx b].cal = j) ∧
      (s.mbx[cmdMbx b].cal.done + 1 = s.mbx[cmdMbx b].cal.total → ∃ reply : List Byte, t.mbx[cmdMbx b].phase = .answered (some seq) true 0 0 reply) := by
  extract_lets u t
  have box : v.mbx = s.mbx := keeps.2 .mbx (by decide)
  have toU : Keeps [.mbx] v u := State.modMbx_keeps (cmdMbx b) _ v
  have onlyU : OnlyMbx (cmdMbx b) s u := (OnlyMbx.of_mbx_eq box).trans (State.modMbx_onlyMbx (cmdMbx b) _ v)
  have boxU : u.mbx[cmdMbx b] = { s.mbx[cmdMbx b] with cal := j } := by rw [← box]; exact State.modMbx_mbx_same ..
  by_cases last : s.mbx[cmdMbx b].cal.done + 1 = s.mbx[cmdMbx b].cal.total
  · have eq : t = u.calFinish b stOk 0 := if_pos last
    rw [eq]
    refine ⟨toU.step (State.calFinish_keeps ..) (by decide), onlyU.trans (State.calFinish_onlyMbx b _ _ u), fun h => absurd last h, fun _ => ⟨calReply u.mbx[cmdMbx b].cal u, ?_⟩⟩
    rw [State.calFinish_mbx (by rw [boxU]; exact phase)]
    rfl
  · have eq : t = u := if_neg last
    rw [eq]
    exact ⟨toU, onlyU, fun _ => by rw [boxU], fun h => absurd h last⟩

end

/-- Where an accepted record waits (R145, R158, R161, R166). -/
theorem acceptRec_spec (r : Rec) (s : State) :
    (r.dom = 0 →
      ((timeEv r s).late = true → (s.acceptRec r).guar.flags.get 1 = true ∧ (s.acceptRec r).cal.lateCnt = s.cal.lateCnt.bump s.tick 1 0xFFFFFFFF) ∧
      (toFast (timeEv r s) s = false → (timeEv r s).ball / 32 / 512 ≤ s.tick / 512 + 65535 → ∃ x ∈ (s.acceptRec r).cal.wheel, x.ord = s.cal.ord ∧ x.rec_ = r ∧
        x.ball = (timeEv r s).ball ∧ x.late = (timeEv r s).late ∧ x.tAcc = s.tick) ∧
      (toFast (timeEv r s) s = false → s.tick / 512 + 65535 < (timeEv r s).ball / 32 / 512 → ∃ x ∈ (s.acceptRec r).cal.ovfl, x.ord = s.cal.ord ∧ x.rec_ = r ∧
        x.ball = (timeEv r s).ball ∧ x.late = (timeEv r s).late) ∧
      (toFast (timeEv r s) s = true → ∃ x ∈ (s.acceptRec r).pod[podOf r.ch].fast, x.ord = s.cal.ord ∧ x.rec_ = r ∧ x.late = true)) ∧
    (r.dom ≠ 0 → s.axis[r.axis].isStopped s.tick = true → ∃ x ∈ (s.acceptRec r).cal.pos, x.ev.rec_ = r ∧ x.ev.ord = s.cal.ord ∧ x.axis = r.axis ∧ x.ahead = false) ∧
    (r.dom ≠ 0 → s.axis[r.axis].isStopped s.tick = false → posClass s.axis[r.axis].rev s.axis[r.axis].pos r.target = .ahead →
      ∃ x ∈ (s.acceptRec r).cal.pos, x.ev.rec_ = r ∧ x.ev.ord = s.cal.ord ∧ x.axis = r.axis ∧ x.ahead = true) := by
  obtain ⟨guar, pod, wheel, ovfl, pos, lateCnt⟩ := State.acceptRec_same r s
  have time_ (h : r.dom = 0) : (if r.timed then s.acceptTime r else s.acceptPos r) = s.acceptTime r := if_pos (beq_iff_eq.mpr h)
  have pos_ (h : r.dom ≠ 0) : (if r.timed then s.acceptTime r else s.acceptPos r) = s.acceptPos r := if_neg fun e => h (beq_iff_eq.mp e)
  refine ⟨fun h => ?_, fun h stopped => ?_, fun h moves ahead => ?_⟩
  · rw [guar, pod, wheel, ovfl, lateCnt, time_ h]
    obtain ⟨-, late, b, inWheel, inOvfl, inFast⟩ := State.acceptTime_spec r s
    refine ⟨late, fun slow near => ⟨_, inWheel slow near, rfl, rfl, rfl, rfl, rfl⟩, fun slow far => ⟨_, inOvfl slow far, rfl, rfl, rfl, rfl⟩, fun fast => ?_⟩
    obtain ⟨rec_, ord, lateF, -⟩ := filedEv_rec r s
    exact ⟨_, inFast fast, ord, rec_, lateF.trans ((Bool.and_eq_true _ _).mp fast).1⟩
  · rw [pos, pos_ h]
    exact ⟨_, State.acceptPos_stopped stopped, rfl, rfl, rfl, rfl⟩
  · rw [pos, pos_ h]
    obtain ⟨x, hx, ev, axis, ahead'⟩ := State.acceptPos_ahead moves ahead
    exact ⟨x, hx, by rw [ev]; rfl, by rw [ev]; rfl, axis, ahead'⟩

/-- Settles O33: the engine does what its judgement of the record says; where an accepted record waits is a lemma of its own. -/
theorem calendarRecords : Obligations.CalendarRecords := by
  unfold Obligations.CalendarRecords
  intro b seq body s
  refine ⟨calWrite_spec, calWriteDma_spec, fun op cap w rest phase recs active spaced awake up => ?_⟩
  obtain ⟨badDom, badDue⟩ := judgeRec_domain (recOf w) s
  have accept := State.calAccept_of_ready recs ⟨active, spaced, awake, up⟩
  cases verdict : judgeRec (recOf w) s with
  | wait =>
    rw [verdict] at accept
    refine ⟨_, congrArg Host.Outcome.next accept, (Keeps.setCal s _).mono (by decide), .of_mbx_eq rfl, badDom, badDue, fun _ => rfl, ?_, ?_⟩
    · exact fun st h => nomatch verdict.symm.trans h
    · exact fun h => nomatch verdict.symm.trans h
  | refuse st =>
    rw [verdict] at accept
    obtain ⟨cal, pod, ch, box, phase'⟩ := calRefused_spec phase st _ rfl _ accept
    have noted : Keeps [.guar, .ch, .axis, .cal, .pod, .mbx] s { s with cal := { s.cal with
      flags := s.cal.flags.raise s.tick (flag 5 true), refCnt := s.cal.refCnt.bump s.tick 1 0xFFFFFFFF } } := (Keeps.setCal s _).mono (by decide)
    have finished := State.calFinish_onlyMbx b st (if st = stFull then 0 else s.mbx[cmdMbx b].cal.done % 65536) { s with cal := { s.cal with
      flags := s.cal.flags.raise s.tick (flag 5 true), refCnt := s.cal.refCnt.bump s.tick 1 0xFFFFFFFF } }
    refine ⟨_, rfl, accept ▸ noted.step (State.calFinish_keeps ..) (by decide), accept ▸ finished, badDom, badDue, ?_, ?_, ?_⟩
    · exact fun h => nomatch verdict.symm.trans h
    · intro st' same
      cases verdict.symm.trans same
      exact ⟨cal, pod, ch, box, phase'⟩
    · exact fun h => nomatch verdict.symm.trans h
  | take =>
    rw [verdict] at accept
    have keeps := State.acceptRec_keeps (recOf w) s
    obtain ⟨ord, lastAcc, accCnt⟩ := State.acceptRec_counts (recOf w) s
    obtain ⟨timed, waits, ahead⟩ := acceptRec_spec (recOf w) s
    dsimp only at accept
    generalize s.acceptRec (recOf w) = v at accept keeps ord lastAcc accCnt timed waits ahead
    generalize hj : ({ s.mbx[cmdMbx b].cal with
      recs := rest, done := s.mbx[cmdMbx b].cal.done + 1
      first := if s.mbx[cmdMbx b].cal.done = 0 then s.tick * 32 else s.mbx[cmdMbx b].cal.first, last := s.tick * 32 } : CalJob) = j at accept
    obtain ⟨toT, only, goesOn, ends⟩ := calTaken_spec phase v keeps j
    rw [← accept] at toT only goesOn ends
    have cal : (s.calAccept b).cal = v.cal := toT.2 .cal (by decide)
    have pod : (s.calAccept b).pod = v.pod := toT.2 .pod (by decide)
    have guar : (s.calAccept b).guar = v.guar := toT.2 .guar (by decide)
    refine ⟨_, rfl, (keeps.mono (by decide)).step toT (by decide), only, badDom, badDue, ?_, ?_, fun _ => ?_⟩
    · exact fun h => nomatch verdict.symm.trans h
    · exact fun st h => nomatch verdict.symm.trans h
    rw [cal, pod, guar, hj]
    exact ⟨ord, lastAcc, accCnt, goesOn, ends, fun h => ⟨rfl, rfl, timed h⟩, waits, ahead⟩

end Sys2Proof.Machine
end

section
/-!
The calendar's other commands: HORIZON_SET, CAL_CONFIG, CAL_CANCEL and RESULT_RING_SET (R162, R167, R176, R210, R273, R275).
-/
namespace Sys2Proof.Machine

/-! ### Pods one by one -/

theorem OnlyPod.refl (p : Pod) (s : State) : OnlyPod p s s := fun _ _ => rfl

theorem OnlyPod.trans {p : Pod} {s t u : State} (h : OnlyPod p s t) (k : OnlyPod p t u) : OnlyPod p s u := fun m hm => (k m hm).trans (h m hm)

theorem OnlyPod.of_pod_eq {p : Pod} {s t : State} (h : t.pod = s.pod) : OnlyPod p s t := fun _ _ => by rw [h]

theorem OnlyPod.of_keeps {p : Pod} {l : List Part} {s t : State} (h : Keeps l s t) (hl : Part.pod ∉ l) : OnlyPod p s t := .of_pod_eq (h.2 .pod hl)

/-- What is done to each pod of a list without repetition. -/
theorem forAll_modPod_pod {l : List Pod} (once : l.Nodup) (f : PodSt → PodSt) (s : State) (p : Pod) :
    (forAll l (fun m => State.modPod m f) s).pod[p] = if p ∈ l then f s.pod[p] else s.pod[p] := by
  unfold forAll
  induction l generalizing s with
  | nil => rfl
  | cons m l ih =>
    obtain ⟨notIn, once'⟩ := List.nodup_cons.mp once
    rw [List.foldl_cons, ih once']
    by_cases h : p = m
    · subst h
      rw [if_neg notIn, if_pos List.mem_cons_self, State.modPod_pod_same]
    · rw [State.modPod_pod_other s m p f h]
      simp only [List.mem_cons, h, false_or]

theorem forAll_allPods (f : PodSt → PodSt) (s : State) (p : Pod) : (forAll allPods (fun m => State.modPod m f) s).pod[p] = f s.pod[p] :=
  (forAll_modPod_pod (List.nodup_finRange 8) f s p).trans (if_pos (List.mem_finRange p))

/-! ### What staging leaves of the calendar (R168) -/

/-- The horizon, the window, what HORIZON_SET has scheduled, the bucket and the overflow area are as before, and the wheel gains no event but those marked. -/
structure StagedFrom (s t : State) : Prop where
  horizon : t.cal.horizon = s.cal.horizon
  win : t.cal.win = s.cal.win
  pendHW : t.cal.pendHW = s.cal.pendHW
  bucket : t.cal.bucket = s.cal.bucket

theorem StagedFrom.refl (s : State) : StagedFrom s s := ⟨rfl, rfl, rfl, rfl⟩

theorem StagedFrom.trans {s t u : State} (h : StagedFrom s t) (k : StagedFrom t u) : StagedFrom s u :=
  ⟨k.horizon.trans h.horizon, k.win.trans h.win, k.pendHW.trans h.pendHW, k.bucket.trans h.bucket⟩

theorem StagedFrom.of_keeps {l : List Part} {s t : State} (h : Keeps l s t) (hl : Part.cal ∉ l) : StagedFrom s t := by
  have same : t.cal = s.cal := h.2 .cal hl
  exact ⟨by rw [same], by rw [same], by rw [same], by rw [same]⟩

theorem State.markAmbig_stagedFrom (e : Ev) (s : State) : StagedFrom s (s.markAmbig e).1 := by
  unfold State.markAmbig
  dsimp only
  split
  · exact ⟨rfl, rfl, rfl, rfl⟩
  · exact .refl s

/-- The wheel without one record (R168). -/
def State.offWheel (o : Nat) (s : State) : State := { s with cal := { s.cal with wheel := s.cal.wheel.filter (fun x => x.ord != o) } }

/-- The event a wheel record is staged as: with the ball time it has now, held behind an earlier event (R67, R161). -/
def stagedEv (e : Ev) (s : State) : Ev := holdEv e.actionTick (e.refresh s) (s.offWheel e.ord)

theorem State.stageRec_eq (e : Ev) (s : State) : s.stageRec e =
    (let m := ((s.offWheel e.ord).noteHeld (stagedEv e s) e.advHeld).markAmbig (stagedEv e s)
     (m.1.freeSlots 1).stageEv m.2) := by
  unfold State.stageRec
  dsimp only
  generalize hm : State.markAmbig _ _ = m
  have same : ((s.offWheel e.ord).noteHeld (stagedEv e s) e.advHeld).markAmbig (stagedEv e s) = m := hm
  rw [same]

theorem State.stageRec_stagedFrom (e : Ev) (s : State) : StagedFrom s (s.stageRec e) := by
  rw [State.stageRec_eq]
  have off : StagedFrom s (s.offWheel e.ord) := ⟨rfl, rfl, rfl, rfl⟩
  have noted : StagedFrom (s.offWheel e.ord) ((s.offWheel e.ord).noteHeld (stagedEv e s) e.advHeld) := .of_keeps (State.noteHeld_keeps ..) (by decide)
  have marked := State.markAmbig_stagedFrom (stagedEv e s) ((s.offWheel e.ord).noteHeld (stagedEv e s) e.advHeld)
  generalize State.markAmbig _ _ = m at marked ⊢
  dsimp only
  have freed : StagedFrom m.1 (m.1.freeSlots 1) := ⟨rfl, rfl, rfl, rfl⟩
  exact (((off.trans noted).trans marked).trans freed).trans (.of_keeps (State.stageEv_keeps ..) (by decide))

theorem State.stageDue_stagedFrom (s : State) : StagedFrom s s.stageDue := by
  unfold State.stageDue
  refine forAll_induction (P := StagedFrom s) (fun p _ r h => h.trans (.of_keeps (State.drainCheck_keeps ..) (by decide))) ?_
  exact forAll_induction (P := StagedFrom s) (fun e _ r h => h.trans (State.stageRec_stagedFrom e r)) (.refl s)

/-! ### HORIZON_SET -/

section
variable {b : CmdMbx} {seq : W} {body : List Byte} {s : State}

theorem horizonSet_spec (h : CmdRuns b 0x24 seq body s) (good : Prop)
    (hg : good ↔ 1 ≤ u32 4 body ∧ u32 4 body ≤ 16 ∧ (u32 4 body + 2) * 512 ≤ u32 0 body ∧ 5120 ≤ u32 0 body ∧ u32 0 body ≤ 400000) :
    ∃ t : State, exec (.horizonSet b) s = .next t ∧ Keeps [.cal, .mbx] s t ∧
      (good → t.cal = { s.cal with pendHW := s.cal.pendHW ++ [(horizonBoundary s, u32 0 body, u32 4 body)] } ∧
        Answered b seq 0 0 (leBytes 8 (horizonBoundary s * 32)) s t) ∧
      (¬ good → t.cal = s.cal ∧ Answered b seq 0x1C 0 [] s t) := by
  have run := State.command_of_runs h (State.horizonSet b)
  have keeps : Keeps [.cal, .mbx] s (s.horizonSet b body) := State.horizonSet_keeps b body s
  by_cases ok : good
  · have eq : s.horizonSet b body =
        ({ s with cal := { s.cal with pendHW := s.cal.pendHW ++ [(horizonBoundary s, u32 0 body, u32 4 body)] } } : State).answer b stOk 0
          (leBytes 8 (horizonBoundary s * 32)) := by
      unfold State.horizonSet
      exact if_neg (by have := hg.mp ok; omega)
    exact ⟨_, congrArg Host.Outcome.next run, keeps, fun _ => ⟨by rw [eq]; rfl, eq ▸ h.answered (r := { s with cal := _ }) rfl _ _ _⟩, fun no => absurd ok no⟩
  · have eq : s.horizonSet b body = s.answer b stBadHorizon 0 [] := by
      unfold State.horizonSet
      exact if_pos (by rw [hg] at ok; omega)
    exact ⟨_, congrArg Host.Outcome.next run, keeps, fun yes => absurd yes ok, fun _ => ⟨by rw [eq]; rfl, eq ▸ h.answered rfl _ _ _⟩⟩

theorem horizonTake_spec {l : List (Nat × Nat × Nat)} {at_ h w : Nat} (pend : s.cal.pendHW = l ++ [(at_, h, w)]) (due : at_ ≤ s.tick) :
    s.horizonTake.cal.horizon = h ∧ s.horizonTake.cal.win = w ∧ (∀ x ∈ s.horizonTake.cal.pendHW, s.tick < x.1) := by
  have last : (s.cal.pendHW.filter (fun x => decide (x.1 ≤ s.tick))).getLast? = some (at_, h, w) := by
    rw [pend, List.filter_append, List.filter_singleton, decide_eq_true due, cond_true, List.getLast?_append]
    rfl
  generalize hr : ({ s with cal := { s.cal with horizon := h, win := w, pendHW := s.cal.pendHW.filter (fun x => decide (s.tick < x.1)) } } : State) = r
  have eq : s.horizonTake = if s.pwr.mode = 0 then r.stageDue else r := by
    unfold State.horizonTake
    rw [last, ← hr]
  have staged : StagedFrom r s.horizonTake := by
    rw [eq]
    split
    · exact State.stageDue_stagedFrom r
    · exact .refl r
  rw [staged.horizon, staged.win, staged.pendHW, ← hr]
  exact ⟨rfl, rfl, fun x hx => of_decide_eq_true (List.mem_filter.mp hx).2⟩

/-! ### CAL_CONFIG -/

theorem calConfig_spec (h : CmdRuns b 0x23 seq body s) : ∃ t : State, exec (.calConfig b) s = .next t ∧ Keeps [.cal, .store, .mbx] s t ∧
    (1 < u32 0 body → t.cal = s.cal ∧ t.store = s.store ∧ Answered b seq 5 0 [] s t) ∧
    (u32 0 body ≤ 1 → 1 < u32 4 body → t.cal = s.cal ∧ t.store = s.store ∧ Answered b seq 5 4 [] s t) ∧
    (u32 0 body ≤ 1 → u32 4 body ≤ 1 → calEmpty s = false → t.cal = s.cal ∧ t.store = s.store ∧ Answered b seq 6 0 [] s t) ∧
    (u32 0 body ≤ 1 → u32 4 body ≤ 1 → calEmpty s = true →
      t.cal.mirror = (u32 0 body == 1) ∧ t.store = { s.store with calHalf := u32 4 body == 1 } ∧ Answered b seq 0 0 (leBytes 4 (calFree t)) s t) := by
  refine ⟨_, congrArg Host.Outcome.next (State.command_of_runs h (State.calConfig b)), State.calConfig_keeps b body s, fun big => ?_, fun fits big => ?_,
    fun fits fits' held => ?_, fun fits fits' empty => ?_⟩
  · have eq : s.calConfig b body = s.answer b stBadField 0 [] := if_pos big
    rw [eq]
    exact ⟨rfl, rfl, h.answered rfl _ _ _⟩
  · have eq : s.calConfig b body = s.answer b stBadField 4 [] := (if_neg (Nat.not_lt.mpr fits)).trans (if_pos big)
    rw [eq]
    exact ⟨rfl, rfl, h.answered rfl _ _ _⟩
  · have eq : s.calConfig b body = s.answer b stBusy 0 [] :=
      (if_neg (Nat.not_lt.mpr fits)).trans ((if_neg (Nat.not_lt.mpr fits')).trans (if_pos (by rw [held]; rfl)))
    rw [eq]
    exact ⟨rfl, rfl, h.answered rfl _ _ _⟩
  · generalize hr : ({ s with
      cal := { s.cal with mirror := u32 0 body == 1, freed := {} }, store := { s.store with calHalf := u32 4 body == 1 } } : State) = r
    have eq : s.calConfig b body = r.answer b stOk 0 (leBytes 4 (calFree r)) := by
      rw [← hr]
      exact (if_neg (Nat.not_lt.mpr fits)).trans ((if_neg (Nat.not_lt.mpr fits')).trans (if_neg (by rw [empty]; decide)))
    have free : calFree (r.answer b stOk 0 (leBytes 4 (calFree r))) = calFree r := rfl
    rw [eq, free]
    refine ⟨?_, ?_, h.answered (by rw [← hr]) _ _ _⟩
    · rw [← hr]; rfl
    · rw [← hr]; rfl

/-! ### CAL_CANCEL -/

theorem State.keepHeads_evs (k : Ax) (s : State) : (s.keepHeads k).cal.pos.map (fun x => x.ev) = s.cal.pos.map (fun x => x.ev) := by
  change (s.cal.pos.map _).map _ = _
  rw [List.map_map]
  refine List.map_congr_left fun x _ => ?_
  dsimp only [Function.comp]
  split <;> rfl

/-- What is taken off a pod by a cancellation (R176). -/
def PodSt.cancel (f : Ev → Bool) (q : PodSt) : PodSt :=
  { q with
    staging := q.staging.filter (fun e => !(f e && !e.committed)), spill := q.spill.filter (fun e => !(f e && !e.committed))
    fast := q.fast.filter (fun e => !(f e && !e.committed)) }

/-- The committed events that a cancellation names (R176). -/
def lateEvs (f : Ev → Bool) (s : State) : Nat :=
  (allPods.map (fun p => countIf (fun e => f e && e.committed) (s.pod[p].staging ++ s.pod[p].spill) + countIf f s.pod[p].commits + countIf f (armedEvs p s))).sum

theorem State.removeEvs_spec (f : Ev → Bool) (s : State) : (s.removeEvs f).1.cal.wheel = s.cal.wheel.filter (fun e => !f e) ∧
    (s.removeEvs f).1.cal.ovfl = s.cal.ovfl.filter (fun e => !f e) ∧ (s.removeEvs f).1.cal.pos = s.cal.pos.filter (fun x => !f x.ev) ∧
    (∀ p : Pod, (s.removeEvs f).1.pod[p] = s.pod[p].cancel f) ∧ (s.removeEvs f).2.2 = lateEvs f s := by
  unfold State.removeEvs
  extract_lets free slots staged late c r u
  have podsKept : Keeps [.pod] r u := Keeps.forAll _ (fun p v => State.modPod_keeps p _ v) _ (Keeps.refl _ r)
  have cal : u.cal = r.cal := podsKept.2 .cal (by decide)
  refine ⟨congrArg Calendar.wheel cal, congrArg Calendar.ovfl cal, congrArg Calendar.pos cal, fun p => ?_, rfl⟩
  exact forAll_allPods (PodSt.cancel f) r p

theorem badWindow_of_time {mode lo hi : Nat} (known : mode ≤ 3) (window : mode ≤ 1 ∨ lo < hi) : badWindow mode lo hi = false := by
  unfold badWindow
  split
  · exact decide_eq_false (by omega)
  · exact if_neg (by omega)

theorem calCancel_eq {mode ch sel lo hi : Nat} (hm : mode = u32 0 body) (hc : ch = u32 4 body) (hs : sel = u32 8 body) (hl : lo = u64 16 body)
    (hh : hi = u64 24 body) (known : mode ≤ 3) (chOk : mode = 3 ∨ ch ≤ 127) (window : mode ≤ 1 ∨ lo < hi) :
    s.calCancel b body = (forAll allAxes State.keepHeads (s.removeEvs (cancelMatch mode ch sel lo hi)).1).answer b
      (if (s.removeEvs (cancelMatch mode ch sel lo hi)).2.2 = 0 then stOk else stTooLate) 0
      (leBytes 4 (s.removeEvs (cancelMatch mode ch sel lo hi)).2.1 ++ leBytes 4 (s.removeEvs (cancelMatch mode ch sel lo hi)).2.2 ++
        leBytes 8 ((forAll allAxes State.keepHeads (s.removeEvs (cancelMatch mode ch sel lo hi)).1).tick * 32)) := by
  unfold State.calCancel
  dsimp only
  rw [← hm, ← hc, ← hs, ← hl, ← hh, if_neg (by omega), if_neg (by omega), if_neg (by omega), badWindow_of_time known window]
  generalize s.removeEvs (cancelMatch mode ch sel lo hi) = r
  exact if_neg Bool.false_ne_true

theorem calCancel_removes {mode ch sel lo hi : Nat} (hm : mode = u32 0 body) (hc : ch = u32 4 body) (hs : sel = u32 8 body) (hl : lo = u64 16 body)
    (hh : hi = u64 24 body) (h : CmdRuns b 0x22 seq body s) (known : mode ≤ 3) (chOk : mode = 3 ∨ ch ≤ 127) (window : mode ≤ 1 ∨ lo < hi) :
    (s.calCancel b body).cal.wheel = s.cal.wheel.filter (fun e => !cancelMatch mode ch sel lo hi e) ∧
    (s.calCancel b body).cal.ovfl = s.cal.ovfl.filter (fun e => !cancelMatch mode ch sel lo hi e) ∧
    (s.calCancel b body).cal.pos.map (fun x => x.ev) = (s.cal.pos.filter (fun x => !cancelMatch mode ch sel lo hi x.ev)).map (fun x => x.ev) ∧
    (∀ p : Pod, (s.calCancel b body).pod[p] = s.pod[p].cancel (cancelMatch mode ch sel lo hi)) ∧
    (∃ n : Nat, Answered b seq (if lateEvs (cancelMatch mode ch sel lo hi) s = 0 then 0 else 0x1A) 0
      (leBytes 4 n ++ leBytes 4 (lateEvs (cancelMatch mode ch sel lo hi) s) ++ leBytes 8 (s.tick * 32)) s (s.calCancel b body)) := by
  obtain ⟨wheel, ovfl, pos, pods, late⟩ := State.removeEvs_spec (cancelMatch mode ch sel lo hi) s
  have removed := State.removeEvs_keeps (cancelMatch mode ch sel lo hi) s
  have eq := calCancel_eq hm hc hs hl hh known chOk window (b := b) (s := s)
  generalize s.removeEvs (cancelMatch mode ch sel lo hi) = r at wheel ovfl pos pods late removed eq
  have heads : Keeps [.cal] r.1 (forAll allAxes State.keepHeads r.1) ∧ (forAll allAxes State.keepHeads r.1).cal.wheel = r.1.cal.wheel ∧
      (forAll allAxes State.keepHeads r.1).cal.ovfl = r.1.cal.ovfl ∧
      (forAll allAxes State.keepHeads r.1).cal.pos.map (fun x => x.ev) = r.1.cal.pos.map (fun x => x.ev) :=
    forAll_induction (P := fun t => Keeps [.cal] r.1 t ∧ t.cal.wheel = r.1.cal.wheel ∧ t.cal.ovfl = r.1.cal.ovfl ∧
      t.cal.pos.map (fun x => x.ev) = r.1.cal.pos.map (fun x => x.ev))
      (fun k _ t ht => ⟨ht.1.trans (State.keepHeads_keeps k t), ht.2.1, ht.2.2.1, (State.keepHeads_evs k t).trans ht.2.2.2⟩) ⟨.refl _ _, rfl, rfl, rfl⟩
  generalize forAll allAxes State.keepHeads r.1 = u at heads eq
  obtain ⟨keeps, wheel', ovfl', pos'⟩ := heads
  have tick : u.tick = s.tick := (keeps.tick (by decide)).trans (removed.tick (by decide))
  have box : u.mbx = s.mbx := (keeps.2 .mbx (by decide)).trans (removed.2 .mbx (by decide))
  have pod : u.pod = r.1.pod := keeps.2 .pod (by decide)
  rw [late, tick] at eq
  have answered := h.answered box (if lateEvs (cancelMatch mode ch sel lo hi) s = 0 then stOk else stTooLate) 0
    (leBytes 4 r.2.1 ++ leBytes 4 (lateEvs (cancelMatch mode ch sel lo hi) s) ++ leBytes 8 (s.tick * 32))
  have last := State.answer_keeps b (if lateEvs (cancelMatch mode ch sel lo hi) s = 0 then stOk else stTooLate) 0
    (leBytes 4 r.2.1 ++ leBytes 4 (lateEvs (cancelMatch mode ch sel lo hi) s) ++ leBytes 8 (s.tick * 32)) u
  rw [← eq] at answered last
  have calT : (s.calCancel b body).cal = u.cal := last.2 .cal (by decide)
  have podT : (s.calCancel b body).pod = r.1.pod := (last.2 .pod (by decide)).trans pod
  rw [calT, podT]
  exact ⟨wheel'.trans wheel, ovfl'.trans ovfl, pos'.trans (by rw [pos]), pods, r.2.1, answered⟩

theorem calCancel_refused (h : CmdRuns b 0x22 seq body s) : (5 < u32 0 body → (s.calCancel b body).cal = s.cal ∧ (s.calCancel b body).pod = s.pod ∧
      Answered b seq 5 0 [] s (s.calCancel b body)) ∧
    (u32 0 body = 2 ∨ u32 0 body = 3 → u64 24 body ≤ u64 16 body → u32 4 body ≤ 127 → (s.calCancel b body).cal = s.cal ∧ (s.calCancel b body).pod = s.pod ∧
      Answered b seq 0x1B 0 [] s (s.calCancel b body)) := by
  refine ⟨fun big => ?_, fun time_ empty ch => ?_⟩
  · have eq : s.calCancel b body = s.answer b stBadField 0 [] := if_pos big
    rw [eq]
    exact ⟨rfl, rfl, h.answered rfl _ _ _⟩
  · have bad : badWindow (u32 0 body) (u64 16 body) (u64 24 body) = true := by
      unfold badWindow
      rw [if_pos time_]
      exact decide_eq_true empty
    have eq : s.calCancel b body = s.answer b stBadWindow 0 [] := by
      unfold State.calCancel
      dsimp only
      rw [if_neg (by omega), if_neg (by omega), if_neg (by omega), bad, if_pos rfl]
    rw [eq]
    exact ⟨rfl, rfl, h.answered rfl _ _ _⟩

/-! ### RESULT_RING_SET -/

theorem resultRingSet_spec (h : CmdRuns b 0x25 seq body s) (p l base : Nat) (q : Pod) (hp : p = u32 0 body) (hl : l = u32 4 body) (hb : base = u64 8 body)
    (hq : q = ⟨p % 8, by omega⟩) : ∃ t : State, exec (.resultRingSet b) s = .next t ∧ Keeps [.pod, .mbx] s t ∧ OnlyPod q s t ∧
      (7 < p → t.pod = s.pod ∧ Answered b seq 5 0 [] s t) ∧
      (p ≤ 7 → l ≠ 0 → (l < 8 ∨ 20 < l) → t.pod = s.pod ∧ Answered b seq 5 4 [] s t) ∧
      (p ≤ 7 → 8 ≤ l → l ≤ 20 → base < 2 ^ 63 → ringPlaceOk q base (16 * 2 ^ l) s = false → t.pod = s.pod ∧ Answered b seq 7 0 [] s t) ∧
      (p ≤ 7 → (l = 0 ∨ (8 ≤ l ∧ l ≤ 20 ∧ base < 2 ^ 63 ∧ ringPlaceOk q base (16 * 2 ^ l) s = true)) → s.pod[q].job = none →
        t.pod[q] = { s.pod[q] with job := some (.ring b l (BitVec.ofNat 64 base)) } ∧ t.mbx = s.mbx) := by
  have eq : s.resultRingSet b body = (if 7 < p then s.answer b stBadField 0 [] else if l ≠ 0 ∧ (l < 8 ∨ 20 < l) then s.answer b stBadField 4 []
      else if l ≠ 0 ∧ 2 ^ 63 ≤ base ∧ base % 16 ≠ 0 then s.answer b stBadField 8 []
      else if l ≠ 0 ∧ base < 2 ^ 63 ∧ !ringPlaceOk q base (16 * 2 ^ l) s then s.answer b stNoRoom 0 []
      else if s.pod[q].job.isSome then s else s.modPod q (fun x => { x with job := some (.ring b l (BitVec.ofNat 64 base)) })) := by
    subst hp hl hb hq
    rfl
  have only : OnlyPod q s (s.resultRingSet b body) := by
    rw [eq]
    repeat' split
    · exact .of_pod_eq rfl
    · exact .of_pod_eq rfl
    · exact .of_pod_eq rfl
    · exact .of_pod_eq rfl
    · exact .refl q s
    · exact State.modPod_onlyPod q _ s
  refine ⟨_, congrArg Host.Outcome.next (State.command_of_runs h (State.resultRingSet b)), State.resultRingSet_keeps b body s, only, fun big => ?_, fun fits some_ odd => ?_,
    fun fits ge le inStore bad => ?_, fun fits place free => ?_⟩
  · rw [eq, if_pos big]
    exact ⟨rfl, h.answered rfl _ _ _⟩
  · rw [eq, if_neg (by omega), if_pos ⟨some_, odd⟩]
    exact ⟨rfl, h.answered rfl _ _ _⟩
  · rw [eq, if_neg (by omega), if_neg (by omega), if_neg (by omega), if_pos ⟨by omega, inStore, by rw [bad]; rfl⟩]
    exact ⟨rfl, h.answered rfl _ _ _⟩
  · have placed : ¬ (l ≠ 0 ∧ base < 2 ^ 63 ∧ (!ringPlaceOk q base (16 * 2 ^ l) s) = true) := by
      rintro ⟨some_, -, bad⟩
      rcases place with zero | ⟨-, -, -, ok⟩
      · exact some_ zero
      · rw [ok] at bad
        exact absurd bad (by decide)
    rw [eq, if_neg (by omega), if_neg (by omega), if_neg (by omega), if_neg placed, free, if_neg (by decide)]
    exact ⟨State.modPod_pod_same .., rfl⟩

end

/-- Settles O34: each command is judged by its own checks in their order; a cancellation filters every list that holds uncommitted events. -/
theorem calendarCommands : Obligations.CalendarCommands := by
  unfold Obligations.CalendarCommands
  intro b seq body s
  refine ⟨fun h => horizonSet_spec h _ Iff.rfl, ⟨fun none_ => ?_, fun l at_ h w pend due => ?_⟩, calConfig_spec, fun h => ?_,
    fun h => resultRingSet_spec h _ _ _ _ rfl rfl rfl rfl⟩
  · have eq : s.horizonTake = s := by
      unfold State.horizonTake
      rw [none_]
      rfl
    exact congrArg Host.Outcome.next eq
  · exact ⟨_, rfl, State.horizonTake_keeps s, horizonTake_spec pend due⟩
  · obtain ⟨unknown, emptyWindow⟩ := calCancel_refused h
    exact ⟨_, congrArg Host.Outcome.next (State.command_of_runs h (State.calCancel b)), State.calCancel_keeps b body s, unknown, emptyWindow,
      fun known chOk window => calCancel_removes rfl rfl rfl rfl rfl h known chOk window⟩

end Sys2Proof.Machine
end

section
/-!
PROOF of the obligation on the registers' reset values (O56).
-/
namespace Sys2Proof.Machine

/-- A read of address a by the Keeper right after reset returns v. -/
def resetReads (a v : Nat) : Bool := (State.reset.busRead .keeper a).master[Master.keeper.idx].rdata == BitVec.ofNat 32 v

theorem exists_of_resetReads {a v : Nat} (h : resetReads a v = true) :
    ∃ t : State, exec (.rcRead .keeper a) State.reset = .next t ∧ t.master[Master.keeper.idx].rdata = BitVec.ofNat 32 v :=
  ⟨State.reset.busRead .keeper a, rfl, eq_of_beq h⟩

/-- The registers that stand once, with their reset values. -/
def onceResets : List (Nat × Nat) :=
  [(0x118, 0x10), (0x11C, 0), (0x120, 0x1F40), (0x130, 0), (0x200, 0x108), (0x204, 2), (0x208, 0x100000), (0x20C, 0), (0x210, 0), (0x214, 0), (0x300, 0), (0x308, 0), (0x310, 0), (0x500, 0), (0x504, 0xF84), (0x510, 0), (0x800, 0),
   (0x804, 0), (0x820, 0xF4240), (0x824, 0x9C40), (0x828, 0x1F), (0x844, 0), (0x850, 0), (0x11004, 0), (0x11018, 0), (0x20000, 0x70400), (0x20008, 0xC), (0x88000, 2), (0x88004, 0x80), (0x88008, 0x3E8), (0x8800C, 0x100), (0x88040, 0),
   (0xA0000, 0), (0xA0004, 0), (0xA0008, 0), (0xA0020, 5), (0xC0000, 0), (0xC0008, 0x690000), (0xC0300, 0), (0xC0600, 0)]

/-- The registers of an axis with their reset values. -/
def axisResets : List (Nat × Nat) :=
  [(0x000, 0x180), (0x008, 0x20004), (0x00C, 0x10000002), (0x010, 0xC800), (0x014, 0x9600), (0x018, 0x100), (0x020, 0), (0x050, 8), (0x080, 0x18), (0x084, 0xC8), (0x088, 0xFA0), (0x090, 0x0FA00010), (0x0A0, 0x320), (0x0A4, 0xA00),
   (0x0A8, 0x7FFFFFFF), (0x0B0, 0), (0x0C0, 0), (0x0C4, 0x10001), (0x0C8, 4)]

/-- The registers of a pod with their reset values. -/
def podResets : List (Nat × Nat) := [(0x1000, 0), (0x1018, 0), (0x101C, 0), (0x1020, 0), (0x102C, 1), (0x0014, 0)]

/-! ### A register that is neither wide nor acts when it is read -/

theorem State.plainRead_narrow {m : Master} {a o : Nat} {b : Block} {s : State} (at_ : blockOf a = (b, o)) (low : ¬ WideLow b o) (high : 4 ≤ o → ¬ WideLow b (o - 4)) :
    s.plainRead m a = (busTake m a (busSettle a s)).ret m (busWord m a (busSettle a s)) := by
  have own : ∀ u, busWide m a u = none := fun u => Option.eq_none_iff_forall_ne_some.mpr fun v hv => by
    have := wideLow_of_busWide hv
    rw [at_] at this
    exact low this
  have before : ∀ u, 4 ≤ a → busWide m (a - 4) u = none := fun u ha => Option.eq_none_iff_forall_ne_some.mpr fun v hv => by
    have wide := wideLow_of_busWide hv
    have next := blockOf_add_four wide
    rw [Nat.sub_add_cancel ha, at_, Prod.mk.injEq] at next
    obtain ⟨block, offset⟩ := next
    refine high (by omega) ?_
    rw [block, offset]
    exact wide
  have none_ : (if 4 ≤ a then busWide m (a - 4) (busSettle a s) else none) = none := by
    split
    · exact before _ ‹_›
    · rfl
  unfold State.plainRead
  simp only [own, none_]

theorem State.plainRead_narrow_rdata {m : Master} {a o : Nat} {b : Block} {s : State} (at_ : blockOf a = (b, o)) (low : ¬ WideLow b o) (high : 4 ≤ o → ¬ WideLow b (o - 4)) :
    (s.plainRead m a).master[m.idx].rdata = busWord m a (busSettle a s) := by
  rw [State.plainRead_narrow at_ low high, State.ret, State.modMaster_master_same]

/-! ### A channel at rest -/

theorem tabulate_getElem {α : Type} {k : Nat} (f : Fin k → α) (i : Fin k) : (tabulate k f)[i] = f i := by
  simp [tabulate]

theorem reset_ch (n : Ch) : State.reset.ch[n] = Channel.reset 0 n := tabulate_getElem (Channel.reset 0) n

/-- Nothing has happened to a channel by the tick of reset. -/
theorem reset_chNow (n : Ch) : State.reset.chNow n = State.reset.used := by
  have counted : State.reset.countNow n = State.reset.used := by
    unfold State.countNow
    rw [State.modCh_eq_self]
    rw [reset_ch]
    have plain : ctrReserved (Channel.reset 0 n).ctr.cfg = false := by decide +revert
    have up : (Channel.reset 0 n).ctr.mode = 0 := by decide +revert
    simp only [Channel.count, plain, up]
    rfl
  have caps : State.reset.used.settleCaps State.reset.used.tick n = State.reset.used := by
    unfold State.settleCaps
    rw [show State.reset.used.ch[n] = Channel.reset 0 n from reset_ch n]
    rfl
  have spill : State.reset.used.settleSpill n = State.reset.used := by
    unfold State.settleSpill
    rw [show State.reset.used.ch[n] = Channel.reset 0 n from reset_ch n]
    rfl
  have rfx : State.reset.used.settleRfx State.reset.used.tick n = State.reset.used := by
    unfold State.settleRfx
    rw [show State.reset.used.ch[n] = Channel.reset 0 n from reset_ch n]
    rfl
  have pip : State.reset.used.pipNow n = State.reset.used := by
    unfold State.pipNow State.modPip
    rw [caps, State.modCh_eq_self]
    rw [show State.reset.used.ch[n] = Channel.reset 0 n from reset_ch n]
    rfl
  unfold State.chNow
  rw [counted]
  dsimp only
  rw [show State.reset.tick = State.reset.used.tick from rfl, caps, spill, rfx, pip, State.modCh_eq_self]
  rw [show State.reset.used.ch[n] = Channel.reset 0 n from reset_ch n]
  rfl

/-- The low word of a wide register lies at offset o of a channel's block. -/
abbrev ChanLow (o : Nat) : Prop :=
  o = 0x108 ∨ o = 0x10 ∨ o = 0x18 ∨ o = 0x20 ∨ o = 0x190 ∨ (0x40 ≤ o ∧ o < 0xC0 ∧ (o % 0x20 = 0 ∨ o % 0x20 = 0x14))

/-- A register of a channel that is neither wide nor acts when it is read lies at offset o. -/
abbrev ChanPlain (o : Nat) : Prop :=
  o < 0x800 ∧ o % 4 = 0 ∧ o ≠ 0x10C ∧ o ≠ 0x534 ∧ ¬ ChanLow o ∧ (4 ≤ o → ¬ ChanLow (o - 4))

theorem resetReads_chan {o v : Nat} (n : Ch) (h : ChanPlain o) (value : chanWord .keeper n o State.reset.used = BitVec.ofNat 32 v) :
    resetReads (chBase n + o) v = true := by
  obtain ⟨inside, word, late, rxf, low, high⟩ := h
  have whole : (chBase n + o) / 4 * 4 = chBase n + o := by unfold chBase; omega
  have at_ := blockOf_chan n inside
  have pop : o ≠ 0x108 := fun e => low (.inl e)
  have allowed : readDenied .keeper (chBase n + o) = none := by
    unfold readDenied
    split <;> rfl
  have settled : busSettle (chBase n + o) State.reset = State.reset.used := by
    unfold busSettle
    simp only [at_]
    exact (if_neg fun e => e.elim pop late).trans (reset_chNow n)
  unfold resetReads State.busRead
  simp only [whole, allowed, at_, if_neg pop, if_neg rxf]
  rw [State.plainRead_narrow_rdata at_ low high, settled]
  unfold busWord
  simp only [at_]
  exact beq_iff_eq.mpr value

/-- The registers of a channel with their reset values (R43, R90). -/
def chanResets : List (Nat × Nat) :=
  [(0x000, 4), (0x008, 0), (0x00C, 0x800), (0x100, 4), (0x104, 0), (0x180, 0x22), (0x188, 0), (0x19C, 0x14), (0x1C0, 0xFFC), (0x1C4, 0), (0x200, 0), (0x204, 0), (0x208, 0), (0x500, 0x7C0), (0x508, 0x100), (0x510, 0), (0x52C, 0)]

theorem chanResets_plain : ∀ x ∈ chanResets, ChanPlain x.1 := by decide

theorem chanResets_value : ∀ n : Ch, ∀ x ∈ chanResets, chanWord .keeper n x.1 State.reset.used = BitVec.ofNat 32 x.2 := by decide +kernel

/-! ### A source of the event controller -/

theorem resetReads_src (i : Src) : resetReads (0x24000 + 4 * i.val) (if 768 ≤ i.val ∧ i.val ≤ 782 then 0x10F else 0) = true := by
  have whole : (0x24000 + 4 * i.val) / 4 * 4 = 0x24000 + 4 * i.val := by omega
  have at_ : blockOf (0x24000 + 4 * i.val) = (.eic, 0x4000 + 4 * i.val) := blockOf_of_eq_base_add (by simp only [Block.base]; omega) (by simp only [Block.size]; omega)
  have allowed : readDenied .keeper (0x24000 + 4 * i.val) = none := by
    unfold readDenied
    split <;> rfl
  have settled : busSettle (0x24000 + 4 * i.val) State.reset = State.reset := by
    unfold busSettle
    simp only [at_]
  have word : eicWord (0x4000 + 4 * i.val) State.reset = State.reset.eic.src[i] := by
    have same : (⟨(0x4000 + 4 * i.val - 0x4000) / 4 % 1024, Nat.mod_lt _ (by decide)⟩ : Src) = i := Fin.ext (by dsimp only; omega)
    unfold eicWord
    simp (disch := omega) only [if_neg, if_pos]
    exact congrArg (fun j : Src => State.reset.eic.src[j]) same
  have mute : ¬ (0x1000 ≤ 0x4000 + 4 * i.val ∧ 0x4000 + 4 * i.val < 0x1700 ∧ (0x4000 + 4 * i.val) % 0x100 = 0x08) := by omega
  unfold resetReads State.busRead
  simp only [whole, allowed, at_, if_neg mute]
  rw [State.plainRead_narrow_rdata at_ id fun _ => id, settled]
  unfold busWord
  simp only [at_, word]
  have value : State.reset.eic.src[i] = if 768 ≤ i.val ∧ i.val ≤ 782 then 0x10F else 0 :=
    tabulate_getElem (fun i : Fin 1024 => if 768 ≤ i.val ∧ i.val ≤ 782 then 0x10F else 0) i
  rw [beq_iff_eq, value]
  split <;> rfl

/-- Settles O56: the channels and the sources by what a register at rest shows, the registers that stand once, and those of the smaller blocks, by
evaluation of each read. -/
theorem resetState : Obligations.ResetState := by
  unfold Obligations.ResetState
  refine ⟨?_, ?_, ?_, ?_, ?_, ?_, ?_, ?_, ?_, rfl, rfl⟩
  · have h : ∀ x ∈ onceResets, resetReads x.1 x.2 = true := by decide +kernel
    exact fun x mem => exists_of_resetReads (h x mem)
  · exact fun n x mem => exists_of_resetReads (resetReads_chan n (chanResets_plain x mem) (chanResets_value n x mem))
  · have h : ∀ k : Ax, ∀ x ∈ axisResets, resetReads (0x80000 + 0x1000 * k.val + x.1) x.2 = true := by decide +kernel
    exact fun k x mem => exists_of_resetReads (h k x mem)
  · have h : ∀ p : Pod, ∀ x ∈ podResets, resetReads (0x90000 + 0x2000 * p.val + x.1) x.2 = true := by decide +kernel
    exact fun p x mem => exists_of_resetReads (h p x mem)
  · have h : ∀ p : Pod, resetReads (0xA0300 + 0x10 * p.val) (0x2000000 + p.val * 0x10000) = true ∧ resetReads (0xA0304 + 0x10 * p.val) 0x10C = true ∧
        resetReads (0x600 + 0x20 * p.val) 0x1000 = true := by decide +kernel
    exact fun p => (h p).imp exists_of_resetReads (And.imp exists_of_resetReads exists_of_resetReads)
  · have h : ∀ b : Mbx, resetReads (0x10010 + 0x40 * b.val) 0 = true ∧ resetReads (0x10014 + 0x40 * b.val) 0xFFFFFFFF = true ∧ resetReads (0x1001C + 0x40 * b.val) 0 = true := by
      decide +kernel
    exact fun b => (h b).imp exists_of_resetReads (And.imp exists_of_resetReads exists_of_resetReads)
  · have h : ∀ i : Slice, resetReads (0x88100 + 0x40 * i.val) 2 = true ∧ resetReads (0x88114 + 0x40 * i.val) 0x800000 = true ∧
        resetReads (0x88118 + 0x40 * i.val) 0x7FFFFF = true ∧ resetReads (0x8811C + 0x40 * i.val) (0x40 * i.val) = true := by decide +kernel
    exact fun i => (h i).imp exists_of_resetReads (And.imp exists_of_resetReads (And.imp exists_of_resetReads exists_of_resetReads))
  · have h : ∀ i : Fin 5, resetReads (0xC0100 + 0x20 * i.val) 0 = true ∧ resetReads (0xC0108 + 0x20 * i.val) 0xFFFFFFFF = true := by decide +kernel
    exact fun i => (h i).imp exists_of_resetReads exists_of_resetReads
  · exact fun i => exists_of_resetReads (resetReads_src i)

end Sys2Proof.Machine
end

section
/-!
PROOF of the obligation on the clocks (O52).
-/
namespace Sys2Proof.Machine

/-! ### The counters and the oscillators (R301, R302) -/

theorem State.xinFails_of_out {s : State} (h : s.time.xinOk = false ∨ s.time.backup = true) : s.xinFails = s := by
  have out : (!s.time.xinOk || s.time.backup) = true := by
    rcases h with h | h <;> simp [h]
  unfold State.xinFails
  rw [if_pos out]

theorem State.xinFails_of_runs {s : State} (ok : s.time.xinOk = true) (own : s.time.backup = false) :
    s.xinFails.time = { s.time with xinOk := false, backup := true, degraded := true } ∧ s.xinFails.guar.flags.get 6 = true ∧
      s.xinFails.health = { s.health with backup := s.health.backup.bump s.tick 1 65535 } := by
  have runs : ¬ (!s.time.xinOk || s.time.backup) = true := by simp [ok, own]
  unfold State.xinFails
  rw [if_neg runs]
  refine ⟨rfl, ?_, rfl⟩
  exact (congrArg (fun f : Sticky => f.get 6) (State.breach_get ..)).trans (Sticky.get_raise _ _ _ _ |>.trans (by simp [brBackup, flag]))

/-- XIN is told stable while the device does not hibernate, or wakes (R20). -/
theorem State.xinStable_of_asleep {s : State} (mode : s.pwr.mode = 2) (sleeps : s.pwr.waking = false) : s.xinStable = s := by
  unfold State.xinStable
  rw [if_pos (by simp [mode, sleeps])]

theorem State.xinStable_of_awake {s : State} (h : s.pwr.mode ≠ 2 ∨ s.pwr.waking = true) :
    s.xinStable.time.xinOk = true ∧ s.xinStable.time.lt = s.time.lt ∧ s.xinStable.time.rtcOk = s.time.rtcOk ∧
      s.xinStable.time.res = (if s.time.res = 2 ∧ s.time.rtcOk = true then 2 else if s.time.pllLock then 0 else 1) := by
  have awake : ¬ (s.pwr.mode == 2 && !s.pwr.waking) = true := fun on => by
    rw [Bool.and_eq_true, beq_iff_eq, Bool.not_eq_true'] at on
    exact h.elim (fun up => up on.1) (fun up => Bool.noConfusion (up.symm.trans on.2))
  unfold State.xinStable
  rw [if_neg awake]
  by_cases rtc : s.time.res = 2 ∧ s.time.rtcOk = true
  · rw [if_pos (by simp [rtc]), if_pos rtc]
    exact ⟨rfl, rfl, rfl, rtc.1⟩
  · rw [if_neg (by simpa using rtc), if_neg rtc]
    exact ⟨rfl, rfl, rfl, rfl⟩

/-! ### The PLL (R345) -/

/-- The PLL cannot lock: no clock runs, LT counts from RTC32I, or the device sleeps. -/
def PllOff (s : State) : Prop :=
  (s.time.xinOk = false ∧ s.time.backup = false) ∨ s.time.res = 2 ∨ (s.pwr.mode ≠ 0 ∧ s.pwr.waking = false)

theorem pllOff_iff (s : State) :
    PllOff s ↔ (!(s.time.xinOk || s.time.backup) || s.time.res == 2 || (s.pwr.mode != 0 && !s.pwr.waking)) = true := by
  simp [PllOff, or_assoc]

theorem State.pllLocks_of_off {s : State} (h : PllOff s) : s.pllLocks = s := if_pos ((pllOff_iff s).mp h)

theorem State.pllLocks_of_on {s : State} (h : ¬ PllOff s) :
    s.pllLocks = { s with time := { s.time with
      lt := (s.time.lt + 31) / 32 * 32, ctrA := (s.time.lt + 31) / 32 * 32, ctrB := (s.time.lt + 31) / 32 * 32
      pllLock := true, res := 0, degraded := s.time.degraded && s.time.backup } } :=
  if_neg fun on => h ((pllOff_iff s).mpr on)

/-! ### Time passes (R19, R20) -/

theorem State.idle_of_rtc {s : State} (rtc : s.time.res = 2) (runs : s.time.rtcOk = true) (xin : s.time.xinOk = true) :
    s.idle.time.lt = s.time.lt + 390625 ∧ s.idle.time.res = (if s.time.pllLock then 0 else 1) := by
  have incr : ltIncr s = 390625 := by simp [ltIncr, rtc]
  unfold State.idle
  rw [if_pos (by simp [rtc]), if_neg (by simp [runs]), incr, xin, State.when_true]
  exact ⟨rfl, rfl⟩

theorem State.idle_of_full {s : State} (full : s.time.res = 0) (runs : s.time.xinOk = true ∨ s.time.backup = true) : s.idle.time.lt = (s.tick + 1) * 32 := by
  have incr : ltIncr s = 32 := by simp [ltIncr, full]
  unfold State.idle
  rw [if_neg (by simp [full]), if_neg (by rcases runs with h | h <;> simp [h]), incr]
  exact (Nat.succ_mul (s.time.lt / 32) 32).symm

/-- Settles O52, clock by clock. -/
theorem clockChanges : Obligations.ClockChanges := by
  unfold Obligations.ClockChanges
  intro s
  refine ⟨fun a b => ⟨fun agree => ?_, fun differ => ?_⟩, fun out => ?_, fun ok own => ?_, fun own => ?_, fun takes => ?_, ⟨fun off => ?_, fun on => ?_⟩,
    fun mode sleeps => ?_, fun awake => ?_, State.idle_of_rtc, State.idle_of_full⟩
  · exact congrArg Host.Outcome.next (if_pos agree)
  · have apart : ¬ (a = s.time.lt ∧ b = s.time.lt) := fun h => differ.elim (· h.1) (· h.2)
    obtain ⟨t, run, kept⟩ := execLtXchkCorrect_keeps a b s
    have result := Host.Outcome.next.inj (run.symm.trans (congrArg Host.Outcome.next (if_neg apart)))
    refine ⟨t, run, kept, ?_⟩
    rw [result]
    exact ⟨rfl, rfl⟩
  · exact congrArg Host.Outcome.next (State.xinFails_of_out out)
  · exact ⟨_, rfl, State.xinFails_keeps s, State.xinFails_of_runs ok own⟩
  · exact congrArg Host.Outcome.next (if_neg (by simp [own]))
  · exact congrArg Host.Outcome.next (if_pos takes)
  · exact congrArg Host.Outcome.next (State.pllLocks_of_off off)
  · refine ⟨s.pllLocks, rfl, State.pllLocks_keeps s, ?_⟩
    rw [State.pllLocks_of_on on]
    exact ⟨by dsimp only; omega, by dsimp only; omega, Nat.dvd_mul_left .., rfl⟩
  · exact congrArg Host.Outcome.next (State.xinStable_of_asleep mode sleeps)
  · exact ⟨_, rfl, State.xinStable_keeps s, State.xinStable_of_awake awake⟩

end Sys2Proof.Machine
end

section
/-!
PROOF of the obligation on the resets (O57).
-/
namespace Sys2Proof.Machine

/-! ### The channels of a bank -/

theorem mem_bankChs {p : Pod} {n : Ch} : n ∈ bankChs p ↔ podOf n = p := by
  unfold bankChs
  rw [List.mem_map]
  constructor
  · rintro ⟨i, hi, rfl⟩
    rw [List.mem_range] at hi
    exact Fin.ext (by simp only [podOf, chOf]; omega)
  · rintro rfl
    refine ⟨n.val % 16, List.mem_range.mpr (by omega), Fin.ext ?_⟩
    simp only [podOf, chOf]
    omega

theorem bankChs_nodup (p : Pod) : (bankChs p).Nodup :=
  List.Nodup.map_on (fun i hi j hj same => by
    have num := congrArg Fin.val same
    simp only [chOf] at num
    rw [List.mem_range] at hi hj
    omega) List.nodup_range

theorem State.vioFault_ch (p : Pod) (on : Bool) (s : State) (n : Ch) :
    (s.vioFault p on).ch[n] = if podOf n = p then { s.ch[n] with vioFault := on } else s.ch[n] := by
  unfold State.vioFault
  rw [forAll_modCh_ch (bankChs_nodup p)]
  simp only [mem_bankChs]

/-! ### A core reset (R340, R344) -/

/-- Everything but the time, the boot and the test port, out of a core reset of s. -/
def Cored (s t : State) : Prop :=
  t.master = State.reset.master ∧ t.guar = State.reset.guar ∧ t.cal = State.reset.cal ∧ t.pod = State.reset.pod ∧ t.store = State.reset.store ∧
  t.mbx = State.reset.mbx ∧ t.fw = State.reset.fw ∧ t.sur = State.reset.sur ∧ t.pwr = State.reset.pwr ∧ t.fuse = s.fuse ∧ t.free = s.free ∧ t.pending = s.pending ∧
  t.eic = { State.reset.eic with sent := s.eic.sent } ∧ t.abort = { State.reset.abort with safeLow := s.abort.safeLow } ∧
  t.pcie = { State.reset.pcie with perst := s.pcie.perst, since := s.pcie.since, out := s.pcie.out } ∧
  (∀ n : Ch, t.ch[n] = { Channel.reset (s.fuse.skew[n]) n with filt := t.ch[n].filt, ownPin := s.ch[n].ownPin, vioFault := s.boot.vioDown.getLsbD (podOf n).val } ∧
    t.ch[n].filt.raw = s.ch[n].filt.raw ∧ t.ch[n].filt.cand = none) ∧
  (∀ k : Ax, t.axis[k] = { State.reset.axis[k] with pins := s.axis[k].pins }) ∧ t.health = { State.reset.health with pod := t.health.pod } ∧
  (∀ q : Pod, t.health.pod[q] = { State.reset.health.pod[q] with spb := t.health.pod[q].spb }) ∧
  t.adc = { State.reset.adc with temp25 := s.fuse.temp25, unit := t.adc.unit } ∧
  (∀ u : Fin 5, t.adc.unit[u] = { ofs := s.fuse.ofs[u], gain := s.fuse.gain[u], role := BitVec.ofNat 3 u.val })

/-- A channel out of a core reset. -/
def Channel.cored (s : State) (n : Ch) : Channel :=
  { Channel.reset (s.fuse.skew[n]) n with filt := s.ch[n].filt.keep s.tick, ownPin := s.ch[n].ownPin, vioFault := s.boot.vioDown.getLsbD (podOf n).val }

theorem State.coreReset_ch (cause : BitVec 4) (s : State) (n : Ch) : (s.coreReset cause).ch[n] = Channel.cored s n := tabulate_getElem (Channel.cored s) n

theorem State.coreReset_axis (cause : BitVec 4) (s : State) (k : Ax) : (s.coreReset cause).axis[k] = { ({} : Axis) with pins := s.axis[k].pins } :=
  Vector.getElem_map ..

theorem State.reset_axis (k : Ax) : State.reset.axis[k] = {} := Vector.getElem_replicate ..

theorem State.coreReset_healthPod (cause : BitVec 4) (s : State) (q : Pod) : (s.coreReset cause).health.pod[q] = { ({} : PodHealth) with spb := s.health.pod[q].spb.keep s.tick } :=
  Vector.getElem_map ..

theorem State.reset_healthPod (q : Pod) : State.reset.health.pod[q] = {} := Vector.getElem_replicate ..

theorem State.coreReset_cored (cause : BitVec 4) (s : State) : Cored s (s.coreReset cause) := by
  refine ⟨rfl, rfl, rfl, rfl, rfl, rfl, rfl, rfl, rfl, rfl, rfl, rfl, rfl, rfl, rfl, fun n => ?_, fun k => ?_, rfl, fun q => ?_, rfl, fun u => ?_⟩
  · rw [State.coreReset_ch]
    exact ⟨rfl, rfl, rfl⟩
  · rw [State.coreReset_axis, State.reset_axis]
  · rw [State.coreReset_healthPod, State.reset_healthPod]
  · exact tabulate_getElem (fun u : Fin 5 => ({ ofs := s.fuse.ofs[u], gain := s.fuse.gain[u], role := BitVec.ofNat 3 u.val } : AdcUnit)) u

/-- AON_POR is the one flag of LT that a core reset leaves. -/
theorem State.coreReset_aonPor (cause : BitVec 4) (s : State) : (s.coreReset cause).time.flags.get 4 = s.time.flags.get 4 := by
  have coarse : (flag 3 (s.time.res != 0)).getLsbD 4 = false := by
    unfold flag
    split <;> decide
  show ((s.time.flags.bits &&& 0x10) ||| flag 3 (s.time.res != 0)).getLsbD 4 = _
  rw [BitVec.getLsbD_or, coarse, BitVec.getLsbD_and, Bool.or_false]
  exact Bool.and_true _

/-! ### TESTMODE and VIO (R340, R342, R364) -/

theorem State.vioDrops_of_held {p : Pod} {s : State} (held : s.boot.held = true) :
    s.vioDrops p = { s with boot := { s.boot with vioDown := s.boot.vioDown ||| BitVec.ofNat 8 (2 ^ p.val), cause := s.boot.cause ||| 2 } } := by
  unfold State.vioDrops
  rw [if_pos held]

theorem State.vioDrops_of_released {p : Pod} {s : State} (held : s.boot.held = false) :
    s.vioDrops p = ({ s with boot := { s.boot with vioDown := s.boot.vioDown ||| BitVec.ofNat 8 (2 ^ p.val) } } : State).vioFault p true := by
  unfold State.vioDrops
  rw [if_neg (by simp [held])]

/-- Settles O57: every reset is the core reset with another cause, and what the always-on domain adds. -/
theorem resets : Obligations.Resets := by
  unfold Obligations.Resets
  intro p s
  refine ⟨fun avdd => ?_, ?_, rfl, ?_, rfl, fun cold => ?_, fun held => ?_, fun held => ?_, ?_⟩
  · exact ⟨s.coreReset 2, rfl, State.coreReset_cored 2 s, ⟨rfl, State.coreReset_aonPor 2 s, rfl⟩, rfl, rfl⟩
  · exact ⟨s.coreReset 4, rfl, State.coreReset_cored 4 s, ⟨rfl, State.coreReset_aonPor 4 s, rfl⟩, rfl, rfl⟩
  · refine ⟨{ (s.coreReset 0) with boot := { (s.coreReset 0).boot with testmode := true } }, rfl, State.coreReset_cored 0 s, ⟨rfl, State.coreReset_aonPor 0 s, rfl⟩, ?_, rfl⟩
    exact congrArg (fun c : BitVec 4 => { State.reset.boot with testmode := true, vioDown := s.boot.vioDown, flashed := s.boot.flashed, cause := c }) BitVec.or_zero
  · exact ⟨s.aonReset cold, rfl, State.coreReset_cored 0 s, rfl, rfl, show (({} : Time).flags.get 4 = true) by decide, rfl, rfl, rfl⟩
  · exact congrArg Host.Outcome.next (State.vioDrops_of_held held)
  · refine ⟨s.vioDrops p, rfl, State.vioDrops_keeps p s, ?_, fun n => ?_⟩
    · rw [State.vioDrops_of_released held]
      exact (State.vioFault_keeps p true _).2 .boot (by decide)
    · rw [State.vioDrops_of_released held]
      exact State.vioFault_ch p true _ n
  · obtain ⟨t, run, kept⟩ := execVioReturn_keeps p s
    have result := Host.Outcome.next.inj run
    refine ⟨t, run, kept, ?_, fun n => ?_⟩
    · rw [← result]
      exact (State.vioFault_keeps p _ _).2 .boot (by decide)
    · rw [← result]
      exact State.vioFault_ch p _ _ n

end Sys2Proof.Machine
end

section
/-!
PROOF of the obligation on the registers of the mailboxes (O44).
-/
namespace Sys2Proof.Machine

theorem State.modMbx_eq_self {b : Mbx} {f : Mailbox → Mailbox} {s : State} (h : f s.mbx[b] = s.mbx[b]) : s.modMbx b f = s := by
  unfold State.modMbx
  rw [h, show s.mbx.set b.val s.mbx[b] b.isLt = s.mbx from Vector.set_getElem_self b.isLt]

/-! ### The lock (R258) -/

theorem masterNo_pos (m : Master) : 0 < masterNo m := Nat.succ_pos _

/-- The master of a number. -/
def masterAt (i : Fin 8) : Master := #v[Master.keeper, .watch1, .watch2, .watch3, .watch4, .pcie, .qspi, .debug][i]

theorem Master.idx_injective : Function.Injective Master.idx := Function.LeftInverse.injective (g := masterAt) fun m => by cases m <;> rfl

/-- Of two masters' numbers the lower, 0 being none. -/
def lowerNo (r : Nat) (m : Master) : Nat := if r = 0 ∨ masterNo m < r then masterNo m else r

/-- The lowest number of some readers. -/
theorem foldl_lowerNo {n : Nat} (pos : 0 < n) : ∀ (l : List Master) (r : Nat), (∀ k ∈ l, n ≤ masterNo k) →
    (r = n ∨ ((r = 0 ∨ n ≤ r) ∧ ∃ k ∈ l, masterNo k = n)) → l.foldl lowerNo r = n
  | [], r, _, h => h.elim id fun ⟨_, _, mem, _⟩ => absurd mem List.not_mem_nil
  | k :: l, r, least, h => by
    have head := least k (.head l)
    refine foldl_lowerNo pos l _ (fun j mem => least j (.tail k mem)) ?_
    unfold lowerNo
    rcases h with rfl | ⟨above, j, mem, eq⟩
    · exact .inl (if_neg (by omega))
    · rcases List.mem_cons.mp mem with rfl | mem
      · left
        split <;> omega
      · refine .inr ⟨?_, j, mem, eq⟩
        split <;> omega

/-- What each of some masters is answered. -/
theorem forAll_ret_master (v : Master → W) (l : List Master) (s : State) (k : Master) :
    (forAll l (fun m => State.ret m (v m)) s).master[k.idx] = if k ∈ l then { s.master[k.idx] with rdata := v k } else s.master[k.idx] := by
  unfold forAll
  induction l generalizing s with
  | nil => rfl
  | cons m l ih =>
    rw [List.foldl_cons, ih]
    dsimp only [State.ret]
    by_cases e : k = m
    · subst e
      rw [State.modMaster_master_same, if_pos (List.mem_cons_self ..)]
      split <;> rfl
    · have apart : k.idx ≠ m.idx := fun h => e (Master.idx_injective h)
      rw [State.modMaster_onlyMaster m _ s k.idx apart]
      simp only [List.mem_cons, e, false_or]

theorem forAll_ret_other (v : Master → W) {l : List Master} {i : Fin 8} (h : ∀ k ∈ l, i ≠ k.idx) (s : State) :
    (forAll l (fun m => State.ret m (v m)) s).master[i] = s.master[i] :=
  forAll_induction (P := fun u => u.master[i] = s.master[i])
    (fun k mem u same => (State.modMaster_onlyMaster k (fun x => { x with rdata := v k }) u i (h k mem)).trans same) rfl

/-- The port of each of some masters takes its read of a lock: the state they find. -/
theorem forAll_lockAccess (b : Mbx) {l : List Master} {s : State} (h : ∀ k ∈ l, reaches k s = true) :
    Keeps [.pcie] s (forAll l (fun m => State.access m (.mbLockRead b [m]) id) s) := by
  have step : ∀ k ∈ l, ∀ u, (Keeps [.pcie] s u ∧ ∀ j, reaches j u = reaches j s) →
      Keeps [.pcie] s (u.access k (.mbLockRead b [k]) id) ∧ ∀ j, reaches j (u.access k (.mbLockRead b [k]) id) = reaches j s := fun k mem u ⟨kept, same⟩ => by
    have port : served k (.mbLockRead b [k]) u = true := by
      have r := (same k).trans (h k mem)
      unfold served
      rw [r]
      cases k <;> rfl
    rw [access_served port]
    refine ⟨kept.trans (found_keeps k u), fun j => ?_⟩
    rw [← same j]
    cases k <;> cases j <;> rfl
  exact (forAll_induction step ⟨.refl _ s, fun _ => rfl⟩).1

theorem execMbLockRead_of_reached (b : Mbx) {l : List Master} {s : State} (h : ∀ k ∈ l, reaches k s = true) :
    execMbLockRead b l s = .next ((forAll l (fun m => State.access m (.mbLockRead b [m]) id) s).lockRead b l) := by
  unfold execMbLockRead
  dsimp only
  rw [List.filter_eq_self.mpr h]

/-- The owner a lock has after a read by l. -/
def lockOwner (b : Mbx) (l : List Master) (s : State) : Nat := if s.mbx[b].owner = 0 then l.foldl lowerNo 0 else s.mbx[b].owner

theorem State.lockRead_eq (b : Mbx) (l : List Master) (s : State) :
    s.lockRead b l = forAll l (fun m => State.ret m (if masterNo m = lockOwner b l s then 0 else BitVec.ofNat 32 (lockOwner b l s))) (s.modMbx b (fun x => { x with owner := lockOwner b l s })) := rfl

theorem State.lockRead_kept (b : Mbx) (l : List Master) (s : State) :
    Keeps [.master, .mbx] s (s.lockRead b l) ∧ (s.lockRead b l).mbx = (s.modMbx b (fun x => { x with owner := lockOwner b l s })).mbx := by
  rw [State.lockRead_eq]
  have answers := Keeps.forAll (fun m => State.ret m (if masterNo m = lockOwner b l s then 0 else BitVec.ofNat 32 (lockOwner b l s)))
    (fun m u => State.ret_keeps m _ u) l (Keeps.refl [.master] (s.modMbx b (fun x => { x with owner := lockOwner b l s })))
  exact ⟨((State.modMbx_keeps b _ s).mono (by decide)).trans (answers.mono (by decide)), answers.2 .mbx (by decide)⟩

theorem State.lockRead_master (b : Mbx) (l : List Master) (s : State) (k : Master) :
    (s.lockRead b l).master[k.idx] =
      if k ∈ l then { s.master[k.idx] with rdata := if masterNo k = lockOwner b l s then 0 else BitVec.ofNat 32 (lockOwner b l s) } else s.master[k.idx] := by
  rw [State.lockRead_eq, forAll_ret_master]
  rfl

/-! ### Posting and acknowledging (R259, R266) -/

theorem Mailbox.mayPost_iff (m : Master) (x : Mailbox) : x.mayPost m = true ↔ x.owner = masterNo m ∧ x.busy = false := by
  simp [Mailbox.mayPost]

theorem Mailbox.refusePost_idle {x : Mailbox} (t : Nat) (idle : x.busy = false) : x.refusePost t = { x with flags := x.flags.raise t 4 } :=
  congrArg (fun c => { x with flags := (x.flags.raise t 4).raiseIf c t 8 }) idle

theorem Mailbox.refusePost_busy {x : Mailbox} (t : Nat) (busy : x.busy = true) : x.refusePost t = { x with flags := (x.flags.raise t 4).raise t 8 } :=
  congrArg (fun c => { x with flags := (x.flags.raise t 4).raiseIf c t 8 }) busy

/-- A mailbox after a write of POST_LO or POST_HI. -/
def Mailbox.posted (t : Nat) (m : Master) (hi : Bool) (w : W) (x : Mailbox) : Mailbox :=
  if !x.mayPost m then x.refusePost t else if hi then { x with postHi := w } else { x with postLo := w }

theorem State.postWrite_eq (m : Master) (b : Mbx) (hi : Bool) (w : W) (s : State) : s.postWrite m b hi w = s.modMbx b (Mailbox.posted s.tick m hi w) := rfl

theorem Mailbox.posted_of_owner {x : Mailbox} {m : Master} (t : Nat) (hi : Bool) (w : W) (owns : x.owner = masterNo m) (idle : x.busy = false) :
    x.posted t m hi w = if hi then { x with postHi := w } else { x with postLo := w } := by
  unfold Mailbox.posted
  rw [(Mailbox.mayPost_iff m x).mpr ⟨owns, idle⟩]
  rfl

theorem Mailbox.posted_of_refused {x : Mailbox} {m : Master} (t : Nat) (hi : Bool) (w : W) (h : ¬ (x.owner = masterNo m ∧ x.busy = false)) :
    x.posted t m hi w = x.refusePost t := by
  unfold Mailbox.posted
  rw [Bool.eq_false_iff.mpr fun on => h ((Mailbox.mayPost_iff m x).mp on)]
  rfl

theorem State.doorbell_of_refused {m : Master} {b : CmdMbx} (w : W) {s : State} (h : ¬ (s.mbx[cmdMbx b].owner = masterNo m ∧ s.mbx[cmdMbx b].busy = false)) :
    s.doorbell m b w = s.modMbx (cmdMbx b) (Mailbox.refusePost s.tick) := by
  unfold State.doorbell
  dsimp only
  rw [Bool.eq_false_iff.mpr fun on => h ((Mailbox.mayPost_iff m _).mp on)]
  rfl

/-- A mailbox that its owner, master number k, rings as the bell number i. -/
def Mailbox.rung (k i : Nat) (x : Mailbox) : Mailbox := { x with busy := true, phase := .posted, poster := k, replyLost := false, bell := i }

/-- The state after the owner of a mailbox rings it. -/
def State.rung (m : Master) (b : CmdMbx) (s : State) : State :=
  { s.modMbx (cmdMbx b) (Mailbox.rung (masterNo m) (s.fw.bells + 1)) with
    fw := { s.fw with bells := s.fw.bells + 1 } }

theorem State.rung_onlyMbx (m : Master) (b : CmdMbx) (s : State) : OnlyMbx (cmdMbx b) s (s.rung m b) := fun x apart =>
  State.modMbx_mbx_other s (cmdMbx b) x (Mailbox.rung (masterNo m) (s.fw.bells + 1)) apart

theorem State.doorbell_of_owner {m : Master} {b : CmdMbx} (w : W) {s : State} (owns : s.mbx[cmdMbx b].owner = masterNo m) (idle : s.mbx[cmdMbx b].busy = false) :
    s.doorbell m b w = if bit w 0 then s.rung m b else s := by
  unfold State.doorbell
  dsimp only
  rw [(Mailbox.mayPost_iff m _).mpr ⟨owns, idle⟩]
  cases bit w 0 <;> rfl

theorem State.doorbell_keeps_mbx (m : Master) (b : CmdMbx) (w : W) (s : State) : Keeps [.mbx, .fw] s (s.doorbell m b w) ∧ OnlyMbx (cmdMbx b) s (s.doorbell m b w) := by
  by_cases may : s.mbx[cmdMbx b].owner = masterNo m ∧ s.mbx[cmdMbx b].busy = false
  · rw [State.doorbell_of_owner w may.1 may.2]
    cases bit w 0
    · exact ⟨.refl _ s, .refl _ s⟩
    · exact ⟨((State.modMbx_keeps ..).mono (by decide)).trans (Keeps.setFw _ _ |>.mono (by decide)),
        State.rung_onlyMbx m b s⟩
  · rw [State.doorbell_of_refused w may]
    exact ⟨(State.modMbx_keeps ..).mono (by decide), State.modMbx_onlyMbx (cmdMbx b) _ s⟩

theorem State.noticeAck_of_idle {i : Fin 8} {w : W} {s : State} (h : bit w 0 = false ∨ s.mbx[noticeMbx i].shown = none) : s.noticeAck i w = s := by
  unfold State.noticeAck
  rcases h with still | none_
  · rw [still]
    rfl
  · rw [none_, Option.isNone_none, Bool.or_true]
    rfl

theorem State.noticeAck_of_shown {i : Fin 8} {w : W} {n : Notice} {s : State} (ack : bit w 0 = true) (shown : s.mbx[noticeMbx i].shown = some n) :
    s.noticeAck i w = s.modMbx (noticeMbx i) (fun x => { x with flags := x.flags.drop 2, shown := none, owner := 0 }) := by
  unfold State.noticeAck
  rw [ack, shown]
  rfl

/-- Settles O44, register by register. -/
theorem mailboxRegisters : Obligations.MailboxRegisters := by
  unfold Obligations.MailboxRegisters
  intro m b s
  refine ⟨⟨fun readers mem least free => ?_, fun port taken => ?_, fun port => ?_, fun hi w port => ?_⟩, fun c w port => ?_, fun i w port => ⟨fun idle => ?_, fun n ack shown => ?_⟩⟩
  · have reached : ∀ k ∈ readers, reaches k s = true := fun k h => (least k h).1
    have ports := forAll_lockAccess b reached
    generalize found_ : forAll readers (fun k => State.access k (.mbLockRead b [k]) id) s = u at ports
    have box : u.mbx = s.mbx := ports.2 .mbx (by decide)
    have masters : u.master = s.master := ports.2 .master (by decide)
    have owner : lockOwner b readers u = masterNo m := by
      unfold lockOwner
      rw [box, if_pos free]
      exact foldl_lowerNo (masterNo_pos m) readers 0 (fun k h => (least k h).2) (.inr ⟨.inl rfl, m, mem, rfl⟩)
    obtain ⟨kept, after⟩ := State.lockRead_kept b readers u
    rw [owner] at after
    refine ⟨u.lockRead b readers, (execMbLockRead_of_reached b reached).trans (by rw [found_]), (ports.mono (by decide)).trans (kept.mono (by decide)), ?_, ?_, ?_, fun k h apart => ?_, fun k h => ?_⟩
    · exact fun x hx => by rw [after, State.modMbx_mbx_other u b x _ hx, box]
    · rw [after, State.modMbx_mbx_same, box]
      rfl
    · rw [State.lockRead_master, if_pos mem, owner, if_pos rfl, masters]
    · have other : masterNo k ≠ masterNo m := apart
      rw [State.lockRead_master, if_pos h, owner, if_neg other, masters]
      rfl
    · rw [State.lockRead_master, if_neg h, masters]
  · have all : ∀ k ∈ [m], reaches k s = true := fun k h => List.mem_singleton.mp h ▸ port
    have one : forAll [m] (fun k => State.access k (.mbLockRead b [k]) id) s = found m s := access_served (by
      unfold served
      rw [port]
      cases m <;> rfl)
    have owner : lockOwner b [m] (found m s) = s.mbx[b].owner := by
      unfold lockOwner
      rw [found_mbx, if_neg taken]
    obtain ⟨kept, after⟩ := State.lockRead_kept b [m] (found m s)
    have same : (found m s).modMbx b (fun x => { x with owner := s.mbx[b].owner }) = found m s := State.modMbx_eq_self (by rw [found_mbx])
    rw [owner, same, found_mbx] at after
    refine ⟨(found m s).lockRead b [m], (execMbLockRead_of_reached b all).trans (by rw [one]), kept, after, fun i apart => ?_, ?_⟩
    · rw [State.lockRead_eq]
      refine (forAll_ret_other _ (fun k h => List.mem_singleton.mp h ▸ apart) _).trans ?_
      exact congrArg (fun v : Vector MasterSt 8 => v[i]) (found_master m s)
    · rw [State.lockRead_master, if_pos (List.mem_singleton.mpr rfl), owner, found_master]
      exact congrArg (fun x => { s.master[m.idx] with rdata := x }) (if_congr (eq_comm (a := masterNo m) (b := s.mbx[b].owner)) rfl rfl)
  · refine ⟨_, exec_served rfl port, State.modMbx_keeps .., fun x apart => ?_, fun may => ?_, fun apart host => ?_⟩
    · rw [State.lockWrite, State.modMbx_mbx_other _ b x _ apart, found_mbx]
    · rw [State.lockWrite, State.modMbx_mbx_same, found_mbx, found_tick]
      exact if_pos may
    · rw [State.lockWrite, State.modMbx_mbx_same, found_mbx, found_tick]
      exact if_neg fun h => h.elim apart host
  · refine ⟨_, exec_served rfl port, State.modMbx_keeps .., fun x apart => ?_, fun owns idle => ?_, fun apart idle => ?_, fun busy => ?_⟩
    · rw [State.postWrite_eq, State.modMbx_mbx_other _ b x _ apart, found_mbx]
    · rw [State.postWrite_eq, State.modMbx_mbx_same, found_mbx]
      exact Mailbox.posted_of_owner _ hi w owns idle
    · rw [State.postWrite_eq, State.modMbx_mbx_same, found_mbx, found_tick, Mailbox.posted_of_refused s.tick hi w fun h => apart h.1, Mailbox.refusePost_idle s.tick idle]
    · rw [State.postWrite_eq, State.modMbx_mbx_same, found_mbx, found_tick, Mailbox.posted_of_refused s.tick hi w fun h => Bool.noConfusion (busy.symm.trans h.2), Mailbox.refusePost_busy s.tick busy]
  · obtain ⟨kept, only⟩ := State.doorbell_keeps_mbx m c w (found m s)
    refine ⟨_, exec_served rfl port, kept, fun x apart => (only x apart).trans (by rw [found_mbx]), fun owns idle still => ?_, fun owns idle rings => ?_, fun apart idle => ?_, fun busy => ?_⟩
    · rw [State.doorbell_of_owner w (by rw [found_mbx]; exact owns) (by rw [found_mbx]; exact idle), still]
      rfl
    · rw [State.doorbell_of_owner w (by rw [found_mbx]; exact owns) (by rw [found_mbx]; exact idle), rings, if_pos rfl]
      refine ⟨?_, by rw [State.rung, found_fw]⟩
      rw [State.rung, State.modMbx_mbx_same, found_mbx, found_fw]
      rfl
    · rw [State.doorbell_of_refused w (by rw [found_mbx]; exact fun h => apart h.1), State.modMbx_mbx_same, found_mbx, found_tick]
      exact ⟨Mailbox.refusePost_idle s.tick idle, found_fw m s⟩
    · rw [State.doorbell_of_refused w (by rw [found_mbx]; exact fun h => Bool.noConfusion (busy.symm.trans h.2)), State.modMbx_mbx_same, found_mbx, found_tick]
      exact ⟨Mailbox.refusePost_busy s.tick busy, found_fw m s⟩
  · refine (exec_served (f := State.noticeAck i w) rfl port).trans (congrArg Host.Outcome.next (State.noticeAck_of_idle ?_))
    rwa [found_mbx]
  · have runs := State.noticeAck_of_shown (s := found m s) ack (by rw [found_mbx]; exact shown)
    refine ⟨(found m s).noticeAck i w, exec_served rfl port, ?_, fun x apart => ?_, ?_⟩
    · rw [runs]
      exact State.modMbx_keeps ..
    · rw [runs, State.modMbx_mbx_other _ (noticeMbx i) x _ apart, found_mbx]
    · rw [runs, State.modMbx_mbx_same, found_mbx]

end Sys2Proof.Machine
end

section
/-!
SUPPORT. The event interrupt controller: what the delivery decision leaves, and what it offers (R231, R232, R240).
-/
namespace Sys2Proof.Machine

/-! ### What the decision leaves of the controller -/

/-- A target after a delivery decision: its offer, its wake request, and the flag and the core's sleep that go with a new request. -/
def TgtDecided (a b : Target) : Prop :=
  b = { a with wake := b.wake, core := b.core, flags := b.flags, offered := b.offered } ∧ ∀ i, a.flags.get i = true → b.flags.get i = true

theorem TgtDecided.refl (a : Target) : TgtDecided a a := ⟨rfl, fun _ h => h⟩

theorem TgtDecided.trans {a b c : Target} (h : TgtDecided a b) (k : TgtDecided b c) : TgtDecided a c := by
  obtain ⟨h1, h2⟩ := h
  obtain ⟨k1, k2⟩ := k
  exact ⟨by rw [k1, h1], fun i on => k2 i (h2 i on)⟩

/-- The controller after a delivery decision: the choices, the targets, and the messages it sends. -/
structure Decided (s t : State) : Prop where
  keeps : Keeps [.eic] s t
  only : t.eic = { s.eic with choice := t.eic.choice, tgt := t.eic.tgt, pba := t.eic.pba, sent := t.eic.sent, pme := t.eic.pme }
  tgt : ∀ u : Tgt, TgtDecided s.eic.tgt[u] t.eic.tgt[u]
  quiet : s.pcie.msix = false → t.eic.pba = s.eic.pba

theorem Decided.refl (s : State) : Decided s s := ⟨.refl _ s, rfl, fun _ => .refl _, fun _ => rfl⟩

theorem Decided.pcie {s t : State} (h : Decided s t) : t.pcie = s.pcie := h.keeps.2 .pcie (by decide)

theorem Decided.trans {s t u : State} (h : Decided s t) (k : Decided t u) : Decided s u where
  keeps := h.keeps.trans k.keeps
  only := by rw [k.only, h.only]
  tgt i := (h.tgt i).trans (k.tgt i)
  quiet off := (k.quiet (by rw [h.pcie]; exact off)).trans (h.quiet off)

theorem Decided.forAll {α : Type} {f : α → State → State} (step : ∀ a s, Decided s (f a s)) (l : List α) (s : State) : Decided s (forAll l f s) :=
  forAll_induction (P := Decided s) (fun a _ u h => h.trans (step a u)) (.refl s)

theorem State.modTgt_tgt_same (u : Tgt) (f : Target → Target) (s : State) : (s.modTgt u f).eic.tgt[u] = f s.eic.tgt[u] := by
  simp [State.modTgt]

theorem State.modTgt_tgt_other {u v : Tgt} (f : Target → Target) (s : State) (h : v ≠ u) : (s.modTgt u f).eic.tgt[v] = s.eic.tgt[v] := by
  have apart : u.val ≠ v.val := fun e => h (Fin.ext e.symm)
  simp [State.modTgt, apart]

theorem State.modTgt_decided {u : Tgt} {f : Target → Target} {s : State} (h : TgtDecided s.eic.tgt[u] (f s.eic.tgt[u])) : Decided s (s.modTgt u f) where
  keeps := State.modTgt_keeps ..
  only := rfl
  tgt v := by
    by_cases e : v = u
    · subst e
      rw [State.modTgt_tgt_same]
      exact h
    · rw [State.modTgt_tgt_other f s e]
      exact .refl _
  quiet _ := rfl

theorem State.wakeReq_decided (u : Tgt) (s : State) : Decided s (s.wakeReq u) := by
  unfold State.wakeReq
  extract_lets want x new s1
  have h : Decided s s1 := State.modTgt_decided ⟨rfl, fun i on => Sticky.get_raiseIf_of_get on ..⟩
  clear_value s1 new
  split
  · exact h.trans ⟨Keeps.setEic _ _, rfl, fun _ => .refl _, fun _ => rfl⟩
  · exact h

theorem State.message_decided (v : Nat) (s : State) : Decided s (s.message v) := by
  unfold State.message
  extract_lets i
  split
  · next on =>
    split
    · exact ⟨Keeps.setEic _ _, rfl, fun _ => .refl _, fun off => absurd on (by simp [off])⟩
    · exact ⟨Keeps.setEic _ _, rfl, fun _ => .refl _, fun _ => rfl⟩
  · split
    · exact ⟨Keeps.setEic _ _, rfl, fun _ => .refl _, fun _ => rfl⟩
    · exact .refl s

/-- The decision up to the wake requests, the offers it makes, and the message of a change at H (R232). -/
def State.wakesAsked (s : State) : State := forAll allTgts State.wakeReq { s with eic := { s.eic with choice := choices s } }

def State.offers (s : State) : State := forAll allTgts (fun t => State.modTgt t (fun x => { x with offered := (offerTo t [] s).map (fun i => i.val) })) s

def State.tellsHost (before : Option Nat) (offer : Option Src) (s : State) : State :=
  match offer with
  | none => s
  | some i => if before == some i.val then s else s.message (srcVec s.eic.src[i])

theorem State.deliver_eq (s : State) : s.deliver = s.wakesAsked.offers.tellsHost s.eic.tgt[(5 : Tgt)].offered (offerTo 5 [] s.wakesAsked) := by
  have asked : forAll allTgts State.wakeReq { s with eic := { s.eic with choice := choices s } } = s.wakesAsked := rfl
  unfold State.deliver
  dsimp only
  rw [asked]
  generalize s.wakesAsked = s0
  have offered : forAll allTgts (fun t => State.modTgt t (fun x => { x with offered := (offerTo t [] s0).map (fun i => i.val) })) s0 = s0.offers := rfl
  rw [offered]
  generalize s0.offers = s1
  generalize offerTo 5 [] s0 = o
  cases o <;> rfl

theorem Decided.choose (s : State) (l : List (Nat × Nat)) : Decided s { s with eic := { s.eic with choice := l } } :=
  ⟨Keeps.setEic s _, rfl, fun _ => .refl _, fun _ => rfl⟩

theorem State.wakesAsked_decided (s : State) : Decided s s.wakesAsked :=
  (Decided.choose s (choices s)).trans (Decided.forAll State.wakeReq_decided allTgts _)

theorem TgtDecided.offer (a : Target) (o : Option Nat) : TgtDecided a { a with offered := o } := ⟨rfl, fun _ h => h⟩

theorem State.offers_decided (s : State) : Decided s s.offers := by
  unfold State.offers
  refine Decided.forAll (fun u v => ?_) allTgts s
  generalize (offerTo u [] s).map (fun i => i.val) = o
  exact State.modTgt_decided (TgtDecided.offer _ o)

theorem State.tellsHost_decided (before : Option Nat) (offer : Option Src) (s : State) : Decided s (s.tellsHost before offer) := by
  unfold State.tellsHost
  split
  · exact .refl s
  · split
    · exact .refl s
    · exact State.message_decided ..

theorem State.deliver_decided (s : State) : Decided s s.deliver := by
  rw [State.deliver_eq]
  exact ((State.wakesAsked_decided s).trans (State.offers_decided _)).trans (State.tellsHost_decided ..)

section
variable {s t : State} (h : Decided s t)
include h

theorem Decided.pend : t.eic.pend = s.eic.pend := by rw [h.only]
theorem Decided.prev : t.eic.prev = s.eic.prev := by rw [h.only]
theorem Decided.src : t.eic.src = s.eic.src := by rw [h.only]
theorem Decided.grp : t.eic.grp = s.eic.grp := by rw [h.only]
theorem Decided.msix : t.eic.msix = s.eic.msix := by rw [h.only]
theorem Decided.stamp : t.eic.stamp = s.eic.stamp := by rw [h.only]
theorem Decided.again : t.eic.again = s.eic.again := by rw [h.only]
theorem Decided.stack (u : Tgt) : t.eic.tgt[u].stack = s.eic.tgt[u].stack := by rw [(h.tgt u).1]
theorem Decided.thr (u : Tgt) : t.eic.tgt[u].thr = s.eic.tgt[u].thr := by rw [(h.tgt u).1]
theorem Decided.sleep (u : Tgt) : t.eic.tgt[u].sleep = s.eic.tgt[u].sleep := by rw [(h.tgt u).1]
theorem Decided.spur (u : Tgt) : t.eic.tgt[u].spur = s.eic.tgt[u].spur := by rw [(h.tgt u).1]

end

/-! ### What a target is offered (R231, R232) -/

theorem mem_pendList {e : Eic} {j : Src} : j ∈ pendList e ↔ e.pend.getLsbD j.val = true := by
  unfold pendList
  rw [List.mem_flatMap]
  constructor
  · rintro ⟨g, -, mem⟩
    split at mem
    · exact absurd mem List.not_mem_nil
    · obtain ⟨i, -, eq⟩ := List.mem_filterMap.mp mem
      split at eq
      · next on => exact (Option.some.inj eq) ▸ on
      · cases eq
  · intro on
    have split_ : 32 * (j.val / 32) + j.val % 32 = j.val := Nat.div_add_mod ..
    refine ⟨⟨j.val / 32, by omega⟩, List.mem_finRange _, ?_⟩
    have some_ : ¬ (e.pend.extractLsb' (32 * (j.val / 32)) 32 == 0#32) = true := fun zero => by
      have bit_ : (e.pend.extractLsb' (32 * (j.val / 32)) 32).getLsbD (j.val % 32) = true := by
        rw [BitVec.getLsbD_extractLsb', split_, on, Bool.and_true, decide_eq_true_eq]
        omega
      rw [beq_iff_eq.mp zero, BitVec.getLsbD_zero] at bit_
      cases bit_
    rw [if_neg some_]
    refine List.mem_filterMap.mpr ⟨⟨j.val % 32, by omega⟩, List.mem_finRange _, ?_⟩
    simp [split_, on]

theorem pendList_sorted (e : Eic) : (pendList e).Pairwise (· < ·) := by
  unfold pendList
  rw [List.pairwise_flatMap]
  have block : ∀ (g : Fin 32) (x : Src), x ∈ (if e.pend.extractLsb' (32 * g.val) 32 == 0#32 then []
      else (List.finRange 32).filterMap (fun i => if e.pend.getLsbD (32 * g.val + i.val) then some (⟨32 * g.val + i.val, by omega⟩ : Src) else none)) →
      x.val / 32 = g.val := fun g x mem => by
    split at mem
    · exact absurd mem List.not_mem_nil
    · obtain ⟨i, -, eq⟩ := List.mem_filterMap.mp mem
      split at eq
      · rw [← Option.some.inj eq]
        dsimp only
        omega
      · cases eq
  refine ⟨fun g _ => ?_, ?_⟩
  · split
    · exact .nil
    · refine List.Pairwise.filterMap _ (fun i j less x hx y hy => ?_) (List.pairwise_lt_finRange 32)
      split at hx <;> split at hy <;> cases hx <;> cases hy
      exact Fin.mk_lt_mk.mpr (Nat.add_lt_add_left less _)
  · refine (List.pairwise_lt_finRange 32).imp fun {g h} less x hx y hy => ?_
    have lo := block g x hx
    have hi := block h y hy
    have := Fin.lt_def.mp less
    exact Fin.lt_def.mpr (by omega)

/-- Of two sources the one to offer: the later one only at a higher level. -/
def betterSrc (f : Src → Nat) (r : Option Src) (i : Src) : Option Src :=
  match r with
  | none => some i
  | some j => if f j < f i then some i else some j

theorem foldl_betterSrc_some (f : Src → Nat) : ∀ (l : List Src) (j : Src), (j :: l).Pairwise (· < ·) →
    ∃ k ∈ j :: l, l.foldl (betterSrc f) (some j) = some k ∧ ∀ x ∈ j :: l, f x < f k ∨ (f x = f k ∧ k ≤ x)
  | [], j, _ => ⟨j, .head _, rfl, fun x mem => .inr (by rw [List.mem_singleton.mp mem]; exact ⟨rfl, le_rfl⟩)⟩
  | i :: l, j, sorted => by
    have above : ∀ x ∈ i :: l, j < x := (List.pairwise_cons.mp sorted).1
    have rest : (i :: l).Pairwise (· < ·) := (List.pairwise_cons.mp sorted).2
    by_cases better : f j < f i
    · obtain ⟨k, mem, eq, best⟩ := foldl_betterSrc_some f l i rest
      refine ⟨k, .tail _ mem, ?_, fun x hx => ?_⟩
      · rw [List.foldl_cons, betterSrc, if_pos better, eq]
      · rcases List.mem_cons.mp hx with rfl | hx
        · have := best i (.head _)
          omega
        · exact best x hx
    · have skip : (j :: l).Pairwise (· < ·) := List.pairwise_cons.mpr ⟨fun x hx => above x (.tail _ hx), (List.pairwise_cons.mp rest).2⟩
      obtain ⟨k, mem, eq, best⟩ := foldl_betterSrc_some f l j skip
      have sub : k ∈ j :: i :: l := (List.mem_cons.mp mem).elim (fun e => e ▸ .head _) (fun h => .tail _ (.tail _ h))
      refine ⟨k, sub, ?_, fun x hx => ?_⟩
      · rw [List.foldl_cons, betterSrc, if_neg better, eq]
      · rcases List.mem_cons.mp hx with rfl | hx
        · exact best x (.head _)
        · rcases List.mem_cons.mp hx with rfl | hx
          · have first := best j (.head _)
            have := above x (.head _)
            rcases first with lower | ⟨same, before⟩
            · exact .inl (by omega)
            · rcases Nat.lt_or_ge (f x) (f k) with h | h
              · exact .inl h
              · exact .inr ⟨by omega, before.trans this.le⟩
          · exact best x (.tail _ hx)

/-- The best of some sources in ascending order: none where there is none, else of the highest level the lowest number. -/
theorem foldl_betterSrc_none (f : Src → Nat) (l : List Src) (sorted : l.Pairwise (· < ·)) :
    (l = [] ∧ l.foldl (betterSrc f) none = none) ∨ ∃ k ∈ l, l.foldl (betterSrc f) none = some k ∧ ∀ x ∈ l, f x < f k ∨ (f x = f k ∧ k ≤ x) := by
  cases l with
  | nil => exact .inl ⟨rfl, rfl⟩
  | cons j l => exact .inr (foldl_betterSrc_some f l j sorted)

theorem offerTo_eq (u : Tgt) (s : State) : offerTo u [] s = ((pendList s.eic).filter (fun i => eligible i u s)).foldl (betterSrc (fun i => fld s.eic.src[i] 0 4)) none := by
  unfold offerTo
  simp only [List.contains_nil, Bool.not_false, Bool.and_true]
  rfl

/-- What an offer to target u in state s is: none where no pending source is eligible, else of those of highest level the lowest. -/
def BestOffer (u : Tgt) (s : State) (o : Option Src) : Prop :=
  (o = none → ∀ j : Src, s.eic.pend.getLsbD j.val = true → eligible j u s = false) ∧
  (∀ j : Src, o = some j → s.eic.pend.getLsbD j.val = true ∧ eligible j u s = true ∧
    ∀ x : Src, s.eic.pend.getLsbD x.val = true → eligible x u s = true → fld s.eic.src[x] 0 4 < fld s.eic.src[j] 0 4 ∨ (fld s.eic.src[x] 0 4 = fld s.eic.src[j] 0 4 ∧ j.val ≤ x.val))

theorem offerTo_best (u : Tgt) (s : State) : BestOffer u s (offerTo u [] s) := by
  have mem : ∀ j : Src, j ∈ (pendList s.eic).filter (fun i => eligible i u s) ↔ s.eic.pend.getLsbD j.val = true ∧ eligible j u s = true := fun j => by
    rw [List.mem_filter, mem_pendList]
  have sorted := (pendList_sorted s.eic).filter (fun i => eligible i u s)
  rw [offerTo_eq]
  generalize (pendList s.eic).filter (fun i => eligible i u s) = l at mem sorted
  rcases foldl_betterSrc_none (fun i => fld s.eic.src[i] 0 4) l sorted with ⟨rfl, eq⟩ | ⟨k, hk, eq, best⟩
  · rw [eq]
    refine ⟨fun _ j pends => ?_, fun j h => (nomatch h)⟩
    exact Bool.eq_false_iff.mpr fun on => absurd ((mem j).mpr ⟨pends, on⟩) List.not_mem_nil
  · rw [eq]
    refine ⟨fun h => (nomatch h), fun j h => ?_⟩
    obtain rfl := Option.some.inj h
    obtain ⟨pends, on⟩ := (mem k).mp hk
    exact ⟨pends, on, fun x px ox => best x ((mem x).mpr (And.intro px ox))⟩

/-! ### The offers stand after the decision -/

/-- What makes a source eligible for a target is as before. -/
structure SameGates (s t : State) : Prop where
  keeps : Keeps [.eic] s t
  pend : t.eic.pend = s.eic.pend
  src : t.eic.src = s.eic.src
  grp : t.eic.grp = s.eic.grp
  choice : t.eic.choice = s.eic.choice
  tgt : ∀ u : Tgt, t.eic.tgt[u].thr = s.eic.tgt[u].thr ∧ t.eic.tgt[u].stack = s.eic.tgt[u].stack ∧ t.eic.tgt[u].sleep = s.eic.tgt[u].sleep ∧ t.eic.tgt[u].core = s.eic.tgt[u].core

theorem SameGates.refl (s : State) : SameGates s s := ⟨.refl _ s, rfl, rfl, rfl, rfl, fun _ => ⟨rfl, rfl, rfl, rfl⟩⟩

theorem SameGates.eligible {s t : State} (h : SameGates s t) (j : Src) (u : Tgt) : eligible j u t = eligible j u s := by
  obtain ⟨thr, stack, sleep, core⟩ := h.tgt u
  have level : levelOk j u t = levelOk j u s := by
    unfold levelOk Target.run
    rw [h.src]
    dsimp only
    rw [thr, stack]
  have way : routed j u t = routed j u s := by
    unfold routed inMask
    rw [h.grp, h.choice, h.src]
  have sleeps : asleep u t = asleep u s := by
    unfold asleep
    rw [show t.pcie = s.pcie from h.keeps.2 .pcie (by decide)]
    split
    · exact congrArg (fun b => b || s.pcie.d3hot || !s.pcie.up || s.pcie.perst) sleep
    · exact sleep
    · exact core
  have held : holding (grpOf j) t = holding (grpOf j) s := by
    unfold holding
    rw [h.grp, h.keeps.tick (by decide)]
  unfold Machine.eligible
  rw [level, way, sleeps, held]

theorem SameGates.best {s t : State} (h : SameGates s t) {u : Tgt} {o : Option Src} (k : BestOffer u s o) : BestOffer u t o := by
  unfold BestOffer
  simp only [h.eligible, h.pend, h.src]
  exact k

theorem forAll_modTgt_tgt (f : Tgt → Target → Target) {l : List Tgt} (once : l.Nodup) (s : State) (u : Tgt) :
    (forAll l (fun t => State.modTgt t (f t)) s).eic.tgt[u] = if u ∈ l then f u s.eic.tgt[u] else s.eic.tgt[u] := by
  unfold forAll
  induction l generalizing s with
  | nil => rfl
  | cons t l ih =>
    obtain ⟨fresh, once⟩ := List.nodup_cons.mp once
    rw [List.foldl_cons, ih once]
    by_cases e : u = t
    · subst e
      rw [if_neg fresh, if_pos (List.mem_cons_self ..), State.modTgt_tgt_same]
    · rw [State.modTgt_tgt_other _ _ e]
      simp only [List.mem_cons, e, false_or]

theorem State.offers_tgt (s : State) (u : Tgt) : s.offers.eic.tgt[u] = { s.eic.tgt[u] with offered := (offerTo u [] s).map (fun i => i.val) } := by
  have all : u ∈ allTgts := List.mem_finRange u
  unfold State.offers
  have once : allTgts.Nodup := List.nodup_finRange 7
  rw [forAll_modTgt_tgt (fun t x => { x with offered := (offerTo t [] s).map (fun i => i.val) }) once, if_pos all]

theorem State.message_tgt (v : Nat) (s : State) : (s.message v).eic.tgt = s.eic.tgt ∧ (s.message v).eic.choice = s.eic.choice := by
  unfold State.message
  dsimp only
  split
  · split <;> exact ⟨rfl, rfl⟩
  · split <;> exact ⟨rfl, rfl⟩

theorem State.tellsHost_tgt (before : Option Nat) (offer : Option Src) (s : State) :
    (s.tellsHost before offer).eic.tgt = s.eic.tgt ∧ (s.tellsHost before offer).eic.choice = s.eic.choice := by
  unfold State.tellsHost
  split
  · exact ⟨rfl, rfl⟩
  · split
    · exact ⟨rfl, rfl⟩
    · exact State.message_tgt ..

theorem State.offers_choice (s : State) : s.offers.eic.choice = s.eic.choice := by
  unfold State.offers
  refine forAll_induction (P := fun u => u.eic.choice = s.eic.choice) (fun t _ u h => ?_) rfl
  exact h

theorem State.tellsHost_offers_gates (before : Option Nat) (offer : Option Src) (s : State) : SameGates s (s.offers.tellsHost before offer) := by
  have decided : Decided s (s.offers.tellsHost before offer) := (State.offers_decided s).trans (State.tellsHost_decided before offer s.offers)
  obtain ⟨tgt, choice⟩ := State.tellsHost_tgt before offer s.offers
  refine ⟨decided.keeps, decided.pend, decided.src, decided.grp, choice.trans (State.offers_choice s), fun v => ?_⟩
  rw [tgt, State.offers_tgt]
  generalize (offerTo v [] s).map (fun i => i.val) = o
  exact ⟨rfl, rfl, rfl, rfl⟩

/-- After a decision every target is offered the eligible pending source of highest level, then lowest number (R232). -/
theorem State.deliver_best (s : State) (u : Tgt) : ∃ o : Option Src, s.deliver.eic.tgt[u].offered = o.map (fun i => i.val) ∧ BestOffer u s.deliver o := by
  rw [State.deliver_eq]
  generalize s.wakesAsked = s0
  refine ⟨offerTo u [] s0, ?_, (State.tellsHost_offers_gates _ _ s0).best (offerTo_best u s0)⟩
  rw [(State.tellsHost_tgt _ _ s0.offers).1, State.offers_tgt]

end Sys2Proof.Machine
end

section
/-!
PROOF of the obligation on the PCI Express function (O42).
-/
namespace Sys2Proof.Machine

theorem Keeps.store_eq {l : List Part} {s t : State} (h : Keeps l s t) (mem : Part.mem ∉ l) (store : Part.store ∉ l) : t.store = s.store := by
  have words : t.store.mem = s.store.mem := h.2 .mem mem
  have rest : { t.store with mem := [] } = { s.store with mem := [] } := h.2 .store store
  have back := congrArg (fun x : Store => { x with mem := s.store.mem }) rest
  rw [← words] at back
  exact back.trans (by rw [words])

/-! ### The owners of the locks -/

/-- No lock of a mailbox changes its owner. -/
def OwnersKept (s t : State) : Prop := ∀ b : Mbx, t.mbx[b].owner = s.mbx[b].owner

theorem OwnersKept.refl (s : State) : OwnersKept s s := fun _ => rfl
theorem OwnersKept.trans {s t u : State} (h : OwnersKept s t) (k : OwnersKept t u) : OwnersKept s u := fun b => (k b).trans (h b)

theorem State.modMbx_ownersKept {b : Mbx} {f : Mailbox → Mailbox} {s : State} (h : (f s.mbx[b]).owner = s.mbx[b].owner) : OwnersKept s (s.modMbx b f) := fun m => by
  by_cases e : m = b
  · subst e
    rw [State.modMbx_mbx_same]
    exact h
  · rw [State.modMbx_mbx_other s b m f e]

theorem State.answer_ownersKept (b : CmdMbx) (status detail : Nat) (reply : List Byte) (s : State) : OwnersKept s (s.answer b status detail reply) := by
  refine State.modMbx_ownersKept ?_
  split <;> rfl

theorem State.calFinish_ownersKept (b : CmdMbx) (status detail : Nat) (s : State) : OwnersKept s (s.calFinish b status detail) :=
  (State.modMbx_ownersKept (b := cmdMbx b) (f := fun m => { m with cal := {} }) rfl).trans (State.answer_ownersKept b _ _ _ _)

theorem State.cutDma_ownersKept (b : CmdMbx) (s : State) : OwnersKept s (s.cutDma b) := by
  unfold State.cutDma
  split
  · exact State.modMbx_ownersKept rfl
  · split
    · exact State.calFinish_ownersKept b stDmaErr 0 s
    · exact .refl s
  · exact .refl s

/-! ### The resets of R249 -/

/-- The function's registers after a reset: with the link down, or as it stands. -/
def Pcie.cleared (down : Bool) (p : Pcie) : Pcie :=
  if down then { perst := p.perst, since := p.since, out := p.out, qs := p.qs, qsData := p.qsData }
  else { perst := p.perst, since := p.since, out := p.out, qs := p.qs, qsData := p.qsData, up := p.up, width2 := p.width2, speed := p.speed }

/-- What a reset of the function clears at once, before fetches are cut off. -/
def State.pcieCleared (down : Bool) (s : State) : State :=
  { s with
    pcie := s.pcie.cleared down
    eic := { s.eic with msix := Vector.replicate 32 {}, pba := 0, pme := false }
    store := { s.store with held := [] }
    pwr := { s.pwr with held := [] }
    mbx := s.mbx.map (fun (x : Mailbox) => (if x.owner = 6 then { x with owner := 0 } else x).loseLink s.tick) }

/-- Target H out of a reset of the function. -/
def Target.cleared (x : Target) : Target := { x with stack := [], thr := 0, sleep := false }

theorem State.pcieReset_eq (down : Bool) (s : State) :
    s.pcieReset down = (forAll (List.finRange 24) State.cutDma ((s.pcieCleared down).modTgt 5 Target.cleared)).deliver := rfl

theorem Mailbox.loseLink_owner (t : Nat) (x : Mailbox) : (x.loseLink t).owner = x.owner := by
  unfold Mailbox.loseLink
  split <;> rfl

theorem State.pcieCleared_owner (down : Bool) (s : State) (b : Mbx) : (s.pcieCleared down).mbx[b].owner = if s.mbx[b].owner = 6 then 0 else s.mbx[b].owner := by
  have at_ : (s.pcieCleared down).mbx[b] = (if s.mbx[b].owner = 6 then { s.mbx[b] with owner := 0 } else s.mbx[b]).loseLink s.tick := Vector.getElem_map ..
  rw [at_, Mailbox.loseLink_owner]
  split <;> rfl

/-- What a reset of the function clears. -/
def PcieCleared (s t : State) : Prop :=
  Keeps [.store, .eic, .mbx, .pcie, .pwr] s t ∧ t.store = { s.store with held := [] } ∧ t.pwr = { s.pwr with held := [] } ∧
  t.eic.msix = Vector.replicate 32 {} ∧ t.eic.pba = 0 ∧ t.eic.tgt[(5 : Tgt)].stack = [] ∧ t.eic.tgt[(5 : Tgt)].thr = 0 ∧ t.eic.tgt[(5 : Tgt)].sleep = false ∧
  t.pcie.bme = false ∧ t.pcie.d3hot = false ∧ t.pcie.msix = false ∧ t.pcie.msi = none ∧ t.pcie.out = s.pcie.out ∧
  (∀ b : Mbx, t.mbx[b].owner = if s.mbx[b].owner = 6 then 0 else s.mbx[b].owner)

theorem Pcie.cleared_off (down : Bool) (p : Pcie) :
    (p.cleared down).bme = false ∧ (p.cleared down).d3hot = false ∧ (p.cleared down).msix = false ∧ (p.cleared down).msi = none ∧ (p.cleared down).out = p.out ∧
      (p.cleared down).perst = p.perst := by
  cases down <;> exact ⟨rfl, rfl, rfl, rfl, rfl, rfl⟩

theorem State.pcieReset_pcie (down : Bool) (s : State) : (s.pcieReset down).pcie = s.pcie.cleared down := by
  have cut := Keeps.forAll State.cutDma State.cutDma_keeps (List.finRange 24) (.refl [.mbx] ((s.pcieCleared down).modTgt 5 Target.cleared))
  rw [State.pcieReset_eq]
  generalize forAll (List.finRange 24) State.cutDma ((s.pcieCleared down).modTgt 5 Target.cleared) = v at cut ⊢
  rw [(State.deliver_decided v).pcie]
  exact cut.2 .pcie (by decide)

theorem State.pcieReset_cleared (down : Bool) (s : State) : PcieCleared s (s.pcieReset down) := by
  have kept := State.pcieReset_keeps down s
  have pcie := State.pcieReset_pcie down s
  obtain ⟨bme, d3hot, msix, msi, out, -⟩ := Pcie.cleared_off down s.pcie
  rw [State.pcieReset_eq] at kept pcie ⊢
  have cut := Keeps.forAll State.cutDma State.cutDma_keeps (List.finRange 24) (.refl [.mbx] ((s.pcieCleared down).modTgt 5 Target.cleared))
  have owners : OwnersKept ((s.pcieCleared down).modTgt 5 Target.cleared) (forAll (List.finRange 24) State.cutDma ((s.pcieCleared down).modTgt 5 Target.cleared)) :=
    forAll_induction (P := OwnersKept _) (fun b _ u h => h.trans (State.cutDma_ownersKept b u)) (.refl _)
  generalize forAll (List.finRange 24) State.cutDma ((s.pcieCleared down).modTgt 5 Target.cleared) = v at kept pcie cut owners
  have decided := State.deliver_decided v
  have store : v.deliver.store = { s.store with held := [] } := (decided.keeps.store_eq (by decide) (by decide)).trans (cut.store_eq (by decide) (by decide))
  have pwr : v.deliver.pwr = { s.pwr with held := [] } := (decided.keeps.2 .pwr (by decide)).trans (cut.2 .pwr (by decide))
  have eic : v.eic = ((s.pcieCleared down).modTgt 5 Target.cleared).eic := cut.2 .eic (by decide)
  have off : v.pcie.msix = false := by
    rw [show v.pcie = s.pcie.cleared down from cut.2 .pcie (by decide)]
    exact msix
  have host : v.eic.tgt[(5 : Tgt)] = s.eic.tgt[(5 : Tgt)].cleared := by
    rw [eic, State.modTgt_tgt_same]
    rfl
  refine ⟨kept, store, pwr, ?_, ?_, ?_, ?_, ?_, by rw [pcie, bme], by rw [pcie, d3hot], by rw [pcie, msix], by rw [pcie, msi], by rw [pcie, out], fun b => ?_⟩
  · rw [decided.msix, eic]
    rfl
  · rw [decided.quiet off, eic]
    rfl
  · rw [decided.stack, host]
    rfl
  · rw [decided.thr, host]
    rfl
  · rw [decided.sleep, host]
    rfl
  · rw [show v.deliver.mbx = v.mbx from decided.keeps.2 .mbx (by decide), owners b]
    exact State.pcieCleared_owner down s b

/-! ### Configuration requests (R248) -/

/-- The state a configuration request that is not retried finds. -/
def State.configFound (s : State) : State := { s with pcie := { s.pcie with retried := false } }

theorem State.configRequest_of_down {s : State} (r : CfgReq) (h : s.pcie.up = false) : s.configRequest r = s := by
  unfold State.configRequest
  rw [h]
  rfl

theorem State.configRequest_of_retried {s : State} (r : CfgReq) (up : s.pcie.up = true) (retry : cfgRetried s = true) :
    s.configRequest r = { s with pcie := { s.pcie with retried := true } } := by
  unfold State.configRequest
  rw [if_neg (by simp [up]), if_pos retry]

theorem State.configRequest_of_asleep {s : State} (r : CfgReq) (up : s.pcie.up = true) (retry : cfgRetried s = false) (mode : s.pwr.mode ≠ 0) :
    s.configRequest r = ({ s.configFound with pwr := { s.pwr with held := s.pwr.held ++ [Instr.configRequest r] } } : State).wakeIf (bit s.pwr.cfg 0) wkPcie := by
  unfold State.configRequest
  rw [if_neg (by simp [up]), if_neg (by simp [retry])]
  exact if_pos (by simpa using mode)

theorem State.configRequest_of_run {s : State} (r : CfgReq) (up : s.pcie.up = true) (retry : cfgRetried s = false) (mode : s.pwr.mode = 0) :
    s.configRequest r = s.configFound.config r := by
  unfold State.configRequest
  rw [if_neg (by simp [up]), if_neg (by simp [retry])]
  exact if_neg (by simp [mode])

theorem State.config_master {r : CfgReq} (s : State) (h : r ≠ .readId) : (s.config r).master = s.master := by
  cases r with
  | readId => exact absurd rfl h
  | d3hot on => exact (State.deliver_decided { s with pcie := { s.pcie with d3hot := on } }).keeps.2 .master (by decide)
  | _ => rfl

theorem State.config_d3hot (on : Bool) (s : State) : (s.config (.d3hot on)).pcie = { s.pcie with d3hot := on } :=
  (State.deliver_decided { s with pcie := { s.pcie with d3hot := on } }).pcie

theorem State.config_msi (on : Bool) (k : Fin 6) (s : State) : (s.config (.msiEnable on k)).pcie = { s.pcie with msi := if on then some k.val else none } := by
  have small : min 5 k.val = k.val := by omega
  exact congrArg (fun x => { s.pcie with msi := if on then some x else none }) small

/-! ### PERST_n (R248, R249) -/

theorem State.perstPin_high_of_high {s : State} (h : s.pcie.perst = false) : s.perstPin false = s := by
  unfold State.perstPin
  rw [h]
  rfl

theorem State.perstPin_low (s : State) : s.perstPin true = { (s.pcieReset true) with pcie := { (s.pcieReset true).pcie with perst := true } } := by
  unfold State.perstPin
  rw [if_pos rfl]

theorem State.perstPin_low_cleared (s : State) : PcieCleared s (s.perstPin true) ∧ (s.perstPin true).pcie.up = false ∧ (s.perstPin true).pcie.perst = true := by
  obtain ⟨kept, store, pwr, msix, pba, stack, thr, sleep, bme, d3hot, msixOff, msi, out, owners⟩ := State.pcieReset_cleared true s
  have up : (s.pcieReset true).pcie.up = false := congrArg Pcie.up (State.pcieReset_pcie true s)
  rw [State.perstPin_low]
  generalize s.pcieReset true = v at kept store pwr msix pba stack thr sleep bme d3hot msixOff msi out owners up ⊢
  exact ⟨⟨kept.trans ((Keeps.setPcie v _).mono (by decide)), store, pwr, msix, pba, stack, thr, sleep, bme, d3hot, msixOff, msi, out, owners⟩, up, rfl⟩

/-- Settles O42, command by command. -/
theorem pcieFunction : Obligations.PcieFunction := by
  unfold Obligations.PcieFunction
  intro s
  refine ⟨fun x2 v => ⟨fun off => ?_, fun pin released => ?_⟩, ?_, fun r => ⟨fun down => ?_, fun up retry => ?_, fun up retry mode => ?_, fun up retry mode => ?_⟩, ?_, fun low => ?_, fun high => ?_,
    fun down => ⟨?_, ?_⟩, fun up => ?_, fun up => ?_, fun vddh => ?_⟩
  · exact congrArg Host.Outcome.next (if_pos (by rcases off with h | h <;> simp [h]))
  · have trains : execLinkUp x2 v s = .next ({ s with pcie := { s.pcie with up := true, width2 := x2, speed := speedCode v } } : State).deliver :=
      congrArg Host.Outcome.next (if_neg (by simp [pin, released]))
    have decided := State.deliver_decided { s with pcie := { s.pcie with up := true, width2 := x2, speed := speedCode v } }
    exact ⟨_, trains, ((Keeps.setPcie s _).mono (by decide)).trans (decided.keeps.mono (by decide)), decided.pcie⟩
  · have decided := State.deliver_decided { s with pcie := { s.pcie with up := false, width2 := false, speed := 0 } }
    exact ⟨_, rfl, ((Keeps.setPcie s _).mono (by decide)).trans (decided.keeps.mono (by decide)), decided.pcie⟩
  · exact congrArg Host.Outcome.next (State.configRequest_of_down r down)
  · exact congrArg Host.Outcome.next (State.configRequest_of_retried r up retry)
  · refine ⟨_, congrArg Host.Outcome.next (State.configRequest_of_asleep r up retry mode), ?_, State.wakeIf_held .., (State.wakeIf_keeps _ _ _).2 .pcie (by decide)⟩
    have waits : Keeps [.pcie, .pwr] s { s.configFound with pwr := { s.pwr with held := s.pwr.held ++ [Instr.configRequest r] } } :=
      ((Keeps.setPcie s _).mono (by decide)).trans ((Keeps.setPwr s.configFound _).mono (by decide))
    exact waits.trans ((State.wakeIf_keeps _ _ _).mono (by decide))
  · refine ⟨s.configFound.config r, congrArg Host.Outcome.next (State.configRequest_of_run r up retry mode),
      ((Keeps.setPcie s _).mono (by decide)).trans (State.config_keeps r s.configFound), fun id => ?_, State.config_master s.configFound, fun on => ⟨?_, ?_, ?_, ?_⟩, fun k eq => ?_, fun k eq => ?_, ?_, ?_, ?_⟩
    · subst id
      exact ⟨State.modMaster_master_same .., State.modMaster_onlyMaster .pcie (fun x => { x with rdata := 0x61281BAE }) s.configFound, rfl⟩
    · rintro rfl
      rfl
    · rintro rfl
      exact State.config_d3hot on s.configFound
    · rintro rfl
      rfl
    · rintro rfl
      rfl
    · subst eq
      exact State.config_msi false k s.configFound
    · subst eq
      exact State.config_msi true k s.configFound
    · rintro k rfl
      rfl
    · rintro k rfl
      rfl
    · rintro e rfl
      rfl
  · exact ⟨s.perstPin true, rfl, State.perstPin_low_cleared s⟩
  · exact congrArg Host.Outcome.next (if_pos low)
  · exact congrArg Host.Outcome.next (State.perstPin_high_of_high high)
  · exact congrArg Host.Outcome.next (if_neg (by simp [down]))
  · exact congrArg Host.Outcome.next (if_neg (by simp [down]))
  · refine ⟨s.pcieReset true, congrArg Host.Outcome.next (if_pos up), State.pcieReset_cleared true s, ?_, ?_⟩ <;> rw [State.pcieReset_pcie] <;> rfl
  · refine ⟨s.pcieReset false, congrArg Host.Outcome.next (if_pos up), State.pcieReset_cleared false s, ?_, ?_, ?_, ?_⟩ <;> rw [State.pcieReset_pcie]
    · exact up
    all_goals rfl
  · refine ⟨s.pcieReset true, rfl, State.pcieReset_cleared true s, ?_, ?_⟩ <;> rw [State.pcieReset_pcie] <;> rfl

end Sys2Proof.Machine
end

section
/-!
PROOF of the obligation on the sources of interrupts (O40).
-/
namespace Sys2Proof.Machine

/-! ### Offers -/

/-- Every target is offered the eligible pending source of highest level, then lowest number (R231, R232). -/
def Offers (t : State) : Prop := ∀ u : Tgt,
  (t.eic.tgt[u].offered = none → ∀ j : Src, t.eic.pend.getLsbD j.val = true → eligible j u t = false) ∧
  (∀ k : Nat, t.eic.tgt[u].offered = some k → ∃ j : Src, j.val = k ∧ t.eic.pend.getLsbD j.val = true ∧ eligible j u t = true ∧
    ∀ x : Src, t.eic.pend.getLsbD x.val = true → eligible x u t = true → fld t.eic.src[x] 0 4 < fld t.eic.src[j] 0 4 ∨ (fld t.eic.src[x] 0 4 = fld t.eic.src[j] 0 4 ∧ j.val ≤ x.val))

theorem State.deliver_offers (s : State) : Offers s.deliver := fun u => by
  obtain ⟨o, offered, idle, best⟩ := State.deliver_best s u
  rw [offered]
  refine ⟨fun none_ => idle (Option.map_eq_none_iff.mp none_), fun k some_ => ?_⟩
  obtain ⟨j, eq, num⟩ := Option.map_eq_some_iff.mp some_
  obtain ⟨pends, on, first⟩ := best j eq
  exact ⟨j, num, pends, on, first⟩

/-! ### Pending bits (R229, R230) -/

theorem getLsbD_srcBit (i j : Src) : (srcBit i).getLsbD j.val = decide (j = i) := by
  unfold srcBit
  rw [BitVec.getLsbD_ofNat, decide_eq_true j.isLt, Bool.true_and, Nat.testBit_two_pow, Bool.eq_iff_iff, decide_eq_true_eq, decide_eq_true_eq, Fin.ext_iff, eq_comm]

/-- An edge of source i sets its bit; where that stood the edge is counted with its group. -/
theorem State.srcEdge_of_clear {i : Src} {s : State} (h : s.eic.pend.getLsbD i.val = false) : (s.srcEdge i).eic.grp = s.eic.grp := by
  unfold State.srcEdge
  dsimp only
  rw [h]
  rfl

theorem State.modGrp_grp_same (g : Grp) (f : Group → Group) (s : State) : (s.modGrp g f).eic.grp[g] = f s.eic.grp[g] := by
  simp [State.modGrp]

theorem State.modGrp_grp_other {g h : Grp} (f : Group → Group) (s : State) (apart : h ≠ g) : (s.modGrp g f).eic.grp[h] = s.eic.grp[h] := by
  have num : g.val ≠ h.val := fun e => apart (Fin.ext e.symm)
  simp [State.modGrp, num]

theorem State.srcEdge_of_set {i : Src} {s : State} (h : s.eic.pend.getLsbD i.val = true) :
    (s.srcEdge i).eic.grp[grpOf i] = { s.eic.grp[grpOf i] with coalesce := s.eic.grp[grpOf i].coalesce.bump s.tick 1 255 } := by
  unfold State.srcEdge
  dsimp only
  rw [h, State.when_true, State.modGrp_grp_same]
  rfl

theorem State.srcEdge_pend (i : Src) (s : State) : (s.srcEdge i).eic.pend = s.eic.pend ||| srcBit i ∧ (s.srcEdge i).eic.src = s.eic.src ∧ (s.srcEdge i).eic.prev = s.eic.prev := by
  unfold State.srcEdge
  dsimp only
  cases s.eic.pend.getLsbD i.val <;> exact ⟨rfl, rfl, rfl⟩

/-- Edges of the sources of l set their bits. -/
theorem forAll_srcEdge (l : List Src) (s : State) :
    Keeps [.eic] s (forAll l State.srcEdge s) ∧ (forAll l State.srcEdge s).eic.src = s.eic.src ∧
      ∀ j : Src, (forAll l State.srcEdge s).eic.pend.getLsbD j.val = (s.eic.pend.getLsbD j.val || decide (j ∈ l)) := by
  unfold forAll
  induction l generalizing s with
  | nil => exact ⟨.refl _ s, rfl, fun j => by simp⟩
  | cons i l ih =>
    obtain ⟨kept, src, pend⟩ := ih (s.srcEdge i)
    obtain ⟨pend1, src1, -⟩ := State.srcEdge_pend i s
    rw [List.foldl_cons]
    refine ⟨(State.srcEdge_keeps i s).trans kept, src.trans src1, fun j => ?_⟩
    rw [pend, pend1, BitVec.getLsbD_or, getLsbD_srcBit, Bool.or_assoc]
    simp [List.mem_cons]

theorem mem_srcsOf (g : Grp) (w : W) (j : Src) : j ∈ srcsOf g w ↔ grpOf j = g ∧ bit w (j.val % 32) = true := by
  unfold srcsOf
  rw [List.mem_filterMap]
  constructor
  · rintro ⟨i, -, eq⟩
    split at eq
    · next on =>
      obtain rfl := Option.some.inj eq
      have num : (32 * g.val + i.val) % 32 = i.val := by omega
      exact ⟨Fin.ext (by simp only [grpOf]; omega), by dsimp only; rw [num]; exact on⟩
    · cases eq
  · rintro ⟨rfl, on⟩
    refine ⟨⟨j.val % 32, by omega⟩, List.mem_finRange _, ?_⟩
    rw [if_pos on]
    exact congrArg some (Fin.ext (by simp only [grpOf]; omega))

/-- The bits of PENDg that a word names. -/
theorem getLsbD_grpBits (g : Grp) (w : W) (j : Src) : (((w.setWidth 1024) <<< (32 * g.val) : BitVec 1024)).getLsbD j.val = (grpOf j == g && bit w (j.val % 32)) := by
  rw [BitVec.getLsbD_shiftLeft, BitVec.getLsbD_setWidth, decide_eq_true j.isLt, Bool.true_and]
  by_cases e : grpOf j = g
  · subst e
    have lo : ¬ j.val < 32 * (grpOf j).val := by simp only [grpOf]; omega
    have num : j.val - 32 * (grpOf j).val = j.val % 32 := by simp only [grpOf]; omega
    rw [decide_eq_false lo, num, decide_eq_true (by omega : j.val % 32 < 1024), beq_self_eq_true]
    rfl
  · have apart : j.val / 32 ≠ g.val := fun h => e (Fin.ext h)
    rw [beq_eq_false_iff_ne.mpr e, Bool.false_and]
    by_cases lo : j.val < 32 * g.val
    · simp [lo]
    · have high : 32 ≤ j.val - 32 * g.val := by omega
      rw [BitVec.getLsbD_of_ge _ _ high]
      simp

/-! ### A refused access of a Watch core (R284) -/

theorem State.restartBegin_of_busy {s : State} (cause : BitVec 4) (core : BitVec 3) (h : s.fw.restarting = true ∨ s.fw.keeperUp = false) : s.restartBegin cause core = s := by
  unfold State.restartBegin
  exact if_pos (by rcases h with h | h <;> simp [h])

/-- The state of a Watch restart, before it is told. -/
def State.restarted (cause : BitVec 4) (core : BitVec 3) (s : State) : State :=
  { s with
    fw := { s.fw with
      restarting := true, state := 2, cause := cause, slow := false, core := core, rstLt := s.time.lt
      beat := 0, viols := [], digestOk := false, delay := nextDelay s.fw s.time.lt, delayed := nextDelay s.fw s.time.lt != 0 }
    mbx := releaseWatchLocks s.mbx
    eic := { s.eic with tgt := resetWatchTgts s.eic.tgt }
    sur := { s.sur with running := false, edgeLt := 0 } }

theorem State.restartBegin_of_idle {s : State} (cause : BitVec 4) (core : BitVec 3) (idle : s.fw.restarting = false) (up : s.fw.keeperUp = true) :
    s.restartBegin cause core = ((s.restarted cause core).hsum 3).notice 7 [] := by
  unfold State.restartBegin
  exact if_neg (by simp [idle, up])

theorem State.hsum_get (i j : Nat) (s : State) : (s.hsum i).health.sum.get j = (s.health.sum.get j || (flag i true).getLsbD j) := Sticky.get_raise ..

theorem State.restartBegin_sum {i : Nat} {s : State} (cause : BitVec 4) (core : BitVec 3) (h : s.health.sum.get i = true) :
    (s.restartBegin cause core).health.sum.get i = true ∧ (s.restartBegin cause core).eic.grp = s.eic.grp := by
  by_cases busy : s.fw.restarting = true ∨ s.fw.keeperUp = false
  · rw [State.restartBegin_of_busy cause core busy]
    exact ⟨h, rfl⟩
  · obtain ⟨idle, up⟩ := not_or.mp busy
    rw [State.restartBegin_of_idle cause core (by simpa using idle) (by simpa using up)]
    have told := State.notice_keeps 7 [] ((s.restarted cause core).hsum 3)
    have same : (((s.restarted cause core).hsum 3).notice 7 []).eic = ((s.restarted cause core).hsum 3).eic := told.2 .eic (by decide)
    refine ⟨?_, by rw [same]; rfl⟩
    rw [show (((s.restarted cause core).hsum 3).notice 7 []).health = ((s.restarted cause core).hsum 3).health from told.2 .health (by decide), State.hsum_get]
    exact Bool.or_eq_true_iff.mpr (.inl h)

theorem State.watchViol_recorded (core : Fin 4) (store : Bool) (addr : Nat) (s : State) :
    (s.watchViol core store addr).health.sum.get 14 = true ∧ (s.watchViol core store addr).eic.grp = s.eic.grp := by
  have told : (s.hsum 14).health.sum.get 14 = true := by
    rw [State.hsum_get]
    simp [flag]
  unfold State.watchViol
  extract_lets l s0 v0 h0 s1
  have recorded : s1.health.sum.get 14 = true := told
  have grp : s1.eic.grp = s.eic.grp := rfl
  clear_value s1
  cases decide (16 < l.length) && s1.fw.ready
  · exact ⟨recorded, grp⟩
  · obtain ⟨sum, same⟩ := State.restartBegin_sum 4 (BitVec.ofNat 3 (core.val + 1)) recorded
    exact ⟨sum, same.trans grp⟩

/-! ### The commands -/

/-- The state in which a line's level has been taken. -/
def State.lineTaken (i : Src) (s : State) : State :=
  { s with eic := { s.eic with prev := if line s i then s.eic.prev ||| srcBit i else s.eic.prev &&& ~~~srcBit i } }

theorem State.lineEdge_eq (i : Src) (s : State) : s.lineEdge i = ((s.lineTaken i).when (line s i && !s.eic.prev.getLsbD i.val) (State.srcEdge i)).deliver := rfl

theorem State.lineTaken_prev (i j : Src) (s : State) : (s.lineTaken i).eic.prev.getLsbD j.val = if j = i then line s i else s.eic.prev.getLsbD j.val := by
  unfold State.lineTaken
  dsimp only
  split <;> rename_i on
  · rw [BitVec.getLsbD_or, getLsbD_srcBit, on]
    split <;> simp [*]
  · rw [BitVec.getLsbD_and, BitVec.getLsbD_not, getLsbD_srcBit, Bool.eq_false_iff.mpr on]
    split <;> simp [*]

/-- What a look at a line does to the pending bits and the groups. -/
theorem State.lineTaken_edge (i : Src) (s : State) :
    Keeps [.eic] s ((s.lineTaken i).when (line s i && !s.eic.prev.getLsbD i.val) (State.srcEdge i)) ∧
    (∀ j : Src, ((s.lineTaken i).when (line s i && !s.eic.prev.getLsbD i.val) (State.srcEdge i)).eic.pend.getLsbD j.val =
      (s.eic.pend.getLsbD j.val || (decide (j = i) && (line s i && !s.eic.prev.getLsbD i.val)))) ∧
    ((s.lineTaken i).when (line s i && !s.eic.prev.getLsbD i.val) (State.srcEdge i)).eic.src = s.eic.src ∧
    ((s.lineTaken i).when (line s i && !s.eic.prev.getLsbD i.val) (State.srcEdge i)).eic.prev = (s.lineTaken i).eic.prev := by
  cases line s i && !s.eic.prev.getLsbD i.val
  · exact ⟨Keeps.setEic s _, fun j => by simp [State.lineTaken], rfl, rfl⟩
  · obtain ⟨pend, src, prev⟩ := State.srcEdge_pend i (s.lineTaken i)
    refine ⟨(Keeps.setEic s _).trans (State.srcEdge_keeps i _), fun j => ?_, src, prev⟩
    rw [State.when_true, pend, BitVec.getLsbD_or, getLsbD_srcBit, Bool.and_true]
    rfl

theorem State.writePset_of_locked {m : Master} {g : Grp} {w : W} {s : State} (h : lockedFor m g s = true) : s.writePset m g w = s.eicCfgErr := if_pos h
theorem State.writePset_of_open {m : Master} {g : Grp} {w : W} {s : State} (h : lockedFor m g s = false) : s.writePset m g w = (forAll (srcsOf g w) State.srcEdge s).deliver :=
  if_neg (by simp [h])

/-- The pending bits after a clearing write. -/
def Eic.cleared (t : Nat) (g : Grp) (w : W) (e : Eic) : BitVec 1024 :=
  e.pend &&& ~~~(((w.setWidth 1024) <<< (32 * g.val)) &&& ~~~(if e.stamp = t then e.fresh ||| e.again else 0))

theorem State.clearPend_of_locked {m : Master} {g : Grp} {w : W} {s : State} (h : lockedFor m g s = true) : s.clearPend m g w = s.eicCfgErr := if_pos h
theorem State.clearPend_of_open {m : Master} {g : Grp} {w : W} {s : State} (h : lockedFor m g s = false) :
    s.clearPend m g w = ({ s with eic := { s.eic with pend := s.eic.cleared s.tick g w } } : State).deliver := if_neg (by simp [h])

theorem Eic.getLsbD_cleared (t : Nat) (g : Grp) (w : W) (e : Eic) (j : Src) : (e.cleared t g w).getLsbD j.val =
    (e.pend.getLsbD j.val && (!(grpOf j == g && bit w (j.val % 32)) || (decide (e.stamp = t) && (e.fresh.getLsbD j.val || e.again.getLsbD j.val)))) := by
  have kept : (if e.stamp = t then e.fresh ||| e.again else 0 : BitVec 1024).getLsbD j.val = (decide (e.stamp = t) && (e.fresh.getLsbD j.val || e.again.getLsbD j.val)) := by
    split <;> simp [*]
  unfold Eic.cleared
  rw [BitVec.getLsbD_and, BitVec.getLsbD_not, BitVec.getLsbD_and, BitVec.getLsbD_not, getLsbD_grpBits, kept, decide_eq_true j.isLt]
  simp [Bool.not_and]

/-- A source's configuration after a write. -/
def srcWritten (m : Master) (locked : Bool) (w old : W) : W :=
  if locked then ins (if m == .keeper then w &&& 0x1F7F0F else ins (w &&& 0x1F7F0F) 8 1 old) 0 4 old
  else if m == .keeper then w &&& 0x1F7F0F else ins (w &&& 0x1F7F0F) 8 1 old

theorem State.writeSrc_decides (m : Master) (i : Src) (w : W) (s : State) : ∃ r : State, s.writeSrc m i w = r.deliver ∧
    r.eic = { s.eic with src := s.eic.src.set i.val (srcWritten m (lockedFor m (grpOf i) s) w s.eic.src[i]) } := by
  refine ⟨{ s with eic := { s.eic with src := s.eic.src.set i.val (srcWritten m (lockedFor m (grpOf i) s) w s.eic.src[i]) } }, ?_, rfl⟩
  unfold State.writeSrc
  rfl

/-- The bits a write of a source's configuration takes. -/
theorem getLsbD_srcWritten (m : Master) (locked : Bool) (w old : W) {i : Nat} (hi : i < 32) : (srcWritten m locked w old).getLsbD i =
    if i < 4 ∧ locked = true then old.getLsbD i else if i = 8 ∧ m ≠ .keeper then old.getLsbD i else w.getLsbD i && (0x1F7F0F#32).getLsbD i := by
  have keeper : (m == .keeper) = true ↔ m = .keeper := beq_iff_eq
  cases locked
  · by_cases k : m = .keeper
    · simp [srcWritten, k, BitVec.getLsbD_and]
    · have other : (m == .keeper) = false := Bool.eq_false_iff.mpr fun h => k (keeper.mp h)
      have eight : (8 ≤ i ∧ i < 8 + 1) ↔ i = 8 := by omega
      simp [srcWritten, k, other, getLsbD_ins _ _ _ _ hi, eight, BitVec.getLsbD_and]
  · by_cases k : m = .keeper
    · simp [srcWritten, k, getLsbD_ins _ _ _ _ hi, BitVec.getLsbD_and]
    · have other : (m == .keeper) = false := Bool.eq_false_iff.mpr fun h => k (keeper.mp h)
      have eight : (8 ≤ i ∧ i < 8 + 1) ↔ i = 8 := by omega
      simp [srcWritten, k, other, getLsbD_ins _ _ _ _ hi, eight, BitVec.getLsbD_and]

/-- A field that every master writes. -/
theorem fld_srcWritten_open (m : Master) (locked : Bool) (w old : W) {lo n : Nat} (above : 9 ≤ lo) (inside : ∀ i < n, i + lo < 32 ∧ (0x1F7F0F#32).getLsbD (i + lo) = true) :
    fld (srcWritten m locked w old) lo n = fld w lo n := fld_congr fun i hi => by
  obtain ⟨word, taken⟩ := inside i hi
  rw [getLsbD_srcWritten m locked w old word, if_neg (by omega), if_neg (by omega), taken, Bool.and_true]

/-- Bit 0 of TMASK is the Keeper's (R239). -/
theorem fld_srcWritten_keeper (m : Master) (locked : Bool) (w old : W) : fld (srcWritten m locked w old) 8 1 = if m = .keeper then fld w 8 1 else fld old 8 1 := by
  split
  · next k =>
    refine fld_congr fun i hi => ?_
    obtain rfl : i = 0 := by omega
    rw [getLsbD_srcWritten m locked w old (by omega), if_neg (by omega), if_neg fun h => h.2 k]
    exact Bool.and_true _
  · next k =>
    refine fld_congr fun i hi => ?_
    obtain rfl : i = 0 := by omega
    rw [getLsbD_srcWritten m locked w old (by omega), if_neg (by omega), if_pos ⟨rfl, k⟩]

/-- The level stands in a locked group (R245). -/
theorem fld_srcWritten_level (m : Master) (locked : Bool) (w old : W) : fld (srcWritten m locked w old) 0 4 = if locked = true then fld old 0 4 else fld w 0 4 := by
  have low : ∀ i : Fin 4, (0x1F7F0F#32).getLsbD i.val = true := by decide
  split
  · next on =>
    refine fld_congr fun i hi => ?_
    rw [getLsbD_srcWritten m locked w old (by omega), if_pos ⟨hi, on⟩]
  · next off =>
    refine fld_congr fun i hi => ?_
    rw [getLsbD_srcWritten m locked w old (by omega), if_neg fun h => off h.2, if_neg (by omega), Nat.add_zero, low ⟨i, hi⟩, Bool.and_true]

theorem lockedFor_iff (m : Master) (g : Grp) (s : State) : lockedFor m g s = true ↔ (bit s.eic.grp[g].cfg 1 = true ∧ m ≠ .keeper) := by
  simp [lockedFor]

theorem found_lockedFor (m : Master) (g : Grp) (s : State) : lockedFor m g (found m s) = lockedFor m g s := by
  unfold lockedFor
  rw [found_eic]

/-- A group that the Keeper locks. -/
def Group.locked (x : Group) : Group := { x with cfg := x.cfg ||| 2 }

theorem State.groupLock_of_other {m : Master} {g : Grp} (s : State) (none_ : m.watch = none) (k : m ≠ .keeper) : s.groupLock m g = s := by
  unfold State.groupLock
  rw [if_neg (by simpa using k), none_]

theorem State.groupLock_of_watch {m : Master} {c : Fin 4} (g : Grp) (s : State) (core : m.watch = some c) : s.groupLock m g = s.watchViol c false (0x20100 + 4 * g.val) := by
  have k : m ≠ .keeper := fun e => by
    subst e
    cases core
  unfold State.groupLock
  rw [if_neg (by simpa using k), core]

theorem found_of_watch {m : Master} {c : Fin 4} (s : State) (core : m.watch = some c) : found m s = s := by
  cases m with
  | pcie => cases core
  | _ => rfl

/-- Settles O40, command by command; after each the delivery decision has been made (`State.deliver_offers`). -/
theorem interruptSources : Obligations.InterruptSources := by
  unfold Obligations.InterruptSources
  intro i g m w s
  refine ⟨?_, fun port => ?_, fun port => ?_, fun port => ?_, fun port => ⟨fun k => ?_, fun none_ k => ?_, fun c core => ?_⟩, fun held => ?_, fun ended => ?_⟩
  · obtain ⟨kept, pend, src, prev⟩ := State.lineTaken_edge i s
    have taken := State.lineTaken_prev i
    have grp : line s i = true → s.eic.prev.getLsbD i.val = false → s.eic.pend.getLsbD i.val = true →
        ((s.lineTaken i).when (line s i && !s.eic.prev.getLsbD i.val) (State.srcEdge i)).eic.grp[grpOf i] = { s.eic.grp[grpOf i] with coalesce := s.eic.grp[grpOf i].coalesce.bump s.tick 1 255 } := fun l p on => by
      rw [l, p]
      exact State.srcEdge_of_set on
    have still : line s i = false ∨ s.eic.prev.getLsbD i.val = true ∨ s.eic.pend.getLsbD i.val = false →
        ((s.lineTaken i).when (line s i && !s.eic.prev.getLsbD i.val) (State.srcEdge i)).eic.grp = s.eic.grp := fun h => by
      cases e : line s i && !s.eic.prev.getLsbD i.val
      · rfl
      · obtain ⟨l, p⟩ := Bool.and_eq_true_iff.mp e
        have clear : s.eic.pend.getLsbD i.val = false := h.elim (fun x => absurd l (by simp [x])) (fun h => h.elim (fun x => absurd p (by simp [x])) id)
        exact State.srcEdge_of_clear clear
    refine ⟨s.lineEdge i, rfl, ?_⟩
    rw [State.lineEdge_eq]
    generalize (s.lineTaken i).when (line s i && !s.eic.prev.getLsbD i.val) (State.srcEdge i) = r at kept pend src prev grp still
    have decided := State.deliver_decided r
    refine ⟨kept.trans decided.keeps, State.deliver_offers r, ?_, fun j apart => ⟨?_, ?_⟩, ?_, decided.src.trans src, fun l p on => ?_, fun h => decided.grp.trans (still h)⟩
    · rw [decided.prev, prev, taken, if_pos rfl]
    · rw [decided.prev, prev, taken, if_neg apart]
    · rw [decided.pend, pend, decide_eq_false apart, Bool.false_and, Bool.or_false]
    · rw [decided.pend, pend, decide_eq_true rfl, Bool.true_and]
    · rw [decided.grp]
      exact grp l p on
  · have run : exec (.eicPsetWrite m g w) s = .next ((found m s).writePset m g w) := exec_served rfl port
    refine ⟨_, run, ?_, fun l => ?_, fun l => ?_⟩
    · exact State.writePset_keeps ..
    · rw [State.writePset_of_locked ((found_lockedFor m g s).trans ((lockedFor_iff m g s).mpr l)), State.eicCfgErr, found_eic, found_tick]
    · have open_ : lockedFor m g (found m s) = false := (found_lockedFor m g s).trans (Bool.eq_false_iff.mpr fun on => l ((lockedFor_iff m g s).mp on))
      obtain ⟨-, src, pend⟩ := forAll_srcEdge (srcsOf g w) (found m s)
      rw [State.writePset_of_open open_]
      generalize forAll (srcsOf g w) State.srcEdge (found m s) = r at src pend
      have decided := State.deliver_decided r
      refine ⟨State.deliver_offers r, by rw [decided.src, src, found_eic], fun j => ?_⟩
      rw [decided.pend, pend, found_eic]
      simp only [mem_srcsOf, Bool.decide_and, Bool.decide_eq_true]
      rfl
  · have run : exec (.eicPendClear m g w) s = .next ((found m s).clearPend m g w) := exec_served rfl port
    refine ⟨_, run, ?_, fun l => ?_, fun l => ?_⟩
    · exact State.clearPend_keeps ..
    · rw [State.clearPend_of_locked ((found_lockedFor m g s).trans ((lockedFor_iff m g s).mpr l)), State.eicCfgErr, found_eic, found_tick]
    · have open_ : lockedFor m g (found m s) = false := (found_lockedFor m g s).trans (Bool.eq_false_iff.mpr fun on => l ((lockedFor_iff m g s).mp on))
      rw [State.clearPend_of_open open_]
      have decided := State.deliver_decided { found m s with eic := { (found m s).eic with pend := (found m s).eic.cleared (found m s).tick g w } }
      refine ⟨State.deliver_offers _, by rw [decided.src, found_eic], by rw [decided.grp, found_eic], fun j => ?_⟩
      rw [decided.pend, found_eic, found_tick]
      exact Eic.getLsbD_cleared ..
  · obtain ⟨r, written, eic⟩ := State.writeSrc_decides m i w (found m s)
    have decided := State.deliver_decided r
    rw [← written] at decided
    have src : ((found m s).writeSrc m i w).eic.src = s.eic.src.set i.val (srcWritten m (lockedFor m (grpOf i) s) w s.eic.src[i]) := by
      rw [decided.src, eic, found_lockedFor, found_eic]
    have at_ : ((found m s).writeSrc m i w).eic.src[i] = srcWritten m (lockedFor m (grpOf i) s) w s.eic.src[i] := by
      rw [src]
      exact Vector.getElem_set_self ..
    refine ⟨(found m s).writeSrc m i w, exec_served rfl port, State.writeSrc_keeps .., ?_, ?_, ?_, fun j apart => ?_, ?_, ?_, ?_, ?_⟩
    · rw [written]
      exact State.deliver_offers r
    · rw [decided.pend, eic, found_eic]
    · rw [decided.grp, eic, found_eic]
    · have num : i.val ≠ j.val := fun e => apart (Fin.ext e.symm)
      rw [src]
      exact Vector.getElem_set_ne _ _ num
    · rw [at_]
      exact fld_srcWritten_open _ _ _ _ (by omega) (by decide)
    · rw [at_]
      exact fld_srcWritten_open _ _ _ _ (by omega) (by decide)
    · rw [at_]
      exact fld_srcWritten_keeper ..
    · rw [at_, fld_srcWritten_level]
      exact if_congr (lockedFor_iff m (grpOf i) s) rfl rfl
  · subst k
    exact ⟨s.modGrp g Group.locked, exec_served rfl port, State.modGrp_keeps .., rfl, State.modGrp_grp_same .., fun h apart => State.modGrp_grp_other _ s apart⟩
  · exact (exec_served (f := State.groupLock m g) rfl port).trans (congrArg Host.Outcome.next (State.groupLock_of_other _ none_ k))
  · have denied := State.groupLock_of_watch g (found m s) core
    obtain ⟨alert, grp⟩ := State.watchViol_recorded c false (0x20100 + 4 * g.val) (found m s)
    have same : found m s = s := found_of_watch s core
    refine ⟨_, exec_served (f := State.groupLock m g) rfl port, ?_, ?_, ?_⟩
    · rw [denied, grp, found_eic]
    · rw [denied, alert]
    · rw [same]
      exact State.groupLock_keeps m g s
  · exact congrArg Host.Outcome.next (if_pos held)
  · have decided := State.deliver_decided (s.modGrp g (fun x => { x with hold := none }))
    refine ⟨_, congrArg Host.Outcome.next (if_neg (by simp [ended])), (State.modGrp_keeps ..).trans decided.keeps, State.deliver_offers _, ?_, decided.pend, decided.src, fun h apart => ?_⟩
    · rw [decided.grp]
      exact State.modGrp_grp_same ..
    · rw [decided.grp]
      exact State.modGrp_grp_other _ s apart

end Sys2Proof.Machine
end

section
/-!
PROOF of the obligation on claims, ends of interrupts and MSI-X vectors (O41).
-/
namespace Sys2Proof.Machine

/-! ### The delivery decision does not look at what was answered with Unsupported Request -/

theorem forAll_comm {α : Type} {f : α → State → State} {g : State → State} (h : ∀ a s, f a (g s) = g (f a s)) (l : List α) (s : State) : forAll l f (g s) = g (forAll l f s) := by
  unfold forAll
  induction l generalizing s with
  | nil => rfl
  | cons a l ih => rw [List.foldl_cons, List.foldl_cons, h, ih]

/-- The state in which a request of the PCI Express host is answered. -/
def State.supported (s : State) : State := { s with pcie := { s.pcie with unsupported := false } }

theorem offerTo_supported (u : Tgt) (gone : List Src) (s : State) : offerTo u gone s.supported = offerTo u gone s := rfl

theorem State.wakeReq_supported (u : Tgt) (s : State) : s.supported.wakeReq u = (s.wakeReq u).supported := by
  have want : (pendList s.supported.eic).any (fun i => wakes i u s.supported) = (pendList s.eic).any (fun i => wakes i u s) := rfl
  unfold State.wakeReq
  dsimp only
  rw [want, apply_ite State.supported]
  rfl

theorem State.message_supported (v : Nat) (s : State) : s.supported.message v = (s.message v).supported := by
  unfold State.message
  dsimp only
  rw [apply_ite State.supported, apply_ite State.supported]
  have legacy : (match s.supported.pcie.msi with
      | some k => { s.supported with eic := { s.supported.eic with sent := v % 32 % 2 ^ k :: s.supported.eic.sent } }
      | none => s.supported) = State.supported (match s.pcie.msi with
      | some k => { s with eic := { s.eic with sent := v % 32 % 2 ^ k :: s.eic.sent } }
      | none => s) := by
    have msi : s.supported.pcie.msi = s.pcie.msi := rfl
    rw [msi]
    cases s.pcie.msi <;> rfl
  exact ite_congr rfl (fun _ => rfl) (fun _ => legacy)

theorem State.wakesAsked_supported (s : State) : s.supported.wakesAsked = s.wakesAsked.supported := by
  have choose : choices s.supported = choices s := rfl
  unfold State.wakesAsked
  rw [choose]
  exact forAll_comm State.wakeReq_supported allTgts { s with eic := { s.eic with choice := choices s } }

/-- The offers o to the targets. -/
def State.offered (o : Tgt → Option Nat) (s : State) : State := forAll allTgts (fun t => State.modTgt t (fun x => { x with offered := o t })) s

theorem State.offered_supported (o : Tgt → Option Nat) (s : State) : s.supported.offered o = (s.offered o).supported :=
  forAll_comm (g := State.supported) (fun t u => (rfl : u.supported.modTgt t _ = (u.modTgt t _).supported)) allTgts s

theorem State.offers_supported (s : State) : s.supported.offers = s.offers.supported := by
  have offers : (fun t => (offerTo t [] s.supported).map (fun i => i.val)) = fun t => (offerTo t [] s).map (fun i => i.val) :=
    funext fun t => congrArg (Option.map _) (offerTo_supported t [] s)
  show s.supported.offered (fun t => (offerTo t [] s.supported).map (fun i => i.val)) = (s.offered (fun t => (offerTo t [] s).map (fun i => i.val))).supported
  rw [offers]
  exact State.offered_supported _ s

theorem State.tellsHost_supported (before : Option Nat) (offer : Option Src) (s : State) : s.supported.tellsHost before offer = (s.tellsHost before offer).supported := by
  cases offer with
  | none => rfl
  | some i =>
    unfold State.tellsHost
    dsimp only
    rw [apply_ite State.supported]
    exact ite_congr rfl (fun _ => rfl) (fun _ => State.message_supported _ s)

theorem State.deliver_supported (s : State) : s.supported.deliver = s.deliver.supported := by
  have before : s.supported.eic.tgt[(5 : Tgt)].offered = s.eic.tgt[(5 : Tgt)].offered := rfl
  rw [State.deliver_eq, State.deliver_eq, before, State.wakesAsked_supported, offerTo_supported, State.offers_supported, State.tellsHost_supported]

/-- The offers of the decision that an access of a master meets. -/
theorem offerTo_found (m : Master) (u : Tgt) (s : State) : offerTo u [] (found m s).deliver = offerTo u [] s.deliver := by
  cases m
  case pcie =>
    rw [show found .pcie s = s.supported from rfl, State.deliver_supported, offerTo_supported]
  all_goals rfl

/-! ### Claims (R233, R234, R238) -/

theorem execClaim_of_reached {m : Master} (u : Tgt) {s : State} (h : reaches m s = true) : execClaim [(m, u)] s = .next ((found m s).claim [(m, u)]) := by
  have port : served m (.claim [(m, u)]) s = true := by
    unfold served
    rw [h]
    cases m <;> rfl
  have made : [(m, u)].filter (fun r => reaches r.1 s) = [(m, u)] := List.filter_eq_self.mpr fun r mem => by rw [List.mem_singleton.mp mem]; exact h
  have one : forAll [(m, u)] (fun r => State.access r.1 (.claim [r]) id) s = found m s := access_served port
  unfold execClaim
  dsimp only
  rw [made, one]

theorem State.claim_single (m : Master) (u : Tgt) (s : State) : s.claim [(m, u)] = (claimAll s.deliver [(m, u)] [] s.deliver).deliver := rfl

theorem claimAll_of_other {m : Master} {u : Tgt} (s : State) (h : owns m u = false) : claimAll s [(m, u)] [] s = (s.ret m claimNone).ownErr m u := by
  unfold claimAll
  rw [h]
  rfl

theorem claimAll_of_offer {m : Master} {u : Tgt} {i : Src} {s : State} (h : owns m u = true) (offer : offerTo u [] s = some i) : claimAll s [(m, u)] [] s = s.claimed m u i := by
  unfold claimAll
  rw [h, offer]
  rfl

/-- A target that a claim finds without an offer. -/
def Target.spurred (t : Nat) (x : Target) : Target := { x with spur := x.spur.bump t 1 255 }

/-- The state after a claim without an offer. -/
def State.spurious (m : Master) (u : Tgt) (s : State) : State := (s.ret m claimNone).modTgt u (Target.spurred s.tick)

theorem claimAll_of_none {m : Master} {u : Tgt} {s : State} (h : owns m u = true) (offer : offerTo u [] s = none) : claimAll s [(m, u)] [] s = s.spurious m u := by
  unfold claimAll
  rw [h, offer]
  rfl

theorem State.spurious_spec (m : Master) (u : Tgt) (s : State) :
    Keeps [.eic, .master] s (s.spurious m u) ∧ (s.spurious m u).eic.tgt[u] = s.eic.tgt[u].spurred s.tick ∧ (s.spurious m u).eic.pend = s.eic.pend ∧
      (s.spurious m u).master[m.idx] = { s.master[m.idx] with rdata := 0x8000 } := by
  have reads : (s.spurious m u).master = (s.ret m claimNone).master := rfl
  refine ⟨((State.ret_keeps m claimNone s).mono (by decide)).trans ((State.modTgt_keeps u _ _).mono (by decide)), State.modTgt_tgt_same u _ _, rfl, ?_⟩
  rw [reads, State.ret, State.modMaster_master_same]
  rfl

/-- The pending bits after a claim of source i: an edge of this tick that found its bit set keeps it set (R229). -/
def Eic.claimedPend (t : Nat) (i : Src) (e : Eic) : BitVec 1024 :=
  if decide (e.stamp = t) && e.again.getLsbD i.val then e.pend else e.pend &&& ~~~srcBit i

theorem State.claimed_master (m : Master) (u : Tgt) (i : Src) (s : State) :
    (s.claimed m u i).master[m.idx] = { s.master[m.idx] with rdata := BitVec.ofNat 32 i.val } ∧ OnlyMaster m s (s.claimed m u i) := by
  unfold State.claimed
  extract_lets e keep s1 s2 h s3
  have same : s3.master = s.master := by
    have k1 : s1.master = s.master := by
      dsimp only [s1]
      cases keep <;> rfl
    have k3 : s3.master = s2.master := by
      dsimp only [s3]
      cases h != 0 <;> rfl
    exact k3.trans k1
  clear_value s3
  refine ⟨?_, fun k apart => ?_⟩
  · rw [State.ret, State.modMaster_master_same, same]
  · rw [State.ret]
    exact (State.modMaster_onlyMaster m _ s3 k apart).trans (congrArg (fun v : Vector MasterSt 8 => v[k]) same)

theorem State.claimed_eic (m : Master) (u : Tgt) (i : Src) (s : State) :
    (s.claimed m u i).eic = { s.eic with pend := s.eic.claimedPend s.tick i, tgt := (s.claimed m u i).eic.tgt, grp := (s.claimed m u i).eic.grp } ∧
    (s.claimed m u i).eic.tgt[u].stack = fld s.eic.src[i] 0 4 :: s.eic.tgt[u].stack ∧
    (∀ v : Tgt, v ≠ u → (s.claimed m u i).eic.tgt[v] = s.eic.tgt[v]) ∧
    (fld s.eic.grp[grpOf i].cfg 16 16 ≠ 0 → (s.claimed m u i).eic.grp[grpOf i].hold = some (s.tick + fld s.eic.grp[grpOf i].cfg 16 16 * 512)) := by
  unfold State.claimed
  extract_lets e keep s1 s2 h s3
  have e1 : s1.eic = { s.eic with pend := s.eic.claimedPend s.tick i } := by
    dsimp only [s1, Eic.claimedPend, keep, e]
    cases decide (s.eic.stamp = s.tick) && s.eic.again.getLsbD i.val <;> rfl
  have t1 : s1.tick = s.tick := by
    dsimp only [s1]
    cases keep <;> rfl
  clear_value s1
  have e2 : s2.eic = { s1.eic with tgt := s2.eic.tgt } := rfl
  have own : s2.eic.tgt[u] = { s1.eic.tgt[u] with stack := fld s.eic.src[i] 0 4 :: s1.eic.tgt[u].stack } := State.modTgt_tgt_same ..
  have other : ∀ v : Tgt, v ≠ u → s2.eic.tgt[v] = s1.eic.tgt[v] := fun v apart => State.modTgt_tgt_other _ s1 apart
  have t2 : s2.tick = s1.tick := rfl
  clear_value s2
  have e3 : s3.eic = { s2.eic with grp := s3.eic.grp } := by
    dsimp only [s3]
    cases h != 0 <;> rfl
  have hold : h ≠ 0 → s3.eic.grp[grpOf i].hold = some (s2.tick + h * 512) := fun on => by
    have runs : (h != 0) = true := bne_iff_ne.mpr on
    dsimp only [s3]
    rw [runs, State.when_true, State.modGrp_grp_same]
  clear_value s3
  have out : (s3.ret m (BitVec.ofNat 32 i.val)).eic = s3.eic := rfl
  rw [out]
  refine ⟨?_, ?_, fun v apart => ?_, fun on => ?_⟩
  · rw [e3, e2, e1]
  · rw [e3]
    dsimp only
    rw [own, e1]
  · rw [e3]
    dsimp only
    rw [other v apart, e1]
  · rw [hold on, t2, t1]

theorem State.ownErr_of_debug (u : Tgt) (s : State) : s.ownErr .debug u = s := rfl

theorem State.ownErr_of_other {m : Master} (u : Tgt) (s : State) (h : m ≠ .debug) :
    s.ownErr m u = s.modTgt u (fun x => { x with flags := x.flags.raise s.tick 0x10 }) := by
  have on : (m != .debug) = true := bne_iff_ne.mpr h
  unfold State.ownErr
  rw [on, State.when_true]
  rfl

/-- What a claim, or an end of interrupt, of a target that the master does not own leaves. -/
theorem State.ownErr_left (m : Master) (u : Tgt) (s : State) :
    (s.ownErr m u).eic.pend = s.eic.pend ∧ (∀ v : Tgt, (s.ownErr m u).eic.tgt[v].stack = s.eic.tgt[v].stack) ∧ (m ≠ .debug → (s.ownErr m u).eic.tgt[u].flags.get 4 = true) := by
  by_cases h : m = .debug
  · subst h
    exact ⟨rfl, fun _ => rfl, fun k => absurd rfl k⟩
  · rw [State.ownErr_of_other u s h]
    refine ⟨rfl, fun v => ?_, fun _ => ?_⟩
    · by_cases e : v = u
      · subst e
        rw [State.modTgt_tgt_same]
      · rw [State.modTgt_tgt_other _ s e]
    · rw [State.modTgt_tgt_same, Sticky.get_raise]
      exact Bool.or_eq_true_iff.mpr (.inr (by decide))

/-! ### Ends of interrupts (R235) -/

theorem State.eoi_of_other {m : Master} {u : Tgt} (s : State) (h : owns m u = false) : s.eoi m u = s.ownErr m u := by
  unfold State.eoi
  rw [h]
  rfl

theorem State.eoi_of_empty {m : Master} {u : Tgt} {s : State} (h : owns m u = true) (empty : s.eic.tgt[u].stack = []) :
    s.eoi m u = s.modTgt u (fun x => { x with flags := x.flags.raise s.tick 8 }) := by
  unfold State.eoi
  rw [h, empty]
  rfl

theorem State.eoi_of_cons {m : Master} {u : Tgt} {s : State} {l : Nat} {r : List Nat} (h : owns m u = true) (stack : s.eic.tgt[u].stack = l :: r) :
    s.eoi m u = (s.modTgt u (fun x => { x with stack := r })).deliver := by
  unfold State.eoi
  rw [if_neg (by simp [h]), stack]

/-- An end of interrupt leaves the pending bits and the stacks of the other targets. -/
theorem State.eoi_left (m : Master) (u : Tgt) (s : State) : (s.eoi m u).eic.pend = s.eic.pend ∧ ∀ v : Tgt, v ≠ u → (s.eoi m u).eic.tgt[v].stack = s.eic.tgt[v].stack := by
  cases h : owns m u
  · rw [State.eoi_of_other s h]
    obtain ⟨pend, stack, -⟩ := State.ownErr_left m u s
    exact ⟨pend, fun v _ => stack v⟩
  · cases stack : s.eic.tgt[u].stack with
    | nil =>
      rw [State.eoi_of_empty h stack]
      exact ⟨rfl, fun v apart => by rw [State.modTgt_tgt_other _ s apart]⟩
    | cons l r =>
      have decided := State.deliver_decided (s.modTgt u (fun x => { x with stack := r }))
      rw [State.eoi_of_cons h stack]
      exact ⟨decided.pend, fun v apart => by rw [decided.stack, State.modTgt_tgt_other _ s apart]⟩

/-! ### Messages (R241) -/

/-- The state in which a vector is unmasked and its pending bit is clear. -/
def State.unmasked (v : Fin 32) (s : State) : State :=
  { s with eic := { s.eic with
      msix := s.eic.msix.set v.val { s.eic.msix[v] with ctrl := s.eic.msix[v].ctrl &&& ~~~1#32 }, pba := s.eic.pba &&& ~~~(flag v.val true) } }

/-- The host is still offered a source of vector v. -/
def stillOffered (v : Nat) (s : State) : Bool :=
  match s.eic.tgt[(5 : Tgt)].offered with
  | some i => if h : i < 1024 then srcVec s.eic.src[(⟨i, h⟩ : Src)] == v else false
  | none => false

theorem State.msixUnmask_eq (v : Fin 32) (s : State) :
    s.msixUnmask v = (s.unmasked v).when (bit s.eic.pba v.val && stillOffered v.val s && s.pcie.msix) (State.message v.val) := rfl

theorem State.message_unmasked {v : Fin 32} {s : State} (on : s.pcie.msix = true) :
    (s.unmasked v).message v.val = { s.unmasked v with eic := { (s.unmasked v).eic with sent := v.val :: s.eic.sent } } := by
  have index : (⟨v.val % 32, Nat.mod_lt _ (by decide)⟩ : Fin 32) = v := Fin.ext (Nat.mod_eq_of_lt v.isLt)
  have open_ : bit (s.unmasked v).eic.msix[v].ctrl 0 = false := by
    have at_ : (s.unmasked v).eic.msix[v] = { s.eic.msix[v] with ctrl := s.eic.msix[v].ctrl &&& ~~~1#32 } := Vector.getElem_set_self ..
    rw [at_, bit, BitVec.getLsbD_and, BitVec.getLsbD_not]
    simp
  unfold State.message
  dsimp only
  rw [if_pos (show (s.unmasked v).pcie.msix = true from on)]
  simp only [index]
  rw [if_neg (by rw [open_]; exact Bool.false_ne_true), Nat.mod_eq_of_lt v.isLt]
  rfl

/-- What unmasking a vector does, whether or not a message goes. -/
theorem State.msixUnmask_kept (v : Fin 32) (s : State) :
    (s.msixUnmask v).eic.msix = (s.unmasked v).eic.msix ∧ (s.msixUnmask v).eic.pba = s.eic.pba &&& ~~~(flag v.val true) ∧
      (s.msixUnmask v).eic.sent = if bit s.eic.pba v.val && stillOffered v.val s && s.pcie.msix then v.val :: s.eic.sent else s.eic.sent := by
  rw [State.msixUnmask_eq]
  cases c : bit s.eic.pba v.val && stillOffered v.val s && s.pcie.msix
  · exact ⟨rfl, rfl, rfl⟩
  · rw [State.when_true, State.message_unmasked (Bool.and_eq_true_iff.mp c).2]
    exact ⟨rfl, rfl, rfl⟩

theorem getLsbD_flag (v x : Fin 32) : (flag v.val true).getLsbD x.val = decide (x.val = v.val) := by
  rw [flag, if_pos rfl, BitVec.getLsbD_ofNat, decide_eq_true x.isLt, Bool.true_and, Nat.testBit_two_pow, Bool.eq_iff_iff, decide_eq_true_eq, decide_eq_true_eq, eq_comm]

/-- Settles O41, command by command. -/
theorem interruptClaims : Obligations.InterruptClaims := by
  unfold Obligations.InterruptClaims
  intro m u s
  have owner : ∀ h : m.idx.val = u.val, owns m u = true := fun h => beq_iff_eq.mpr h
  have other : ∀ h : m.idx.val ≠ u.val, owns m u = false := fun h => beq_eq_false_iff_ne.mpr h
  refine ⟨fun port => ?_, fun port => ⟨(found m s).eoi m u, exec_served rfl port, State.eoi_keeps .., ?_, fun l r own stack => ?_, fun own empty => ?_, fun apart => ?_, fun v apart => ?_⟩, fun v => ?_⟩
  · have first := State.deliver_decided (found m s)
    have offers := offerTo_found m u s
    have run := (execClaim_of_reached u port).trans (congrArg Host.Outcome.next (State.claim_single m u (found m s)))
    generalize (found m s).deliver = s1 at first offers run
    have eic1 : s1.eic.src = s.eic.src ∧ s1.eic.pend = s.eic.pend ∧ s1.eic.grp = s.eic.grp ∧ s1.eic.stamp = s.eic.stamp := by
      rw [first.src, first.pend, first.grp, first.stamp, found_eic]
      exact ⟨rfl, rfl, rfl, rfl⟩
    obtain ⟨src1, pend1, grp1, stamp1⟩ := eic1
    have stack1 : ∀ v : Tgt, s1.eic.tgt[v].stack = s.eic.tgt[v].stack := fun v => by rw [first.stack, found_eic]
    have spur1 : s1.eic.tgt[u].spur = s.eic.tgt[u].spur := by rw [first.spur, found_eic]
    have master1 : s1.master = s.master := (first.keeps.2 .master (by decide)).trans (found_master m s)
    have tick1 : s1.tick = s.tick := (first.keeps.tick (by decide)).trans (found_tick m s)
    refine ⟨fun own i offer => ?_, fun own none_ => ?_, fun apart => ?_⟩
    · rw [claimAll_of_offer (owner own) (offers.trans offer)] at run
      obtain ⟨reads, only⟩ := State.claimed_master m u i s1
      obtain ⟨eic, stack, others, hold⟩ := State.claimed_eic m u i s1
      have kept := State.claimed_keeps m u i s1
      generalize s1.claimed m u i = c at reads only eic stack others hold kept run
      have last := State.deliver_decided c
      have master2 : c.deliver.master = c.master := last.keeps.2 .master (by decide)
      have pend : c.deliver.eic.pend = s1.eic.claimedPend s1.tick i := by rw [last.pend, eic]
      refine ⟨c.deliver, run, (first.keeps.mono (by decide)).trans ((kept.mono (by decide)).trans (last.keeps.mono (by decide))), fun k apart => ?_, ?_, ?_, ?_, fun j apart => ?_, fun late => ?_,
        fun runs => ?_, fun v apart => ?_⟩
      · rw [master2, only k apart, master1]
      · rw [master2, reads, master1]
      · rw [last.stack, stack, src1, stack1]
      · rw [last.src, eic, src1]
      · rw [pend, Eic.claimedPend, pend1]
        split
        · rfl
        · rw [BitVec.getLsbD_and, BitVec.getLsbD_not, getLsbD_srcBit, decide_eq_false apart]
          simp
      · rw [pend, Eic.claimedPend, stamp1, tick1, decide_eq_false late, Bool.false_and, if_neg Bool.false_ne_true, BitVec.getLsbD_and, BitVec.getLsbD_not, getLsbD_srcBit, decide_eq_true rfl]
        simp
      · rw [last.grp]
        rw [grp1, tick1] at hold
        exact hold runs
      · rw [last.stack, others v apart, stack1]
    · rw [claimAll_of_none (owner own) (offers.trans none_)] at run
      obtain ⟨kept, tgt, pend, reads⟩ := State.spurious_spec m u s1
      generalize s1.spurious m u = c at tgt reads pend kept run
      have last := State.deliver_decided c
      have master2 : c.deliver.master = c.master := last.keeps.2 .master (by decide)
      refine ⟨c.deliver, run, (first.keeps.mono (by decide)).trans (kept.trans (last.keeps.mono (by decide))), ?_, ?_, ?_, ?_⟩
      · rw [master2, reads, master1]
      · rw [last.spur, tgt, Target.spurred, spur1, tick1]
      · rw [last.stack, tgt, Target.spurred, stack1]
      · rw [last.pend, pend, pend1]
    · rw [claimAll_of_other s1 (other apart)] at run
      obtain ⟨pend, stack, flags⟩ := State.ownErr_left m u (s1.ret m claimNone)
      have reads : ((s1.ret m claimNone).ownErr m u).master[m.idx] = { s1.master[m.idx] with rdata := 0x8000 } := by
        rw [show ((s1.ret m claimNone).ownErr m u).master = (s1.ret m claimNone).master from (State.ownErr_keeps ..).2 .master (by decide)]
        exact State.modMaster_master_same ..
      have kept : Keeps [.eic, .master] s1 ((s1.ret m claimNone).ownErr m u) :=
        ((State.ret_keeps m claimNone s1).mono (by decide)).trans ((State.ownErr_keeps ..).mono (by decide))
      generalize (s1.ret m claimNone).ownErr m u = c at pend stack flags reads kept run
      have last := State.deliver_decided c
      have master2 : c.deliver.master = c.master := last.keeps.2 .master (by decide)
      refine ⟨c.deliver, run, (first.keeps.mono (by decide)).trans (kept.trans (last.keeps.mono (by decide))), ?_, ?_, ?_, fun host => ?_⟩
      · rw [master2, reads, master1]
      · exact (last.stack u).trans ((stack u).trans (stack1 u))
      · exact last.pend.trans (pend.trans pend1)
      · exact (last.tgt u).2 4 (flags host)
  · exact (State.eoi_left m u (found m s)).1.trans (by rw [found_eic])
  · have decided := State.deliver_decided ((found m s).modTgt u (fun x => { x with stack := r }))
    rw [State.eoi_of_cons (owner own) (by rw [found_eic]; exact stack), decided.stack, State.modTgt_tgt_same]
  · rw [State.eoi_of_empty (owner own) (by rw [found_eic]; exact empty), State.modTgt_tgt_same, found_eic, found_tick]
  · rw [State.eoi_of_other _ (other apart)]
    refine ⟨((State.ownErr_left m u (found m s)).2.1 u).trans (by rw [found_eic]), fun host => ?_⟩
    rw [State.ownErr_of_other u _ host, State.modTgt_tgt_same, found_eic, found_tick]
  · exact ((State.eoi_left m u (found m s)).2 v apart).trans (by rw [found_eic])
  · obtain ⟨msix, pba, sent⟩ := State.msixUnmask_kept v s
    refine ⟨s.msixUnmask v, rfl, State.msixUnmask_keeps .., ?_, ?_, fun x apart => ⟨?_, ?_⟩, fun i waits offered vec on => ?_, fun idle => ?_⟩
    · rw [msix]
      exact Vector.getElem_set_self ..
    · rw [pba, bit, BitVec.getLsbD_and, BitVec.getLsbD_not, getLsbD_flag, decide_eq_true rfl]
      simp
    · have num : v.val ≠ x.val := fun e => apart (Fin.ext e.symm)
      rw [msix]
      exact Vector.getElem_set_ne v.isLt x.isLt num
    · have num : x.val ≠ v.val := fun e => apart (Fin.ext e)
      rw [pba, bit, BitVec.getLsbD_and, BitVec.getLsbD_not, getLsbD_flag, decide_eq_false num, decide_eq_true x.isLt]
      simp [bit]
    · have still : stillOffered v.val s = true := by
        unfold stillOffered
        rw [offered]
        dsimp only
        rw [dif_pos i.isLt]
        exact beq_iff_eq.mpr vec
      rw [sent, waits, still, on]
      rfl
    · rw [sent, idle]
      rfl

end Sys2Proof.Machine
end

section
/-!
PROOF of the obligation on shadow periods, takeovers and spare pins (O51).
-/
namespace Sys2Proof.Machine

/-! ### Notices, steps and the health of a pod -/

theorem State.notice_onlyMbx (i : Fin 8) (data : List Byte) (s : State) : OnlyMbx (noticeMbx i) s (s.notice i data) := fun m apart => by
  have told : (s.notice i data).mbx = (s.noticeCode i (s.freeBelow 65536) data).mbx := rfl
  rw [told, State.noticeCode]
  exact State.modMbx_mbx_other s (noticeMbx i) m _ apart

/-- Of the pods only p, and of the health only what it holds of p. -/
structure OnlyHealth (p : Pod) (s t : State) : Prop where
  pods : ∀ q : Pod, q ≠ p → t.health.pod[q] = s.health.pod[q] ∧ t.pod[q] = s.pod[q]
  sum : t.health.sum = s.health.sum

theorem OnlyHealth.refl (p : Pod) (s : State) : OnlyHealth p s s := ⟨fun _ _ => ⟨rfl, rfl⟩, rfl⟩

theorem OnlyHealth.trans {p : Pod} {s t u : State} (h : OnlyHealth p s t) (k : OnlyHealth p t u) : OnlyHealth p s u where
  pods q apart := ⟨((k.pods q apart).1).trans (h.pods q apart).1, ((k.pods q apart).2).trans (h.pods q apart).2⟩
  sum := k.sum.trans h.sum

theorem OnlyHealth.of_keeps {p : Pod} {l : List Part} {s t : State} (h : Keeps l s t) (pod : Part.pod ∉ l) (health : Part.health ∉ l) : OnlyHealth p s t := by
  have sameP : t.pod = s.pod := h.2 .pod pod
  have sameH : t.health = s.health := h.2 .health health
  exact ⟨fun q _ => by rw [sameP, sameH]; exact ⟨rfl, rfl⟩, by rw [sameH]⟩

theorem State.modHealth_onlyHealth (p : Pod) (f : PodHealth → PodHealth) (s : State) : OnlyHealth p s (s.modHealth p f) :=
  ⟨fun _ apart => ⟨State.modHealth_health_other apart f s, rfl⟩, rfl⟩

theorem State.askSubst_onlyHealth (p : Pod) (k : SubstKind) (s : State) : OnlyHealth p s (s.askSubst p k) :=
  ⟨fun q apart => ⟨rfl, State.modPod_pod_other s p q _ apart⟩, rfl⟩

theorem State.askSubst_pod (p : Pod) (k : SubstKind) (s : State) : (s.askSubst p k).pod[p] = { s.pod[p] with substReq := some k } := State.modPod_pod_same ..

theorem State.modHealth_congr {p : Pod} {f g : PodHealth → PodHealth} {s : State} (h : f s.health.pod[p] = g s.health.pod[p]) : s.modHealth p f = s.modHealth p g := by
  unfold State.modHealth
  rw [h]

/-! ### The next shadow period (R292, R297) -/

theorem PodHealth.goOn_only (h : PodHealth) : h.goOn = { h with testing := h.goOn.testing } := by
  unfold PodHealth.goOn
  split <;> rfl

/-- A pod whose buoy is free goes on. -/
theorem PodHealth.goOn_testing {h : PodHealth} (en : h.shadowEn = true) (buoy : h.buoy ≠ 31) (spacing : h.spacing = false) (idle : h.shadowing = false) (suspect : h.suspect = none)
    (takeover : h.takeover = none) : h.goOn.testing = true := by
  have has : h.degraded = false := beq_eq_false_iff_ne.mpr buoy
  unfold PodHealth.goOn
  rw [en, has, spacing, idle, suspect, takeover]
  cases busy : h.testing
  · rfl
  · exact busy

theorem State.shadowOn_onlyHealth (p : Pod) (s : State) : OnlyHealth p s (s.shadowOn p) := by
  unfold State.shadowOn
  split
  · exact State.modHealth_onlyHealth ..
  · exact .refl p s

theorem State.shadowOn_health (p : Pod) (s : State) : (s.shadowOn p).health.pod[p] = { s.health.pod[p] with testing := (s.shadowOn p).health.pod[p].testing } := by
  unfold State.shadowOn
  split
  · rw [State.modHealth_health_same]
    exact PodHealth.goOn_only _
  · rfl

/-- The pod goes on where its buoy is free and no step waits. -/
def GoesOn (p : Pod) (h : PodHealth) (s t : State) : Prop :=
  h.shadowEn = true → h.buoy ≠ 31 → h.spacing = false → h.suspect = none → s.pod[p].substReq = none → t.health.pod[p].testing = true

theorem State.shadowOn_goesOn {p : Pod} {s : State} (idle : s.health.pod[p].shadowing = false) (takeover : s.health.pod[p].takeover = none) :
    GoesOn p s.health.pod[p] s (s.shadowOn p) := fun en buoy spacing suspect step => by
  unfold State.shadowOn
  rw [step, if_pos Option.isNone_none, State.modHealth_health_same]
  exact PodHealth.goOn_testing en buoy spacing idle suspect takeover

/-! ### Tests of the buoy and of a suspect (R292, R296) -/

theorem PodHealth.tests_iff (h : PodHealth) : (h.testing && h.suspect.isNone) = true ↔ h.testing = true ∧ h.suspect = none := by
  simp

theorem State.buoyTest_of_idle {p : Pod} {pass : Bool} {s : State} (h : s.health.pod[p].testing = false ∨ s.health.pod[p].suspect ≠ none) : s.buoyTest p pass = s := by
  have idle : (s.health.pod[p].testing && s.health.pod[p].suspect.isNone) = false := Bool.eq_false_iff.mpr fun on => by
    obtain ⟨testing, suspect⟩ := (PodHealth.tests_iff _).mp on
    exact h.elim (fun k => Bool.noConfusion (k.symm.trans testing)) (fun k => k suspect)
  unfold State.buoyTest
  dsimp only
  rw [idle]
  rfl

/-- A buoy that fails its self-test. -/
def PodHealth.buoyFails (t : Nat) (h : PodHealth) : PodHealth :=
  { h with testing := false, retired := h.retired ||| BitVec.ofNat 17 (2 ^ h.buoy), buoy := noBuoy, evt := h.evt.raise t (flag 5 true) }

/-- A test that is over. -/
def PodHealth.tested (h : PodHealth) : PodHealth := { h with testing := false }

theorem State.buoyTest_of_testing {p : Pod} {pass : Bool} {s : State} (testing : s.health.pod[p].testing = true) (suspect : s.health.pod[p].suspect = none) :
    s.buoyTest p pass = if pass then (s.modHealth p PodHealth.tested).askSubst p .shadowStart else s.modHealth p (PodHealth.buoyFails s.tick) := by
  have on : (s.health.pod[p].testing && s.health.pod[p].suspect.isNone) = true := (PodHealth.tests_iff _).mpr ⟨testing, suspect⟩
  unfold State.buoyTest
  dsimp only
  rw [on]
  cases pass <;> rfl

/-- A suspect unit u that fails its test. -/
def PodHealth.suspectFails (t u : Nat) (h : PodHealth) : PodHealth :=
  { h with testing := false, suspect := none, retired := h.retired ||| BitVec.ofNat 17 (2 ^ u), evt := h.evt.raise t (flag 4 true) }

theorem State.quarantineDone_of_idle {p : Pod} {pass : Bool} {s : State} (h : s.health.pod[p].suspect = none ∨ s.health.pod[p].testing = false) : s.quarantineDone p pass = s := by
  unfold State.quarantineDone
  dsimp only
  cases e : s.health.pod[p].suspect with
  | none => rfl
  | some u =>
    have idle : s.health.pod[p].testing = false := h.resolve_left (by rw [e]; exact Option.some_ne_none u)
    dsimp only
    rw [idle]
    rfl

theorem State.quarantineDone_of_testing {p : Pod} {pass : Bool} {u : Nat} {s : State} (suspect : s.health.pod[p].suspect = some u) (testing : s.health.pod[p].testing = true) :
    s.quarantineDone p pass = if pass then (s.modHealth p PodHealth.tested).askSubst p .buoyReturn else s.modHealth p (PodHealth.suspectFails s.tick u) := by
  unfold State.quarantineDone
  dsimp only
  rw [suspect]
  dsimp only
  rw [testing]
  cases pass <;> rfl

/-! ### Shadow periods (R292, R294, R297) -/

/-- A shadow period that has run its 1 ms. -/
def PodHealth.periodEnds (t : Nat) (h : PodHealth) : PodHealth := { h with shadowing := false, shadows := h.shadows.bump t 1 255 }

/-- A mismatch that is recorded at LT lt. -/
def PodHealth.mismatched (t lt : Nat) (h : PodHealth) : PodHealth := { h with evt := h.evt.raise t 1, mism := h.mism.bump t 1 255, mismLt := lt }

/-- A takeover named for tick u. -/
def PodHealth.names (t u : Nat) (output forced : Bool) (h : PodHealth) : PodHealth := { h with takeover := some (u, output), evt := h.evt.raiseIf forced t 4 }

/-- The tick that a mismatch names for its takeover. -/
def takeoverTick (t ts : Nat) (forced : Bool) : Nat := if forced then t + 400000 else max (t + 640) (min ts (t + 400000))

/-- A shadow period that ends, as no unit takes over. -/
def PodHealth.stops (h : PodHealth) : PodHealth := { h with shadowing := false }

theorem PodHealth.shadows_iff (h : PodHealth) : (h.shadowing && h.takeover.isNone) = true ↔ h.shadowing = true ∧ h.takeover = none := by
  simp

theorem execShadowPeriodEnd_of_idle {p : Pod} {s : State} (h : s.health.pod[p].shadowing = false ∨ s.health.pod[p].takeover ≠ none) : execShadowPeriodEnd p s = .next s := by
  unfold execShadowPeriodEnd
  refine congrArg Host.Outcome.next (if_neg fun on => ?_)
  obtain ⟨shadowing, takeover⟩ := (PodHealth.shadows_iff _).mp on
  exact h.elim (fun k => Bool.noConfusion (k.symm.trans shadowing)) (fun k => k takeover)

theorem execShadowPeriodEnd_of_shadowing {p : Pod} {s : State} (shadowing : s.health.pod[p].shadowing = true) (takeover : s.health.pod[p].takeover = none) :
    execShadowPeriodEnd p s = .next ((s.modHealth p (PodHealth.periodEnds s.tick)).shadowOn p) :=
  congrArg Host.Outcome.next (if_pos ((PodHealth.shadows_iff _).mpr ⟨shadowing, takeover⟩))

theorem State.shadowMismatch_of_idle {p : Pod} {o f : Bool} {ts : Nat} {s : State} (h : s.health.pod[p].shadowing = false ∨ s.health.pod[p].takeover ≠ none) : s.shadowMismatch p o f ts = s := by
  have idle : (!s.health.pod[p].shadowing || s.health.pod[p].takeover.isSome) = true := by
    rcases h with k | k
    · rw [k]; rfl
    · rw [Option.isSome_iff_ne_none.mpr k, Bool.or_true]
  unfold State.shadowMismatch
  exact if_pos idle

theorem State.shadowMismatch_of_auto {p : Pod} {o f : Bool} {ts : Nat} {s : State} (shadowing : s.health.pod[p].shadowing = true) (takeover : s.health.pod[p].takeover = none)
    (auto : s.health.pod[p].autoSubst = true) : s.shadowMismatch p o f ts =
      ((s.modHealth p (PodHealth.mismatched s.tick s.time.lt)).modHealth p (PodHealth.names s.tick (takeoverTick s.tick ts f) o f)).askSubst p .takeover := by
  unfold State.shadowMismatch
  dsimp only
  rw [shadowing, takeover, auto]
  rfl

theorem State.shadowMismatch_of_told {p : Pod} {o f : Bool} {ts : Nat} {s : State} (shadowing : s.health.pod[p].shadowing = true) (takeover : s.health.pod[p].takeover = none)
    (auto : s.health.pod[p].autoSubst = false) : s.shadowMismatch p o f ts =
      (((s.modHealth p (PodHealth.mismatched s.tick s.time.lt)).notice 1 (leBytes 4 (chOf p s.health.pod[p].shadowCh).val ++ leBytes 8 s.time.lt)).modHealth p PodHealth.stops).shadowOn p := by
  unfold State.shadowMismatch
  dsimp only
  rw [shadowing, takeover, auto]
  rfl

/-- 10 ms after a takeover. -/
def PodHealth.spaced (h : PodHealth) : PodHealth := { h with spacing := false }

/-! ### Spare-pin moves (R299, R300, R385) -/

/-- No channel changes the comparator it senses. -/
def SpareKept (s t : State) : Prop := ∀ k : Ch, t.ch[k].spare = s.ch[k].spare

theorem SpareKept.refl (s : State) : SpareKept s s := fun _ => rfl
theorem SpareKept.trans {s t u : State} (h : SpareKept s t) (k : SpareKept t u) : SpareKept s u := fun n => (k n).trans (h n)

theorem SpareKept.modCh {n : Ch} {f : Channel → Channel} {s : State} (h : (f s.ch[n]).spare = s.ch[n].spare) : SpareKept s (s.modCh n f) := fun k => by
  by_cases e : k = n
  · subst e
    rw [State.modCh_ch_same]
    exact h
  · rw [State.modCh_onlyCh n f s k e]

theorem SpareKept.of_onlyCh {n : Ch} {s t : State} (h : OnlyCh n s t) (k : t.ch[n].spare = s.ch[n].spare) : SpareKept s t := fun m => by
  by_cases e : m = n
  · subst e
    exact k
  · rw [h m e]

theorem Channel.capture_spare (ta x : Nat) (cnt : W) (level coarse : Bool) (lt : Nat) (c : Channel) : (c.capture ta x cnt level coarse lt).spare = c.spare := by
  unfold Channel.capture
  dsimp only
  split
  · rfl
  · split <;> rfl

theorem State.settleCaps_spareKept (lim : Nat) (n : Ch) (s : State) : SpareKept s (s.settleCaps lim n) := by
  unfold State.settleCaps
  have same := (enterAll_same n lim s.ch[n].cap.waiting s).1
  exact SpareKept.of_onlyCh (enterAll_onlyCh n lim _ s) (by rw [same])

theorem SpareKept.feedSource (p : Pod) (sel ta : Nat) (level : Bool) (s : State) : SpareKept s (Sys2Proof.Machine.feedSource p sel ta level s) := fun k => by
  rw [feedSource_same p sel ta level s k]

theorem State.acceptPin_spareKept (n : Ch) (s : State) : SpareKept s (s.acceptPin n) := by
  unfold State.acceptPin
  dsimp only
  split
  · exact .refl s
  · refine SpareKept.trans ?_ (SpareKept.feedSource _ _ _ _ _)
    refine SpareKept.trans (State.settleCaps_spareKept (s.tick - 1) n s) (SpareKept.modCh (s := (s.settleCaps (s.tick - 1) n).used) ?_)
    exact Channel.capture_spare ..

theorem State.countNow_spareKept (n : Ch) (s : State) : SpareKept s (s.countNow n) :=
  SpareKept.of_onlyCh (State.countNow_onlyCh n s) (by rw [State.countNow_ch_same, Channel.count_same])

/-- After a crossing the raw level is the one crossed to, whether or not edges are accepted. -/
theorem State.crossPin_raw (x : Nat) (level : Bool) (n : Ch) (s : State) : (s.crossPin x level n).ch[n].filt.raw = level ∧ SpareKept s (s.crossPin x level n) := by
  unfold State.crossPin
  split
  · exact ⟨by rw [State.modCh_ch_same]; rfl, SpareKept.modCh rfl⟩
  · extract_lets s1
    have before : SpareKept s s1 := by
      dsimp only [s1]
      cases s.ch[n].filter == 0 && s.ch[n].filt.cand.isSome && s.ch[n].filt.raw != level
      · exact State.countNow_spareKept n s
      · exact (State.acceptPin_spareKept n s).trans (State.countNow_spareKept n _)
    clear_value s1
    refine ⟨?_, before.trans (SpareKept.modCh ?_)⟩
    · rw [State.modCh_ch_same]
      unfold InFilt.cross
      dsimp only
      split
      · exact beq_iff_eq.mp ‹_›
      · rfl
    · rw [Channel.takeFilter_same]

/-- A channel that senses another comparator, with a fresh readback from tick tw on. -/
def Channel.sensing (tw : Nat) (spare : Bool) (c : Channel) : Channel :=
  { c with spare := spare, rb := { c.rb with consec := 0, bad := false, since := tw }, fault := c.fault.drop 1 }

theorem State.sense_ch (spare level : Bool) (n : Ch) (s : State) : (s.sense spare level n).ch[n].spare = spare ∧ (s.sense spare level n).ch[n].filt.raw = level := by
  have marked : (s.modCh n (Channel.sensing s.tw spare)).ch[n].spare = spare := by
    rw [State.modCh_ch_same]
    rfl
  have sensed : s.sense spare level n = (s.modCh n (Channel.sensing s.tw spare)).crossPin (s.tw * 32) level n := rfl
  rw [sensed]
  generalize s.modCh n (Channel.sensing s.tw spare) = s1 at marked
  obtain ⟨raw, kept⟩ := State.crossPin_raw (s.tw * 32) level n s1
  exact ⟨(kept n).trans marked, raw⟩

/-- What a move of a channel between its own pin and SPBp leaves in the health of its pod (R299, R300). -/
def PodHealth.moved (t tw : Nat) (on : Option Nat) (told : W) (h : PodHealth) : PodHealth := { h with spareOn := on, lastTs := tw * 32, evt := h.evt.raise t told }

theorem PodHealth.move_iff (h : PodHealth) (k : Nat) (fault up quiet : Bool) :
    (h.named && h.spareCh == k && h.substPin && h.spareOn.isNone && fault && up && quiet) = true ↔
      h.named = true ∧ h.spareCh = k ∧ h.substPin = true ∧ h.spareOn = none ∧ fault = true ∧ up = true ∧ quiet = true := by
  simp [and_assoc]

theorem PodHealth.back_iff (h : PodHealth) (k : Nat) (up quiet : Bool) :
    (h.spareOn == some k && backAsked h && up && quiet) = true ↔
      h.spareOn = some k ∧ (h.substPin = false ∨ h.named = false ∨ h.spareCh ≠ k) ∧ up = true ∧ quiet = true := by
  unfold backAsked
  simp only [Bool.and_eq_true, beq_iff_eq, and_assoc]
  refine and_congr_right fun on => ?_
  have apart : (some k != some h.spareCh) = true ↔ h.spareCh ≠ k := by
    rw [bne_iff_ne]
    exact ⟨fun ne e => ne (congrArg some e.symm), fun ne e => ne (Option.some.inj e).symm⟩
  simp only [on, Option.isSome_some, true_and, Bool.or_eq_true, Bool.not_eq_true', or_assoc, apart]

/-- A move as both directions make it. -/
def State.movedTo (spare level : Bool) (on : Option Nat) (told : W) (n : Ch) (s : State) : State :=
  ((((s.sense spare level n).modHealth (podOf n) (PodHealth.moved (s.sense spare level n).tick (s.sense spare level n).tw on told)).hsum 6).notice 1
    (leBytes 4 n.val ++ leBytes 8 ((s.sense spare level n).tw * 32)))

theorem State.spareMove_eq (n : Ch) (s : State) : s.spareMove n =
    if s.health.pod[podOf n].named && s.health.pod[podOf n].spareCh == n.val % 16 && s.health.pod[podOf n].substPin && s.health.pod[podOf n].spareOn.isNone && s.ch[n].fault.get 1 && s.fw.keeperUp && quietAt n s
    then s.movedTo true s.health.pod[podOf n].spb.raw (some (n.val % 16)) (flag 6 true) n else s := rfl

theorem State.spareBack_eq (n : Ch) (s : State) : s.spareBack n =
    if s.health.pod[podOf n].spareOn == some (n.val % 16) && backAsked s.health.pod[podOf n] && s.fw.keeperUp && quietAt n s
    then s.movedTo false s.ch[n].ownPin none (flag 7 true) n else s := rfl

/-- What is left after a move. -/
structure Moved (spare level : Bool) (on : Option Nat) (n : Ch) (s t : State) : Prop where
  spare : t.ch[n].spare = spare
  raw : t.ch[n].filt.raw = level
  sum : t.health.sum.get 6 = true
  on : t.health.pod[podOf n].spareOn = on
  lastTs : t.health.pod[podOf n].lastTs = (s.tick + 1) * 32

theorem State.movedTo_moved (spare level : Bool) (on : Option Nat) (i : Nat) (n : Ch) (s : State) (lt : i < 32) :
    Moved spare level on n s (s.movedTo spare level on (flag i true) n) ∧ (s.movedTo spare level on (flag i true) n).health.pod[podOf n].evt.get i = true := by
  obtain ⟨spared, raw⟩ := State.sense_ch spare level n s
  have ticks : (s.sense spare level n).tick = s.tick := (State.sense_keeps spare level n s).tick (by decide)
  unfold State.movedTo
  generalize s.sense spare level n = u at spared raw ticks
  have health := (State.notice_keeps 1 (leBytes 4 n.val ++ leBytes 8 (u.tw * 32)) ((u.modHealth (podOf n) (PodHealth.moved u.tick u.tw on (flag i true))).hsum 6)).2 .health (by decide)
  have ch := (State.notice_keeps 1 (leBytes 4 n.val ++ leBytes 8 (u.tw * 32)) ((u.modHealth (podOf n) (PodHealth.moved u.tick u.tw on (flag i true))).hsum 6)).2 .ch (by decide)
  generalize State.notice 1 _ _ = t at health ch
  have pod : t.health.pod[podOf n] = PodHealth.moved u.tick u.tw on (flag i true) u.health.pod[podOf n] := by
    rw [show t.health = _ from health]
    exact State.modHealth_health_same ..
  refine ⟨⟨?_, ?_, ?_, ?_, ?_⟩, ?_⟩
  · rw [show t.ch = _ from ch]; exact spared
  · rw [show t.ch = _ from ch]; exact raw
  · rw [show t.health = _ from health, State.hsum_get]
    exact Bool.or_eq_true_iff.mpr (.inr (by decide))
  · rw [pod]; rfl
  · rw [pod, ← ticks]; rfl
  · rw [pod]
    exact (Sticky.get_raise ..).trans (Bool.or_eq_true_iff.mpr (.inr (by rw [getLsbD_flag ⟨i, lt⟩ ⟨i, lt⟩]; exact decide_eq_true rfl)))

theorem takeoverTick_bounds (t ts : Nat) (forced : Bool) : t + 640 ≤ takeoverTick t ts forced ∧ takeoverTick t ts forced ≤ t + 400000 ∧
    (forced = false → t + 640 ≤ ts → ts ≤ t + 400000 → takeoverTick t ts forced = ts) ∧ (forced = true → takeoverTick t ts forced = t + 400000) := by
  unfold takeoverTick
  cases forced
  · exact ⟨Nat.le_max_left .., by simp only [Bool.false_eq_true, if_false]; omega, fun _ lo hi => by simp only [Bool.false_eq_true, if_false]; omega, (nomatch ·)⟩
  · exact ⟨Nat.add_le_add_left (by decide) t, le_rfl, (nomatch ·), fun _ => rfl⟩

/-- A step that ends what kept the buoy busy: only the pod's health changes, as f and the next period have it. -/
theorem State.modHealth_shadowOn (p : Pod) (f : PodHealth → PodHealth) (s : State) :
    Keeps [.health] s ((s.modHealth p f).shadowOn p) ∧ OnlyHealth p s ((s.modHealth p f).shadowOn p) ∧
    ((s.modHealth p f).shadowOn p).health.pod[p] = { f s.health.pod[p] with testing := ((s.modHealth p f).shadowOn p).health.pod[p].testing } := by
  refine ⟨(State.modHealth_keeps p f s).trans (State.shadowOn_keeps p _), (State.modHealth_onlyHealth p f s).trans (State.shadowOn_onlyHealth p _), ?_⟩
  have same : (s.modHealth p f).health.pod[p] = f s.health.pod[p] := State.modHealth_health_same ..
  rw [← same]
  exact State.shadowOn_health p (s.modHealth p f)

/-! ### The obligation -/

/-- A test that is passed asks for the step k. -/
theorem State.tested_asks (p : Pod) (k : SubstKind) (s : State) :
    Keeps [.pod, .health] s ((s.modHealth p PodHealth.tested).askSubst p k) ∧ OnlyHealth p s ((s.modHealth p PodHealth.tested).askSubst p k) ∧
    ((s.modHealth p PodHealth.tested).askSubst p k).pod[p] = { s.pod[p] with substReq := some k } ∧
    ((s.modHealth p PodHealth.tested).askSubst p k).health.pod[p] = PodHealth.tested s.health.pod[p] :=
  ⟨((State.modHealth_keeps p _ s).mono (by decide)).step (State.askSubst_keeps p k _) (by decide), (State.modHealth_onlyHealth p _ s).trans (State.askSubst_onlyHealth p k _),
    State.askSubst_pod .., State.modHealth_health_same ..⟩

/-- A test that is failed changes the pod's health alone. -/
theorem State.modHealth_fails (p : Pod) (f : PodHealth → PodHealth) (s : State) :
    Keeps [.pod, .health] s (s.modHealth p f) ∧ OnlyHealth p s (s.modHealth p f) ∧ (s.modHealth p f).pod[p] = s.pod[p] ∧ (s.modHealth p f).health.pod[p] = f s.health.pod[p] :=
  ⟨(State.modHealth_keeps p f s).mono (by decide), State.modHealth_onlyHealth p f s, rfl, State.modHealth_health_same ..⟩

/-- A mismatch of a pod with AUTO_SUBST names a takeover (R294). -/
theorem State.mismatch_names (p : Pod) (o f : Bool) (ts : Nat) (s : State) {t : State}
    (made : t = ((s.modHealth p (PodHealth.mismatched s.tick s.time.lt)).modHealth p (PodHealth.names s.tick (takeoverTick s.tick ts f) o f)).askSubst p .takeover) :
    Keeps [.pod, .health] s t ∧ OnlyHealth p s t ∧ t.pod[p] = { s.pod[p] with substReq := some .takeover } ∧
    t.health.pod[p] = { s.health.pod[p] with
      mism := s.health.pod[p].mism.bump s.tick 1 255, mismLt := s.time.lt, takeover := some (takeoverTick s.tick ts f, o)
      evt := if f then (s.health.pod[p].evt.raise s.tick 1).raise s.tick 4 else s.health.pod[p].evt.raise s.tick 1 } := by
  subst made
  refine ⟨(((State.modHealth_keeps p _ s).trans (State.modHealth_keeps p _ _)).mono (by decide)).step (State.askSubst_keeps p .takeover _) (by decide),
    ((State.modHealth_onlyHealth p _ s).trans (State.modHealth_onlyHealth p _ _)).trans (State.askSubst_onlyHealth p .takeover _), State.askSubst_pod .., ?_⟩
  refine (State.modHealth_health_same ..).trans ?_
  rw [State.modHealth_health_same]
  cases f <;> rfl

/-- Without AUTO_SUBST a mismatch is told in mailbox 25, and ends the period (R295). -/
theorem State.mismatch_told (p : Pod) (data : List Byte) (s : State) (takeover : s.health.pod[p].takeover = none) {t : State}
    (made : t = (((s.modHealth p (PodHealth.mismatched s.tick s.time.lt)).notice 1 data).modHealth p PodHealth.stops).shadowOn p) :
    Keeps [.mbx, .health, .free] s t ∧ OnlyMbx 25 s t ∧ OnlyHealth p s t ∧ GoesOn p s.health.pod[p] s t ∧
    t.health.pod[p] = { s.health.pod[p] with
      mism := s.health.pod[p].mism.bump s.tick 1 255, mismLt := s.time.lt, shadowing := false, evt := s.health.pod[p].evt.raise s.tick 1, testing := t.health.pod[p].testing } := by
  subst made
  have told := State.notice_keeps 1 data (s.modHealth p (PodHealth.mismatched s.tick s.time.lt))
  have only := State.notice_onlyMbx 1 data (s.modHealth p (PodHealth.mismatched s.tick s.time.lt))
  generalize (s.modHealth p (PodHealth.mismatched s.tick s.time.lt)).notice 1 data = u at told only
  obtain ⟨keeps, others, health⟩ := State.modHealth_shadowOn p PodHealth.stops u
  have seen : u.health.pod[p] = PodHealth.mismatched s.tick s.time.lt s.health.pod[p] := by
    rw [show u.health = _ from told.2 .health (by decide)]
    exact State.modHealth_health_same ..
  have stopped : (u.modHealth p PodHealth.stops).health.pod[p] = PodHealth.stops (PodHealth.mismatched s.tick s.time.lt s.health.pod[p]) := by
    rw [State.modHealth_health_same, seen]
  have pod : u.pod = s.pod := told.2 .pod (by decide)
  have goes := State.shadowOn_goesOn (p := p) (s := u.modHealth p PodHealth.stops) (by rw [stopped]; rfl) (by rw [stopped]; exact takeover)
  refine ⟨(((State.modHealth_keeps p _ s).mono (by decide)).step told (by decide)).step keeps (by decide), fun m apart => ?_,
    ((State.modHealth_onlyHealth p _ s).trans (OnlyHealth.of_keeps told (by decide) (by decide))).trans others, ?_, ?_⟩
  · rw [show ((u.modHealth p PodHealth.stops).shadowOn p).mbx = u.mbx from keeps.2 .mbx (by decide)]
    exact only m apart
  · rw [stopped] at goes
    intro en buoy spacing suspect step
    exact goes en buoy spacing suspect (by rw [show (u.modHealth p PodHealth.stops).pod = s.pod from pod]; exact step)
  · rw [seen] at health
    exact health

/-- Settles O51: shadow periods, takeovers, the tests of buoy and suspect, and the moves to and from the spare pin. -/
theorem sparesAndShadows : Obligations.SparesAndShadows := by
  unfold Obligations.SparesAndShadows
  intro p n s
  refine ⟨⟨fun pass => ⟨fun h => congrArg Host.Outcome.next (State.buoyTest_of_idle h), fun testing suspect => ⟨_, congrArg Host.Outcome.next (State.buoyTest_of_testing testing suspect), ?_⟩,
    fun h => congrArg Host.Outcome.next (State.quarantineDone_of_idle h), fun u suspect testing => ⟨_, congrArg Host.Outcome.next (State.quarantineDone_of_testing suspect testing), ?_⟩⟩, ?_, ?_, ?_, ?_, ?_⟩,
    ?_, ?_, ?_, ?_⟩
  · cases pass
    · obtain ⟨keeps, only, pod, health⟩ := State.modHealth_fails p (PodHealth.buoyFails s.tick) s
      exact ⟨keeps, ⟨only.pods, only.sum⟩, pod, health⟩
    · obtain ⟨keeps, only, pod, health⟩ := State.tested_asks p .shadowStart s
      exact ⟨keeps, ⟨only.pods, only.sum⟩, pod, health⟩
  · cases pass
    · obtain ⟨keeps, only, pod, health⟩ := State.modHealth_fails p (PodHealth.suspectFails s.tick u) s
      exact ⟨keeps, ⟨only.pods, only.sum⟩, pod, health⟩
    · obtain ⟨keeps, only, pod, health⟩ := State.tested_asks p .buoyReturn s
      exact ⟨keeps, ⟨only.pods, only.sum⟩, pod, health⟩
  · exact fun h => ⟨execShadowPeriodEnd_of_idle h, fun o f ts => congrArg Host.Outcome.next (State.shadowMismatch_of_idle h)⟩
  · intro shadowing takeover
    obtain ⟨keeps, only, health⟩ := State.modHealth_shadowOn p (PodHealth.periodEnds s.tick) s
    have same : (s.modHealth p (PodHealth.periodEnds s.tick)).health.pod[p] = PodHealth.periodEnds s.tick s.health.pod[p] := State.modHealth_health_same ..
    have goes := State.shadowOn_goesOn (p := p) (s := s.modHealth p (PodHealth.periodEnds s.tick)) (by rw [same]; rfl) (by rw [same]; exact takeover)
    rw [same] at goes
    exact ⟨_, execShadowPeriodEnd_of_shadowing shadowing takeover, keeps, ⟨only.pods, only.sum⟩, goes, health⟩
  · intro o f ts shadowing takeover
    refine ⟨fun auto => ⟨_, takeoverTick s.tick ts f, congrArg Host.Outcome.next (State.shadowMismatch_of_auto shadowing takeover auto), ?_⟩,
      fun told => ⟨_, congrArg Host.Outcome.next (State.shadowMismatch_of_told shadowing takeover told), ?_⟩⟩
    · obtain ⟨keeps, only, pod, health⟩ := State.mismatch_names p o f ts s rfl
      exact ⟨keeps, ⟨only.pods, only.sum⟩, pod, health, takeoverTick_bounds ..⟩
    · obtain ⟨keeps, mbx, only, goes, health⟩ := State.mismatch_told p (leBytes 4 (chOf p s.health.pod[p].shadowCh).val ++ leBytes 8 s.time.lt) s takeover rfl
      exact ⟨keeps, mbx, ⟨only.pods, only.sum⟩, goes, health⟩
  · intro h
    refine congrArg Host.Outcome.next (if_neg fun on => ?_)
    obtain ⟨spacing, due⟩ := (Bool.and_eq_true _ _).mp on
    exact h.elim (fun k => Bool.noConfusion (k.symm.trans spacing)) (Nat.not_lt.mpr (of_decide_eq_true due))
  · intro spacing due
    obtain ⟨keeps, only, health⟩ := State.modHealth_shadowOn p PodHealth.spaced s
    exact ⟨_, congrArg Host.Outcome.next (if_pos ((Bool.and_eq_true _ _).mpr ⟨spacing, decide_eq_true due⟩)), keeps, ⟨only.pods, only.sum⟩, health⟩
  · exact fun stays => congrArg Host.Outcome.next ((State.spareMove_eq n s).trans (if_neg fun on => stays ((PodHealth.move_iff ..).mp on)))
  · exact fun stays => congrArg Host.Outcome.next ((State.spareBack_eq n s).trans (if_neg fun on => stays ((PodHealth.back_iff ..).mp on)))
  · intro moves
    obtain ⟨⟨spare, raw, sum, on, lastTs⟩, evt⟩ := State.movedTo_moved true s.health.pod[podOf n].spb.raw (some (n.val % 16)) 6 n s (by decide)
    have move := (State.spareMove_eq n s).trans (if_pos ((PodHealth.move_iff ..).mpr moves))
    exact ⟨_, congrArg Host.Outcome.next move, move ▸ State.spareMove_keeps n s, spare, raw, sum, on, lastTs, evt⟩
  · intro moves
    obtain ⟨⟨spare, raw, sum, on, lastTs⟩, evt⟩ := State.movedTo_moved false s.ch[n].ownPin none 7 n s (by decide)
    have move := (State.spareBack_eq n s).trans (if_pos ((PodHealth.back_iff ..).mpr moves))
    exact ⟨_, congrArg Host.Outcome.next move, move ▸ State.spareBack_keeps n s, spare, raw, sum, on, lastTs, evt⟩

end Sys2Proof.Machine
end

section
/-!
PROOF of the obligation on ring pointers, the capture ring and the backlog (O37).
-/
namespace Sys2Proof.Machine

/-! ### Result rings and the backlog (R182, R183) -/

/-- A write of RES_RD as it changes the pod's records. -/
def Results.wroteRd (tick : Nat) (w : W) (r : Results) : Results :=
  if (w - r.rd).toNat ≤ (r.wr - r.rd).toNat then { r with rd := w } else { r with flags := r.flags.raise tick 0x40000 }

/-- No record leaves the backlog while the ring takes none. -/
theorem drainBacklog_of_closed {p : Pod} {s : State} (closed : (resOpen s.pod[p].res s && !s.pod[p].res.full) = false) (k : Nat) : drainBacklog p k s = s := by
  cases k with
  | zero => rfl
  | succ k =>
    unfold drainBacklog
    dsimp only
    rw [closed]
    cases s.pod[p].res.backlog <;> rfl

theorem resClosed_iff (r : Results) (s : State) : (resOpen r s && !r.full) = false ↔ r.log2 = 0 ∨ (r.inHost && (!s.pcie.bme || s.pcie.d3hot || !s.pcie.up)) = true ∨ 2 ^ r.log2 ≤ (r.wr - r.rd).toNat := by
  unfold resOpen Results.full
  rw [Bool.and_eq_false_iff, Bool.and_eq_false_iff, bne_eq_false_iff_eq, Bool.not_eq_false', Bool.not_eq_false', decide_eq_true_iff, or_assoc]

theorem State.gapRecord_of_none {p : Pod} {s : State} (h : s.pod[p].res.gapNow = 0) : s.gapRecord p = s := by
  unfold State.gapRecord
  dsimp only
  rw [h]
  rfl

/-- A ring that takes none, with no record lost, leaves everything. -/
theorem State.backlogDrain_of_closed {p : Pod} {s : State} (closed : (resOpen s.pod[p].res s && !s.pod[p].res.full) = false) (none : s.pod[p].res.gapNow = 0) : s.backlogDrain p = s := by
  unfold State.backlogDrain
  dsimp only
  rw [drainBacklog_of_closed closed, State.gapRecord_of_none none, drainBacklog_of_closed closed]

/-- The pod's records with its backlog taken out. -/
def PodSt.emptied (rest : List ResRec) (x : PodSt) : PodSt := { x with res := { x.res with backlog := rest } }

/-- The pod's pointers after one record. -/
def PodSt.put (x : PodSt) : PodSt := { x with res := { x.res with wr := x.res.wr + 1, rseq := x.res.rseq + 1 } }

theorem State.ringWrite_of_store {base : BitVec 64} (off : Nat) (bs : List Byte) (s : State) (inStore : base.getLsbD 63 = false) :
    s.ringWrite base off bs = { s with store := s.store.putWord (base.toNat + off) bs } := by
  unfold State.ringWrite
  rw [inStore]
  rfl

/-- An update of the store, contents and all. -/
theorem Keeps.setStoreMem (s : State) (x : Store) : Keeps [.mem, .store] s { s with store := x } :=
  ⟨rfl, fun p apart => by
      cases p
      case mem | store => exact absurd (by decide) apart
      all_goals exact Eq.refl _⟩

/-- The first record of the backlog goes into a ring that takes one. -/
theorem drainBacklog_of_open {p : Pod} {x : ResRec} {rest : List ResRec} {s : State} (k : Nat) (waits : s.pod[p].res.backlog = x :: rest)
    (takes : (resOpen s.pod[p].res s && !s.pod[p].res.full) = true) : drainBacklog p (k + 1) s = drainBacklog p k ((s.modPod p (PodSt.emptied rest)).resPut p x) := by
  rw [drainBacklog]
  dsimp only
  rw [waits]
  exact if_pos takes

/-- Where a record of the ring in the store lies. -/
def Results.place (r : Results) : Nat := r.base.toNat + 16 * (r.wr.toNat % 2 ^ r.log2)

/-- The one record that waits, taken by a ring in the store. -/
def State.tookOne (p : Pod) (x : ResRec) (s : State) : State :=
  ({ (s.modPod p (PodSt.emptied [])) with store := s.store.putWord s.pod[p].res.place (x.bytes s.pod[p].res.rseq) } : State).modPod p PodSt.put

theorem State.tookOne_keeps (p : Pod) (x : ResRec) (s : State) : Keeps [.pod, .mem, .store] s (s.tookOne p x) := by
  have first : Keeps [.pod, .mem, .store] s (s.modPod p (PodSt.emptied [])) := (s.modPod_keeps p _).mono (by decide)
  unfold State.tookOne
  exact (first.step (Keeps.setStoreMem _ _) (by decide)).step (State.modPod_keeps ..) (by decide)

theorem State.tookOne_onlyPod (p : Pod) (x : ResRec) (s : State) : OnlyPod p s (s.tookOne p x) := fun q apart => by
  rw [State.tookOne, State.modPod_pod_other _ p q _ apart]
  exact State.modPod_pod_other s p q (PodSt.emptied []) apart

theorem State.tookOne_pod (p : Pod) (x : ResRec) (s : State) : (s.tookOne p x).pod[p] = PodSt.put (PodSt.emptied [] s.pod[p]) := by
  have same : (s.modPod p (PodSt.emptied [])).pod[p] = PodSt.emptied [] s.pod[p] := State.modPod_pod_same ..
  rw [State.tookOne, State.modPod_pod_same]
  exact congrArg PodSt.put same

/-- One record that waits goes into a ring in the store that has room. -/
theorem State.backlogDrain_one {p : Pod} {s : State} {x : ResRec} (none : s.pod[p].res.gapNow = 0) (one : s.pod[p].res.backlog = [x]) (set : s.pod[p].res.log2 ≠ 0)
    (room : (s.pod[p].res.wr - s.pod[p].res.rd).toNat < 2 ^ s.pod[p].res.log2) (inStore : s.pod[p].res.base.getLsbD 63 = false) :
    s.backlogDrain p = s.tookOne p x := by
  have takes : (resOpen s.pod[p].res s && !s.pod[p].res.full) = true := by
    rw [← Bool.not_eq_false, resClosed_iff, Results.inHost, inStore, Bool.false_and]
    rintro (h | h | h)
    · exact set h
    · exact Bool.noConfusion h
    · omega
  have same : (s.modPod p (PodSt.emptied [])).pod[p] = PodSt.emptied [] s.pod[p] := State.modPod_pod_same ..
  have written : (s.modPod p (PodSt.emptied [])).resPut p x = s.tookOne p x := by
    unfold State.resPut
    dsimp only
    rw [same, State.ringWrite_of_store (base := (PodSt.emptied [] s.pod[p]).res.base) _ _ _ inStore]
    rfl
  have drained : drainBacklog p s.pod[p].res.backlog.length s = (s.modPod p (PodSt.emptied [])).resPut p x := by
    rw [one]
    exact drainBacklog_of_open 0 one takes
  unfold State.backlogDrain
  dsimp only
  rw [drained, written]
  have pod := s.tookOne_pod p x
  generalize s.tookOne p x = t at pod
  have lost : t.pod[p].res.gapNow = 0 := by rw [pod]; exact none
  have empty : t.pod[p].res.backlog.length = 0 := by rw [pod]; rfl
  rw [State.gapRecord_of_none lost, empty]
  rfl

/-- The pod's records with a gap record behind the backlog. -/
def PodSt.gapTold (lt : Nat) (x : PodSt) : PodSt :=
  { x with res := { x.res with gapNow := 0, backlog := x.res.backlog ++ [{ actLt := lt, word := lo32 x.res.gapNow, half := 2 }] } }

/-- Records that were lost are told behind the backlog, with no ring to take them. -/
theorem State.backlogDrain_gap {p : Pod} {s : State} (lost : s.pod[p].res.gapNow ≠ 0) (noRing : s.pod[p].res.log2 = 0) (room : s.pod[p].res.backlog.length + s.pod[p].res.reserved < 4096) :
    s.backlogDrain p = s.modPod p (PodSt.gapTold s.time.lt) := by
  have told : s.gapRecord p = s.modPod p (PodSt.gapTold s.time.lt) := by
    unfold State.gapRecord Results.roomFor
    exact if_pos ((Bool.and_eq_true _ _).mpr ⟨bne_iff_ne.mpr lost, decide_eq_true room⟩)
  unfold State.backlogDrain
  dsimp only
  rw [drainBacklog_of_closed ((resClosed_iff _ _).mpr (.inl noRing)), told]
  refine drainBacklog_of_closed ((resClosed_iff _ _).mpr (.inl ?_)) _
  rw [State.modPod_pod_same]
  exact noRing

/-! ### Feeders (R198) -/

/-- The pod with another feeder for the channel at i. -/
def PodSt.setFeeder (i : Fin 16) (f : Feeder → Feeder) (q : PodSt) : PodSt := { q with feeder := q.feeder.set i.val (f q.feeder[i]) }

/-- The place of a channel in its pod. -/
def chIn (n : Ch) : Fin 16 := ⟨n.val % 16, by omega⟩

theorem State.modFeeder_eq (n : Ch) (f : Feeder → Feeder) (s : State) : s.modFeeder n f = s.modPod (podOf n) (PodSt.setFeeder (chIn n) f) := rfl

theorem feederOf_modFeeder (n : Ch) (f : Feeder → Feeder) (s : State) : feederOf n (s.modFeeder n f) = f (feederOf n s) := by
  rw [State.modFeeder_eq, feederOf, State.modPod_pod_same]
  exact Vector.getElem_set_self ..

theorem feederOf_of_pod {m : Ch} {s t : State} (h : t.pod[podOf m].feeder = s.pod[podOf m].feeder) : feederOf m t = feederOf m s := by
  unfold feederOf
  rw [h]

theorem feederOf_modFeeder_other {n m : Ch} (apart : m ≠ n) (f : Feeder → Feeder) (s : State) : feederOf m (s.modFeeder n f) = feederOf m s := by
  by_cases pod : podOf m = podOf n
  · have off : n.val % 16 ≠ m.val % 16 := fun e => apart (Fin.ext (by
      have := congrArg Fin.val pod
      simp only [podOf] at this
      omega))
    have alike (u : State) : u.pod[podOf m] = u.pod[podOf n] := congrArg (fun p : Pod => u.pod[p]) pod
    rw [State.modFeeder_eq, feederOf, alike, State.modPod_pod_same, feederOf, alike]
    exact Vector.getElem_set_ne (Nat.mod_lt _ (by decide)) (Nat.mod_lt _ (by decide)) off
  · exact feederOf_of_pod (by rw [State.modFeeder_eq, State.modPod_pod_other s _ _ _ pod])

theorem State.modFeeder_pfErr (n : Ch) (f : Feeder → Feeder) (s : State) : (s.modFeeder n f).pod[podOf n].pfErr = s.pod[podOf n].pfErr := by
  rw [State.modFeeder_eq, State.modPod_pod_same]
  rfl

theorem State.pfErr_feederOf (n m : Ch) (s : State) : feederOf m (s.pfErr n) = feederOf m s := by
  by_cases pod : podOf m = podOf n
  · have alike (u : State) : u.pod[podOf m] = u.pod[podOf n] := congrArg (fun p : Pod => u.pod[p]) pod
    exact feederOf_of_pod (by rw [alike, alike, State.pfErr, State.modPod_pod_same])
  · exact feederOf_of_pod (by rw [State.pfErr, State.modPod_pod_other s _ _ _ pod])

theorem State.pfErr_get (n : Ch) (s : State) : (s.pfErr n).pod[podOf n].pfErr.get (n.val % 16) = true := by
  rw [State.pfErr, State.modPod_pod_same, Sticky.get_raise, Bool.or_eq_true_iff]
  have small : n.val % 16 < 32 := (Nat.mod_lt _ (by decide)).trans (by decide)
  exact .inr ((getLsbD_flag ⟨n.val % 16, small⟩ ⟨n.val % 16, small⟩).trans (decide_eq_true rfl))

/-- A feeder pointer that is moved, or refused with PF_ERR. -/
theorem feederWrite (n : Ch) (f : Feeder → Feeder) (ok : Prop) [Decidable ok] (s : State) :
    Keeps [.pod] s (if ok then s.modFeeder n f else s.pfErr n) ∧ OnlyPod (podOf n) s (if ok then s.modFeeder n f else s.pfErr n) ∧
    (ok → feederOf n (if ok then s.modFeeder n f else s.pfErr n) = f (feederOf n s) ∧ (if ok then s.modFeeder n f else s.pfErr n).pod[podOf n].pfErr = s.pod[podOf n].pfErr) ∧
    (¬ ok → feederOf n (if ok then s.modFeeder n f else s.pfErr n) = feederOf n s ∧ (if ok then s.modFeeder n f else s.pfErr n).pod[podOf n].pfErr.get (n.val % 16) = true) ∧
    ∀ m : Ch, m ≠ n → feederOf m (if ok then s.modFeeder n f else s.pfErr n) = feederOf m s := by
  by_cases h : ok
  · rw [if_pos h]
    exact ⟨State.modPod_keeps .., State.modPod_onlyPod (podOf n) (PodSt.setFeeder (chIn n) f) s, fun _ => ⟨feederOf_modFeeder n f s, State.modFeeder_pfErr n f s⟩, fun k => absurd h k,
      fun m apart => feederOf_modFeeder_other apart f s⟩
  · rw [if_neg h]
    exact ⟨State.modPod_keeps .., State.modPod_onlyPod (podOf n) _ s, fun k => absurd k h, fun _ => ⟨State.pfErr_feederOf n n s, State.pfErr_get n s⟩, fun m _ => State.pfErr_feederOf n m s⟩

/-! ### The capture ring (R211, R212) -/

/-- The spilling of channels is settled without the store or any other part. -/
theorem settleSpills_keeps (p : Pod) (s : State) : Keeps [.ch] s (forAll (bankChs p) State.settleSpill s) :=
  Keeps.forAll State.settleSpill State.settleSpill_keeps (bankChs p) (Keeps.refl _ s)

theorem settleSpills_store (p : Pod) (s : State) : (forAll (bankChs p) State.settleSpill s).store = s.store :=
  (settleSpills_keeps p s).store_eq (by decide) (by decide)

theorem fld_eq_of_ins_apart (w v : W) {lo n lo' n' : Nat} (apart : lo' + n' ≤ lo ∨ lo + n ≤ lo') (inside : lo' + n' ≤ 32) : fld (ins w lo n v) lo' n' = fld w lo' n' :=
  fld_congr fun i lt => by
    rw [getLsbD_ins _ _ _ _ (by omega)]
    exact if_neg (by omega)

theorem fld_ins_same (w v : W) {lo n : Nat} (inside : lo + n ≤ 32) : fld (ins w lo n v) lo n = fld v lo n :=
  fld_congr fun i lt => by
    rw [getLsbD_ins _ _ _ _ (by omega)]
    exact if_pos (by omega)

theorem fld_put {lo n v : Nat} (fits : v < 2 ^ n) (inside : lo + n ≤ 32) : fld (put lo v) lo n = v := by
  have bound : v * 2 ^ lo < 2 ^ 32 := by
    calc v * 2 ^ lo < 2 ^ n * 2 ^ lo := Nat.mul_lt_mul_of_pos_right fits (Nat.two_pow_pos lo)
      _ = 2 ^ (lo + n) := by rw [← pow_add, Nat.add_comm]
      _ ≤ 2 ^ 32 := Nat.pow_le_pow_right (by decide) inside
  rw [fld, put, BitVec.toNat_ofNat, Nat.mod_eq_of_lt bound, Nat.mul_div_cancel _ (Nat.two_pow_pos lo), Nat.mod_eq_of_lt fits]

/-- The threshold that a write of STO_CAPp_SIZE leaves. -/
def capThr (w : W) : Nat := if fld w 8 16 = 0 then 1 else fld w 8 16

/-- A ring with a new threshold. -/
def CapRing.withThr (w : W) (r : CapRing) : CapRing := { r with size := ins r.size 8 16 (put 8 (capThr w)) }

/-- A ring with a new threshold and size. -/
def CapRing.sized (w : W) (r : CapRing) : CapRing := { r with size := ins (r.withThr w).size 0 5 w }

theorem capThr_lt (w : W) : capThr w < 2 ^ 16 := by
  unfold capThr
  split
  · decide
  · exact Nat.mod_lt _ (by decide)

theorem CapRing.withThr_fields (w : W) (r : CapRing) : fld (r.withThr w).size 8 16 = capThr w ∧ fld (r.withThr w).size 0 5 = fld r.size 0 5 :=
  ⟨(fld_ins_same _ _ (by decide)).trans (fld_put (capThr_lt w) (by decide)), fld_eq_of_ins_apart _ _ (.inl (by decide)) (by decide)⟩

theorem CapRing.sized_fields (w : W) (r : CapRing) : fld (r.sized w).size 8 16 = capThr w ∧ fld (r.sized w).size 0 5 = fld w 0 5 :=
  ⟨(fld_eq_of_ins_apart _ _ (.inr (by decide)) (by decide)).trans (r.withThr_fields w).1, fld_ins_same _ _ (by decide)⟩

/-- The state with another capture ring for pod p. -/
def State.setRing (p : Pod) (r : CapRing) (s : State) : State := { s with store := { s.store with ring := s.store.ring.set p.val r } }

theorem State.setRing_keeps (p : Pod) (r : CapRing) (s : State) : Keeps [.store] s (s.setRing p r) := Keeps.setStore s _ rfl

theorem State.setRing_ring (p : Pod) (r : CapRing) (s : State) : (s.setRing p r).store.ring[p] = r := Vector.getElem_set_self ..

theorem State.setRing_ring_other {p q : Pod} (apart : q ≠ p) (r : CapRing) (s : State) : (s.setRing p r).store.ring[q] = s.store.ring[q] :=
  Vector.getElem_set_ne p.isLt q.isLt (fun e => apart (Fin.ext e.symm))

/-- The flag raised in the store's error register. -/
def State.storeErr (v : W) (s : State) : State := { s with store := { s.store with errFlags := s.store.errFlags.raise s.tick v } }

theorem State.storeErr_keeps (v : W) (s : State) : Keeps [.store] s (s.storeErr v) := Keeps.setStore s _ rfl

theorem State.writeCapRd_eq (p : Pod) (w : W) (s : State) : s.writeCapRd p w =
    if (w - s.store.ring[p].rd).toNat ≤ (s.store.ring[p].wr - s.store.ring[p].rd).toNat then forAll (bankChs p) State.settleSpill (s.setRing p { s.store.ring[p] with rd := w })
    else s.storeErr 0x40 := rfl

theorem State.writeCapRd_of_ok {p : Pod} {w : W} (s : State) (ok : (w - s.store.ring[p].rd).toNat ≤ (s.store.ring[p].wr - s.store.ring[p].rd).toNat) :
    (s.writeCapRd p w).store = (s.setRing p { s.store.ring[p] with rd := w }).store := by
  rw [(s.writeCapRd_eq p w).trans (if_pos ok)]
  exact settleSpills_store p _

/-- What a write of STO_CAPp_SIZE leaves of the ring and of the error flags. -/
theorem State.writeCapCfg_size (p : Pod) (w : W) (s : State) : s.writeCapCfg p true w =
    if fld w 0 5 = fld s.store.ring[p].size 0 5 then s.setRing p (s.store.ring[p].withThr w)
    else if capIdle p s && decide (8 ≤ fld w 0 5) && decide (fld w 0 5 ≤ 16) && capPlaceOk s.store.ring[p].base.toNat (fld w 0 5) then s.setRing p (s.store.ring[p].sized w)
    else (s.setRing p (s.store.ring[p].withThr w)).storeErr 0x20 := rfl

theorem State.writeCapCfg_base (p : Pod) (w : W) (s : State) : s.writeCapCfg p false w =
    if capIdle p s && capPlaceOk (w &&& 0x3FFFFF0).toNat (fld s.store.ring[p].size 0 5) then s.setRing p { s.store.ring[p] with base := w &&& 0x3FFFFF0 } else s.storeErr 0x20 := rfl

/-- A ring whose size register alone changes. -/
structure SizeWritten (p : Pod) (w : W) (s t : State) : Prop where
  keeps : Keeps [.store] s t
  base : t.store.ring[p].base = s.store.ring[p].base
  wr : t.store.ring[p].wr = s.store.ring[p].wr
  rd : t.store.ring[p].rd = s.store.ring[p].rd
  thr : fld t.store.ring[p].size 8 16 = capThr w

theorem State.setRing_withThr (p : Pod) (w : W) (s : State) : SizeWritten p w s (s.setRing p (s.store.ring[p].withThr w)) := by
  refine ⟨s.setRing_keeps p _, ?_, ?_, ?_, ?_⟩ <;> rw [State.setRing_ring]
  · rfl
  · rfl
  · rfl
  · exact (CapRing.withThr_fields ..).1

theorem State.setRing_sized (p : Pod) (w : W) (s : State) : SizeWritten p w s (s.setRing p (s.store.ring[p].sized w)) := by
  refine ⟨s.setRing_keeps p _, ?_, ?_, ?_, ?_⟩ <;> rw [State.setRing_ring]
  · rfl
  · rfl
  · rfl
  · exact (CapRing.sized_fields ..).1

theorem SizeWritten.storeErr {p : Pod} {w : W} {s t : State} (h : SizeWritten p w s t) (v : W) : SizeWritten p w s (t.storeErr v) :=
  ⟨h.keeps.trans (t.storeErr_keeps v), h.base, h.wr, h.rd, h.thr⟩

theorem State.writeCapCfg_sizeWritten (p : Pod) (w : W) (s : State) : SizeWritten p w s (s.writeCapCfg p true w) ∧
    (capIdle p s = true → 8 ≤ fld w 0 5 → fld w 0 5 ≤ 16 → capPlaceOk s.store.ring[p].base.toNat (fld w 0 5) = true →
      fld (s.writeCapCfg p true w).store.ring[p].size 0 5 = fld w 0 5 ∧ (s.writeCapCfg p true w).store.errFlags = s.store.errFlags) ∧
    (capIdle p s = false → fld w 0 5 ≠ fld s.store.ring[p].size 0 5 →
      fld (s.writeCapCfg p true w).store.ring[p].size 0 5 = fld s.store.ring[p].size 0 5 ∧ (s.writeCapCfg p true w).store.errFlags = s.store.errFlags.raise s.tick 0x20) := by
  rw [State.writeCapCfg_size]
  split
  next same =>
    refine ⟨s.setRing_withThr p w, fun _ _ _ _ => ⟨?_, rfl⟩, fun _ ne => absurd same ne⟩
    rw [State.setRing_ring, (CapRing.withThr_fields ..).2, same]
  next =>
    split
    next ok =>
      refine ⟨s.setRing_sized p w, fun _ _ _ _ => ⟨?_, rfl⟩, fun busy => ?_⟩
      · rw [State.setRing_ring, (CapRing.sized_fields ..).2]
      · rw [busy] at ok
        exact Bool.noConfusion ok
    next bad =>
      refine ⟨(s.setRing_withThr p w).storeErr 0x20, fun idle lo hi place => (bad ?_).elim, fun _ _ => ⟨?_, rfl⟩⟩
      · rw [idle, place, decide_eq_true lo, decide_eq_true hi]
        rfl
      · have same : ((s.setRing p (s.store.ring[p].withThr w)).storeErr 0x20).store.ring[p] = s.store.ring[p].withThr w := s.setRing_ring p _
        rw [same, (CapRing.withThr_fields ..).2]

/-! ### The obligation -/

/-- Settles O37: read pointers, write pointers of feeders, the capture ring's registers, and the backlog. -/
theorem ringPointers : Obligations.RingPointers := by
  unfold Obligations.RingPointers
  intro p n w s
  refine ⟨⟨_, rfl, State.modPod_keeps .., State.modPod_onlyPod p _ s, ?_⟩, ⟨_, rfl, feederWrite n (fun f => { f with feedWr := w }) _ s⟩,
    ⟨_, rfl, feederWrite n (fun f => { f with drnRd := w }) _ s⟩, ⟨⟨_, rfl, s.writeCapRd_keeps p w, ?_⟩, ⟨_, rfl, ?_⟩, ⟨_, rfl, ?_⟩⟩, ?_, ?_, ?_⟩
  · exact State.modPod_pod_same ..
  · by_cases ok : (w - s.store.ring[p].rd).toNat ≤ (s.store.ring[p].wr - s.store.ring[p].rd).toNat
    · have store := s.writeCapRd_of_ok ok
      exact ⟨fun _ => ⟨(congrArg (fun x : Store => x.ring[p]) store).trans (s.setRing_ring p _), (congrArg Store.errFlags store :)⟩, fun bad => absurd ok (Nat.not_le.mpr bad),
        fun q apart => (congrArg (fun x : Store => x.ring[q]) store).trans (State.setRing_ring_other apart _ s)⟩
    · rw [(s.writeCapRd_eq p w).trans (if_neg ok)]
      exact ⟨fun h => absurd h ok, fun _ => ⟨rfl, rfl⟩, fun _ _ => rfl⟩
  · obtain ⟨written, takes, refuses⟩ := s.writeCapCfg_sizeWritten p w
    exact ⟨written.keeps, written.base, written.wr, written.rd, written.thr, takes, refuses⟩
  · rw [State.writeCapCfg_base]
    split
    next ok =>
      obtain ⟨idle, place⟩ := (Bool.and_eq_true _ _).mp ok
      refine ⟨s.setRing_keeps p _, fun _ _ => ⟨s.setRing_ring p _, rfl⟩, fun bad => ?_⟩
      exact bad.elim (fun k => Bool.noConfusion (k.symm.trans idle)) (fun k => Bool.noConfusion (k.symm.trans place))
    next bad => exact ⟨s.storeErr_keeps 0x20, fun idle place => absurd ((Bool.and_eq_true _ _).mpr ⟨idle, place⟩) bad, fun _ => rfl⟩
  · exact fun none h => congrArg Host.Outcome.next (State.backlogDrain_of_closed ((resClosed_iff _ _).mpr (h.elim .inl (.inr ∘ .inr))) none)
  · intro x none one set room inStore
    exact ⟨_, congrArg Host.Outcome.next (State.backlogDrain_one none one set room inStore), s.tookOne_keeps p x, s.tookOne_onlyPod p x, congrArg PodSt.res (s.tookOne_pod p x), rfl⟩
  · intro lost noRing room
    refine ⟨_, congrArg Host.Outcome.next (State.backlogDrain_gap lost noRing room), s.modPod_keeps p _, s.modPod_onlyPod p _, ?_⟩
    rw [State.modPod_pod_same]
    rfl

end Sys2Proof.Machine
end

section
/-!
A byte written 0 through the host window, where the store's contents are not in their canonical form (R223).
-/
namespace Sys2Proof.Machine

/-- A host with a link, and a store that lists one offset twice: it is not in canonical form, which no premise of the statement asks for. -/
def listedTwiceState : State :=
  { State.reset with
    fw := { State.reset.fw with ready := true }
    pcie := { State.reset.pcie with up := true }
    store := { State.reset.store with mem := [(0x2000000, 1), (0x2000000, 2)] } }

theorem listedTwiceState_served : reaches .pcie listedTwiceState = true ∧ listedTwiceState.store.held = [] ∧ listedTwiceState.store.bad = [] := by decide +kernel

theorem listedTwiceState_open : closedSegs (winOffsets (.write 0x2000000 [some 0])) listedTwiceState = [] ∧ winWrites 0x2000000 listedTwiceState = true := by decide +kernel

/-- The write takes away the first entry alone, and the second is read from then on. -/
theorem listedTwiceState_read : (match exec (.bar2Access (.write 0x2000000 [some 0])) listedTwiceState with | .next t => memRead 0x2000000 t.store.mem | _ => 0) = 2 := by decide +kernel

/-- Refutes O38: a byte written 0 through the window reads 2, where the store's contents list its offset twice. -/
theorem not_storeAccesses : ¬ Obligations.StoreAccesses := by
  unfold Obligations.StoreAccesses
  intro h
  obtain ⟨-, -, -, -, window⟩ := h 0 listedTwiceState
  obtain ⟨reached, held, bad⟩ := listedTwiceState_served
  obtain ⟨opened, writable⟩ := listedTwiceState_open
  obtain ⟨-, write, -⟩ := window reached held bad
  obtain ⟨t, run, -, -, written, -⟩ := write 0x2000000 [some 0] opened
  have wrong : memRead 0x2000000 t.store.mem = 0 := (written 0 0 rfl).trans (if_pos writable)
  have right := listedTwiceState_read
  rw [run] at right
  exact absurd (right.symm.trans wrong) (by decide)

end Sys2Proof.Machine
end

section
/-!
PROOF of the obligation on retention of segments and scrub passes (O39).
-/
namespace Sys2Proof.Machine

/-! ### Sets of segments (R220) -/

theorem getLsbD_segBit (g h : Seg) : (BitVec.ofNat 6 (2 ^ g.val)).getLsbD h.val = decide (h = g) := by
  revert g h
  decide

theorem getLsbD_segSet (g h : Seg) (b : Bool) (v : BitVec 6) : (segSet g b v).getLsbD h.val = if h = g then b else v.getLsbD h.val := by
  have small : h.val < 6 := h.isLt
  unfold segSet
  cases b
  · rw [if_neg Bool.false_ne_true, BitVec.getLsbD_and, BitVec.getLsbD_not, getLsbD_segBit]
    by_cases e : h = g <;> simp [e]
  · rw [if_pos rfl, BitVec.getLsbD_or, getLsbD_segBit]
    by_cases e : h = g <;> simp [e]

theorem segSet_false_self (g : Seg) : segSet g false (BitVec.ofNat 6 (2 ^ g.val)) = 0 := by
  revert g
  decide

theorem segsOf_one (g : Seg) : segsOf (2 ^ g.val) = [g] := by
  revert g
  decide

theorem segsOf_none : segsOf 0 = [] := by decide

theorem segOpen_iff (g : Nat) (s : State) : segOpen g s = true ↔ s.store.retained.getLsbD g = false ∧ s.store.transit.getLsbD g = false := by
  unfold segOpen
  rw [Bool.and_eq_true, Bool.not_eq_true', Bool.not_eq_true']

theorem segOpen_false_iff (g : Nat) (s : State) : segOpen g s = false ↔ (s.store.retained.getLsbD g || s.store.transit.getLsbD g) = true := by
  unfold segOpen
  cases s.store.retained.getLsbD g <;> cases s.store.transit.getLsbD g <;> decide

/-! ### The command STORE_RETAIN (R220, R221) -/

/-- The state with an entry of segment g refused. -/
def State.retainErr (s : State) : State := { s with store := { s.store with retFlags := s.store.retFlags.raise s.tick 0x1000000 } }

/-- The state with segment g closed, whose entry runs. -/
def State.retaining (g : Seg) (s : State) : State := { s with store := s.store.retain g }

theorem Store.retain_of_open {g : Seg} {x : Store} (h : x.retained.getLsbD g.val = false) :
    x.retain g = { x with transit := segSet g true x.transit, waking := segSet g false x.waking, retained := segSet g false x.retained } := by
  unfold Store.retain
  rw [h]
  rfl

/-- What STORE_RETAIN waits for, of segment g alone. -/
def retainJob (b : CmdMbx) (g : Seg) (refused : BitVec 6) (s : State) : RetJob := { b := b, wait := s.store.transit &&& BitVec.ofNat 6 (2 ^ g.val ||| 0), refused := refused }

/-- A STORE_RETAIN judged: answered at once, or when what it waits for is done. -/
def State.retainAsked (j : RetJob) (s : State) : State :=
  if j.wait == 0 then s.retainDone j else { s with store := { s.store with jobs := s.store.jobs ++ [j] } }

/-- One segment to be retained and none to be woken. -/
theorem State.storeRetain_one {b : CmdMbx} {body : List Byte} {g : Seg} {s : State} (free : s.store.jobs.any (fun j => j.b == b) = false) (retain : u32 0 body = 2 ^ g.val) (wake : u32 4 body = 0) :
    s.storeRetain b body = if retainRefused g.val s then s.retainErr.used.retainAsked (retainJob b g (segSet g true 0) s)
      else (s.retaining g).used.retainAsked (retainJob b g 0 (s.retaining g)) := by
  have low : ¬ 64 ≤ 2 ^ g.val := by
    have := Nat.pow_le_pow_right (n := 2) (by decide) (Nat.le_of_lt_succ g.isLt)
    omega
  unfold State.storeRetain
  dsimp only
  rw [free, retain, wake, if_neg Bool.false_ne_true, if_neg low, if_neg (by decide), segsOf_one, segsOf_none]
  cases r : retainRefused g.val s <;>
  · simp only [List.foldl_cons, List.foldl_nil, State.retainOne, r]
    rfl

theorem segMask_eq_zero {g : Seg} {v : BitVec 6} (h : v.getLsbD g.val = false) : v &&& BitVec.ofNat 6 (2 ^ g.val ||| 0) = 0 := by
  rw [Nat.or_zero]
  refine BitVec.eq_of_getLsbD_eq fun i lt => ?_
  rw [BitVec.getLsbD_and, getLsbD_segBit g ⟨i, lt⟩]
  by_cases e : (⟨i, lt⟩ : Seg) = g
  · rw [← e] at h
    rw [h, Bool.false_and]
    exact BitVec.getLsbD_zero.symm
  · rw [decide_eq_false e, Bool.and_false]
    exact BitVec.getLsbD_zero.symm

theorem segMask_ne_zero {g : Seg} {v : BitVec 6} (h : v.getLsbD g.val = true) : v &&& BitVec.ofNat 6 (2 ^ g.val ||| 0) ≠ 0 := fun e => by
  have bit := congrArg (fun w : BitVec 6 => w.getLsbD g.val) e
  rw [Nat.or_zero] at bit
  simp only [BitVec.getLsbD_and, getLsbD_segBit, h, decide_true, Bool.and_self, BitVec.ofNat_eq_ofNat, BitVec.getLsbD_zero, Bool.true_eq_false] at bit

theorem segSet_toNat (g : Seg) : (segSet g true 0).toNat = 2 ^ g.val ∧ (segSet g true 0 == 0) = false := by
  revert g
  decide

theorem State.retainDone_of_refused {j : RetJob} {v : Nat} {s : State} (some : (j.refused == 0) = false) (mask : j.refused.toNat = v) :
    s.retainDone j = s.answer j.b 0x28 v (leBytes 4 v) := by
  unfold State.retainDone
  rw [some, mask]
  rfl

section
variable {b : CmdMbx} {body : List Byte} {g : Seg} {s : State} (free : s.store.jobs.any (fun j => j.b == b) = false) (retain : u32 0 body = 2 ^ g.val) (wake : u32 4 body = 0)
  (opened : segOpen g.val s = true)
include free retain wake opened

omit retain wake opened in
theorem State.storeRetain_bad (bad : 64 ≤ u32 0 body) : s.storeRetain b body = s.answer b 5 0 [] := by
  unfold State.storeRetain
  dsimp only
  rw [free, if_neg Bool.false_ne_true, if_pos bad]
  rfl

omit retain wake opened in
theorem State.storeRetain_badWake (low : u32 0 body < 64) (bad : 64 ≤ u32 4 body) : s.storeRetain b body = s.answer b 5 4 [] := by
  unfold State.storeRetain
  dsimp only
  rw [free, if_neg Bool.false_ne_true, if_neg (Nat.not_le.mpr low), if_pos bad]
  rfl

/-- A segment that may not close: the command is answered at once. -/
theorem State.storeRetain_refused (refused : retainRefused g.val s = true) : s.storeRetain b body = s.retainErr.used.answer b 0x28 (2 ^ g.val) (leBytes 4 (2 ^ g.val)) := by
  obtain ⟨-, still⟩ := (segOpen_iff _ _).mp opened
  obtain ⟨mask, some⟩ := segSet_toNat g
  have waits : (retainJob b g (segSet g true 0) s).wait = 0 := segMask_eq_zero still
  rw [State.storeRetain_one free retain wake, if_pos refused, State.retainAsked, waits, if_pos (by decide)]
  exact State.retainDone_of_refused some mask

/-- A segment that may close: it closes, and the command waits. -/
theorem State.storeRetain_taken (taken : retainRefused g.val s = false) :
    s.storeRetain b body = { (s.retaining g).used with store := { s.store with
      transit := segSet g true s.store.transit, waking := segSet g false s.store.waking, retained := segSet g false s.store.retained
      jobs := s.store.jobs ++ [retainJob b g 0 (s.retaining g)] } } := by
  obtain ⟨awake, -⟩ := (segOpen_iff _ _).mp opened
  have closed : (s.retaining g).store = { s.store with transit := segSet g true s.store.transit, waking := segSet g false s.store.waking, retained := segSet g false s.store.retained } :=
    Store.retain_of_open awake
  have waits : (retainJob b g 0 (s.retaining g)).wait ≠ 0 := segMask_ne_zero (by rw [closed, getLsbD_segSet, if_pos rfl])
  rw [State.storeRetain_one free retain wake, taken, if_neg Bool.false_ne_true, State.retainAsked, if_neg (by rw [beq_iff_eq]; exact waits)]
  generalize retainJob b g 0 (s.retaining g) = j
  have used : (s.retaining g).used.store = (s.retaining g).store := rfl
  rw [used, closed]

end

/-! ### Entries and wakes that are done (R220, R222) -/

theorem State.settleJobs_of_none {g : Seg} {s : State} (none : s.store.jobs = []) : s.settleJobs g = s := by
  unfold State.settleJobs
  dsimp only
  rw [none]
  show ({ s with store := { s.store with jobs := [] } } : State) = s
  rw [← none]

/-- The one command that waits for segment g alone is answered. -/
theorem State.settleJobs_of_one {g : Seg} {b : CmdMbx} {s : State} (one : s.store.jobs = [{ b := b, wait := BitVec.ofNat 6 (2 ^ g.val), refused := 0 }]) :
    s.settleJobs g = ({ s with store := { s.store with jobs := [] } } : State).answer b 0 0 (leBytes 4 0) := by
  unfold State.settleJobs
  dsimp only
  rw [one, List.map_singleton, segSet_false_self]
  rfl

theorem State.settleJobs_store (g : Seg) (s : State) : (s.settleJobs g).store = { s.store with jobs := (s.settleJobs g).store.jobs } := by
  unfold State.settleJobs
  dsimp only
  generalize List.map _ s.store.jobs = l
  have same := (Keeps.forAll State.retainDone State.retainDone_keeps (l.filter fun j => j.wait == 0)
    (Keeps.refl _ { s with store := { s.store with jobs := l.filter fun j => j.wait != 0 } })).store_eq (by decide) (by decide)
  rw [same]

/-- The store with the entry of segment g done. -/
def Store.entered (g : Seg) (x : Store) : Store := { x with retained := segSet g true x.retained, transit := segSet g (x.waking.getLsbD g.val) x.transit }

theorem State.retentionDone_of_due {g : Seg} {s : State} (runs : s.store.transit.getLsbD g.val = true) (entry : s.store.retained.getLsbD g.val = false) :
    s.retentionDone g = ({ s with store := s.store.entered g } : State).when (!s.store.waking.getLsbD g.val) (State.settleJobs g) := by
  unfold State.retentionDone
  dsimp only
  rw [runs, entry]
  rfl

theorem State.retentionDone_of_idle {g : Seg} {s : State} (h : s.store.transit.getLsbD g.val = false ∨ s.store.retained.getLsbD g.val = true) : s.retentionDone g = s := by
  have idle : (s.store.transit.getLsbD g.val && !s.store.retained.getLsbD g.val) = false := by
    rcases h with k | k
    · rw [k, Bool.false_and]
    · rw [k, Bool.not_true, Bool.and_false]
  unfold State.retentionDone
  dsimp only
  rw [idle]
  rfl

/-- What the end of an entry leaves of the store. -/
theorem State.retentionDone_store {g : Seg} {s : State} (runs : s.store.transit.getLsbD g.val = true) (entry : s.store.retained.getLsbD g.val = false) :
    (s.retentionDone g).store = { s.store.entered g with jobs := (s.retentionDone g).store.jobs } := by
  rw [State.retentionDone_of_due runs entry]
  cases s.store.waking.getLsbD g.val
  · exact State.settleJobs_store g _
  · rfl

theorem State.autoWake_of_closed {g : Seg} {s : State} (closed : segOpen g.val s = false) : s.autoWake g = { s with store := { s.store with
    transit := segSet g true s.store.transit, waking := segSet g true s.store.waking, retFlags := s.store.retFlags.raise s.tick (flag (16 + g.val) true) } } := by
  unfold State.autoWake Store.wakeSeg
  rw [closed, (segOpen_false_iff ..).mp closed]
  rfl

theorem segmentAutoWake_reaches {m : Fin 25} {g : Seg} (stalls : 17 ≤ m.val) (watch : 18 ≤ m.val → m.val ≤ 21 → 2 ≤ g.val) :
    (decide (17 ≤ m.val) && !(decide (18 ≤ m.val) && decide (m.val ≤ 21) && decide (g.val < 2))) = true := by
  rw [decide_eq_true stalls, Bool.true_and, Bool.not_eq_true', Bool.and_eq_false_iff, Bool.and_eq_false_iff, decide_eq_false_iff_not, decide_eq_false_iff_not, decide_eq_false_iff_not]
  omega

/-! ### Wakes (R222) -/

/-- The store with segment g open again. -/
def Store.awake (g : Seg) (x : Store) : Store := { x with retained := segSet g false x.retained, transit := segSet g false x.transit, waking := segSet g false x.waking }

theorem State.segmentAwake_of_none {g : Seg} {s : State} (none : s.store.jobs = []) : s.segmentAwake g = { s with store := s.store.awake g } := State.settleJobs_of_none none

theorem segOpen_awake (g h : Seg) (s : State) {t : State} (same : t.store.retained = (s.store.awake g).retained ∧ t.store.transit = (s.store.awake g).transit) :
    segOpen h.val t = if h = g then true else segOpen h.val s := by
  obtain ⟨retained, transit⟩ := same
  unfold segOpen
  rw [retained, transit]
  unfold Store.awake
  dsimp only
  rw [getLsbD_segSet, getLsbD_segSet]
  split <;> rfl

theorem State.serve_of_none {s : State} (held : s.store.held = []) (heldQ : s.store.heldQ = []) : s.serve = s := by
  unfold State.serve
  rw [held, serveHeld]
  dsimp only
  rw [heldQ, serveHeldQ]

theorem serveHeld_of_open {x : Instr} {r : List Instr} {s : State} (opened : rowClosed x s = []) : serveHeld (x :: r) s = serveHeld r (rowNow x { s with store := { s.store with held := r } }) := by
  rw [serveHeld]
  dsimp only
  rw [opened]
  rfl

/-- No segment is waited for where all offsets lie in an open one. -/
theorem closedSegs_of_within {g : Seg} {as : List Nat} {s : State} (within : ∀ a ∈ as, segOf a = g.val) (opened : segOpen g.val s = true) : closedSegs as s = [] := by
  refine List.filter_eq_nil_iff.mpr fun h _ => ?_
  rw [Bool.and_eq_true, Bool.not_eq_true', List.any_eq_true]
  rintro ⟨closed, a, mem, at_⟩
  obtain ⟨seg, -⟩ := (Bool.and_eq_true _ _).mp at_
  have same : h = g := Fin.ext ((beq_iff_eq.mp seg).symm.trans (within a mem))
  rw [same, opened] at closed
  exact Bool.noConfusion closed

/-- What a host reads through its window. -/
def winData (as : List Nat) (s : State) : List Byte := as.map fun a => if winReads a s then memRead a s.store.mem else 0

/-- A read through a window of a store without bad words: the data, and the refusal where an offset may not be read. -/
theorem State.winRead_of_good {m : Fin 25} {as : List Nat} {s : State} (good : s.store.bad = []) :
    s.winRead m as = (s.modArb m (fun x => { x with rdata := winData as s, rerr := false })).when (decide ((as.filter fun a => winReads a s).length < as.length)) (State.winErr (as.headD 0) (m == 23) false) := by
  have clean (a : Nat) : s.store.isBad a = false := by
    unfold Store.isBad
    rw [good]
    rfl
  have lost : (wordsOf (as.filter fun a => winReads a s)).filter (fun a => s.store.isBad a) = [] := List.filter_eq_nil_iff.mpr fun a _ => by
    rw [clean a]
    exact Bool.false_ne_true
  unfold State.winRead
  dsimp only
  rw [lost]
  have data : (as.map fun a => if !winReads a s then 0 else if s.store.isBad a then (freeWord s).getD (a % 16) 0 else memRead a s.store.mem) = winData as s :=
    List.map_congr_left fun a _ => by
      rw [clean a]
      cases winReads a s <;> rfl
  rw [data]
  rfl

/-- A read through a window changes what the master has read, and the error registers. -/
structure WinReadOf (m : Fin 25) (as : List Nat) (s t : State) : Prop where
  keeps : Keeps [.store] s t
  mem : t.store.mem = s.store.mem
  rdata : t.store.arb[m].rdata = winData as s
  segs : t.store.retained = s.store.retained ∧ t.store.transit = s.store.transit
  held : t.store.held = s.store.held
  heldQ : t.store.heldQ = s.store.heldQ

theorem State.winRead_of (m : Fin 25) (as : List Nat) {s : State} (good : s.store.bad = []) : WinReadOf m as s (s.winRead m as) := by
  have read : WinReadOf m as s (s.modArb m (fun x => { x with rdata := winData as s, rerr := false })) :=
    ⟨State.modArb_keeps .., rfl, congrArg ArbM.rdata (Vector.getElem_set_self ..), ⟨rfl, rfl⟩, rfl, rfl⟩
  rw [State.winRead_of_good good]
  cases decide ((as.filter fun a => winReads a s).length < as.length)
  · exact read
  · exact ⟨read.keeps.trans (Keeps.setStore _ _ rfl), read.mem, read.rdata, read.segs, read.held, read.heldQ⟩

/-- The access that waits for the host is made, and none is left. -/
theorem State.serve_of_read {g : Seg} {a n : Nat} {s : State} (held : s.store.held = [.bar2Access (.read a n)]) (heldQ : s.store.heldQ = []) (good : s.store.bad = [])
    (within : ∀ i < n, segOf (a + i) = g.val) (opened : segOpen g.val s = true) :
    s.serve = ({ s with store := { s.store with held := [] } } : State).winRead 22 ((List.range n).map fun i => a + i) := by
  have none : rowClosed (.bar2Access (.read a n)) s = [] := closedSegs_of_within (g := g) (fun x mem => by
    obtain ⟨i, lt, rfl⟩ := List.mem_map.mp mem
    exact within i (List.mem_range.mp lt)) opened
  have read := State.winRead_of 22 ((List.range n).map fun i => a + i) (s := { s with store := { s.store with held := [] } }) good
  unfold State.serve
  rw [held, serveHeld_of_open none]
  show serveHeldQ (({ s with store := { s.store with held := [] } } : State).winRead 22 ((List.range n).map fun i => a + i)).store.heldQ
    (({ s with store := { s.store with held := [] } } : State).winRead 22 ((List.range n).map fun i => a + i)) = _
  rw [read.heldQ, show ({ s with store := { s.store with held := [] } } : State).store.heldQ = [] from heldQ, serveHeldQ]

/-! ### Scrub passes (R217, R219) -/

/-- The store with an uncorrectable error noted. -/
def Store.ueNoted (tick master a : Nat) (flags : W) (x : Store) : Store := { x with
  errFlags := x.errFlags.raise tick flags, errMaster := BitVec.ofNat 5 master, errAddr := BitVec.ofNat 32 (a / 16 * 16), ueCnt := x.ueCnt.bump tick 1 65535
  bad := a / 16 * 16 :: x.bad.filter (fun y => y != a / 16 * 16), corr := x.corr.filter (fun y => y != a / 16 * 16) }

theorem State.ueSeen_eq (master a : Nat) (flags : W) (s : State) : s.ueSeen master a flags =
    ((({ s with store := s.store.ueNoted s.tick master a flags } : State).hsum 8).when (isCalSeg (segOf a) { s with store := s.store.ueNoted s.tick master a flags }) (State.hsum 9)).failOver (segOf a) := rfl

/-- A segment outside the calendar has no partner to fail over to. -/
theorem State.failOver_of_other {g : Nat} {s : State} (other : isCalSeg g s = false) : ∃ l, s.failOver g = { s with store := { s.store with ues := l } } := by
  refine ⟨s.store.ues.set (g % 6) (s.time.lt :: s.store.ues[(⟨g % 6, by omega⟩ : Fin 6)].filter (fun t => decide (s.time.lt < t + oneSecond))) (by omega), if_neg fun on => ?_⟩
  rw [Bool.and_eq_true, Bool.and_eq_true, Bool.and_eq_true] at on
  exact Bool.noConfusion (on.1.1.2.symm.trans other)

/-- An uncorrectable error in a word outside the calendar. -/
structure UeSeen (master a : Nat) (flags : W) (s t : State) : Prop where
  keeps : Keeps [.store, .health] s t
  mem : t.store.mem = s.store.mem
  errFlags : t.store.errFlags = s.store.errFlags.raise s.tick flags
  errMaster : t.store.errMaster = BitVec.ofNat 5 master
  ueCnt : t.store.ueCnt = s.store.ueCnt.bump s.tick 1 65535
  bad : t.store.isBad a = true
  sum : t.health.sum.get 8 = true

theorem State.ueSeen_of_other {master a : Nat} {flags : W} {s : State} (other : isCalSeg (segOf a) s = false) : UeSeen master a flags s (s.ueSeen master a flags) := by
  have noted : s.ueSeen master a flags = (({ s with store := s.store.ueNoted s.tick master a flags } : State).hsum 8).failOver (segOf a) := by
    rw [State.ueSeen_eq, show isCalSeg (segOf a) { s with store := s.store.ueNoted s.tick master a flags } = false from other, State.when_false]
  obtain ⟨l, fails⟩ := State.failOver_of_other (g := segOf a) (s := ({ s with store := s.store.ueNoted s.tick master a flags } : State).hsum 8) other
  rw [noted, fails]
  refine ⟨?_, rfl, rfl, rfl, rfl, ?_, ?_⟩
  · exact (((Keeps.setStore s (s.store.ueNoted s.tick master a flags) rfl).mono (by decide)).step (State.hsum_keeps 8 _) (by decide)).step (Keeps.setStore _ _ rfl) (by decide)
  · exact List.contains_iff_mem.mpr (List.mem_cons_self ..)
  · exact (State.hsum_get 8 8 { s with store := s.store.ueNoted s.tick master a flags }).trans (Bool.or_eq_true_iff.mpr (.inr (by decide)))

theorem State.scrubPass_of_good {s : State} (good : s.store.bad = []) (found : List (Nat × Ecc)) :
    s.scrubPass found = forAll found (fun x => State.scrubWord x.1 x.2) { s with store := { s.store with scrubbing := true } } := by
  unfold State.scrubPass
  dsimp only
  rw [good, List.filter_nil, List.map_nil, List.append_nil]

/-- The scrubber reads a word of an open segment. -/
theorem State.scrubWord_of_open {a : Nat} {e : Ecc} {s : State} (inside : a < 0x3000000) (opened : segOpen (segOf a) s = true) :
    s.scrubWord a e = match e with
      | .clean => s
      | .single => s.ceSeen a
      | .double => if isCalSeg (segOf a) s then (s.used.ueSeen 31 a 0).calUe a (slotsUsed s != 0 && s.freeBit) else s.ueSeen 31 a ueScrub := by
  unfold State.scrubWord
  rw [opened, decide_eq_true inside]
  cases e <;> rfl

/-- The store with a scrub pass done. -/
def Store.passed (tick : Nat) (x : Store) : Store := { x with scrubbing := false, scrubLate := false, passCnt := x.passCnt + 1, scrub := x.scrub.raise tick 0x10000 }

theorem execScrubPassDone_of_good {s : State} (runs : s.store.scrubbing = true) (good : s.store.bad = []) :
    execScrubPassDone s = .next { s with store := { s.store with scrubbing := s.store.scrubLate, scrubLate := false, passCnt := s.store.passCnt + 1, scrub := s.store.scrub.raise s.tick 0x10000 } } := by
  unfold execScrubPassDone
  rw [if_pos runs]
  dsimp only
  cases s.store.scrubLate
  · rfl
  · refine congrArg Host.Outcome.next ?_
    exact State.scrubPass_of_good (s := { s with store := s.store.passed s.tick }) good []

/-! ### The obligation -/

/-- Settles O39: STORE_RETAIN, the ends of entries and wakes with the accesses that waited, and scrub passes. -/
theorem retentionAndScrubbing : Obligations.RetentionAndScrubbing := by
  unfold Obligations.RetentionAndScrubbing
  intro g s
  refine ⟨fun b seq body runs free => ?_, ?_, ?_, ?_, ⟨?_, ?_⟩, ?_, ?_, ?_, ?_⟩
  · have run : exec (.storeRetain b) s = .next (s.storeRetain b body) := congrArg Host.Outcome.next (State.command_of_runs runs (State.storeRetain b))
    have keeps := State.storeRetain_keeps b body s
    refine ⟨_, run, keeps, keeps.2 .mem (by decide), fun bad => ?_, fun low bad => ?_, fun retain wake opened => ⟨fun refused => ?_, fun taken => ?_⟩⟩
    · rw [State.storeRetain_bad free bad]
      exact ⟨(State.answer_keeps ..).store_eq (by decide) (by decide), runs.answered rfl ..⟩
    · rw [State.storeRetain_badWake free low bad]
      exact ⟨(State.answer_keeps ..).store_eq (by decide) (by decide), runs.answered rfl ..⟩
    · rw [State.storeRetain_refused free retain wake opened refused]
      exact ⟨(State.answer_keeps b 0x28 (2 ^ g.val) (leBytes 4 (2 ^ g.val)) s.retainErr.used).store_eq (by decide) (by decide), runs.answered rfl ..⟩
    · rw [State.storeRetain_taken free retain wake opened taken]
      refine ⟨(segOpen_false_iff ..).mpr ?_, ?_, rfl, fun h apart => ⟨?_, ?_⟩⟩ <;> dsimp only <;> simp only [getLsbD_segSet]
      · simp
      · simp
      · rw [if_neg apart]
      · rw [if_neg apart]
  · intro runs entry
    have store := State.retentionDone_store runs entry
    have keeps := State.retentionDone_keeps g s
    refine ⟨_, rfl, keeps, keeps.2 .mem (by decide), ?_, ?_, fun b op cap seq body awake one phase => ?_⟩
    · rw [store]
      exact (getLsbD_segSet ..).trans (if_pos rfl)
    · rw [store]
      exact (getLsbD_segSet ..).trans (if_pos rfl)
    · rw [State.retentionDone_of_due runs entry, awake, Bool.not_false, State.when_true, State.settleJobs_of_one (s := { s with store := s.store.entered g }) one]
      refine ⟨?_, State.answer_answered phase rfl ..⟩
      rw [(State.answer_keeps ..).store_eq (by decide) (by decide)]
  · exact fun h => congrArg Host.Outcome.next (State.retentionDone_of_idle h)
  · intro m stalls watch
    have wakes : exec (.segmentAutoWake m g) s = .next (s.autoWake g) := congrArg Host.Outcome.next (if_pos (segmentAutoWake_reaches stalls watch))
    refine ⟨fun opened => wakes.trans (congrArg Host.Outcome.next (if_pos opened)), fun closed => ⟨_, wakes.trans (congrArg Host.Outcome.next (State.autoWake_of_closed closed)), ?_⟩⟩
    exact ⟨Keeps.setStore s _ rfl, rfl, (getLsbD_segSet ..).trans (if_pos rfl), (getLsbD_segSet ..).trans (if_pos rfl), rfl, rfl⟩
  · exact fun idle => congrArg Host.Outcome.next (if_neg fun on => idle (by simpa [and_assoc] using on))
  · rintro ⟨transit, retained, waking⟩ jobs heldQ
    have run : exec (.segmentWakeDone g) s = .next (s.segmentAwake g).serve := congrArg Host.Outcome.next (if_pos (by rw [transit, retained, waking]; rfl))
    rw [State.segmentAwake_of_none jobs] at run
    refine ⟨fun held => ⟨_, run.trans (congrArg Host.Outcome.next (State.serve_of_none held heldQ)), Keeps.setStore s _ rfl, rfl, ?_, fun h apart => ?_⟩, fun a n held within good => ?_⟩
    · exact (segOpen_awake g g s ⟨rfl, rfl⟩).trans (if_pos rfl)
    · exact (segOpen_awake g h s ⟨rfl, rfl⟩).trans (if_neg apart)
    · have opened : segOpen g.val { s with store := s.store.awake g } = true := (segOpen_awake g g s ⟨rfl, rfl⟩).trans (if_pos rfl)
      refine ⟨_, run.trans (congrArg Host.Outcome.next (State.serve_of_read held heldQ good within opened)), ?_⟩
      obtain ⟨keeps, mem, rdata, segs, none, -⟩ := State.winRead_of 22 ((List.range n).map fun i => a + i) (s := { s with store := { s.store.awake g with held := [] } }) good
      refine ⟨Keeps.trans (Keeps.setStore s { s.store.awake g with held := [] } rfl) keeps, mem, (segOpen_awake g g s segs).trans (if_pos rfl), none, rdata.trans ?_⟩
      exact List.map_map
  · exact fun runs l => ⟨_, congrArg Host.Outcome.next (if_pos runs), rfl⟩
  · exact fun idle => congrArg Host.Outcome.next (if_neg (by rw [idle]; decide))
  · intro idle good
    have run (l : List (Nat × Ecc)) : exec (.scrubPassStart l) s = .next (forAll l (fun x => State.scrubWord x.1 x.2) { s with store := { s.store with scrubbing := true } }) :=
      congrArg Host.Outcome.next ((if_neg (by rw [idle]; decide)).trans (State.scrubPass_of_good good l))
    refine ⟨⟨_, run [], rfl⟩, fun a inside opened => ⟨_, (run _).trans (congrArg Host.Outcome.next (State.scrubWord_of_open (e := .single) inside opened)), ?_⟩,
      fun a inside opened other => ⟨_, (run _).trans (congrArg Host.Outcome.next ((State.scrubWord_of_open (e := .double) (s := { s with store := { s.store with scrubbing := true } }) inside opened).trans (if_neg (Bool.eq_false_iff.mp other)))), ?_⟩⟩
    · exact ⟨Keeps.setStore s _ rfl, rfl, rfl, rfl, List.mem_cons_self ..⟩
    · obtain ⟨keeps, mem, errFlags, errMaster, ueCnt, bad, sum⟩ := State.ueSeen_of_other (master := 31) (a := a) (flags := ueScrub) (s := { s with store := { s.store with scrubbing := true } }) other
      exact ⟨((Keeps.setStore s { s.store with scrubbing := true } rfl).mono (by decide)).step keeps (by decide), mem, errFlags, errMaster, ueCnt, bad, sum⟩
  · exact fun runs good => ⟨_, execScrubPassDone_of_good runs good, rfl⟩

end Sys2Proof.Machine
end

section
/-!
PROOF of the obligation on the Watch cores, their restarts and the Keeper (O50), with what a release leaves of the channels (R281).
-/
namespace Sys2Proof.Machine

/-! ### Releases (R281) -/

theorem abortedOf_nodup (scope : BitVec 128) (s : State) : (abortedOf scope s).Nodup := List.Nodup.filter _ (List.nodup_finRange 128)

theorem mem_abortedOf {scope : BitVec 128} {s : State} {n : Ch} : n ∈ abortedOf scope s ↔ has scope n = true ∧ s.ch[n].aborted = true := by
  rw [abortedOf, List.mem_filter, Bool.and_eq_true]
  exact and_iff_right (List.mem_finRange n)

/-- A release of a scope ends the abort of its channels, and changes no other. -/
theorem State.releaseAll_ch (scope : BitVec 128) (s : State) (n : Ch) : (s.releaseAll scope).ch[n] = if has scope n = true ∧ s.ch[n].aborted = true then s.ch[n].release else s.ch[n] := by
  unfold State.releaseAll
  extract_lets l s1 s2 s3
  have first : s1.ch = s.ch := (Keeps.forAll (fun p => State.missAborted p s.tw) (fun p u => State.missAborted_keeps p s.tw u) (allPods.filter fun p => l.any fun n => podOf n == p) (Keeps.refl _ s)).2 .ch (by decide)
  have third : s3.ch = s2.ch := (Keeps.forAll State.purge State.purge_keeps l (Keeps.refl _ s2)).2 .ch (by decide)
  have last : (forAll allAxes State.keepHeads s3).ch = s3.ch := (Keeps.forAll State.keepHeads State.keepHeads_keeps allAxes (Keeps.refl _ s3)).2 .ch (by decide)
  rw [last, third, forAll_modCh_ch (abortedOf_nodup scope s), first]
  exact if_congr mem_abortedOf rfl rfl

theorem Channel.release_aborted (c : Channel) : c.release.aborted = false := by
  unfold Channel.release
  dsimp only
  split
  · rfl
  · exact Bool.eq_false_iff.mpr ‹_›

theorem State.releaseAll_aborted (scope : BitVec 128) (s : State) (n : Ch) : (s.releaseAll scope).ch[n].aborted = (s.ch[n].aborted && !has scope n) := by
  rw [State.releaseAll_ch]
  split
  next h => rw [Channel.release_aborted, h.1, h.2]; rfl
  next h =>
    cases a : s.ch[n].aborted
    · rfl
    · rw [Bool.eq_false_iff.mpr fun k => h ⟨k, a⟩]
      rfl

/-! ### The start of a Watch restart (R246, R286, R289) -/

theorem State.notice_ownersKept (i : Fin 8) (data : List Byte) (s : State) : OwnersKept s (s.notice i data) := fun m => by
  have told : (s.notice i data).mbx = (s.noticeCode i (s.freeBelow 65536) data).mbx := rfl
  rw [told, State.noticeCode]
  refine State.modMbx_ownersKept ?_ m
  split <;> rfl

theorem releaseWatchLocks_owner (v : Vector Mailbox 32) (m : Mbx) : (releaseWatchLocks v)[m].owner = if 2 ≤ v[m].owner ∧ v[m].owner ≤ 5 then 0 else v[m].owner := by
  have at_ : (releaseWatchLocks v)[m] = if 2 ≤ v[m].owner ∧ v[m].owner ≤ 5 then { v[m] with owner := 0 } else v[m] := Vector.getElem_map ..
  rw [at_]
  split <;> rfl

theorem resetWatchTgts_tgt (v : Vector Target 7) (u : Tgt) : (resetWatchTgts v)[u] = if 1 ≤ u.val ∧ u.val ≤ 4 then { v[u] with stack := [], thr := 15, offered := none } else v[u] :=
  Vector.getElem_mapFinIdx ..

/-- A Watch restart has begun. -/
structure Restarts (cause : BitVec 4) (core : BitVec 3) (s t : State) : Prop where
  keeps : Keeps [.eic, .mbx, .fw, .health, .sur, .free] s t
  fw : t.fw = (s.restarted cause core).fw
  sum : t.health.sum.get 3 = true
  owner : ∀ m : Mbx, t.mbx[m].owner = if 2 ≤ s.mbx[m].owner ∧ s.mbx[m].owner ≤ 5 then 0 else s.mbx[m].owner
  tgt : ∀ u : Tgt, t.eic.tgt[u] = if 1 ≤ u.val ∧ u.val ≤ 4 then { s.eic.tgt[u] with stack := [], thr := 15, offered := none } else s.eic.tgt[u]
  running : t.sur.running = false

theorem State.restarted_keeps (cause : BitVec 4) (core : BitVec 3) (s : State) : Keeps [.eic, .mbx, .fw, .sur] s (s.restarted cause core) :=
  ⟨rfl, fun p apart => by
      cases p
      case eic | mbx | fw | sur => exact absurd (by decide) apart
      all_goals exact Eq.refl _⟩

theorem State.restartBegin_restarts {s : State} (cause : BitVec 4) (core : BitVec 3) (idle : s.fw.restarting = false) (up : s.fw.keeperUp = true) :
    Restarts cause core s (s.restartBegin cause core) := by
  rw [State.restartBegin_of_idle cause core idle up]
  have begun := State.restarted_keeps cause core s
  have marked := State.hsum_keeps 3 (s.restarted cause core)
  have told := State.notice_keeps 7 [] ((s.restarted cause core).hsum 3)
  have owners := State.notice_ownersKept 7 [] ((s.restarted cause core).hsum 3)
  have sum : ((s.restarted cause core).hsum 3).health.sum.get 3 = true := (State.hsum_get 3 3 _).trans (Bool.or_eq_true_iff.mpr (.inr (by decide)))
  generalize ((s.restarted cause core).hsum 3).notice 7 [] = t at told owners
  refine ⟨((begun.mono (by decide)).step marked (by decide)).step told (by decide), told.2 .fw (by decide), ?_, fun m => (owners m).trans (releaseWatchLocks_owner s.mbx m), fun u => ?_, ?_⟩
  · rw [show t.health = _ from told.2 .health (by decide)]
    exact sum
  · rw [show t.eic = _ from told.2 .eic (by decide)]
    exact resetWatchTgts_tgt s.eic.tgt u
  · rw [show t.sur = _ from told.2 .sur (by decide)]
    rfl

theorem coreNo (core : Fin 4) : (BitVec.ofNat 3 (core.val + 1)).toNat = core.val + 1 := by
  revert core
  decide

theorem nextDelay_eq (f : Firmware) (lt : Nat) :
    nextDelay f lt = (match f.lastDone with | none => 0 | some d => if d + 12800000000 < lt then 0 else if f.delay = 0 then 40 else min 1280 (2 * f.delay)) := by
  unfold nextDelay
  cases f.lastDone <;> rfl

/-! ### Refused accesses (R284) -/

/-- The refused accesses of the last second. -/
def Firmware.recentViols (lt : Nat) (f : Firmware) : List Nat := f.viols.filter fun x => decide (lt < x + 12800000000)

/-- What HLTH_VIOL shows of a refused access. -/
def violWord (core : Fin 4) (store : Bool) (a : Nat) : W := BitVec.ofNat 32 (a % 2 ^ 24) ||| flag 24 store ||| put 25 (core.val + 1)

/-- A refused access that is recorded. -/
def State.violNoted (core : Fin 4) (store : Bool) (a : Nat) (s : State) : State :=
  { (s.hsum 14) with health := { (s.hsum 14).health with viol := violWord core store a }, fw := { s.fw with viols := s.time.lt :: s.fw.recentViols s.time.lt } }

theorem State.watchViol_eq (core : Fin 4) (store : Bool) (a : Nat) (s : State) : s.watchViol core store a =
    (s.violNoted core store a).when (decide (16 < (s.fw.recentViols s.time.lt).length + 1) && s.fw.ready) (State.restartBegin 4 (BitVec.ofNat 3 (core.val + 1))) := rfl

theorem violWord_fields (core : Fin 4) (store : Bool) (a : Nat) :
    fld (violWord core store a) 0 24 = a % 2 ^ 24 ∧ bit (violWord core store a) 24 = store ∧ fld (violWord core store a) 25 7 = core.val + 1 := by
  have high : flag 24 store ||| put 25 (core.val + 1) = BitVec.ofNat 32 (2 ^ 24 * (2 * (core.val + 1) + store.toNat)) := by
    revert core store
    decide
  have low : a % 2 ^ 24 < 2 ^ 24 := Nat.mod_lt _ (by decide)
  have small := core.isLt
  have flagged := store.toNat_le
  have num : (violWord core store a).toNat = 2 ^ 24 * (2 * (core.val + 1) + store.toNat) + a % 2 ^ 24 := by
    have fitsA : a % 2 ^ 24 < 2 ^ 32 := low.trans (by decide)
    have fitsB : 2 ^ 24 * (2 * (core.val + 1) + store.toNat) < 2 ^ 32 := by omega
    rw [violWord, BitVec.or_assoc, high, BitVec.toNat_or, BitVec.toNat_ofNat, BitVec.toNat_ofNat, Nat.mod_eq_of_lt fitsA, Nat.mod_eq_of_lt fitsB, Nat.or_comm,
      ← Nat.two_pow_add_eq_or_of_lt low]
  refine ⟨?_, ?_, ?_⟩
  · rw [fld, num]
    omega
  · rw [bit, ← BitVec.testBit_toNat, num, Nat.testBit_eq_decide_div_mod_eq]
    cases store <;> simp only [Bool.toNat_false, Bool.toNat_true, decide_eq_true_iff, decide_eq_false_iff_not] <;> omega
  · rw [fld, num]
    omega

theorem State.violNoted_keeps (core : Fin 4) (store : Bool) (a : Nat) (s : State) : Keeps [.fw, .health] s (s.violNoted core store a) :=
  ⟨rfl, fun p apart => by
      cases p
      case fw | health => exact absurd (by decide) apart
      all_goals exact Eq.refl _⟩

/-! ### Heartbeats, digests and completion (R285 to R289) -/

theorem fwRuns_iff (s : State) : fwRuns s = true ↔ s.fw.ready = true ∧ s.fw.restarting = false ∧ s.fw.state = 1 := by
  unfold fwRuns
  rw [Bool.and_eq_true, Bool.and_eq_true, Bool.not_eq_true', beq_iff_eq, and_assoc]

theorem getLsbD_beat (old : BitVec 4) (core c : Fin 4) : (old ||| BitVec.ofNat 4 (2 ^ core.val)).getLsbD c.val = (old.getLsbD c.val || c == core) := by
  have one : (BitVec.ofNat 4 (2 ^ core.val)).getLsbD c.val = (c == core) := by
    revert core c
    decide
  rw [BitVec.getLsbD_or, one]

theorem digest_iff (f : Firmware) : (f.restarting && f.state == 2 && f.keeperUp) = true ↔ f.restarting = true ∧ f.state = 2 ∧ f.keeperUp = true := by
  rw [Bool.and_eq_true, Bool.and_eq_true, beq_iff_eq, and_assoc]

theorem State.digestCheck_of_idle {ok fl : Bool} {s : State} (h : s.fw.restarting = false ∨ s.fw.state ≠ 2 ∨ s.fw.keeperUp = false) : s.digestCheck ok fl = s := by
  have idle : (s.fw.restarting && s.fw.state == 2 && s.fw.keeperUp) = false := Bool.eq_false_iff.mpr fun on => by
    obtain ⟨restarting, state, up⟩ := (digest_iff _).mp on
    rcases h with k | k | k
    · exact Bool.noConfusion (k.symm.trans restarting)
    · exact k state
    · exact Bool.noConfusion (k.symm.trans up)
  unfold State.digestCheck
  rw [idle]
  rfl

theorem State.digestCheck_of_due {ok fl : Bool} {s : State} (restarting : s.fw.restarting = true) (state : s.fw.state = 2) (up : s.fw.keeperUp = true) :
    s.digestCheck ok fl = if ok then { s with fw := { s.fw with digestOk := true } } else if fl then { s with fw := { s.fw with digestOk := true, slow := true } }
      else ({ s with fw := { s.fw with state := 4, slow := true } } : State).hsum 12 := by
  unfold State.digestCheck
  rw [(digest_iff _).mpr ⟨restarting, state, up⟩]
  rfl

theorem complete_iff (f : Firmware) : (f.restarting && f.state == 2 && f.digestOk && !f.delayed && f.keeperUp) = true ↔
    f.restarting = true ∧ f.state = 2 ∧ f.digestOk = true ∧ f.delayed = false ∧ f.keeperUp = true := by
  simp only [Bool.and_eq_true, beq_iff_eq, Bool.not_eq_true', and_assoc]

/-- The firmware after a restart that is complete. -/
def Firmware.completed (lt tick : Nat) (f : Firmware) : Firmware :=
  { f with restarting := false, state := 1, restarts := min 65535 (f.restarts + 1), lastDone := some lt, dur := min 65535 ((lt - f.rstLt) / 1280000), lastBeat := Vector.replicate 4 tick }

theorem State.restartComplete_of_due {s : State} (due : s.fw.restarting = true ∧ s.fw.state = 2 ∧ s.fw.digestOk = true ∧ s.fw.delayed = false ∧ s.fw.keeperUp = true) :
    s.restartComplete = (({ s with fw := s.fw.completed s.time.lt s.tick } : State).hsum 4).notice 7 [] := if_pos ((complete_iff _).mpr due)

theorem State.restartComplete_of_early {s : State} (early : ¬ (s.fw.restarting = true ∧ s.fw.state = 2 ∧ s.fw.digestOk = true ∧ s.fw.delayed = false ∧ s.fw.keeperUp = true)) :
    s.restartComplete = s := if_neg fun on => early ((complete_iff _).mp on)

/-! ### The Keeper's reboot (R291) -/

/-- A takeover that was not yet switched begins again. -/
def PodHealth.again (tick : Nat) (h : PodHealth) : PodHealth := { h with takeover := h.takeover.map (fun x => (max x.1 (tick + 640), x.2)) }

/-- The state in which the Keeper is up again, before the releases that waited. -/
def State.rebooted (s : State) : State :=
  { s with
    fw := { s.fw with keeperUp := true, deferred := [], digestOk := if s.fw.restarting then false else s.fw.digestOk, delayed := s.fw.delayed || (s.fw.restarting && s.fw.delay != 0) }
    health := { s.health with pod := s.health.pod.map (PodHealth.again s.tick) } }

theorem State.keeperBack_of_down {s : State} (down : s.fw.keeperUp = false) : s.keeperBack = forAll s.fw.deferred State.releaseScope s.rebooted := by
  unfold State.keeperBack
  rw [down]
  rfl

theorem State.rebooted_keeps (s : State) : Keeps [.fw, .health] s s.rebooted :=
  ⟨rfl, fun p apart => by
      cases p
      case fw | health => exact absurd (by decide) apart
      all_goals exact Eq.refl _⟩

theorem State.rebooted_takeover {p : Pod} {x : Nat × Bool} {s : State} (h : s.rebooted.health.pod[p].takeover = some x) : s.tick + 640 ≤ x.1 := by
  have at_ : s.rebooted.health.pod[p] = PodHealth.again s.tick s.health.pod[p] := Vector.getElem_map ..
  rw [at_] at h
  obtain ⟨y, -, rfl⟩ := Option.map_eq_some_iff.mp h
  exact Nat.le_max_right ..

theorem releaseScopes_keeps (l : List (BitVec 128)) (s : State) : Keeps [.ch, .cal, .pod, .mbx, .abort, .free] s (forAll l State.releaseScope s) :=
  Keeps.forAll State.releaseScope State.releaseScope_keeps l (Keeps.refl _ s)

theorem State.releaseScope_of_high {scope : BitVec 128} {s : State} (high : s.abort.safeLow = false) : s.releaseScope scope = s.releaseAll scope := by
  unfold State.releaseScope
  rw [high]
  rfl

/-! ### The obligation -/

/-- The row begins a Watch restart with its cause and its core (R246, R286, R289). -/
def BeginsRestart (row : Instr) (cause : BitVec 4) (who : Nat) (s : State) : Prop :=
  ∃ t : State, exec row s = .next t ∧ Keeps [.eic, .mbx, .fw, .health, .sur, .free] s t ∧
    t.fw.restarting = true ∧ t.fw.state = 2 ∧ t.fw.cause = cause ∧ t.fw.core.toNat = who ∧ t.fw.rstLt = s.time.lt ∧ t.fw.alive = s.fw.alive ∧ t.fw.restarts = s.fw.restarts ∧
    t.fw.delay = (match s.fw.lastDone with | none => 0 | some d => if d + 12800000000 < s.time.lt then 0 else if s.fw.delay = 0 then 40 else min 1280 (2 * s.fw.delay)) ∧ (t.fw.delayed = true ↔ t.fw.delay ≠ 0) ∧
    t.health.sum.get 3 = true ∧ (∀ m : Mbx, t.mbx[m].owner = if 2 ≤ s.mbx[m].owner ∧ s.mbx[m].owner ≤ 5 then 0 else s.mbx[m].owner) ∧
    (∀ u : Tgt, t.eic.tgt[u] = if 1 ≤ u.val ∧ u.val ≤ 4 then { s.eic.tgt[u] with stack := [], thr := 15, offered := none } else s.eic.tgt[u]) ∧ t.sur.running = false

/-- A restart that begins once an access, or nothing, has been recorded. -/
theorem beginsRestart {row : Instr} {cause : BitVec 4} {core : Fin 4} {s u : State} (run : exec row s = .next (u.restartBegin cause (BitVec.ofNat 3 (core.val + 1)))) (noted : Keeps [.fw, .health] s u)
    (fw : u.fw = { s.fw with viols := u.fw.viols }) (idle : s.fw.restarting = false) (up : s.fw.keeperUp = true) : BeginsRestart row cause (core.val + 1) s := by
  have idleU : u.fw.restarting = false := by rw [fw]; exact idle
  have upU : u.fw.keeperUp = true := by rw [fw]; exact up
  have time : u.time = s.time := noted.2 .time (by decide)
  have mbx : u.mbx = s.mbx := noted.2 .mbx (by decide)
  have eic : u.eic = s.eic := noted.2 .eic (by decide)
  have delay : nextDelay u.fw u.time.lt = (match s.fw.lastDone with | none => 0 | some d => if d + 12800000000 < s.time.lt then 0 else if s.fw.delay = 0 then 40 else min 1280 (2 * s.fw.delay)) := by
    rw [nextDelay_eq, time, fw]
  obtain ⟨keeps, fwT, sum, owner, tgt, running⟩ := State.restartBegin_restarts cause (BitVec.ofNat 3 (core.val + 1)) idleU upU
  refine ⟨_, run, (noted.mono (by decide)).trans keeps, ?_⟩
  generalize u.restartBegin cause (BitVec.ofNat 3 (core.val + 1)) = t at *
  rw [fwT]
  refine ⟨rfl, rfl, rfl, coreNo core, congrArg Time.lt time, ?_, ?_, delay, bne_iff_ne, sum, ?_, ?_, running⟩
  · show u.fw.alive = s.fw.alive
    rw [fw]
  · show u.fw.restarts = s.fw.restarts
    rw [fw]
  · rw [mbx] at owner
    exact owner
  · rw [eic] at tgt
    exact tgt

/-- Settles O50: refused accesses, heartbeats, restarts and the Keeper's reboot. -/
theorem watchAndKeeper : Obligations.WatchAndKeeper := by
  unfold Obligations.WatchAndKeeper
  intro core s
  refine ⟨fun store a => ⟨fun few => ?_, fun many ready idle up => ?_⟩, ?_, ?_, ?_, ?_, ?_, ?_, fun ok fl => ⟨?_, fun restarting state up => ?_⟩, ?_, ?_, ?_, ?_, rfl, ?_, ?_⟩
  · obtain ⟨address, side, who⟩ := violWord_fields core store a
    have only : exec (.watchViolation core store a) s = .next (s.violNoted core store a) := by
      refine congrArg Host.Outcome.next ((State.watchViol_eq core store a s).trans ?_)
      cases on : decide (16 < (s.fw.recentViols s.time.lt).length + 1) && s.fw.ready
      · rfl
      · obtain ⟨many, ready⟩ := (Bool.and_eq_true _ _).mp on
        have lots := of_decide_eq_true many
        refine State.restartBegin_of_busy _ _ (.inl ?_)
        rcases few with k | k | k
        · exact absurd lots (Nat.not_lt.mpr (Nat.succ_le_of_lt k))
        · exact Bool.noConfusion (k.symm.trans ready)
        · exact k
    exact ⟨_, only, s.violNoted_keeps core store a, rfl, (State.hsum_get 14 14 s).trans (Bool.or_eq_true_iff.mpr (.inr (by decide))), address, side, who⟩
  · have run : exec (.watchViolation core store a) s = .next ((s.violNoted core store a).restartBegin 4 (BitVec.ofNat 3 (core.val + 1))) := by
      refine congrArg Host.Outcome.next ((State.watchViol_eq core store a s).trans ?_)
      have more : 16 < (s.fw.recentViols s.time.lt).length + 1 := Nat.lt_succ_of_le many
      rw [decide_eq_true more, ready]
      rfl
    exact beginsRestart run (s.violNoted_keeps core store a) rfl idle up
  · exact fun stands => congrArg Host.Outcome.next (if_pos (by rw [Bool.eq_false_iff.mpr fun on => stands ((fwRuns_iff s).mp on)]; rfl))
  · intro runs
    refine ⟨_, congrArg Host.Outcome.next (if_neg (by rw [(fwRuns_iff s).mpr runs]; decide)), Keeps.setFw s _, fun c => getLsbD_beat _ core c, ?_, Vector.getElem_set_self .., rfl⟩
    refine if_congr ?_ rfl rfl
    rw [Bool.and_eq_true, beq_iff_eq, bne_iff_ne]
    exact and_comm
  · exact fun early => congrArg Host.Outcome.next (if_neg fun on => by
      obtain ⟨runs, due⟩ := (Bool.and_eq_true _ _).mp on
      exact early.elim (fun k => k ((fwRuns_iff s).mp runs)) (Nat.not_lt.mpr (of_decide_eq_true due)))
  · intro runs due up
    exact beginsRestart (congrArg Host.Outcome.next (if_pos ((Bool.and_eq_true _ _).mpr ⟨(fwRuns_iff s).mpr runs, decide_eq_true due⟩))) (Keeps.refl _ s) rfl runs.2.1 up
  · exact fun stands => congrArg Host.Outcome.next (if_neg fun on => stands ((fwRuns_iff s).mp on))
  · exact fun runs up => beginsRestart (congrArg Host.Outcome.next (if_pos ((fwRuns_iff s).mpr runs))) (Keeps.refl _ s) rfl runs.2.1 up
  · exact fun idle => congrArg Host.Outcome.next (State.digestCheck_of_idle idle)
  · have run : exec (.codeDigestCheck ok fl) s = .next _ := congrArg Host.Outcome.next (State.digestCheck_of_due restarting state up)
    cases ok
    · cases fl
      · exact ⟨_, run, ((Keeps.setFw s _).mono (by decide)).step (State.hsum_keeps 12 _) (by decide), fun k => k.elim (nomatch ·) (nomatch ·), fun _ _ =>
          ⟨rfl, (State.hsum_get 12 12 _).trans (Bool.or_eq_true_iff.mpr (.inr (by decide)))⟩⟩
      · exact ⟨_, run, (Keeps.setFw s _).mono (by decide), fun _ => ⟨by rw [Bool.not_false, Bool.or_true]; rfl, rfl⟩, fun _ => (nomatch ·)⟩
    · exact ⟨_, run, (Keeps.setFw s _).mono (by decide), fun _ => ⟨by rw [Bool.not_true, Bool.or_false]; rfl, rfl⟩, (nomatch ·)⟩
  · exact fun early => congrArg Host.Outcome.next (if_neg fun on => by
      obtain ⟨delayed, due⟩ := (Bool.and_eq_true _ _).mp on
      have past := of_decide_eq_true due
      exact early.elim (fun k => Bool.noConfusion (k.symm.trans delayed)) (fun k => by omega))
  · exact fun delayed due => congrArg Host.Outcome.next (if_pos ((Bool.and_eq_true _ _).mpr ⟨delayed, decide_eq_true (by omega)⟩))
  · exact fun early => congrArg Host.Outcome.next (State.restartComplete_of_early (by
      rintro ⟨restarting, state, digest, delayed, up⟩
      simp [restarting, state, digest, delayed, up] at early))
  · intro restarting state digest delayed up
    have told := State.notice_keeps 7 [] ((({ s with fw := s.fw.completed s.time.lt s.tick } : State).hsum 4))
    refine ⟨_, congrArg Host.Outcome.next (State.restartComplete_of_due ⟨restarting, state, digest, delayed, up⟩),
      (((Keeps.setFw s (s.fw.completed s.time.lt s.tick)).mono (by decide)).step (State.hsum_keeps 4 _) (by decide)).step told (by decide), ?_, ?_⟩
    · rw [show State.fw _ = _ from told.2 .fw (by decide)]
      rfl
    · rw [show State.health _ = _ from told.2 .health (by decide)]
      exact (State.hsum_get 4 4 _).trans (Bool.or_eq_true_iff.mpr (.inr (by decide)))
  · exact fun up => congrArg Host.Outcome.next (if_pos up)
  · intro down
    have released := releaseScopes_keeps s.fw.deferred s.rebooted
    have fw : (forAll s.fw.deferred State.releaseScope s.rebooted).fw = s.rebooted.fw := released.2 .fw (by decide)
    have health : (forAll s.fw.deferred State.releaseScope s.rebooted).health = s.rebooted.health := released.2 .health (by decide)
    refine ⟨_, congrArg Host.Outcome.next (State.keeperBack_of_down down), ((s.rebooted_keeps).mono (by decide)).step released (by decide), ?_, ?_, ?_, ?_, ?_, ?_, ?_⟩
    · rw [fw]; rfl
    · rw [fw]; rfl
    · rw [fw]; rfl
    · intro restarting
      rw [fw]
      refine ⟨if_pos restarting, fun delay => ?_⟩
      show (s.fw.delayed || (s.fw.restarting && s.fw.delay != 0)) = true
      rw [restarting, bne_iff_ne.mpr delay, Bool.and_self, Bool.or_true]
    · intro none
      rw [none]
      exact ⟨rfl, rfl⟩
    · intro p x takeover
      rw [health] at takeover
      exact State.rebooted_takeover takeover
    · intro v n one high
      rw [one]
      show (s.rebooted.releaseScope v).ch[n].aborted = _
      rw [State.releaseScope_of_high (s := s.rebooted) high, State.releaseAll_aborted]
      rfl

end Sys2Proof.Machine
end

section
/-!
PROOF of the obligation on aborts, releases and SAFE_n (O49).
-/
namespace Sys2Proof.Machine

/-! ### What stays of a channel while its matches are applied -/

/-- Only channel n changes, and its abort does not. -/
structure AbortKept (n : Ch) (s t : State) : Prop where
  only : OnlyCh n s t
  aborted : t.ch[n].aborted = s.ch[n].aborted
  safeFrom : t.ch[n].safeFrom = s.ch[n].safeFrom

theorem AbortKept.refl (n : Ch) (s : State) : AbortKept n s s := ⟨OnlyCh.refl n s, rfl, rfl⟩

theorem AbortKept.trans {n : Ch} {s t u : State} (h : AbortKept n s t) (k : AbortKept n t u) : AbortKept n s u :=
  ⟨h.only.trans k.only, k.aborted.trans h.aborted, k.safeFrom.trans h.safeFrom⟩

theorem AbortKept.modCh {n : Ch} {f : Channel → Channel} {s : State} (aborted : (f s.ch[n]).aborted = s.ch[n].aborted) (safeFrom : (f s.ch[n]).safeFrom = s.ch[n].safeFrom) :
    AbortKept n s (s.modCh n f) := by
  refine ⟨State.modCh_onlyCh n f s, ?_, ?_⟩ <;> rw [State.modCh_ch_same]
  · exact aborted
  · exact safeFrom

theorem AbortKept.of_ch {n : Ch} {s t : State} (h : t.ch = s.ch) : AbortKept n s t := by
  refine ⟨fun k _ => ?_, ?_, ?_⟩ <;> rw [h]

theorem AbortKept.when {n : Ch} {s : State} {f : State → State} (b : Bool) (h : AbortKept n s (f s)) : AbortKept n s (s.when b f) := by
  cases b
  · exact .refl n s
  · exact h

theorem State.act_abortKept (t frac code : Nat) (param : W) (n : Ch) (s : State) : AbortKept n s (s.act t frac code param n) := by
  obtain ⟨only, same⟩ := State.act_same t frac code param n s
  refine ⟨only, ?_, ?_⟩ <;> rw [same]

theorem State.fire_abortKept (t : Nat) (u : Unit4) (set : CmpSet) (late : Bool) (n : Ch) (s : State) : AbortKept n s (s.fire t u set late n) := by
  have told (p : Pod) (o : Outcome) (r : State) : AbortKept n r (r.outcome p o) := .of_ch rfl
  have passed (p : Pod) (e : Ev) (r : State) : AbortKept n r (r.modPod p (PodSt.pass e)) := .of_ch rfl
  have matched (x : Nat) : AbortKept n s (s.modCh n (fun c => (c.trainBefore x).matched t u set late)) := by
    have before := Channel.trainTo_same x (max 1 s.ch[n].out.train.left) s.ch[n]
    have same : s.ch[n].trainBefore x = s.ch[n].trainTo x (max 1 s.ch[n].out.train.left) := rfl
    refine .modCh ?_ ?_ <;> rw [Channel.matched_eq, same, before]
  unfold State.fire
  dsimp only
  split
  · split
    · exact .modCh rfl rfl
    · exact (AbortKept.modCh rfl rfl).trans (told _ _ _)
  · split
    · exact (matched _).trans (.when _ (State.act_abortKept ..))
    · exact (((matched _).trans (.when _ (State.act_abortKept ..))).trans (passed _ _ _)).trans (told _ _ _)

theorem State.applyMatches_abortKept (n : Ch) (s : State) : AbortKept n s (s.applyMatches n) := by
  unfold State.applyMatches
  refine forAll_induction (fun x _ r h => ?_) ?_
  · refine h.trans ?_
    unfold State.applyMatch
    exact AbortKept.trans (.modCh rfl rfl) (State.fire_abortKept ..)
  · refine ⟨State.countNow_onlyCh n s, ?_, ?_⟩ <;> rw [State.countNow_ch_same, Channel.count_same]

/-! ### The end of a Pip's hold (R97) -/

/-- The channel stops, or stays stopped, alike. -/
structure SameStop (c d : Channel) : Prop where
  aborted : d.aborted = c.aborted
  safeFrom : d.safeFrom = c.safeFrom
  rfx : d.rfx = c.rfx
  unit : d.unit = c.unit
  run : d.pip.run = c.pip.run

theorem SameStop.refl (c : Channel) : SameStop c c := ⟨rfl, rfl, rfl, rfl, rfl⟩

theorem SameStop.trans {c d e : Channel} (h : SameStop c d) (k : SameStop d e) : SameStop c e :=
  ⟨k.aborted.trans h.aborted, k.safeFrom.trans h.safeFrom, k.rfx.trans h.rfx, k.unit.trans h.unit, k.run.trans h.run⟩

theorem Channel.change_sameStop (x : Nat) (upd : OutStage → OutStage) (c : Channel) : SameStop c (c.change x upd) := by
  unfold Channel.change Channel.settleMerge
  dsimp only
  split <;> exact ⟨rfl, rfl, rfl, rfl, rfl⟩

theorem State.releaseTier_sameStop (t : Nat) (n k : Ch) (s : State) : SameStop s.ch[k] (s.releaseTier t n).ch[k] := by
  unfold State.releaseTier
  refine forAll_induction (P := fun u : State => SameStop s.ch[k] u.ch[k]) (fun m _ u h => ?_) (.refl _)
  refine h.trans ?_
  by_cases e : k = m
  · subst e
    rw [State.modCh_ch_same]
    exact Channel.change_sameStop ..
  · rw [State.modCh_ch_other u m k _ e]
    exact .refl _

/-- A halt stops the engine of its channel, and leaves what another channel's abort looks at. -/
theorem State.pipHalt_stops (t : Nat) (why : BitVec 3) (resumable release : Bool) (n : Ch) (s : State) :
    (s.pipHalt t why resumable release n).ch[n].pip.run = false ∧ (s.pipHalt t why resumable release n).ch[n].aborted = s.ch[n].aborted ∧
    (s.pipHalt t why resumable release n).ch[n].safeFrom = s.ch[n].safeFrom ∧ ∀ k : Ch, k ≠ n → SameStop s.ch[k] (s.pipHalt t why resumable release n).ch[k] := by
  have halted := State.pipHalt_pip t why resumable release n s
  refine ⟨by rw [halted, Pip.halted_run], ?_⟩
  unfold State.pipHalt
  dsimp only
  have own := State.modPip_ch_same n (fun p => ((p.settle t).noteStalls t).halted t why resumable) s
  have others := State.modPip_onlyCh n (fun p => ((p.settle t).noteStalls t).halted t why resumable) s
  generalize s.modPip n (fun p => ((p.settle t).noteStalls t).halted t why resumable) = u at own others
  have kept (k : Ch) (b : Bool) : SameStop u.ch[k] (u.when b (State.releaseTier t n)).ch[k] := by
    cases b
    · exact .refl _
    · exact State.releaseTier_sameStop t n k u
  refine ⟨(kept n _).aborted.trans (by rw [own]), (kept n _).safeFrom.trans (by rw [own]), fun k apart => ?_⟩
  rw [← others k apart]
  exact kept k _

/-! ### The abort of one channel (R69, R279) -/

/-- The channel is stopped by an abort that shows SAFE from tick safe on. -/
structure Stopped (safe : Nat) (c d : Channel) : Prop where
  aborted : d.aborted = true
  safeFrom : c.aborted = false → d.safeFrom = safe
  rfx : d.rfx.armed = false
  unit : ∀ u : Unit4, d.unit[u].live = false ∧ d.unit[u].shadow = false
  run : d.pip.run = false

theorem Channel.settleMerge_sameStop (x : Nat) (c : Channel) : SameStop c (c.settleMerge x) := by
  unfold Channel.settleMerge
  split <;> exact ⟨rfl, rfl, rfl, rfl, rfl⟩

/-- What an abort leaves of the stage and the status of a channel. -/
def Channel.aborting (safe : Nat) (c d : Channel) : Channel := { c with
  aborted := true, safeFrom := if d.aborted then min d.safeFrom safe else safe
  unit := c.unit.map (fun u => { u with live := false, shadow := false, owner := false, ev := none, hit := none })
  rfx := { c.rfx with armed := false, pend := [] } }

theorem Channel.abort_eq (t safe : Nat) (cut : Bool) (c : Channel) : c.abort t safe cut =
    if cut then (((c.settleMerge 0).endTrain t false).aborting safe c).cutPipe (((c.settleMerge 0).endTrain t false).aborting safe c).safeIntended else ((c.settleMerge 0).endTrain t false).aborting safe c := rfl

theorem Channel.aborting_stopped {safe : Nat} {c d : Channel} (run : c.pip.run = false) : Stopped safe d (c.aborting safe d) := by
  refine ⟨rfl, fun fresh => if_neg (by rw [fresh]; exact Bool.false_ne_true), rfl, fun u => ?_, run⟩
  have at_ : (c.aborting safe d).unit[u] = { c.unit[u] with live := false, shadow := false, owner := false, ev := none, hit := none } := Vector.getElem_map ..
  rw [at_]
  exact ⟨rfl, rfl⟩

theorem Channel.abort_stopped (t safe : Nat) (cut : Bool) (c : Channel) (run : c.pip.run = false) : Stopped safe c (c.abort t safe cut) := by
  have settled : ((c.settleMerge 0).endTrain t false).pip.run = false := (c.settleMerge_sameStop 0).run.trans run
  have stopped := Channel.aborting_stopped (safe := safe) (d := c) settled
  rw [Channel.abort_eq]
  cases cut
  · exact stopped
  · exact ⟨stopped.aborted, stopped.safeFrom, stopped.rfx, stopped.unit, stopped.run⟩

theorem Stopped.of_sameStop {safe : Nat} {c d e : Channel} (h : Stopped safe c d) (k : SameStop d e) : Stopped safe c e :=
  ⟨k.aborted.trans h.aborted, fun fresh => k.safeFrom.trans (h.safeFrom fresh), by rw [k.rfx]; exact h.rfx, fun u => by rw [k.unit]; exact h.unit u, k.run.trans h.run⟩

/-- An abort of channel n stops it, and leaves what is stopped of the others. -/
theorem State.abortCh_stops (safe : Nat) (cut : Bool) (n : Ch) (s : State) :
    Stopped safe s.ch[n] (s.abortCh safe cut n).ch[n] ∧ ∀ k : Ch, k ≠ n → SameStop s.ch[k] (s.abortCh safe cut n).ch[k] := by
  have applied := State.applyMatches_abortKept n s
  unfold State.abortCh
  extract_lets s1 s2
  have first : s1.ch = (s.applyMatches n).ch := (State.unarm_keeps n _).2 .ch (by decide)
  obtain ⟨run, aborted, safeFrom, others⟩ := State.pipHalt_stops s1.tw 3 false true n s1
  have second : s2.ch = (s1.pipHalt s1.tw 3 false true n).ch := by
    have halted := (State.haltEmul_keeps n (s1.pipHalt s1.tw 3 false true n)).2 .ch (by decide)
    have measured : s2.ch = ((s1.pipHalt s1.tw 3 false true n).haltEmul n).ch := (State.measStop_keeps n ((s1.pipHalt s1.tw 3 false true n).haltEmul n)).2 .ch (by decide)
    exact measured.trans halted
  clear_value s1
  clear_value s2
  have last : ((s2.modCh n (Channel.abort s2.tw safe cut)).endShadow n).ch = (s2.modCh n (Channel.abort s2.tw safe cut)).ch := (State.endShadow_keeps n _).2 .ch (by decide)
  rw [last]
  refine ⟨?_, fun k apart => ?_⟩
  · have stopped := Channel.abort_stopped s2.tw safe cut s2.ch[n] (by rw [second]; exact run)
    rw [State.modCh_ch_same]
    refine ⟨stopped.aborted, fun fresh => stopped.safeFrom ?_, stopped.rfx, stopped.unit, stopped.run⟩
    rw [second, aborted, first, applied.aborted, fresh]
  · rw [State.modCh_ch_other s2 n k _ apart, second, ← applied.only k apart, ← first]
    exact others k apart

/-- An abort of a list of channels stops them, and leaves what is stopped of the others. -/
theorem State.abortScope_stops {scope : List Ch} (once : scope.Nodup) (safe : Nat) (cut : Bool) (s : State) (k : Ch) :
    (k ∈ scope → Stopped safe s.ch[k] (s.abortScope scope safe cut).ch[k]) ∧ (k ∉ scope → SameStop s.ch[k] (s.abortScope scope safe cut).ch[k]) := by
  have ch : (s.abortScope scope safe cut).ch = (forAll scope (State.abortCh safe cut) s).ch := rfl
  rw [ch]
  clear ch
  unfold forAll
  induction scope generalizing s with
  | nil => exact ⟨(nomatch ·), fun _ => .refl _⟩
  | cons n scope ih =>
    obtain ⟨notIn, once'⟩ := List.nodup_cons.mp once
    obtain ⟨inside, outside⟩ := ih once' (s.abortCh safe cut n)
    obtain ⟨own, others⟩ := State.abortCh_stops safe cut n s
    rw [List.foldl_cons]
    by_cases e : k = n
    · subst e
      exact ⟨fun _ => own.of_sameStop (outside notIn), fun apart => absurd List.mem_cons_self apart⟩
    · refine ⟨fun mem => ?_, fun apart => (others k e).trans (outside fun later => apart (List.mem_cons_of_mem n later))⟩
      obtain ⟨aborted, safeFrom, rfx, unit, run⟩ := inside ((List.mem_cons.mp mem).resolve_left e)
      exact ⟨aborted, fun fresh => safeFrom ((others k e).aborted.trans fresh), rfx, unit, run⟩

/-- What an abort does besides the channels. -/
theorem State.abortScope_rest (scope : List Ch) (safe : Nat) (cut : Bool) (s : State) :
    (s.abortScope scope safe cut).time = s.time ∧ (s.abortScope scope safe cut).abort = { s.abort with lt := (s.tick + 1) * 32, going := s.abort.going + 1 } ∧
    (s.abortScope scope safe cut).guar.flags.get 4 = true := by
  have stopped := Keeps.forAll (State.abortCh safe cut) (State.abortCh_keeps safe cut) scope (Keeps.refl _ s)
  unfold State.abortScope
  dsimp only
  generalize forAll scope (State.abortCh safe cut) s = u at stopped
  have time : u.time = s.time := stopped.2 .time (by decide)
  have abort : u.abort = s.abort := stopped.2 .abort (by decide)
  have tick : u.tick = s.tick := stopped.tick (by decide)
  refine ⟨time, ?_, (Sticky.get_raise ..).trans (Bool.or_eq_true_iff.mpr (.inr (by decide)))⟩
  show { u.abort with lt := (u.tick + 1) * 32, going := u.abort.going + 1 } = _
  rw [abort, tick]

/-! ### Scopes (R277) -/

theorem getLsbD_chBit (m n : Ch) : (BitVec.ofNat 128 (2 ^ m.val)).getLsbD n.val = decide (n = m) := by
  rw [BitVec.getLsbD_ofNat, Nat.testBit_two_pow, decide_eq_true n.isLt, Bool.true_and]
  exact decide_eq_decide.mpr ⟨fun e => Fin.ext e.symm, fun e => congrArg Fin.val e.symm⟩

theorem has_setOf (l : List Ch) (n : Ch) : has (setOf l) n = decide (n ∈ l) := by
  have from_ (v : BitVec 128) : has (l.foldl (fun v n => v ||| BitVec.ofNat 128 (2 ^ n.val)) v) n = (has v n || decide (n ∈ l)) := by
    induction l generalizing v with
    | nil => simp
    | cons m l ih =>
      have one : has (v ||| BitVec.ofNat 128 (2 ^ m.val)) n = (has v n || decide (n = m)) := by rw [has, BitVec.getLsbD_or, getLsbD_chBit]; rfl
      rw [List.foldl_cons, ih, one, Bool.or_assoc]
      simp [List.mem_cons]
  rw [setOf, from_]
  simp [has]

/-- SCOPE names channel n. -/
def inScope (w : W) (s : State) (n : Ch) : Bool :=
  match fld w 4 2 with
  | 0 => true
  | 1 => bit s.abort.podMask (podOf n).val
  | 2 => bit s.abort.chMask[(⟨n.val / 32 % 4, by omega⟩ : Fin 4)] (n.val % 32)
  | _ => false

theorem mem_scopeOf (w : W) (s : State) (n : Ch) : n ∈ scopeOf (fld w 4 2) s ↔ inScope w s n = true := by
  unfold scopeOf inScope
  generalize fld w 4 2 = sc
  rcases sc with _ | _ | _ | sc <;> simp [allChs]

theorem scopeOf_nodup (sc : Nat) (s : State) : (scopeOf sc s).Nodup := by
  unfold scopeOf
  split
  · exact List.nodup_finRange 128
  · exact (List.nodup_finRange 128).filter _
  · exact (List.nodup_finRange 128).filter _
  · exact List.nodup_nil

theorem scopeOf_isEmpty (w : W) (s : State) : (scopeOf (fld w 4 2) s).isEmpty = true ↔ ∀ n : Ch, inScope w s n = false := by
  rw [List.isEmpty_iff, List.eq_nil_iff_forall_not_mem]
  exact forall_congr' fun n => by rw [mem_scopeOf, Bool.not_eq_true]

theorem has_scope (w : W) (s : State) (n : Ch) : has (setOf (scopeOf (fld w 4 2) s)) n = inScope w s n := by
  rw [has_setOf]
  cases e : inScope w s n
  · exact decide_eq_false fun mem => Bool.noConfusion (((mem_scopeOf w s n).mp mem).symm.trans e)
  · exact decide_eq_true ((mem_scopeOf w s n).mpr e)

/-! ### Purges (R282) -/

/-- No event of channel n is left in the calendar or staged. -/
structure NoEvents (n : Ch) (s : State) : Prop where
  held : ∀ e ∈ s.cal.wheel ++ s.cal.ovfl ++ s.pod[podOf n].staging, e.rec_.ch ≠ n
  pos : ∀ x ∈ s.cal.pos, x.ev.rec_.ch ≠ n

/-- A step that only takes events away. -/
structure FewerEvents (s t : State) : Prop where
  wheel : t.cal.wheel ⊆ s.cal.wheel
  ovfl : t.cal.ovfl ⊆ s.cal.ovfl
  staging : ∀ p : Pod, t.pod[p].staging ⊆ s.pod[p].staging
  pos : ∀ x ∈ t.cal.pos, ∃ y ∈ s.cal.pos, y.ev = x.ev

theorem FewerEvents.refl (s : State) : FewerEvents s s := ⟨List.Subset.refl _, List.Subset.refl _, fun _ => List.Subset.refl _, fun x mem => ⟨x, mem, rfl⟩⟩

theorem FewerEvents.trans {s t u : State} (h : FewerEvents s t) (k : FewerEvents t u) : FewerEvents s u where
  wheel := List.Subset.trans k.wheel h.wheel
  ovfl := List.Subset.trans k.ovfl h.ovfl
  staging p := List.Subset.trans (k.staging p) (h.staging p)
  pos x mem := by
    obtain ⟨y, memY, evY⟩ := k.pos x mem
    obtain ⟨z, memZ, evZ⟩ := h.pos y memY
    exact ⟨z, memZ, evZ.trans evY⟩

theorem FewerEvents.of_keeps {l : List Part} {s t : State} (h : Keeps l s t) (cal : Part.cal ∉ l) (pod : Part.pod ∉ l) : FewerEvents s t := by
  have calT : t.cal = s.cal := h.2 .cal cal
  have podT : t.pod = s.pod := h.2 .pod pod
  have same := FewerEvents.refl s
  exact ⟨by rw [calT]; exact same.wheel, by rw [calT]; exact same.ovfl, by rw [podT]; exact same.staging, by rw [calT]; exact same.pos⟩

theorem NoEvents.mono {n : Ch} {s t : State} (h : NoEvents n s) (k : FewerEvents s t) : NoEvents n t where
  held e mem := h.held e (by
    rw [List.mem_append, List.mem_append] at mem ⊢
    exact mem.imp (Or.imp (fun a => k.wheel a) (fun a => k.ovfl a)) (fun a => k.staging (podOf n) a))
  pos x mem := by
    obtain ⟨y, memY, ev⟩ := k.pos x mem
    exact ev ▸ h.pos y memY

/-- The pod without channel n's events. -/
def PodSt.purged (n : Ch) (q : PodSt) : PodSt :=
  { q with staging := q.staging.filter (fun e => !(e.rec_.ch == n)), spill := q.spill.filter (fun e => !(e.rec_.ch == n)), fast := q.fast.filter (fun e => !(e.rec_.ch == n)), commits := q.commits.filter (fun e => !(e.rec_.ch == n)) }

/-- The calendar without channel n's events. -/
def Calendar.purged (n : Ch) (x : Calendar) : Calendar :=
  { x with wheel := x.wheel.filter (fun e => !(e.rec_.ch == n)), ovfl := x.ovfl.filter (fun e => !(e.rec_.ch == n)), pos := x.pos.filter (fun x => !(x.ev.rec_.ch == n)) }

theorem State.purgeCh_eq (n : Ch) (s : State) : ∃ k : Nat, (s.purgeCh n).1 = (({ s with cal := s.cal.purged n } : State).modPod (podOf n) (PodSt.purged n)).freeSlots k := ⟨_, rfl⟩

theorem State.purgeCh_events (n : Ch) (s : State) : NoEvents n (s.purgeCh n).1 ∧ FewerEvents s (s.purgeCh n).1 := by
  obtain ⟨k, purged⟩ := State.purgeCh_eq n s
  have pod (p : Pod) : (s.purgeCh n).1.pod[p] = (({ s with cal := s.cal.purged n } : State).modPod (podOf n) (PodSt.purged n)).pod[p] := by rw [purged]; rfl
  have own : (s.purgeCh n).1.pod[podOf n] = PodSt.purged n s.pod[podOf n] := (pod _).trans (State.modPod_pod_same ..)
  have gone {e : Ev} {l : List Ev} (mem : e ∈ l.filter (fun e => !(e.rec_.ch == n))) : e.rec_.ch ≠ n := by
    have keep := (List.mem_filter.mp mem).2
    rw [Bool.not_eq_true', beq_eq_false_iff_ne] at keep
    exact keep
  refine ⟨⟨fun e mem => ?_, fun x mem => ?_⟩, ⟨?_, ?_, fun p => ?_, fun x mem => ?_⟩⟩
  · rw [own, purged, List.mem_append, List.mem_append] at mem
    rcases mem with (mem | mem) | mem <;> exact gone mem
  · rw [purged] at mem
    have keep := (List.mem_filter.mp mem).2
    rw [Bool.not_eq_true', beq_eq_false_iff_ne] at keep
    exact keep
  · rw [purged]; exact List.filter_subset_self _
  · rw [purged]; exact List.filter_subset_self _
  · by_cases e : p = podOf n
    · subst e
      rw [own]
      exact List.filter_subset_self _
    · rw [pod, State.modPod_pod_other _ (podOf n) p _ e]
      exact List.Subset.refl _
  · rw [purged] at mem
    exact ⟨x, List.mem_of_mem_filter mem, rfl⟩

/-- The state with channel n's purge of k events counted. -/
def State.purgeCounted (n : Ch) (k : Nat) (s : State) : State :=
  { s with abort := { s.abort with purge := s.abort.purge &&& ~~~BitVec.ofNat 128 (2 ^ n.val), purged := s.abort.purged.bump s.tick k 0xFFFFFFFF } }

theorem State.purgeCounted_keeps (n : Ch) (k : Nat) (s : State) : Keeps [.abort] s (s.purgeCounted n k) := Keeps.setAbort s _

theorem State.purge_of_marked {n : Ch} {s : State} (marked : has s.abort.purge n = true) :
    s.purge n = ((s.purgeCh n).1.purgeCounted n (s.purgeCh n).2).notice 0 (leBytes 4 n.val ++ leBytes 4 (s.purgeCh n).2) := by
  unfold State.purge
  rw [if_pos marked]
  generalize s.purgeCh n = r
  rfl

theorem State.purge_of_unmarked {n : Ch} {s : State} (unmarked : ¬ has s.abort.purge n = true) : s.purge n = s := if_neg unmarked

/-- The purge of channel n, where it is marked for one. -/
theorem State.purge_spec (n : Ch) (s : State) : (has s.abort.purge n = true → NoEvents n (s.purge n)) ∧ FewerEvents s (s.purge n) ∧
    ∀ k : Ch, has (s.purge n).abort.purge k = (has s.abort.purge k && !decide (k = n)) := by
  by_cases marked : has s.abort.purge n = true
  · obtain ⟨none, fewer⟩ := State.purgeCh_events n s
    have kept : (s.purgeCh n).1.abort = s.abort := (State.purgeCh_keeps n s).2 .abort (by decide)
    rw [State.purge_of_marked marked]
    generalize (s.purgeCh n).1 = u at none fewer kept
    generalize (s.purgeCh n).2 = k
    have noted := FewerEvents.of_keeps (u.purgeCounted_keeps n k) (by decide) (by decide)
    have told := State.notice_keeps 0 (leBytes 4 n.val ++ leBytes 4 k) (u.purgeCounted n k)
    refine ⟨fun _ => (none.mono noted).mono (.of_keeps told (by decide) (by decide)), (fewer.trans noted).trans (.of_keeps told (by decide) (by decide)), fun j => ?_⟩
    rw [show State.abort _ = (u.purgeCounted n k).abort from told.2 .abort (by decide)]
    show (u.abort.purge &&& ~~~BitVec.ofNat 128 (2 ^ n.val)).getLsbD j.val = _
    rw [kept, BitVec.getLsbD_and, BitVec.getLsbD_not, getLsbD_chBit, decide_eq_true j.isLt, Bool.true_and]
    rfl
  · rw [State.purge_of_unmarked marked]
    refine ⟨fun on => absurd on marked, .refl s, fun k => ?_⟩
    by_cases e : k = n
    · subst e
      rw [Bool.eq_false_iff.mpr marked]
      rfl
    · rw [decide_eq_false e, Bool.not_false, Bool.and_true]

/-- The purges of a list of channels. -/
theorem forAll_purge (l : List Ch) (s : State) : (∀ n ∈ l, has s.abort.purge n = true → NoEvents n (forAll l State.purge s)) ∧ FewerEvents s (forAll l State.purge s) ∧
    ∀ k : Ch, has (forAll l State.purge s).abort.purge k = (has s.abort.purge k && !decide (k ∈ l)) := by
  unfold forAll
  induction l generalizing s with
  | nil => exact ⟨fun _ mem => (nomatch mem), .refl s, fun k => by simp⟩
  | cons m l ih =>
    obtain ⟨clears, fewer, marks⟩ := ih (s.purge m)
    obtain ⟨clear, less, mark⟩ := State.purge_spec m s
    rw [List.foldl_cons]
    refine ⟨fun n mem marked => ?_, less.trans fewer, fun k => ?_⟩
    · by_cases e : n = m
      · subst e
        exact (clear marked).mono fewer
      · exact clears n ((List.mem_cons.mp mem).resolve_left e) (by rw [mark, marked, decide_eq_false e]; rfl)
    · rw [marks, mark, Bool.and_assoc, ← Bool.not_or]
      simp only [List.mem_cons, Bool.decide_or]

/-- A scope has been released: its aborts are over, and what was marked is purged. -/
structure Freed (scope : BitVec 128) (s t : State) : Prop where
  keeps : Keeps [.ch, .cal, .pod, .mbx, .abort, .free] s t
  rest : t.abort.going = s.abort.going ∧ t.abort.flags = s.abort.flags ∧ t.abort.relPend = s.abort.relPend
  aborted : ∀ n : Ch, t.ch[n].aborted = (s.ch[n].aborted && !has scope n)
  safe : ∀ n : Ch, s.ch[n].aborted = true → has scope n = true → t.ch[n].safeHold = true ∧ t.ch[n].safeEnd = none
  purge : ∀ n : Ch, has t.abort.purge n = (has s.abort.purge n && !(s.ch[n].aborted && has scope n))
  events : ∀ n : Ch, s.ch[n].aborted = true → has scope n = true → has s.abort.purge n = true → NoEvents n t

theorem Channel.release_safe {c : Channel} (aborted : c.aborted = true) : c.release.safeHold = true ∧ c.release.safeEnd = none := by
  unfold Channel.release
  dsimp only
  rw [if_pos aborted]
  exact ⟨rfl, rfl⟩

/-- The fields of the abort registers that a purge leaves. -/
theorem State.purge_rest (n : Ch) (s : State) : (s.purge n).abort.going = s.abort.going ∧ (s.purge n).abort.flags = s.abort.flags ∧ (s.purge n).abort.relPend = s.abort.relPend := by
  by_cases marked : has s.abort.purge n = true
  · have kept : (s.purgeCh n).1.abort = s.abort := (State.purgeCh_keeps n s).2 .abort (by decide)
    rw [State.purge_of_marked marked]
    generalize (s.purgeCh n).1 = u at kept
    generalize (s.purgeCh n).2 = k
    have told := State.notice_keeps 0 (leBytes 4 n.val ++ leBytes 4 k) (u.purgeCounted n k)
    rw [show State.abort _ = (u.purgeCounted n k).abort from told.2 .abort (by decide), ← kept]
    exact ⟨rfl, rfl, rfl⟩
  · rw [State.purge_of_unmarked marked]
    exact ⟨rfl, rfl, rfl⟩

theorem forAll_purge_rest (l : List Ch) (s : State) : (forAll l State.purge s).abort.going = s.abort.going ∧ (forAll l State.purge s).abort.flags = s.abort.flags ∧
    (forAll l State.purge s).abort.relPend = s.abort.relPend :=
  forAll_induction (P := fun u => u.abort.going = s.abort.going ∧ u.abort.flags = s.abort.flags ∧ u.abort.relPend = s.abort.relPend)
    (fun n _ u h => ⟨((State.purge_rest n u).1).trans h.1, ((State.purge_rest n u).2.1).trans h.2.1, ((State.purge_rest n u).2.2).trans h.2.2⟩) ⟨rfl, rfl, rfl⟩

theorem State.keepHeads_fewer (k : Ax) (s : State) : FewerEvents s (s.keepHeads k) where
  wheel := List.Subset.refl _
  ovfl := List.Subset.refl _
  staging _ := List.Subset.refl _
  pos := State.keepHeads_ord k s

theorem forAll_keepHeads_fewer (l : List Ax) (s : State) : FewerEvents s (forAll l State.keepHeads s) :=
  forAll_induction (P := FewerEvents s) (fun k _ u h => h.trans (State.keepHeads_fewer k u)) (.refl s)

/-- The state of a release before its purges. -/
def State.unaborted (scope : BitVec 128) (s : State) : State :=
  forAll (abortedOf scope s) (fun n => State.modCh n Channel.release)
    (forAll (allPods.filter (fun p => (abortedOf scope s).any (fun n => podOf n == p))) (fun p => State.missAborted p s.tw) s)

theorem State.releaseAll_eq (scope : BitVec 128) (s : State) : s.releaseAll scope = forAll allAxes State.keepHeads (forAll (abortedOf scope s) State.purge (s.unaborted scope)) := rfl

theorem State.unaborted_abort (scope : BitVec 128) (s : State) : (s.unaborted scope).abort = s.abort := by
  have missed := Keeps.forAll (fun p => State.missAborted p s.tw) (fun p u => State.missAborted_keeps p s.tw u) (allPods.filter fun p => (abortedOf scope s).any fun n => podOf n == p) (Keeps.refl _ s)
  have released := Keeps.forAll (fun n => State.modCh n Channel.release) (fun n u => State.modCh_keeps n Channel.release u) (abortedOf scope s)
    (Keeps.refl _ (forAll (allPods.filter fun p => (abortedOf scope s).any fun n => podOf n == p) (fun p => State.missAborted p s.tw) s))
  exact Eq.trans (released.2 .abort (by decide)) (missed.2 .abort (by decide))

theorem State.releaseAll_freed (scope : BitVec 128) (s : State) : Freed scope s (s.releaseAll scope) := by
  obtain ⟨clears, -, marks⟩ := forAll_purge (abortedOf scope s) (s.unaborted scope)
  have rest := forAll_purge_rest (abortedOf scope s) (s.unaborted scope)
  rw [s.unaborted_abort scope] at clears marks rest
  have heads := Keeps.forAll State.keepHeads State.keepHeads_keeps allAxes (Keeps.refl _ (forAll (abortedOf scope s) State.purge (s.unaborted scope)))
  have fewer := forAll_keepHeads_fewer allAxes (forAll (abortedOf scope s) State.purge (s.unaborted scope))
  have abort : (s.releaseAll scope).abort = (forAll (abortedOf scope s) State.purge (s.unaborted scope)).abort := heads.2 .abort (by decide)
  refine ⟨State.releaseAll_keeps scope s, by rw [abort]; exact rest, State.releaseAll_aborted scope s, fun n aborted named => ?_, fun n => ?_, fun n aborted named marked => ?_⟩
  · rw [State.releaseAll_ch, if_pos ⟨named, aborted⟩]
    exact Channel.release_safe aborted
  · rw [abort, marks]
    have mem : decide (n ∈ abortedOf scope s) = (s.ch[n].aborted && has scope n) := by
      rw [Bool.and_comm, Bool.eq_iff_iff, decide_eq_true_iff, mem_abortedOf, Bool.and_eq_true]
    rw [mem]
  · rw [State.releaseAll_eq]
    exact (clears n (mem_abortedOf.mpr ⟨named, aborted⟩) marked).mono fewer

/-! ### ABORT_CTRL (R277, R281, R284) -/

theorem State.writeAbortCtrl_of_watch {m : Master} {c : Fin 4} {w : W} {s : State} (watch : m.watch = some c) : s.writeAbortCtrl m w = s.abortErr.watchViol c false 0x11000 := by
  unfold State.writeAbortCtrl
  dsimp only
  rw [watch]

/-- A scope's channels marked for a purge, where the write asks for one. -/
def State.marking (on : Bool) (l : List Ch) (s : State) : State := s.when on (fun s => { s with abort := { s.abort with purge := s.abort.purge ||| setOf l } })

theorem State.marking_keeps (on : Bool) (l : List Ch) (s : State) : Keeps [.abort] s (s.marking on l) := by
  cases on
  · exact .refl _ s
  · exact Keeps.setAbort s _

theorem State.marking_abort (on : Bool) (l : List Ch) (s : State) :
    (s.marking on l).abort = { s.abort with purge := (s.marking on l).abort.purge } ∧ ∀ n : Ch, has (s.marking on l).abort.purge n = (has s.abort.purge n || (on && has (setOf l) n)) := by
  cases on
  · exact ⟨rfl, fun n => by rw [Bool.false_and, Bool.or_false]; rfl⟩
  · refine ⟨rfl, fun n => ?_⟩
    show (s.abort.purge ||| setOf l).getLsbD n.val = _
    rw [BitVec.getLsbD_or]
    rfl

section
variable {m : Master} {w : W} {s : State} (watch : m.watch = none)
include watch

theorem State.writeAbortCtrl_of_none : s.writeAbortCtrl m w =
    if bit w 0 == bit w 1 || (scopeOf (fld w 4 2) s).isEmpty then s.abortErr
    else if bit w 0 then (s.marking (bit w 2) (scopeOf (fld w 4 2) s)).abortScope (scopeOf (fld w 4 2) s) ((s.marking (bit w 2) (scopeOf (fld w 4 2) s)).tw + 4) false
    else if s.abort.safeLow then s.abortErr
    else if s.abort.going != 0 then { s with abort := { s.abort with relPend := s.abort.relPend ++ [(setOf (scopeOf (fld w 4 2) s), s.abort.going)] } }
    else s.releaseNow (setOf (scopeOf (fld w 4 2) s)) := by
  unfold State.writeAbortCtrl
  dsimp only
  rw [watch]
  rfl

theorem State.writeAbortCtrl_of_bad (bad : bit w 0 = bit w 1 ∨ ∀ n : Ch, inScope w s n = false) : s.writeAbortCtrl m w = s.abortErr := by
  have on : (bit w 0 == bit w 1 || (scopeOf (fld w 4 2) s).isEmpty) = true :=
    Bool.or_eq_true_iff.mpr (bad.imp (fun k => beq_iff_eq.mpr k) (fun k => (scopeOf_isEmpty w s).mpr k))
  rw [State.writeAbortCtrl_of_none watch, if_pos on]

variable (good : ¬ (bit w 0 = bit w 1 ∨ ∀ n : Ch, inScope w s n = false))
include good

theorem State.writeAbortCtrl_of_good : s.writeAbortCtrl m w =
    if bit w 0 then (s.marking (bit w 2) (scopeOf (fld w 4 2) s)).abortScope (scopeOf (fld w 4 2) s) ((s.marking (bit w 2) (scopeOf (fld w 4 2) s)).tw + 4) false
    else if s.abort.safeLow then s.abortErr
    else if s.abort.going != 0 then { s with abort := { s.abort with relPend := s.abort.relPend ++ [(setOf (scopeOf (fld w 4 2) s), s.abort.going)] } }
    else s.releaseNow (setOf (scopeOf (fld w 4 2) s)) := by
  have off : ¬ (bit w 0 == bit w 1 || (scopeOf (fld w 4 2) s).isEmpty) = true := fun on =>
    good ((Bool.or_eq_true_iff.mp on).imp (fun k => beq_iff_eq.mp k) (fun k => (scopeOf_isEmpty w s).mp k))
  rw [State.writeAbortCtrl_of_none watch, if_neg off]

theorem State.writeAbortCtrl_of_go (go : bit w 0 = true) : s.writeAbortCtrl m w =
    (s.marking (bit w 2) (scopeOf (fld w 4 2) s)).abortScope (scopeOf (fld w 4 2) s) ((s.marking (bit w 2) (scopeOf (fld w 4 2) s)).tw + 4) false := by
  rw [State.writeAbortCtrl_of_good watch good, if_pos go]

variable (release : bit w 1 = true)
include release

theorem State.writeAbortCtrl_of_release : s.writeAbortCtrl m w =
    if s.abort.safeLow then s.abortErr
    else if s.abort.going != 0 then { s with abort := { s.abort with relPend := s.abort.relPend ++ [(setOf (scopeOf (fld w 4 2) s), s.abort.going)] } }
    else s.releaseNow (setOf (scopeOf (fld w 4 2) s)) := by
  have stays : ¬ bit w 0 = true := fun on => good (.inl (on.trans release.symm))
  rw [State.writeAbortCtrl_of_good watch good, if_neg stays]

end

/-- A write of GO: the scope's channels are stopped, the others are not aborted (R277, R279). -/
theorem State.writeAbortCtrl_aborts {m : Master} {w : W} {s : State} (watch : m.watch = none) (good : ¬ (bit w 0 = bit w 1 ∨ ∀ n : Ch, inScope w s n = false)) (go : bit w 0 = true) :
    (s.writeAbortCtrl m w).time = s.time ∧ (s.writeAbortCtrl m w).abort.going = s.abort.going + 1 ∧ (s.writeAbortCtrl m w).abort.lt = (s.tick + 1) * 32 ∧ (s.writeAbortCtrl m w).guar.flags.get 4 = true ∧
    (∀ n : Ch, has (s.writeAbortCtrl m w).abort.purge n = (has s.abort.purge n || (bit w 2 && inScope w s n))) ∧
    (∀ n : Ch, inScope w s n = true → Stopped (s.tick + 5) s.ch[n] (s.writeAbortCtrl m w).ch[n]) ∧
    ∀ n : Ch, inScope w s n = false → (s.writeAbortCtrl m w).ch[n].aborted = s.ch[n].aborted := by
  rw [State.writeAbortCtrl_of_go watch good go]
  have keeps := s.marking_keeps (bit w 2) (scopeOf (fld w 4 2) s)
  obtain ⟨rest, purge⟩ := s.marking_abort (bit w 2) (scopeOf (fld w 4 2) s)
  have named (n : Ch) := mem_scopeOf w s n
  have marked (n : Ch) := has_scope w s n
  have once := scopeOf_nodup (fld w 4 2) s
  generalize scopeOf (fld w 4 2) s = l at keeps rest purge named marked once
  generalize s.marking (bit w 2) l = u at keeps rest purge
  have tick : u.tick = s.tick := keeps.tick (by decide)
  have ch : u.ch = s.ch := keeps.2 .ch (by decide)
  obtain ⟨time, abort, breach⟩ := State.abortScope_rest l (u.tw + 4) false u
  have stops (n : Ch) := State.abortScope_stops once (u.tw + 4) false u n
  generalize u.abortScope l (u.tw + 4) false = t at time abort breach stops
  refine ⟨time.trans (keeps.2 .time (by decide)), ?_, ?_, breach, fun n => ?_, fun n mem => ?_, fun n out => ?_⟩
  · rw [abort, rest]
  · rw [abort, tick]
  · rw [abort]
    show has u.abort.purge n = _
    rw [purge, marked]
  · have stopped := (stops n).1 ((named n).mpr mem)
    rw [ch, show u.tw + 4 = s.tick + 5 from congrArg (· + 5) tick] at stopped
    exact stopped
  · have same := ((stops n).2 fun mem => Bool.noConfusion (((named n).mp mem).symm.trans out)).aborted
    rw [ch] at same
    exact same

/-! ### SAFE_n (R278) -/

/-- The state in which SAFE_n is low. -/
def State.safeLowered (s : State) : State := { s.wakeBy wkSafe with abort := { s.abort with safeLow := true } }

theorem State.safeFall_eq (s : State) : s.safeFall = if s.safeLowered.boot.held then s.safeLowered else s.safeLowered.abortScope allChs s.safeLowered.tw true := rfl

theorem State.safeLowered_keeps (s : State) : Keeps [.abort, .pwr] s s.safeLowered :=
  ((State.wakeBy_keeps wkSafe s).mono (by decide)).step (Keeps.setAbort _ _) (by decide)

theorem State.safeLowered_held (s : State) : s.safeLowered.boot.held = s.boot.held := by rw [show s.safeLowered.boot = s.boot from s.safeLowered_keeps.2 .boot (by decide)]

/-- SAFE_n low stops every channel at once. -/
structure AllStopped (s t : State) : Prop where
  low : t.abort.safeLow = true
  stopped : ∀ n : Ch, Stopped (s.tick + 1) s.ch[n] t.ch[n]
  going : t.abort.going = s.abort.going + 1
  lt : t.abort.lt = (s.tick + 1) * 32
  breach : t.guar.flags.get 4 = true
  time : t.time = s.time

/-- An abort of every channel after SAFE_n has been seen low. -/
theorem State.abortScope_all {l : List Ch} {s v : State} (once : l.Nodup) (all : ∀ n : Ch, n ∈ l) (keeps : Keeps [.abort, .pwr] s v) (low : v.abort = { s.abort with safeLow := true }) :
    AllStopped s (v.abortScope l v.tw true) := by
  have tick : v.tick = s.tick := keeps.tick (by decide)
  have ch : v.ch = s.ch := keeps.2 .ch (by decide)
  obtain ⟨time, rest, breach⟩ := State.abortScope_rest l v.tw true v
  have stops (n : Ch) := (State.abortScope_stops once v.tw true v n).1 (all n)
  generalize v.abortScope l v.tw true = t at time rest breach stops
  refine ⟨by rw [rest, low], fun n => ?_, by rw [rest, low], by rw [rest, tick], breach, time.trans (keeps.2 .time (by decide))⟩
  have stopped := stops n
  rw [ch, show v.tw = s.tick + 1 from congrArg (· + 1) tick] at stopped
  exact stopped

theorem State.safeFall_of_run {s : State} (run : s.boot.held = false) : AllStopped s s.safeFall := by
  rw [State.safeFall_eq, State.safeLowered_held, run, if_neg Bool.false_ne_true]
  exact State.abortScope_all (List.nodup_finRange 128) List.mem_finRange s.safeLowered_keeps rfl

/-! ### ABORT_DONE (R279, R281) -/

theorem State.abortDone_eq {k : Nat} {s : State} (going : s.abort.going = k + 1) : s.abortDone =
    forAll ((s.abort.relPend.map (fun x => (x.1, x.2 - 1))).filter (fun x => x.2 == 0)) (fun x => State.releaseNow x.1)
      { s with abort := { s.abort with going := k, flags := s.abort.flags.raise s.tick 1, relPend := (s.abort.relPend.map (fun x => (x.1, x.2 - 1))).filter (fun x => x.2 != 0) } } := by
  unfold State.abortDone
  rw [if_neg (by rw [going]; exact Nat.succ_ne_zero k)]
  dsimp only
  rw [going, Nat.add_sub_cancel]

/-- The oldest abort is over, and k still run. -/
def State.abortOver (k : Nat) (s : State) : State := { s with abort := { s.abort with going := k, relPend := [], flags := s.abort.flags.raise s.tick 1 } }

theorem State.abortDone_of_none {k : Nat} {s : State} (going : s.abort.going = k + 1) (none : s.abort.relPend = []) : s.abortDone = s.abortOver k := by
  rw [State.abortDone_eq going, none]
  rfl

theorem State.abortDone_of_one {k : Nat} {v : BitVec 128} {s : State} (going : s.abort.going = k + 1) (one : s.abort.relPend = [(v, 1)]) (up : s.fw.keeperUp = true) :
    s.abortDone = (s.abortOver k).releaseScope v := by
  rw [State.abortDone_eq going, one]
  exact if_pos up

theorem inScope_found (w : W) (m : Master) (s : State) : inScope w (found m s) = inScope w s := by cases m <;> rfl

theorem State.abortErr_found (m : Master) (s : State) : (found m s).abortErr.abort = { s.abort with flags := s.abort.flags.raise s.tick 0x10 } := by
  cases m <;> rfl

/-! ### The obligation -/

/-- Settles O49: writes of ABORT_CTRL, the end of an abort, and SAFE_n. -/
theorem abortControl : Obligations.AbortControl := by
  unfold Obligations.AbortControl
  intro m w s
  refine ⟨fun go port => ?_, ?_, ?_, ?_, ?_, ?_, rfl⟩
  · have run : exec (if go then Instr.abortGo m w else Instr.abortRelease m w) s = .next ((found m s).writeAbortCtrl m w) := by
      cases go
      · exact exec_served rfl port
      · exact exec_served rfl port
    have good (h : ¬ (bit w 0 = bit w 1 ∨ ∀ n : Ch, inScope w s n = false)) : ¬ (bit w 0 = bit w 1 ∨ ∀ n : Ch, inScope w (found m s) n = false) := by
      rw [inScope_found]
      exact h
    refine ⟨fun c watch => ?_, fun none bad => ?_, fun none ok starts => ?_, fun none ok ends => ⟨fun low => ?_, fun high busy => ?_, fun high idle down => ?_, fun high idle up => ?_⟩⟩
    · have refused := State.watchViol_keeps c false 0x11000 s.abortErr
      rw [State.writeAbortCtrl_of_watch watch, found_of_watch s watch] at run
      refine ⟨_, run, ((State.abortErr_keeps s).mono (by decide)).step refused (by decide), ?_, (State.watchViol_recorded c false 0x11000 s.abortErr).1⟩
      rw [refused.2 .abort (by decide)]
      rfl
    · exact ⟨_, run.trans (congrArg Host.Outcome.next (State.writeAbortCtrl_of_bad none (by rw [inScope_found]; exact bad))), State.abortErr_keeps _, State.abortErr_found m s⟩
    · obtain ⟨time, going, lt, breach, purge, stops, others⟩ := State.writeAbortCtrl_aborts none (good ok) starts
      simp only [found_time, found_abort, found_tick, found_ch, inScope_found] at time going lt purge stops others
      exact ⟨_, run, time, going, lt, breach, purge, fun n mem => ⟨(stops n mem).aborted, (stops n mem).safeFrom, (stops n mem).rfx, (stops n mem).unit, (stops n mem).run⟩, others⟩
    · have write := (State.writeAbortCtrl_of_release none (good ok) ends).trans (if_pos (by rw [found_abort, low]))
      exact ⟨_, run.trans (congrArg Host.Outcome.next write), State.abortErr_keeps _, State.abortErr_found m s⟩
    · have write := (State.writeAbortCtrl_of_release none (good ok) ends).trans ((if_neg (by rw [found_abort, high]; exact Bool.false_ne_true)).trans (if_pos (by rw [found_abort]; exact bne_iff_ne.mpr busy)))
      refine ⟨_, setOf (scopeOf (fld w 4 2) (found m s)), run.trans (congrArg Host.Outcome.next write), Keeps.setAbort _ _, ?_, fun n => ?_⟩
      · rw [found_abort]
      · rw [has_scope, inScope_found]
        rfl
    · have write := (State.writeAbortCtrl_of_release none (good ok) ends).trans ((if_neg (by rw [found_abort, high]; exact Bool.false_ne_true)).trans
        ((if_neg (by rw [found_abort, idle]; decide)).trans (if_neg (by rw [found_fw, down]; exact Bool.false_ne_true))))
      refine ⟨_, setOf (scopeOf (fld w 4 2) (found m s)), run.trans (congrArg Host.Outcome.next write), Keeps.setFw _ _, ?_, fun n => ?_⟩
      · rw [found_fw]
      · rw [has_scope, inScope_found]
        rfl
    · have write := (State.writeAbortCtrl_of_release none (good ok) ends).trans ((if_neg (by rw [found_abort, high]; exact Bool.false_ne_true)).trans
        ((if_neg (by rw [found_abort, idle]; decide)).trans ((if_pos (by rw [found_fw, up])).trans (State.releaseScope_of_high (by rw [found_abort]; exact high)))))
      obtain ⟨keeps, -, aborted, safe, purge, events⟩ := State.releaseAll_freed (setOf (scopeOf (fld w 4 2) (found m s))) (found m s)
      simp only [found_abort, found_ch, has_scope, inScope_found] at aborted safe purge events
      refine ⟨_, run.trans (congrArg Host.Outcome.next write), keeps, fun n => ⟨aborted n, safe n, purge n, fun a b c => ?_⟩⟩
      obtain ⟨held, pos⟩ := events n a b c
      exact ⟨held, pos⟩
  · exact fun none => congrArg Host.Outcome.next (if_pos none)
  · intro k going none
    refine ⟨_, congrArg Host.Outcome.next (State.abortDone_of_none going none), Keeps.setAbort s _, ?_⟩
    show { s.abort with going := k, relPend := [], flags := s.abort.flags.raise s.tick 1 } = _
    rw [← none]
  · intro k v going one up low
    exact ⟨_, congrArg Host.Outcome.next ((State.abortDone_of_one going one up).trans (if_pos low)), Keeps.setAbort s { (s.abortOver k).abort with flags := (s.abort.flags.raise s.tick 1).raise s.tick 0x10 }, rfl⟩
  · intro k v going one up high
    obtain ⟨keeps, ⟨goingT, flags, pend⟩, aborted, safe, purge, events⟩ := State.releaseAll_freed v (s.abortOver k)
    refine ⟨_, congrArg Host.Outcome.next ((State.abortDone_of_one going one up).trans (if_neg (by rw [show (s.abortOver k).abort.safeLow = false from high]; exact Bool.false_ne_true))),
      ((Keeps.setAbort s (s.abortOver k).abort).mono (by decide)).trans keeps, goingT, ?_, pend, fun n => ⟨aborted n, safe n, purge n, fun a b c => ?_⟩⟩
    · rw [flags]
      exact (Sticky.get_raise ..).trans (Bool.or_eq_true_iff.mpr (.inr (by decide)))
    · obtain ⟨held, pos⟩ := events n a b c
      exact ⟨held, pos⟩
  · refine ⟨rfl, fun held => ⟨_, congrArg Host.Outcome.next ((State.safeFall_eq s).trans (if_pos (by rw [State.safeLowered_held, held]))), s.safeLowered_keeps, rfl⟩, fun run => ?_, fun run => ?_⟩
    · have h := State.safeFall_of_run run
      exact ⟨_, rfl, h.low, fun n => ⟨(h.stopped n).aborted, (h.stopped n).safeFrom, (h.stopped n).rfx, (h.stopped n).unit, (h.stopped n).run⟩, h.going, h.lt, h.breach, h.time⟩
    · have h := State.safeFall_of_run (s := s.used) run
      by_cases acts : s.freeBit = true
      · exact ⟨_, congrArg Host.Outcome.next (if_pos acts), .inr ⟨h.low, fun n => ⟨(h.stopped n).aborted, (h.stopped n).safeFrom, (h.stopped n).rfx, (h.stopped n).unit, (h.stopped n).run⟩,
          h.going, h.lt, h.breach, h.time⟩⟩
      · exact ⟨_, congrArg Host.Outcome.next (if_neg acts), .inl rfl⟩

end Sys2Proof.Machine
end

section
/-!
PROOF of the obligation on supplies, temperature and measurements (O54).
-/
namespace Sys2Proof.Machine

/-! ### Supplies and temperature (R323 to R325) -/

/-- The channels of the bank whose rail r is have VIO_FAULT as it says. -/
structure RailShown (r : Rail) (on : Bool) (s t : State) : Prop where
  same : ∀ n : Ch, t.ch[n] = { s.ch[n] with vioFault := t.ch[n].vioFault }
  bank : ∀ n : Ch, r = .vio (podOf n) → t.ch[n].vioFault = on
  other : ∀ n : Ch, ¬ r = .vio (podOf n) → t.ch[n].vioFault = s.ch[n].vioFault

theorem RailShown.of_same {r : Rail} {on : Bool} {s t : State} (h : t.ch = s.ch) (none : ∀ p : Pod, r ≠ .vio p) : RailShown r on s t := by
  refine ⟨fun n => ?_, fun n e => absurd e (none _), fun n _ => ?_⟩ <;> rw [h]

theorem RailShown.congr {r : Rail} {on : Bool} {s t u : State} (h : RailShown r on s t) (ch : u.ch = t.ch) : RailShown r on s u := by
  refine ⟨fun n => ?_, fun n => ?_, fun n => ?_⟩ <;> rw [ch]
  · exact h.same n
  · exact h.bank n
  · exact h.other n

/-- The channels after VIO_FAULT of bank p. -/
theorem State.vioFault_shown (p : Pod) (on : Bool) (s : State) : RailShown (.vio p) on s (s.vioFault p on) := by
  refine ⟨fun n => ?_, fun n e => ?_, fun n ne => ?_⟩ <;> rw [State.vioFault_ch]
  · split <;> rfl
  · rw [if_pos (Rail.vio.inj e).symm]
  · rw [if_neg fun e => ne (congrArg Rail.vio e.symm)]

/-- The state in which the fault of rail r is noted. -/
def State.railNoted (r : Rail) (s : State) : State :=
  { s with sur := { s.sur with sup := s.sur.sup ||| flag (railBit r) true, seen := s.sur.seen.raise s.tick (flag (railBit r) true) } }

theorem State.railNoted_keeps (r : Rail) (s : State) : Keeps [.sur] s (s.railNoted r) := Keeps.setSur s _

/-- A rail's fault that is new: it is noted, shown, told and wakes. -/
theorem State.supplyFault_of_fine {r : Rail} {s : State} (fine : bit s.sur.sup (railBit r) = false) :
    ∃ u : State, s.supplyFault r = (u.notice 0 (leBytes 4 (railBit r))).wakeIf (bit u.pwr.cfg 2) wkSupply ∧ Keeps [.ch] (s.railNoted r) u ∧ RailShown r true s u := by
  have plain (h : ∀ p : Pod, r ≠ .vio p) (run : s.supplyFault r = ((s.railNoted r).notice 0 (leBytes 4 (railBit r))).wakeIf (bit s.pwr.cfg 2) wkSupply) :
      ∃ u : State, s.supplyFault r = (u.notice 0 (leBytes 4 (railBit r))).wakeIf (bit u.pwr.cfg 2) wkSupply ∧ Keeps [.ch] (s.railNoted r) u ∧ RailShown r true s u :=
    ⟨_, run, .refl _ _, .of_same rfl h⟩
  have on : ¬ bit s.sur.sup (railBit r) = true := by rw [fine]; exact Bool.false_ne_true
  cases r with
  | vio p =>
    have shown := State.vioFault_shown p true (s.railNoted (.vio p))
    exact ⟨(s.railNoted (.vio p)).vioFault p true, if_neg on, State.vioFault_keeps p true _, shown.same, shown.bank, shown.other⟩
  | vdd => exact plain (fun _ => (nomatch ·)) (if_neg on)
  | vddaux => exact plain (fun _ => (nomatch ·)) (if_neg on)
  | avdd => exact plain (fun _ => (nomatch ·)) (if_neg on)
  | peVdd => exact plain (fun _ => (nomatch ·)) (if_neg on)
  | peVddh => exact plain (fun _ => (nomatch ·)) (if_neg on)

/-- The state in which rail r is back in its band. -/
def State.railBack (r : Rail) (s : State) : State := { s with sur := { s.sur with sup := s.sur.sup &&& ~~~(flag (railBit r) true) } }

/-- A rail that is back: its bank shows no VIO_FAULT any more, unless VIO is down. -/
theorem State.supplyClear_spec (r : Rail) (s : State) : Keeps [.ch] (s.railBack r) (s.supplyClear r) ∧
    ∀ n : Ch, (s.supplyClear r).ch[n] = { s.ch[n] with vioFault := (s.supplyClear r).ch[n].vioFault } ∧
      (r = .vio (podOf n) → s.boot.vioDown.getLsbD (podOf n).val = false → (s.supplyClear r).ch[n].vioFault = false) ∧ (¬ r = .vio (podOf n) → (s.supplyClear r).ch[n].vioFault = s.ch[n].vioFault) := by
  cases r with
  | vio p =>
    have run : s.supplyClear (.vio p) = if s.boot.vioDown.getLsbD p.val then s.railBack (.vio p) else (s.railBack (.vio p)).vioFault p false := rfl
    rw [run]
    have shown := State.vioFault_shown p false (s.railBack (.vio p))
    split
    next down =>
      refine ⟨.refl _ _, fun n => ⟨rfl, fun e up => ?_, fun _ => rfl⟩⟩
      rw [Rail.vio.inj e, up] at down
      exact Bool.noConfusion down
    next => exact ⟨State.vioFault_keeps .., fun n => ⟨shown.same n, fun e _ => shown.bank n e, shown.other n⟩⟩
  | vdd => exact ⟨.refl _ _, fun n => ⟨rfl, (nomatch ·), fun _ => rfl⟩⟩
  | vddaux => exact ⟨.refl _ _, fun n => ⟨rfl, (nomatch ·), fun _ => rfl⟩⟩
  | avdd => exact ⟨.refl _ _, fun n => ⟨rfl, (nomatch ·), fun _ => rfl⟩⟩
  | peVdd => exact ⟨.refl _ _, fun n => ⟨rfl, (nomatch ·), fun _ => rfl⟩⟩
  | peVddh => exact ⟨.refl _ _, fun n => ⟨rfl, (nomatch ·), fun _ => rfl⟩⟩

/-- The alarm after a measurement of TJ, with its 5 °C (R325). -/
def Sur.alarms (tj : Int) (u : Sur) : Bool := if (u.alarm.toNat : Int) ≤ tj then true else if tj ≤ (u.alarm.toNat : Int) - 5 then false else u.temp

/-- The state after a measurement of TJ. -/
def State.measuredTj (tj : Int) (s : State) : State := { s with sur := { s.sur with tj := BitVec.ofInt 8 (max (-128) (min 127 tj)), temp := s.sur.alarms tj } }

theorem State.tempMeasure_eq (tj : Int) (s : State) : s.tempMeasure tj = (s.measuredTj tj).wakeIf ((s.sur.alarms tj && !s.sur.temp) && bit s.pwr.cfg 2) wkSupply := rfl

theorem Sur.alarms_spec (tj : Int) (u : Sur) : ((u.alarm.toNat : Int) ≤ tj → u.alarms tj = true) ∧ (tj ≤ (u.alarm.toNat : Int) - 5 → u.alarms tj = false) ∧
    ((u.alarm.toNat : Int) - 5 < tj → tj < (u.alarm.toNat : Int) → u.alarms tj = u.temp) := by
  unfold Sur.alarms
  refine ⟨fun high => if_pos high, fun low => ?_, fun above below => ?_⟩
  · rw [if_neg (by omega), if_pos low]
  · rw [if_neg (by omega), if_neg (by omega)]

/-! ### The end of a measurement (R327 to R329) -/

/-- The measurement of job j is over: no other runs yet, the line is shorter by one, and its mailbox has the outcome. -/
structure MeasEnds (j : MeasJob) (rest : List MeasJob) (status detail : Nat) (reply : List Byte) (s t : State) : Prop where
  running : t.sur.running = false
  jobs : t.sur.jobs.length = rest.length
  told : ∀ (b : CmdMbx) (op cap : Nat) (seq : W) (body : List Byte), j.b = some b → s.mbx[cmdMbx b].phase = .running op seq cap body →
    t.mbx[cmdMbx b].phase = .answered (some seq) true status detail reply

theorem nextJob_length (t : Nat) (l : List MeasJob) : (nextJob t l).length = l.length := by
  cases l <;> rfl

/-- The line and the mailboxes of a measurement that is over, before its answer. -/
structure MeasOver (j : MeasJob) (rest : List MeasJob) (s u : State) : Prop where
  running : u.sur.running = false
  jobs : u.sur.jobs.length = rest.length
  mbx : ∀ b : CmdMbx, u.mbx[cmdMbx b] = s.mbx[cmdMbx b]

theorem State.measKeep_sur (j : MeasJob) (value : Option Nat) (s : State) : (s.measKeep j value).sur = { s.sur with pol := (s.measKeep j value).sur.pol } := by
  unfold State.measKeep
  split <;> rfl

theorem MeasOver.measKeep {j : MeasJob} {rest : List MeasJob} {s u : State} (h : MeasOver j rest s u) (k : MeasJob) (value : Option Nat) : MeasOver j rest s (u.measKeep k value) := by
  have mbx : (u.measKeep k value).mbx = u.mbx := (State.measKeep_keeps k value u).2 .mbx (by decide)
  refine ⟨?_, ?_, fun b => ?_⟩
  · rw [State.measKeep_sur]; exact h.running
  · rw [State.measKeep_sur]; exact h.jobs
  · rw [mbx]; exact h.mbx b

theorem MeasOver.answered {j : MeasJob} {rest : List MeasJob} {s u : State} (h : MeasOver j rest s u) (status detail : Nat) (reply : List Byte) :
    MeasEnds j rest status detail reply s (u.measAnswer j status detail reply) := by
  have sur : (u.measAnswer j status detail reply).sur = u.sur := (State.measAnswer_keeps j status detail reply u).2 .sur (by decide)
  refine ⟨by rw [sur]; exact h.running, by rw [sur]; exact h.jobs, fun b op cap seq body asked phase => ?_⟩
  have phaseU : u.mbx[cmdMbx b].phase = .running op seq cap body := by rw [h.mbx]; exact phase
  unfold State.measAnswer
  rw [asked]
  dsimp only
  rw [State.answer_mbx phaseU]

/-- The record of a measurement that is over. -/
def measRecord (j : MeasJob) (value : W) (s : State) : ResRec :=
  { actLt := if s.sur.edgeLt != 0 then s.sur.edgeLt else s.freeBelow (2 ^ 64), word := value, half := BitVec.ofNat 16 (1 + (if j.load then 9 else 8) * 16 + j.ch.val * 256) }

/-- The state in which the measurement in hand is over. -/
def State.measStopped (rest : List MeasJob) (s : State) : State :=
  { s.used with sur := { s.sur with jobs := nextJob s.tick rest, running := false, abandons := 0, edgeLt := 0 } }

theorem State.measEnd_eq {status detail : Nat} {reply : List Byte} {value : W} {kept : Option Nat} {j : MeasJob} {rest : List MeasJob} {s : State} (jobs : s.sur.jobs = j :: rest) :
    s.measEnd status detail reply value kept =
      ((((s.measStopped rest).resWrite (podOf j.ch) false (measRecord j value s)).notice 3 (leBytes 4 j.ch.val ++ leBytes 4 value.toNat)).measKeep j kept).measAnswer j status detail reply := by
  unfold State.measEnd
  rw [jobs]
  rfl

theorem cmdMbx_ne_noticeMbx (b : CmdMbx) (i : Fin 8) : cmdMbx b ≠ noticeMbx i := fun e => by
  have num := congrArg Fin.val e
  simp only [cmdMbx, noticeMbx] at num
  omega

theorem State.measEnd_ends {j : MeasJob} {rest : List MeasJob} {s : State} (jobs : s.sur.jobs = j :: rest) (status detail : Nat) (reply : List Byte) (value : W) (kept : Option Nat) :
    MeasEnds j rest status detail reply s (s.measEnd status detail reply value kept) := by
  rw [State.measEnd_eq jobs]
  have stopped : MeasOver j rest s (s.measStopped rest) := ⟨rfl, nextJob_length .., fun _ => rfl⟩
  have written := State.resWrite_keeps (podOf j.ch) false (measRecord j value s) (s.measStopped rest)
  generalize s.measStopped rest = u at stopped written
  have told := State.notice_keeps 3 (leBytes 4 j.ch.val ++ leBytes 4 value.toNat) (u.resWrite (podOf j.ch) false (measRecord j value s))
  have only := State.notice_onlyMbx 3 (leBytes 4 j.ch.val ++ leBytes 4 value.toNat) (u.resWrite (podOf j.ch) false (measRecord j value s))
  generalize u.resWrite (podOf j.ch) false (measRecord j value s) = v at written told only
  generalize v.notice 3 (leBytes 4 j.ch.val ++ leBytes 4 value.toNat) = w at told only
  have sur : w.sur = u.sur := Eq.trans (told.2 .sur (by decide)) (written.2 .sur (by decide))
  have mbxV : v.mbx = u.mbx := written.2 .mbx (by decide)
  have ended : MeasOver j rest s w := by
    refine ⟨by rw [sur]; exact stopped.running, by rw [sur]; exact stopped.jobs, fun b => ?_⟩
    rw [only (cmdMbx b) (cmdMbx_ne_noticeMbx b 3), mbxV]
    exact stopped.mbx b
  exact (ended.measKeep j kept).answered status detail reply

/-! ### The start of a measurement (R326, R329) -/

section
variable {j : MeasJob} {rest : List MeasJob} {s : State} (idle : s.sur.running = false) (service : s.fw.restarting = false) (jobs : s.sur.jobs = j :: rest)
include jobs

theorem State.measBegin_eq : s.measBegin =
    if measRefused j s then (({ s with sur := { s.sur with jobs := nextJob s.tick rest, abandons := 0 } } : State).measKeep j none).measAnswer j stChBusy 0 []
    else if !s.ch[j.ch].oe then s.measFail 3
    else if s.ch[j.ch].vioFault then s.measFail 4
    else if (j.gap || s.sur.abandons != 0) && !idleGap j.ch s then s
    else { s.used with sur := { s.sur with running := true, edgeLt := s.time.lt + 1 + Config.freeNat s.free, kind := j.load, ch := j.ch.val } } := by
  unfold State.measBegin
  rw [jobs]

include idle service

theorem State.measStart_eq : s.measStart = s.measBegin := by
  unfold State.measStart
  rw [idle, service, jobs]
  rfl

/-- A measurement that is refused is answered with CH_BUSY. -/
theorem State.measStart_of_refused (refused : measRefused j s = true) : Keeps [.mbx, .sur] s s.measStart ∧ MeasEnds j rest 0x16 0 [] s s.measStart := by
  rw [State.measStart_eq idle service jobs, State.measBegin_eq jobs, if_pos refused]
  have ended : MeasOver j rest s { s with sur := { s.sur with jobs := nextJob s.tick rest, abandons := 0 } } := ⟨idle, nextJob_length .., fun _ => rfl⟩
  have keeps : Keeps [.sur] s { s with sur := { s.sur with jobs := nextJob s.tick rest, abandons := 0 } } := Keeps.setSur s _
  generalize ({ s with sur := { s.sur with jobs := nextJob s.tick rest, abandons := 0 } } : State) = u at ended keeps
  exact ⟨((keeps.trans (State.measKeep_keeps j none u)).mono (by decide)).step (State.measAnswer_keeps j stChBusy 0 [] _) (by decide), (ended.measKeep j none).answered 0x16 0 []⟩

variable (taken : measRefused j s = false)
include taken

theorem State.measStart_of_taken : s.measStart =
    if !s.ch[j.ch].oe then s.measFail 3
    else if s.ch[j.ch].vioFault then s.measFail 4
    else if (j.gap || s.sur.abandons != 0) && !idleGap j.ch s then s
    else { s.used with sur := { s.sur with running := true, edgeLt := s.time.lt + 1 + Config.freeNat s.free, kind := j.load, ch := j.ch.val } } := by
  rw [State.measStart_eq idle service jobs, State.measBegin_eq jobs, if_neg (by rw [taken]; exact Bool.false_ne_true)]

end

theorem State.measStart_of_busy {s : State} (h : s.sur.running = true ∨ s.fw.restarting = true) : s.measStart = s :=
  if_pos (Bool.or_eq_true_iff.mpr h)

theorem execMeasureGapTimeout_of_jobs {j : MeasJob} {rest : List MeasJob} {s : State} (idle : s.sur.running = false) (jobs : s.sur.jobs = j :: rest) :
    execMeasureGapTimeout s = .next (if (j.gap || s.sur.abandons != 0) && decide (j.since + 400000000 ≤ s.tick) then s.measFail 1 else s) := by
  unfold execMeasureGapTimeout
  rw [jobs, idle]
  rfl

/-! ### The results of a measurement (R328, R330, R331) -/

theorem roundDiv_one (a : Nat) : roundDiv a 1 = a := by
  unfold roundDiv
  omega

/-- The reply of a cable measurement. -/
def cableReply (vf rt cls : Nat) : List Byte :=
  leBytes 4 rt ++ leBytes 4 (roundDiv rt 2) ++ leBytes 4 (roundDiv (roundDiv rt 2 * vf * 78125 * 299792458) (65536 * 10 ^ 12)) ++ leBytes 4 cls

/-- The class of a cable measurement's shots. -/
def cableClass (off : Nat) (shots : List (Option Nat)) : Nat :=
  if shots.isEmpty || shots.any (fun x => x.isNone) then 1
  else if roundDiv ((shots.map (fun x => x.getD 0)).sum - max 1 shots.length * off) (max 1 shots.length) < 128 then 2 else 0

theorem State.cableDone_eq (j : MeasJob) (shots : List (Option Nat)) (s : State) : ∃ (value : W) (kept : Option Nat), s.cableDone j shots =
    s.measEnd 0 0 (cableReply j.vf (if cableClass s.fuse.cable[j.ch] shots = 0 then roundDiv ((shots.map (fun x => x.getD 0)).sum - max 1 shots.length * s.fuse.cable[j.ch]) (max 1 shots.length) else 0)
      (cableClass s.fuse.cable[j.ch] shots)) value kept := ⟨_, _, rfl⟩

theorem cableClass_one (off o : Nat) : cableClass off [some o] = if o - off < 128 then 2 else 0 := by
  unfold cableClass
  have rt : roundDiv (([some o].map (fun x => x.getD 0)).sum - max 1 [some o].length * off) (max 1 [some o].length) = o - off := by
    simp [roundDiv_one]
  rw [rt]
  rfl

theorem cableClass_missing (off : Nat) {shots : List (Option Nat)} (h : shots = [] ∨ none ∈ shots) : cableClass off shots = 1 := by
  unfold cableClass
  refine if_pos (Bool.or_eq_true_iff.mpr (h.imp (fun e => by rw [e]; rfl) (fun mem => ?_)))
  exact List.any_eq_true.mpr ⟨none, mem, rfl⟩

/-- The reply of a load measurement. -/
def loadReply (cap cls : Nat) : List Byte := leBytes 4 cap ++ leBytes 4 cls

theorem State.loadEnd_eq (cls cap : Nat) (s : State) : ∃ (value : W) (kept : Option Nat), s.loadEnd cls cap = s.measEnd 0 0 (loadReply cap cls) value kept := ⟨_, _, rfl⟩

theorem loadReply_class (cap : Nat) {cls : Nat} (small : cls < 256) : (loadReply cap cls).length = 8 ∧ leAt 4 4 (loadReply cap cls) = cls := by
  refine ⟨rfl, ?_⟩
  show leNat (leBytes 4 cls) = cls
  simp only [leBytes, leNat, BitVec.toNat_ofNat]
  omega

/-- A measurement that has a result with the reply: the row ends it so. -/
def Replies (x : MeasRaw) (j : MeasJob) (rest : List MeasJob) (status detail : Nat) (reply : List Byte) (s : State) : Prop :=
  ∃ t : State, exec (.measureDone x) s = .next t ∧ MeasEnds j rest status detail reply s t ∧ Keeps [.pod, .mem, .store, .mbx, .pcie, .sur, .free] s t

section
variable {j : MeasJob} {rest : List MeasJob} {s : State} (runs : s.sur.running = true) (jobs : s.sur.jobs = j :: rest)
include runs jobs

theorem State.measDone_failed (d : Fin 8) : Replies (.failed d) j rest 0x30 d.val [] s := by
  have run : s.measDone (.failed d) = s.measFail d.val := by
    unfold State.measDone
    rw [runs, jobs]
    rfl
  exact ⟨_, congrArg Host.Outcome.next run, State.measEnd_ends jobs .., State.measEnd_keeps ..⟩

/-- A cable measurement's result, by its class. -/
theorem State.measDone_cable (cable : j.load = false) (shots : List (Option Nat)) : Replies (.cable shots) j rest 0 0
    (cableReply j.vf (if cableClass s.fuse.cable[j.ch] shots = 0 then roundDiv ((shots.map (fun x => x.getD 0)).sum - max 1 shots.length * s.fuse.cable[j.ch]) (max 1 shots.length) else 0)
      (cableClass s.fuse.cable[j.ch] shots)) s := by
  have run : s.measDone (.cable shots) = s.cableDone j shots := by
    unfold State.measDone
    rw [runs, jobs]
    dsimp only
    rw [cable]
    rfl
  obtain ⟨value, kept, done⟩ := State.cableDone_eq j shots s
  exact ⟨_, congrArg Host.Outcome.next (run.trans done), State.measEnd_ends jobs .., State.measEnd_keeps ..⟩

variable (load : j.load = true)
include load

/-- A load measurement's result is what loadDone makes of it. -/
theorem State.measDone_load {hi lo up dn : Bool} {x : Option Nat} {u : State} {cls cap : Nat} (done : s.loadDone j hi lo up dn x = u.loadEnd cls cap) (same : u = s ∨ u = s.used) :
    Replies (.load hi lo up dn x) j rest 0 0 (loadReply cap cls) s := by
  have run : s.measDone (.load hi lo up dn x) = s.loadDone j hi lo up dn x := by
    unfold State.measDone
    rw [runs, jobs]
    dsimp only
    rw [load]
    rfl
  obtain ⟨value, kept, ends⟩ := State.loadEnd_eq cls cap u
  have row : exec (.measureDone (.load hi lo up dn x)) s = .next (u.measEnd 0 0 (loadReply cap cls) value kept) := congrArg Host.Outcome.next ((run.trans done).trans ends)
  rcases same with rfl | rfl
  · exact ⟨_, row, State.measEnd_ends jobs .., State.measEnd_keeps ..⟩
  · obtain ⟨running, length, told⟩ := State.measEnd_ends (s := s.used) jobs 0 0 (loadReply cap cls) value kept
    exact ⟨_, row, ⟨running, length, told⟩, ((State.used_keeps s).mono (by decide)).trans (State.measEnd_keeps ..)⟩

theorem State.measDone_stuck (x : Option Nat) : Replies (.load true true false true x) j rest 0x30 6 [] s := by
  have run : s.measDone (.load true true false true x) = s.measFail 6 := by
    unfold State.measDone
    rw [runs, jobs]
    dsimp only
    rw [load]
    rfl
  exact ⟨_, congrArg Host.Outcome.next run, State.measEnd_ends jobs .., State.measEnd_keeps ..⟩

end

section
variable (j : MeasJob) (s : State)

theorem State.loadDone_of_short {hi lo : Bool} (h : hi = false ∨ lo = false) (up dn : Bool) (x : Option Nat) : s.loadDone j hi lo up dn x = s.used.loadEnd 4 (s.freeBelow (2 ^ 32)) := by
  unfold State.loadDone
  refine if_pos (Bool.or_eq_true_iff.mpr (h.imp ?_ ?_)) <;> intro e <;> rw [e] <;> rfl

theorem State.loadDone_of_open (x : Option Nat) : s.loadDone j true true false false x = s.used.loadEnd 2 (s.freeBelow (2 ^ 32)) := rfl

theorem State.loadDone_of_both (x : Option Nat) : s.loadDone j true true true true x = s.used.loadEnd 3 (s.freeBelow (2 ^ 32)) := rfl

theorem State.loadDone_of_slow : s.loadDone j true true true false none = s.loadEnd 0 0xFFFFFFFF := rfl

/-- The capacity of a load that rises in o frac, but for its free last digit. -/
def loadCap (o : Nat) : Nat := 3125 * o / (2 * s.sur.vio[podOf j.ch]) - s.fuse.pad[j.ch]

theorem State.loadDone_of_rise {o : Nat} (fast : o ≤ 262144) (supplied : s.sur.vio[podOf j.ch] ≠ 0) : ∃ c : Nat, (c = loadCap j s o ∨ c = loadCap j s o + 1) ∧
    s.loadDone j true true true false (some o) = s.used.loadEnd (if c < 200 then 1 else 0) c := by
  have slow : ¬ 8192 * 32 < o := by omega
  have run : s.loadDone j true true true false (some o) = s.used.loadEnd (if loadCap j s o + (if s.freeBit then 1 else 0) < 200 then 1 else 0) (loadCap j s o + (if s.freeBit then 1 else 0)) := by
    unfold State.loadDone
    dsimp only
    rw [if_neg slow, if_neg supplied]
    rfl
  cases bit : s.freeBit
  · rw [bit] at run
    exact ⟨_, .inl rfl, run⟩
  · rw [bit] at run
    exact ⟨_, .inr rfl, run⟩

end

/-! ### The obligation -/

/-- What the statement says of a measurement with a reply of a kind. -/
theorem Replies.told {x : MeasRaw} {j : MeasJob} {rest : List MeasJob} {st d : Nat} {reply : List Byte} {s : State} (h : Replies x j rest st d reply s) {rep : List Byte → Prop} (kind : rep reply)
    {b : CmdMbx} {op cap : Nat} {seq : W} {body : List Byte} (asked : j.b = some b) (phase : s.mbx[cmdMbx b].phase = .running op seq cap body) :
    ∃ (t : State) (l : List Byte), exec (.measureDone x) s = .next t ∧ rep l ∧ t.sur.running = false ∧ t.sur.jobs.length = rest.length ∧ t.mbx[cmdMbx b].phase = .answered (some seq) true st d l ∧
      Keeps [.pod, .mem, .store, .mbx, .pcie, .sur, .free] s t := by
  obtain ⟨t, run, ⟨running, jobs, told⟩, keeps⟩ := h
  exact ⟨t, reply, run, kind, running, jobs, told b op cap seq body asked phase, keeps⟩

/-- The same, of a measurement with one reply. -/
theorem Replies.said {x : MeasRaw} {j : MeasJob} {rest : List MeasJob} {st d : Nat} {reply : List Byte} {s : State} (h : Replies x j rest st d reply s)
    {b : CmdMbx} {op cap : Nat} {seq : W} {body : List Byte} (asked : j.b = some b) (phase : s.mbx[cmdMbx b].phase = .running op seq cap body) :
    ∃ (t : State) (l : List Byte), exec (.measureDone x) s = .next t ∧ l = reply ∧ t.sur.running = false ∧ t.sur.jobs.length = rest.length ∧ t.mbx[cmdMbx b].phase = .answered (some seq) true st d l ∧
      Keeps [.pod, .mem, .store, .mbx, .pcie, .sur, .free] s t := h.told (rep := fun l => l = reply) rfl asked phase

/-- Settles O54: rails, temperature, and measurements from their start to their reply. -/
theorem surroundings : Obligations.Surroundings := by
  unfold Obligations.Surroundings
  intro r p mv tj s
  refine ⟨fun faulty => congrArg Host.Outcome.next (if_pos faulty), fun fine => ?_, ?_, ?_, ?_, fun busy => congrArg Host.Outcome.next (State.measStart_of_busy busy), fun j rest idle service jobs => ?_,
    fun idle x => congrArg Host.Outcome.next (if_pos (by rw [idle]; rfl)), fun j rest b op cap seq body runs jobs asked phase => ?_⟩
  · obtain ⟨u, run, kept, shown⟩ := State.supplyFault_of_fine fine
    have told := State.notice_keeps 0 (leBytes 4 (railBit r)) u
    have only := State.notice_onlyMbx 0 (leBytes 4 (railBit r)) u
    have keeps := run ▸ State.supplyFault_keeps r s
    have woken := State.wakeIf_keeps (bit u.pwr.cfg 2) wkSupply (u.notice 0 (leBytes 4 (railBit r)))
    generalize u.notice 0 (leBytes 4 (railBit r)) = v at run told only woken keeps
    generalize v.wakeIf (bit u.pwr.cfg 2) wkSupply = t at run woken keeps
    have mbx : u.mbx = s.mbx := kept.2 .mbx (by decide)
    have sur : u.sur = (s.railNoted r).sur := kept.2 .sur (by decide)
    refine ⟨t, congrArg Host.Outcome.next run, keeps, fun m apart => ?_, ?_, fun n => ?_⟩
    · rw [show t.mbx = v.mbx from woken.2 .mbx (by decide), only m apart, mbx]
    · rw [show t.sur = v.sur from woken.2 .sur (by decide), show v.sur = u.sur from told.2 .sur (by decide), sur]
      rfl
    · have seen := shown.congr (Eq.trans (woken.2 .ch (by decide) : t.ch = v.ch) (told.2 .ch (by decide)))
      exact ⟨seen.same n, seen.bank n, seen.other n⟩
  · obtain ⟨kept, shown⟩ := State.supplyClear_spec r s
    exact ⟨_, rfl, State.supplyClear_keeps r s, kept.2 .sur (by decide), shown⟩
  · exact apply_ite Host.Outcome.next ..
  · have woken := State.wakeIf_keeps ((s.sur.alarms tj && !s.sur.temp) && bit s.pwr.cfg 2) wkSupply (s.measuredTj tj)
    have sur : (s.tempMeasure tj).sur = (s.measuredTj tj).sur := woken.2 .sur (by decide)
    refine ⟨_, rfl, State.tempMeasure_keeps tj s, ?_, ?_⟩
    · rw [sur]
      rfl
    · rw [sur]
      exact s.sur.alarms_spec tj
  · have fails (reason : Nat) := State.measEnd_ends jobs stMeasFail reason [] 0xFFFFFFFF none
    refine ⟨fun refused => ?_, fun taken off => ?_, fun taken on faulty => ?_, fun taken on fine waits => ?_, fun taken on fine starts => ?_, fun early => ?_, fun late => ?_⟩
    · obtain ⟨keeps, running, length, told⟩ := State.measStart_of_refused idle service jobs refused
      exact ⟨_, rfl, keeps, running, length, told⟩
    · have run := (State.measStart_of_taken idle service jobs taken).trans (if_pos (by rw [off]; rfl))
      exact ⟨_, congrArg Host.Outcome.next run, (fails 3).running, (fails 3).jobs, (fails 3).told⟩
    · have run := (State.measStart_of_taken idle service jobs taken).trans ((if_neg (by rw [on]; decide)).trans (if_pos faulty))
      exact ⟨_, congrArg Host.Outcome.next run, (fails 4).running, (fails 4).jobs, (fails 4).told⟩
    · exact congrArg Host.Outcome.next ((State.measStart_of_taken idle service jobs taken).trans
        ((if_neg (by rw [on]; decide)).trans ((if_neg (by rw [fine]; decide)).trans (if_pos waits))))
    · have run := (State.measStart_of_taken idle service jobs taken).trans ((if_neg (by rw [on]; decide)).trans ((if_neg (by rw [fine]; decide)).trans (if_neg (by rw [starts]; decide))))
      refine ⟨_, congrArg Host.Outcome.next run, ((State.used_keeps s).mono (by decide)).step (Keeps.setSur s.used _) (by decide), ?_, rfl⟩
      exact Nat.lt_of_lt_of_le (Nat.lt_succ_self _) (Nat.le_add_right _ _)
    · exact (execMeasureGapTimeout_of_jobs idle jobs).trans (congrArg Host.Outcome.next (if_neg (by rw [early]; decide)))
    · exact ⟨_, (execMeasureGapTimeout_of_jobs idle jobs).trans (congrArg Host.Outcome.next (if_pos late)), (fails 1).running, (fails 1).jobs, (fails 1).told⟩
  · refine ⟨fun d => (State.measDone_failed runs jobs d).said asked phase, fun o cable far => ?_, fun o cable near => ?_, fun l cable missing => ?_, fun hi lo up dn x load => ⟨fun short => ?_, ?_, ?_, ?_⟩,
      fun load => ?_, fun o load fast supplied => ?_⟩
    · have result := State.measDone_cable runs jobs cable [some o]
      have good : cableClass s.fuse.cable[j.ch] [some o] = 0 := (cableClass_one ..).trans (if_neg (by omega))
      have time : roundDiv (([some o].map (fun x => x.getD 0)).sum - max 1 [some o].length * s.fuse.cable[j.ch]) (max 1 [some o].length) = o - s.fuse.cable[j.ch] := by simp [roundDiv_one]
      rw [good, if_pos rfl, time] at result
      exact result.said asked phase
    · have result := State.measDone_cable runs jobs cable [some o]
      have bad : cableClass s.fuse.cable[j.ch] [some o] = 2 := (cableClass_one ..).trans (if_pos (by omega))
      rw [bad, if_neg (by decide)] at result
      exact result.said asked phase
    · have result := State.measDone_cable runs jobs cable l
      rw [cableClass_missing _ missing, if_neg (by decide)] at result
      exact result.said asked phase
    · exact (State.measDone_load runs jobs load (State.loadDone_of_short j s short up dn x) (.inr rfl)).told (loadReply_class _ (by decide)) asked phase
    · rintro rfl rfl rfl rfl
      exact (State.measDone_load runs jobs load (State.loadDone_of_open j s x) (.inr rfl)).told (loadReply_class _ (by decide)) asked phase
    · rintro rfl rfl rfl rfl
      exact (State.measDone_load runs jobs load (State.loadDone_of_both j s x) (.inr rfl)).told (loadReply_class _ (by decide)) asked phase
    · rintro rfl rfl rfl rfl
      exact (State.measDone_stuck runs jobs load x).said asked phase
    · exact (State.measDone_load runs jobs load (State.loadDone_of_slow j s) (.inl rfl)).said asked phase
    · obtain ⟨c, near, done⟩ := State.loadDone_of_rise j s fast supplied
      exact (State.measDone_load runs jobs load done (.inr rfl)).told ⟨c, near, rfl⟩ asked phase

end Sys2Proof.Machine
end

section
/-!
PROOF of the obligation on adaptation policies (O55).
-/
namespace Sys2Proof.Machine

/-! ### When a policy declares (R334, R335, R337, R338) -/

/-- Policy i may declare a value for channel n in state q. -/
def AdaptOn (i : Fin 5) (n : Ch) (q : State) : Prop :=
  polOn i n q = true ∧ q.fw.restarting = false ∧ (i.val ≤ 1 → q.ch[n].vioFault = false) ∧ (i.val = 0 → q.ch[n].adv.pend = none)

/-- Something keeps policy i from declaring for channel n. -/
def adaptOff (i : Fin 5) (n : Ch) (q : State) : Bool :=
  !polOn i n q || q.fw.restarting || (decide (i.val ≤ 1) && q.ch[n].vioFault) || (i == 0 && q.ch[n].adv.pend.isSome)

theorem adaptOff_iff (i : Fin 5) (n : Ch) (q : State) : adaptOff i n q = false ↔ AdaptOn i n q := by
  have first : (i == 0) = decide (i.val = 0) := by rw [Bool.eq_iff_iff, beq_iff_eq, decide_eq_true_iff, Fin.ext_iff]; rfl
  unfold adaptOff AdaptOn
  rw [first]
  simp only [Bool.or_eq_false_iff, Bool.not_eq_false', Bool.and_eq_false_iff, decide_eq_false_iff_not, Option.isSome_eq_false_iff, Option.isNone_iff_eq_none, and_assoc, ← imp_iff_not_or]

theorem State.adapt_of_off {i : Fin 5} {n : Ch} {meas : Nat} {s : State} (h : ¬ AdaptOn i n (s.advNow n) ∨ polNew i.val n.val meas (s.advNow n) = none) : s.adapt i n meas = s.advNow n := by
  unfold State.adapt
  dsimp only
  generalize s.advNow n = q at h
  by_cases off : adaptOff i n q = true
  · exact if_pos off
  · refine (if_neg off).trans ?_
    rw [h.resolve_left (not_not.mpr ((adaptOff_iff i n q).mp (Bool.eq_false_iff.mpr off)))]

theorem not_bnot_of {b : Bool} (h : b = true) : ¬ (!b) = true := by rw [h]; decide

/-- The value that a policy's bounds make of a measured one. -/
def clampTo (p : Policy) (raw : Nat) : Nat := max p.min.toNat (min p.max.toNat raw)

theorem State.adapt_of_on {i : Fin 5} {n : Ch} {meas raw : Nat} {s : State} (on : AdaptOn i n (s.advNow n)) (new : polNew i.val n.val meas (s.advNow n) = some raw) :
    s.adapt i n meas =
      if !stepOk i.val (polOld i.val n (s.advNow n)) (clampTo (s.advNow n).sur.pol[i] raw) then s.advNow n
      else if (s.advNow n).pod[polPod i.val n].res.roomFor false then (s.advNow n).declare i n (clampTo (s.advNow n).sur.pol[i] raw) (clampTo (s.advNow n).sur.pol[i] raw != raw)
      else { s.advNow n with sur := { (s.advNow n).sur with
        deferred := (s.advNow n).sur.deferred.bump (s.advNow n).tick 1 255
        pol := (s.advNow n).sur.pol.set i.val { (s.advNow n).sur.pol[i] with deferred := (s.advNow n).sur.pol[i].deferred ++ [(n.val, meas, (s.advNow n).tick + 4000000)] } } } := by
  unfold State.adapt
  dsimp only
  generalize s.advNow n = q at on new
  refine (if_neg (Bool.eq_false_iff.mp ((adaptOff_iff i n q).mpr on))).trans ?_
  rw [new]
  rfl

/-! ### A declaration (R335, R336) -/

theorem pol_set_same (v : Vector Policy 5) (i : Fin 5) (p : Policy) : (v.set i.val p)[i] = p := Vector.getElem_set_self ..

theorem pol_set_other (v : Vector Policy 5) {i j : Fin 5} (p : Policy) (apart : j ≠ i) : (v.set i.val p)[j] = v[j] :=
  Vector.getElem_set_ne i.isLt j.isLt fun e => apart (Fin.ext e.symm)

theorem epochOf_spec (i : Nat) (n : Ch) (v : Nat) (q : State) : 512 ∣ epochOf i n v q ∧ q.tick + q.cal.horizon ≤ epochOf i n v q := by
  unfold epochOf
  dsimp only
  generalize (if i = 0 then _ else 0) = k
  exact ⟨Nat.dvd_mul_left .., by omega⟩

/-- The declaration of value v for channel n. -/
def declOf (i : Fin 5) (n : Ch) (v : Nat) (clamped : Bool) (q : State) : Decl := { idx := n.val, value := v, epoch := epochOf i.val n v q, clamped := clamped }

/-- A pod with one more place of its backlog taken. -/
def PodSt.reserve (x : PodSt) : PodSt := { x with res := { x.res with reserved := x.res.reserved + 1 } }

/-- A declaration with its place in the backlog. -/
def State.declared (i : Fin 5) (n : Ch) (v : Nat) (clamped : Bool) (q : State) : State :=
  { q.modPod (polPod i.val n) PodSt.reserve with sur := { q.sur with
    pol := q.sur.pol.set i.val { q.sur.pol[i] with decls := q.sur.pol[i].decls ++ [declOf i n v clamped q] }
    declared := q.sur.declared.bump q.tick 1 255
    clamped := if clamped then q.sur.clamped.bump q.tick 1 255 else q.sur.clamped } }

/-- The pair that policy 0 declares. -/
def Channel.paired (v e : Nat) (c : Channel) : Channel := { c with adv := { c.adv with pend := some { adv := c.adv.base, comp := some v, epoch := e * 32 } } }

theorem State.declare_eq (i : Fin 5) (n : Ch) (v : Nat) (clamped : Bool) (q : State) : q.declare i n v clamped =
    ((q.declared i n v clamped).when (i == 0) (State.modCh n (Channel.paired v (epochOf i.val n v q)))).notice 2
      (leBytes 4 i.val ++ leBytes 4 n.val ++ leBytes 4 v ++ leBytes 8 (epochOf i.val n v q * 32)) := rfl

/-- What a declaration leaves. -/
structure Declared (i : Fin 5) (n : Ch) (v : Nat) (clamped : Bool) (q t : State) : Prop where
  only : OnlyCh n q t
  mbx : OnlyMbx 26 q t
  pol : t.sur.pol[i] = { q.sur.pol[i] with decls := q.sur.pol[i].decls ++ [declOf i n v clamped q] }
  others : ∀ j : Fin 5, j ≠ i → t.sur.pol[j] = q.sur.pol[j]
  count : t.sur.declared = q.sur.declared.bump q.tick 1 255
  reserved : t.pod[polPod i.val n].res.reserved = q.pod[polPod i.val n].res.reserved + 1
  pair : i.val = 0 → t.ch[n].adv.pend = some { adv := q.ch[n].adv.base, comp := some v, epoch := epochOf i.val n v q * 32 }
  still : i.val ≠ 0 → t.ch = q.ch

theorem State.declare_declared (i : Fin 5) (n : Ch) (v : Nat) (clamped : Bool) (q : State) : Declared i n v clamped q (q.declare i n v clamped) := by
  have first : (i == 0) = decide (i.val = 0) := by rw [Bool.eq_iff_iff, beq_iff_eq, decide_eq_true_iff, Fin.ext_iff]; rfl
  rw [State.declare_eq, first]
  generalize epochE : epochOf i.val n v q = e
  have paired : Keeps [.ch] (q.declared i n v clamped) ((q.declared i n v clamped).when (decide (i.val = 0)) (State.modCh n (Channel.paired v e))) :=
    (Keeps.refl _ _).when _ _ fun r => State.modCh_keeps ..
  have chOnly : OnlyCh n q ((q.declared i n v clamped).when (decide (i.val = 0)) (State.modCh n (Channel.paired v e))) :=
    OnlyCh.when (OnlyCh.refl n _ : OnlyCh n q (q.declared i n v clamped)) fun r => State.modCh_onlyCh n _ r
  have pair (zero : i.val = 0) : ((q.declared i n v clamped).when (decide (i.val = 0)) (State.modCh n (Channel.paired v e))).ch[n] = Channel.paired v e q.ch[n] := by
    rw [decide_eq_true zero, State.when_true, State.modCh_ch_same]
    rfl
  have still (other : i.val ≠ 0) : ((q.declared i n v clamped).when (decide (i.val = 0)) (State.modCh n (Channel.paired v e))).ch = q.ch := by
    rw [decide_eq_false other, State.when_false]
    rfl
  have sur : ((q.declared i n v clamped).when (decide (i.val = 0)) (State.modCh n (Channel.paired v e))).sur = (q.declared i n v clamped).sur := paired.2 .sur (by decide)
  have pod : ((q.declared i n v clamped).when (decide (i.val = 0)) (State.modCh n (Channel.paired v e))).pod = (q.declared i n v clamped).pod := paired.2 .pod (by decide)
  have mbx : ((q.declared i n v clamped).when (decide (i.val = 0)) (State.modCh n (Channel.paired v e))).mbx = q.mbx := paired.2 .mbx (by decide)
  generalize (q.declared i n v clamped).when (decide (i.val = 0)) (State.modCh n (Channel.paired v e)) = u at chOnly pair still sur pod mbx
  have told := State.notice_keeps 2 (leBytes 4 i.val ++ leBytes 4 n.val ++ leBytes 4 v ++ leBytes 8 (e * 32)) u
  have only := State.notice_onlyMbx 2 (leBytes 4 i.val ++ leBytes 4 n.val ++ leBytes 4 v ++ leBytes 8 (e * 32)) u
  generalize u.notice 2 (leBytes 4 i.val ++ leBytes 4 n.val ++ leBytes 4 v ++ leBytes 8 (e * 32)) = t at told only
  have chT : t.ch = u.ch := told.2 .ch (by decide)
  have surT : t.sur = (q.declared i n v clamped).sur := Eq.trans (told.2 .sur (by decide)) sur
  have podT : t.pod = (q.declared i n v clamped).pod := Eq.trans (told.2 .pod (by decide)) pod
  refine ⟨fun k apart => by rw [chT]; exact chOnly k apart, fun m apart => ?_, ?_, fun j apart => ?_, ?_, ?_, fun zero => ?_, fun other => by rw [chT]; exact still other⟩
  · rw [only m apart, mbx]
  · rw [surT]; exact pol_set_same ..
  · rw [surT]; exact pol_set_other _ _ apart
  · rw [surT]; rfl
  · rw [podT]
    exact congrArg (fun x : PodSt => x.res.reserved) (State.modPod_pod_same q (polPod i.val n) PodSt.reserve)
  · rw [chT, pair zero, epochE]
    rfl

/-! ### Retries (R335) -/

theorem State.adaptRetry_of_early {i : Fin 5} {n : Ch} {s : State} (h : ∀ x ∈ s.sur.pol[i].deferred, x.1 = n.val → s.tick < x.2.2) : s.adaptRetry i n = s := by
  have none : s.sur.pol[i].deferred.find? (fun x => x.1 == n.val && decide (x.2.2 ≤ s.tick)) = none := List.find?_eq_none.mpr fun x mem on => by
    obtain ⟨same, due⟩ := (Bool.and_eq_true _ _).mp on
    exact absurd (of_decide_eq_true due) (Nat.not_le.mpr (h x mem (beq_iff_eq.mp same)))
  unfold State.adaptRetry
  dsimp only
  rw [none]

/-- The state in which nothing of policy i is deferred. -/
def State.undeferred (i : Fin 5) (s : State) : State := { s with sur := { s.sur with pol := s.sur.pol.set i.val { s.sur.pol[i] with deferred := [] } } }

theorem State.adaptRetry_of_due {i : Fin 5} {n : Ch} {meas at_ : Nat} {s : State} (one : s.sur.pol[i].deferred = [(n.val, meas, at_)]) (due : at_ ≤ s.tick) :
    s.adaptRetry i n = (s.undeferred i).adapt i n meas := by
  have found : s.sur.pol[i].deferred.find? (fun x => x.1 == n.val && decide (x.2.2 ≤ s.tick)) = some (n.val, meas, at_) := by
    rw [one, List.find?_cons_of_pos]
    exact (Bool.and_eq_true _ _).mpr ⟨beq_self_eq_true _, decide_eq_true due⟩
  have gone : s.sur.pol[i].deferred.filter (fun y => y != (n.val, meas, at_)) = [] := by
    rw [one]
    exact List.filter_eq_nil_iff.mpr fun y mem => by rw [List.mem_singleton.mp mem, bne_self_eq_false]; exact Bool.false_ne_true
  unfold State.adaptRetry
  dsimp only
  rw [found]
  dsimp only
  rw [gone]
  rfl

/-! ### Epochs (R335) -/

/-- The declarations of policy i for channel n whose epoch has come. -/
def dueDecls (i : Fin 5) (n : Ch) (s : State) : List Decl := s.sur.pol[i].decls.filter fun d => d.idx == n.val && decide (d.epoch ≤ s.tick)

/-- The state without a declaration of policy i. -/
def State.undeclared (i : Fin 5) (d : Decl) (s : State) : State := { s with sur := { s.sur with pol := s.sur.pol.set i.val { s.sur.pol[i] with decls := s.sur.pol[i].decls.erase d } } }

/-- The record of a declaration that applies. -/
def declRecord (i : Fin 5) (n : Ch) (d : Decl) : ResRec :=
  { actLt := d.epoch * 32, word := lo32 d.value, half := BitVec.ofNat 16 (1 + i.val * 16 + n.val * 256 + (if d.clamped then 2 ^ 15 else 0)) }

theorem State.adaptEpoch_of_early {i : Fin 5} {n : Ch} {s : State} (h : ∀ d ∈ s.sur.pol[i].decls, d.idx = n.val → s.tick < d.epoch) : s.adaptEpoch i n = s := by
  have none : s.sur.pol[i].decls.filter (fun d => d.idx == n.val && decide (d.epoch ≤ s.tick)) = [] := List.filter_eq_nil_iff.mpr fun d mem on => by
    obtain ⟨same, due⟩ := (Bool.and_eq_true _ _).mp on
    exact absurd (of_decide_eq_true due) (Nat.not_le.mpr (h d mem (beq_iff_eq.mp same)))
  unfold State.adaptEpoch
  dsimp only
  rw [none]
  rfl

theorem State.adaptEpoch_of_due {i : Fin 5} {n : Ch} {d : Decl} {s : State} (one : s.sur.pol[i].decls = [d]) (idx : d.idx = n.val) (due : d.epoch ≤ s.tick) :
    s.adaptEpoch i n = ((s.undeclared i d).adaptApply i.val n d).resWrite (polPod i.val n) true (declRecord i n d) := by
  have all : s.sur.pol[i].decls.filter (fun d => d.idx == n.val && decide (d.epoch ≤ s.tick)) = [d] := by
    rw [one]
    exact List.filter_eq_self.mpr fun x mem => by
      rw [List.mem_singleton.mp mem, idx, beq_self_eq_true, decide_eq_true due]
      rfl
  unfold State.adaptEpoch
  dsimp only
  rw [all]
  rfl

/-- What a declared value changes as it applies. -/
structure Applies (i : Fin 5) (n : Ch) (d : Decl) (s t : State) : Prop where
  sur : t.sur = s.sur
  comp : i.val = 0 → OnlyCh n s t ∧ t.ch[n] = { s.ch[n] with adv := s.ch[n].adv.takeAt d.epoch }
  drive : i.val = 1 → OnlyCh n s t ∧ ∃ x : W, t.ch[n] = { s.ch[n] with out := { s.ch[n].out with drivePend := some x } } ∧ fld x 1 2 = d.value % 4
  ch : i.val ≠ 0 → i.val ≠ 1 → t.ch = s.ch
  thr : i.val = 2 → ∀ k : Ax, t.axis[k] = if k.val = n.val % 8 then { s.axis[k] with upThr := lo32 d.value, dnThr := lo32 (roundDiv (3 * d.value) 4) } else s.axis[k]
  axis : i.val ≠ 2 → t.axis = s.axis
  lead : i.val = 3 → t.pwr = { s.pwr with lead := lo32 d.value }
  pwr : i.val ≠ 3 → t.pwr = s.pwr
  period : i.val = 4 → t.adc = { s.adc with period := lo32 d.value }
  adc : i.val ≠ 4 → t.adc = s.adc

theorem fld_drive (w : W) (v : Nat) : fld (ins w 1 2 (put 1 v)) 1 2 = v % 4 := by
  have inserted : fld (ins w 1 2 (put 1 v)) 1 2 = fld (put 1 v) 1 2 := fld_ins_same _ _ (by decide)
  rw [inserted, fld, put, BitVec.toNat_ofNat]
  omega

/-- An axis with the thresholds of a declared value. -/
def Axis.thresholds (d : Decl) (a : Axis) : Axis := { a with upThr := lo32 d.value, dnThr := lo32 (roundDiv (3 * d.value) 4) }

theorem State.thresholds_axis (n : Ch) (d : Decl) (s : State) (k : Ax) :
    (s.modAxis ⟨n.val % 8, by omega⟩ (Axis.thresholds d)).axis[k] = if k.val = n.val % 8 then s.axis[k].thresholds d else s.axis[k] := by
  by_cases same : k.val = n.val % 8
  · rw [if_pos same, show (⟨n.val % 8, by omega⟩ : Ax) = k from Fin.ext same.symm, State.modAxis_axis_same]
  · rw [if_neg same, State.modAxis_axis_other _ _ _ _ fun e => same (congrArg Fin.val e)]

theorem State.adaptApply_applies (i : Fin 5) (n : Ch) (d : Decl) (s : State) : Applies i n d s (s.adaptApply i.val n d) := by
  match i with
  | 0 => exact ⟨rfl, fun _ => ⟨State.modCh_onlyCh n _ s, State.modCh_ch_same ..⟩, (nomatch ·), fun h => absurd rfl h, (nomatch ·), fun _ => rfl, (nomatch ·), fun _ => rfl, (nomatch ·), fun _ => rfl⟩
  | 1 => exact ⟨rfl, (nomatch ·), fun _ => ⟨State.modCh_onlyCh n _ s, _, State.modCh_ch_same .., fld_drive ..⟩, fun _ h => absurd rfl h, (nomatch ·), fun _ => rfl, (nomatch ·), fun _ => rfl, (nomatch ·), fun _ => rfl⟩
  | 2 => exact ⟨rfl, (nomatch ·), (nomatch ·), fun _ _ => rfl, fun _ k => State.thresholds_axis n d s k, fun h => absurd rfl h, (nomatch ·), fun _ => rfl, (nomatch ·), fun _ => rfl⟩
  | 3 => exact ⟨rfl, (nomatch ·), (nomatch ·), fun _ _ => rfl, (nomatch ·), fun _ => rfl, fun _ => rfl, fun h => absurd rfl h, (nomatch ·), fun _ => rfl⟩
  | 4 => exact ⟨rfl, (nomatch ·), (nomatch ·), fun _ _ => rfl, (nomatch ·), fun _ => rfl, (nomatch ·), fun _ => rfl, fun _ => rfl, fun h => absurd rfl h⟩

theorem Applies.resWrite {i : Fin 5} {n : Ch} {d : Decl} {s t u : State} (h : Applies i n d s t) (k : Keeps [.pod, .mem, .store, .pcie] t u) : Applies i n d s u := by
  have sur : u.sur = t.sur := k.2 .sur (by decide)
  have ch : u.ch = t.ch := k.2 .ch (by decide)
  have axis : u.axis = t.axis := k.2 .axis (by decide)
  have pwr : u.pwr = t.pwr := k.2 .pwr (by decide)
  have adc : u.adc = t.adc := k.2 .adc (by decide)
  refine ⟨sur.trans h.sur, ?_, ?_, ?_, ?_, ?_, ?_, ?_, ?_, ?_⟩
  · unfold OnlyCh; rw [ch]; exact h.comp
  · unfold OnlyCh; rw [ch]; exact h.drive
  · rw [ch]; exact h.ch
  · rw [axis]; exact h.thr
  · rw [axis]; exact h.axis
  · rw [pwr]; exact h.lead
  · rw [pwr]; exact h.pwr
  · rw [adc]; exact h.period
  · rw [adc]; exact h.adc

/-! ### The obligation -/

/-- Settles O55: declarations, deferred ones, retries, and epochs. -/
theorem adaptation : Obligations.Adaptation := by
  unfold Obligations.Adaptation
  intro i n meas s
  have only := State.advNow_onlyCh n s
  have keeps := State.advNow_keeps n s
  have tick : (s.advNow n).tick = s.tick := keeps.tick (by decide)
  refine ⟨⟨fun off => congrArg Host.Outcome.next (State.adapt_of_off off), fun raw on new => ⟨fun small => ?_, fun step room => ?_, fun step full => ?_⟩⟩,
    fun early => congrArg Host.Outcome.next (State.adaptRetry_of_early early), fun at_ one due => congrArg Host.Outcome.next (State.adaptRetry_of_due one due),
    fun early => congrArg Host.Outcome.next (State.adaptEpoch_of_early early), fun d one idx due => ?_⟩
  · exact congrArg Host.Outcome.next ((State.adapt_of_on on new).trans (if_pos (by rw [Bool.not_eq_true']; exact small)))
  · have run := (State.adapt_of_on on new).trans ((if_neg (not_bnot_of step)).trans (if_pos room))
    have done := State.declare_declared i n (clampTo (s.advNow n).sur.pol[i] raw) (clampTo (s.advNow n).sur.pol[i] raw != raw) (s.advNow n)
    have kept := run ▸ State.adapt_keeps i n meas s
    have sur : (s.advNow n).sur = s.sur := keeps.2 .sur (by decide)
    have pod : (s.advNow n).pod = s.pod := keeps.2 .pod (by decide)
    have cal : (s.advNow n).cal = s.cal := keeps.2 .cal (by decide)
    obtain ⟨grid, far⟩ := epochOf_spec i.val n (clampTo (s.advNow n).sur.pol[i] raw) (s.advNow n)
    refine ⟨_, _, congrArg Host.Outcome.next run, kept, only.trans done.only, (OnlyMbx.of_keeps keeps (by decide)).trans done.mbx, grid,
      by rw [← tick, ← cal]; exact far, done.pol, fun j apart => by rw [done.others j apart, sur], by rw [done.count, sur, tick],
      by rw [done.reserved, pod], done.pair, done.still⟩
  · have run := (State.adapt_of_on on new).trans ((if_neg (not_bnot_of step)).trans (if_neg (by rw [full]; decide)))
    rw [tick] at run
    have sur : (s.advNow n).sur = s.sur := keeps.2 .sur (by decide)
    exact ⟨_, congrArg Host.Outcome.next run, (keeps.mono (by decide)).trans ((Keeps.setSur ..).mono (by decide)), rfl, by rw [← sur], pol_set_same ..⟩
  · have applied := (State.adaptApply_applies i n d (s.undeclared i d)).resWrite (State.resWrite_keeps (polPod i.val n) true (declRecord i n d) _)
    have gone : s.sur.pol[i].decls.erase d = [] := by rw [one, List.erase_cons_head]
    rw [← State.adaptEpoch_of_due one idx due] at applied
    refine ⟨_, rfl, by rw [applied.sur]; rfl, ?_, fun j apart => ?_, applied.comp, applied.ch, applied.drive, applied.thr, applied.axis, applied.lead, applied.pwr, applied.period, applied.adc⟩
    · rw [applied.sur, ← gone]
      exact pol_set_same ..
    · rw [applied.sur]
      exact pol_set_other _ _ apart

end Sys2Proof.Machine
end

section
/-!
PROOF of the obligation on the boot and on loads by a host (O58).
-/
namespace Sys2Proof.Machine

/-! ### The microcode (R201 to R204) -/

/-- The control store of pod p after a boot with a container or with none. -/
def microOf (floor : Nat) (patch : Option PatchIn) (p : Pod) : Micro :=
  match patch with
  | some i => if patchCode floor i = 0 then
      { locked := true, patched := true, level := i.level, words := patchWords p i.recs, records := (i.recs.filter (fun r => r.podMask.getLsbD p.val)).length }
    else { locked := true, code := BitVec.ofNat 4 (patchCode floor i), patchErr := true }
  | none => { locked := true, code := 1 }

/-- A pod with its control store loaded. -/
def PodSt.load (u : Micro) (q : PodSt) : PodSt := { q with uc := u }

/-- What each pod's state becomes where it depends on the pod. -/
theorem forAll_modPods_pod {l : List Pod} (once : l.Nodup) (f : Pod → PodSt → PodSt) (s : State) (p : Pod) :
    (forAll l (fun m => State.modPod m (f m)) s).pod[p] = if p ∈ l then f p s.pod[p] else s.pod[p] := by
  unfold forAll
  induction l generalizing s with
  | nil => rfl
  | cons m l ih =>
    obtain ⟨notIn, once'⟩ := List.nodup_cons.mp once
    rw [List.foldl_cons, ih once']
    by_cases h : p = m
    · subst h
      rw [if_neg notIn, if_pos List.mem_cons_self, State.modPod_pod_same]
    · rw [State.modPod_pod_other s m p (f m) h]
      simp only [List.mem_cons, h, false_or]

theorem forAll_modHealths_pod {l : List Pod} (once : l.Nodup) (f : Pod → PodHealth → PodHealth) (s : State) (p : Pod) :
    (forAll l (fun m => State.modHealth m (f m)) s).health.pod[p] = if p ∈ l then f p s.health.pod[p] else s.health.pod[p] := by
  unfold forAll
  induction l generalizing s with
  | nil => rfl
  | cons m l ih =>
    obtain ⟨notIn, once'⟩ := List.nodup_cons.mp once
    rw [List.foldl_cons, ih once']
    by_cases h : p = m
    · subst h
      rw [if_neg notIn, if_pos List.mem_cons_self, State.modHealth_health_same]
    · rw [State.modHealth_health_other h]
      simp only [List.mem_cons, h, false_or]

theorem forAll_modHealths_sum (l : List Pod) (f : Pod → PodHealth → PodHealth) (s : State) : (forAll l (fun m => State.modHealth m (f m)) s).health.sum = s.health.sum := by
  refine forAll_induction (P := fun t : State => t.health.sum = s.health.sum) (fun _ _ _ h => ?_) rfl
  exact h

theorem State.loadMicro_eq (patch : Option PatchIn) (s : State) : s.loadMicro patch =
    (forAll allPods (fun p => State.modPod p (PodSt.load (microOf s.fuse.patchFloor patch p))) s).when (decide (2 ≤ patch.elim 1 (patchCode s.fuse.patchFloor))) (State.hsum 12) := by
  cases patch <;> rfl

theorem State.loadMicro_uc (patch : Option PatchIn) (s : State) (p : Pod) : (s.loadMicro patch).pod[p].uc = microOf s.fuse.patchFloor patch p := by
  have loaded := forAll_modPods_pod (List.nodup_finRange 8) (fun p => PodSt.load (microOf s.fuse.patchFloor patch p)) s p
  rw [State.loadMicro_eq]
  cases decide (2 ≤ patch.elim 1 (patchCode s.fuse.patchFloor)) <;>
    exact congrArg PodSt.uc (loaded.trans (if_pos (List.mem_finRange p)))

/-- A container that fails has a code that the summary tells. -/
theorem patchCode_ge {floor : Nat} {x : PatchIn} (fails : patchCode floor x ≠ 0) : 2 ≤ patchCode floor x := by
  unfold patchCode at fails ⊢
  split_ifs at fails ⊢ <;> omega

theorem State.loadMicro_sum {patch : Option PatchIn} {s : State} (h : s.health.sum.get 12 = true ∨ ∃ x, patch = some x ∧ patchCode s.fuse.patchFloor x ≠ 0) :
    (s.loadMicro patch).health.sum.get 12 = true := by
  have same : (forAll allPods (fun p => State.modPod p (PodSt.load (microOf s.fuse.patchFloor patch p))) s).health = s.health :=
    (Keeps.forAll (l := [.pod]) _ (fun p u => State.modPod_keeps p _ u) allPods (Keeps.refl _ s)).2 .health (by decide)
  rw [State.loadMicro_eq]
  generalize forAll allPods (fun p => State.modPod p (PodSt.load (microOf s.fuse.patchFloor patch p))) s = u at same
  obtain held | ⟨x, rfl, fails⟩ := h
  · cases decide (2 ≤ patch.elim 1 (patchCode s.fuse.patchFloor))
    · rw [State.when_false, same, held]
    · rw [State.when_true, State.hsum_get, same, held, Bool.true_or]
  · rw [Option.elim_some, decide_eq_true (patchCode_ge fails), State.when_true, State.hsum_get]
    exact Bool.or_eq_true_iff.mpr (.inr (by decide))

/-! ### A started image (R296, R349) -/

theorem bootUnits_retired (fails : BitVec 17) (h : PodHealth) : (bootUnits fails h).retired = fails := by
  unfold bootUnits
  dsimp only
  split
  · rfl
  · split <;> rfl

/-- The firmware that starts from an image, with the versions that the state v stands at. -/
def Firmware.start (i : ImageIn) (v : Nat) (f : Firmware) : Firmware :=
  { f with
    state := 0, subsystem := i.subsystem
    keeperVer := BitVec.ofNat 32 (Config.freeNat (v + 0) % 2 ^ 32), serviceVer := BitVec.ofNat 32 (Config.freeNat (v + 1) % 2 ^ 32), build := BitVec.ofNat 64 (Config.freeNat (v + 2) % 2 ^ 64) }

/-- The units that pass or fail the boot self-test. -/
def State.unitsTested (test : List (BitVec 17)) (s : State) : State := forAll allPods (fun p => State.modHealth p (bootUnits (test.getD p.val 0))) s

theorem Keeps.setContents (s : State) (m : List (Nat × Byte)) : Keeps [.mem] s { s with store := { s.store with mem := m } } :=
  ⟨rfl, fun p apart => by
      cases p
      case mem => exact absurd (by decide) apart
      all_goals exact Eq.refl _⟩

/-- A state whose firmware is f, with an empty store. -/
def State.withFirmware (b : Boot) (f : Firmware) (s : State) : State := { s.used.used.used with boot := b, store := { s.store with mem := [] }, fw := f }

theorem State.withFirmware_keeps (b : Boot) (f : Firmware) (s : State) : Keeps [.mem, .fw, .boot, .free] s (s.withFirmware b f) := by
  have used : Keeps [.mem, .fw, .boot, .free] s s.used.used.used :=
    (((State.used_keeps s).trans (State.used_keeps _)).trans (State.used_keeps _)).mono (by decide)
  exact ((used.step (Keeps.setBoot _ b) (by decide)).step (Keeps.setContents _ []) (by decide)).step (Keeps.setFw _ f) (by decide)

/-- The image runs. -/
def State.imageRuns (i : ImageIn) (s : State) : State := s.withFirmware { s.boot with verified := true, level := i.level } (s.fw.start i s.free)

theorem State.imageRuns_keeps (i : ImageIn) (s : State) : Keeps [.mem, .fw, .boot, .free] s (s.imageRuns i) := State.withFirmware_keeps ..

theorem State.startImage_eq (i : ImageIn) (test : List (BitVec 17)) (s : State) : s.startImage i test = ((s.loadMicro i.patch).unitsTested test).imageRuns i := rfl

/-- What a started image leaves. -/
structure Starts (i : ImageIn) (test : List (BitVec 17)) (s t : State) : Prop where
  keeps : Keeps [.pod, .mem, .fw, .health, .boot, .free] s t
  boot : t.boot = { s.boot with verified := true, level := i.level }
  state : t.fw.state = 0
  ready : t.fw.ready = s.fw.ready
  subsystem : t.fw.subsystem = i.subsystem
  mem : t.store.mem = []
  retired : ∀ p : Pod, t.health.pod[p].retired = test.getD p.val 0
  micro : ∀ p : Pod, t.pod[p].uc = microOf s.fuse.patchFloor i.patch p
  told : s.health.sum.get 12 = true ∨ (∃ x, i.patch = some x ∧ patchCode s.fuse.patchFloor x ≠ 0) → t.health.sum.get 12 = true

theorem State.startImage_starts (i : ImageIn) (test : List (BitVec 17)) (s : State) : Starts i test s (s.startImage i test) := by
  rw [State.startImage_eq]
  have loaded := State.loadMicro_keeps i.patch s
  have micro := State.loadMicro_uc i.patch s
  have told := State.loadMicro_sum (patch := i.patch) (s := s)
  generalize s.loadMicro i.patch = u at loaded micro told
  have tested : Keeps [.health] u (u.unitsTested test) := Keeps.forAll _ (fun p r => State.modHealth_keeps p _ r) allPods (Keeps.refl _ u)
  have retired (p : Pod) : (u.unitsTested test).health.pod[p].retired = test.getD p.val 0 := by
    have at_p := forAll_modHealths_pod (List.nodup_finRange 8) (fun p => bootUnits (test.getD p.val 0)) u p
    exact (congrArg PodHealth.retired (at_p.trans (if_pos (List.mem_finRange p)))).trans (bootUnits_retired ..)
  have sum : (u.unitsTested test).health.sum = u.health.sum := forAll_modHealths_sum ..
  generalize u.unitsTested test = v at tested retired sum
  have kept := ((loaded.mono (by decide : _ ⊆ [.pod, .health])).trans (tested.mono (by decide)))
  have boot : v.boot = s.boot := kept.2 .boot (by decide)
  have fw : v.fw = s.fw := kept.2 .fw (by decide)
  have pod : v.pod = u.pod := tested.2 .pod (by decide)
  refine ⟨(kept.mono (by decide)).trans ((State.imageRuns_keeps i v).mono (by decide)), ?_, rfl, ?_, rfl, rfl, retired, fun p => ?_, fun h => ?_⟩
  · rw [← boot]; rfl
  · rw [← fw]; rfl
  · rw [← micro p, ← pod]; rfl
  · exact (congrArg (fun x : Sticky => x.get 12) sum).trans (told h)

/-! ### A refused image (R349) -/

/-- What a refused image leaves. -/
structure Refused (k : Nat) (s t : State) : Prop where
  keeps : Keeps [.mbx, .health, .boot, .free] s t
  boot : t.boot = { s.boot with failStep := BitVec.ofNat 4 k }
  told : t.health.sum.get 12 = true

theorem State.imageRefused_refused (k : Nat) (s : State) : Refused k s (s.imageRefused k) := by
  have keeps := State.imageRefused_keeps k s
  unfold State.imageRefused at keeps ⊢
  have told := State.notice_keeps 7 [BitVec.ofNat 8 k] { (s.hsum 12) with boot := { (s.hsum 12).boot with failStep := BitVec.ofNat 4 k } }
  generalize State.notice 7 [BitVec.ofNat 8 k] _ = t at keeps told
  refine ⟨keeps, told.2 .boot (by decide), ?_⟩
  rw [show t.health = (s.hsum 12).health from told.2 .health (by decide), State.hsum_get]
  exact Bool.or_eq_true_iff.mpr (.inr (by decide))

/-! ### The release of the core reset (R341, R346) -/

/-- The core reset has ended, with the straps sampled. -/
def State.released (st : BitVec 2) (s : State) : State := { s with boot := { s.boot with held := false, alert := false, src := st } }

theorem State.released_keeps (st : BitVec 2) (s : State) : Keeps [.boot] s (s.released st) := Keeps.setBoot ..

/-- What the straps select. -/
def State.bootBy (st : BitVec 2) (a b : ImageIn) (test : List (BitVec 17)) (s : State) : State :=
  match st.toNat with
  | 0 => s.flashBoot a b test
  | 3 => { s with fw := { s.fw with state := 3 } }
  | _ => s

theorem State.resetRelease_of_held {st : BitVec 2} {a b : ImageIn} {test : List (BitVec 17)} {s : State} (h : ¬ (s.boot.held = true ∧ s.boot.testmode = false ∧ s.boot.vioDown = 0)) :
    s.resetRelease st a b test = s := by
  unfold State.resetRelease
  refine if_pos ?_
  by_contra no
  simp only [Bool.or_eq_true, not_or, Bool.not_eq_true', Bool.not_eq_false, Bool.not_eq_true, bne_iff_ne, ne_eq, not_not] at no
  obtain ⟨⟨held, mode⟩, rails⟩ := no
  exact h ⟨held, mode, rails⟩

theorem State.resetRelease_of_ends {st : BitVec 2} {a b : ImageIn} {test : List (BitVec 17)} {s : State} (h : s.boot.held = true ∧ s.boot.testmode = false ∧ s.boot.vioDown = 0) :
    s.resetRelease st a b test = State.bootBy st a b test ((s.released st).when s.abort.safeLow (State.abortScope allChs (s.released st).tw true)) := by
  obtain ⟨held, mode, rails⟩ := h
  unfold State.resetRelease
  refine if_neg ?_
  rw [held, mode, rails]
  decide

theorem State.bootBy_keeps (st : BitVec 2) (a b : ImageIn) (test : List (BitVec 17)) (s : State) : Keeps [.pod, .mem, .store, .mbx, .fw, .health, .boot, .free] s (s.bootBy st a b test) := by
  unfold State.bootBy
  split
  · exact State.flashBoot_keeps ..
  · exact (Keeps.setFw ..).mono (by decide)
  · exact Keeps.refl ..

/-! ### The two copies of the flash (R347, R349) -/

/-- The primary copy has failed. -/
def State.primaryFails (k : Nat) (s : State) : State := { (s.imageRefused k) with boot := { (s.imageRefused k).boot with priFail := true } }

/-- The alternate copy is taken. -/
def State.alternates (s : State) : State := { s with boot := { s.boot with alt := true } }

theorem State.primaryFails_keeps (k : Nat) (s : State) : Keeps [.mbx, .health, .boot, .free] s (s.primaryFails k) :=
  (State.imageRefused_keeps k s).step (Keeps.setBoot ..) (by decide)

theorem State.primaryFails_boot (k : Nat) (s : State) : (s.primaryFails k).boot = { s.boot with failStep := BitVec.ofNat 4 k, priFail := true } := by
  have refused := (State.imageRefused_refused k s).boot
  rw [State.primaryFails, refused]

theorem State.flashBoot_of_primary {a b : ImageIn} {test : List (BitVec 17)} {s : State} (good : imageFault s.fuse.imageFloor a = none) : s.flashBoot a b test = s.startImage a test := by
  unfold State.flashBoot
  rw [good]

theorem State.flashBoot_of_alternate {a b : ImageIn} {test : List (BitVec 17)} {k : Nat} {s : State} (bad : imageFault s.fuse.imageFloor a = some k) (good : imageFault s.fuse.imageFloor b = none) :
    s.flashBoot a b test = (s.primaryFails k).alternates.startImage b test := by
  have fuse : (s.primaryFails k).fuse = s.fuse := (State.primaryFails_keeps k s).2 .fuse (by decide)
  rw [← fuse] at good
  unfold State.flashBoot
  rw [bad]
  change (match imageFault (s.primaryFails k).fuse.imageFloor b with | none => _ | some l => _) = _
  rw [good]
  rfl

theorem State.flashBoot_of_none {a b : ImageIn} {test : List (BitVec 17)} {k l : Nat} {s : State} (bad : imageFault s.fuse.imageFloor a = some k) (worse : imageFault s.fuse.imageFloor b = some l) :
    s.flashBoot a b test = ((s.primaryFails k).imageRefused l).bootFails := by
  have fuse : (s.primaryFails k).fuse = s.fuse := (State.primaryFails_keeps k s).2 .fuse (by decide)
  rw [← fuse] at worse
  unfold State.flashBoot
  rw [bad]
  change (match imageFault (s.primaryFails k).fuse.imageFloor b with | none => _ | some l => _) = _
  rw [worse]
  rfl

theorem State.flashBoot_held (a b : ImageIn) (test : List (BitVec 17)) (s : State) : (s.flashBoot a b test).boot.held = s.boot.held := by
  cases first : imageFault s.fuse.imageFloor a with
  | none => rw [State.flashBoot_of_primary first, (State.startImage_starts a test s).boot]
  | some k =>
    have failed := State.primaryFails_boot k s
    cases second : imageFault s.fuse.imageFloor b with
    | none =>
      rw [State.flashBoot_of_alternate first second, (State.startImage_starts b test (s.primaryFails k).alternates).boot]
      change (s.primaryFails k).boot.held = s.boot.held
      rw [failed]
    | some l =>
      have refused := (State.imageRefused_refused l (s.primaryFails k)).boot
      rw [failed] at refused
      rw [State.flashBoot_of_none first second]
      change ((s.primaryFails k).imageRefused l).boot.held = s.boot.held
      rw [refused]

theorem State.bootBy_held (st : BitVec 2) (a b : ImageIn) (test : List (BitVec 17)) (s : State) : (s.bootBy st a b test).boot.held = s.boot.held := by
  unfold State.bootBy
  split
  · exact State.flashBoot_held ..
  · rfl
  · rfl

/-- A started image as the table has it. -/
theorem Starts.shown {i : ImageIn} {test : List (BitVec 17)} {s u t : State} (h : Starts i test u t) (fw : u.fw = s.fw) (fuse : u.fuse = s.fuse) :
    t.boot.verified = true ∧ t.boot.level = i.level ∧ t.fw.state = 0 ∧ t.fw.ready = s.fw.ready ∧ t.fw.subsystem = i.subsystem ∧ t.store.mem = [] ∧ (∀ p : Pod, t.health.pod[p].retired = test.getD p.val 0 ∧
      t.pod[p].uc.locked = true ∧ (i.patch = none → t.pod[p].uc = { locked := true, code := 1 }) ∧
      (∀ x : PatchIn, i.patch = some x → patchCode s.fuse.patchFloor x = 0 → t.pod[p].uc.patched = true ∧ t.pod[p].uc.level = x.level ∧ t.pod[p].uc.code = 0 ∧ t.pod[p].uc.words = patchWords p x.recs) ∧
      (∀ x : PatchIn, i.patch = some x → patchCode s.fuse.patchFloor x ≠ 0 → t.pod[p].uc = { locked := true, code := BitVec.ofNat 4 (patchCode s.fuse.patchFloor x), patchErr := true } ∧ t.health.sum.get 12 = true)) := by
  obtain ⟨-, boot, state, ready, subsystem, mem, retired, micro, told⟩ := h
  rw [fuse] at micro told
  refine ⟨by rw [boot], by rw [boot], state, by rw [ready, fw], subsystem, mem, fun p => ⟨retired p, ?_, fun none => ?_, fun x is passes => ?_, fun x is fails => ?_⟩⟩
  · rw [micro p]
    unfold microOf
    split
    · split <;> rfl
    · rfl
  · rw [micro p, none]
    rfl
  · have uc : t.pod[p].uc = _ := (micro p).trans ((congrArg (microOf s.fuse.patchFloor · p) is).trans (if_pos passes))
    rw [uc]
    exact ⟨rfl, rfl, rfl, rfl⟩
  · exact ⟨(micro p).trans ((congrArg (microOf s.fuse.patchFloor · p) is).trans (if_neg fails)), told (.inr ⟨x, is, fails⟩)⟩

/-! ### FW_READY and the commands of the ROM (R346, R349) -/

theorem State.fwStarts_of_not {s : State} (h : ¬ (s.boot.verified = true ∧ s.fw.ready = false ∧ s.boot.held = false)) : s.fwStarts = s := if_neg fun on => by
  simp only [Bool.and_eq_true, Bool.not_eq_true', and_assoc] at on
  exact h on

theorem State.fwStarts_of_up {s : State} (h : s.boot.verified = true ∧ s.fw.ready = false ∧ s.boot.held = false) :
    s.fwStarts = ({ s with fw := { s.fw with ready := true, state := 1, lastBeat := Vector.replicate 4 s.tick } } : State).hsum 15 := by
  obtain ⟨verified, ready, held⟩ := h
  unfold State.fwStarts
  rw [verified, ready, held]
  rfl

theorem loadAccepted_iff (m : Master) (s : State) :
    loadAccepted m s = true ↔ s.boot.held = false ∧ s.boot.verified = false ∧ ((s.boot.src = 1 ∧ m = .qspi) ∨ (s.boot.src = 2 ∧ m = .pcie) ∨ s.boot.src = 3) := by
  unfold loadAccepted
  simp only [Bool.and_eq_true, Bool.or_eq_true, Bool.not_eq_true', beq_iff_eq, and_assoc, or_assoc]

theorem State.bootLoad_of_good {m : Master} {i : ImageIn} {test : List (BitVec 17)} {s : State} (takes : loadAccepted m s = true) (good : imageFault s.fuse.imageFloor i = none) :
    s.bootLoad m i test = s.startImage i test := by
  unfold State.bootLoad
  rw [takes, good]
  rfl

theorem State.bootLoad_of_bad {m : Master} {i : ImageIn} {test : List (BitVec 17)} {k : Nat} {s : State} (takes : loadAccepted m s = true) (bad : imageFault s.fuse.imageFloor i = some k) :
    s.bootLoad m i test = (s.imageRefused k).bootFails := by
  unfold State.bootLoad
  rw [takes, bad]
  rfl

/-- A refused image with no other: the boot has failed. -/
theorem Refused.bootFails {k : Nat} {s t : State} (h : Refused k s t) :
    Keeps [.mbx, .fw, .health, .boot, .free] s t.bootFails ∧ t.bootFails.fw = { s.fw with state := 4 } ∧ t.bootFails.boot = { s.boot with failStep := BitVec.ofNat 4 k } ∧ t.bootFails.health.sum.get 12 = true := by
  have fw : t.fw = s.fw := h.keeps.2 .fw (by decide)
  refine ⟨((h.keeps).mono (by decide)).step (Keeps.setFw ..) (by decide), ?_, h.boot, h.told⟩
  rw [← fw]
  rfl

/-! ### The obligation -/

/-- Settles O58: the release of the core reset by what the straps select, the start of the firmware, and the commands of the ROM. -/
theorem bootAndLoad : Obligations.BootAndLoad := by
  unfold Obligations.BootAndLoad
  intro st a b test m s
  refine ⟨fun not => congrArg Host.Outcome.next (State.resetRelease_of_held not), fun ends high => ?_, fun ends low => ?_,
    ⟨fun not => congrArg Host.Outcome.next (State.fwStarts_of_not not), fun up => ?_⟩, fun port => ?_, fun port => ?_⟩
  · have run : s.resetRelease st a b test = State.bootBy st a b test (s.released st) := by rw [State.resetRelease_of_ends ends, high, State.when_false]
    have fw : (s.released st).fw = s.fw := rfl
    have fuse : (s.released st).fuse = s.fuse := rfl
    have boot : (s.released st).boot = { s.boot with held := false, alert := false, src := st } := rfl
    have keeps := State.released_keeps st s
    generalize s.released st = r at run fw fuse boot keeps
    refine ⟨?_, ?_, ?_, ?_, ?_⟩
    · rintro rfl
      refine ⟨_, congrArg Host.Outcome.next run, (keeps.mono (by decide)).trans ((Keeps.setFw ..).mono (by decide)), boot, ?_⟩
      rw [← fw]
      rfl
    · rintro (rfl | rfl) <;> exact ⟨_, congrArg Host.Outcome.next run, keeps, boot⟩
    · rintro rfl good
      have started := State.startImage_starts a test r
      refine ⟨_, congrArg Host.Outcome.next (run.trans (State.flashBoot_of_primary (by rw [fuse]; exact good))), (keeps.mono (by decide)).trans started.keeps, started.shown fw fuse, ?_, ?_, ?_⟩ <;>
        rw [started.boot, boot]
    · rintro k rfl bad good
      have tried := State.primaryFails_keeps k r
      have failed : (r.primaryFails k).boot = _ := (State.primaryFails_boot k r).trans (by rw [boot])
      have told := (State.imageRefused_refused k r).told
      have started := State.startImage_starts b test (r.primaryFails k).alternates
      have alternate : (r.primaryFails k).alternates.boot = { (r.primaryFails k).boot with alt := true } := rfl
      refine ⟨_, congrArg Host.Outcome.next (run.trans (State.flashBoot_of_alternate (by rw [fuse]; exact bad) (by rw [fuse]; exact good))),
        started.shown (Eq.trans (tried.2 .fw (by decide)) fw) (Eq.trans (tried.2 .fuse (by decide)) fuse), ?_, ?_, ?_, ?_, started.told (.inl told)⟩ <;>
        rw [started.boot, alternate, failed]
    · rintro k l rfl bad worse
      have tried := State.primaryFails_keeps k r
      have fwP : (r.primaryFails k).fw = s.fw := Eq.trans (tried.2 .fw (by decide)) fw
      have failed : (r.primaryFails k).boot = _ := (State.primaryFails_boot k r).trans (by rw [boot])
      obtain ⟨kept, fwF, bootF, told⟩ := (State.imageRefused_refused l (r.primaryFails k)).bootFails
      refine ⟨_, congrArg Host.Outcome.next (run.trans (State.flashBoot_of_none (by rw [fuse]; exact bad) (by rw [fuse]; exact worse))),
        ((keeps.mono (by decide)).trans (tried.mono (by decide))).trans kept, by rw [fwF, fwP], ?_, ?_, ?_, ?_, told⟩ <;>
        rw [bootF, failed]
  · rw [show exec (.coreResetRelease st a b test) s = .next (s.resetRelease st a b test) from rfl, State.resetRelease_of_ends ends, low, State.when_true]
    have stops (n : Ch) : ((s.released st).abortScope allChs (s.released st).tw true).ch[n].aborted = true :=
      ((State.abortScope_stops (List.nodup_finRange 128) (s.released st).tw true (s.released st) n).1 (List.mem_finRange n)).aborted
    have held : ((s.released st).abortScope allChs (s.released st).tw true).boot.held = false :=
      congrArg Boot.held ((State.abortScope_keeps allChs (s.released st).tw true (s.released st)).2 .boot (by decide))
    generalize (s.released st).abortScope allChs (s.released st).tw true = u at stops held
    have ch : (u.bootBy st a b test).ch = u.ch := (State.bootBy_keeps st a b test u).2 .ch (by decide)
    exact ⟨_, rfl, (State.bootBy_held ..).trans held, fun n => (congrArg (fun v : Vector Channel 128 => v[n].aborted) ch).trans (stops n)⟩
  · refine ⟨_, congrArg Host.Outcome.next (State.fwStarts_of_up up), ((Keeps.setFw s _).mono (by decide)).step (State.hsum_keeps ..) (by decide), rfl, ?_⟩
    rw [State.hsum_get]
    exact Bool.or_eq_true_iff.mpr (.inr (by decide))
  · have run : exec (.bootCmdLoad m a test) s = .next (State.bootLoad m a test (found m s)) := exec_served rfl port
    rw [run]
    have accepted := loadAccepted_iff m (found m s)
    rw [found_boot] at accepted
    refine ⟨fun not => congrArg Host.Outcome.next (if_pos (by rw [Bool.eq_false_iff.mpr fun on => not (accepted.mp on)]; rfl)), fun takes good => ?_, fun k takes bad => ?_⟩
    · have started := State.startImage_starts a test (found m s)
      exact ⟨_, congrArg Host.Outcome.next (State.bootLoad_of_good (accepted.mpr takes) (by rw [found_fuse]; exact good)), started.keeps, started.shown (found_fw m s) (found_fuse m s)⟩
    · obtain ⟨kept, fwF, bootF, told⟩ := (State.imageRefused_refused k (found m s)).bootFails
      exact ⟨_, congrArg Host.Outcome.next (State.bootLoad_of_bad (accepted.mpr takes) (by rw [found_fuse]; exact bad)), kept, by rw [fwF, found_fw], by rw [bootF, found_boot], told⟩
  · have run : exec (.bootCmdFlash m a) s = .next (State.bootFlash a (found m s)) := exec_served rfl port
    rw [run]
    refine congrArg Host.Outcome.next ?_
    unfold State.bootFlash
    refine if_congr ?_ (by rw [found_boot]) rfl
    rw [found_boot, found_fuse]
    simp only [Bool.and_eq_true, Bool.not_eq_true', beq_iff_eq, Option.isNone_iff_eq_none, and_assoc]

end Sys2Proof.Machine
end

section
/-!
PROOF of the obligation on sleep, the wake sources, and the return to RUN (O59).
-/
namespace Sys2Proof.Machine

/-! ### The entry (R19, R320, R351, R355) -/

/-- A reply is still to be written. -/
def replyWaits (s : State) : Bool := s.mbx.toList.any (fun x => match x.phase with
  | .answered .. => true
  | .repeated _ => true
  | _ => false)

/-- Every reply is written. -/
def Replied (s : State) : Prop := ∀ b : Mbx, match s.mbx[b].phase with | .answered .. => False | .repeated _ => False | _ => True

theorem replyWaits_iff (s : State) : replyWaits s = false ↔ Replied s := by
  unfold replyWaits Replied
  rw [List.any_eq_false]
  constructor
  · intro h b
    have free := h s.mbx[b] (Vector.mem_toList_iff.mpr (Vector.getElem_mem b.isLt))
    split at free <;> simp_all
  · intro h x mem
    obtain ⟨i, lt, rfl⟩ := Vector.mem_iff_getElem.mp (Vector.mem_toList_iff.mp mem)
    have free := h ⟨i, lt⟩
    change (match s.mbx[i].phase with | .answered .. => False | .repeated _ => False | _ => True) at free
    split at free <;> simp_all

/-- The state as it falls asleep, before it tells so: its counters and axes are as v has them. -/
def State.fallsAsleep (hib : Bool) (segs : BitVec 6) (s : State) : State :=
  let s := s.used.setRes s.pwr.target
  { s with
    time := { s.time with
      pllLock := false, xinOk := !hib && s.time.xinOk, backup := !hib && s.time.backup, rtcOk := hib || s.time.rtcOk }
    pwr := { s.pwr with mode := s.pwr.target, entering := false, keep := s.store.retained }
    store := { s.store with retained := s.store.retained ||| segs, transit := s.store.transit &&& ~~~segs }
    adc := { s.adc with refReady := !hib && s.adc.refReady } }

/-- The counters and the axes as the device falls asleep (R352). -/
def State.levelsOff (s : State) : State :=
  if s.pwr.target == 2 then forAll allChs (fun n s => (s.countTo n).modCh n (Channel.gateOff s.tw)) s
  else { s with axis := s.axis.map (fun a => { a with coarse := true }) }

theorem State.sleepEntered_eq (s : State) : s.sleepEntered =
    if !s.pwr.entering || replyWaits s then s
    else (s.levelsOff.fallsAsleep (s.pwr.target == 2) (sleepSegs s.levelsOff.pwr.target s.levelsOff)).notice 5 [BitVec.ofNat 8 (s.levelsOff.fallsAsleep (s.pwr.target == 2) (sleepSegs s.levelsOff.pwr.target s.levelsOff)).pwr.mode.toNat] := rfl

/-- What a sleep writes of the state. -/
theorem Keeps.setSleep (s : State) (time : Time) (pwr : Power) (store : Store) (adc : Adc) (mem : store.mem = s.store.mem) :
    Keeps [.time, .store, .adc, .pwr, .free] s { s with time := time, pwr := pwr, store := store, adc := adc } :=
  ⟨rfl, fun p apart => by
      cases p
      case time | store | adc | pwr | free => exact absurd (by decide) apart
      case mem => exact mem
      all_goals exact Eq.refl _⟩

theorem State.fallsAsleep_keeps (hib : Bool) (segs : BitVec 6) (s : State) : Keeps [.time, .store, .adc, .pwr, .free] s (s.fallsAsleep hib segs) := by
  have used : Keeps [.time, .store, .adc, .pwr, .free] s (s.used.setRes s.pwr.target) := ((State.used_keeps s).mono (by decide)).step (State.setRes_keeps ..) (by decide)
  exact used.trans (Keeps.setSleep _ _ _ _ _ rfl)

theorem State.levelsOff_keeps (s : State) : Keeps [.ch, .axis, .free] s s.levelsOff := by
  unfold State.levelsOff
  split
  · exact Keeps.forAll _ (fun n r => ((State.countTo_keeps n r).mono (by decide)).step (State.modCh_keeps ..) (by decide)) allChs (Keeps.refl _ s)
  · exact ⟨rfl, fun p apart => by
        cases p
        case ch | axis | free => exact absurd (by decide) apart
        all_goals exact Eq.refl _⟩

theorem State.levelsOff_of_standby {s : State} (h : s.pwr.target ≠ 2) : s.levelsOff = { s with axis := s.axis.map (fun a => { a with coarse := true }) } :=
  if_neg fun e => h (beq_iff_eq.mp e)

/-- The segments retained in STANDBY are those that may be. -/
theorem sleepSegs_get {m : BitVec 2} (h : m ≠ 2) (s : State) (g : Seg) : (sleepSegs m s).getLsbD g.val = !retainRefused g.val s := by
  have all : ∀ (l : List Seg) (v : BitVec 6), (l.foldl (fun v g => if retainRefused g.val s then v else segSet g true v) v).getLsbD g.val = (v.getLsbD g.val || (decide (g ∈ l) && !retainRefused g.val s)) := by
    intro l
    induction l with
    | nil => intro v; rw [List.foldl_nil, decide_eq_false (List.not_mem_nil), Bool.false_and, Bool.or_false]
    | cons k l ih =>
      intro v
      rw [List.foldl_cons, ih]
      by_cases same : g = k
      · subst same
        rw [decide_eq_true List.mem_cons_self]
        by_cases busy : retainRefused g.val s = true
        · rw [if_pos busy, busy, Bool.not_true, Bool.and_false, Bool.and_false]
        · rw [if_neg busy, getLsbD_segSet, if_pos rfl, Bool.eq_false_iff.mpr busy, Bool.not_false, Bool.and_true, Bool.true_or, Bool.true_and, Bool.or_true]
      · have kept : (if retainRefused k.val s then v else segSet k true v).getLsbD g.val = v.getLsbD g.val := by
          split
          · rfl
          · rw [getLsbD_segSet, if_neg same]
        rw [kept]
        simp only [List.mem_cons, same, false_or]
  unfold sleepSegs
  rw [if_neg h, all]
  have mem : g ∈ segsOf 0x3F := List.mem_filter.mpr ⟨List.mem_finRange g, (by decide : ∀ h : Seg, Nat.testBit 0x3F h.val = true) g⟩
  rw [decide_eq_true mem, Bool.true_and, show (0 : BitVec 6).getLsbD g.val = false from BitVec.getLsbD_zero, Bool.false_or]

/-- What an entry into HIBERNATE or STANDBY leaves, the axes and counters being as in v. -/
structure FellAsleep (hib : Bool) (s t : State) : Prop where
  pwr : t.pwr = { s.pwr with mode := s.pwr.target, entering := false, keep := s.store.retained }
  lt : t.time.lt = s.time.lt
  res : t.time.res = s.pwr.target
  pll : t.time.pllLock = false
  xin : t.time.xinOk = (!hib && s.time.xinOk)
  backup : t.time.backup = (!hib && s.time.backup)
  rtc : t.time.rtcOk = (hib || s.time.rtcOk)
  adc : t.adc = { s.adc with refReady := !hib && s.adc.refReady }

theorem State.fallsAsleep_fell {s v : State} (hib : Bool) (segs : BitVec 6) (h : Keeps [.ch, .axis, .free] s v) : FellAsleep hib s (v.fallsAsleep hib segs) := by
  have pwr : v.pwr = s.pwr := h.2 .pwr (by decide)
  have time : v.time = s.time := h.2 .time (by decide)
  have store : v.store = s.store := h.store_eq (by decide) (by decide)
  have adc : v.adc = s.adc := h.2 .adc (by decide)
  constructor
  · change { v.pwr with mode := v.pwr.target, entering := false, keep := v.store.retained } = _
    rw [pwr, store]
  · change v.time.lt = _
    rw [time]
  · change v.pwr.target = _
    rw [pwr]
  · rfl
  · change (!hib && v.time.xinOk) = _
    rw [time]
  · change (!hib && v.time.backup) = _
    rw [time]
  · change (hib || v.time.rtcOk) = _
    rw [time]
  · change { v.adc with refReady := !hib && v.adc.refReady } = _
    rw [adc]

/-! ### Wakes (R354, R356) -/

theorem ltIncr_eq (s : State) : ltIncr s = if s.time.res = 0 then 32 else if s.time.res = 1 then 512 else 390625 := by
  unfold ltIncr
  generalize s.time.res = r
  revert r
  decide

theorem autoDue_iff (s : State) : (s.pwr.mode != 0 && s.pwr.autoWake && decide (s.pwr.nextWake < s.time.lt + ltIncr s)) = true ↔
    s.pwr.mode ≠ 0 ∧ s.pwr.autoWake = true ∧ s.pwr.nextWake < s.time.lt + (if s.time.res = 0 then 32 else if s.time.res = 1 then 512 else 390625) := by
  rw [ltIncr_eq, Bool.and_eq_true, Bool.and_eq_true, bne_iff_ne, decide_eq_true_iff, and_assoc]

/-- The device sleeps, or falls asleep. -/
theorem sleeping_iff (s : State) : sleeping s = true ↔ s.pwr.mode ≠ 0 ∨ s.pwr.entering = true := by
  unfold sleeping
  rw [Bool.or_eq_true, bne_iff_ne]

theorem State.wakeBy_of_awake {i : Nat} {s : State} (h : ¬ (s.pwr.mode ≠ 0 ∨ s.pwr.entering = true)) : s.wakeBy i = s := by
  unfold State.wakeBy
  rw [Bool.eq_false_iff.mpr fun e => h ((sleeping_iff s).mp e)]
  rfl

/-- The state in which source i has begun a wake. -/
def State.wokenBy (i : Nat) (s : State) : State := { s with pwr := { s.pwr with waking := true, wakeSrc := s.pwr.wakeSrc.raise s.tick (flag i true), wakeLt := s.time.lt } }

theorem State.wakeBy_of_asleep {i : Nat} {s : State} (asleep : s.pwr.mode ≠ 0 ∨ s.pwr.entering = true) (first : s.pwr.waking = false) : s.wakeBy i = s.wokenBy i := by
  unfold State.wakeBy
  rw [(sleeping_iff s).mpr asleep, first]
  rfl

theorem State.wokenBy_keeps (i : Nat) (s : State) : Keeps [.pwr] s (s.wokenBy i) := Keeps.setPwr ..

/-- A source that is not enabled, or that finds the device awake, does nothing. -/
theorem State.wakeIf_of_not {on : Bool} {i : Nat} {s : State} (h : on = false ∨ ¬ (s.pwr.mode ≠ 0 ∨ s.pwr.entering = true)) : s.wakeIf on i = s := by
  cases on with
  | false => rfl
  | true => exact State.wakeBy_of_awake (h.resolve_left (nomatch ·))

/-- A source that names what woke the device. -/
theorem State.wakeNamed_of_not {on b : Bool} {i : Nat} {f : Power → Power} {s : State} (h : on = false ∨ ¬ (s.pwr.mode ≠ 0 ∨ s.pwr.entering = true)) :
    (if on then (s.wakeBy i).wakeName (sleeping s && b) f else s) = s := by
  cases on with
  | false => rfl
  | true =>
    have awake := h.resolve_left (nomatch ·)
    rw [if_pos rfl, State.wakeBy_of_awake awake, Bool.eq_false_iff.mpr fun e => awake ((sleeping_iff s).mp e)]
    rfl

theorem State.wakeNamed_of_asleep {i : Nat} {b : Bool} {f : Power → Power} {s : State} (asleep : s.pwr.mode ≠ 0 ∨ s.pwr.entering = true) (first : s.pwr.waking = false) :
    (s.wakeBy i).wakeName (sleeping s && (!s.pwr.waking || b)) f = { s.wokenBy i with pwr := f (s.wokenBy i).pwr } := by
  rw [State.wakeBy_of_asleep asleep first, (sleeping_iff s).mpr asleep, first]
  rfl

/-! ### RUN reached (R128, R351, R355) -/

/-- An axis as RUN is reached. -/
def Axis.toRun (hib : Bool) (t : Nat) (a : Axis) : Axis :=
  { a with coarse := false, moved := a.moved && !hib, ref := if hib then a.pins else a.ref, err := a.err.raiseIf (hib && a.moved) t erSuspect }

/-- The state as RUN is reached, before the calendar goes on. -/
def State.wakesUp (hib : Bool) (s : State) : State :=
  { s with
    axis := s.axis.map (Axis.toRun hib s.tick)
    adc := s.adc.wake hib s.tick
    boot := if hib then { s.boot with cause := 8 } else s.boot
    pod := if hib then s.pod.map (fun q => { q with uc := { q.uc with corr := [] } }) else s.pod
    store := { s.store with retained := s.pwr.keep }
    sur := if hib then { s.sur with wakes := keepEight ((s.time.lt - s.pwr.wakeLt) / 32) s.sur.wakes } else s.sur
    pwr := { s.pwr with
      mode := 0, waking := false, autoWake := false, nextWake := 0, runLt := s.time.lt
      flags := s.pwr.flags.raiseIf (s.pwr.autoWake && decide (s.pwr.stageAt < s.tick)) s.tick (flag 4 true) } }

/-- The gated counters see their levels again (R352). -/
def State.levelsOn (hib : Bool) (s : State) : State :=
  if hib then forAll allChs (fun n s => s.modCh n (fun c => if c.ctr.mode == 3 then c.setGate s.tw (c.en && c.ctr.run) (srcLevel (podOf n) c.ctr.srcSel s) else c)) s else s

theorem State.toRun_eq (s : State) : s.toRun = ((((s.wakesUp (s.pwr.target == 2)).levelsOn (s.pwr.target == 2)).bucketBoundary).notice 5 [0]).deliver := rfl

theorem State.levelsOn_keeps (hib : Bool) (s : State) : Keeps [.ch] s (s.levelsOn hib) := by
  unfold State.levelsOn
  split
  · exact Keeps.forAll _ (fun n r => State.modCh_keeps ..) allChs (Keeps.refl _ s)
  · exact Keeps.refl _ s

/-- What follows on the wake leaves the axes, the clocks, the store and the power state. -/
theorem State.toRun_rest (s : State) : Keeps [.guar, .ch, .cal, .pod, .eic, .mbx, .free] (s.wakesUp (s.pwr.target == 2)) s.toRun := by
  rw [State.toRun_eq]
  exact ((((State.levelsOn_keeps _ _).mono (by decide)).step (State.bucketBoundary_keeps _) (by decide)).step (State.notice_keeps ..) (by decide)).step (State.deliver_keeps _) (by decide)

theorem runDue_iff (s : State) : runDue s = true ↔ s.pwr.mode ≠ 0 ∧ s.pwr.waking = true ∧ s.time.pllLock = true ∧ s.time.res = 0 := by
  unfold runDue
  simp only [Bool.and_eq_true, bne_iff_ne, beq_iff_eq, and_assoc, ne_eq]

/-- With no access that waited, RUN is all there is to it. -/
theorem State.runReached_of_none {s : State} (held : s.store.held = []) (heldQ : s.store.heldQ = []) (waited : s.pwr.held = []) :
    s.runReached = { s.toRun with pwr := { s.toRun.pwr with held := [] } } := by
  have rest := State.toRun_rest s
  have store : s.toRun.store = (s.wakesUp (s.pwr.target == 2)).store := rest.store_eq (by decide) (by decide)
  have none : s.toRun.store.held = [] := (congrArg Store.held store).trans held
  have noneQ : s.toRun.store.heldQ = [] := (congrArg Store.heldQ store).trans heldQ
  have pwr : s.toRun.pwr = (s.wakesUp (s.pwr.target == 2)).pwr := rest.2 .pwr (by decide)
  have noneP : s.toRun.pwr.held = [] := (congrArg Power.held pwr).trans waited
  unfold State.runReached
  dsimp only
  rw [State.serve_of_none none noneQ, noneP]
  rfl

/-! ### The obligation -/

/-- Settles O59: the entry, the wakes, and RUN reached. -/
theorem sleepAndWake : Obligations.SleepAndWake := by
  unfold Obligations.SleepAndWake
  intro s
  refine ⟨fun not => congrArg Host.Outcome.next ?_, fun entering replied => ?_, ⟨fun not => congrArg Host.Outcome.next (if_neg fun e => not ?_), fun due first => ?_⟩, fun x i on is => ⟨fun not => congrArg Host.Outcome.next ?_, fun enabled asleep first => ?_⟩,
    fun other => congrArg Host.Outcome.next (if_neg fun e => other (beq_iff_eq.mp e)), fun hib => ?_,
    fun not => congrArg Host.Outcome.next (if_neg fun e => not ((runDue_iff s).mp e)), fun due waited held heldQ => ?_⟩
  · refine (State.sleepEntered_eq s).trans (if_pos ?_)
    rw [Bool.or_eq_true, Bool.not_eq_true']
    exact not.imp_right fun unanswered => Bool.not_eq_false _ ▸ fun e => unanswered ((replyWaits_iff s).mp e)
  · have run : s.sleepEntered = _ := (State.sleepEntered_eq s).trans (if_neg (by rw [entering, (replyWaits_iff s).mpr replied]; decide))
    have off := s.levelsOff_keeps
    have pwrV : s.levelsOff.pwr = s.pwr := off.2 .pwr (by decide)
    rw [pwrV] at run
    have segs (other : s.pwr.target ≠ 2) (g : Seg) : (sleepSegs s.pwr.target s.levelsOff).getLsbD g.val = !retainRefused g.val s := by
      rw [sleepSegs_get other, State.levelsOff_of_standby other]
      rfl
    have all (hib : s.pwr.target = 2) : sleepSegs s.pwr.target s.levelsOff = 0x3F := if_pos hib
    have ch (other : s.pwr.target ≠ 2) : s.levelsOff.ch = s.ch := by rw [State.levelsOff_of_standby other]
    have coarse (other : s.pwr.target ≠ 2) (k : Ax) : s.levelsOff.axis[k].coarse = true := by
      rw [State.levelsOff_of_standby other]
      exact congrArg Axis.coarse (Vector.getElem_map ..)
    generalize sleepSegs s.pwr.target s.levelsOff = r at run segs all
    have fell := State.fallsAsleep_fell (s.pwr.target == 2) r off
    have asleep := State.fallsAsleep_keeps (s.pwr.target == 2) r s.levelsOff
    have store : (s.levelsOff.fallsAsleep (s.pwr.target == 2) r).store = { s.store with retained := s.store.retained ||| r, transit := s.store.transit &&& ~~~r } := by
      rw [← off.store_eq (by decide) (by decide)]
      rfl
    generalize s.levelsOff.fallsAsleep (s.pwr.target == 2) r = x at run fell asleep store
    have told := State.notice_keeps 5 [BitVec.ofNat 8 x.pwr.mode.toNat] x
    have only := State.notice_onlyMbx 5 [BitVec.ofNat 8 x.pwr.mode.toNat] x
    generalize State.notice 5 [BitVec.ofNat 8 x.pwr.mode.toNat] x = t at run told only
    have timeT : t.time = x.time := told.2 .time (by decide)
    have storeT : t.store = x.store := told.store_eq (by decide) (by decide)
    have adcT : t.adc = x.adc := told.2 .adc (by decide)
    have chT : t.ch = s.levelsOff.ch := Eq.trans (told.2 .ch (by decide)) (asleep.2 .ch (by decide))
    have axisT : t.axis = s.levelsOff.axis := Eq.trans (told.2 .axis (by decide)) (asleep.2 .axis (by decide))
    have before : OnlyMbx 29 s x := (OnlyMbx.of_keeps off (by decide)).trans (OnlyMbx.of_keeps asleep (by decide))
    refine ⟨t, congrArg Host.Outcome.next run, ((off.mono (by decide)).trans (asleep.mono (by decide))).trans (told.mono (by decide)), before.trans only, ?_, ?_, ?_, ?_, fun hib => ?_, fun other => ?_⟩
    · exact Eq.trans (told.2 .pwr (by decide)) fell.pwr
    · rw [timeT, fell.lt]
    · rw [timeT, fell.res]
    · rw [timeT, fell.pll]
    · rw [timeT, storeT, adcT, fell.xin, fell.backup, fell.rtc, fell.adc, store, all hib, hib]
      exact ⟨rfl, rfl, rfl, (by decide : ∀ v : BitVec 6, v ||| 0x3F = 0x3F) _, (by decide : ∀ v : BitVec 6, v &&& ~~~0x3F = 0) _, rfl⟩
    · rw [timeT, storeT, adcT, chT, axisT, fell.xin, fell.backup, fell.adc, store, beq_eq_false_iff_ne.mpr other]
      exact ⟨Bool.true_and _, Bool.true_and _, by rw [Bool.not_false, Bool.true_and], ch other, coarse other, fun g => by rw [BitVec.getLsbD_or, segs other]⟩
  · exact (autoDue_iff s).mp e
  · have run : exec .autoWake s = .next (s.wokenBy 0) := congrArg Host.Outcome.next ((if_pos ((autoDue_iff s).mpr due)).trans (State.wakeBy_of_asleep (.inl due.1) first))
    exact ⟨_, run, State.wokenBy_keeps 0 s, rfl, rfl, rfl⟩
  · cases x with
    | axis k => exact (State.wakeNamed_of_not (is.2 ▸ not))
    | channel n => exact State.wakeNamed_of_not (is.2 ▸ not)
    | pcie => exact State.wakeIf_of_not (is.2 ▸ not)
    | qspi => exact State.wakeIf_of_not (is.2 ▸ not)
    | supply => exact State.wakeIf_of_not (is.2 ▸ not)
    | safeN => exact State.wakeIf_of_not (on := true) (is.2 ▸ not)
    | clock => exact is.elim
  · cases x with
    | axis k =>
      obtain ⟨rfl, rfl⟩ := is
      refine ⟨{ s.wokenBy 1 with pwr := { (s.wokenBy 1).pwr with wakeAx := some k.val } }, congrArg Host.Outcome.next ((if_pos enabled).trans ?_), Keeps.setPwr .., ⟨rfl, rfl, rfl⟩, rfl, fun m e => ?_, fun n e => (nomatch e)⟩
      · exact State.wakeNamed_of_asleep asleep first
      · cases e; rfl
    | channel n =>
      obtain ⟨rfl, rfl⟩ := is
      refine ⟨{ s.wokenBy 2 with pwr := { (s.wokenBy 2).pwr with wakeCh := some n.val } }, congrArg Host.Outcome.next ((if_pos enabled).trans ?_), Keeps.setPwr .., ⟨rfl, rfl, rfl⟩, rfl, fun m e => (nomatch e), fun m e => ?_⟩
      · exact State.wakeNamed_of_asleep asleep first
      · cases e; rfl
    | pcie =>
      obtain ⟨rfl, rfl⟩ := is
      exact ⟨_, congrArg Host.Outcome.next ((if_pos enabled).trans (State.wakeBy_of_asleep asleep first)), State.wokenBy_keeps .., ⟨rfl, rfl, rfl⟩, rfl, fun k e => (nomatch e), fun n e => (nomatch e)⟩
    | qspi =>
      obtain ⟨rfl, rfl⟩ := is
      exact ⟨_, congrArg Host.Outcome.next ((if_pos enabled).trans (State.wakeBy_of_asleep asleep first)), State.wokenBy_keeps .., ⟨rfl, rfl, rfl⟩, rfl, fun k e => (nomatch e), fun n e => (nomatch e)⟩
    | supply =>
      obtain ⟨rfl, rfl⟩ := is
      exact ⟨_, congrArg Host.Outcome.next ((if_pos enabled).trans (State.wakeBy_of_asleep asleep first)), State.wokenBy_keeps .., ⟨rfl, rfl, rfl⟩, rfl, fun k e => (nomatch e), fun n e => (nomatch e)⟩
    | safeN =>
      obtain ⟨rfl, rfl⟩ := is
      exact ⟨_, congrArg Host.Outcome.next (State.wakeBy_of_asleep asleep first), State.wokenBy_keeps .., ⟨rfl, rfl, rfl⟩, rfl, fun k e => (nomatch e), fun n e => (nomatch e)⟩
    | clock => exact is.elim
  · have woken := State.wakeBy_keeps wkClock s
    have waking := State.wakeBy_waking wkClock (s := s) (by rw [hib]; decide)
    have run : exec (.wakeSource .clock) s = .next { s.wakeBy wkClock with time := { (s.wakeBy wkClock).time with rtcOk := false }, pwr := { (s.wakeBy wkClock).pwr with mode := 1 } } :=
      congrArg Host.Outcome.next (if_pos (beq_iff_eq.mpr hib))
    generalize s.wakeBy wkClock = u at run woken waking
    refine ⟨_, run, ((woken.mono (by decide)).step (Keeps.setTime ..) (by decide)).step (Keeps.setPwr ..) (by decide), rfl, waking, ?_⟩
    rw [← show u.time = s.time from woken.2 .time (by decide)]
  · have run : exec .runReached s = .next { s.toRun with pwr := { s.toRun.pwr with held := [] } } :=
      congrArg Host.Outcome.next ((if_pos ((runDue_iff s).mpr due)).trans (State.runReached_of_none held heldQ waited))
    have rest := s.toRun_rest
    generalize s.toRun = t at run rest
    have time : t.time = s.time := rest.2 .time (by decide)
    have pwr : t.pwr = (s.wakesUp (s.pwr.target == 2)).pwr := rest.2 .pwr (by decide)
    have store : t.store = (s.wakesUp (s.pwr.target == 2)).store := rest.store_eq (by decide) (by decide)
    have boot : t.boot = if s.pwr.target == 2 then { s.boot with cause := 8 } else s.boot := rest.2 .boot (by decide)
    have axis (k : Ax) : t.axis[k] = Axis.toRun (s.pwr.target == 2) s.tick s.axis[k] :=
      (congrArg (fun v : Vector Axis 8 => v[k]) (rest.2 .axis (by decide) : t.axis = s.axis.map _)).trans (Vector.getElem_map ..)
    refine ⟨_, run, time, ?_, ?_, ?_, ?_, ?_, congrArg Store.retained store, fun k => ⟨?_, fun hib moved => ⟨?_, ?_⟩, fun hib => ?_⟩, fun hib => ?_, fun other => ?_, fun auto late => ?_⟩
    · exact congrArg Power.mode pwr
    · exact congrArg Power.waking pwr
    · exact congrArg Power.autoWake pwr
    · exact congrArg Power.nextWake pwr
    · exact congrArg Power.runLt pwr
    · exact congrArg Axis.coarse (axis k)
    · refine (congrArg (fun a : Axis => a.err.get 9) (axis k)).trans ?_
      change (s.axis[k].err.raiseIf ((s.pwr.target == 2) && s.axis[k].moved) s.tick erSuspect).get 9 = true
      rw [moved, beq_iff_eq.mpr hib]
      exact (Sticky.get_raise ..).trans (Bool.or_eq_true_iff.mpr (.inr (by decide)))
    · refine (congrArg Axis.moved (axis k)).trans ?_
      change (s.axis[k].moved && !(s.pwr.target == 2)) = false
      rw [beq_iff_eq.mpr hib, Bool.not_true, Bool.and_false]
    · exact (congrArg Axis.ref (axis k)).trans (if_pos (beq_iff_eq.mpr hib))
    · exact congrArg Boot.cause (boot.trans (if_pos (beq_iff_eq.mpr hib)))
    · exact boot.trans (if_neg fun e => other (beq_iff_eq.mp e))
    · refine (congrArg (fun p : Power => p.flags.get 4) pwr).trans ?_
      change (s.pwr.flags.raiseIf (s.pwr.autoWake && decide (s.pwr.stageAt < s.tick)) s.tick (flag 4 true)).get 4 = true
      rw [auto, decide_eq_true late]
      exact (Sticky.get_raise ..).trans (Bool.or_eq_true_iff.mpr (.inr (by decide)))

end Sys2Proof.Machine
end

section
/-!
PROOF of the obligation on the policy commands (O48), after what a command that runs does with its answer.
-/
namespace Sys2Proof.Machine

/-! ### A command that runs, and its answer -/

section
variable {b : CmdMbx} {op : Nat} {seq : W} {body : List Byte} {s : State} {row : Instr} {f : List Byte → State → State}

/-- A command that runs carries out its row on its body. -/
theorem CmdRuns.next (h : CmdRuns b op seq body s) (run : exec row s = .next (s.command b op f)) {t : State} (out : f body s = t) : exec row s = .next t :=
  run.trans (congrArg Host.Outcome.next ((State.command_of_runs h f).trans out))

/-- A command that is only answered. -/
theorem CmdRuns.replies (h : CmdRuns b op seq body s) (run : exec row s = .next (s.command b op f)) {status detail : Nat} {reply : List Byte} (out : f body s = s.answer b status detail reply) :
    ∃ t : State, exec row s = .next t ∧ Keeps [.mbx] s t ∧ Answered b seq status detail reply s t :=
  ⟨_, h.next run out, State.answer_keeps .., h.answered rfl ..⟩

end

/-! ### SUBST_POLICY (R268, R292, R300) -/

/-- Byte p of SPARE_CH. -/
def spareByte (body : List Byte) (p : Pod) : Nat := leAt (8 + p.val) 1 body

theorem spareByteOk_iff (v : Nat) : spareByteOk v = true ↔ v < 16 ∨ v = 255 := by
  unfold spareByteOk
  rw [Bool.or_eq_true, decide_eq_true_iff, beq_iff_eq]

/-- The first pod that meets a condition. -/
theorem find_allPods {f : Pod → Bool} {p : Pod} (on : f p = true) (first : ∀ q : Pod, q.val < p.val → f q = false) : allPods.find? f = some p := by
  rw [List.find?_eq_some_iff_getElem]
  refine ⟨on, p.val, by rw [allPods, List.length_finRange]; exact p.isLt, List.getElem_finRange .., fun j lt => ?_⟩
  rw [Bool.not_eq_true']
  exact (congrArg f (List.getElem_finRange ..)).trans (first _ lt)

/-- The policy of one pod is set, and its next shadow period begins if it is due. -/
def State.podPolicy (flags spare : Nat) (p : Pod) (s : State) : State := (s.modHealth p (PodHealth.policy flags spare)).shadowOn p

theorem State.podPolicy_keeps (flags spare : Nat) (p : Pod) (s : State) : Keeps [.health] s (s.podPolicy flags spare p) := (State.modHealth_shadowOn p _ s).1

theorem State.podPolicy_rest (flags spare : Nat) (p : Pod) (s : State) : (s.podPolicy flags spare p).health = { s.health with pod := (s.podPolicy flags spare p).health.pod } := by
  unfold State.podPolicy State.shadowOn
  split <;> rfl

/-- The pods of a list without repetition have their policies, and no other pod. -/
theorem State.podPolicies_health (flags : Nat) (spare : Pod → Nat) {l : List Pod} (once : l.Nodup) (s : State) (p : Pod) :
    (p ∉ l → (forAll l (fun q => State.podPolicy flags (spare q) q) s).health.pod[p] = s.health.pod[p]) ∧
    (p ∈ l → ∃ x : Bool, (forAll l (fun q => State.podPolicy flags (spare q) q) s).health.pod[p] = { s.health.pod[p].policy flags (spare p) with testing := x }) := by
  unfold forAll
  induction l generalizing s with
  | nil => exact ⟨fun _ => rfl, (nomatch ·)⟩
  | cons q l ih =>
    obtain ⟨notIn, once'⟩ := List.nodup_cons.mp once
    obtain ⟨out, ins⟩ := ih once' (s.podPolicy flags (spare q) q)
    obtain ⟨-, only, val⟩ := State.modHealth_shadowOn q (PodHealth.policy flags (spare q)) s
    rw [List.foldl_cons]
    refine ⟨fun no => ?_, fun mem => ?_⟩
    · obtain ⟨apart, no'⟩ := not_or.mp fun h => no (List.mem_cons.mpr h)
      exact (out no').trans (only.pods p apart).1
    · by_cases same : p = q
      · subst same
        exact ⟨_, (out notIn).trans val⟩
      · obtain ⟨x, is⟩ := ins ((List.mem_cons.mp mem).resolve_left same)
        refine ⟨x, is.trans ?_⟩
        have other : (s.podPolicy flags (spare q) q).health.pod[p] = s.health.pod[p] := (only.pods p same).1
        rw [other]

/-- A byte that may be names the channel itself. -/
theorem PodHealth.policy_of_ok {flags spare : Nat} {h : PodHealth} (ok : spare < 16 ∨ spare = 255) :
    h.policy flags spare = { h with
      shadowEn := flags.testBit 0, autoSubst := flags.testBit 1, substPin := flags.testBit 2, shadowing := h.shadowing && (flags.testBit 0 || h.takeover.isSome)
      named := spare != 255, spareCh := if spare = 255 then 0 else spare } := by
  obtain small | rfl := ok
  · unfold PodHealth.policy
    rw [Nat.mod_eq_of_lt small]
  · rfl

/-- The state with the policies of a mask's pods. -/
def State.policies (m flags : Nat) (spare : Pod → Nat) (s : State) : State := forAll (allPods.filter (fun p => m.testBit p.val)) (fun p => State.podPolicy flags (spare p) p) s

theorem State.policies_keeps (m flags : Nat) (spare : Pod → Nat) (s : State) : Keeps [.health] s (s.policies m flags spare) :=
  Keeps.forAll _ (fun _ _ => State.podPolicy_keeps ..) _ (Keeps.refl _ s)

theorem State.policies_rest (m flags : Nat) (spare : Pod → Nat) (s : State) : (s.policies m flags spare).health = { s.health with pod := (s.policies m flags spare).health.pod } := by
  unfold State.policies
  refine forAll_induction (P := fun t : State => t.health = { s.health with pod := t.health.pod }) (fun p _ r h => ?_) rfl
  rw [State.podPolicy_rest, h]

theorem State.policies_pod (m flags : Nat) (spare : Pod → Nat) (s : State) (p : Pod) :
    (m.testBit p.val = false → (s.policies m flags spare).health.pod[p] = s.health.pod[p]) ∧
    (m.testBit p.val = true → ∃ x : Bool, (s.policies m flags spare).health.pod[p] = { s.health.pod[p].policy flags (spare p) with testing := x }) := by
  obtain ⟨out, ins⟩ := State.podPolicies_health flags spare ((List.nodup_finRange 8).filter (fun p : Pod => m.testBit p.val)) s p
  refine ⟨fun no => out fun mem => ?_, fun yes => ins (List.mem_filter.mpr ⟨List.mem_finRange p, yes⟩)⟩
  exact absurd (List.mem_filter.mp mem).2 (by rw [no]; exact Bool.false_ne_true)

theorem State.substPolicy_badMask {b : CmdMbx} {body : List Byte} {s : State} (h : 256 ≤ u32 0 body) : s.substPolicy b body = s.answer b 5 0 [] := if_pos h

theorem State.substPolicy_badFlags {b : CmdMbx} {body : List Byte} {s : State} (m : u32 0 body < 256) (h : 8 ≤ u32 4 body) : s.substPolicy b body = s.answer b 5 4 [] :=
  (if_neg (Nat.not_le.mpr m)).trans (if_pos h)

/-- A pod of the mask whose byte names no channel. -/
def spareBad (body : List Byte) (p : Pod) : Bool := (u32 0 body).testBit p.val && !spareByteOk (spareByte body p)

theorem State.substPolicy_of_fields {b : CmdMbx} {body : List Byte} {s : State} (m : u32 0 body < 256) (f : u32 4 body < 8) :
    s.substPolicy b body = match allPods.find? (spareBad body) with
      | some p => s.answer b stBadField (8 + p.val) []
      | none => (s.policies (u32 0 body) (u32 4 body) (spareByte body)).answer b 0 0 [] := by
  refine ((if_neg (Nat.not_le.mpr m)).trans (if_neg (Nat.not_le.mpr f))).trans ?_
  rfl

/-! ### ADAPT_SET and ADAPT_LOCK (R334, R337) -/

/-- ADAPT_SET of policy i. -/
def State.adaptPol (b : CmdMbx) (body : List Byte) (i : Fin 5) (s : State) : State :=
  if s.sur.pol[i].lock then s.answer b stLocked i.val []
  else if 1 < u32 4 body then s.answer b stBadField 4 []
  else match polTargets i.val (u32 8 body) with
    | none => s.answer b stBadField 8 []
    | some t =>
      if u64 16 body < (polRange i.val).1 ∨ (polRange i.val).2 < u64 16 body ∨ u64 24 body < u64 16 body then s.answer b stBadField 16 []
      else if (polRange i.val).2 < u64 24 body then s.answer b stBadField 24 []
      else ({ s with sur := { s.sur with pol := s.sur.pol.set i.val (s.sur.pol[i].set (u32 4 body == 1) t (u64 16 body) (u64 24 body)) } } : State).answer b stOk 0 []

theorem State.adaptSet_of {b : CmdMbx} {body : List Byte} {s : State} {i : Fin 5} (is : u32 0 body = i.val) : s.adaptSet b body = s.adaptPol b body i := by
  unfold State.adaptSet State.adaptPol
  dsimp only
  generalize u32 0 body = k at is
  subst is
  exact dif_pos i.isLt

theorem State.adaptPol_of_open {b : CmdMbx} {body : List Byte} {s : State} {i : Fin 5} (free : s.sur.pol[i].lock = false) (small : u32 4 body ≤ 1) :
    s.adaptPol b body i = match polTargets i.val (u32 8 body) with
      | none => s.answer b stBadField 8 []
      | some t =>
        if u64 16 body < (polRange i.val).1 ∨ (polRange i.val).2 < u64 16 body ∨ u64 24 body < u64 16 body then s.answer b stBadField 16 []
        else if (polRange i.val).2 < u64 24 body then s.answer b stBadField 24 []
        else ({ s with sur := { s.sur with pol := s.sur.pol.set i.val (s.sur.pol[i].set (u32 4 body == 1) t (u64 16 body) (u64 24 body)) } } : State).answer b stOk 0 [] :=
  (if_neg (by rw [free]; exact Bool.false_ne_true)).trans (if_neg (Nat.not_lt.mpr small))

theorem Policy.set_tgt (on : Bool) (g : Vector W 4) (lo hi : Nat) (p : Policy) (j : Fin 4) : (p.set on g lo hi).tgt[j] = if on then p.tgt[j] ||| g[j] else p.tgt[j] &&& ~~~g[j] :=
  tabulate_getElem ..

theorem Policy.set_enable (on : Bool) (g : Vector W 4) (lo hi : Nat) (p : Policy) : (p.set on g lo hi).enable = true ↔ ∃ j : Fin 4, (p.set on g lo hi).tgt[j] ≠ 0 := by
  refine (Vector.any_eq_true (xs := (p.set on g lo hi).tgt) (p := fun w => w != 0)).trans ?_
  constructor
  · rintro ⟨j, lt, on⟩
    exact ⟨⟨j, lt⟩, bne_iff_ne.mp on⟩
  · rintro ⟨j, on⟩
    exact ⟨j.val, j.isLt, bne_iff_ne.mpr on⟩

/-- What ADAPT_SET makes of a policy. -/
theorem Policy.set_shown {on : Nat} {g : Vector W 4} {lo hi : Nat} {x p : Policy} (h : x = p.set (on == 1) g lo hi) :
    x = { p with min := lo32 lo, max := lo32 hi, tgt := x.tgt, enable := x.enable } ∧
    (∀ j : Fin 4, x.tgt[j] = if on = 1 then p.tgt[j] ||| g[j] else p.tgt[j] &&& ~~~g[j]) ∧ (x.enable = true ↔ ∃ j : Fin 4, x.tgt[j] ≠ 0) := by
  subst h
  exact ⟨rfl, fun j => (Policy.set_tgt ..).trans (if_congr beq_iff_eq rfl rfl), Policy.set_enable ..⟩

/-- The state with policies locked, or released. -/
def State.locks (m l : Nat) (s : State) : State :=
  { s with sur := { s.sur with pol := s.sur.pol.mapFinIdx (fun i p _ => if m.testBit i then { p with lock := l == 1 } else p) } }

theorem State.locks_pol (m l : Nat) (s : State) (i : Fin 5) : (s.locks m l).sur.pol[i] = if m.testBit i.val = true then { s.sur.pol[i] with lock := l == 1 } else s.sur.pol[i] :=
  Vector.getElem_mapFinIdx ..

theorem State.adaptLock_eq (b : CmdMbx) (body : List Byte) (s : State) : s.adaptLock b body =
    if 32 ≤ u32 0 body then s.answer b 5 0 [] else if 1 < u32 4 body then s.answer b 5 4 [] else (s.locks (u32 0 body) (u32 4 body)).answer b 0 0 [] := rfl

/-! ### MEASURE_CABLE and MEASURE_LOAD (R326) -/

theorem insertBy_length {α : Type} (before : α → α → Bool) (x : α) : ∀ l : List α, (insertBy before x l).length = l.length + 1
  | [] => rfl
  | y :: ys => by
    unfold insertBy
    split
    · rfl
    · rw [List.length_cons, insertBy_length before x ys, List.length_cons]

/-- A job has entered the line. -/
structure InLine (j : MeasJob) (s t : State) : Prop where
  keeps : Keeps [.sur] s t
  sur : t.sur = { s.sur with jobs := t.sur.jobs }
  length : t.sur.jobs.length = s.sur.jobs.length + 1
  mem : j ∈ t.sur.jobs
  head : ∀ x : MeasJob, s.sur.jobs.head? = some x → t.sur.jobs.head? = some x

theorem State.measAsk_inLine {b : CmdMbx} {s : State} (j : MeasJob) (free : ∀ x ∈ s.sur.jobs, x.b ≠ some b) : InLine j s (s.measAsk b j) := by
  have none : s.sur.jobs.any (fun x => x.b == some b) = false := List.any_eq_false.mpr fun x mem e => free x mem (beq_iff_eq.mp e)
  unfold State.measAsk
  rw [none]
  dsimp only
  rw [if_neg Bool.false_ne_true]
  cases jobs : s.sur.jobs with
  | nil => exact ⟨Keeps.setSur .., rfl, by rw [jobs]; rfl, List.mem_singleton_self j, fun x e => by rw [jobs] at e; cases e⟩
  | cons x r =>
    refine ⟨Keeps.setSur .., rfl, ?_, List.mem_cons_of_mem _ (mem_insertBy ..), fun y e => by rw [jobs] at e; exact e⟩
    rw [jobs, List.length_cons]
    exact congrArg (· + 1) (insertBy_length ..)

theorem State.measureCable_of {b : CmdMbx} {body : List Byte} {s : State} {n : Ch} (is : u32 0 body = n.val) :
    s.measureCable b body = if u32 4 body < 6554 ∨ 65535 < u32 4 body then s.answer b 5 4 []
      else s.measAsk b { b := some b, ch := n, load := false, gap := (u32 8 body).testBit 0, vf := u32 4 body, since := s.tick } := by
  unfold State.measureCable
  dsimp only
  generalize u32 0 body = k at is
  subst is
  exact dif_pos n.isLt

theorem State.measureLoad_of {b : CmdMbx} {body : List Byte} {s : State} {n : Ch} (is : u32 0 body = n.val) :
    s.measureLoad b body = s.measAsk b { b := some b, ch := n, load := true, gap := (u32 4 body).testBit 0, vf := 65535, since := s.tick } := by
  unfold State.measureLoad
  dsimp only
  generalize u32 0 body = k at is
  subst is
  exact dif_pos n.isLt

/-! ### WATCH_RESTART (R276) -/

theorem State.watchRestart_of_key {b : CmdMbx} {body : List Byte} {s : State} (key : u32 0 body = 0x57525354) (up : s.fw.keeperUp = true) :
    s.watchRestart b body = (s.answer b 0 0 (leBytes 8 s.time.lt)).restartBegin 3 0 :=
  (if_neg fun no => no key).trans (if_neg (by rw [up]; decide))

/-- The notice and the released locks of a restart leave the phase of a command mailbox. -/
theorem State.restartBegin_phase (b : CmdMbx) (cause : BitVec 4) (core : BitVec 3) {s : State} (idle : s.fw.restarting = false) (up : s.fw.keeperUp = true) :
    (s.restartBegin cause core).mbx[cmdMbx b].phase = s.mbx[cmdMbx b].phase := by
  rw [State.restartBegin_of_idle cause core idle up]
  have only := State.notice_onlyMbx 7 [] ((s.restarted cause core).hsum 3) (cmdMbx b) (cmdMbx_ne_noticeMbx b 7)
  rw [only]
  refine (congrArg Mailbox.phase (Vector.getElem_map ..)).trans ?_
  split <;> rfl

/-! ### SLEEP (R353, R354) -/

theorem firstBucket_isSome {s : State} {x : Nat} (h : firstBucket s = some x) : s.cal.wheel ≠ [] ∨ s.cal.ovfl ≠ [] := by
  by_contra no
  obtain ⟨wheel, far⟩ := not_or.mp no
  unfold firstBucket at h
  rw [not_not.mp wheel, not_not.mp far] at h
  cases h

theorem wakeTick_isSome {mode : Nat} {auto : Bool} {s : State} {x : Int} (h : wakeTick mode auto s = some x) : auto = true ∧ (s.cal.wheel ≠ [] ∨ s.cal.ovfl ≠ []) := by
  unfold wakeTick at h
  cases auto with
  | false => cases h
  | true =>
    rw [if_pos rfl, Option.map_eq_some_iff] at h
    obtain ⟨b, first, -⟩ := h
    exact ⟨rfl, firstBucket_isSome first⟩

/-- The entry begins, with T_wk the wake that is asked for. -/
def State.sleepBegins (mode : Nat) (wk : Option Nat) (s : State) : State :=
  { s.used with pwr := { s.pwr with
    target := BitVec.ofNat 2 mode, entering := true, waking := false, autoWake := wk.isSome, nextWake := wk.getD 0 * 32
    stageAt := ((firstBucket s).map (fun x => (stagingTick x s).toNat)).getD 0 } }

theorem State.sleep_of_mode {b : CmdMbx} {body : List Byte} {s : State} (known : u32 0 body = 1 ∨ u32 0 body = 2) :
    s.sleep b body = match sleepRefusal b (u32 0 body) ((u32 4 body).testBit 0) s with
      | some d => s.answer b stSleepRefused d []
      | none => (s.sleepBegins (u32 0 body) ((wakeTick (u32 0 body) ((u32 4 body).testBit 0) s).map Int.toNat)).answer b stOk 0
          (leBytes 8 (s.time.lt + s.freeBelow (entryBound (u32 0 body) + 1)) ++ leBytes 8 (((wakeTick (u32 0 body) ((u32 4 body).testBit 0) s).map Int.toNat).getD 0 * 32)) := by
  refine (if_neg fun no => ?_).trans rfl
  obtain ⟨one, two⟩ := no
  exact known.elim one two

theorem State.freeBelow_lt {n : Nat} (h : 0 < n) (s : State) : s.freeBelow n < n := Nat.mod_lt _ h

/-! ### The obligation -/

/-- Settles O48, command by command. -/
theorem policyCommands : Obligations.PolicyCommands := by
  unfold Obligations.PolicyCommands
  intro b seq body s
  refine ⟨fun h => ⟨fun m => h.replies rfl (State.substPolicy_badMask m), fun m f => h.replies rfl (State.substPolicy_badFlags m f), fun p m f on bad first => ?_, fun m f ok => ?_⟩,
    fun h => ⟨fun far => h.replies rfl (dif_neg (Nat.not_lt.mpr far)), fun i is => ⟨fun lock => ?_, fun free big => ?_, fun free small none => ?_, fun free small some range => ?_, fun g free small some lo ord hi => ?_⟩⟩,
    fun h => ⟨fun m => h.replies rfl ((State.adaptLock_eq ..).trans (if_pos m)), fun m l => h.replies rfl ((State.adaptLock_eq ..).trans ((if_neg (Nat.not_le.mpr m)).trans (if_pos l))), fun m l => ?_⟩,
    fun h free => ⟨fun far => h.replies rfl (dif_neg (Nat.not_lt.mpr far)), fun near vf => ?_, fun n is low high => ?_⟩,
    fun h free => ⟨fun far => h.replies rfl (dif_neg (Nat.not_lt.mpr far)), fun n is => ?_⟩,
    fun h => ⟨fun no => h.replies rfl (if_pos no), fun key up => ?_⟩,
    fun h => ⟨fun one two => h.replies rfl (if_pos ⟨one, two⟩), fun d known refused => ?_, fun auto known waits => ?_, fun known none => ?_⟩,
    fun h => h.replies rfl rfl⟩
  · have found : allPods.find? (spareBad body) = some p := by
      refine find_allPods ?_ fun q before => ?_
      · exact (Bool.and_eq_true _ _).mpr ⟨on, (Bool.not_eq_true' _).mpr (Bool.eq_false_iff.mpr fun e => bad ((spareByteOk_iff _).mp e))⟩
      · refine Bool.eq_false_iff.mpr fun e => ?_
        obtain ⟨onQ, badQ⟩ := (Bool.and_eq_true _ _).mp e
        exact absurd ((spareByteOk_iff _).mpr (first q before onQ)) (Bool.eq_false_iff.mp ((Bool.not_eq_true' _).mp badQ))
    refine h.replies rfl ((State.substPolicy_of_fields m f).trans ?_)
    rw [found]
    rfl
  · have none : allPods.find? (spareBad body) = none := List.find?_eq_none.mpr fun p _ e => by
      obtain ⟨on, bad⟩ := (Bool.and_eq_true _ _).mp e
      exact absurd ((spareByteOk_iff _).mpr (ok p on)) (Bool.eq_false_iff.mp ((Bool.not_eq_true' _).mp bad))
    have run := h.next (row := .substPolicy b) rfl ((State.substPolicy_of_fields m f).trans (by rw [none]))
    have keeps := State.policies_keeps (u32 0 body) (u32 4 body) (spareByte body) s
    have rest := State.policies_rest (u32 0 body) (u32 4 body) (spareByte body) s
    have pods := State.policies_pod (u32 0 body) (u32 4 body) (spareByte body) s
    generalize s.policies (u32 0 body) (u32 4 body) (spareByte body) = r at run keeps rest pods
    refine ⟨_, run, (keeps.mono (by decide)).step (State.answer_keeps ..) (by decide), h.answered (keeps.2 .mbx (by decide)) .., rest, fun p => ⟨(pods p).1, fun on => ?_⟩⟩
    obtain ⟨x, is⟩ := (pods p).2 on
    have same : r.health.pod[p].testing = x := congrArg PodHealth.testing is
    subst same
    rw [PodHealth.policy_of_ok (spare := spareByte body p) (ok p on)] at is
    exact is
  · exact h.replies rfl ((State.adaptSet_of is).trans (if_pos lock))
  · exact h.replies rfl ((State.adaptSet_of is).trans ((if_neg (by rw [free]; exact Bool.false_ne_true)).trans (if_pos big)))
  · refine h.replies rfl ((State.adaptSet_of is).trans ((State.adaptPol_of_open free small).trans ?_))
    rw [show polTargets i.val (u32 8 body) = _ from none]
    rfl
  · obtain ⟨g, is_g⟩ := Option.ne_none_iff_exists'.mp some
    have open_ := (State.adaptSet_of is).trans (State.adaptPol_of_open (b := b) free small)
    rw [show polTargets i.val (u32 8 body) = _ from is_g] at open_
    dsimp only at open_
    by_cases low : u64 16 body < (polRange i.val).1 ∨ (polRange i.val).2 < u64 16 body ∨ u64 24 body < u64 16 body
    · exact h.replies rfl (open_.trans ((if_pos low).trans (congrArg (fun d => s.answer b stBadField d []) (if_pos low).symm)))
    · obtain ⟨le, rest⟩ := not_or.mp low
      have above := (range.resolve_left le).resolve_right (not_or.mp rest).2
      exact h.replies rfl (open_.trans (((if_neg low).trans (if_pos above)).trans (congrArg (fun d => s.answer b stBadField d []) (if_neg low).symm)))
  · have open_ := (State.adaptSet_of is).trans (State.adaptPol_of_open (b := b) free small)
    rw [show polTargets i.val (u32 8 body) = _ from some] at open_
    have in_range : ¬ (u64 16 body < (polRange i.val).1 ∨ (polRange i.val).2 < u64 16 body ∨ u64 24 body < u64 16 body) :=
      not_or.mpr ⟨Nat.not_lt.mpr lo, not_or.mpr ⟨Nat.not_lt.mpr (le_trans ord hi), Nat.not_lt.mpr ord⟩⟩
    have run := h.next (row := .adaptSet b) rfl (open_.trans ((if_neg in_range).trans (if_neg (Nat.not_lt.mpr hi))))
    refine ⟨_, run, ((Keeps.setSur ..).mono (by decide)).trans ((State.answer_keeps ..).mono (by decide)), h.answered rfl .., rfl, fun j apart => pol_set_other _ _ apart, Policy.set_shown (pol_set_same ..)⟩
  · exact ⟨_, h.next (row := .adaptLock b) rfl ((State.adaptLock_eq ..).trans ((if_neg (Nat.not_le.mpr m)).trans (if_neg (Nat.not_lt.mpr l)))),
      ((Keeps.setSur ..).mono (by decide)).trans ((State.answer_keeps ..).mono (by decide)), h.answered rfl .., rfl, fun i => State.locks_pol ..⟩
  · have run := State.measureCable_of (b := b) (s := s) (n := ⟨_, near⟩) rfl
    exact h.replies rfl (run.trans (if_pos vf))
  · have lined := State.measAsk_inLine { b := some b, ch := n, load := false, gap := (u32 8 body).testBit 0, vf := u32 4 body, since := s.tick } free
    exact ⟨_, _, h.next (row := .measureCable b) rfl ((State.measureCable_of is).trans (if_neg (not_or.mpr ⟨Nat.not_lt.mpr low, Nat.not_lt.mpr high⟩))), lined.keeps, lined.sur, rfl, lined.length, lined.mem, lined.head⟩
  · have lined := State.measAsk_inLine { b := some b, ch := n, load := true, gap := (u32 4 body).testBit 0, vf := 65535, since := s.tick } free
    exact ⟨_, _, h.next (row := .measureLoad b) rfl (State.measureLoad_of is), lined.keeps, lined.sur, rfl, rfl, rfl, rfl, rfl, lined.length, lined.mem, lined.head⟩
  · have answered := h.answered (r := s) rfl 0 0 (leBytes 8 s.time.lt)
    have keeps := State.answer_keeps b 0 0 (leBytes 8 s.time.lt) s
    have owners := State.answer_ownersKept b 0 0 (leBytes 8 s.time.lt) s
    have run := h.next (row := .watchRestart b) rfl (State.watchRestart_of_key key up)
    generalize s.answer b 0 0 (leBytes 8 s.time.lt) = r at answered keeps owners run
    have fw : r.fw = s.fw := keeps.2 .fw (by decide)
    have idle : r.fw.restarting = false := by rw [fw]; exact h.2.1
    have upR : r.fw.keeperUp = true := by rw [fw]; exact up
    have begun := State.restartBegin_restarts 3 0 idle upR
    have lt : r.time.lt = s.time.lt := congrArg Time.lt (keeps.2 .time (by decide))
    refine ⟨_, run, (keeps.mono (by decide)).trans begun.keeps, ?_, ?_, ?_, ?_, ?_, begun.sum, fun m => ?_⟩
    · rw [State.restartBegin_phase b 3 0 idle upR, answered.1]
    · rw [begun.fw]; rfl
    · rw [begun.fw]; rfl
    · rw [begun.fw]; rfl
    · rw [begun.fw, ← lt]; rfl
    · rw [begun.owner m, owners m]
  · refine h.replies rfl ((State.sleep_of_mode known).trans ?_)
    rw [show sleepRefusal b (u32 0 body) ((u32 4 body).testBit 0) s = _ from refused]
    rfl
  · have empty : (s.cal.wheel.isEmpty && s.cal.ovfl.isEmpty) = false := by
      rw [Bool.and_eq_false_iff, List.isEmpty_eq_false_iff, List.isEmpty_eq_false_iff]
      exact waits
    have first : sleepRefusal b (u32 0 body) ((u32 4 body).testBit 0) s = some 1 := if_pos (by rw [show (u32 4 body).testBit 0 = false from auto, empty]; rfl)
    refine h.replies rfl ((State.sleep_of_mode known).trans ?_)
    rw [first]
    rfl
  · have open_ := State.sleep_of_mode (b := b) (s := s) known
    rw [show sleepRefusal b (u32 0 body) ((u32 4 body).testBit 0) s = _ from none] at open_
    generalize wakeE : wakeTick (u32 0 body) ((u32 4 body).testBit 0) s = wk at open_
    have free := State.freeBelow_lt (Nat.succ_pos (entryBound (u32 0 body))) s
    refine ⟨_, _, (wk.map Int.toNat).getD 0, h.next (row := .sleep b) rfl open_, ((((State.used_keeps s).mono (by decide)).step (Keeps.setPwr ..) (by decide)).step (State.answer_keeps ..) (by decide)), h.answered rfl .., Nat.le_add_right .., ?_, rfl, fun auto => ?_, fun off => ?_⟩
    · exact Nat.add_le_add_left (Nat.le_of_lt_succ free) _
    · cases wk with
      | none => cases auto
      | some x => exact wakeTick_isSome wakeE
    · cases wk with
      | none => rfl
      | some x => cases off

end Sys2Proof.Machine
end

section
/-!
Numbers in lists of bytes, and numbers that are sums of distinct powers of two: what the replies of commands are made of.
-/
namespace Sys2Proof.Machine

/-! ### Numbers in lists of bytes -/

theorem leBytes_length (n v : Nat) : (leBytes n v).length = n := by
  induction n generalizing v with
  | zero => rfl
  | succ n ih => rw [leBytes, List.length_cons, ih]

theorem leNat_leBytes (n v : Nat) : leNat (leBytes n v) = v % 256 ^ n := by
  induction n generalizing v with
  | zero => rw [pow_zero, Nat.mod_one]; rfl
  | succ n ih =>
    have split : v % 256 ^ (n + 1) = v % 256 + 256 * (v / 256 % 256 ^ n) := by
      rw [Nat.pow_succ, Nat.mul_comm]
      exact Nat.mod_mul
    rw [split, leBytes, leNat, ih]
    rfl

/-- A number at the head of a list. -/
theorem leAt_leBytes (n v : Nat) (r : List Byte) : leAt 0 n (leBytes n v ++ r) = v % 256 ^ n := by
  have head : (leBytes n v ++ r).take n = leBytes n v := List.take_left' (leBytes_length n v)
  rw [leAt, List.drop_zero, head, leNat_leBytes]

/-- A number behind the head of a list. -/
theorem leAt_behind (o k n v : Nat) (r : List Byte) : leAt (n + o) k (leBytes n v ++ r) = leAt o k r := by
  have behind : (leBytes n v ++ r).drop (n + o) = r.drop o := by
    rw [← List.drop_drop, List.drop_left' (leBytes_length n v)]
  rw [leAt, leAt, behind]

/-- Four words after a number of eight bytes. -/
def fourWords (lt : Nat) (word : Nat → Nat) : List Byte := leBytes 8 lt ++ (List.range 4).flatMap (fun i => leBytes 4 (word i))

theorem fourWords_eq (lt : Nat) (word : Nat → Nat) : fourWords lt word = leBytes 8 lt ++ (leBytes 4 (word 0) ++ (leBytes 4 (word 1) ++ (leBytes 4 (word 2) ++ (leBytes 4 (word 3) ++ [])))) := rfl

theorem fourWords_length (lt : Nat) (word : Nat → Nat) : (fourWords lt word).length = 24 := rfl

theorem fourWords_lt (lt : Nat) (word : Nat → Nat) : leAt 0 8 (fourWords lt word) = lt % 2 ^ 64 := leAt_leBytes ..

theorem fourWords_word (lt : Nat) (word : Nat → Nat) (i : Fin 4) : leAt (8 + 4 * i.val) 4 (fourWords lt word) = word i.val % 2 ^ 32 := by
  rw [fourWords_eq, leAt_behind]
  match i with
  | 0 => exact leAt_leBytes ..
  | 1 => exact (leAt_behind 0 4 4 _ _).trans (leAt_leBytes ..)
  | 2 => exact (leAt_behind 4 4 4 _ _).trans ((leAt_behind 0 4 4 _ _).trans (leAt_leBytes ..))
  | 3 => exact (leAt_behind 8 4 4 _ _).trans ((leAt_behind 4 4 4 _ _).trans ((leAt_behind 0 4 4 _ _).trans (leAt_leBytes ..)))

/-! ### Sums of distinct powers of two -/

/-- A bit that is clear is set by adding its power. -/
theorem testBit_add_two_pow {v k : Nat} (clear : v.testBit k = false) (j : Nat) : (v + 2 ^ k).testBit j = (v.testBit j || decide (j = k)) := by
  have low : v % 2 ^ (k + 1) < 2 ^ k := by
    have bit : v / 2 ^ k % 2 = 0 := by
      rw [Nat.testBit_eq_decide_div_mod_eq, decide_eq_false_iff_not] at clear
      omega
    rw [pow_succ, Nat.mod_mul, bit, Nat.mul_zero, Nat.add_zero]
    exact Nat.mod_lt _ (Nat.two_pow_pos k)
  have small : 2 ^ k + v % 2 ^ (k + 1) < 2 ^ (k + 1) := by
    have double : 2 ^ (k + 1) = 2 ^ k * 2 := pow_succ 2 k
    omega
  have apart : v + 2 ^ k = 2 ^ (k + 1) * (v / 2 ^ (k + 1)) + (2 ^ k + v % 2 ^ (k + 1)) := by
    have whole := Nat.div_add_mod v (2 ^ (k + 1))
    omega
  rw [apart, Nat.testBit_two_pow_mul_add _ small]
  obtain lt | rfl | gt := Nat.lt_trichotomy j k
  · rw [if_pos (by omega), Nat.testBit_two_pow_add_gt lt, Nat.testBit_mod_two_pow, decide_eq_true (by omega), Bool.true_and, decide_eq_false (by omega), Bool.or_false]
  · rw [if_pos (Nat.lt_succ_self j), Nat.testBit_two_pow_add_eq, Nat.testBit_mod_two_pow, clear, Bool.and_false, decide_eq_true rfl]
    rfl
  · rw [if_neg (by omega), Nat.testBit_div_two_pow, show j - (k + 1) + (k + 1) = j by omega, decide_eq_false (by omega), Bool.or_false]

/-- The sum of the powers of distinct numbers has exactly their bits. -/
theorem testBit_sum_two_pow {α : Type} (f : α → Nat) (l : List α) (once : (l.map f).Nodup) (v : Nat) (clear : ∀ x ∈ l, v.testBit (f x) = false) (j : Nat) :
    (l.foldl (fun v x => v + 2 ^ f x) v).testBit j = (v.testBit j || decide (j ∈ l.map f)) := by
  induction l generalizing v with
  | nil => rw [List.foldl_nil, List.map_nil, decide_eq_false (List.not_mem_nil), Bool.or_false]
  | cons x l ih =>
    rw [List.map_cons, List.nodup_cons] at once
    obtain ⟨notIn, once⟩ := once
    have added := testBit_add_two_pow (clear x List.mem_cons_self)
    rw [List.foldl_cons, ih once (v + 2 ^ f x) fun y mem => ?_, added]
    · rw [Bool.or_assoc, List.map_cons]
      refine congrArg (v.testBit j || ·) ?_
      rw [Bool.eq_iff_iff, Bool.or_eq_true, decide_eq_true_iff, decide_eq_true_iff, decide_eq_true_iff, List.mem_cons]
    · rw [added, clear y (List.mem_cons_of_mem x mem), decide_eq_false fun e : f y = f x => notIn (e ▸ List.mem_map_of_mem mem)]
      rfl

end Sys2Proof.Machine
end

section
/-!
PROOF of the obligation on the configuring commands (O47).
-/
namespace Sys2Proof.Machine

/-! ### Commands with pairs (R270) -/

section
variable {r : PairRules} {b : CmdMbx} {o : Nat} {body : List Byte} {s : State}

theorem State.pairsCmd_of_count (h : u32 o body = 0 ∨ 64 < u32 o body) : s.pairsCmd r b o body = s.answer b 5 o [] := if_pos h

theorem State.pairsCmd_of_bad {st i : Nat} (some_ : 1 ≤ u32 o body) (few : u32 o body ≤ 64) (bad : judgePairs r 0 (pairsAt o body) s = some (st, i)) :
    s.pairsCmd r b o body = s.answer b st (if st = 5 then i else 0) [] := by
  refine (if_neg (by omega)).trans ?_
  rw [bad]
  rfl

theorem State.pairsCmd_of_good (some_ : 1 ≤ u32 o body) (few : u32 o body ≤ 64) (good : judgePairs r 0 (pairsAt o body) s = none) :
    s.pairsCmd r b o body = (writePairs r (pairsAt o body) s).answer b 0 0 (leBytes 8 (s.tick * 32)) := by
  refine (if_neg (by omega)).trans ?_
  rw [good]
  rfl

end

/-- Pairs keep what each write keeps. -/
theorem writePairs_keeps {r : PairRules} {l : List Part} (write : ∀ (o : Nat) (v : W) (u : State), Keeps l u (r.write o v u)) (ps : List (Nat × W)) (s : State) : Keeps l s (writePairs r ps s) :=
  have each (p : Nat × W) (u : State) : Keeps l u (r.write p.1 p.2 u) := write p.1 p.2 u
  Keeps.forAll _ each _ (Keeps.forAll _ each _ (Keeps.refl l s))

/-- The parts that a command with pairs may write. -/
def pairParts : List Part := [.master, .guar, .ch, .axis, .cal, .pod, .mbx, .adc, .sur, .free]

section
variable {b : CmdMbx} {op : Nat} {seq : W} {body : List Byte} {s : State} {row : Instr} {f : List Byte → State → State} {r : PairRules} {o : Nat}
variable (h : CmdRuns b op seq body s) (run : exec row s = .next (s.command b op f)) (is : f body s = s.pairsCmd r b o body)
include h run is

theorem CmdRuns.pairs_count (count : leAt o 4 body = 0 ∨ 64 < leAt o 4 body) : ∃ t : State, exec row s = .next t ∧ Keeps [.mbx] s t ∧ Answered b seq 5 o [] s t :=
  h.replies run (is.trans (State.pairsCmd_of_count count))

theorem CmdRuns.pairs_judged (st i : Nat) (some_ : 1 ≤ leAt o 4 body) (few : leAt o 4 body ≤ 64) (bad : judgePairs r 0 (pairsAt o body) s = some (st, i)) :
    ∃ t : State, exec row s = .next t ∧ Keeps [.mbx] s t ∧ Answered b seq st (if st = 5 then i else 0) [] s t :=
  h.replies run (is.trans (State.pairsCmd_of_bad some_ few bad))

theorem CmdRuns.pairs_written (write : ∀ (o : Nat) (v : W) (u : State), Keeps pairParts u (r.write o v u)) (some_ : 1 ≤ leAt o 4 body) (few : leAt o 4 body ≤ 64)
    (good : judgePairs r 0 (pairsAt o body) s = none) :
    ∃ t : State, exec row s = .next t ∧ t = (writePairs r (pairsAt o body) s).answer b 0 0 (leBytes 8 (s.tick * 32)) ∧ Keeps pairParts s t :=
  ⟨_, h.next run (is.trans (State.pairsCmd_of_good some_ few good)), rfl, (writePairs_keeps write _ s).step (State.answer_keeps ..) (by decide)⟩

end

/-! ### CH_CONFIG, and the load value (R18, R270) -/

/-- The rules of CH_CONFIG for channel n. -/
def chRules (n : Ch) : PairRules := { bad := chPairBad n, acting := chActs, write := chanWrite .watch1 n }

theorem State.chConfig_of {b : CmdMbx} {body : List Byte} {s : State} {n : Ch} (is : u32 0 body = n.val) : s.chConfig b body = s.pairsCmd (chRules n) b 4 body := by
  unfold State.chConfig
  dsimp only
  generalize u32 0 body = k at is
  subst is
  exact dif_pos n.isLt

theorem State.axPairs_of {rules : Ax → PairRules} {b : CmdMbx} {body : List Byte} {s : State} {k : Ax} (is : u32 0 body = k.val) : s.axPairs rules b body = s.pairsCmd (rules k) b 4 body := by
  unfold State.axPairs
  dsimp only
  generalize u32 0 body = v at is
  subst is
  exact dif_pos k.isLt

/-- One pair that writes the low word of TOP alone is refused. -/
theorem judge_low_alone {n : Ch} {body : List Byte} {s : State} (one : u32 4 body = 1) (low : u32 8 body = 0x010) : judgePairs (chRules n) 0 (pairsAt 4 body) s = some (5, 0) := by
  have pairs : pairsAt 4 body = [(0x010, BitVec.ofNat 32 (u32 12 body))] := by
    unfold pairsAt
    rw [one, ← low]
    rfl
  rw [pairs]
  rfl

/-- The load value written by its two halves. -/
theorem chFlags_of_ch {n : Ch} {o : Nat} {v : W} {s : State}
    (still : ∀ u : State, (chanWrite .watch1 n o v u).ch[n].stat = u.ch[n].stat ∧ (chanWrite .watch1 n o v u).ch[n].pip = u.ch[n].pip) : chFlags n o v s = false := by
  unfold chFlags
  dsimp only
  obtain ⟨stat, pip⟩ := still ((s.pipNow n).modCh n (fun c => { c with stat := {}, pip := { c.pip with err := {} } }))
  rw [stat, pip, State.modCh_ch_same]
  change (({} : Sticky).get 0 || ({} : Sticky).bits != 0) = false
  decide

theorem judgePairs_cons {r : PairRules} {i o : Nat} {v : W} {rest : List (Nat × W)} {s : State} (ok : r.bad o v (rest.map Prod.fst) s = none) :
    judgePairs r i ((o, v) :: rest) s = judgePairs r (i + 1) rest (if r.acting o then s else r.write o v s) := by
  rw [judgePairs, ok]

theorem judge_load (n : Ch) (lo hi : W) (s : State) : judgePairs (chRules n) 0 [(0x020, lo), (0x024, hi)] s = none := by
  have low : chFlags n 0x020 lo s = false := chFlags_of_ch fun u => ⟨rfl, rfl⟩
  have high (u : State) : chFlags n 0x024 hi u = false := chFlags_of_ch fun u => by
    have load : (chanWrite .watch1 n 0x024 hi u).ch[n] = _ := State.modCh_ch_same ..
    rw [load]
    exact ⟨rfl, rfl⟩
  have shapeL : chPairBad n 0x020 lo [0x024] s = if chFlags n 0x020 lo s then some stBadField else none := rfl
  have shapeH (u : State) : chPairBad n 0x024 hi [] u = if chFlags n 0x024 hi u then some stBadField else none := rfl
  have first : chPairBad n 0x020 lo [0x024] s = none := by rw [shapeL, low]; rfl
  have second (u : State) : chPairBad n 0x024 hi [] u = none := by rw [shapeH, high]; rfl
  exact (judgePairs_cons first).trans (judgePairs_cons (second _))

/-- The two halves of the load value are written in their order. -/
theorem write_load (n : Ch) (lo hi : W) (s : State) : writePairs (chRules n) [(0x020, lo), (0x024, hi)] s = chanWrite .watch1 n 0x024 hi (s.setHolding .watch1 (chBase n + 0x20) lo) := rfl

theorem load_ch (n : Ch) (lo hi : W) (s : State) :
    (chanWrite .watch1 n 0x024 hi (s.setHolding .watch1 (chBase n + 0x20) lo)).ch[n] = { s.ch[n] with ctr := { s.ch[n].ctr with ld := (hi ++ lo).setWidth 48 } } := by
  have held := (State.setHolding_spec .watch1 (chBase n + 0x20) lo s).1
  refine (State.modCh_ch_same ..).trans ?_
  rw [held, ofNat48_eq_append]
  rfl

/-! ### ADC_STREAM (R210, R319) -/

section
variable {b : CmdMbx} {body : List Byte} {s : State}

/-- The stream ring anew. -/
def State.streams (body : List Byte) (s : State) : State :=
  { s with adc := { s.adc with strMask := BitVec.ofNat 4 (u32 0 body), strLog2 := u32 4 body, strBase := BitVec.ofNat 64 (u64 8 body), strWr := 0, strRd := 0 } }

theorem State.adcStream_of_mask (mask : u32 0 body < 16) : s.adcStream b body =
    if u32 4 body ≠ 0 ∧ (u32 4 body < 8 ∨ 20 < u32 4 body) then s.answer b 5 4 []
    else if u32 4 body ≠ 0 ∧ 2 ^ 63 ≤ u64 8 body ∧ u64 8 body % 16 ≠ 0 then s.answer b 5 8 []
    else if u32 4 body ≠ 0 ∧ u64 8 body < 2 ^ 63 ∧ !strPlaceOk (u64 8 body) (16 * 2 ^ u32 4 body) s then s.answer b 7 0 []
    else (s.streams body).answer b 0 0 [] := if_neg (Nat.not_le.mpr mask)

end

/-! ### PIP_LOAD (R112, R114, R274) -/

/-- The words of a PIP_LOAD. -/
def loadWords (body : List Byte) : List W := (List.range (u32 12 body)).map (fun i => BitVec.ofNat 32 (u32 (16 + 4 * i) body))

/-- PIP_LOAD of channel n. -/
def State.pipLoadOn (b : CmdMbx) (body : List Byte) (n : Ch) (s : State) : State :=
  if 1 < u32 4 body then s.answer b stBadField 4 []
  else if 32 < u32 8 body then s.answer b stBadField 8 []
  else if 32 < u32 8 body + u32 12 body then s.answer b stBadField 12 []
  else if bit (s.pipNow n).ch[n].pip.ctrl 0 && (s.pipNow n).ch[n].pip.bank == (u32 4 body == 1) then (s.pipNow n).answer b stBankActive 0 []
  else ((s.pipNow n).modPip n (Pip.load (s.pipNow n).tick (u32 4 body == 1) (u32 8 body) (loadWords body))).answer b stOk 0 []

theorem State.pipLoad_of {b : CmdMbx} {body : List Byte} {s : State} {n : Ch} (is : u32 0 body = n.val) : s.pipLoad b body = s.pipLoadOn b body n := by
  unfold State.pipLoad State.pipLoadOn
  dsimp only
  generalize u32 0 body = k at is
  subst is
  exact dif_pos n.isLt

/-- A bank of an engine. -/
def Pip.prg (b : Bool) (p : Pip) : Vector (BitVec 16) 32 := if b then p.prg1 else p.prg0

/-- VALID of a bank of an engine. -/
def Pip.valid (b : Bool) (p : Pip) : Bool := if b then p.valid1 else p.valid0

/-- Nothing of the bank that is not written differs, nor what says which bank runs. -/
structure OtherBankKept (b : Bool) (p q : Pip) : Prop where
  ctrl : q.ctrl = p.ctrl
  bank : q.bank = p.bank
  prg : q.prg (!b) = p.prg (!b)
  valid : q.valid (!b) = p.valid (!b)

theorem Pip.writePrg_kept {p : Pip} {b : Bool} (t : Nat) (i : Fin 32) (w : W) (h : bit p.ctrl 0 = false ∨ b ≠ p.bank) :
    OtherBankKept b p (p.writePrg t b i w) ∧ (p.writePrg t b i w).prg b = (p.prg b).set i.val (w.setWidth 16) := by
  rw [Pip.writePrg_of_open t i w h]
  cases b <;> exact ⟨⟨rfl, rfl, rfl, rfl⟩, rfl⟩

/-- Words written one after the other into a bank that is not in use. -/
def Pip.writeWords (t : Nat) (b : Bool) (start : Nat) (l : List (W × Nat)) (p : Pip) : Pip := l.foldl (fun (p : Pip) w => p.writePrg t b ⟨(start + w.2) % 32, by omega⟩ w.1) p

theorem Pip.writeWords_words {b : Bool} (t start : Nat) (ws : List W) (k : Nat) (p : Pip) (h : bit p.ctrl 0 = false ∨ b ≠ p.bank) (fits : start + k + ws.length ≤ 32) :
    OtherBankKept b p (p.writeWords t b start (ws.zipIdx k)) ∧
    ∀ i : Fin 32, ((p.writeWords t b start (ws.zipIdx k)).prg b)[i] =
      if start + k ≤ i.val ∧ i.val < start + k + ws.length then (ws.getD (i.val - (start + k)) 0).setWidth 16 else (p.prg b)[i] := by
  induction ws generalizing k p with
  | nil => exact ⟨⟨rfl, rfl, rfl, rfl⟩, fun i => (if_neg (by rw [List.length_nil]; omega)).symm⟩
  | cons w ws ih =>
    rw [List.length_cons] at fits
    have place : (start + k) % 32 = start + k := Nat.mod_eq_of_lt (by omega)
    obtain ⟨kept, word⟩ := Pip.writePrg_kept t ⟨(start + k) % 32, by omega⟩ w h
    have open' : bit (p.writePrg t b ⟨(start + k) % 32, by omega⟩ w).ctrl 0 = false ∨ b ≠ (p.writePrg t b ⟨(start + k) % 32, by omega⟩ w).bank := by
      rw [kept.ctrl, kept.bank]
      exact h
    obtain ⟨rest, words⟩ := ih (k + 1) (p.writePrg t b ⟨(start + k) % 32, by omega⟩ w) open' (by omega)
    have run : p.writeWords t b start ((w :: ws).zipIdx k) = (p.writePrg t b ⟨(start + k) % 32, by omega⟩ w).writeWords t b start (ws.zipIdx (k + 1)) := rfl
    rw [run]
    refine ⟨⟨rest.ctrl.trans kept.ctrl, rest.bank.trans kept.bank, rest.prg.trans kept.prg, rest.valid.trans kept.valid⟩, fun i => ?_⟩
    rw [words i, word, List.length_cons]
    by_cases here : i.val = start + k
    · rw [if_neg (by omega), if_pos (by omega), show i.val - (start + k) = 0 by omega]
      exact (Vector.getElem_set ..).trans (if_pos (place.trans here.symm))
    · have other : ((p.prg b).set ((start + k) % 32) (w.setWidth 16))[i] = (p.prg b)[i] := Vector.getElem_set_ne _ i.isLt (by omega)
      by_cases later : start + (k + 1) ≤ i.val ∧ i.val < start + (k + 1) + ws.length
      · rw [if_pos later, if_pos (by omega), show i.val - (start + k) = i.val - (start + (k + 1)) + 1 by omega]
        rfl
      · rw [if_neg later, if_neg (by omega)]
        exact other

/-- What a load leaves. -/
theorem Pip.load_loaded {b : Bool} (t start : Nat) (ws : List W) (p : Pip) (h : bit p.ctrl 0 = false ∨ b ≠ p.bank) (fits : start + ws.length ≤ 32) :
    OtherBankKept b p (p.load t b start ws) ∧ (p.load t b start ws).valid b = true ∧
    ∀ i : Fin 32, ((p.load t b start ws).prg b)[i] = if start ≤ i.val ∧ i.val < start + ws.length then (ws.getD (i.val - start) 0).setWidth 16 else (p.prg b)[i] := by
  obtain ⟨kept, words⟩ := Pip.writeWords_words t start ws 0 p h fits
  have run : p.load t b start ws = if b then { p.writeWords t b start ws.zipIdx with valid1 := true } else { p.writeWords t b start ws.zipIdx with valid0 := true } := rfl
  rw [run]
  generalize p.writeWords t b start ws.zipIdx = q at kept words
  cases b <;> exact ⟨⟨kept.ctrl, kept.bank, kept.prg, kept.valid⟩, rfl, words⟩

/-- A word of a PIP_LOAD, as its bank takes it. -/
theorem loadWords_word {body : List Byte} {j : Nat} (lt : j < u32 12 body) : ((loadWords body).getD j 0).setWidth 16 = BitVec.ofNat 16 (leAt (16 + 4 * j) 4 body) := by
  have inside : j < (loadWords body).length := by rw [loadWords, List.length_map, List.length_range]; exact lt
  have word : (loadWords body)[j] = BitVec.ofNat 32 (leAt (16 + 4 * j) 4 body) :=
    (List.getElem_map ..).trans (congrArg (fun i => BitVec.ofNat 32 (leAt (16 + 4 * i) 4 body)) (List.getElem_range ..))
  rw [List.getD_eq_getElem _ _ inside, word]
  exact BitVec.setWidth_ofNat_of_le (by decide) _

theorem loadWords_length (body : List Byte) : (loadWords body).length = u32 12 body := by rw [loadWords, List.length_map, List.length_range]

/-- A loaded bank as the table has it, by its number. -/
theorem bank_shown {k : Nat} (two : k ≤ 1) {p q : Pip} (kept : OtherBankKept (k == 1) p q) (valid : q.valid (k == 1) = true) {c : Fin 32 → Prop} [∀ i, Decidable (c i)] {g : Fin 32 → BitVec 16}
    (words : ∀ i : Fin 32, (q.prg (k == 1))[i] = if c i then g i else (p.prg (k == 1))[i]) :
    (∀ i : Fin 32, (if k = 1 then q.prg1[i] else q.prg0[i]) = if c i then g i else if k = 1 then p.prg1[i] else p.prg0[i]) ∧
    (if k = 1 then q.valid1 = true ∧ q.prg0 = p.prg0 ∧ q.valid0 = p.valid0 else q.valid0 = true ∧ q.prg1 = p.prg1 ∧ q.valid1 = p.valid1) := by
  obtain rfl | rfl : k = 0 ∨ k = 1 := by omega
  · exact ⟨words, valid, kept.prg, kept.valid⟩
  · exact ⟨words, valid, kept.prg, kept.valid⟩

/-! ### PIP_SWAP (R113, R274) -/

/-- A channel whose captures k' follow on k as an entry has come. -/
def Channel.entered (b : Nat) (r : List (Nat × CapE)) (k : Capture) (x : Capture × Option CapE) (c : Channel) : Channel :=
  { c with cap := { x.1 with waiting := r }, pip := if x.2.isSome || decide (k.queue.length < x.1.queue.length) then c.pip.latch (b + 1) (flag 12 true) else c.pip }

/-- One entry has entered. -/
def State.enterOne (n : Ch) (b : Nat) (r : List (Nat × CapE)) (x : Capture × Option CapE) (s : State) : State :=
  match x.2 with
  | none => s.modCh n (Channel.entered b r s.ch[n].cap x)
  | some e => (s.modCh n (Channel.entered b r s.ch[n].cap x)).modPod (podOf n) (fun p => { p with capQ := p.capQ ++ [(n, e)] })

theorem State.enterOne_ch (n : Ch) (b : Nat) (r : List (Nat × CapE)) (x : Capture × Option CapE) (s : State) :
    (s.enterOne n b r x).ch[n] = Channel.entered b r s.ch[n].cap x s.ch[n] ∧ (s.enterOne n b r x).pwr = s.pwr := by
  unfold State.enterOne
  split <;> exact ⟨State.modCh_ch_same .., rfl⟩

theorem enterAll_of_due {n : Ch} {lim b : Nat} {e : CapE} {r : List (Nat × CapE)} {s : State} (due : b ≤ lim) :
    enterAll n lim ((b, e) :: r) s = enterAll n lim r (s.enterOne n b r (s.ch[n].cap.enter b (s.pwr.mode == 0) e)) := by
  rw [enterAll, if_pos due]
  rfl

theorem enterAll_of_later {n : Ch} {lim b : Nat} {e : CapE} {r : List (Nat × CapE)} {s : State} (later : ¬ b ≤ lim) : enterAll n lim ((b, e) :: r) s = s := if_neg later

/-- What enters the queue of a channel depends on that channel and the power mode alone. -/
theorem enterAll_ch_congr {n : Ch} (lim : Nat) : ∀ (l : List (Nat × CapE)) {s u : State}, u.ch[n] = s.ch[n] → u.pwr = s.pwr → (enterAll n lim l u).ch[n] = (enterAll n lim l s).ch[n]
  | [], _, _, ch, _ => ch
  | (b, e) :: r, s, u, ch, pwr => by
    by_cases due : b ≤ lim
    · obtain ⟨chS, pwrS⟩ := State.enterOne_ch n b r (s.ch[n].cap.enter b (s.pwr.mode == 0) e) s
      obtain ⟨chU, pwrU⟩ := State.enterOne_ch n b r (u.ch[n].cap.enter b (u.pwr.mode == 0) e) u
      rw [enterAll_of_due due, enterAll_of_due due]
      exact enterAll_ch_congr lim r (by rw [chU, chS, ch, pwr]) (by rw [pwrU, pwrS, pwr])
    · rw [enterAll_of_later due, enterAll_of_later due]
      exact ch

/-- The engine as of now depends on its channel, the power mode and the tick alone. -/
theorem State.pipNow_ch_congr {n : Ch} {s u : State} (ch : u.ch[n] = s.ch[n]) (pwr : u.pwr = s.pwr) (tick : u.tick = s.tick) : (u.pipNow n).ch[n] = (s.pipNow n).ch[n] := by
  have entered : (u.settleCaps u.tick n).ch[n] = (s.settleCaps s.tick n).ch[n] := by
    unfold State.settleCaps
    rw [ch, tick]
    exact enterAll_ch_congr s.tick s.ch[n].cap.waiting ch pwr
  unfold State.pipNow
  rw [State.modPip_ch_same, State.modPip_ch_same, entered, tick]

theorem forAll_pipNow_ch {l : List Ch} (once : l.Nodup) (s : State) (c : Ch) : (forAll l (fun n s => s.pipNow n) s).ch[c] = if c ∈ l then (s.pipNow c).ch[c] else s.ch[c] := by
  unfold forAll
  induction l generalizing s with
  | nil => rfl
  | cons m l ih =>
    obtain ⟨notIn, once'⟩ := List.nodup_cons.mp once
    rw [List.foldl_cons, ih once']
    by_cases h : c = m
    · subst h
      rw [if_neg notIn, if_pos List.mem_cons_self]
    · have other := State.pipNow_onlyCh m s c h
      have keeps := State.pipNow_keeps m s
      have now := State.pipNow_ch_congr other (keeps.2 .pwr (by decide)) (keeps.tick (by decide))
      rw [now, other]
      simp only [List.mem_cons, h, false_or]

/-- The channels that a PIP_SWAP names. -/
def swapNamed (body : List Byte) : List Ch := allChs.filter (fun n => (u32 (4 * (n.val / 32)) body).testBit (n.val % 32))

/-- Word i of a mask of channels. -/
def maskWord (l : List Ch) (i : Nat) : Nat := (l.filter (fun n => n.val / 32 == i)).foldl (fun v n => v + 2 ^ (n.val % 32)) 0

theorem maskWord_bit {l : List Ch} (once : l.Nodup) (c : Ch) : (maskWord l (c.val / 32)).testBit (c.val % 32) = decide (c ∈ l) := by
  have apart : ((l.filter (fun n => n.val / 32 == c.val / 32)).map (fun n => n.val % 32)).Nodup := (once.filter _).map_on fun x memX y memY same => by
    have wordX := beq_iff_eq.mp (List.mem_filter.mp memX).2
    have wordY := beq_iff_eq.mp (List.mem_filter.mp memY).2
    exact Fin.ext (by omega)
  refine (testBit_sum_two_pow (fun n : Ch => n.val % 32) _ apart 0 (fun x _ => Nat.zero_testBit _) (c.val % 32)).trans ?_
  rw [Nat.zero_testBit, Bool.false_or, Bool.eq_iff_iff, decide_eq_true_iff, decide_eq_true_iff, List.mem_map]
  constructor
  · rintro ⟨n, mem, low⟩
    obtain ⟨here, high⟩ := List.mem_filter.mp mem
    have word := beq_iff_eq.mp high
    rw [show c = n from Fin.ext (by omega)]
    exact here
  · exact fun mem => ⟨c, List.mem_filter.mpr ⟨mem, beq_self_eq_true _⟩, rfl⟩

/-- The named channels as of now. -/
def State.swapNow (body : List Byte) (s : State) : State := forAll (swapNamed body) (fun n s => s.pipNow n) s

/-- The named channels whose other bank is not valid. -/
def swapBad (body : List Byte) (s : State) : List Ch := (swapNamed body).filter (fun n => !s.ch[n].pip.otherValid)

/-- The named channels whose other bank is valid. -/
def swapGood (body : List Byte) (s : State) : List Ch := (swapNamed body).filter (fun n => s.ch[n].pip.otherValid)

/-- The named channels that can be asked are asked. -/
def State.swapAsked (body : List Byte) (s : State) : State := forAll (swapGood body s) (fun n => State.modPip n (Pip.reqSwap s.tick (u32 16 body == 1))) s

theorem State.pipSwap_eq (b : CmdMbx) (body : List Byte) (s : State) : s.pipSwap b body =
    ((s.swapNow body).swapAsked body).answer b (if (swapBad body (s.swapNow body)).isEmpty then stOk else stBankInvalid) 0
      (fourWords (((s.swapNow body).swapAsked body).tw * 32) (maskWord (swapBad body (s.swapNow body)))) := rfl

/-- What a PIP_SWAP leaves of each channel, and what it says of it. -/
structure Swapped (body : List Byte) (c : Ch) (s t : State) (bad : Bool) : Prop where
  said : bad = ((leAt (4 * (c.val / 32)) 4 body).testBit (c.val % 32) && !(s.pipNow c).ch[c].pip.otherValid)
  asked : (leAt (4 * (c.val / 32)) 4 body).testBit (c.val % 32) = true → (s.pipNow c).ch[c].pip.otherValid = true → t.ch[c].pip = (s.pipNow c).ch[c].pip.reqSwap s.tick (leAt 16 4 body == 1)
  left : (leAt (4 * (c.val / 32)) 4 body).testBit (c.val % 32) = true → (s.pipNow c).ch[c].pip.otherValid = false → t.ch[c].pip = (s.pipNow c).ch[c].pip
  other : (leAt (4 * (c.val / 32)) 4 body).testBit (c.val % 32) = false → t.ch[c] = s.ch[c]

theorem mem_swapNamed (body : List Byte) (c : Ch) : c ∈ swapNamed body ↔ (leAt (4 * (c.val / 32)) 4 body).testBit (c.val % 32) = true := by
  unfold swapNamed
  rw [List.mem_filter]
  exact and_iff_right (List.mem_finRange c)

theorem swapNamed_nodup (body : List Byte) : (swapNamed body).Nodup := (List.nodup_finRange 128).filter _

theorem State.swapNow_keeps (body : List Byte) (s : State) : Keeps [.ch, .pod] s (s.swapNow body) :=
  Keeps.forAll _ (fun n u => State.pipNow_keeps n u) _ (Keeps.refl _ s)

theorem State.swapAsked_keeps (body : List Byte) (s : State) : Keeps [.ch] s (s.swapAsked body) :=
  Keeps.forAll _ (fun n u => State.modPip_keeps n _ u) _ (Keeps.refl _ s)

theorem State.swapAsked_ch (body : List Byte) (s : State) (c : Ch) :
    (s.swapAsked body).ch[c] = if c ∈ swapGood body s then { s.ch[c] with pip := s.ch[c].pip.reqSwap s.tick (u32 16 body == 1) } else s.ch[c] :=
  forAll_modCh_ch ((swapNamed_nodup body).filter _) (fun x => { x with pip := x.pip.reqSwap s.tick (u32 16 body == 1) }) s c

theorem State.swapped (body : List Byte) (s : State) (c : Ch) : Swapped body c s ((s.swapNow body).swapAsked body) (decide (c ∈ swapBad body (s.swapNow body))) := by
  have tick : (s.swapNow body).tick = s.tick := (State.swapNow_keeps body s).tick (by decide)
  have now : (s.swapNow body).ch[c] = if c ∈ swapNamed body then (s.pipNow c).ch[c] else s.ch[c] := forAll_pipNow_ch (swapNamed_nodup body) s c
  have asked := State.swapAsked_ch body (s.swapNow body) c
  have inBad : c ∈ swapBad body (s.swapNow body) ↔ c ∈ swapNamed body ∧ (!(s.swapNow body).ch[c].pip.otherValid) = true := List.mem_filter
  have inGood : c ∈ swapGood body (s.swapNow body) ↔ c ∈ swapNamed body ∧ (s.swapNow body).ch[c].pip.otherValid = true := List.mem_filter
  rw [tick] at asked
  generalize (s.swapNow body).swapAsked body = t at asked
  have named := mem_swapNamed body c
  by_cases mem : c ∈ swapNamed body
  · rw [if_pos mem] at now
    rw [now] at asked inBad inGood
    have on := named.mp mem
    refine ⟨?_, fun _ valid => ?_, fun _ invalid => ?_, fun off => absurd on (by rw [off]; exact Bool.false_ne_true)⟩
    · rw [on, Bool.true_and, Bool.eq_iff_iff, decide_eq_true_iff, inBad, and_iff_right mem]
    · exact congrArg Channel.pip (asked.trans (if_pos (inGood.mpr ⟨mem, valid⟩)))
    · exact congrArg Channel.pip (asked.trans (if_neg fun good => absurd (inGood.mp good).2 (by rw [invalid]; exact Bool.false_ne_true)))
  · rw [if_neg mem] at now
    rw [now] at asked
    have off : (leAt (4 * (c.val / 32)) 4 body).testBit (c.val % 32) = false := Bool.eq_false_iff.mpr fun on => mem (named.mpr on)
    refine ⟨?_, fun on => ?_, fun on => ?_, fun _ => asked.trans (if_neg fun good => mem (inGood.mp good).1)⟩
    · rw [off, Bool.false_and, decide_eq_false_iff_not]
      exact fun bad => mem (inBad.mp bad).1
    · exact absurd on (by rw [off]; exact Bool.false_ne_true)
    · exact absurd on (by rw [off]; exact Bool.false_ne_true)

/-! ### The obligation -/

/-- A size of the stream ring that may be. -/
theorem streamLog_ok {l : Nat} (h : l = 0 ∨ (8 ≤ l ∧ l ≤ 20)) : ¬ (l ≠ 0 ∧ (l < 8 ∨ 20 < l)) := by omega

theorem if_congr_on {α : Type} {c : Prop} [Decidable c] {x y z : α} (h : c → x = y) : (if c then x else z) = if c then y else z := by
  split
  · exact h ‹_›
  · rfl

theorem State.pipLoadOn_of_fits {b : CmdMbx} {body : List Byte} {n : Ch} {s : State} (bank : u32 4 body ≤ 1) (fits : u32 8 body + u32 12 body ≤ 32) :
    s.pipLoadOn b body n = if bit (s.pipNow n).ch[n].pip.ctrl 0 && (s.pipNow n).ch[n].pip.bank == (u32 4 body == 1) then (s.pipNow n).answer b 0x20 0 []
      else ((s.pipNow n).modPip n (Pip.load (s.pipNow n).tick (u32 4 body == 1) (u32 8 body) (loadWords body))).answer b 0 0 [] :=
  (if_neg (by omega)).trans ((if_neg (by omega)).trans (if_neg (by omega)))

theorem emulRules_keeps (k : Ax) (o : Nat) (v : W) (u : State) : Keeps pairParts u ((emulRules k).write o v u) := (State.writeAxis_keeps k o v u).mono (by decide)

theorem axRules_keeps (k : Ax) (o : Nat) (v : W) (u : State) : Keeps pairParts u ((axRules k).write o v u) := (State.writeAxis_keeps k o v u).mono (by decide)

theorem chRules_keeps (n : Ch) (o : Nat) (v : W) (u : State) : Keeps pairParts u ((chRules n).write o v u) := (chanWrite_keeps .watch1 n o v u).mono (by decide)

theorem adcRules_keeps (o : Nat) (v : W) (u : State) : Keeps pairParts u (adcRules.write o v u) := (adcWrite_keeps o v u).mono (by decide)

/-- Settles O47, command by command. -/
theorem configCommands : Obligations.ConfigCommands := by
  unfold Obligations.ConfigCommands
  intro b seq body s
  refine ⟨fun h => ⟨fun far => h.replies rfl (dif_neg (Nat.not_lt.mpr far)), fun n is => ?_⟩, fun h => ⟨fun far => h.replies rfl (dif_neg (Nat.not_lt.mpr far)), fun k is => ?_⟩,
    fun h => ⟨fun far => h.replies rfl (dif_neg (Nat.not_lt.mpr far)), fun k is => ?_⟩, fun h => ?_, fun h => ?_, fun h => ?_, fun h => ?_⟩
  · have cmd : s.chConfig b body = s.pairsCmd (chRules n) b 4 body := State.chConfig_of is
    refine ⟨h.pairs_count rfl cmd, h.pairs_judged rfl cmd, fun one low => ?_, h.pairs_written rfl cmd (chRules_keeps n), fun lo hi two count => ?_⟩
    · exact h.pairs_judged rfl cmd 5 0 (le_of_eq one.symm) (one.trans_le (by decide)) (judge_low_alone one low)
    · have pairs : pairsAt 4 body = [(0x020, lo), (0x024, hi)] := two
      have good : judgePairs (chRules n) 0 (pairsAt 4 body) s = none := by rw [pairs]; exact judge_load n lo hi s
      have run := cmd.trans (State.pairsCmd_of_good (by rw [show u32 4 body = 2 from count]; decide) (by rw [show u32 4 body = 2 from count]; decide) good)
      rw [pairs, write_load] at run
      have ch := load_ch n lo hi s
      have kept : Keeps [.master, .ch] s (chanWrite .watch1 n 0x024 hi (s.setHolding .watch1 (chBase n + 0x20) lo)) := ((State.setHolding_keeps ..).mono (by decide)).step (State.modCh_keeps ..) (by decide)
      have only : OnlyMaster .watch1 s (chanWrite .watch1 n 0x024 hi (s.setHolding .watch1 (chBase n + 0x20) lo)) := (State.setHolding_spec .watch1 (chBase n + 0x20) lo s).2.2.2.1
      have onlyCh : OnlyCh n s (chanWrite .watch1 n 0x024 hi (s.setHolding .watch1 (chBase n + 0x20) lo)) := State.modCh_onlyCh n _ (s.setHolding .watch1 (chBase n + 0x20) lo)
      generalize chanWrite .watch1 n 0x024 hi (s.setHolding .watch1 (chBase n + 0x20) lo) = t at run ch kept only onlyCh
      exact ⟨_, h.next (row := .chConfig b) rfl run, (kept.mono (by decide)).step (State.answer_keeps ..) (by decide), h.answered (kept.2 .mbx (by decide)) .., only, onlyCh, ch⟩
  · have cmd : s.axPairs axRules b body = s.pairsCmd (axRules k) b 4 body := State.axPairs_of is
    exact ⟨h.pairs_count rfl cmd, h.pairs_judged rfl cmd, h.pairs_written rfl cmd (axRules_keeps k)⟩
  · have cmd : s.axPairs emulRules b body = s.pairsCmd (emulRules k) b 4 body := State.axPairs_of is
    exact ⟨h.pairs_count rfl cmd, h.pairs_judged rfl cmd, h.pairs_written rfl cmd (emulRules_keeps k)⟩
  · exact ⟨h.pairs_count rfl rfl, h.pairs_judged rfl rfl, h.pairs_written rfl rfl adcRules_keeps⟩
  · refine ⟨fun mask => h.replies rfl (if_pos mask), fun mask some_ far => ?_, fun mask low high host odd => ?_, fun mask low high host full => ?_, fun mask good => ?_⟩
    · exact h.replies rfl ((State.adcStream_of_mask mask).trans (if_pos ⟨some_, far⟩))
    · have near : ¬ (u32 4 body ≠ 0 ∧ (u32 4 body < 8 ∨ 20 < u32 4 body)) := streamLog_ok (.inr ⟨low, high⟩)
      exact h.replies rfl ((State.adcStream_of_mask mask).trans ((if_neg near).trans (if_pos ⟨Nat.ne_of_gt (lt_of_lt_of_le (by decide) low), host, odd⟩)))
    · have near : ¬ (u32 4 body ≠ 0 ∧ (u32 4 body < 8 ∨ 20 < u32 4 body)) := streamLog_ok (.inr ⟨low, high⟩)
      refine h.replies rfl ((State.adcStream_of_mask mask).trans ((if_neg near).trans ((if_neg fun no => absurd no.2.1 (Nat.not_le.mpr host)).trans
        (if_pos ⟨Nat.ne_of_gt (lt_of_lt_of_le (by decide) low), host, (Bool.not_eq_true' _).mpr full⟩))))
    · have near : ¬ (u32 4 body ≠ 0 ∧ (u32 4 body < 8 ∨ 20 < u32 4 body)) := streamLog_ok (good.imp_right fun g => ⟨g.1, g.2.1⟩)
      have even : ¬ (u32 4 body ≠ 0 ∧ 2 ^ 63 ≤ u64 8 body ∧ u64 8 body % 16 ≠ 0) := fun no =>
        (good.resolve_left no.1).2.2.elim (fun g => no.2.2 g.2) (fun g => absurd no.2.1 (Nat.not_le.mpr g.1))
      have room : ¬ (u32 4 body ≠ 0 ∧ u64 8 body < 2 ^ 63 ∧ (!strPlaceOk (u64 8 body) (16 * 2 ^ u32 4 body) s) = true) := fun no =>
        (good.resolve_left no.1).2.2.elim (fun g => absurd g.1 (Nat.not_le.mpr no.2.1)) (fun g => absurd ((Bool.not_eq_true' _).mp no.2.2) (Bool.eq_false_iff.not.mpr (not_not.mpr g.2)))
      have run := (State.adcStream_of_mask (b := b) mask).trans ((if_neg near).trans ((if_neg even).trans (if_neg room)))
      exact ⟨_, h.next (row := .adcStream b) rfl run, ((Keeps.setAdc ..).mono (by decide)).step (State.answer_keeps ..) (by decide), h.answered rfl .., rfl⟩
  · refine ⟨fun far => h.replies rfl (dif_neg (Nat.not_lt.mpr far)), fun c is => ⟨fun bank => ?_, fun bank far => ?_, fun bank fits active => ?_, fun bank fits idle => ?_⟩⟩
    · exact h.replies rfl ((State.pipLoad_of is).trans (if_pos bank))
    · have on := (State.pipLoad_of (b := b) (s := s) is).trans (if_neg (Nat.not_lt.mpr bank))
      by_cases start : 32 < u32 8 body
      · exact h.replies rfl (on.trans ((if_pos start).trans (congrArg (fun d => s.answer b stBadField d []) (if_pos start).symm)))
      · exact h.replies rfl (on.trans (((if_neg start).trans (if_pos far)).trans (congrArg (fun d => s.answer b stBadField d []) (if_neg start).symm)))
    · have run := (State.pipLoad_of (b := b) (s := s) is).trans (State.pipLoadOn_of_fits bank fits)
      have kept := State.pipNow_keeps c s
      obtain ⟨en, same⟩ := active
      exact ⟨_, h.next (row := .pipLoad b) rfl (run.trans (if_pos ((Bool.and_eq_true _ _).mpr ⟨en, beq_iff_eq.mpr same⟩))), (kept.mono (by decide)).step (State.answer_keeps ..) (by decide),
        h.answered (kept.2 .mbx (by decide)) .., rfl⟩
    · have taken : ¬ (bit (s.pipNow c).ch[c].pip.ctrl 0 && (s.pipNow c).ch[c].pip.bank == (u32 4 body == 1)) = true := fun on =>
        idle ⟨((Bool.and_eq_true _ _).mp on).1, beq_iff_eq.mp ((Bool.and_eq_true _ _).mp on).2⟩
      have free : bit (s.pipNow c).ch[c].pip.ctrl 0 = false ∨ (u32 4 body == 1) ≠ (s.pipNow c).ch[c].pip.bank := by
        by_cases en : bit (s.pipNow c).ch[c].pip.ctrl 0 = true
        · exact .inr fun same => idle ⟨en, same.symm⟩
        · exact .inl (Bool.eq_false_iff.mpr en)
      have run := ((State.pipLoad_of (b := b) (s := s) is).trans (State.pipLoadOn_of_fits bank fits)).trans (if_neg taken)
      obtain ⟨only, kept, same⟩ := State.pipNow_modPip_spec c (Pip.load (s.pipNow c).tick (u32 4 body == 1) (u32 8 body) (loadWords body)) s
      obtain ⟨others, valid, words⟩ := Pip.load_loaded (s.pipNow c).tick (u32 8 body) (loadWords body) (s.pipNow c).ch[c].pip free (by rw [loadWords_length]; exact fits)
      generalize (s.pipNow c).modPip c (Pip.load (s.pipNow c).tick (u32 4 body == 1) (u32 8 body) (loadWords body)) = t at run only kept same
      have pip : t.ch[c].pip = Pip.load (s.pipNow c).tick (u32 4 body == 1) (u32 8 body) (loadWords body) (s.pipNow c).ch[c].pip := by rw [same]
      rw [← pip] at others valid words
      rw [loadWords_length] at words
      refine ⟨_, h.next (row := .pipLoad b) rfl run, (kept.mono (by decide)).step (State.answer_keeps ..) (by decide), h.answered (kept.2 .mbx (by decide)) .., only,
        bank_shown bank others valid fun i => (words i).trans (if_congr_on fun inside => loadWords_word (by omega))⟩
  · have run := h.next (row := .pipSwap b) rfl (State.pipSwap_eq b body s)
    have keeps : Keeps [.ch, .pod] s ((s.swapNow body).swapAsked body) := (State.swapNow_keeps body s).step (State.swapAsked_keeps ..) (by decide)
    have swapped := State.swapped body s
    have once : (swapBad body (s.swapNow body)).Nodup := (swapNamed_nodup body).filter _
    generalize (s.swapNow body).swapAsked body = t at run keeps swapped
    generalize swapBad body (s.swapNow body) = bad at run swapped once
    have bits (c : Ch) : (leAt (8 + 4 * (c.val / 32)) 4 (fourWords (t.tw * 32) (maskWord bad))).testBit (c.val % 32) = decide (c ∈ bad) := by
      have word := fourWords_word (t.tw * 32) (maskWord bad) ⟨c.val / 32, by omega⟩
      rw [word, Nat.testBit_mod_two_pow, decide_eq_true (Nat.mod_lt _ (by decide)), Bool.true_and, maskWord_bit once]
    have tick : t.tick = s.tick := keeps.tick (by decide)
    have said := h.answered (keeps.2 .mbx (by decide)) (if bad.isEmpty then stOk else stBankInvalid) 0 (fourWords (t.tw * 32) (maskWord bad))
    refine ⟨_, fourWords (t.tw * 32) (maskWord bad), run, (keeps.mono (by decide)).step (State.answer_keeps ..) (by decide), said.2, rfl, ?_, ⟨_, said.1, ?_, ?_⟩, fun c => ?_⟩
    · rw [fourWords_lt, ← tick]
      rfl
    · cases bad.isEmpty
      · exact .inr rfl
      · exact .inl rfl
    · cases bad with
      | nil => exact ⟨fun e => (nomatch e), fun ⟨c, on⟩ => absurd (of_decide_eq_true ((bits c).symm.trans on)) List.not_mem_nil⟩
      | cons c l => exact ⟨fun _ => ⟨c, by rw [bits c]; exact decide_eq_true List.mem_cons_self⟩, fun _ => rfl⟩
    · exact ⟨(bits c).trans (swapped c).said, (swapped c).asked, (swapped c).left, (swapped c).other⟩

end Sys2Proof.Machine
end

section
/-!
A byte written 0 by a QSPI transaction, where the store's contents are not in their canonical form (R225, R254).
-/
namespace Sys2Proof.Machine

/-- The QSPI window shows segment 4 of a store that lists one offset of it twice: it is not in canonical form, which no premise of the statement asks for. -/
def pageTwiceState : State := { listedTwiceState with store := { listedTwiceState.store with page := 4 } }

theorem pageTwiceState_open : pageTwiceState.pwr.mode = 0 ∧ inWindow 0x800000 = true ∧ closedSegs (pageOffsets 0x800000 [(0 : Byte)].length pageTwiceState) pageTwiceState = [] ∧
    pageTwiceState.store.heldQ = [] ∧ pageTwiceState.store.bad = [] ∧ winWrites 0x2000000 pageTwiceState = true := by decide +kernel

/-- The write takes away the first entry alone, and the second is read from then on. -/
theorem pageTwiceState_read : (match exec (.qspiWrite 0x800000 [0]) pageTwiceState with | .next t => memRead 0x2000000 t.store.mem | _ => 0) = 2 := by decide +kernel

/-- Refutes O43: a byte written 0 through the QSPI window reads 2, where the store's contents list its offset twice. -/
theorem not_dmaAndQspi : ¬ Obligations.DmaAndQspi := by
  unfold Obligations.DmaAndQspi
  intro h
  obtain ⟨-, -, -, -, -, writes⟩ := h pageTwiceState
  obtain ⟨mode, window, opened, held, bad, writable⟩ := pageTwiceState_open
  obtain ⟨-, write, -⟩ := writes false 0x800000 [0]
  obtain ⟨t, run, -, written, -⟩ := write mode window opened held bad (by decide)
  have wrong : memRead 0x2000000 t.store.mem = 0 := (written 0 0 rfl).trans (if_pos writable)
  have right := pageTwiceState_read
  rw [show exec (.qspiWrite 0x800000 [0]) pageTwiceState = _ from run] at right
  exact absurd (right.symm.trans wrong) (by decide)

end Sys2Proof.Machine
end

section
/-!
A reply written into its block, where the store's contents are not in their canonical form (R263).
-/
namespace Sys2Proof.Machine

/-- A command of mailbox 0 with its outcome, whose block lies in a store that lists the offset of its STATUS twice: it is not in canonical form, which no
premise of the statement asks for. -/
def replyTwiceState : State :=
  { State.reset with
    fw := { State.reset.fw with ready := true, state := 1 }
    mbx := State.reset.mbx.set 0 { State.reset.mbx[(0 : Mbx)] with phase := .answered (some 7) true 0 0 [], postLo := 0x2810000, postHi := 0, busy := true }
    store := { State.reset.store with mem := [(0x2810010, 1), (0x2810010, 2)] } }

theorem replyTwiceState_answered : fwRuns replyTwiceState = true ∧ replyTwiceState.pwr.mode = 0 ∧ replyTwiceState.mbx[cmdMbx 0].phase = .answered (some 7) true 0 0 [] := by decide +kernel

theorem replyTwiceState_block : bit replyTwiceState.mbx[cmdMbx 0].postHi 31 = false ∧ areaEnd replyTwiceState.mbx[cmdMbx 0].ptr replyTwiceState = some 0x3000000 ∧
    replyTwiceState.mbx[cmdMbx 0].ptr = 0x2810000 ∧ replyTwiceState.store.bad = [] ∧ ∀ g : Seg, segOpen g.val replyTwiceState = true := by decide +kernel

/-- The write of STATUS takes away the first entry alone, and the second is read from then on. -/
theorem replyTwiceState_read : (match exec (.commandComplete 0) replyTwiceState with | .next t => memRead 0x2810010 t.store.mem | _ => 0) = 2 := by decide +kernel

/-- Refutes O45: the STATUS 0 of a reply reads 2 in its block, where the store's contents list its offset twice. -/
theorem not_commandBlocks : ¬ Obligations.CommandBlocks := by
  unfold Obligations.CommandBlocks
  rintro ⟨commands, -⟩
  obtain ⟨-, -, completes, -, -⟩ := commands 0 replyTwiceState
  obtain ⟨runs, mode, phase⟩ := replyTwiceState_answered
  obtain ⟨inStore, area, ptr, bad, opened⟩ := replyTwiceState_block
  obtain ⟨write, -⟩ := completes 7 0 0 [] runs mode phase
  obtain ⟨t, run, -, -, -, -, written⟩ := write 0x3000000 inStore area (by rw [ptr]) (by rw [ptr]; decide) (fun g _ _ => opened g) bad
  have wrong : memRead 0x2810010 t.store.mem = 0 := by
    have status := written 0 0 rfl
    rw [ptr] at status
    exact status
  have right := replyTwiceState_read
  rw [run] at right
  exact absurd (right.symm.trans wrong) (by decide)

end Sys2Proof.Machine
end

section
/-!
PROOF of the obligation on the pod's other routines (O36), after what the dispatch of a routine leaves.
-/
namespace Sys2Proof.Machine

/-! ### A dispatch (R190, R199) -/

/-- Nothing of a pod differs but what the dispatch of a routine counts and finds. -/
def PodSt.Ran (q x : PodSt) : Prop := x = { q with latTop := x.latTop, latAny := x.latAny, busy := x.busy, preempt := x.preempt, uc := x.uc }

/-- What a dispatch leaves. -/
structure Dispatched (p : Pod) (s u : State) : Prop where
  keeps : Keeps [.pod, .free] s u
  only : OnlyPod p s u
  pod : s.pod[p].Ran u.pod[p]

theorem State.modPod_ran {p : Pod} {f : PodSt → PodSt} (ran : ∀ q : PodSt, q.Ran (f q)) (s : State) : Dispatched p s (s.modPod p f).used := by
  have keeps : Keeps [.pod, .free] s (s.modPod p f).used := ((State.modPod_keeps p f s).mono (by decide)).step (State.used_keeps _) (by decide)
  refine ⟨keeps, State.modPod_onlyPod p f s, ?_⟩
  have same : (s.modPod p f).used.pod[p] = f s.pod[p] := State.modPod_pod_same ..
  rw [same]
  exact ran _

theorem State.dispatch_dispatched (p : Pod) (top : Bool) (cclk : Nat) (f : Fetch) (s : State) : Dispatched p s (s.dispatch p top cclk f) := by
  unfold State.dispatch
  refine State.modPod_ran ?_ s
  intro q
  rfl

/-! ### Spilled captures (R78, R79, R211) -/

theorem forAll_eq_self {α : Type} {f : α → State → State} {s : State} : ∀ {l : List α}, (∀ x ∈ l, f x s = s) → forAll l f s = s
  | [], _ => rfl
  | x :: l, h => by
    have head : forAll (x :: l) f s = forAll l f (f x s) := rfl
    rw [head, h x List.mem_cons_self]
    exact forAll_eq_self fun y mem => h y (List.mem_cons_of_mem x mem)

/-- The counts of dropped captures are the same. -/
structure SameDrops (k x : Capture) : Prop where
  drops : x.drops = k.drops
  flags : x.flags = k.flags
  before : x.dropBefore = k.dropBefore

/-- A channel leaves SPILLING. -/
def spillOver (n : Ch) (s : State) : Bool :=
  s.ch[n].cap.spilling && s.ch[n].cap.queue.isEmpty && s.ch[n].cap.spillOut == 0 && (match s.ch[n].cap.lastSpill with
    | none => true
    | some v => passed s.store.ring[podOf n].rd v)

/-- A channel that has left SPILLING, its captures being k before. -/
def Channel.spillEnds (k : Capture) (c : Channel) : Channel := { c with cap := { k with spilling := false, lastSpill := none } }

theorem State.settleSpill_eq (n : Ch) (s : State) : s.settleSpill n = if spillOver n s then s.modCh n (Channel.spillEnds s.ch[n].cap) else s := rfl

theorem State.settleSpill_sameDrops (n : Ch) (s : State) (k : Ch) : SameDrops s.ch[k].cap (s.settleSpill n).ch[k].cap := by
  rw [State.settleSpill_eq]
  split
  · by_cases same : k = n
    · subst same
      rw [State.modCh_ch_same]
      exact ⟨rfl, rfl, rfl⟩
    · rw [State.modCh_ch_other _ _ _ _ same]
      exact ⟨rfl, rfl, rfl⟩
  · exact ⟨rfl, rfl, rfl⟩

theorem settleSpills_sameDrops (p : Pod) (s : State) (k : Ch) : SameDrops s.ch[k].cap (forAll (bankChs p) State.settleSpill s).ch[k].cap := by
  refine forAll_induction (P := fun t : State => SameDrops s.ch[k].cap t.ch[k].cap) (fun n _ r h => ?_) ⟨rfl, rfl, rfl⟩
  obtain ⟨drops, flags, before⟩ := State.settleSpill_sameDrops n r k
  exact ⟨drops.trans h.drops, flags.trans h.flags, before.trans h.before⟩

/-- A pod without spilled captures. -/
def PodSt.spilled (x : PodSt) : PodSt := { x with capQ := [] }

/-- The captures of a channel whose spilled entry was dropped. -/
def Channel.spillDrops (t : Nat) (c : Channel) : Channel := { c with cap := { c.cap.drop t true with spillOut := (c.cap.drop t true).spillOut - 1, dropBefore := true } }

/-- The captures of a channel whose spilled entry went to its ring. -/
def Channel.spillEnters (wr : W) (c : Channel) : Channel := { c with cap := { c.cap with spillOut := c.cap.spillOut - 1, lastSpill := some (wr + 1) } }

/-- The entry written into the pod's ring. -/
def State.capWritten (p : Pod) (n : Ch) (e : CapE) (s : State) : State :=
  { s.modPod p PodSt.spilled with store := { (s.modPod p PodSt.spilled).store.putWord (s.store.ring[p].base.toNat + 16 * (s.store.ring[p].wr.toNat % 2 ^ fld s.store.ring[p].size 0 5)) (e.bytes n (s.store.ring[p].wr.toNat % 65536)) with
    ring := (s.modPod p PodSt.spilled).store.ring.set p.val { s.store.ring[p] with wr := s.store.ring[p].wr + 1 } } }

/-- The entry e of channel n is in the ring of the pod. -/
structure SpillTaken (p : Pod) (n : Ch) (e : CapE) (s t : State) : Prop where
  mem : t.store.mem = memWrites (s.store.ring[p].base.toNat + 16 * (s.store.ring[p].wr.toNat % 2 ^ fld s.store.ring[p].size 0 5)) (e.bytes n (s.store.ring[p].wr.toNat % 65536)) s.store.mem
  ring : t.store.ring[p] = { s.store.ring[p] with wr := s.store.ring[p].wr + 1 }
  drops : t.ch[n].cap.drops = s.ch[n].cap.drops

/-- The entry of channel n is dropped. -/
structure SpillDropped (n : Ch) (s t : State) : Prop where
  store : t.store = s.store
  drops : t.ch[n].cap.drops = s.ch[n].cap.drops.bump s.tick 1 255
  flags : t.ch[n].cap.flags.get 6 = true
  before : t.ch[n].cap.dropBefore = true

section
variable {p : Pod} {n : Ch} {e : CapE} {s : State} (quiet : ∀ m : Ch, podOf m = p → s.ch[m].cap.waiting = []) (one : s.pod[p].capQ = [(n, e)])
include quiet one

theorem State.capSpill_one : s.capSpill p = forAll (bankChs p) State.settleSpill
    (if s.store.ring[p].full then (s.modPod p PodSt.spilled).modCh n (Channel.spillDrops s.tick) else (s.capWritten p n e).modCh n (Channel.spillEnters s.store.ring[p].wr)) := by
  have settled : forAll (bankChs p) (fun n => State.settleCaps s.tick n) s = s := forAll_eq_self fun m mem => State.settleCaps_of_none _ (quiet m ((mem_bankChs ..).mp mem))
  have oldest : oldestCap [(n, e)] = some (n, e) := rfl
  have none : dropFirst (n, e) [(n, e)] = [] := if_pos rfl
  unfold State.capSpill
  dsimp only
  rw [settled, one, oldest]
  dsimp only
  rw [none]
  refine congrArg (forAll (bankChs p) State.settleSpill) ?_
  split <;> rfl

/-- Of two states alike but for the captures of a pod's channels, what a spilled capture changes. -/
structure CapSpilled (p : Pod) (s t : State) : Prop where
  only : OnlyPod p s t
  empty : t.pod[p].capQ = []

omit quiet one in
theorem State.spilled_empty {r : State} (pod : r.pod = (s.modPod p PodSt.spilled).pod) : CapSpilled p s (forAll (bankChs p) State.settleSpill r) := by
  have settled : (forAll (bankChs p) State.settleSpill r).pod = r.pod := (settleSpills_keeps p r).2 .pod (by decide)
  refine ⟨(State.modPod_onlyPod p PodSt.spilled s).trans (.of_pod_eq (settled.trans pod)), ?_⟩
  rw [settled, pod, State.modPod_pod_same]
  rfl

theorem State.capSpill_spilled : CapSpilled p s (s.capSpill p) := by
  rw [State.capSpill_one quiet one]
  split <;> exact State.spilled_empty rfl

theorem State.capSpill_room (room : (s.store.ring[p].wr - s.store.ring[p].rd).toNat < 2 ^ fld s.store.ring[p].size 0 5) : SpillTaken p n e s (s.capSpill p) := by
  have notFull : ¬ s.store.ring[p].full = true := by
    unfold CapRing.full
    rw [decide_eq_true_iff]
    omega
  rw [State.capSpill_one quiet one, if_neg notFull]
  generalize run : (s.capWritten p n e).modCh n (Channel.spillEnters s.store.ring[p].wr) = r
  have same := (settleSpills_sameDrops p r n).drops
  have store := settleSpills_store p r
  subst run
  refine ⟨?_, ?_, ?_⟩
  · rw [store]
    rfl
  · rw [store]
    exact Vector.getElem_set_self ..
  · rw [same, State.modCh_ch_same]
    rfl

theorem State.capSpill_full (full : 2 ^ fld s.store.ring[p].size 0 5 ≤ (s.store.ring[p].wr - s.store.ring[p].rd).toNat) : SpillDropped n s (s.capSpill p) := by
  have isFull : s.store.ring[p].full = true := decide_eq_true full
  rw [State.capSpill_one quiet one, if_pos isFull]
  generalize run : (s.modPod p PodSt.spilled).modCh n (Channel.spillDrops s.tick) = r
  have same := settleSpills_sameDrops p r n
  have store := settleSpills_store p r
  subst run
  refine ⟨store, ?_, ?_, ?_⟩
  · rw [same.drops, State.modCh_ch_same]
    rfl
  · rw [same.flags, State.modCh_ch_same]
    have raised : (((s.ch[n].cap.flags.raise s.tick (flag 4 true)).raise s.tick (flag 6 true)).get 6) = true := by
      rw [Sticky.get_raise, Bool.or_eq_true_iff]
      exact .inr (by decide)
    exact raised
  · rw [same.before, State.modCh_ch_same]
    rfl

end

/-! ### A configuration job (R192, R275) -/

theorem drainBacklog_of_nil {p : Pod} {s : State} (none : s.pod[p].res.backlog = []) (k : Nat) : drainBacklog p k s = s := by
  cases k with
  | zero => rfl
  | succ k =>
    unfold drainBacklog
    dsimp only
    rw [none]

theorem State.backlogDrain_of_nil {p : Pod} {s : State} (none : s.pod[p].res.backlog = []) (gap : s.pod[p].res.gapNow = 0) : s.backlogDrain p = s := by
  unfold State.backlogDrain
  dsimp only
  rw [drainBacklog_of_nil none, State.gapRecord_of_none gap, drainBacklog_of_nil none]

/-- A pod whose ring a job has placed anew. -/
def PodSt.ringSet (base : BitVec 64) (l : Nat) (q : PodSt) : PodSt := { q with job := none, res := { q.res with base := base, log2 := l, wr := 0, rd := 0 } }

theorem State.cfgJob_ring {p : Pod} {b : CmdMbx} {l : Nat} {base : BitVec 64} {s : State} (job : s.pod[p].job = some (.ring b l base)) (none : s.pod[p].res.backlog = []) (gap : s.pod[p].res.gapNow = 0) :
    s.cfgJob p = (s.modPod p (PodSt.ringSet base l)).answer b stOk 0 (leBytes 4 s.pod[p].res.wr.toNat ++ leBytes 4 s.pod[p].res.rd.toNat ++ leBytes 8 (s.tick * 32)) := by
  have same : (s.modPod p (PodSt.ringSet base l)).pod[p] = PodSt.ringSet base l s.pod[p] := State.modPod_pod_same ..
  have drained : (s.modPod p (PodSt.ringSet base l)).backlogDrain p = s.modPod p (PodSt.ringSet base l) :=
    State.backlogDrain_of_nil (by rw [same]; exact none) (by rw [same]; exact gap)
  unfold State.cfgJob
  rw [job]
  exact congrArg (fun r : State => r.answer b stOk 0 (leBytes 4 s.pod[p].res.wr.toNat ++ leBytes 4 s.pod[p].res.rd.toNat ++ leBytes 8 (s.tick * 32))) drained

theorem cfg_answered {p : Pod} {b : CmdMbx} {l op cap : Nat} {base : BitVec 64} {seq : W} {body : List Byte} {s u : State} (ran : Dispatched p s u)
    (job : s.pod[p].job = some (.ring b l base)) (phase : s.mbx[cmdMbx b].phase = .running op seq cap body) (none : s.pod[p].res.backlog = []) (gap : s.pod[p].res.gapNow = 0) :
    Keeps [.pod, .mbx, .free] s (u.cfgJob p) ∧ OnlyPod p s (u.cfgJob p) ∧ (u.cfgJob p).pod[p].job = Option.none ∧
      (u.cfgJob p).pod[p].res = { s.pod[p].res with base := base, log2 := l, wr := 0, rd := 0 } ∧
      Answered b seq 0 0 (leBytes 4 s.pod[p].res.wr.toNat ++ leBytes 4 s.pod[p].res.rd.toNat ++ leBytes 8 (s.tick * 32)) s (u.cfgJob p) := by
  obtain ⟨keeps, only, pod⟩ := ran
  have res : u.pod[p].res = s.pod[p].res := by rw [pod]
  have jobU : u.pod[p].job = s.pod[p].job := by rw [pod]
  have tick : u.tick = s.tick := keeps.tick (by decide)
  have mbx : u.mbx = s.mbx := keeps.2 .mbx (by decide)
  rw [State.cfgJob_ring (jobU.trans job) (by rw [res]; exact none) (by rw [res]; exact gap), res, tick]
  generalize leBytes 4 s.pod[p].res.wr.toNat ++ leBytes 4 s.pod[p].res.rd.toNat ++ leBytes 8 (s.tick * 32) = reply
  have set : Keeps [.pod, .mbx, .free] s (u.modPod p (PodSt.ringSet base l)) := (keeps.mono (by decide)).step (State.modPod_keeps p _ u) (by decide)
  have answered : ((u.modPod p (PodSt.ringSet base l)).answer b stOk 0 reply).pod = (u.modPod p (PodSt.ringSet base l)).pod :=
    (State.answer_keeps b stOk 0 reply (u.modPod p (PodSt.ringSet base l))).2 .pod (by decide)
  have same : ((u.modPod p (PodSt.ringSet base l)).answer b stOk 0 reply).pod[p] = PodSt.ringSet base l u.pod[p] := by
    rw [answered]
    exact State.modPod_pod_same ..
  refine ⟨set.step (State.answer_keeps ..) (by decide), (only.trans (State.modPod_onlyPod p _ u)).trans (.of_pod_eq answered), ?_, ?_, ?_⟩
  · rw [same]
    rfl
  · rw [same, PodSt.ringSet, res]
  · exact State.answer_answered phase mbx stOk 0 reply

/-! ### A pod line (R194) -/

/-- The pod lines of a pod after its oldest one has been noted. -/
def PodSt.lined (t : Nat) (q : PodSt) : PodSt :=
  match q.plines with
  | [] => q
  | i :: r => { q with plines := r, plineSeen := q.plineSeen.raise t (flag (i % 8) true) }

theorem State.pline_eq (p : Pod) (s : State) : OnlyPod p s (s.pline p) ∧ (s.pline p).pod[p] = s.pod[p].lined s.tick := by
  unfold State.pline PodSt.lined
  cases lines : s.pod[p].plines with
  | nil => exact ⟨.refl p s, rfl⟩
  | cons i r => exact ⟨State.modPod_onlyPod p _ s, State.modPod_pod_same ..⟩

theorem pline_noted {p : Pod} {s u : State} (ran : Dispatched p s u) :
    Keeps [.pod, .free] s (u.pline p) ∧ OnlyPod p s (u.pline p) ∧ (u.pline p).pod[p].res = s.pod[p].res ∧ (u.pline p).pod[p].staging = s.pod[p].staging ∧
      (s.pod[p].plines = [] → (u.pline p).pod[p].plines = [] ∧ (u.pline p).pod[p].plineSeen = s.pod[p].plineSeen) ∧
      (∀ (i : Nat) (r : List Nat), s.pod[p].plines = i :: r → (u.pline p).pod[p].plines = r ∧ (u.pline p).pod[p].plineSeen = s.pod[p].plineSeen.raise s.tick (flag (i % 8) true)) := by
  obtain ⟨keeps, only, pod⟩ := ran
  obtain ⟨onlyU, lined⟩ := State.pline_eq p u
  have lines : u.pod[p].plines = s.pod[p].plines := by rw [pod]
  have seen : u.pod[p].plineSeen = s.pod[p].plineSeen := by rw [pod]
  have res : u.pod[p].res = s.pod[p].res := by rw [pod]
  have staging : u.pod[p].staging = s.pod[p].staging := by rw [pod]
  rw [lined, keeps.tick (by decide)]
  unfold PodSt.lined
  refine ⟨keeps.step (State.pline_keeps p u) (by decide), only.trans onlyU, ?_, ?_, fun none => ?_, fun i r some => ?_⟩
  · split <;> exact res
  · split <;> exact staging
  · rw [lines, none]
    exact ⟨lines.trans none, seen⟩
  · rw [lines, some]
    exact ⟨rfl, congrArg (fun x : Sticky => x.raise s.tick (flag (i % 8) true)) seen⟩

end Sys2Proof.Machine
end

section
/-!
The Pip feeders and the substitution steps of O36 (R194, R197, R198, R292 to R298).
-/
namespace Sys2Proof.Machine

/-! ### The engine as of now, before a transfer -/

theorem State.enterOne_feeder (n : Ch) (b : Nat) (r : List (Nat × CapE)) (x : Capture × Option CapE) (s : State) :
    (s.enterOne n b r x).pod[podOf n].feeder = s.pod[podOf n].feeder := by
  unfold State.enterOne
  split
  · rfl
  · rw [State.modPod_pod_same]
    rfl

theorem enterAll_feeder (n : Ch) (lim : Nat) : ∀ (l : List (Nat × CapE)) (s : State), (enterAll n lim l s).pod[podOf n].feeder = s.pod[podOf n].feeder
  | [], _ => rfl
  | (b, e) :: r, s => by
    by_cases due : b ≤ lim
    · rw [enterAll_of_due due, enterAll_feeder n lim r, State.enterOne_feeder]
    · rw [enterAll_of_later due]

theorem State.pipNow_feederOf (n : Ch) (s : State) : feederOf n (s.pipNow n) = feederOf n s := feederOf_of_pod (enterAll_feeder n s.tick s.ch[n].cap.waiting s)

theorem State.pipNow_held (n : Ch) (s : State) : (s.pipNow n).ch[n].aborted = s.ch[n].aborted ∧ (s.pipNow n).ch[n].frz = s.ch[n].frz := by
  obtain ⟨same, -⟩ := enterAll_same n s.tick s.ch[n].cap.waiting s
  have now : (s.pipNow n).ch[n] = { (enterAll n s.tick s.ch[n].cap.waiting s).ch[n] with pip := (enterAll n s.tick s.ch[n].cap.waiting s).ch[n].pip.settle s.tick } := State.modPip_ch_same ..
  rw [now]
  generalize (enterAll n s.tick s.ch[n].cap.waiting s).ch[n] = c at same
  rw [same]
  exact ⟨rfl, rfl⟩

/-- v is s as a transfer for channel n finds it. -/
structure PipReady (n : Ch) (s v : State) : Prop where
  keeps : Keeps [.ch, .pod, .free] s v
  ch : v.ch[n] = (s.pipNow n).ch[n]
  feeder : feederOf n v = feederOf n s

theorem Dispatched.pipReady {n : Ch} {s u : State} (h : Dispatched (podOf n) s u) : PipReady n s (u.pipNow n) := by
  obtain ⟨keeps, only, pod⟩ := h
  have chs : u.ch = s.ch := keeps.2 .ch (by decide)
  refine ⟨(keeps.mono (by decide)).step (State.pipNow_keeps n u) (by decide), State.pipNow_ch_congr (by rw [chs]) (keeps.2 .pwr (by decide)) (keeps.tick (by decide)), ?_⟩
  rw [State.pipNow_feederOf]
  exact feederOf_of_pod (by rw [pod])

/-- One word of a transfer. -/
def State.xferWord (n : Ch) (drain : Bool) (s : State) : State := if drain then s.drainWord n else s.feedWord n

theorem State.pipXfer_eq (n : Ch) (drain : Bool) (s : State) :
    s.pipXfer n drain = if (s.pipNow n).ch[n].aborted || (s.pipNow n).ch[n].frz then s.pipNow n else forAll (List.range 4) (fun _ => State.xferWord n drain) (s.pipNow n) := rfl

/-- A transfer whose second word does not move is its first word. -/
theorem State.pipXfer_one {n : Ch} {drain : Bool} {s : State} (aborted : (s.pipNow n).ch[n].aborted = false) (frz : (s.pipNow n).ch[n].frz = false)
    (ends : ((s.pipNow n).xferWord n drain).xferWord n drain = (s.pipNow n).xferWord n drain) : s.pipXfer n drain = (s.pipNow n).xferWord n drain := by
  have four : forAll (List.range 4) (fun _ => State.xferWord n drain) (s.pipNow n) = forAll [1, 2, 3] (fun _ => State.xferWord n drain) ((s.pipNow n).xferWord n drain) := rfl
  rw [State.pipXfer_eq, aborted, frz, four]
  exact forAll_eq_self fun _ _ => ends

/-! ### A transfer held back -/

theorem pipXfer_held {n : Ch} {s u : State} (ran : Dispatched (podOf n) s u) (drain : Bool) (held : s.ch[n].aborted = true ∨ s.ch[n].frz = true) :
    Keeps [.ch, .pod, .free] s (u.pipXfer n drain) ∧ feederOf n (u.pipXfer n drain) = feederOf n s ∧ (u.pipXfer n drain).ch[n].pip = (s.pipNow n).ch[n].pip := by
  obtain ⟨keeps, ch, feeder⟩ := ran.pipReady
  obtain ⟨aborted, frz⟩ := State.pipNow_held n s
  have stays : u.pipXfer n drain = u.pipNow n := by
    rw [State.pipXfer_eq]
    refine if_pos ?_
    rw [ch, aborted, frz, Bool.or_eq_true_iff]
    exact held
  rw [stays, ch]
  exact ⟨keeps, feeder, rfl⟩

/-! ### A word from RXF to the drain ring -/

/-- RXF holds the words l. -/
def Pip.rxHas (l : List W) (p : Pip) : Pip := p.modR (fun x => { x with rxf := l })

/-- TXF holds a word more. -/
def Pip.txGets (w : W) (p : Pip) : Pip := p.modR (fun r => { r with txf := r.txf ++ [w] })

/-- A feeder whose drain ring has taken a word. -/
def Feeder.drained (f : Feeder) : Feeder := { f with drnWr := f.drnWr + 1 }

/-- A feeder whose feed ring has given a word. -/
def Feeder.fed (f : Feeder) : Feeder := { f with feedRd := f.feedRd + 1 }

/-- The word w written to the drain ring of a good word. -/
def State.drainPut (n : Ch) (w : W) (s : State) : State :=
  { s with store := { s.store with
    mem := memWrites ((feederOf n s).drnBase.toNat + 4 * ((feederOf n s).drnWr.toNat % 2 ^ (feederOf n s).drnLog)) (leBytes 4 w.toNat) s.store.mem } }

section
variable {n : Ch} {w : W} {s : State}

theorem State.drainWord_nil (none : s.ch[n].pip.r.rxf = []) : s.drainWord n = s := by
  unfold State.drainWord
  dsimp only
  rw [none]
  exact ite_self s

theorem State.drainWord_one (mine : s.ch[n].pip.rxPod = true) (one : s.ch[n].pip.r.rxf = [w]) (on : (feederOf n s).drnLog ≠ 0)
    (room : ((feederOf n s).drnWr - (feederOf n s).drnRd).toNat < 2 ^ (feederOf n s).drnLog)
    (good : s.store.isBad ((feederOf n s).drnBase.toNat + 4 * ((feederOf n s).drnWr.toNat % 2 ^ (feederOf n s).drnLog)) = false) :
    s.drainWord n = ((s.drainPut n w).modFeeder n Feeder.drained).modPip n (Pip.rxHas []) := by
  unfold State.drainWord
  dsimp only
  rw [mine, one, good]
  refine (if_neg ?_).trans rfl
  rw [Bool.or_eq_true_iff, decide_eq_true_iff, Bool.or_eq_true_iff, decide_eq_true_iff]
  rintro ((h | h) | h)
  · exact nomatch h
  · exact on h
  · omega

end

theorem pipXfer_drains {n : Ch} {w : W} {s u : State} (ran : Dispatched (podOf n) s u) (aborted : s.ch[n].aborted = false) (frz : s.ch[n].frz = false)
    (mine : (s.pipNow n).ch[n].pip.rxPod = true) (one : (s.pipNow n).ch[n].pip.r.rxf = [w]) (on : (feederOf n s).drnLog ≠ 0)
    (room : ((feederOf n s).drnWr - (feederOf n s).drnRd).toNat < 2 ^ (feederOf n s).drnLog)
    (good : s.store.isBad ((feederOf n s).drnBase.toNat + 4 * ((feederOf n s).drnWr.toNat % 2 ^ (feederOf n s).drnLog)) = false) :
    Keeps [.ch, .pod, .mem, .free] s (u.pipXfer n true) ∧ (u.pipXfer n true).ch[n].pip.r.rxf = [] ∧ feederOf n (u.pipXfer n true) = (feederOf n s).drained ∧
      (u.pipXfer n true).store.mem = memWrites ((feederOf n s).drnBase.toNat + 4 * ((feederOf n s).drnWr.toNat % 2 ^ (feederOf n s).drnLog)) (leBytes 4 w.toNat) s.store.mem := by
  obtain ⟨keeps, ch, feeder⟩ := ran.pipReady
  obtain ⟨abortedNow, frzNow⟩ := State.pipNow_held n s
  have store : (u.pipNow n).store = s.store := keeps.store_eq (by decide) (by decide)
  have first : (u.pipNow n).xferWord n true = (((u.pipNow n).drainPut n w).modFeeder n Feeder.drained).modPip n (Pip.rxHas []) :=
    State.drainWord_one (by rw [ch]; exact mine) (by rw [ch]; exact one) (by rw [feeder]; exact on) (by rw [feeder]; exact room) (by rw [feeder, store]; exact good)
  have empty : ((u.pipNow n).xferWord n true).ch[n].pip.r.rxf = [] := by
    rw [first, State.modPip_ch_same]
    rfl
  have run : u.pipXfer n true = (u.pipNow n).xferWord n true :=
    State.pipXfer_one (by rw [ch, abortedNow]; exact aborted) (by rw [ch, frzNow]; exact frz) (State.drainWord_nil empty)
  rw [run]
  refine ⟨?_, empty, ?_, ?_⟩
  · rw [first]
    exact (((keeps.mono (by decide)).step (Keeps.setContents (u.pipNow n) _) (by decide)).step (State.modFeeder_keeps ..) (by decide)).step (State.modPip_keeps ..) (by decide)
  · rw [first, ← feeder]
    exact feederOf_modFeeder n Feeder.drained ((u.pipNow n).drainPut n w)
  · rw [first, ← feeder, ← store]
    rfl

/-! ### A word from the feed ring to TXF -/

/-- The word of the feed ring that is next. -/
def feedNext (n : Ch) (s : State) : W := BitVec.ofNat 32 (leNat (memReads ((feederOf n s).feedBase.toNat + 4 * ((feederOf n s).feedRd.toNat % 2 ^ (feederOf n s).feedLog)) 4 s.store.mem))

section
variable {n : Ch} {s : State}

theorem State.feedWord_empty (empty : (feederOf n s).feedWr = (feederOf n s).feedRd) : s.feedWord n = s := by
  unfold State.feedWord
  dsimp only
  rw [empty, beq_self_eq_true, Bool.or_true, Bool.true_or]
  exact if_pos rfl

theorem State.feedWord_one (mine : s.ch[n].pip.txPod = true) (room : s.ch[n].pip.r.txf.length < 4) (on : (feederOf n s).feedLog ≠ 0)
    (one : (feederOf n s).feedWr = (feederOf n s).feedRd + 1)
    (good : s.store.isBad ((feederOf n s).feedBase.toNat + 4 * ((feederOf n s).feedRd.toNat % 2 ^ (feederOf n s).feedLog)) = false) :
    s.feedWord n = (s.modFeeder n Feeder.fed).modPip n (Pip.txGets (feedNext n s)) := by
  unfold State.feedWord
  dsimp only
  rw [mine, good]
  refine (if_neg ?_).trans rfl
  rw [Bool.or_eq_true_iff, Bool.or_eq_true_iff, Bool.or_eq_true_iff, decide_eq_true_iff, decide_eq_true_iff, beq_iff_eq, one]
  rintro (((h | h) | h) | h)
  · exact nomatch h
  · omega
  · bv_omega
  · exact on h

end

theorem pipXfer_feeds {n : Ch} {s u : State} (ran : Dispatched (podOf n) s u) (aborted : s.ch[n].aborted = false) (frz : s.ch[n].frz = false)
    (mine : (s.pipNow n).ch[n].pip.txPod = true) (room : (s.pipNow n).ch[n].pip.r.txf.length < 4) (on : (feederOf n s).feedLog ≠ 0)
    (one : (feederOf n s).feedWr = (feederOf n s).feedRd + 1)
    (good : s.store.isBad ((feederOf n s).feedBase.toNat + 4 * ((feederOf n s).feedRd.toNat % 2 ^ (feederOf n s).feedLog)) = false) :
    Keeps [.ch, .pod, .free] s (u.pipXfer n false) ∧ feederOf n (u.pipXfer n false) = (feederOf n s).fed ∧
      (u.pipXfer n false).ch[n].pip.r.txf = (s.pipNow n).ch[n].pip.r.txf ++ [feedNext n s] := by
  obtain ⟨keeps, ch, feeder⟩ := ran.pipReady
  obtain ⟨abortedNow, frzNow⟩ := State.pipNow_held n s
  have store : (u.pipNow n).store = s.store := keeps.store_eq (by decide) (by decide)
  have next : feedNext n (u.pipNow n) = feedNext n s := by
    unfold feedNext
    rw [feeder, store]
  have first : (u.pipNow n).xferWord n false = ((u.pipNow n).modFeeder n Feeder.fed).modPip n (Pip.txGets (feedNext n (u.pipNow n))) :=
    State.feedWord_one (by rw [ch]; exact mine) (by rw [ch]; exact room) (by rw [feeder]; exact on) (by rw [feeder]; exact one) (by rw [feeder, store]; exact good)
  have fed : feederOf n ((u.pipNow n).xferWord n false) = (feederOf n s).fed := by
    rw [first, ← feeder]
    exact feederOf_modFeeder n Feeder.fed (u.pipNow n)
  have run : u.pipXfer n false = (u.pipNow n).xferWord n false :=
    State.pipXfer_one (by rw [ch, abortedNow]; exact aborted) (by rw [ch, frzNow]; exact frz) (State.feedWord_empty (by rw [fed]; exact one))
  rw [run]
  refine ⟨?_, fed, ?_⟩
  · rw [first]
    exact (keeps.step (State.modFeeder_keeps ..) (by decide)).step (State.modPip_keeps ..) (by decide)
  · rw [first, State.modPip_ch_same, next, ← ch]
    rfl

/-! ### Substitution steps (R292 to R298) -/

/-- A pod none of whose substitution steps waits. -/
def PodSt.unasked (q : PodSt) : PodSt := { q with substReq := none }

/-- A buoy that is tested. -/
def PodHealth.tests (h : PodHealth) : PodHealth := { h with testing := true }

/-- A shadow period of channel n has begun. -/
def PodHealth.shadowsCh (n : Ch) (h : PodHealth) : PodHealth := { h with shadowing := true, shadowCh := n.val % 16, rot := (n.val + 1) % 16 }

/-- The suspect is the buoy again. -/
def PodHealth.returned (t : Nat) (h : PodHealth) : PodHealth := { h with buoy := h.suspect.getD h.buoy, suspect := none, evt := h.evt.raise t 8 }

/-- The buoy has taken the channel over. -/
def PodHealth.tookOver (tw t : Nat) (h : PodHealth) : PodHealth :=
  { h with
    shadowing := false, takeover := none, unitOf := h.unitOf.set (⟨h.shadowCh % 16, by omega⟩ : Fin 16).val h.buoy, suspect := some h.unitOf[(⟨h.shadowCh % 16, by omega⟩ : Fin 16)], buoy := noBuoy
    spacing := true, lastTs := tw * 32
    evt := h.evt.raise t 2, takes := h.takes.bump t 1 255, rot := (h.shadowCh + 1) % 16 }

/-- A channel that a buoy carries. -/
def Channel.substituted (c : Channel) : Channel := { c with subst := true }

section
variable {p : Pod} {s : State}

theorem State.substStep_none (none : s.pod[p].substReq = none) : s.substStep p = s := by
  unfold State.substStep
  rw [none]

theorem State.substStep_test (ask : s.pod[p].substReq = some .quarantineTest) : s.substStep p = (s.modPod p PodSt.unasked).modHealth p PodHealth.tests := by
  unfold State.substStep
  rw [ask]
  rfl

theorem State.substStep_shadow {n : Ch} (ask : s.pod[p].substReq = some .shadowStart) (en : s.health.pod[p].shadowEn = true) (buoy : s.health.pod[p].buoy ≠ 31)
    (next : nextShadow p s = some n) : s.substStep p = (s.modPod p PodSt.unasked).modHealth p (PodHealth.shadowsCh n) := by
  have has : s.health.pod[p].degraded = false := beq_eq_false_iff_ne.mpr buoy
  unfold State.substStep
  rw [ask]
  dsimp only
  rw [en, has, next]
  exact if_neg Bool.false_ne_true

theorem State.substStep_return (ask : s.pod[p].substReq = some .buoyReturn) : s.substStep p = ((s.modPod p PodSt.unasked).modHealth p (PodHealth.returned s.tick)).shadowOn p := by
  unfold State.substStep
  rw [ask]
  rfl

section
variable {ts : Nat} {output : Bool} (ask : s.pod[p].substReq = some .takeover) (named : s.health.pod[p].takeover = some (ts, output))
include ask named

theorem State.substStep_waits (waits : s.tick + 1 < ts ∨ s.ch[chOf p s.health.pod[p].shadowCh].aborted = true ∨ s.ch[chOf p s.health.pod[p].shadowCh].frz = true ∨ s.fw.keeperUp = false) :
    s.substStep p = s := by
  unfold State.substStep
  rw [ask]
  dsimp only
  unfold State.takeover
  dsimp only
  rw [named]
  refine if_pos ?_
  rw [Bool.or_eq_true_iff, Bool.or_eq_true_iff, Bool.or_eq_true_iff, decide_eq_true_iff, Bool.not_eq_true']
  obtain h | h | h | h := waits
  · exact .inl (.inl (.inl h))
  · exact .inl (.inl (.inr h))
  · exact .inl (.inr h)
  · exact .inr h

/-- The switch word has acted, before anyone is told. -/
def State.switched (p : Pod) (s : State) : State :=
  ((s.modHealth p (PodHealth.tookOver s.tw s.tick)).modCh (chOf p s.health.pod[p].shadowCh) Channel.substituted).hsum 5

theorem State.substStep_takes (due : ts ≤ s.tick + 1) (aborted : s.ch[chOf p s.health.pod[p].shadowCh].aborted = false) (frz : s.ch[chOf p s.health.pod[p].shadowCh].frz = false)
    (up : s.fw.keeperUp = true) : ∃ data : List Byte, s.substStep p = ((s.switched p).notice 1 data).askSubst p .quarantineTest := by
  unfold State.substStep
  rw [ask]
  dsimp only
  unfold State.takeover
  dsimp only
  rw [named]
  refine ⟨_, (if_neg ?_).trans rfl⟩
  rw [aborted, frz, up, Bool.or_eq_true_iff, Bool.or_eq_true_iff, Bool.or_eq_true_iff, decide_eq_true_iff]
  rintro (((h | h) | h) | h)
  · exact absurd due (Nat.not_le_of_lt h)
  · exact nomatch h
  · exact nomatch h
  · exact nomatch h

end

end

end Sys2Proof.Machine
end

section
/-!
PROOF of the obligation on the pod's other routines (O36).
-/
namespace Sys2Proof.Machine

/-- What a substitution step finds of the state before its dispatch. -/
structure SubstSeen (p : Pod) (s u : State) : Prop where
  keeps : Keeps [.pod, .free] s u
  req : u.pod[p].substReq = s.pod[p].substReq
  health : u.health = s.health
  ch : u.ch = s.ch
  fw : u.fw = s.fw
  tick : u.tick = s.tick

theorem Dispatched.substSeen {p : Pod} {s u : State} (h : Dispatched p s u) : SubstSeen p s u := by
  obtain ⟨keeps, only, pod⟩ := h
  exact ⟨keeps, by rw [pod], keeps.2 .health (by decide), keeps.2 .ch (by decide), keeps.2 .fw (by decide), keeps.tick (by decide)⟩

section
variable {p : Pod} {s u : State} (seen : SubstSeen p s u)
include seen

theorem SubstSeen.next : nextShadow p u = nextShadow p s := by
  unfold nextShadow mayShadow
  rw [seen.health, seen.ch]

theorem SubstSeen.shadowed : chOf p u.health.pod[p].shadowCh = chOf p s.health.pod[p].shadowCh ∧
    u.ch[chOf p u.health.pod[p].shadowCh] = s.ch[chOf p s.health.pod[p].shadowCh] := by
  have same : chOf p u.health.pod[p].shadowCh = chOf p s.health.pod[p].shadowCh := by rw [seen.health]
  have idx : u.ch[chOf p u.health.pod[p].shadowCh] = s.ch[chOf p u.health.pod[p].shadowCh] := by rw [seen.ch]
  exact ⟨same, idx.trans (congrArg (fun n : Ch => s.ch[n]) same)⟩

/-- A step that is done and changes the pod's health. -/
theorem SubstSeen.done (f : PodHealth → PodHealth) : Keeps [.pod, .health, .free] s ((u.modPod p PodSt.unasked).modHealth p f) ∧
    ((u.modPod p PodSt.unasked).modHealth p f).pod[p].substReq = none ∧ ((u.modPod p PodSt.unasked).modHealth p f).health.pod[p] = f s.health.pod[p] := by
  have pod : ((u.modPod p PodSt.unasked).modHealth p f).pod[p] = PodSt.unasked u.pod[p] := State.modPod_pod_same ..
  have health : ((u.modPod p PodSt.unasked).modHealth p f).health.pod[p] = f u.health.pod[p] := State.modHealth_health_same ..
  refine ⟨((seen.keeps.mono (by decide)).step (State.modPod_keeps ..) (by decide)).step (State.modHealth_keeps ..) (by decide), ?_, ?_⟩
  · rw [pod]
    rfl
  · rw [health, seen.health]

theorem substStep_tests (ask : s.pod[p].substReq = some .quarantineTest) : Keeps [.pod, .health, .free] s (u.substStep p) ∧ (u.substStep p).pod[p].substReq = none ∧
    (u.substStep p).health.pod[p] = s.health.pod[p].tests := by
  rw [State.substStep_test (seen.req.trans ask)]
  exact seen.done PodHealth.tests

theorem substStep_shadows {n : Ch} (ask : s.pod[p].substReq = some .shadowStart) (en : s.health.pod[p].shadowEn = true) (buoy : s.health.pod[p].buoy ≠ 31) (next : nextShadow p s = some n) :
    Keeps [.pod, .health, .free] s (u.substStep p) ∧ (u.substStep p).pod[p].substReq = none ∧ (u.substStep p).health.pod[p] = s.health.pod[p].shadowsCh n := by
  rw [State.substStep_shadow (seen.req.trans ask) (by rw [seen.health]; exact en) (by rw [seen.health]; exact buoy) (seen.next.trans next)]
  exact seen.done (PodHealth.shadowsCh n)

theorem substStep_returns {k : Nat} (ask : s.pod[p].substReq = some .buoyReturn) (suspect : s.health.pod[p].suspect = some k) :
    Keeps [.pod, .health, .free] s (u.substStep p) ∧ (u.substStep p).pod[p].substReq = none ∧ (u.substStep p).health.pod[p].buoy = k ∧
      (u.substStep p).health.pod[p].suspect = none ∧ (u.substStep p).health.pod[p].evt.get 3 = true := by
  rw [State.substStep_return (seen.req.trans ask)]
  obtain ⟨keeps, req, health⟩ := seen.done (PodHealth.returned u.tick)
  generalize (u.modPod p PodSt.unasked).modHealth p (PodHealth.returned u.tick) = r at *
  have goesOn := State.shadowOn_keeps p r
  have pods : (r.shadowOn p).pod = r.pod := goesOn.2 .pod (by decide)
  have same := State.shadowOn_health p r
  generalize (r.shadowOn p).health.pod[p].testing = b at same
  refine ⟨keeps.step goesOn (by decide), by rw [pods]; exact req, ?_, ?_, ?_⟩
  · rw [same, health]
    exact congrArg (fun x : Option Nat => x.getD s.health.pod[p].buoy) suspect
  · rw [same, health]
    rfl
  · rw [same, health]
    refine (Sticky.get_raise ..).trans ?_
    rw [Bool.or_eq_true_iff]
    exact .inr (by decide)

section
variable {ts : Nat} {output : Bool} (ask : s.pod[p].substReq = some .takeover) (named : s.health.pod[p].takeover = some (ts, output))
include ask named

theorem substStep_waiting (waits : s.tick + 1 < ts ∨ s.ch[chOf p s.health.pod[p].shadowCh].aborted = true ∨ s.ch[chOf p s.health.pod[p].shadowCh].frz = true ∨ s.fw.keeperUp = false) :
    Keeps [.pod, .free] s (u.substStep p) ∧ (u.substStep p).pod[p].substReq = s.pod[p].substReq := by
  rw [State.substStep_waits (seen.req.trans ask) (by rw [seen.health]; exact named) (by rw [seen.shadowed.2, seen.fw, seen.tick]; exact waits)]
  exact ⟨seen.keeps, seen.req⟩

theorem substStep_takesOver (due : ts ≤ s.tick + 1) (aborted : s.ch[chOf p s.health.pod[p].shadowCh].aborted = false) (frz : s.ch[chOf p s.health.pod[p].shadowCh].frz = false)
    (up : s.fw.keeperUp = true) : Keeps [.ch, .pod, .mbx, .health, .free] s (u.substStep p) ∧
      (u.substStep p).ch[chOf p s.health.pod[p].shadowCh] = s.ch[chOf p s.health.pod[p].shadowCh].substituted ∧ OnlyCh (chOf p s.health.pod[p].shadowCh) s (u.substStep p) ∧
      (u.substStep p).health.sum.get 5 = true ∧ (u.substStep p).pod[p].substReq = some .quarantineTest ∧ (u.substStep p).health.pod[p] = s.health.pod[p].tookOver (s.tick + 1) s.tick := by
  obtain ⟨data, run⟩ := State.substStep_takes (seen.req.trans ask) (by rw [seen.health]; exact named) (by rw [seen.tick]; exact due) (by rw [seen.shadowed.2]; exact aborted)
    (by rw [seen.shadowed.2]; exact frz) (by rw [seen.fw]; exact up)
  have switched : Keeps [.ch, .health] u (u.switched p) :=
    (((State.modHealth_keeps p _ u).mono (by decide)).step (State.modCh_keeps ..) (by decide)).step (State.hsum_keeps ..) (by decide)
  have told : Keeps [.mbx, .free] (u.switched p) ((u.switched p).notice 1 data) := State.notice_keeps ..
  have asked : Keeps [.pod, .mbx, .free] (u.switched p) (((u.switched p).notice 1 data).askSubst p .quarantineTest) :=
    (told.mono (by decide)).step (State.askSubst_keeps ..) (by decide)
  have req := State.askSubst_pod p .quarantineTest ((u.switched p).notice 1 data)
  have carried : OnlyCh (chOf p u.health.pod[p].shadowCh) u (u.switched p) := State.modCh_onlyCh _ Channel.substituted (u.modHealth p (PodHealth.tookOver u.tw u.tick))
  have carries : (u.switched p).ch[chOf p u.health.pod[p].shadowCh] = u.ch[chOf p u.health.pod[p].shadowCh].substituted :=
    State.modCh_ch_same (s := u.modHealth p (PodHealth.tookOver u.tw u.tick)) ..
  have health : (u.switched p).health.pod[p] = u.health.pod[p].tookOver u.tw u.tick := State.modHealth_health_same ..
  have sum : (u.switched p).health.sum.get 5 = true := by
    refine (State.hsum_get ..).trans ?_
    rw [Bool.or_eq_true_iff]
    exact .inr (by decide)
  rw [run]
  have chs : (((u.switched p).notice 1 data).askSubst p .quarantineTest).ch = (u.switched p).ch := asked.2 .ch (by decide)
  have healths : (((u.switched p).notice 1 data).askSubst p .quarantineTest).health = (u.switched p).health := asked.2 .health (by decide)
  obtain ⟨same, shadowed⟩ := seen.shadowed
  refine ⟨((seen.keeps.mono (by decide)).step switched (by decide)).step asked (by decide), ?_, ?_, ?_, ?_, ?_⟩
  · rw [chs]
    exact (congrArg (fun n : Ch => (u.switched p).ch[n]) same.symm).trans (carries.trans (congrArg Channel.substituted shadowed))
  · intro m apart
    rw [chs, carried m (same ▸ apart), seen.ch]
  · rw [healths]
    exact sum
  · rw [req]
  · have tw : u.tw = s.tick + 1 := congrArg (· + 1) seen.tick
    rw [healths, health, seen.health, tw, seen.tick]

end

end

/-! ### A spilled capture after the dispatch -/

/-- What a spilled capture finds of the state before its dispatch. -/
structure SpillSeen (p : Pod) (s u : State) : Prop where
  keeps : Keeps [.pod, .free] s u
  only : OnlyPod p s u
  capQ : u.pod[p].capQ = s.pod[p].capQ
  ch : u.ch = s.ch
  store : u.store = s.store
  tick : u.tick = s.tick

theorem Dispatched.spillSeen {p : Pod} {s u : State} (h : Dispatched p s u) : SpillSeen p s u := by
  obtain ⟨keeps, only, pod⟩ := h
  exact ⟨keeps, only, by rw [pod], keeps.2 .ch (by decide), keeps.store_eq (by decide) (by decide), keeps.tick (by decide)⟩

section
variable {p : Pod} {n : Ch} {e : CapE} {s u : State} (seen : SpillSeen p s u)
include seen

theorem SpillSeen.taken {t : State} (h : SpillTaken p n e u t) : SpillTaken p n e s t := by
  obtain ⟨mem, ring, drops⟩ := h
  rw [seen.store] at mem ring
  rw [seen.ch] at drops
  exact ⟨mem, ring, drops⟩

theorem SpillSeen.dropped {t : State} (h : SpillDropped n u t) : SpillDropped n s t := by
  obtain ⟨store, drops, flags, before⟩ := h
  rw [seen.ch, seen.tick] at drops
  exact ⟨store.trans seen.store, drops, flags, before⟩

section
variable (quiet : ∀ m : Ch, podOf m = p → s.ch[m].cap.waiting = []) (one : s.pod[p].capQ = [(n, e)])
include quiet one

theorem capSpill_spills : Keeps [.ch, .pod, .mem, .store, .free] s (u.capSpill p) ∧ OnlyPod p s (u.capSpill p) ∧ (u.capSpill p).pod[p].capQ = [] := by
  obtain ⟨onlyU, empty⟩ := State.capSpill_spilled (by rw [seen.ch]; exact quiet) (seen.capQ.trans one)
  exact ⟨(seen.keeps.mono (by decide)).step (State.capSpill_keeps ..) (by decide), seen.only.trans onlyU, empty⟩

theorem capSpill_taken (room : (s.store.ring[p].wr - s.store.ring[p].rd).toNat < 2 ^ fld s.store.ring[p].size 0 5) : SpillTaken p n e s (u.capSpill p) :=
  seen.taken (State.capSpill_room (by rw [seen.ch]; exact quiet) (seen.capQ.trans one) (by rw [seen.store]; exact room))

theorem capSpill_dropped (full : 2 ^ fld s.store.ring[p].size 0 5 ≤ (s.store.ring[p].wr - s.store.ring[p].rd).toNat) : SpillDropped n s (u.capSpill p) :=
  seen.dropped (State.capSpill_full (by rw [seen.ch]; exact quiet) (seen.capQ.trans one) (by rw [seen.store]; exact full))

end

end

/-! ### The obligation -/

/-- Settles O36: every routine acts on what its dispatch leaves, which is all of the state but the pod's counts of dispatches. -/
theorem podRoutines : Obligations.PodRoutines := by
  unfold Obligations.PodRoutines
  intro p f s
  have ran (n : Nat) (g : Fetch) : Dispatched p s (s.dispatch p false n g) := State.dispatch_dispatched ..
  refine ⟨?_, ?_, ?_, ?_, ?_, ?_, ?_⟩
  · exact ⟨_, rfl, pline_noted (ran 4 {})⟩
  · intro b l base op cap seq body job phase none gap
    exact ⟨_, rfl, cfg_answered (ran 96 f) job phase none gap⟩
  · intro a
    exact ⟨_, rfl, State.modPod_keeps .., State.modPod_onlyPod p _ s, State.modPod_pod_same ..⟩
  · exact ⟨_, rfl, State.modPod_keeps .., State.modPod_onlyPod p _ s, State.modPod_pod_same ..⟩
  · intro n e quiet one mine r log
    have seen : SpillSeen p s (s.dispatch p false 12 {}) := (ran 12 {}).spillSeen
    obtain ⟨keeps, only, empty⟩ := capSpill_spills seen quiet one
    have taken := capSpill_taken seen quiet one
    have dropped := capSpill_dropped seen quiet one
    refine ⟨_, rfl, ?_⟩
    generalize (s.dispatch p false 12 {}).capSpill p = t at *
    refine ⟨keeps, only, empty, fun room => ?_, fun full => ?_⟩
    · obtain ⟨mem, ring, drops⟩ := taken room
      exact ⟨mem, ring, drops⟩
    · obtain ⟨store, drops, flags, before⟩ := dropped full
      exact ⟨store, drops, flags, before⟩
  · intro n
    have ranN : Dispatched (podOf n) s (s.dispatch (podOf n) false 10 {}) := State.dispatch_dispatched ..
    exact ⟨fun drain held => ⟨_, rfl, pipXfer_held ranN drain held⟩,
      fun w aborted frz mine one on room good => ⟨_, rfl, pipXfer_drains ranN aborted frz mine one on room good⟩,
      fun aborted frz mine room on one good => ⟨_, rfl, pipXfer_feeds ranN aborted frz mine room on one good⟩⟩
  · have seen : SubstSeen p s (s.dispatch p false 112 {}) := (ran 112 {}).substSeen
    refine ⟨fun none => ⟨_, rfl, ?_⟩, fun ask => ⟨_, rfl, substStep_tests seen ask⟩, fun n ask en buoy next => ⟨_, rfl, substStep_shadows seen ask en buoy next⟩,
      fun k ask suspect => ⟨_, rfl, substStep_returns seen ask suspect⟩, fun ts output ask named =>
        ⟨fun waits => ⟨_, rfl, substStep_waiting seen ask named waits⟩, fun due aborted frz up => ⟨_, rfl, substStep_takesOver seen ask named due aborted frz up⟩⟩⟩
    rw [State.substStep_none (seen.req.trans none)]
    exact seen.keeps

end Sys2Proof.Machine
end

section
/-!
SUPPORT. The lists of events: what marks, staging, commits and matches leave of them (R166 to R175).
-/
namespace Sys2Proof.Machine

/-! ### A list put in order -/

theorem insertBy_perm {α : Type} (before : α → α → Bool) (x : α) : ∀ l : List α, (insertBy before x l).Perm (x :: l)
  | [] => List.Perm.refl _
  | y :: ys => by
    unfold insertBy
    split
    · exact List.Perm.refl _
    · exact ((insertBy_perm before x ys).cons y).trans (List.Perm.swap x y ys)

theorem foldl_insertBy_perm {α : Type} (before : α → α → Bool) : ∀ l acc : List α, (l.foldl (fun acc x => insertBy before x acc) acc).Perm (l ++ acc)
  | [], acc => List.Perm.refl acc
  | x :: l, acc => by
    rw [List.foldl_cons]
    exact (foldl_insertBy_perm before l _).trans (((insertBy_perm before x acc).append_left l).trans List.perm_middle)

theorem sortBy_perm {α : Type} (before : α → α → Bool) (l : List α) : (sortBy before l).Perm l := by
  cases l with
  | nil => exact List.Perm.refl _
  | cons x xs =>
    have h := foldl_insertBy_perm before (x :: xs) []
    rwa [List.append_nil] at h

theorem mem_sortBy {α : Type} (before : α → α → Bool) {l : List α} {x : α} : x ∈ sortBy before l ↔ x ∈ l := (sortBy_perm before l).mem_iff

/-! ### Marks (R175) -/

/-- The same event, but for its mark. -/
def SameEv (a b : Ev) : Prop := b.ord = a.ord ∧ b.rec_ = a.rec_

theorem SameEv.refl (a : Ev) : SameEv a a := ⟨rfl, rfl⟩
theorem SameEv.trans {a b c : Ev} (h : SameEv a b) (k : SameEv b c) : SameEv a c := ⟨k.1.trans h.1, k.2.trans h.2⟩

/-- Every event of l stands in m. -/
def EvsIn (l m : List Ev) : Prop := ∀ a ∈ l, ∃ b ∈ m, SameEv a b

theorem EvsIn.refl (l : List Ev) : EvsIn l l := fun a h => ⟨a, h, .refl a⟩
theorem EvsIn.trans {l m k : List Ev} (h : EvsIn l m) (j : EvsIn m k) : EvsIn l k := fun a ha => by
  obtain ⟨b, hb, ab⟩ := h a ha
  obtain ⟨c, hc, bc⟩ := j b hb
  exact ⟨c, hc, ab.trans bc⟩
theorem EvsIn.of_eq {l m : List Ev} (h : l = m) : EvsIn l m := h ▸ .refl l
theorem EvsIn.of_subset {l m : List Ev} (h : ∀ a ∈ l, a ∈ m) : EvsIn l m := fun a ha => ⟨a, h a ha, .refl a⟩

/-- A mark leaves the event. -/
def Marks (f : Ev → Ev) : Prop := ∀ e, SameEv e (f e)

theorem Marks.in_map {f : Ev → Ev} (h : Marks f) (l : List Ev) : EvsIn l (l.map f) := fun a ha => ⟨f a, List.mem_map_of_mem ha, h a⟩

theorem Marks.of_map {f : Ev → Ev} (h : Marks f) (l : List Ev) : ∀ b ∈ l.map f, ∃ a ∈ l, SameEv a b := fun b hb => by
  obtain ⟨a, ha, rfl⟩ := List.mem_map.mp hb
  exact ⟨a, ha, h a⟩

/-! ### The lists of a pod and of the calendar -/

/-- The lists of events that only grow from s to t: those of staging; and those that only shrink: the wheel, the overflow area, and of each pod the fast
lane and the commit path. -/
structure ListsFrom (s t : State) : Prop where
  staged : ∀ p : Pod, EvsIn (s.pod[p].staging ++ s.pod[p].spill) (t.pod[p].staging ++ t.pod[p].spill)
  urgent : ∀ p : Pod, ∀ b ∈ t.pod[p].fast ++ t.pod[p].commits, ∃ a ∈ s.pod[p].fast ++ s.pod[p].commits, SameEv a b
  wheel : ∀ b ∈ t.cal.wheel, ∃ a ∈ s.cal.wheel, SameEv a b
  ovfl : ∀ b ∈ t.cal.ovfl, ∃ a ∈ s.cal.ovfl, SameEv a b

theorem ListsFrom.refl (s : State) : ListsFrom s s :=
  ⟨fun _ => .refl _, fun _ b h => ⟨b, h, .refl b⟩, fun b h => ⟨b, h, .refl b⟩, fun b h => ⟨b, h, .refl b⟩⟩

theorem ListsFrom.trans {s t u : State} (h : ListsFrom s t) (k : ListsFrom t u) : ListsFrom s u := by
  refine ⟨fun p => (h.staged p).trans (k.staged p), fun p c hc => ?_, fun c hc => ?_, fun c hc => ?_⟩
  · obtain ⟨b, hb, bc⟩ := k.urgent p c hc
    obtain ⟨a, ha, ab⟩ := h.urgent p b hb
    exact ⟨a, ha, ab.trans bc⟩
  · obtain ⟨b, hb, bc⟩ := k.wheel c hc
    obtain ⟨a, ha, ab⟩ := h.wheel b hb
    exact ⟨a, ha, ab.trans bc⟩
  · obtain ⟨b, hb, bc⟩ := k.ovfl c hc
    obtain ⟨a, ha, ab⟩ := h.ovfl b hb
    exact ⟨a, ha, ab.trans bc⟩

/-- The waiting events of a pod, and when its sequencer last armed, are as before. -/
def SameLanes (a b : PodSt) : Prop :=
  b.staging = a.staging ∧ b.spill = a.spill ∧ b.fast = a.fast ∧ b.commits = a.commits ∧ b.armedAt = a.armedAt

theorem SameLanes.refl (a : PodSt) : SameLanes a a := ⟨rfl, rfl, rfl, rfl, rfl⟩
theorem SameLanes.trans {a b c : PodSt} (h : SameLanes a b) (k : SameLanes b c) : SameLanes a c :=
  ⟨k.1.trans h.1, k.2.1.trans h.2.1, k.2.2.1.trans h.2.2.1, k.2.2.2.1.trans h.2.2.2.1, k.2.2.2.2.trans h.2.2.2.2⟩

/-- The waiting events of every pod are as before. -/
def LanesKept (s t : State) : Prop := ∀ p : Pod, SameLanes s.pod[p] t.pod[p]

theorem LanesKept.refl (s : State) : LanesKept s s := fun _ => .refl _
theorem LanesKept.trans {s t u : State} (h : LanesKept s t) (k : LanesKept t u) : LanesKept s u := fun p => (h p).trans (k p)
theorem LanesKept.of_keeps {l : List Part} {s t : State} (h : Keeps l s t) (hl : Part.pod ∉ l) : LanesKept s t := fun p => by
  rw [show t.pod = s.pod from h.2 .pod hl]
  exact .refl _

theorem LanesKept.modPod {p : Pod} {f : PodSt → PodSt} {s : State} (h : SameLanes s.pod[p] (f s.pod[p])) : LanesKept s (s.modPod p f) := fun q => by
  by_cases e : q = p
  · subst e
    rw [State.modPod_pod_same]
    exact h
  · rw [State.modPod_pod_other s p q f e]
    exact .refl _

theorem LanesKept.when {s t : State} {b : Bool} {f : State → State} (h : LanesKept s t) (k : ∀ r, LanesKept r (f r)) : LanesKept s (t.when b f) := by
  cases b
  · exact h
  · exact h.trans (k t)

theorem LanesKept.lists {s t : State} (h : LanesKept s t) (cal : t.cal = s.cal) : ListsFrom s t := by
  refine ⟨fun p => ?_, fun p b hb => ?_, fun b hb => ⟨b, by rwa [cal] at hb, .refl b⟩, fun b hb => ⟨b, by rwa [cal] at hb, .refl b⟩⟩
  · obtain ⟨staging, spill, -⟩ := h p
    rw [staging, spill]
    exact .refl _
  · obtain ⟨-, -, fast, commits, -⟩ := h p
    rw [fast, commits] at hb
    exact ⟨b, hb, .refl b⟩

theorem ListsFrom.of_keeps {l : List Part} {s t : State} (h : Keeps l s t) (pod : Part.pod ∉ l) (cal : Part.cal ∉ l) : ListsFrom s t :=
  (LanesKept.of_keeps h pod).lists (h.2 .cal cal)

/-! ### Marks on a pod and on its channels -/

/-- What a mark does to a pod. -/
def PodSt.mapEvs (f : Ev → Ev) (q : PodSt) : PodSt :=
  { q with
    staging := q.staging.map f, spill := q.spill.map f, fast := q.fast.map f, commits := q.commits.map f
    matched := q.matched.map (fun o => { o with ev := f o.ev }) }

/-- What a mark does to the events its units hold. -/
def Channel.mapEvs (f : Ev → Ev) (c : Channel) : Channel := { c with unit := c.unit.map (fun u => { u with ev := u.ev.map f }) }

theorem State.mapPodEvs_eq (p : Pod) (f : Ev → Ev) (s : State) :
    s.mapPodEvs p f = forAll (bankChs p) (fun n => State.modCh n (Channel.mapEvs f)) (s.modPod p (PodSt.mapEvs f)) := rfl

theorem State.mapPodEvs_pods (p : Pod) (f : Ev → Ev) (s : State) : (s.mapPodEvs p f).pod = (s.modPod p (PodSt.mapEvs f)).pod := by
  rw [State.mapPodEvs_eq]
  have keeps := Keeps.forAll (fun n => State.modCh n (Channel.mapEvs f)) (fun n u => State.modCh_keeps n _ u) (bankChs p) (Keeps.refl [.ch] (s.modPod p (PodSt.mapEvs f)))
  exact keeps.2 .pod (by decide)

theorem State.mapPodEvs_pod (p q : Pod) (f : Ev → Ev) (s : State) : (s.mapPodEvs p f).pod[q] = if q = p then s.pod[q].mapEvs f else s.pod[q] := by
  rw [State.mapPodEvs_pods]
  split
  · next h =>
    subst h
    exact State.modPod_pod_same ..
  · next h => exact State.modPod_pod_other s p q _ h

/-- A channel but for the marks of the events its units hold. -/
structure SameButMarks (c d : Channel) : Prop where
  only : d = { c with unit := d.unit }
  units : ∀ u : Unit4, d.unit[u] = { c.unit[u] with ev := d.unit[u].ev }

theorem SameButMarks.refl (c : Channel) : SameButMarks c c := ⟨rfl, fun _ => rfl⟩

theorem Channel.mapEvs_same (f : Ev → Ev) (c : Channel) : SameButMarks c (c.mapEvs f) := by
  refine ⟨rfl, fun u => ?_⟩
  have unit : (c.mapEvs f).unit[u] = { c.unit[u] with ev := c.unit[u].ev.map f } := Vector.getElem_map ..
  rw [unit]

theorem State.mapPodEvs_ch (p : Pod) (f : Ev → Ev) (s : State) (n : Ch) : SameButMarks s.ch[n] (s.mapPodEvs p f).ch[n] := by
  rw [State.mapPodEvs_eq, forAll_modCh_ch (bankChs_nodup p)]
  split
  · exact Channel.mapEvs_same f s.ch[n]
  · exact .refl _

theorem PodSt.mapEvs_staged {f : Ev → Ev} (h : Marks f) (q : PodSt) : EvsIn (q.staging ++ q.spill) ((q.mapEvs f).staging ++ (q.mapEvs f).spill) := by
  have joined : (q.mapEvs f).staging ++ (q.mapEvs f).spill = (q.staging ++ q.spill).map f := List.map_append.symm
  rw [joined]
  exact h.in_map _

theorem PodSt.mapEvs_urgent {f : Ev → Ev} (h : Marks f) (q : PodSt) : ∀ b ∈ (q.mapEvs f).fast ++ (q.mapEvs f).commits, ∃ a ∈ q.fast ++ q.commits, SameEv a b := by
  have joined : (q.mapEvs f).fast ++ (q.mapEvs f).commits = (q.fast ++ q.commits).map f := List.map_append.symm
  rw [joined]
  exact h.of_map _

/-- The mark an event makes on those of its pod, and of the wheel. -/
def markBy (c : Ev → Bool) (x : Ev) : Ev := if c x then { x with ambig := true } else x

theorem markBy_marks (c : Ev → Bool) : Marks (markBy c) := fun e => by
  unfold markBy
  split <;> exact ⟨rfl, rfl⟩

/-- The calendar once event e has marked those SEQ does not order with it. -/
def Calendar.markedBy (c : Ev → Bool) (x : Calendar) : Calendar := { x with wheel := x.wheel.map (markBy c), ovfl := x.ovfl.map (markBy c) }

/-- The state with another calendar. -/
def State.withCal (x : Calendar) (s : State) : State := { s with cal := x }

/-- The state once event e has marked those SEQ does not order with it. -/
def State.marked (e : Ev) (s : State) : State :=
  (s.mapPodEvs (podOf e.rec_.ch) (markBy (seqAmbig e))).withCal (s.cal.markedBy (fun x => seqAmbig e (x.refresh s)))

theorem State.markAmbig_eq (e : Ev) (s : State) :
    s.markAmbig e = if (openEvs (podOf e.rec_.ch) s).any (seqAmbig e) then (s.marked e, { e with ambig := true }) else (s, e) := rfl

theorem State.withCal_same (x : Calendar) (s : State) : (s.withCal x).pod = s.pod ∧ (s.withCal x).ch = s.ch ∧ (s.withCal x).cal = x := ⟨rfl, rfl, rfl⟩

theorem State.marked_pod (e : Ev) (s : State) (q : Pod) : (s.marked e).pod[q] = if q = podOf e.rec_.ch then s.pod[q].mapEvs (markBy (seqAmbig e)) else s.pod[q] := by
  unfold State.marked
  rw [(State.withCal_same ..).1, State.mapPodEvs_pod]

theorem State.marked_cal (e : Ev) (s : State) : (s.marked e).cal = s.cal.markedBy (fun x => seqAmbig e (x.refresh s)) := (State.withCal_same ..).2.2

theorem State.marked_ch (e : Ev) (s : State) (n : Ch) : SameButMarks s.ch[n] (s.marked e).ch[n] := by
  unfold State.marked
  rw [(State.withCal_same ..).2.1]
  exact State.mapPodEvs_ch ..

theorem State.markAmbig_ch (e : Ev) (s : State) (n : Ch) : SameButMarks s.ch[n] (s.markAmbig e).1.ch[n] := by
  rw [State.markAmbig_eq]
  split
  · exact State.marked_ch e s n
  · exact .refl _

theorem State.marked_lists (e : Ev) (s : State) : ListsFrom s (s.marked e) := by
  refine ⟨fun q => ?_, fun q => ?_, ?_, ?_⟩
  · rw [State.marked_pod]
    split
    · exact PodSt.mapEvs_staged (markBy_marks _) _
    · exact .refl _
  · rw [State.marked_pod]
    split
    · exact PodSt.mapEvs_urgent (markBy_marks _) _
    · exact fun b hb => ⟨b, hb, .refl b⟩
  · rw [State.marked_cal]
    exact (markBy_marks _).of_map _
  · rw [State.marked_cal]
    exact (markBy_marks _).of_map _

theorem State.markAmbig_lists (e : Ev) (s : State) : ListsFrom s (s.markAmbig e).1 := by
  rw [State.markAmbig_eq]
  split
  · exact State.marked_lists e s
  · exact .refl s

/-! ### Staging -/

/-- What an event that comes to staging does to its pod. -/
def PodSt.stage (t : Nat) (e : Ev) (q : PodSt) : PodSt :=
  if q.staging.length < 1024 then { q with staging := q.staging ++ [e] }.noteLevel t else { q with spill := q.spill ++ [e] }

theorem State.stageEv_eq (e : Ev) (s : State) : s.stageEv e = s.modPod (podOf e.rec_.ch) (PodSt.stage s.tick e) := rfl

theorem PodSt.mem_stage (t : Nat) (e : Ev) (q : PodSt) : e ∈ (q.stage t e).staging ++ (q.stage t e).spill := by
  unfold PodSt.stage
  split
  · exact List.mem_append_left _ (List.mem_append_right _ (List.mem_singleton_self e))
  · exact List.mem_append_right _ (List.mem_append_right _ (List.mem_singleton_self e))

theorem PodSt.stage_keeps (t : Nat) (e : Ev) (q : PodSt) : (∀ a ∈ q.staging ++ q.spill, a ∈ (q.stage t e).staging ++ (q.stage t e).spill) ∧
    (q.stage t e).fast = q.fast ∧ (q.stage t e).commits = q.commits ∧ (q.stage t e).armedAt = q.armedAt := by
  unfold PodSt.stage
  split
  · refine ⟨fun a ha => ?_, rfl, rfl, rfl⟩
    obtain h | h := List.mem_append.mp ha
    · exact List.mem_append_left _ (List.mem_append_left _ h)
    · exact List.mem_append_right _ h
  · refine ⟨fun a ha => ?_, rfl, rfl, rfl⟩
    obtain h | h := List.mem_append.mp ha
    · exact List.mem_append_left _ h
    · exact List.mem_append_right _ (List.mem_append_left _ h)

theorem State.mem_stageEv (e : Ev) (s : State) : e ∈ (s.stageEv e).pod[podOf e.rec_.ch].staging ++ (s.stageEv e).pod[podOf e.rec_.ch].spill := by
  rw [State.stageEv_eq, State.modPod_pod_same]
  exact PodSt.mem_stage ..

theorem State.stageEv_lists (e : Ev) (s : State) : ListsFrom s (s.stageEv e) := by
  rw [State.stageEv_eq]
  obtain ⟨staged, fast, commits, -⟩ := PodSt.stage_keeps s.tick e s.pod[podOf e.rec_.ch]
  refine ⟨fun q => ?_, fun q b hb => ?_, fun b hb => ⟨b, hb, .refl b⟩, fun b hb => ⟨b, hb, .refl b⟩⟩
  · by_cases h : q = podOf e.rec_.ch
    · subst h
      rw [State.modPod_pod_same]
      exact .of_subset staged
    · rw [State.modPod_pod_other s _ q _ h]
      exact .refl _
  · by_cases h : q = podOf e.rec_.ch
    · subst h
      rw [State.modPod_pod_same, fast, commits] at hb
      exact ⟨b, hb, .refl b⟩
    · rw [State.modPod_pod_other s _ q _ h] at hb
      exact ⟨b, hb, .refl b⟩

end Sys2Proof.Machine
end

section
/-!
Staging at a bucket boundary (R166, R168): what leaves the wheel stands in its pod's staging.
-/
namespace Sys2Proof.Machine

/-- The events of the list l have gone from the wheel to staging, and of the others none is lost to it or comes to the wheel. -/
structure StagedOf (l : List Ev) (s t : State) : Prop where
  lists : ListsFrom s t
  off : ∀ b ∈ t.cal.wheel, ∀ x ∈ l, b.ord ≠ x.ord
  staged : ∀ x ∈ l, ∃ y ∈ t.pod[podOf x.rec_.ch].staging ++ t.pod[podOf x.rec_.ch].spill, SameEv x y

theorem StagedOf.nil (s : State) : StagedOf [] s s := ⟨.refl s, fun _ _ _ h => (nomatch h), fun _ h => (nomatch h)⟩

theorem StagedOf.cons {x : Ev} {l : List Ev} {s t u : State} (h : StagedOf [x] s t) (k : StagedOf l t u) : StagedOf (x :: l) s u := by
  refine ⟨h.lists.trans k.lists, fun b hb y hy => ?_, fun y hy => ?_⟩
  · obtain rfl | hy := List.mem_cons.mp hy
    · obtain ⟨a, ha, same⟩ := k.lists.wheel b hb
      rw [same.1]
      exact h.off a ha y List.mem_cons_self
    · exact k.off b hb y hy
  · obtain rfl | hy := List.mem_cons.mp hy
    · obtain ⟨z, hz, yz⟩ := h.staged y List.mem_cons_self
      obtain ⟨w, hw, zw⟩ := k.lists.staged _ z hz
      exact ⟨w, hw, yz.trans zw⟩
    · exact k.staged y hy

theorem StagedOf.then_lists {l : List Ev} {s t u : State} (h : StagedOf l s t) (k : ListsFrom t u) : StagedOf l s u := by
  refine ⟨h.lists.trans k, fun b hb x hx => ?_, fun x hx => ?_⟩
  · obtain ⟨a, ha, same⟩ := k.wheel b hb
    rw [same.1]
    exact h.off a ha x hx
  · obtain ⟨y, hy, xy⟩ := h.staged x hx
    obtain ⟨z, hz, yz⟩ := k.staged _ y hy
    exact ⟨z, hz, xy.trans yz⟩

/-! ### One record -/

theorem Ev.refresh_same (s : State) (e : Ev) : SameEv e (e.refresh s) := ⟨rfl, rfl⟩

theorem Ev.moveTo_same (a : Nat) (e : Ev) : SameEv e (e.moveTo a) := ⟨rfl, rfl⟩

theorem holdEv_same (a : Nat) (e : Ev) (s : State) : SameEv e (holdEv a e s) := by
  unfold holdEv
  extract_lets l prev held a1 a2
  split
  · exact ⟨rfl, rfl⟩
  · exact .refl e

theorem stagedEv_same (e : Ev) (s : State) : SameEv e (stagedEv e s) := (Ev.refresh_same s e).trans (holdEv_same ..)

theorem State.markAmbig_same (e : Ev) (s : State) : SameEv e (s.markAmbig e).2 := by
  obtain ⟨b, marked⟩ := State.markAmbig_ev e s
  rw [marked]
  exact ⟨rfl, rfl⟩

theorem State.offWheel_lists (o : Nat) (s : State) : ListsFrom s (s.offWheel o) :=
  ⟨fun _ => .refl _, fun _ b hb => ⟨b, hb, .refl b⟩, fun b hb => ⟨b, (List.mem_filter.mp hb).1, .refl b⟩, fun b hb => ⟨b, hb, .refl b⟩⟩

theorem State.freeSlots_lists (k : Nat) (s : State) : ListsFrom s (s.freeSlots k) :=
  ⟨fun _ => .refl _, fun _ b hb => ⟨b, hb, .refl b⟩, fun b hb => ⟨b, hb, .refl b⟩, fun b hb => ⟨b, hb, .refl b⟩⟩

theorem State.offWheel_off (o : Nat) (s : State) : ∀ b ∈ (s.offWheel o).cal.wheel, b.ord ≠ o := fun _ hb => bne_iff_ne.mp (List.mem_filter.mp hb).2

theorem State.mem_stageEv_of {e : Ev} {p : Pod} (mine : podOf e.rec_.ch = p) (s : State) : e ∈ (s.stageEv e).pod[p].staging ++ (s.stageEv e).pod[p].spill := by
  subst mine
  exact State.mem_stageEv e s

theorem State.stageRec_stagedOf (e : Ev) (s : State) : StagedOf [e] s (s.stageRec e) := by
  rw [State.stageRec_eq]
  have noted : ListsFrom (s.offWheel e.ord) ((s.offWheel e.ord).noteHeld (stagedEv e s) e.advHeld) := .of_keeps (State.noteHeld_keeps ..) (by decide) (by decide)
  have marked := State.markAmbig_lists (stagedEv e s) ((s.offWheel e.ord).noteHeld (stagedEv e s) e.advHeld)
  have same : SameEv e (((s.offWheel e.ord).noteHeld (stagedEv e s) e.advHeld).markAmbig (stagedEv e s)).2 := (stagedEv_same e s).trans (State.markAmbig_same ..)
  generalize State.markAmbig _ _ = m at marked same ⊢
  dsimp only
  have later : ListsFrom (s.offWheel e.ord) ((m.1.freeSlots 1).stageEv m.2) := ((noted.trans marked).trans (State.freeSlots_lists 1 m.1)).trans (State.stageEv_lists ..)
  refine ⟨(State.offWheel_lists e.ord s).trans later, fun b hb x hx => ?_, fun x hx => ?_⟩
  · obtain rfl := List.mem_singleton.mp hx
    obtain ⟨a, ha, ab⟩ := later.wheel b hb
    rw [ab.1]
    exact State.offWheel_off _ s a ha
  · obtain rfl := List.mem_singleton.mp hx
    have pod : podOf x.rec_.ch = podOf m.2.rec_.ch := by rw [same.2]
    exact ⟨m.2, State.mem_stageEv_of pod.symm (m.1.freeSlots 1), same⟩

/-! ### Every record that is due -/

theorem forAll_cons {α : Type} (f : α → State → State) (a : α) (l : List α) (s : State) : forAll (a :: l) f s = forAll l f (f a s) := rfl

theorem stageRecs_stagedOf (l : List Ev) (s : State) : StagedOf l s (forAll l State.stageRec s) := by
  induction l generalizing s with
  | nil => exact .nil s
  | cons e l ih =>
    rw [forAll_cons]
    exact (State.stageRec_stagedOf e s).cons (ih (s.stageRec e))

/-- The counts of the drain bound leave the waiting events. -/
theorem State.drainCheck_lists (p : Pod) (b : Nat) (s : State) : ListsFrom s (s.drainCheck p b) := by
  have kept : LanesKept s (s.drainCheck p b) := by
    unfold State.drainCheck
    dsimp only
    refine LanesKept.when (.modPod ⟨rfl, rfl, rfl, rfl, rfl⟩) fun r => ?_
    exact .of_keeps (State.breach_keeps ..) (by decide)
  exact kept.lists ((State.drainCheck_keeps p b s).2 .cal (by decide))

/-- The records that are due, in ball-time order (R168). -/
def wheelDue (s : State) : List Ev :=
  sortBy (fun a b => decide (a.ball < b.ball)) (s.cal.wheel.filter (fun e => decide (bucketOf (e.refresh s).ball ≤ s.tick / 512 + s.cal.win - 1)))

theorem State.stageDue_stagedOf (s : State) : StagedOf (wheelDue s) s s.stageDue := by
  have counted : ListsFrom (forAll (wheelDue s) State.stageRec s) s.stageDue :=
    forAll_induction (P := ListsFrom (forAll (wheelDue s) State.stageRec s)) (fun p _ r h => h.trans (State.drainCheck_lists ..)) (.refl _)
  exact (stageRecs_stagedOf (wheelDue s) s).then_lists counted

/-- An event's ball time as of now is that of its record. -/
theorem SameEv.refresh_ball {a b : Ev} (h : SameEv a b) (s : State) : (b.refresh s).ball = (a.refresh s).ball :=
   congrArg (fun r : Rec => r.due - s.ch[r.ch].adv.for_ r.due) h.2

theorem State.stageDue_wheel {s : State} : ∀ e ∈ s.stageDue.cal.wheel, s.tick / 512 + s.cal.win - 1 < bucketOf (e.refresh s).ball := fun e he => by
  obtain ⟨lists, off, -⟩ := State.stageDue_stagedOf s
  obtain ⟨a, ha, same⟩ := lists.wheel e he
  rw [same.refresh_ball s]
  by_contra due
  have mem : a ∈ wheelDue s := (mem_sortBy ..).mpr (List.mem_filter.mpr ⟨ha, decide_eq_true (Nat.not_lt.mp due)⟩)
  exact off e he a mem same.1

/-! ### The boundary -/

/-- Overflow records of bucket c + 65 535 have come to the wheel (R166). -/
def Calendar.wheelFills (c : Nat) (near : Ev → Bool) (x : Calendar) : Calendar :=
  { x with bucket := c, wheel := x.wheel ++ x.ovfl.filter near, ovfl := x.ovfl.filter (fun e => !near e) }

/-- The overflow records that come to the wheel. -/
def ovflNear (s : State) (e : Ev) : Bool := decide (bucketOf (e.refresh s).ball ≤ s.tick / 512 + 65535)

theorem State.bucketBoundary_of_new {s : State} (run : s.pwr.mode = 0) (new : s.cal.bucket < s.tick / 512) :
    s.bucketBoundary = (s.withCal (s.cal.wheelFills (s.tick / 512) (ovflNear s))).stageDue := by
  unfold State.bucketBoundary
  refine if_neg ?_
  rw [run, Bool.or_eq_true_iff, decide_eq_true_iff]
  rintro (h | h)
  · exact nomatch h
  · omega

theorem State.bucketBoundary_of_old {s : State} (old : s.pwr.mode ≠ 0 ∨ s.tick / 512 ≤ s.cal.bucket) : s.bucketBoundary = s := by
  unfold State.bucketBoundary
  refine if_pos ?_
  rw [Bool.or_eq_true_iff, bne_iff_ne, decide_eq_true_iff]
  exact old

/-- What a new bucket boundary leaves of the calendar's lists. -/
structure BucketStaged (s t : State) : Prop where
  bucket : t.cal.bucket = s.tick / 512
  wheel : ∀ e ∈ t.cal.wheel, s.tick / 512 + s.cal.win - 1 < bucketOf (e.refresh s).ball
  ovfl : ∀ e ∈ t.cal.ovfl, s.tick / 512 + 65535 < bucketOf (e.refresh s).ball
  staged : ∀ e ∈ s.cal.wheel, bucketOf (e.refresh s).ball ≤ s.tick / 512 + s.cal.win - 1 →
    ∃ x ∈ t.pod[podOf e.rec_.ch].staging ++ t.pod[podOf e.rec_.ch].spill, x.ord = e.ord ∧ x.rec_ = e.rec_

theorem State.bucketBoundary_staged {s : State} (run : s.pwr.mode = 0) (new : s.cal.bucket < s.tick / 512) : BucketStaged s s.bucketBoundary := by
  rw [State.bucketBoundary_of_new run new]
  obtain ⟨lists, -, staged⟩ := State.stageDue_stagedOf (s.withCal (s.cal.wheelFills (s.tick / 512) (ovflNear s)))
  refine ⟨(State.stageDue_stagedFrom _).bucket, State.stageDue_wheel, fun e he => ?_, fun e he due => ?_⟩
  · obtain ⟨a, ha, same⟩ := lists.ovfl e he
    have far : ovflNear s a = false := (Bool.not_eq_true' _).mp (List.mem_filter.mp ha).2
    rw [same.refresh_ball s]
    exact Nat.not_le.mp (of_decide_eq_false far)
  · refine staged e ((mem_sortBy ..).mpr (List.mem_filter.mpr ⟨List.mem_append_left _ he, decide_eq_true due⟩))

end Sys2Proof.Machine
end

section
/-!
An event is armed into a unit (R56, R65, R156, R169).
-/
namespace Sys2Proof.Machine

/-! ### What a match, a commit and an abandoned measurement leave of the waiting events -/

theorem State.outcome_lanes (p : Pod) (o : Outcome) (s : State) : LanesKept s (s.outcome p o) := .modPod ⟨rfl, rfl, rfl, rfl, rfl⟩

theorem State.pass_lanes (p : Pod) (e : Ev) (s : State) : LanesKept s (s.modPod p (PodSt.pass e)) := .modPod ⟨rfl, rfl, rfl, rfl, rfl⟩

theorem State.modCh_lanes (n : Ch) (f : Channel → Channel) (s : State) : LanesKept s (s.modCh n f) := .of_keeps (State.modCh_keeps n f s) (by decide)

theorem State.fire_lanes (t : Nat) (u : Unit4) (set : CmpSet) (late : Bool) (n : Ch) (s : State) : LanesKept s (s.fire t u set late n) := by
  have acts (b : Bool) (r : State) : LanesKept r (r.when b (State.act t (actFrac set.act) (actCode set.act) set.param n)) :=
    LanesKept.when (.refl r) fun _ => .of_keeps (State.act_keeps ..) (by decide)
  unfold State.fire
  dsimp only
  split
  · split
    · exact State.modCh_lanes n _ s
    · exact (State.modCh_lanes n _ s).trans (State.outcome_lanes (podOf n) _ _)
  · split
    · exact (State.modCh_lanes n _ s).trans (acts _ _)
    · exact (((State.modCh_lanes n _ s).trans (acts _ _)).trans (State.pass_lanes (podOf n) _ _)).trans (State.outcome_lanes (podOf n) _ _)

theorem State.commitUnit_lanes (u : Unit4) (set : CmpSet) (owner : Bool) (ev : Option Ev) (n : Ch) (s : State) : LanesKept s (s.commitUnit u set owner ev n) := by
  unfold State.commitUnit
  extract_lets s1 tw c stepped j s2 s3 s4 c'
  have counted : LanesKept s s3 :=
    LanesKept.when ((LanesKept.of_keeps (State.countNow_keeps n s) (by decide)).trans (.of_keeps (State.used_keeps s1) (by decide))) fun r => .of_keeps (State.chCfgErr_keeps n r) (by decide)
  refine counted.trans ?_
  cases j with
  | shadow => exact State.modCh_lanes n _ s3
  | shadowNow => exact (State.modCh_lanes n _ s3).trans (State.modCh_lanes n _ s4)
  | ahead => exact State.modCh_lanes n _ s3
  | passed => exact (State.modCh_lanes n _ s3).trans (State.fire_lanes (tw + 1) u set true n _)

theorem State.resPut_lanes (p : Pod) (r : ResRec) (s : State) : LanesKept s (s.resPut p r) := by
  unfold State.resPut
  exact (LanesKept.of_keeps (State.ringWrite_keeps ..) (by decide)).trans (.modPod ⟨rfl, rfl, rfl, rfl, rfl⟩)

theorem State.resWrite_lanes (p : Pod) (reserved : Bool) (r : ResRec) (s : State) : LanesKept s (s.resWrite p reserved r) := by
  unfold State.resWrite
  extract_lets q s1
  have reserves : LanesKept s s1 := .modPod ⟨rfl, rfl, rfl, rfl, rfl⟩
  refine reserves.trans ?_
  split
  · exact State.resPut_lanes p r s1
  · split
    · exact .modPod ⟨rfl, rfl, rfl, rfl, rfl⟩
    · exact .modPod ⟨rfl, rfl, rfl, rfl, rfl⟩

theorem State.measEnd_lanes (status detail : Nat) (reply : List Byte) (value : W) (kept : Option Nat) (s : State) : LanesKept s (s.measEnd status detail reply value kept) := by
  unfold State.measEnd
  split
  · exact .refl s
  · extract_lets ran r s1 sur s2 s3 s4
    have freed : LanesKept s s2 := fun _ => .refl _
    have written : LanesKept s2 s3 := State.resWrite_lanes _ false r s2
    have told : LanesKept s3 s4 := .of_keeps (State.notice_keeps 3 _ s3) (by decide)
    exact (((freed.trans written).trans told).trans (.of_keeps (State.measKeep_keeps ..) (by decide))).trans (.of_keeps (State.measAnswer_keeps ..) (by decide))

theorem State.measAbandon_lanes (n : Ch) (s : State) : LanesKept s (s.measAbandon n) := by
  unfold State.measAbandon
  split
  · split
    · exact State.measEnd_lanes _ _ _ _ _ s
    · exact fun _ => .refl _
  · exact .refl s

/-! ### The committed set of a unit -/

/-- The committed set of unit u of channel n is as before. -/
def SameCur (n : Ch) (u : Unit4) (s t : State) : Prop := t.ch[n].unit[u].cur = s.ch[n].unit[u].cur

theorem SameCur.trans {n : Ch} {u : Unit4} {s t r : State} (h : SameCur n u s t) (k : SameCur n u t r) : SameCur n u s r := Eq.trans k h

theorem State.modCh_sameCur {n : Ch} {u : Unit4} {f : Channel → Channel} {s : State} (h : (f s.ch[n]).unit[u].cur = s.ch[n].unit[u].cur) : SameCur n u s (s.modCh n f) := by
  unfold SameCur
  rw [State.modCh_ch_same, h]

/-- A match leaves the committed set of its unit. -/
theorem State.fire_sameCur (t : Nat) (u : Unit4) (set : CmpSet) (late : Bool) (n : Ch) (s : State) : SameCur n u s (s.fire t u set late n) := by
  have outcome (p : Pod) (o : Outcome) (r : State) : SameCur n u r (r.outcome p o) := rfl
  have pass (p : Pod) (e : Ev) (r : State) : SameCur n u r (r.modPod p (PodSt.pass e)) := rfl
  have matched (x : Nat) : SameCur n u s (s.modCh n (fun c => (c.trainBefore x).matched t u set late)) := by
    have before := (Channel.trainTo_same x (max 1 s.ch[n].out.train.left) s.ch[n]).unit
    refine State.modCh_sameCur ?_
    rw [Channel.matched_eq]
    unfold Channel.trainBefore
    dsimp only
    rw [before]
    simp [CmpUnit.matched]
  have acts (b : Bool) (r : State) : SameCur n u r (r.when b (State.act t (actFrac set.act) (actCode set.act) set.param n)) := by
    cases b
    · rfl
    · exact congrArg (fun v : Vector CmpUnit 4 => v[u].cur) (State.act_same ..).2.unit
  unfold State.fire
  dsimp only
  split
  · split
    · exact State.modCh_sameCur (by simp)
    · exact SameCur.trans (State.modCh_sameCur (by simp)) (outcome _ _ _)
  · split
    · exact (matched _).trans (acts _ _)
    · exact (((matched _).trans (acts _ _)).trans (pass _ _ _)).trans (outcome _ _ _)

theorem State.commitUnit_cur {u : Unit4} {set : CmpSet} {n : Ch} (lt : actLt set.act = true) (owner : Bool) (ev : Option Ev) (s : State) :
    (s.commitUnit u set owner ev n).ch[n].unit[u].cur = set := by
  by_cases ahead : LtAhead s.tw set.val
  · rw [State.commitUnit_ahead lt owner ev ahead, State.modCh_ch_same, Channel.modUnit_unit_same]
    rfl
  · obtain ⟨r, run, -, cur, -⟩ := State.commitUnit_passed (n := n) (u := u) lt owner ev ahead
    rw [run]
    exact Eq.trans (State.fire_sameCur ..) cur

/-! ### An event's set -/

/-- The set of an event is of LT base (R65). -/
theorem Ev.set_lt (e : Ev) : actLt e.set.act = true := by
  have base : (flag 9 true : W).getLsbD 9 = true := by decide
  unfold actLt bit Ev.set
  rw [BitVec.getLsbD_or, BitVec.getLsbD_or, base, Bool.or_true, Bool.true_or]

/-- The action tick of an event lies ahead of T_w, within the range of a compare (R56). -/
theorem Ev.set_ahead {e : Ev} {t : Nat} (after : t < e.actionTick) (near : e.actionTick < t + 2 ^ 47) : LtAhead t e.set.val := by
  have val : e.set.val = BitVec.ofNat 48 e.actionTick := rfl
  unfold LtAhead lt48
  rw [val]
  generalize e.actionTick = a at *
  obtain ⟨d, rfl⟩ : ∃ d, a = t + d := ⟨a - t, by omega⟩
  have diff : (BitVec.ofNat 48 (t + d) - BitVec.ofNat 48 t).toNat = d := by
    rw [BitVec.toNat_sub, BitVec.toNat_ofNat, BitVec.toNat_ofNat]
    omega
  rw [diff]
  omega

/-! ### The arm -/

/-- The waiting events of a pod stay, whatever else of it changes. -/
theorem ListsFrom.modPod {p : Pod} {f : PodSt → PodSt} {s : State} (staging : (f s.pod[p]).staging = s.pod[p].staging) (spill : (f s.pod[p]).spill = s.pod[p].spill)
    (urgent : ∀ b ∈ (f s.pod[p]).fast ++ (f s.pod[p]).commits, b ∈ s.pod[p].fast ++ s.pod[p].commits) : ListsFrom s (s.modPod p f) := by
  refine ⟨fun q => ?_, fun q b hb => ?_, fun b hb => ⟨b, hb, .refl b⟩, fun b hb => ⟨b, hb, .refl b⟩⟩
  · by_cases h : q = p
    · subst h
      rw [State.modPod_pod_same, staging, spill]
      exact .refl _
    · rw [State.modPod_pod_other s p q f h]
      exact .refl _
  · by_cases h : q = p
    · subst h
      rw [State.modPod_pod_same] at hb
      exact ⟨b, urgent b hb, .refl b⟩
    · rw [State.modPod_pod_other s p q f h] at hb
      exact ⟨b, hb, .refl b⟩

/-- A sequencer that arms at the boundary t. -/
def PodSt.armsAt (t : Nat) (q : PodSt) : PodSt := { q with armedAt := t }

/-- An arm that comes late is counted. -/
def State.noteLate (p : Pod) (late : Bool) (s : State) : State := s.when late (State.modPod p (fun q => { q with armLate := q.armLate.bump s.tick 1 65535 }))

/-- The state in which the set of event e is committed. -/
def State.armReady (e : Ev) (s : State) : State :=
  ((s.measAbandon e.rec_.ch).modPod (podOf e.rec_.ch) (PodSt.armsAt s.tw)).noteLate (podOf e.rec_.ch) (decide (e.actionTick ≤ (s.measAbandon e.rec_.ch).tw))

theorem State.arm_eq (u : Unit4) (e : Ev) (s : State) : s.arm u e = (s.armReady e).commitUnit u e.set true (some { e with committed := true }) e.rec_.ch := rfl

theorem State.noteLate_lanes (p : Pod) (late : Bool) (s : State) : LanesKept s (s.noteLate p late) := LanesKept.when (.refl s) fun _ => .modPod ⟨rfl, rfl, rfl, rfl, rfl⟩

theorem State.noteLate_keeps (p : Pod) (late : Bool) (s : State) : Keeps [.pod] s (s.noteLate p late) := Keeps.when (.refl _ s) late _ fun u => State.modPod_keeps p _ u

/-- What arming event e into unit u leaves. -/
structure Armed (u : Unit4) (e : Ev) (s t : State) : Prop where
  lists : ListsFrom s t
  staged : ∀ q : Pod, t.pod[q].staging = s.pod[q].staging ∧ t.pod[q].spill = s.pod[q].spill
  armedAt : t.pod[podOf e.rec_.ch].armedAt = s.tick + 1
  cur : t.ch[e.rec_.ch].unit[u].cur = e.set
  ahead : LtAhead (s.tick + 1) e.set.val → t.ch[e.rec_.ch].unit[u].active = e.set ∧ t.ch[e.rec_.ch].unit[u].live = true ∧ t.ch[e.rec_.ch].unit[u].owner = true ∧
    t.ch[e.rec_.ch].unit[u].ev = some { e with committed := true }

theorem State.arm_armed (u : Unit4) (e : Ev) (s : State) : Armed u e s (s.arm u e) := by
  have abandons := State.measAbandon_keeps e.rec_.ch s
  have listsA : ListsFrom s (s.measAbandon e.rec_.ch) := (State.measAbandon_lanes e.rec_.ch s).lists (abandons.2 .cal (by decide))
  have listsB : ListsFrom (s.measAbandon e.rec_.ch) ((s.measAbandon e.rec_.ch).modPod (podOf e.rec_.ch) (PodSt.armsAt s.tw)) := ListsFrom.modPod rfl rfl fun _ h => h
  have atB : ((s.measAbandon e.rec_.ch).modPod (podOf e.rec_.ch) (PodSt.armsAt s.tw)).pod[podOf e.rec_.ch].armedAt = s.tick + 1 := by
    rw [State.modPod_pod_same]
    rfl
  have stagedB (q : Pod) : ((s.measAbandon e.rec_.ch).modPod (podOf e.rec_.ch) (PodSt.armsAt s.tw)).pod[q].staging = s.pod[q].staging ∧
      ((s.measAbandon e.rec_.ch).modPod (podOf e.rec_.ch) (PodSt.armsAt s.tw)).pod[q].spill = s.pod[q].spill := by
    obtain ⟨staging, spill, -⟩ := State.measAbandon_lanes e.rec_.ch s q
    by_cases h : q = podOf e.rec_.ch
    · subst h
      rw [State.modPod_pod_same]
      exact ⟨staging, spill⟩
    · rw [State.modPod_pod_other _ _ _ _ h]
      exact ⟨staging, spill⟩
  have keepsB := abandons.step (State.modPod_keeps (podOf e.rec_.ch) (PodSt.armsAt s.tw) (s.measAbandon e.rec_.ch)) (by decide)
  have eq : s.armReady e = ((s.measAbandon e.rec_.ch).modPod (podOf e.rec_.ch) (PodSt.armsAt s.tw)).noteLate (podOf e.rec_.ch) (decide (e.actionTick ≤ (s.measAbandon e.rec_.ch).tw)) := rfl
  generalize (s.measAbandon e.rec_.ch).modPod (podOf e.rec_.ch) (PodSt.armsAt s.tw) = b at *
  generalize decide (e.actionTick ≤ (s.measAbandon e.rec_.ch).tw) = late at *
  have keepsC := State.noteLate_keeps (podOf e.rec_.ch) late b
  have lanesC := State.noteLate_lanes (podOf e.rec_.ch) late b
  have tick : (b.noteLate (podOf e.rec_.ch) late).tick = s.tick := (keepsC.tick (by decide)).trans (keepsB.tick (by decide))
  rw [State.arm_eq, eq]
  generalize b.noteLate (podOf e.rec_.ch) late = c at *
  have commits := State.commitUnit_keeps u e.set true (some { e with committed := true }) e.rec_.ch c
  have lanes := State.commitUnit_lanes u e.set true (some { e with committed := true }) e.rec_.ch c
  refine ⟨?_, fun q => ?_, ?_, State.commitUnit_cur e.set_lt .., fun ahead => ?_⟩
  · exact ((listsA.trans listsB).trans (lanesC.lists (keepsC.2 .cal (by decide)))).trans (lanes.lists (commits.2 .cal (by decide)))
  · obtain ⟨stagingD, spillD, -⟩ := lanes q
    obtain ⟨stagingC, spillC, -⟩ := lanesC q
    obtain ⟨stagingB, spillB⟩ := stagedB q
    exact ⟨stagingD.trans (stagingC.trans stagingB), spillD.trans (spillC.trans spillB)⟩
  · obtain ⟨-, -, -, -, sameD⟩ := lanes (podOf e.rec_.ch)
    obtain ⟨-, -, -, -, sameC⟩ := lanesC (podOf e.rec_.ch)
    exact sameD.trans (sameC.trans atB)
  · have tw : c.tw = s.tick + 1 := congrArg (· + 1) tick
    rw [State.commitUnit_ahead e.set_lt true _ (by rw [tw]; exact ahead), State.modCh_ch_same, Channel.modUnit_unit_same]
    exact ⟨rfl, rfl, rfl, rfl⟩

end Sys2Proof.Machine
end

section
/-!
The sequencer arms one event in a tick: of the fast lane and the commit path, or of staging (R169, R171, R189, R279).
-/
namespace Sys2Proof.Machine

theorem Dispatched.lanes {p : Pod} {s u : State} (h : Dispatched p s u) : LanesKept s u := fun q => by
  obtain ⟨-, only, pod⟩ := h
  by_cases here : q = p
  · subst here
    rw [pod]
    exact .refl _
  · rw [only q here]
    exact .refl _

/-! ### What decides whether a channel takes an arm -/

/-- Channel n takes an arm in t as in s. -/
structure ArmAlike (n : Ch) (s t : State) : Prop where
  aborted : t.ch[n].aborted = s.ch[n].aborted
  free : ∀ u : Unit4, t.ch[n].unit[u].free = s.ch[n].unit[u].free

theorem ArmAlike.refl (n : Ch) (s : State) : ArmAlike n s s := ⟨rfl, fun _ => rfl⟩

theorem ArmAlike.trans {n : Ch} {s t u : State} (h : ArmAlike n s t) (k : ArmAlike n t u) : ArmAlike n s u :=
  ⟨k.aborted.trans h.aborted, fun x => (k.free x).trans (h.free x)⟩

theorem ArmAlike.of_ch {n : Ch} {s t : State} (h : t.ch = s.ch) : ArmAlike n s t := by
  refine ⟨?_, fun u => ?_⟩
  · rw [h]
  · rw [h]

theorem ArmAlike.of_marks {n : Ch} {s t : State} (h : SameButMarks s.ch[n] t.ch[n]) : ArmAlike n s t := by
  refine ⟨?_, fun u => ?_⟩
  · rw [h.only]
  · rw [h.units u]
    rfl

theorem ArmAlike.freeUnit {n : Ch} {s t : State} (h : ArmAlike n s t) : freeUnit n t = freeUnit n s := by
  unfold Machine.freeUnit
  exact congrArg (fun f : Unit4 → Bool => (List.finRange 4).find? f) (funext h.free)

theorem State.chStat_alike (n m : Ch) (w : W) (s : State) : ArmAlike n s (s.chStat m w) := by
  by_cases h : n = m
  · subst h
    have same : (s.chStat n w).ch[n] = { s.ch[n] with stat := s.ch[n].stat.raise s.tick w } := State.modCh_ch_same ..
    refine ⟨?_, fun u => ?_⟩
    · rw [same]
    · rw [same]
  · have other : (s.chStat m w).ch[n] = s.ch[n] := State.modCh_ch_other _ _ _ _ h
    refine ⟨?_, fun u => ?_⟩
    · rw [other]
    · rw [other]

theorem State.noteHeld_alike (n : Ch) (e : Ev) (was : Bool) (s : State) : ArmAlike n s (s.noteHeld e was) := by
  unfold State.noteHeld State.when
  split
  · exact State.chStat_alike ..
  · exact .refl n s

/-! ### An event of the fast lane or the commit path is armed, or waits in staging -/

theorem State.displace_lists (u : Unit4) (n : Ch) (s : State) : ListsFrom s (s.displace u n) := by
  unfold State.displace
  split
  · exact .refl s
  · next e _ =>
    dsimp only
    have disarmed : ListsFrom s (s.modCh n (Channel.modUnit u (CmpUnit.disarm s.tick))) := .of_keeps (State.modCh_keeps ..) (by decide) (by decide)
    exact (disarmed.trans (ListsFrom.modPod rfl rfl fun _ h => h)).trans (State.stageEv_lists ..)

theorem State.armUrgent_lists (e : Ev) (s : State) : ListsFrom s (s.armUrgent e) := by
  unfold State.armUrgent
  dsimp only
  split
  · exact State.stageEv_lists ..
  · split
    · exact (State.arm_armed ..).lists
    · split
      · split
        · exact (State.displace_lists ..).trans (State.arm_armed ..).lists
        · exact State.stageEv_lists ..
      · exact State.stageEv_lists ..

theorem State.armUrgent_aborted {e : Ev} {s : State} (aborted : s.ch[e.rec_.ch].aborted = true) : s.armUrgent e = s.stageEv e := by
  unfold State.armUrgent
  exact if_pos aborted

theorem State.armUrgent_free {e : Ev} {u : Unit4} {s : State} (aborted : s.ch[e.rec_.ch].aborted = false) (free : freeUnit e.rec_.ch s = some u) : s.armUrgent e = s.arm u e := by
  unfold State.armUrgent
  dsimp only
  rw [aborted, free]
  exact if_neg Bool.false_ne_true

/-! ### The first of the fast lane and the commit path -/

/-- The pod's urgent events without one. -/
def PodSt.offUrgent (o : Nat) (q : PodSt) : PodSt := { q with fast := q.fast.filter (fun x => x.ord != o), commits := q.commits.filter (fun x => x.ord != o) }

/-- Event e has left the fast lane, where `lane` says it was in it, and the commit path. -/
def State.fastOff (p : Pod) (e : Ev) (lane : Bool) (s : State) : State := (s.modPod p (PodSt.offUrgent e.ord)).when lane (State.freeSlots 1)

/-- The ball time an event of the fast lane gets as it is armed. -/
def laneEv (e : Ev) (lane : Bool) (r : State) : Ev := if lane then fastBall e r else e

/-- The event as it is armed, held behind an earlier one. -/
def fastEv (e : Ev) (lane : Bool) (r : State) : Ev := holdEv (laneEv e lane r).actionTick (laneEv e lane r) r

/-- It has marked those SEQ does not order with it. -/
def State.fastMarked (e : Ev) (lane : Bool) (r : State) : State × Ev := (r.noteHeld (fastEv e lane r) e.advHeld).markAmbig (fastEv e lane r)

/-- The state in which it is armed. -/
def State.fastReady (p : Pod) (e : Ev) (lane : Bool) (r : State) : State := (r.fastMarked e lane).1.when lane (State.drainIf p (r.fastMarked e lane).2)

/-- Event e is in the fast lane of the pod. -/
def inLane (p : Pod) (e : Ev) (s : State) : Bool := s.pod[p].fast.any (fun x => x.ord == e.ord)

theorem State.armFast_eq {p : Pod} {e : Ev} {s : State} (due : s.pod[p].armedAt < s.tick + 1)
    (first : (sortBy (urgentBefore (s.pod[p].fast ++ s.pod[p].commits)) (s.pod[p].fast ++ s.pod[p].commits)).head? = some e) :
    s.armFast p = ((s.fastOff p e (inLane p e s)).fastReady p e (inLane p e s)).armUrgent ((s.fastOff p e (inLane p e s)).fastMarked e (inLane p e s)).2 := by
  obtain ⟨l, sorted⟩ := List.head?_eq_some_iff.mp first
  unfold State.armFast
  dsimp only
  rw [sorted]
  exact if_neg (Nat.not_le_of_lt due)

theorem fastBall_same (e : Ev) (s : State) : SameEv e (fastBall e s) := by
  unfold fastBall
  extract_lets own f l a
  split
  · exact .refl e
  · split <;> exact ⟨rfl, rfl⟩

theorem fastEv_same (e : Ev) (lane : Bool) (r : State) : SameEv e (fastEv e lane r) := by
  refine SameEv.trans ?_ (holdEv_same ..)
  unfold laneEv
  split
  · exact fastBall_same e r
  · exact .refl e

theorem State.fastMarked_same (e : Ev) (lane : Bool) (r : State) : SameEv e (r.fastMarked e lane).2 := (fastEv_same e lane r).trans (State.markAmbig_same ..)

theorem State.drainIf_lists (p : Pod) (e : Ev) (s : State) : ListsFrom s (s.drainIf p e) := by
  unfold State.drainIf State.when
  split
  · exact State.drainCheck_lists ..
  · exact .refl s

/-- What makes an event ready to be armed leaves the lists, and what decides whether its channel takes it. -/
structure ArmReady (n : Ch) (s t : State) : Prop where
  lists : ListsFrom s t
  alike : ArmAlike n s t
  tick : t.tick = s.tick

theorem ArmReady.trans {n : Ch} {s t u : State} (h : ArmReady n s t) (k : ArmReady n t u) : ArmReady n s u :=
  ⟨h.lists.trans k.lists, h.alike.trans k.alike, k.tick.trans h.tick⟩

theorem ArmReady.when {n : Ch} {s : State} {f : State → State} (b : Bool) (h : ∀ r : State, ArmReady n r (f r)) : ArmReady n s (s.when b f) := by
  cases b
  · exact ⟨.refl s, .refl n s, rfl⟩
  · exact h s

theorem State.fastOff_ready (p : Pod) (n : Ch) (e : Ev) (lane : Bool) (s : State) : ArmReady n s (s.fastOff p e lane) := by
  have off : ArmReady n s (s.modPod p (PodSt.offUrgent e.ord)) := by
    refine ⟨ListsFrom.modPod rfl rfl fun b hb => ?_, .of_ch rfl, rfl⟩
    have whole : (PodSt.offUrgent e.ord s.pod[p]).fast ++ (PodSt.offUrgent e.ord s.pod[p]).commits = (s.pod[p].fast ++ s.pod[p].commits).filter (fun x => x.ord != e.ord) := (List.filter_append ..).symm
    rw [whole] at hb
    exact (List.mem_filter.mp hb).1
  exact off.trans (ArmReady.when lane fun r => ⟨State.freeSlots_lists 1 r, .of_ch rfl, rfl⟩)

theorem State.markAmbig_ready (n : Ch) (e : Ev) (s : State) : ArmReady n s (s.markAmbig e).1 :=
  ⟨State.markAmbig_lists e s, .of_marks (State.markAmbig_ch e s n), (State.markAmbig_keeps e s).tick (by decide)⟩

theorem State.fastReady_ready (p : Pod) (n : Ch) (e : Ev) (lane : Bool) (r : State) : ArmReady n r (r.fastReady p e lane) := by
  have noted : ArmReady n r (r.noteHeld (fastEv e lane r) e.advHeld) :=
    ⟨.of_keeps (State.noteHeld_keeps ..) (by decide) (by decide), State.noteHeld_alike .., (State.noteHeld_keeps ..).tick (by decide)⟩
  have marked : ArmReady n (r.noteHeld (fastEv e lane r) e.advHeld) (r.fastMarked e lane).1 :=
    State.markAmbig_ready n (fastEv e lane r) (r.noteHeld (fastEv e lane r) e.advHeld)
  have drained (v : State) : ArmReady n v (v.drainIf p (r.fastMarked e lane).2) :=
    ⟨State.drainIf_lists .., .of_ch ((State.drainIf_keeps ..).2 .ch (by decide)), (State.drainIf_keeps ..).tick (by decide)⟩
  exact (noted.trans marked).trans (ArmReady.when lane drained)

theorem State.fastOff_off (p : Pod) (e : Ev) (lane : Bool) (s : State) : ∀ b ∈ (s.fastOff p e lane).pod[p].fast ++ (s.fastOff p e lane).pod[p].commits, b.ord ≠ e.ord := by
  have pods : (s.fastOff p e lane).pod[p] = PodSt.offUrgent e.ord s.pod[p] := by
    cases lane
    · exact State.modPod_pod_same ..
    · exact State.modPod_pod_same ..
  have whole : (PodSt.offUrgent e.ord s.pod[p]).fast ++ (PodSt.offUrgent e.ord s.pod[p]).commits = (s.pod[p].fast ++ s.pod[p].commits).filter (fun x => x.ord != e.ord) := (List.filter_append ..).symm
  rw [pods, whole]
  exact fun b hb => bne_iff_ne.mp (List.mem_filter.mp hb).2

/-- What an arm of the fast lane or the commit path leaves. -/
structure FastArmed (p : Pod) (e : Ev) (s t : State) : Prop where
  off : ∀ x ∈ t.pod[p].fast ++ t.pod[p].commits, x.ord ≠ e.ord
  held : s.ch[e.rec_.ch].aborted = true → ∃ x ∈ t.pod[p].staging ++ t.pod[p].spill, x.ord = e.ord ∧ x.rec_ = e.rec_
  armed : ∀ u : Unit4, s.ch[e.rec_.ch].aborted = false → freeUnit e.rec_.ch s = some u → t.pod[p].armedAt = s.tick + 1 ∧
    ∃ x : Ev, x.ord = e.ord ∧ x.rec_ = e.rec_ ∧ t.ch[e.rec_.ch].unit[u].cur = x.set

theorem armUrgent_armed {p : Pod} {e x : Ev} {s v : State} (mine : podOf e.rec_.ch = p) (same : SameEv e x) (ready : ArmReady e.rec_.ch s v)
    (off : ∀ b ∈ v.pod[p].fast ++ v.pod[p].commits, b.ord ≠ e.ord) : FastArmed p e s (v.armUrgent x) := by
  obtain ⟨ord, rec_⟩ := same
  obtain ⟨lists, alike, tick⟩ := ready
  have ch : x.rec_.ch = e.rec_.ch := by rw [rec_]
  refine ⟨fun b hb => ?_, fun aborted => ?_, fun u aborted free => ?_⟩
  · obtain ⟨a, ha, ab⟩ := (State.armUrgent_lists x v).urgent p b hb
    rw [ab.1]
    exact off a ha
  · have abortedX : v.ch[x.rec_.ch].aborted = true := by
      simp only [ch]
      exact alike.aborted.trans aborted
    rw [State.armUrgent_aborted abortedX]
    exact ⟨x, State.mem_stageEv_of (by rw [ch]; exact mine) v, ord, rec_⟩
  · have abortedX : v.ch[x.rec_.ch].aborted = false := by
      simp only [ch]
      exact alike.aborted.trans aborted
    rw [State.armUrgent_free abortedX (by rw [ch]; exact alike.freeUnit.trans free)]
    have armed := State.arm_armed u x v
    have at_ := armed.armedAt
    have cur := armed.cur
    simp only [ch, mine] at at_ cur
    exact ⟨at_.trans (congrArg (· + 1) tick), x, ord, rec_, cur⟩

theorem State.armFast_armed {p : Pod} {e : Ev} {s : State} (due : s.pod[p].armedAt < s.tick + 1)
    (first : (sortBy (urgentBefore (s.pod[p].fast ++ s.pod[p].commits)) (s.pod[p].fast ++ s.pod[p].commits)).head? = some e) (mine : podOf e.rec_.ch = p) :
    FastArmed p e s (s.armFast p) := by
  rw [State.armFast_eq due first]
  generalize inLane p e s = lane
  have offReady := State.fastOff_ready p e.rec_.ch e lane s
  have off := State.fastOff_off p e lane s
  generalize s.fastOff p e lane = r at *
  have ready := State.fastReady_ready p e.rec_.ch e lane r
  refine armUrgent_armed mine (State.fastMarked_same e lane r) (offReady.trans ready) fun b hb => ?_
  obtain ⟨a, ha, ab⟩ := ready.lists.urgent p b hb
  rw [ab.1]
  exact off a ha

end Sys2Proof.Machine
end

section
/-!
Result records of matched and of missed events (R179 to R183): RETIRE and MISSED_AT_DUE.
-/
namespace Sys2Proof.Machine

/-! ### One record -/

/-- Of the pods, only the result ring and the backlog of p. -/
structure OnlyRes (p : Pod) (s t : State) : Prop where
  only : OnlyPod p s t
  pod : t.pod[p] = { s.pod[p] with res := t.pod[p].res }

theorem OnlyRes.refl (p : Pod) (s : State) : OnlyRes p s s := ⟨.refl p s, rfl⟩

theorem OnlyRes.trans {p : Pod} {s t u : State} (h : OnlyRes p s t) (k : OnlyRes p t u) : OnlyRes p s u := by
  refine ⟨h.only.trans k.only, ?_⟩
  rw [k.pod, h.pod]

theorem OnlyRes.of_pod_eq {p : Pod} {s t : State} (h : t.pod = s.pod) : OnlyRes p s t := by
  refine ⟨.of_pod_eq h, ?_⟩
  rw [h]

theorem OnlyRes.modPod {p : Pod} {f : PodSt → PodSt} {s : State} (h : f s.pod[p] = { s.pod[p] with res := (f s.pod[p]).res }) : OnlyRes p s (s.modPod p f) := by
  refine ⟨State.modPod_onlyPod p f s, ?_⟩
  rw [State.modPod_pod_same]
  exact h

theorem State.resPut_onlyRes (p : Pod) (r : ResRec) (s : State) : OnlyRes p s (s.resPut p r) := by
  unfold State.resPut
  exact (OnlyRes.of_pod_eq ((State.ringWrite_keeps ..).2 .pod (by decide))).trans (.modPod rfl)

theorem State.resWrite_onlyRes (p : Pod) (reserved : Bool) (r : ResRec) (s : State) : OnlyRes p s (s.resWrite p reserved r) := by
  unfold State.resWrite
  extract_lets q s1
  have reserves : OnlyRes p s s1 := .modPod rfl
  refine reserves.trans ?_
  split
  · exact State.resPut_onlyRes p r s1
  · split
    · exact .modPod rfl
    · exact .modPod rfl

theorem State.report_onlyRes (p : Pod) (o : Outcome) (s : State) : OnlyRes p s (s.report p o) := by
  unfold State.report
  split
  · exact State.resWrite_onlyRes ..
  · exact .refl p s

/-- A pod with a record more in its backlog. -/
def PodSt.waits (r : ResRec) (q : PodSt) : PodSt := { q with res := { q.res with backlog := q.res.backlog ++ [r] } }

theorem State.modPod_self {p : Pod} {f : PodSt → PodSt} {s : State} (h : f s.pod[p] = s.pod[p]) : s.modPod p f = s := by
  have same : s.pod.set p.val (f s.pod[p]) = s.pod := by
    rw [h]
    exact Vector.set_getElem_self ..
  exact congrArg (fun v : Vector PodSt 8 => { s with pod := v }) same

section
variable {p : Pod} {r : ResRec} {s : State}

theorem State.resWrite_opened : s.resWrite p false r =
    if s.pod[p].res.backlog.isEmpty && resOpen s.pod[p].res s && !s.pod[p].res.full then s.resPut p r
    else if s.pod[p].res.roomFor false then s.modPod p (PodSt.waits r)
    else s.modPod p (fun x => { x with res := { x.res with
      gap := x.res.gap.bump s.tick 1 0xFFFFFFFF, gapNow := min 0xFFFFFFFF (x.res.gapNow + 1)
      flags := x.res.flags.raise s.tick (flag 17 true) } }) := by
  have none : s.modPod p (fun x => { x with res := { x.res with reserved := x.res.reserved - (if false then 1 else 0) } }) = s := State.modPod_self rfl
  unfold State.resWrite
  dsimp only
  rw [none]
  rfl

/-- A record goes into a ring in the store that has room, behind no backlog. -/
theorem State.resWrite_ring (inStore : s.pod[p].res.base.getLsbD 63 = false) (set : s.pod[p].res.log2 ≠ 0) (room : (s.pod[p].res.wr - s.pod[p].res.rd).toNat < 2 ^ s.pod[p].res.log2)
    (empty : s.pod[p].res.backlog = []) : (s.resWrite p false r).pod[p].res = { s.pod[p].res with wr := s.pod[p].res.wr + 1, rseq := s.pod[p].res.rseq + 1 } ∧
      (s.resWrite p false r).store.mem = memWrites s.pod[p].res.place (r.bytes s.pod[p].res.rseq) s.store.mem := by
  have takes : (resOpen s.pod[p].res s && !s.pod[p].res.full) = true := by
    rw [← Bool.not_eq_false, resClosed_iff, Results.inHost, inStore, Bool.false_and]
    rintro (h | h | h)
    · exact set h
    · exact Bool.noConfusion h
    · omega
  have put : s.resWrite p false r = s.resPut p r := by
    rw [State.resWrite_opened]
    refine if_pos ?_
    rw [Bool.and_assoc, takes, empty]
    rfl
  rw [put]
  unfold State.resPut
  dsimp only
  rw [State.ringWrite_of_store _ _ s inStore, State.modPod_pod_same]
  exact ⟨rfl, rfl⟩

/-- A record waits in the backlog while the ring takes none. -/
theorem State.resWrite_backlog (closed : s.pod[p].res.log2 = 0 ∨ 2 ^ s.pod[p].res.log2 ≤ (s.pod[p].res.wr - s.pod[p].res.rd).toNat)
    (room : s.pod[p].res.backlog.length + s.pod[p].res.reserved < 4096) : s.resWrite p false r = s.modPod p (PodSt.waits r) := by
  have takesNone : (resOpen s.pod[p].res s && !s.pod[p].res.full) = false := by
    rw [resClosed_iff]
    obtain h | h := closed
    · exact .inl h
    · exact .inr (.inr h)
  rw [State.resWrite_opened, Bool.and_assoc, takesNone, Bool.and_false]
  exact (if_neg Bool.false_ne_true).trans (if_pos (decide_eq_true room))

end

/-! ### RETIRE -/

/-- The outcomes whose ACT_LT has come. -/
def outcomesDue (t : Nat) (l : List Outcome) : List Outcome := l.filter (fun o => decide (o.actLt / 32 ≤ t))

/-- The outcomes whose ACT_LT has not come. -/
def outcomesLater (t : Nat) (l : List Outcome) : List Outcome := l.filter (fun o => decide (t < o.actLt / 32))

/-- A pod whose outcomes that are due are taken. -/
def PodSt.retires (t : Nat) (q : PodSt) : PodSt := { q with matched := outcomesLater t q.matched }

theorem State.retire_eq (p : Pod) (s : State) : s.retire p =
    forAll (sortBy (outcomeBefore ((outcomesDue s.tick s.pod[p].matched).map (fun o => o.ev))) (outcomesDue s.tick s.pod[p].matched)) (State.report p) (s.modPod p (PodSt.retires s.tick)) := rfl

theorem State.retire_onlyRes (p : Pod) (s : State) : OnlyRes p (s.modPod p (PodSt.retires s.tick)) (s.retire p) := by
  rw [State.retire_eq]
  exact forAll_induction (P := OnlyRes p (s.modPod p (PodSt.retires s.tick))) (fun o _ r h => h.trans (State.report_onlyRes p o r)) (.refl p _)

theorem State.retire_onlyPod (p : Pod) (s : State) : OnlyPod p s (s.retire p) := (State.modPod_onlyPod p _ s).trans (State.retire_onlyRes p s).only

theorem State.retire_matched (p : Pod) (s : State) : (s.retire p).pod[p].matched = outcomesLater s.tick s.pod[p].matched := by
  rw [(State.retire_onlyRes p s).pod, State.modPod_pod_same]
  rfl

theorem State.retire_one {p : Pod} {o : Outcome} {s : State} (one : outcomesDue s.tick s.pod[p].matched = [o]) : s.retire p = (s.modPod p (PodSt.retires s.tick)).report p o := by
  rw [State.retire_eq, one]
  rfl

/-- What a single outcome that is due leaves of the pod's records. -/
structure Reported (p : Pod) (o : Outcome) (s t : State) : Prop where
  unwanted : o.wanted = false → t.pod[p].res = s.pod[p].res ∧ t.store.mem = s.store.mem
  ring : o.wanted = true → s.pod[p].res.base.getLsbD 63 = false → s.pod[p].res.log2 ≠ 0 → (s.pod[p].res.wr - s.pod[p].res.rd).toNat < 2 ^ s.pod[p].res.log2 → s.pod[p].res.backlog = [] →
    t.pod[p].res = { s.pod[p].res with wr := s.pod[p].res.wr + 1, rseq := s.pod[p].res.rseq + 1 } ∧ t.store.mem = memWrites s.pod[p].res.place (o.rec_.bytes s.pod[p].res.rseq) s.store.mem
  backlog : o.wanted = true → (s.pod[p].res.log2 = 0 ∨ 2 ^ s.pod[p].res.log2 ≤ (s.pod[p].res.wr - s.pod[p].res.rd).toNat) → s.pod[p].res.backlog.length + s.pod[p].res.reserved < 4096 →
    t.pod[p].res = { s.pod[p].res with backlog := s.pod[p].res.backlog ++ [o.rec_] } ∧ t.store.mem = s.store.mem

theorem State.report_reported (p : Pod) (o : Outcome) (s : State) : Reported p o s (s.report p o) := by
  unfold State.report
  refine ⟨fun no => ?_, fun yes inStore set room empty => ?_, fun yes closed room => ?_⟩
  · rw [no]
    exact ⟨rfl, rfl⟩
  · rw [yes, if_pos rfl]
    exact State.resWrite_ring inStore set room empty
  · rw [yes, if_pos rfl, State.resWrite_backlog closed room, State.modPod_pod_same]
    exact ⟨rfl, rfl⟩

theorem State.retire_reported {p : Pod} {o : Outcome} {s : State} (one : outcomesDue s.tick s.pod[p].matched = [o]) : Reported p o s (s.retire p) := by
  rw [State.retire_one one]
  have reported := State.report_reported p o (s.modPod p (PodSt.retires s.tick))
  have res : (s.modPod p (PodSt.retires s.tick)).pod[p].res = s.pod[p].res := by
    rw [State.modPod_pod_same]
    rfl
  have mem : (s.modPod p (PodSt.retires s.tick)).store.mem = s.store.mem := rfl
  generalize s.modPod p (PodSt.retires s.tick) = r at *
  obtain ⟨unwanted, ring, backlog⟩ := reported
  rw [res, mem] at unwanted ring backlog
  exact ⟨unwanted, ring, backlog⟩

end Sys2Proof.Machine
end

section
/-!
PROOF of the obligation on staging, arming, retiring and missed events (O35).
-/
namespace Sys2Proof.Machine

/-! ### MISSED_AT_DUE (R163, R181) -/

/-- Record e of the wheel or the overflow area is missed by the boundary t. -/
def missedFar (p : Pod) (t : Nat) (s : State) (e : Ev) : Bool := podOf e.rec_.ch == p && s.ch[e.rec_.ch].aborted && dueBy t (if e.committed then e else e.refresh s)

/-- Event e of the pod is missed by the boundary t. -/
def missedNear (p : Pod) (t : Nat) (s : State) (e : Ev) : Bool := podOf e.rec_.ch == p && s.ch[e.rec_.ch].aborted && dueBy t e

/-- A calendar without the records that are missed. -/
def Calendar.without (gone : Ev → Bool) (x : Calendar) : Calendar := { x with wheel := x.wheel.filter (fun e => !gone e), ovfl := x.ovfl.filter (fun e => !gone e) }

/-- The outcome of an event missed in an abort. -/
def abortMissed (e : Ev) : Outcome := { ev := e, x := e.dueLt, missed := some rsAbort }

/-- A pod without the events that are missed, their outcomes l waiting for their records. -/
def PodSt.misses (gone : Ev → Bool) (l : List Outcome) (q : PodSt) : PodSt :=
  { q with
    staging := q.staging.filter (fun e => !gone e), spill := q.spill.filter (fun e => !gone e)
    fast := q.fast.filter (fun e => !gone e), commits := q.commits.filter (fun e => !gone e), matched := q.matched ++ l }

/-- The records of the wheel and the overflow area that are missed. -/
def farMissed (p : Pod) (t : Nat) (s : State) : List Ev := (s.cal.wheel ++ s.cal.ovfl).filter (missedFar p t s)

/-- The events of the pod that are missed. -/
def nearMissed (p : Pod) (t : Nat) (s : State) : List Ev := (s.pod[p].staging ++ s.pod[p].spill ++ s.pod[p].fast ++ s.pod[p].commits).filter (missedNear p t s)

theorem State.missAborted_eq (p : Pod) (t : Nat) (s : State) : s.missAborted p t =
    ((s.withCal (s.cal.without (missedFar p t s))).modPod p (PodSt.misses (missedNear p t s) ((farMissed p t s ++ nearMissed p t s).map abortMissed))).freeSlots
      ((farMissed p t s).length + (s.pod[p].fast.filter (missedNear p t s)).length) := rfl

/-- A pod whose lost events' outcomes wait for their records. -/
def PodSt.told (l : List Outcome) (q : PodSt) : PodSt := { q with matched := q.matched ++ l }

/-- The outcome of an event lost to the store. -/
def lostMissed (x : Ev × Nat) : Outcome := { ev := x.1, x := if x.1.rec_.timed then x.1.dueLt else x.1.rec_.due, missed := some x.2 }

/-- Lost event x is due. -/
def lostDue (p : Pod) (s : State) (x : Ev × Nat) : Bool := podOf x.1.rec_.ch == p && decide (x.1.dueLt / 32 ≤ s.tick)

/-- A calendar without the lost events that are due. -/
def Calendar.tells (due : Ev × Nat → Bool) (x : Calendar) : Calendar := { x with missed := x.missed.filter (fun e => !due e) }

theorem State.missLost_eq (p : Pod) (s : State) : s.missLost p =
    (s.withCal (s.cal.tells (lostDue p s))).modPod p (PodSt.told ((s.cal.missed.filter (lostDue p s)).map lostMissed)) := rfl

theorem State.missAborted_onlyPod (p : Pod) (t : Nat) (s : State) : OnlyPod p s (s.missAborted p t) := by
  rw [State.missAborted_eq]
  exact State.modPod_onlyPod p _ (s.withCal (s.cal.without (missedFar p t s)))

theorem State.missLost_onlyPod (p : Pod) (s : State) : OnlyPod p s (s.missLost p) := by
  rw [State.missLost_eq]
  exact State.modPod_onlyPod p _ (s.withCal (s.cal.tells (lostDue p s)))

theorem State.missedAtDue_eq (p : Pod) (s : State) : s.missedAtDue p = ((s.missAborted p (s.tick + 1)).missLost p).retire p := rfl

theorem State.missedAtDue_onlyPod (p : Pod) (s : State) : OnlyPod p s (s.missedAtDue p) := by
  rw [State.missedAtDue_eq]
  exact ((State.missAborted_onlyPod p _ s).trans (State.missLost_onlyPod p _)).trans (State.retire_onlyPod p _)

/-- The lists of the calendar after MISSED_AT_DUE. -/
theorem State.missedAtDue_far (p : Pod) (s : State) :
    (s.missedAtDue p).cal.wheel ++ (s.missedAtDue p).cal.ovfl = (s.cal.wheel ++ s.cal.ovfl).filter (fun e => !missedFar p (s.tick + 1) s e) := by
  have retired : (s.missedAtDue p).cal = ((s.missAborted p (s.tick + 1)).missLost p).cal := (State.retire_keeps ..).2 .cal (by decide)
  rw [retired, List.filter_append]
  rfl

theorem missedFar_of_due {p : Pod} {s : State} {e : Ev} (mine : podOf e.rec_.ch = p) (aborted : s.ch[e.rec_.ch].aborted = true) (time : e.rec_.dom = 0) (due : e.rec_.due / 32 ≤ s.tick) :
    missedFar p (s.tick + 1) s e = true := by
  have timed : e.rec_.timed = true := beq_iff_eq.mpr time
  have dueE : e.dueLt = e.rec_.due := if_pos timed
  have dueR : (e.refresh s).dueLt = e.rec_.due := if_pos timed
  have by_ : dueBy (s.tick + 1) (if e.committed then e else e.refresh s) = true := by
    split
    · exact decide_eq_true (by rw [dueE]; omega)
    · exact decide_eq_true (by rw [dueR]; omega)
  unfold missedFar
  rw [mine, aborted, by_, beq_self_eq_true]
  rfl

/-- The one event of an aborted channel that is due is told in the backlog of a pod without a ring. -/
theorem State.missedAtDue_one {p : Pod} {s : State} {e : Ev} (wheel : s.cal.wheel = [e]) (time : e.rec_.dom = 0) (mine : podOf e.rec_.ch = p) (aborted : s.ch[e.rec_.ch].aborted = true)
    (due : e.rec_.due / 32 ≤ s.tick) (ovfl : s.cal.ovfl = []) (lost : s.cal.missed = []) (near : s.pod[p].staging ++ s.pod[p].spill ++ s.pod[p].fast ++ s.pod[p].commits = [])
    (matched : s.pod[p].matched = []) (noRing : s.pod[p].res.log2 = 0) (room : s.pod[p].res.backlog.length + s.pod[p].res.reserved < 4096) :
    (s.missedAtDue p).pod[p].res.backlog = s.pod[p].res.backlog ++ [{ actLt := e.rec_.due, word := e.rec_.resWord, half := resHalf false true e.ambig e.advHeld 1 }] := by
  have dueLt : e.dueLt = e.rec_.due := if_pos (beq_iff_eq.mpr time)
  have far : farMissed p (s.tick + 1) s = [e] := by
    unfold farMissed
    rw [wheel, ovfl]
    exact List.filter_cons_of_pos (missedFar_of_due mine aborted time due)
  have none : nearMissed p (s.tick + 1) s = [] := by
    unfold nearMissed
    rw [near]
    rfl
  have pod : ((s.missAborted p (s.tick + 1)).missLost p).pod[p] =
      PodSt.told [] (PodSt.misses (missedNear p (s.tick + 1) s) [abortMissed e] s.pod[p]) := by
    have lostA : (s.missAborted p (s.tick + 1)).cal.missed = [] := lost
    have podA : (s.missAborted p (s.tick + 1)).pod[p] = PodSt.misses (missedNear p (s.tick + 1) s) [abortMissed e] s.pod[p] := by
      have same : ((s.withCal (s.cal.without (missedFar p (s.tick + 1) s))).modPod p
          (PodSt.misses (missedNear p (s.tick + 1) s) ((farMissed p (s.tick + 1) s ++ nearMissed p (s.tick + 1) s).map abortMissed))).pod[p] = _ := State.modPod_pod_same ..
      rw [far, none] at same
      rw [State.missAborted_eq, far, none]
      exact same
    generalize s.missAborted p (s.tick + 1) = a at *
    have same : ((a.withCal (a.cal.tells (lostDue p a))).modPod p (PodSt.told ((a.cal.missed.filter (lostDue p a)).map lostMissed))).pod[p] = _ := State.modPod_pod_same ..
    rw [State.missLost_eq, same, lostA]
    exact congrArg (PodSt.told []) podA
  have tick : ((s.missAborted p (s.tick + 1)).missLost p).tick = s.tick := rfl
  rw [State.missedAtDue_eq]
  generalize (s.missAborted p (s.tick + 1)).missLost p = b at *
  have matchedB : b.pod[p].matched = [abortMissed e] := by
    rw [pod]
    exact congrArg (fun l => (l ++ [abortMissed e]) ++ []) matched
  have resB : b.pod[p].res = s.pod[p].res := by
    rw [pod]
    rfl
  have dueO : decide ((abortMissed e).actLt / 32 ≤ b.tick) = true := by
    have lt : (abortMissed e).actLt = e.rec_.due := dueLt
    rw [lt, tick]
    exact decide_eq_true due
  have one : outcomesDue b.tick b.pod[p].matched = [abortMissed e] := by
    rw [matchedB]
    exact List.filter_cons_of_pos dueO
  have wanted : (abortMissed e).wanted = true := by
    unfold Outcome.wanted
    simp [abortMissed]
  obtain ⟨told, -⟩ := (State.retire_reported one).backlog wanted (by rw [resB]; exact .inl noRing) (by rw [resB]; exact room)
  have record : (abortMissed e).rec_ = { actLt := e.rec_.due, word := e.rec_.resWord, half := resHalf false true e.ambig e.advHeld 1 } :=
    congrArg (fun a => ({ actLt := a, word := e.rec_.resWord, half := resHalf false true e.ambig e.advHeld 1 } : ResRec)) dueLt
  rw [told, resB, record]

/-! ### ARM_STAGE -/

theorem nextStaged_congr {s u : State} (lanes : LanesKept s u) (ch : u.ch = s.ch) (n : Ch) : nextStaged n u = nextStaged n s := by
  obtain ⟨staging, spill, -⟩ := lanes (podOf n)
  unfold nextStaged freeUnit
  dsimp only
  rw [staging, spill, ch]

theorem stagedPick_congr {p : Pod} {s u : State} (lanes : LanesKept s u) (ch : u.ch = s.ch) : stagedPick p u = stagedPick p s := by
  unfold stagedPick
  rw [funext (nextStaged_congr lanes ch)]

/-- A pod's staging without one event. -/
def PodSt.offStaging (o : Nat) (q : PodSt) : PodSt := { q with staging := q.staging.filter (fun x => x.ord != o), spill := q.spill.filter (fun x => x.ord != o) }

theorem State.armStage_eq {p : Pod} {e : Ev} {u : Unit4} {s : State} (due : s.pod[p].armedAt < s.tick + 1) (pick : stagedPick p s = some e) (free : freeUnit e.rec_.ch s = some u) :
    s.armStage p = (s.modPod p (PodSt.offStaging e.ord)).arm u e := by
  unfold State.armStage
  rw [pick]
  dsimp only
  rw [free]
  exact if_neg (Nat.not_le_of_lt due)

theorem State.armStage_armed {p : Pod} {e : Ev} {u : Unit4} {s : State} (due : s.pod[p].armedAt < s.tick + 1) (pick : stagedPick p s = some e) (free : freeUnit e.rec_.ch s = some u) :
    (∀ x ∈ (s.armStage p).pod[p].staging ++ (s.armStage p).pod[p].spill, x.ord ≠ e.ord) ∧ Armed u e (s.modPod p (PodSt.offStaging e.ord)) (s.armStage p) := by
  rw [State.armStage_eq due pick free]
  have armed := State.arm_armed u e (s.modPod p (PodSt.offStaging e.ord))
  obtain ⟨staging, spill⟩ := armed.staged p
  have whole : (PodSt.offStaging e.ord s.pod[p]).staging ++ (PodSt.offStaging e.ord s.pod[p]).spill = (s.pod[p].staging ++ s.pod[p].spill).filter (fun x => x.ord != e.ord) := (List.filter_append ..).symm
  refine ⟨?_, armed⟩
  rw [staging, spill, State.modPod_pod_same, whole]
  exact fun x hx => bne_iff_ne.mp (List.mem_filter.mp hx).2

/-! ### After the dispatch -/

/-- What an arm or a retirement finds of the state before its dispatch. -/
structure EvsSeen (p : Pod) (s u : State) : Prop where
  keeps : Keeps [.pod, .free] s u
  only : OnlyPod p s u
  lanes : LanesKept s u
  matched : u.pod[p].matched = s.pod[p].matched
  res : u.pod[p].res = s.pod[p].res
  ch : u.ch = s.ch
  mem : u.store.mem = s.store.mem
  tick : u.tick = s.tick

theorem Dispatched.evsSeen {p : Pod} {s u : State} (h : Dispatched p s u) : EvsSeen p s u := by
  have lanes := h.lanes
  obtain ⟨keeps, only, pod⟩ := h
  exact ⟨keeps, only, lanes, by rw [pod], by rw [pod], keeps.2 .ch (by decide), keeps.2 .mem (by decide), keeps.tick (by decide)⟩

section
variable {p : Pod} {s u : State} (seen : EvsSeen p s u)
include seen

theorem EvsSeen.due (due : s.pod[p].armedAt < s.tick + 1) : u.pod[p].armedAt < u.tick + 1 := by
  obtain ⟨-, -, -, -, armedAt⟩ := seen.lanes p
  rw [armedAt, seen.tick]
  exact due

theorem EvsSeen.freeUnit (n : Ch) : freeUnit n u = freeUnit n s := (ArmAlike.of_ch seen.ch).freeUnit

theorem armFast_arms {e : Ev} (due : s.pod[p].armedAt < s.tick + 1)
    (first : (sortBy (urgentBefore (s.pod[p].fast ++ s.pod[p].commits)) (s.pod[p].fast ++ s.pod[p].commits)).head? = some e) (mine : podOf e.rec_.ch = p) :
    Keeps [.guar, .ch, .cal, .pod, .mem, .store, .mbx, .pcie, .sur, .free] s (u.armFast p) ∧ FastArmed p e s (u.armFast p) := by
  refine ⟨(seen.keeps.mono (by decide)).step (State.armFast_keeps p u) (by decide), ?_⟩
  obtain ⟨-, -, fast, commits, -⟩ := seen.lanes p
  obtain ⟨off, held, armed⟩ := State.armFast_armed (seen.due due) (by rw [fast, commits]; exact first) mine
  refine ⟨off, fun aborted => held (by rw [seen.ch]; exact aborted), fun v aborted free => ?_⟩
  obtain ⟨at_, cur⟩ := armed v (by rw [seen.ch]; exact aborted) ((seen.freeUnit _).trans free)
  exact ⟨at_.trans (congrArg (· + 1) seen.tick), cur⟩

/-- What arming a staged event leaves. -/
structure StageArmed (p : Pod) (v : Unit4) (e : Ev) (s t : State) : Prop where
  off : ∀ x ∈ t.pod[p].staging ++ t.pod[p].spill, x.ord ≠ e.ord
  armedAt : t.pod[p].armedAt = s.tick + 1
  cur : t.ch[e.rec_.ch].unit[v].cur = e.set
  ahead : s.tick + 1 < e.actionTick → e.actionTick < s.tick + 2 ^ 47 → t.ch[e.rec_.ch].unit[v].active = e.set ∧ t.ch[e.rec_.ch].unit[v].live = true ∧
    t.ch[e.rec_.ch].unit[v].owner = true ∧ t.ch[e.rec_.ch].unit[v].ev = some { e with committed := true }

theorem armStage_arms {e : Ev} {v : Unit4} (due : s.pod[p].armedAt < s.tick + 1) (pick : stagedPick p s = some e) (mine : podOf e.rec_.ch = p) (free : freeUnit e.rec_.ch s = some v) :
    Keeps [.ch, .pod, .mem, .store, .mbx, .pcie, .sur, .free] s (u.armStage p) ∧ StageArmed p v e s (u.armStage p) := by
  refine ⟨(seen.keeps.mono (by decide)).step (State.armStage_keeps p u) (by decide), ?_⟩
  obtain ⟨off, armed⟩ := State.armStage_armed (seen.due due) ((stagedPick_congr seen.lanes seen.ch).trans pick) ((seen.freeUnit _).trans free)
  have tick : (u.modPod p (PodSt.offStaging e.ord)).tick + 1 = s.tick + 1 := congrArg (· + 1) seen.tick
  have at_ := armed.armedAt
  simp only [mine] at at_
  refine ⟨off, at_.trans tick, armed.cur, fun after near => armed.ahead ?_⟩
  rw [tick]
  exact Ev.set_ahead after (by omega)

theorem retire_retires : Keeps [.pod, .mem, .store, .pcie, .free] s (u.retire p) ∧ OnlyPod p s (u.retire p) ∧ (u.retire p).pod[p].matched = outcomesLater s.tick s.pod[p].matched ∧
    ∀ o : Outcome, outcomesDue s.tick s.pod[p].matched = [o] → Reported p o s (u.retire p) := by
  refine ⟨(seen.keeps.mono (by decide)).step (State.retire_keeps p u) (by decide), seen.only.trans (State.retire_onlyPod p u), ?_, fun o one => ?_⟩
  · rw [State.retire_matched, seen.matched, seen.tick]
  · obtain ⟨unwanted, ring, backlog⟩ := State.retire_reported (p := p) (o := o) (s := u) (by rw [seen.tick, seen.matched]; exact one)
    rw [seen.res, seen.mem] at unwanted ring backlog
    exact ⟨unwanted, ring, backlog⟩

end

/-! ### The obligation -/

/-- Settles O35: each clause after what a bucket boundary stages, an arm commits, and a retirement reports. -/
theorem stagingAndArming : Obligations.StagingAndArming := by
  unfold Obligations.StagingAndArming
  intro p f s
  refine ⟨⟨fun old => congrArg Host.Outcome.next (State.bucketBoundary_of_old old), fun run new => ?_⟩, fun due => ⟨fun e first mine => ?_, fun e u pick mine free => ?_⟩, ?_, ?_⟩
  · obtain ⟨bucket, wheel, ovfl, staged⟩ := State.bucketBoundary_staged run new
    exact ⟨_, rfl, State.bucketBoundary_keeps s, bucket, wheel, ovfl, staged⟩
  · have seen : EvsSeen p s (s.dispatch p true 17 f) := (State.dispatch_dispatched ..).evsSeen
    obtain ⟨keeps, off, held, armed⟩ := armFast_arms seen due first mine
    refine ⟨_, rfl, ?_⟩
    generalize (s.dispatch p true 17 f).armFast p = t at *
    exact ⟨keeps, off, held, armed⟩
  · have seen : EvsSeen p s (s.dispatch p false 33 f) := (State.dispatch_dispatched ..).evsSeen
    obtain ⟨keeps, off, armedAt, cur, ahead⟩ := armStage_arms seen due pick mine free
    refine ⟨_, rfl, ?_⟩
    generalize (s.dispatch p false 33 f).armStage p = t at *
    exact ⟨keeps, off, armedAt, cur, ahead⟩
  · have seen : EvsSeen p s (s.dispatch p false 17 f) := (State.dispatch_dispatched ..).evsSeen
    obtain ⟨keeps, only, matched, reported⟩ := retire_retires seen
    refine ⟨_, rfl, ?_⟩
    generalize (s.dispatch p false 17 f).retire p = t at *
    refine ⟨keeps, only, matched, fun o one => ?_⟩
    obtain ⟨unwanted, ring, backlog⟩ := reported o one
    exact ⟨unwanted, ring, backlog⟩
  · have later := State.retire_matched p ((s.missAborted p (s.tick + 1)).missLost p)
    have far := State.missedAtDue_far p s
    have keeps := State.missedAtDue_keeps p s
    have only := State.missedAtDue_onlyPod p s
    have one (e : Ev) := State.missedAtDue_one (p := p) (s := s) (e := e)
    have matched : (s.missedAtDue p).pod[p].matched = outcomesLater s.tick ((s.missAborted p (s.tick + 1)).missLost p).pod[p].matched := later
    refine ⟨_, rfl, ?_⟩
    generalize s.missedAtDue p = t at *
    refine ⟨keeps, only, fun o ho => ?_, fun e he mine aborted time => ?_, fun e wheel time mine aborted due ovfl lost staging spill fast commits none noRing room => ?_⟩
    · rw [matched] at ho
      exact of_decide_eq_true (List.mem_filter.mp ho).2
    · rw [far] at he
      by_contra due
      have gone := missedFar_of_due mine aborted time (Nat.not_lt.mp due)
      have stays := (List.mem_filter.mp he).2
      rw [gone] at stays
      exact nomatch stays
    · exact one e wheel time mine aborted due ovfl lost (by rw [staging, spill, fast, commits]; rfl) none noRing room

end Sys2Proof.Machine
end
